-- ==== Sys2Proof/Word.lean ====
section
/-! DEFINITION. The widths the manual works in, and the canonical table type that all sparse state uses. -/

namespace Sys2Proof

/-- One byte. -/
abbrev Byte := BitVec 8

/-- A 32-bit register word (R751). -/
abbrev Word := BitVec 32

/-- The 64 B of one access; byte `i` is bits `8i+7:8i` (R592, R5). -/
abbrev Line := BitVec 512

/-- The 72 symbols of one stored access; symbol `i` is bits `8i+7:8i` (R592). -/
abbrev Code := BitVec 576

/-- The 128 B of one tile write-data beat (R97). -/
abbrev Beat := BitVec 1024

/-- A 64-bit op word (R432). -/
abbrev OpWord := BitVec 64

/-- A place in the memory arrays, numbered `((ps * 32 + bank) * 16384 + row) * 32 + column` (R9). -/
abbrev Key := Nat

/-- A sparse table: pairs of a number and a value. Its canonical form (numbers rising, no value equal to
what an unlisted number reads as) is `Tab.wf`. -/
abbrev Tab (α : Type) := List (Nat × α)

end Sys2Proof
end

