-- ==== Sys2Proof/Syntax.lean ====
section
/-! DEFINITION. The commands: one constructor of `Instr` for each row of spec/opcode_table.json, with the
operands the row's rules give it. What the surroundings answer is an operand of the row that receives it. -/

namespace Sys2Proof

/-- The fields of a request word other than TYPE (R92; R102 for a narrow port). -/
structure Request where
  /-- TAG, bits 7:0 -/
  tag : BitVec 8
  /-- SERVICE, bits 14:12 -/
  service : BitVec 3
  /-- COLOUR, bits 16:15 -/
  colour : BitVec 2
  /-- DIGEST, bit 17 -/
  digest : Bool
  /-- AFMT, bits 20:18 -/
  afmt : BitVec 3
  /-- LEN, bits 25:21 -/
  len : BitVec 5
  /-- reserved bits 31:26 -/
  rsvLo : BitVec 6
  /-- SLACK, bits 47:32 -/
  slack : BitVec 16
  /-- ADDR, bits 87:48 -/
  addr : BitVec 40
  /-- ABORT_TAG, bits 95:88 -/
  abortTag : BitVec 8
  /-- reserved bits 127:96 -/
  rsvHi : BitVec 32
  deriving DecidableEq, Repr

/-- The request whose fields are all zero. -/
def Request.zero : Request :=
  ⟨0, 0, 0, false, 0, 0, 0, 0, 0, 0, 0⟩

/-- The fields of a BLP descriptor other than OP (R144). -/
structure Desc where
  /-- DESC_ID, bits 15:0 -/
  descId : BitVec 16
  /-- SRC_CHIP, bits 30:16 -/
  srcChip : BitVec 15
  /-- DIGEST, bit 31 -/
  digest : Bool
  /-- AFMT, bits 36:34 -/
  afmt : BitVec 3
  /-- COLOUR, bits 38:37 -/
  colour : BitVec 2
  /-- reserved bits 63:39 -/
  rsvA : BitVec 25
  /-- ADDR, bits 103:64 -/
  addr : BitVec 40
  /-- reserved bits 127:104 -/
  rsvB : BitVec 24
  /-- LEN in bytes, bits 152:128 -/
  len : BitVec 25
  /-- reserved bits 255:153 -/
  rsvC : BitVec 103
  deriving DecidableEq, Repr

/-- The descriptor whose fields are all zero. -/
def Desc.zero : Desc :=
  ⟨0, 0, false, 0, 0, 0, 0, 0, 0, 0⟩

/-- What training a bundle finds (R627, R630): bonds that show no passing position, whether the strobe or
clock bond found one, and the measured trim words by bond (R633). -/
structure TrainOutcome where
  /-- bonds (0 to 86) without a passing position -/
  badBonds : List Nat
  /-- the strobe or clock bond found no passing position (R593) -/
  strobeBad : Bool
  /-- measured trim words, by bond -/
  trims : List (Nat × BitVec 32)
  deriving DecidableEq, Repr

/-- What one memory layer presents at start-up (R611, R614, R698). -/
structure LayerEnv where
  /-- some sideband of the layer answers within 1 ms (check 1 of R614) -/
  answers : Bool
  /-- the capability descriptor as read last, byte `i` in bits `8i+7:8i` (R611) -/
  raw : BitVec 1024
  /-- the fuse repair maps: position, and the three copies word by word (R698) -/
  fuses : List (Nat × List (BitVec 32 × BitVec 32 × BitVec 32))
  deriving DecidableEq, Repr

/-- What start-up meets outside the block (R889, R614, R626, R846). -/
structure StartEnv where
  /-- the boot store answers (R890) -/
  bootAnswers : Bool
  /-- words of boot copy A put into the store beforehand (`none`: what it holds already) -/
  bootA : Option (List (BitVec 32))
  /-- words of boot copy B put into the store beforehand -/
  bootB : Option (List (BitVec 32))
  /-- layers 0 to 15 -/
  layers : List LayerEnv
  /-- training outcome by physical slice; a slice left out trains without a fault -/
  train : List (Nat × TrainOutcome)
  /-- readings of the PHY sensors when boot training ends, from slice 0 on (R635) -/
  phy : List (BitVec 16)
  /-- finger code measured against KX_ZQ (R624) -/
  zq : BitVec 5
  /-- KX_RING_ID (R846) -/
  ringId : BitVec 3
  /-- KX_INST_EN (R846) -/
  instEn : Bool
  deriving DecidableEq, Repr

/-- What one cycle of the in-service test finds (R928, R930). -/
structure IstOutcome where
  /-- free bonds whose passing window is below 8 delay cells: slice and bond -/
  lanes : List (Nat × Nat)
  /-- bank units that fail their self-test: slice and bank -/
  units : List (Nat × Nat)
  /-- spare units that fail their self-test: the slice -/
  spares : List Nat
  /-- queues whose pointer correction fails: QCLASS and QINDEX -/
  queues : List (Nat × Nat)
  deriving DecidableEq, Repr

/-- Bits that flip in the two copies of one pointer of a crossing queue (R69). -/
structure IcqUpset where
  /-- QCLASS (R80) -/
  qclass : Fin 10
  /-- QINDEX (R80) -/
  qindex : Fin 256
  /-- the pointer: 0 write, 1 read, 2 mark, 3 release (R47) -/
  ptr : Fin 4
  /-- bits of its first copy that flip, the parity bit at 9 (R69) -/
  flipA : BitVec 10
  /-- bits of its second copy that flip -/
  flipB : BitVec 10
  /-- tracker entries with words in a queue whose words the model does not hold (R73) -/
  bound : List Nat
  /-- words that such a queue holds at that moment -/
  words : Nat
  deriving DecidableEq, Repr

/-- The commands of the block. -/
inductive Instr where
  /-- RD (R93): A tile or narrow port accepts an RD request word into its input queue and stamps its arrival LTC. -/
  | rd (port : Fin 36) (r : Request)
  /-- WR (R93): A port accepts a WR request word into its input queue. -/
  | wr (port : Fin 36) (r : Request)
  /-- WR_PARTIAL (R99): A port accepts a WR_PARTIAL request word, whose write data carries byte enables. -/
  | wrPartial (port : Fin 36) (r : Request)
  /-- ACC (R96): A tile port accepts an ACC request naming consecutive accumulation slots. -/
  | acc (port : Fin 32) (r : Request)
  /-- FENCE (R129): A port accepts a FENCE request that orders its earlier writes, ACCs and GATHERs. -/
  | fence (port : Fin 36) (r : Request)
  /-- GATHER (R353): A tile port accepts a GATHER request whose write-data beat holds the gather descriptor. -/
  | gather (port : Fin 32) (r : Request)
  /-- BREW_LAUNCH (R446): A tile port accepts a BREW_LAUNCH request whose write-data beat holds the launch descriptor. -/
  | brewLaunch (port : Fin 32) (r : Request)
  /-- BREW_ABORT (R479): A tile port accepts a BREW_ABORT naming a launch by ABORT_TAG, and the dispatcher decides whether the abort takes effect. -/
  | brewAbort (port : Fin 32) (r : Request)
  /-- WRITE_BULK (R148): The BLP accepts a WRITE_BULK descriptor. -/
  | writeBulk (d : Desc)
  /-- ACC_BULK (R417): The BLP accepts an ACC_BULK descriptor. -/
  | accBulk (d : Desc)
  /-- READ_BULK (R155): The BLP accepts a READ_BULK descriptor. -/
  | readBulk (d : Desc)
  /-- WRITE_DATA_BEAT (R97): A tile or narrow write-data beat is accepted and bound to its request in acceptance order. -/
  | writeDataBeat (port : Fin 36) (data : BitVec 1024) (be : BitVec 128)
  /-- INBOUND_DATA_BEAT (R148): A BLP inbound data beat is accepted for the oldest WRITE_BULK or ACC_BULK descriptor still owed beats. -/
  | inboundDataBeat (data : BitVec 512)
  /-- RSP_CRD (R87): The requester returns a response credit to the controller. -/
  | rspCrd (port : Fin 36)
  /-- ODATA_CRD (R87): The network engine returns an outbound-data credit. -/
  | odataCrd
  /-- CPL_CRD (R87): The network engine returns a completion-record credit. -/
  | cplCrd
  /-- REQUEST_ADMIT (R938): A request leaves its port input queue once a tracker entry is free, is checked, allocated, translated and charged or rejected, and its credit is returned. -/
  | requestAdmit (port : Fin 36)
  /-- BLP_DESC_ADMIT (R145): A BLP descriptor leaves the descriptor queue once fewer than 64 are in flight, and is checked and cut into pieces. -/
  | blpDescAdmit
  /-- METER_TEST (R269): The head of a meter queue is tested against its service meter and subscriber bucket, and is coloured and charged or held red. -/
  | meterTest (k : Fin 48) (svc : Fin 6)
  /-- METER_WHEEL_EVENT (R279): A meter's calendar-wheel slot is reached; due refills are applied and the held head is retested. -/
  | meterWheelEvent (k : Fin 48) (svc : Fin 6)
  /-- SUB_BUCKET_REFILL (R292): A subscriber bucket refills and retests its held heads in deadline order. -/
  | subBucketRefill (k : Fin 48)
  /-- CHANNEL_PERIOD_START (R293): At each multiple of P, the channel counts, thermal counts and activation meters are reset. -/
  | channelPeriodStart
  /-- CHANNEL_FILL (R294): A free window entry is filled with a chosen channel-queue head under CH_MIN, CH_MAX and the thermal budget. -/
  | channelFill (c : Fin 128)
  /-- QUEUE_SAMPLE (R312): Every 400 ticks, each (subscriber, service, channel) queue is sampled into the depth and delay histograms. -/
  | queueSample
  /-- CHANNEL_SCHEDULE (R211): In each CCLK, a channel scheduler chooses and issues at most one row command and one column command. -/
  | channelSchedule (p : Fin 144)
  /-- REFRESH_DUE (R494): A bank's due accumulator passes 25,000, and the bank owes one more refresh or consumes a pull-in. -/
  | refreshDue (p : Fin 144) (bank : Fin 32)
  /-- RDT_THROTTLE_END (R307): A row-disturbance throttle expires one tREFW after its imposition. -/
  | rdtThrottleEnd (k : Fin 37) (c : Fin 128)
  /-- READ_DATA_RETURN (R656): Read data of an access returns from the anchor and is decoded, corrected or reported UE. -/
  | readDataReturn (p : Fin 144) (err : BitVec 576)
  /-- WRITE_BUFFER_ENTER (R121): A write access takes a free write-buffer entry, after waiting if the buffer was full. -/
  | writeBufferEnter (p : Fin 144)
  /-- ACC_PIECE_APPLY (R382): The accumulation unit applies the addends of a piece to slots held in its cache. -/
  | accPieceApply (p : Fin 144)
  /-- RESEAL_ROW (R472): A stale row is read raw, its check symbols are recomputed and written back, and its bit is cleared unless a launch is active. -/
  | resealRow (c : Fin 128) (bank : Fin 32) (row : Fin 16384)
  /-- RESPONSE_BEAT (R113): The controller drives a response beat on a tile or narrow port while it holds a response credit. -/
  | responseBeat (port : Fin 36)
  /-- OUTBOUND_BEAT (R156): The controller drives a READ_BULK outbound beat. -/
  | outboundBeat (n : Nat)
  /-- BLP_COMPLETION_RECORD (R152): A completed descriptor's completion record is driven in per-source acceptance order. -/
  | blpCompletionRecord
  /-- FENCE_COMPLETE (R129): A FENCE completes once every earlier write, ACC and GATHER of its port has completed. -/
  | fenceComplete (port : Fin 36)
  /-- DIGEST_RECORD_DONE (R731): A digest record write completes, and its fence completes. -/
  | digestRecordDone (lost : Bool)
  /-- GATHER_ENGINE_START (R360): A queued GATHER takes a free gather engine within PORT_MAX. -/
  | gatherEngineStart
  /-- GATHER_LIST_READ (R362): A gather engine issues a 64 B list read. -/
  | gatherListRead (e : Fin 16)
  /-- GATHER_PAGE_READ (R366): A gather engine issues a page read while its staging has room. -/
  | gatherPageRead (e : Fin 16)
  /-- GATHER_BEAT (R368): A gather engine drives a stream beat once its bytes are staged; the beat with LAST ends the GATHER. -/
  | gatherBeat (e : Fin 16)
  /-- BREW_DISPATCH_OP (R451): The dispatcher resolves the next op and writes it into each selected channel's op queue, updating stale bits. -/
  | brewDispatchOp (n : Nat)
  /-- BREW_LAUNCH_START (R450): A launch starts on a channel after the previous launch there ends, with a BSET that clears the registers. -/
  | brewLaunchStart (p : Fin 144)
  /-- BREW_OP_START (R460): A brew op starts in its banks and puts them on loan. -/
  | brewOpStart (p : Fin 144)
  /-- BREW_OP_END (R477): A brew op ends, releases its words and its banks, and passes its commit point. -/
  | brewOpEnd (p : Fin 144)
  /-- BREW_PREEMPT (R463): A launch stops at a preemption point for an urgent read or refresh, and its op queue rewinds. -/
  | brewPreempt (p : Fin 144)
  /-- BREW_RESUME (R464): A stopped launch resumes at its progress count. -/
  | brewResume (p : Fin 144)
  /-- BREW_LAUNCH_COMMIT (R478): The dispatcher receives the last channel's commit and decides completion against abort. -/
  | brewLaunchCommit (n : Nat)
  /-- BREW_LAUNCH_END (R482): A launch ends with its status on every selected channel and its response is sent. -/
  | brewLaunchEnd (n : Nat)
  /-- SCRUB_ACCESS (R674): A scrub access falls due and is read and checked as subscriber 40. -/
  | scrubAccess (p : Fin 144)
  /-- SCRUB_PASS_LATE (R674): A scrub pass has not ended within PERIOD, and SCRUB_LATE is recorded. -/
  | scrubPassLate (p : Fin 144)
  /-- SCRUB_CHECK (R678): Scrub rereads an access that returned UE to another reader and decides on a row repair. -/
  | scrubCheck (p : Fin 144)
  /-- ROW_REPAIR_ACK (R679): The endpoint acknowledges the row repair, and the row is written back and released. -/
  | rowRepairAck (p : Fin 144)
  /-- ROW_REPAIR_TIMEOUT (R679): No row-repair acknowledgement arrives within 20 µs, and the bank is treated as having no spare row. -/
  | rowRepairTimeout (p : Fin 144)
  /-- EP_UNIT_FAULT (R682): An endpoint reports a unit fault, and a unit substitution is requested. -/
  | epUnitFault (p : Fin 144) (bank : Fin 32)
  /-- UNIT_SUB (R682): Once no launch is active on the bank, the controller sends UNIT_SUB to the endpoint. -/
  | unitSub (p : Fin 144) (bank : Fin 32)
  /-- UNIT_SUB_ACK (R682): The endpoint acknowledges a unit substitution, and the waiting launches are released. -/
  | unitSubAck (p : Fin 144) (bank : Fin 32)
  /-- UNIT_SUB_TIMEOUT (R682): No unit-substitution acknowledgement arrives within 20 µs. -/
  | unitSubTimeout (p : Fin 144) (bank : Fin 32)
  /-- HK_ROUND_START (R542): A housekeeping round starts its sensor conversions. -/
  | hkRoundStart
  /-- HK_EVALUATION (R543): The readings of a round are evaluated: sensors, bands, levels, lane health, calibration and power. -/
  | hkEvaluation (readings : List (BitVec 16)) (spare : List (BitVec 16))
  /-- THERM_GRACE_END (R569): Grace expires with KX_THR_REQ still 1, and enforcement starts. -/
  | thermGraceEnd
  /-- ZQ_CAL (R624): Every 1,024 rounds, the impedance engine measures against KX_ZQ. -/
  | zqCal (code : BitVec 5)
  /-- FED_BUDGET_TIMER (R870): Every 1,000 evaluations, a FEDERATED instance resends its layer budget messages. -/
  | fedBudgetTimer
  /-- POWER_REPORT (R867): A layer's POWER_REPORT arrives over its sideband. -/
  | powerReport (l : Fin 16) (power : BitVec 16) (pstate : BitVec 3)
  /-- POWER_SET_ACK (R869): A layer acknowledges a POWER_SET. -/
  | powerSetAck (l : Fin 16)
  /-- POWER_SET_TIMEOUT (R869): A POWER_SET is not acknowledged within 100 µs, and the state stays as last reported. -/
  | powerSetTimeout (l : Fin 16)
  /-- IST_CYCLE (R928): Every 60 minutes, an in-service test cycle starts its items. -/
  | istCycle (o : IstOutcome)
  /-- SLICE_MARCH_DONE (R929): A spare-slice march ends, passing or taking the slice out of service. -/
  | sliceMarchDone (pass : Bool)
  /-- CAL_PASS_START (R641): A CAL_DUE bundle starts a calibration pass within CAL_PAR. -/
  | calPassStart (p : Fin 144)
  /-- CAL_LANE (R642): One bond is calibrated, by temporary takeover or under a hold, up to its lane boundary. -/
  | calLane (p : Fin 144) (bondTrim : BitVec 32) (spareTrim : BitVec 32)
  /-- LSTEER_SWITCH (R604): At least 8 CCLK after its MIRROR, a SWITCH moves a lane's receivers to the new bond. -/
  | lsteerSwitch (p : Fin 144)
  /-- SB_ALERT_N (R600): The endpoint drives SB_ALERT_n low after a parity error, and a full retrain starts. -/
  | sbAlertN (p : Fin 144) (executed : BitVec 16)
  /-- EP_CK_LOCK_LOST (R629): The endpoint reports loss of CK lock, and a full retrain starts. -/
  | epCkLockLost (p : Fin 144)
  /-- READ_STROBE_LOST (R629): The read strobe is lost at the controller's receiver, and a full retrain starts. -/
  | readStrobeLost (p : Fin 144)
  /-- RETRAIN_END (R630): A full retrain ends: trims are stored, bonds replaced, NARROW entered or the slice fenced, and the hold released. -/
  | retrainEnd (p : Fin 144) (o : TrainOutcome)
  /-- MIG_START (R688): A migration candidate starts on a free spare slice once MIG_MAX and launches allow. -/
  | migStart (p : Fin 144)
  /-- MIG_ROW_COPY (R688): One row index is copied in all 32 banks, and MPTR advances. -/
  | migRowCopy (c : Fin 128)
  /-- REBIND_ZEROING_DONE (R696): The zeroing of a REBIND slice ends, and the channel becomes BOUND. -/
  | rebindZeroingDone (c : Fin 128)
  /-- ICQ_PTR_UPSET (R72): A pointer-copy comparison finds a damaged copy and rewrites it or resets the queue. -/
  | icqPtrUpset (u : IcqUpset)
  /-- IDENT (R812): The IDENT command returns the identity and status words. -/
  | ident
  /-- TLM_CLEAR (R813): The TLM_CLEAR command clears the counters of a page range. -/
  | tlmClear
  /-- SENSOR_CLEAR (R815): The SENSOR_CLEAR command restores broken sensors. -/
  | sensorClear
  /-- CFG_COMMIT (R816): The CFG_COMMIT command checks the staged image and starts its two-phase mode change. -/
  | cfgCommit
  /-- CFG_STORE (R818): The CFG_STORE command writes the staging buffer to a boot copy and reads it back. -/
  | cfgStore
  /-- CFG_STORE_TIMEOUT (R818): The boot store does not finish within 500 ms, and CFG_STORE ends with E_TIMEOUT. -/
  | cfgStoreTimeout
  /-- REGION_READ (R819): The REGION_READ command returns one region table entry. -/
  | regionRead
  /-- RATE_SET (R252): The RATE_SET command changes the rate point, or is held PENDING or rejected. -/
  | rateSet
  /-- DET_SET (R822): The DET_SET command changes the determinism mode by a two-phase change or by alignment. -/
  | detSet
  /-- ACC_FLUSH (R825): The ACC_FLUSH command writes back dirty accumulation-cache lines. -/
  | accFlush
  /-- BREW_LOAD (R827): The BREW_LOAD command reads, checks and loads a program into a slot. -/
  | brewLoad
  /-- RESEAL (R828): The RESEAL command reseals the stale rows of one or all PINNED regions. -/
  | reseal
  /-- RETRAIN (R829): The RETRAIN command starts a full retrain of one slice. -/
  | retrain
  /-- CAL_RUN (R830): The CAL_RUN command runs one calibration pass on the named bundles. -/
  | calRun
  /-- LINK_READ (R832): The LINK_READ command returns steering, bond states or trim words. -/
  | linkRead
  /-- MIGRATE (R834): The MIGRATE command queues a migration candidate with cause 4. -/
  | migrate
  /-- REBIND (R835): The REBIND command binds and zeroes a spare slice for a FENCED channel. -/
  | rebind
  /-- FIRN_READ (R836): The FIRN_READ command returns the spare rows, units and slices left. -/
  | firnRead
  /-- FIRN_READ_TIMEOUT (R836): The endpoint does not answer FIRN_READ within 1 ms. -/
  | firnReadTimeout
  /-- DIGEST_FENCE (R837): The DIGEST_FENCE command makes a digest fence of a stream. -/
  | digestFence
  /-- DIGEST_REGION (R838): The DIGEST_REGION command reads a region and computes its Merkle digest. -/
  | digestRegion
  /-- LOCKSTEP_RELEASE (R839): The LOCKSTEP_RELEASE command clears the mismatch latch and the hold. -/
  | lockstepRelease
  /-- SAVE_CONTEXT (R840): The SAVE_CONTEXT command holds admission and starts the context save. -/
  | saveContext
  /-- SAVE_CONTEXT_DRAINED (R742): The held subscribers have drained, and the cache write-back and the image write run. -/
  | saveContextDrained
  /-- SAVE_CONTEXT_TIMEOUT (R742): The drain has not happened within 10 ms, and SAVE_CONTEXT ends with E_TIMEOUT. -/
  | saveContextTimeout
  /-- RESTORE_CONTEXT (R841): The RESTORE_CONTEXT command reads, checks and applies a context image. -/
  | restoreContext
  /-- FROST_ENTER (R842): The FROST_ENTER command raises KX_FROST and holds admission for Frost entry. -/
  | frostEnter
  /-- FROST_DRAINED (R899): The tracker empties, caches are written back, slices enter self-refresh and clocks are gated. -/
  | frostDrained
  /-- FROST_ENTER_TIMEOUT (R843): The tracker has not emptied within 10 ms, and FROST_ENTER ends with E_TIMEOUT. -/
  | frostEnterTimeout
  /-- MBX_BAD_OPCODE (R798): A doorbell with an undefined opcode completes with E_BADOP. -/
  | mbxBadOpcode
  /-- MODECHG_COMMIT (R808): The commit boundary of a two-phase mode change is reached, and every unit applies its shadow. -/
  | modechgCommit
  /-- COMMIT_WINDOW_END (R810): The commit window ends, held channels are released and the command completes. -/
  | commitWindowEnd
  /-- MODECHG_PREPARE_TIMEOUT (R806): A unit has not acknowledged PREPARE within 1 ms, and the change is aborted. -/
  | modechgPrepareTimeout
  /-- ALIGN_ARMED (R713): The alignment drain completes, islands are held in reset and ARMED is set. -/
  | alignArmed
  /-- DET_SET_DRAIN_TIMEOUT (R823): The alignment drain has not finished within 10 ms, and DET_SET ends with E_TIMEOUT. -/
  | detSetDrainTimeout
  /-- ALIGN_A0 (R714): KX_ALIGN is sampled rising after ARMED, which fixes edge A0. -/
  | alignA0
  /-- ALIGN_AR (R715): ALIGN_DLY after A0, islands restart on edge AR and DET_TIMING is entered. -/
  | alignAr
  /-- ALIGN_TIMEOUT (R716): A0 has not come within 1 s of ARMED, and the alignment is abandoned. -/
  | alignTimeout
  /-- KX_POR_N_ASSERT (R32): Power-on reset is asserted, clearing the LTC and holding the islands in reset. -/
  | kxPorNAssert
  /-- KX_POR_N_RELEASE (R891): Power-on reset is released, and start-up runs: boot copies, rails, negotiation, training and remap. -/
  | kxPorNRelease (e : StartEnv)
  /-- ZEROING_DONE (R896): Zeroing of every bound slice ends, the stale bitmap is cleared and READY becomes 1. -/
  | zeroingDone
  /-- KX_RST_N_ASSERT (R885): Warm reset is asserted: ports stop, write buffers drain and islands are held in reset. -/
  | kxRstNAssert
  /-- KX_RST_N_RELEASE (R886): Warm reset is released, and the islands restart with the image in force and slices leave self-refresh. -/
  | kxRstNRelease
  /-- KX_WAKE (R903): A rising KX_WAKE in Frost starts Thaw. -/
  | kxWake (level : Bool)
  /-- THAW_RELEASE (R904): At tick w + 4,800, KX_FROST falls and admission is released. -/
  | thawRelease
  /-- KX_SUB_DOWN_SET (R160): A synchronised requester-down line sets, and the subscriber is masked and drained. -/
  | kxSubDownSet (k : Fin 37)
  /-- KX_SUB_DOWN_CLEAR (R163): A requester-down line clears, and the drained subscriber resumes. -/
  | kxSubDownClear (k : Fin 37)
  /-- SUB_DRAINED (R162): A down subscriber's last tracker entry frees, and its STS_SUB_DRAINED bit sets. -/
  | subDrained (k : Fin 37)
  /-- REG_WRITE (R10): The control port writes a register that has no row of its own. -/
  | regWrite (off : BitVec 16) (v : BitVec 32)
  /-- LTC_LO_READ (R36): A read of KX_LTC_LO captures the high word. -/
  | ltcLoRead
  /-- TLM_WORD0_READ (R777): A read of telemetry slot word 0 captures word 1. -/
  | tlmWord0Read (slot : Fin 128)
  /-- EVT_LOG_NEXT (R768): An EVT_LOG_CMD write with NEXT moves the event-log read pointer. -/
  | evtLogNext
  /-- EVT_LOG_REWIND (R768): An EVT_LOG_CMD write with REWIND returns the read pointer to the mark. -/
  | evtLogRewind
  /-- EVT_LOG_ACK (R768): An EVT_LOG_CMD write with ACK releases the records that have been read. -/
  | evtLogAck
  /-- EVT_IRQ_CLEAR (R766): A W1C write to EVT_IRQ_STATUS clears interrupt causes. -/
  | evtIrqClear (mask : BitVec 32)
  /-- KX_INST_PWROK_CHANGE (R847): KX_INST_PWROK changes, and the ring-stop bypass closes. -/
  | kxInstPwrokChange (ok : Bool)
  /-- KX_AON_RST_N (R846): KX_AON_RST_n resets the ring stop alone. -/
  | kxAonRstN (level : Bool)
  /-- RING_BYPASS_OPEN (R849): Once its causes end, the stop opens its bypass and sends an ANNOUNCE. -/
  | ringBypassOpen
  /-- ANNOUNCE_TIMER (R855): Every 100 µs, the instance broadcasts an ANNOUNCE. -/
  | announceTimer
  /-- ANNOUNCE (R856): A received ANNOUNCE frame updates the member table and the master. -/
  | announce (src : Fin 8) (cfg : BitVec 16) (agg : BitVec 16) (psum : BitVec 16)
  /-- MEMBER_EXPIRY (R856): A member's entry expires 350 µs after its last ANNOUNCE. -/
  | memberExpiry (m : Fin 8)
  /-- IMAGE (R859): A gang member receives an IMAGE chunk of the master's staging buffer. -/
  | image (src : Fin 8) (chunk : BitVec 16) (data : BitVec 512)
  /-- PREPARE (R860): A gang member receives PREPARE, checks it, prepares its units and answers with ACK. -/
  | prepare (src : Fin 8) (xid : BitVec 16) (op : BitVec 8) (arg : BitVec 32) (crc : BitVec 32)
  /-- ACK (R861): The master receives an ACK and broadcasts COMMIT or ABORT once all have answered. -/
  | ack (src : Fin 8) (xid : BitVec 16) (err : BitVec 8)
  /-- COMMIT (R859): A gang member receives COMMIT and applies its shadows 64 ticks later. -/
  | commit (src : Fin 8) (xid : BitVec 16)
  /-- ABORT (R861): A gang member receives ABORT and discards its shadows. -/
  | abort (src : Fin 8) (xid : BitVec 16)
  /-- GANG_PREPARE_TIMEOUT (R861): A gang member has not answered within 1 ms, and the master aborts. -/
  | gangPrepareTimeout
  /-- BUDGET (R868): A member receives its BUDGET share, and its stack budget changes. -/
  | budget (src : Fin 8) (w : BitVec 16)
  /-- BUDGET_TIMER (R873): Every 100 ms, the master resends BUDGET frames. -/
  | budgetTimer
  /-- DIGEST (R878): The master receives a DIGEST frame and computes G_n when every contribution is held. -/
  | digest (src : Fin 8) (stream : Fin 16) (n : BitVec 32) (d : BitVec 256)
  /-- AGG_TIMEOUT (R879): 10 ms after the first contribution, the master computes G_n from the contributions it holds. -/
  | aggTimeout (stream : Fin 16)
  /-- LS_RECORD_FRAME (R739): A lock-step record frame arrives and is matched against own records. -/
  | lsRecordFrame (f : BitVec 384)
  /-- LS_HEARTBEAT_FRAME (R738): A lock-step heartbeat frame arrives. -/
  | lsHeartbeatFrame (f : BitVec 384)
  /-- LS_HEARTBEAT_TIMER (R737): No frame has been sent for 10 µs, and a heartbeat is queued. -/
  | lsHeartbeatTimer
  /-- LS_LINK_TIMEOUT (R738): No valid frame has arrived for 100 µs, and LINK_UP clears. -/
  | lsLinkTimeout
  /-- WS_BYPASS (R924): The wrapper selects the 1-bit bypass register. -/
  | wsBypass
  /-- WS_EXTEST (R924): The wrapper drives and captures the boundary signals. -/
  | wsExtest (v : BitVec 64)
  /-- WS_INTEST (R924): The wrapper applies boundary values to the core. -/
  | wsIntest (v : BitVec 64)
  /-- KX_IDCODE (R924): The wrapper returns KX_VERSION and KX_ROMID. -/
  | kxIdcode
  /-- KX_MBIST (R926): The wrapper starts SRAM BIST on every array. -/
  | kxMbist
  /-- MBIST_DONE (R926): SRAM BIST completes and sets its result register. -/
  | mbistDone (groups : BitVec 8)
  /-- KX_SCAN (R924): The wrapper runs manufacturing scan. -/
  | kxScan
  /-- KX_SLICE_TEST (R927): The wrapper starts a spare-slice march on a named free spare slice. -/
  | kxSliceTest (v : BitVec 16)
  /-- UNSUPPORTED_TYPE_REQUEST (R107): A port accepts a request word whose TYPE is reserved, or not accepted by that port, and admission answers it with BADREQ and E_BADOP or E_NOTSUP. -/
  | unsupportedTypeRequest (port : Fin 36) (typ : BitVec 4) (r : Request)
  /-- RESERVED_OP_DESCRIPTOR (R149): The BLP accepts a descriptor whose OP is 3, which takes no inbound beats and is answered with BADREQ and one completion record. -/
  | reservedOpDescriptor (d : Desc)
  /-- CFG_STORE_DONE (R818): The boot store finishes its erase, program and read-back, and CFG_STORE completes with E_OK or E_CHECK. -/
  | cfgStoreDone (good : Bool)
  /-- FIRN_READ_ANSWER (R836): The endpoint's sideband answer to FIRN_READ arrives, and the command returns the spare counts. -/
  | firnReadAnswer (units : BitVec 16) (rows : List (BitVec 16))
  /-- LS_FRAME_SENT (R737): A KX_DXP frame finishes its 480 ns transmission, frees its transmit-queue slot and the next queued frame starts. -/
  | lsFrameSent
  /-- RING_FRAME_PASS (R854): A present ring stop receives a frame that is not for it, or is its own returning frame, or fails CRC or length, and passes or removes it. -/
  | ringFramePass (f : List (BitVec 16))
  deriving DecidableEq, Repr

end Sys2Proof
end

