-- ==== Sys2Proof/Decode.lean ====
section
/-! DEFINITION. The commands that a word spells. The rows of spec/opcode_table.json give no bits to any command, so no word
spells one by that table. What the spec does lay out bit by bit are the request words that a port accepts (R92, R93, R102, R103)
and the descriptors that the BLP accepts (R144, R149): their fields, the command they are, and the words back. -/

namespace Sys2Proof

/-- The command that a word of `nbits` bits spells by the table's bits: none, since no row of the table has bits. -/
def decodeTableWord (_nbits _w : Nat) : Option Instr := none

/-! ### Request words (R92) -/

/-- TYPE of a request word, bits 11:8 (R92, R93). -/
def Request.typeOf (w : BitVec 128) : BitVec 4 := w.extractLsb' 8 4

/-- The fields of a request word other than TYPE (R92). -/
def Request.ofWord (w : BitVec 128) : Request where
  tag := w.extractLsb' 0 8
  service := w.extractLsb' 12 3
  colour := w.extractLsb' 15 2
  digest := w.getLsbD 17
  afmt := w.extractLsb' 18 3
  len := w.extractLsb' 21 5
  rsvLo := w.extractLsb' 26 6
  slack := w.extractLsb' 32 16
  addr := w.extractLsb' 48 40
  abortTag := w.extractLsb' 88 8
  rsvHi := w.extractLsb' 96 32

/-- The request word with TYPE `t` and the given fields (R92). -/
def Request.word (t : BitVec 4) (r : Request) : BitVec 128 :=
  r.rsvHi ++ r.abortTag ++ r.addr ++ r.slack ++ r.rsvLo ++ r.len ++ r.afmt ++ BitVec.ofBool r.digest ++ r.colour ++ r.service ++
    t ++ r.tag

/-- The command of a port that accepts the request word `w`: TYPE picks it, and a TYPE that is reserved or that the port does not
accept is a command of its own (R93, R103, R107). -/
def portCommand (port : Fin 36) (w : BitVec 128) : Instr :=
  let r := Request.ofWord w
  let t := Request.typeOf w
  let tile : Option (Fin 32) := if h : port.val < 32 then some ⟨port.val, h⟩ else none
  match t.toNat, tile with
  | 0, _ => .rd port r
  | 1, _ => .wr port r
  | 2, _ => .wrPartial port r
  | 4, _ => .fence port r
  | 3, some p => .acc p r
  | 5, some p => .gather p r
  | 6, some p => .brewLaunch p r
  | 7, some p => .brewAbort p r
  | _, _ => .unsupportedTypeRequest port t r

/-- The request word of a command by which a port accepts one (R92, R93). -/
def requestWord (i : Instr) : Option (BitVec 128) :=
  match i with
  | .rd _ r => some (r.word 0)
  | .wr _ r => some (r.word 1)
  | .wrPartial _ r => some (r.word 2)
  | .acc _ r => some (r.word 3)
  | .fence _ r => some (r.word 4)
  | .gather _ r => some (r.word 5)
  | .brewLaunch _ r => some (r.word 6)
  | .brewAbort _ r => some (r.word 7)
  | .unsupportedTypeRequest _ t r => some (r.word t)
  | _ => none

/-! ### Descriptors (R144) -/

/-- OP of a descriptor, bits 33:32 (R144). -/
def Desc.opOf (w : BitVec 256) : BitVec 2 := w.extractLsb' 32 2

/-- The fields of a descriptor other than OP (R144). -/
def Desc.ofWord (w : BitVec 256) : Desc where
  descId := w.extractLsb' 0 16
  srcChip := w.extractLsb' 16 15
  digest := w.getLsbD 31
  afmt := w.extractLsb' 34 3
  colour := w.extractLsb' 37 2
  rsvA := w.extractLsb' 39 25
  addr := w.extractLsb' 64 40
  rsvB := w.extractLsb' 104 24
  len := w.extractLsb' 128 25
  rsvC := w.extractLsb' 153 103

/-- The descriptor with OP `op` and the given fields (R144). -/
def Desc.word (op : BitVec 2) (d : Desc) : BitVec 256 :=
  d.rsvC ++ d.len ++ d.rsvB ++ d.addr ++ d.rsvA ++ d.colour ++ d.afmt ++ op ++ BitVec.ofBool d.digest ++ d.srcChip ++ d.descId

/-- The command of the BLP that accepts the descriptor `w`: OP picks it (R144, R149). -/
def blpCommand (w : BitVec 256) : Instr :=
  let d := Desc.ofWord w
  match (Desc.opOf w).toNat with
  | 0 => .writeBulk d
  | 1 => .accBulk d
  | 2 => .readBulk d
  | _ => .reservedOpDescriptor d

/-- The descriptor of a command by which the BLP accepts one (R144). -/
def descWord (i : Instr) : Option (BitVec 256) :=
  match i with
  | .writeBulk d => some (d.word 0)
  | .accBulk d => some (d.word 1)
  | .readBulk d => some (d.word 2)
  | .reservedOpDescriptor d => some (d.word 3)
  | _ => none

end Sys2Proof
end

