-- ==== Sys2Proof/Config.lean ====
section
/-! DEFINITION. What the licensed block fixes (identity, dimensions), and the free values: constants without a
body that stand for what spec/ leaves open. Nothing can be proved about a free value but that it exists. -/

namespace Sys2Proof.Config

/-- KX_VERSION of version 4.1 (R1). -/
def version : Word := 0x00040100

/-- KX_ROMID of the first ROM build of version 4.1 (R753, R941). DESIGN CHOICE (log 9): the instance has that
ROM build. -/
def romId : Word := 0x01040100

/-- Physical slices (R9). -/
def slices : Nat := 144
/-- Logical channels (R9). -/
def channels : Nat := 128
/-- Banks of a slice (R9). -/
def banks : Nat := 32
/-- Rows of a bank (R9). -/
def rows : Nat := 16384
/-- Columns of a row: one 64 B access each (R9). -/
def cols : Nat := 32

/-- Free value (DEDUCED, log 3): how far an island's view of the LTC lags at a tick outside DET_TIMING; R37 bounds it. -/
opaque freeLag : Nat → Nat → Nat

/-- Free value (DESIGN CHOICE, log 4): what an access holds that a shut-down or a power loss left in an undefined state. -/
opaque freeCode : Nat → Nat → BitVec 576

/-- Free value (DESIGN CHOICE, log 5): which of several subscribers a choice falls to that R526 leaves open. -/
opaque freePick : Nat → Nat

/-- Free value (DESIGN CHOICE, log 6): a boot-copy word whose erase or program has not finished (R818). -/
opaque freeBoot : Nat → Nat → BitVec 32

/-- Free value (DESIGN CHOICE, log 7): a register or array word after built-in self-test or scan (R926). -/
opaque freeWord : Nat → Nat → BitVec 32

/-- Free value (DESIGN CHOICE, log 55): p of the crossing queues of a class that the spec gives no depth; R45 bounds it to 3
to 8. -/
opaque freeDepth : Nat → Nat

end Sys2Proof.Config
end

