-- ==== Sys2Proof/Machine/State.lean ====
section
/-! DEFINITION. The state of the block as plain data: every register, queue, buffer, counter, mode and pin that
spec/ gives it, grouped by the island that holds it, and the queue of commands that wait. INVENTORY.md lists each
field with its rule and its reset value. A `Tab` holds what a numbered row of like things holds; a row it does
not list reads as the default that its accessor names. -/

namespace Sys2Proof.Machine

/-- Why the block would stop. No rule of spec/ stops it, so no command raises this (see `Refusal`). -/
inductive Fault where
  /-- Raised by no command: the manual names no condition that stops the block. Safe. -/
  | stopped
  deriving DecidableEq, Repr

/-- Why a command has no meaning. -/
inductive Refusal where
  /-- Raised by `exec` for a command this model does not cover yet. Safe: nothing is claimed about it. -/
  | notModelled (mnemonic : String)
  deriving DecidableEq, Repr

/-- Response status (R109). -/
inductive RspStatus where
  | ok | ue | decerr | perm | fenced | window | aborted | fault | thermstop | stale | badreq
  deriving DecidableEq, Repr

/-- Colour of a request (R92, R269). -/
inductive Colour where
  | green | yellow | red
  deriving DecidableEq, Repr

/-- What a tracker entry stands for: a port request type (R93), a BLP piece (R144), or work of an internal
subscriber (R85). -/
inductive Kind where
  | rd | wr | wrPartial | acc | fence | gather | brewLaunch | brewAbort
  | writeBulk | accBulk | readBulk
  | gatherList | gatherPage | scrub | copy | digestRec | ctxWrite | resealWork | digestWork
  deriving DecidableEq, Repr

/-- What a piece does at the channel (R204, R237). -/
inductive PieceKind where
  | read | write | accumulate
  deriving DecidableEq, Repr

/-- What a column read is for, which decides what its returned data does (R656, R665). -/
inductive ReadUse where
  | port | accMiss | rmw | scrub | check | reseal | replica | work
  deriving DecidableEq, Repr

/-- STATE of a bundle (R648). -/
inductive LinkState where
  | off | training | active | narrow | retrain | fenced
  deriving DecidableEq, Repr

/-- STATE of a remap entry (R187). -/
inductive RemapSt where
  | bound | migrating | fenced
  deriving DecidableEq, Repr

/-- Determinism mode (R706). -/
inductive DetMode where
  | off | bits | timing
  deriving DecidableEq, Repr

/-- PHASE of STS_GLOBAL (R781). -/
inductive Phase where
  | romBoot | negotiation | training | zeroing | running | frost | thaw
  deriving DecidableEq, Repr

/-- STATE of MBX_STATUS (R754). -/
inductive MbxSt where
  | idle | busy | done
  deriving DecidableEq, Repr

/-- What a two-phase mode change carries (R804). -/
inductive ChgKind where
  | cfg | rate | restore | det
  deriving DecidableEq, Repr

/-- A control word that passes between two islands (R15, R80). -/
inductive CtlWord where
  /-- to a channel island: a hold begins (class 3) -/
  | hold (p : Nat)
  /-- to a channel island: a hold ends (class 3) -/
  | free (p : Nat)
  /-- to the fabric: admission is held for a cause (class 7) -/
  | admHold (cause : Nat)
  /-- to the fabric: the hold of admission for a cause ends (class 7) -/
  | admFree (cause : Nat)
  /-- to a channel island: it stops a launch (class 2) -/
  | stop (launch chan : Nat)
  /-- to the fabric: a launch has reached its commit point on a channel (class 1) -/
  | commit (launch chan : Nat)
  /-- to the fabric: a launch has ended on a channel (class 1) -/
  | stopped (launch chan : Nat)
  deriving DecidableEq, Repr

/-- How a request ended: status and error code (R109, R764). -/
structure Done where
  /-- status (R109) -/
  st : RspStatus
  /-- error code (R764) -/
  err : BitVec 8
  deriving DecidableEq, Repr

/-- One write-data beat and its byte enables (R97, R99). -/
structure WBeat where
  /-- 128 B of data -/
  data : BitVec 1024
  /-- byte enables -/
  be : BitVec 128
  deriving DecidableEq, Repr

/-- CFG_TIM0 to CFG_TIM3 of one timing set (R248). -/
structure Timing where
  /-- CFG_TIM0 -/
  tim0 : BitVec 32
  /-- CFG_TIM1 -/
  tim1 : BitVec 32
  /-- CFG_TIM2 -/
  tim2 : BitVec 32
  /-- CFG_TIM3 -/
  tim3 : BitVec 32
  deriving DecidableEq, Repr

/-- The reset values of R248. -/
def Timing.reset : Timing := ⟨0x32230F0F, 0x0F010F03, 0x0D19004B, 0x640F0707⟩

/-- A gang transaction: the master's side, or the member's once it has prepared or waits for Thaw (R859 to R863). -/
structure Gang where
  /-- transaction number XID -/
  xid : BitVec 16
  /-- ring ID of the master -/
  master : Nat
  /-- opcode carried by PREPARE -/
  op : BitVec 8
  /-- argument carried by PREPARE -/
  arg : BitVec 32
  /-- image CRC trailer carried by PREPARE -/
  crc : BitVec 32
  /-- members whose ACK the master awaits; on a member, the master whose COMMIT it awaits, once it has answered -/
  awaiting : List Nat
  /-- error code of the refusing member with the lowest ring ID so far -/
  err : BitVec 8
  /-- its ring ID; 8 while none has refused -/
  errId : Nat
  /-- COMMIT has been broadcast, or received -/
  sent : Bool
  /-- LTC of the PREPARE -/
  start : Nat
  deriving DecidableEq, Repr

/-- The BUSY command that later events end, with what it still has to do. -/
structure RunCmd where
  /-- opcode (R798) -/
  op : BitVec 8
  /-- first parameter the command keeps -/
  a : Nat
  /-- second parameter the command keeps -/
  b : Nat
  /-- what is left: channels, slices, rows or tracker entries, as the command's meaning says -/
  todo : List Nat
  /-- what the command has read so far -/
  vals : List Nat
  deriving DecidableEq, Repr

/-- A command accepted with PENDING (R759). -/
structure PendCmd where
  /-- opcode -/
  op : BitVec 8
  /-- its argument words -/
  args : List Word
  /-- bundles or slices it still waits for -/
  todo : List Nat
  deriving DecidableEq, Repr

/-- One event record of five words (R771). -/
structure Rec where
  /-- word 0 -/
  w0 : Word
  /-- word 1 -/
  w1 : Word
  /-- word 2 -/
  w2 : Word
  /-- word 3 -/
  w3 : Word
  /-- word 4 -/
  w4 : Word
  deriving DecidableEq, Repr

/-- A digest piece in the making: its 4 KiB block, its leaf so far and its bytes so far (R723, R724). -/
structure DgAcc where
  /-- block number, once the first byte has come -/
  block : Option Nat
  /-- leaf of the words so far -/
  leaf : BitVec 64
  /-- bytes so far -/
  bytes : Nat
  deriving DecidableEq, Repr

/-- No piece yet. -/
def DgAcc.zero : DgAcc := ⟨none, 0, 0⟩

/-- The records of R772. -/
inductive Ev where
  | icqReset | icqOverrun | portProtocol | cmdDone | cfgDefault | cfgReject | counterSat | errcntSat | logDrop
  | cfgClamped | replicaMismatch | rdtHot | rdtClamped | thermLevel | thermEnforce | thermShutdown | thermRise
  | sensorBroken | adcFail | vmonRange | negFence | negFallback | linkSpare | linkNarrow | linkRetrain | linkFence
  | laneErase | laneFail | laneClear | eccCe | eccUe | eccHard | rowRepair | unitSub | migStart | migDone | migFail
  | chanFence | chanRebind | firnEmpty | fuseMinority | fuseFence | scrubLate | alignDone | alignFail | detBreak
  | digRecLost | lsMismatch | lsLost | lsPeer | lsGap | lsOverflow
  deriving DecidableEq, Repr

/-- One 64 B channel access of a tracked request (R20, R179): where it lies and how it ended. -/
structure Acc where
  /-- first 64 B unit of the request (counted at the port) that this access feeds (R111) -/
  view0 : Nat
  /-- last 64 B unit that it feeds (R111) -/
  view1 : Nat
  /-- a scale-plane access (R180) -/
  scale : Bool
  /-- logical channel (R179) -/
  chan : Nat
  /-- physical slice it was translated to (R179) -/
  ps : Nat
  /-- bank (R179) -/
  bank : Nat
  /-- row (R179) -/
  row : Nat
  /-- column (R179) -/
  col : Nat
  /-- status, once the access has ended (R109) -/
  st : Option RspStatus
  /-- data as delivered (R656) -/
  data : Line
  /-- its scale line may still be installed (R344) -/
  inst : Bool
  /-- it has been read again from the other replica (R196) -/
  retry : Bool
  /-- units it feeds, where several blocks share a scale access and they are no range (empty: all from view0 to view1) (R333) -/
  units : List Nat
  /-- LTC from which the fabric reads its end out of the crossing queue (used in DET_TIMING) (R81) -/
  vis : Nat
  /-- the stale bit of its row was set when admission read it (R469) -/
  stale : Bool
  deriving DecidableEq, Repr

/-- `Acc` at reset. -/
def Acc.reset : Acc where
  view0 := 0
  view1 := 0
  scale := false
  chan := 0
  ps := 0
  bank := 0
  row := 0
  col := 0
  st := none
  data := 0
  inst := true
  retry := false
  units := []
  vis := 0
  stale := false

/-- One occupied entry of the global request tracker (R133, R136). -/
structure Entry where
  /-- admission number (R212) -/
  id : Nat
  /-- acceptance number on its port (R97) -/
  ord : Nat
  /-- subscriber that holds the entry (R92) -/
  sub : Nat
  /-- subscriber whose meter is charged (the issuer, for a gather read) (R263) -/
  msub : Nat
  /-- what the entry is (R93) -/
  kind : Kind
  /-- the request word (R92) -/
  req : Request
  /-- arrival LTC (R39) -/
  arrival : Nat
  /-- the entry is one of the shared ones (R134) -/
  shared : Bool
  /-- region table entry it was translated under (R198) -/
  rent : BitVec 256
  /-- index of that entry (R194) -/
  rix : Nat
  /-- entry of the other region of its replica pair, as at admission (R198) -/
  pent : BitVec 256
  /-- its accesses (R136) -/
  accs : List Acc
  /-- write-data beats bound to it (R97) -/
  wdat : List WBeat
  /-- final status and error code, once decided (R111) -/
  fin : Option Done
  /-- response beats driven (R108) -/
  beats : Nat
  /-- gather engine, BLP descriptor or slice it works for (R360) -/
  parent : Nat
  /-- digest piece in the making (R724) -/
  dg : DgAcc
  /-- EXP_SAT in force at its admission (R350) (R349) -/
  sat : Bool
  /-- a GATHER: the region table it was admitted under (R198) -/
  tab : List (BitVec 256)
  /-- its completion has been counted in time or late (R141) -/
  counted : Bool
  /-- internal work: LTC from which the fabric reads it out of the crossing queue (used in DET_TIMING) (R81) -/
  vis : Nat
  deriving DecidableEq, Repr

/-- `Entry` at reset. -/
def Entry.reset : Entry where
  id := 0
  ord := 0
  sub := 0
  msub := 0
  kind := .rd
  req := Request.zero
  arrival := 0
  shared := false
  rent := 0
  rix := 0
  pent := 0
  accs := []
  wdat := []
  fin := none
  beats := 0
  parent := 0
  dg := DgAcc.zero
  sat := false
  tab := []
  counted := false
  vis := 0

/-- One piece of a request: the part that lies on one logical channel (R262), or one BLP piece (R264). -/
structure Piece where
  /-- tracker entry (R262) -/
  eid : Nat
  /-- subscriber at the channel level (R294) -/
  sub : Nat
  /-- service (R294) -/
  svc : Nat
  /-- logical channel (R262) -/
  chan : Nat
  /-- colour it passed with (R270) -/
  colour : Colour
  /-- arrival LTC (R39) -/
  arrival : Nat
  /-- effective deadline (R210) -/
  dl : Nat
  /-- the deadline is a real one (slack not 0xFFFF) (R140) -/
  real : Bool
  /-- admission number (R212) -/
  adm : Nat
  /-- read, write or accumulation piece (R204) -/
  write : PieceKind
  /-- its accesses: slice, bank, row, column (R179) -/
  keys : List Key
  /-- it has passed the tests of R294, and some of its accesses have entered (R295) -/
  begun : Bool
  deriving DecidableEq, Repr

/-- `Piece` at reset. -/
def Piece.reset : Piece where
  eid := 0
  sub := 0
  svc := 0
  chan := 0
  colour := .green
  arrival := 0
  dl := 0
  real := false
  adm := 0
  write := .read
  keys := []
  begun := false

/-- A request, or a BLP piece, in a meter queue (R261, R264). -/
structure Shaped where
  /-- tracker entry (R261) -/
  eid : Nat
  /-- subscriber of the meter (R261) -/
  sub : Nat
  /-- service of the meter (R261) -/
  svc : Nat
  /-- incoming colour (R269) -/
  ci : Colour
  /-- charge C in bytes (R263) -/
  charge : Nat
  /-- effective deadline (R292) -/
  dl : Nat
  /-- held at level 1 (R291) -/
  held1 : Bool
  /-- held red (R272) -/
  red : Bool
  /-- its pieces (R262) -/
  pieces : List Piece
  deriving DecidableEq, Repr

/-- `Shaped` at reset. -/
def Shaped.reset : Shaped where
  eid := 0
  sub := 0
  svc := 0
  ci := .green
  charge := 0
  dl := 0
  held1 := false
  red := false
  pieces := []

/-- One service meter (R269). -/
structure Meter where
  /-- committed bucket Tc, signed bytes (R269) -/
  tc : Int
  /-- peak bucket Tp, signed bytes (R269) -/
  tp : Int
  /-- virtual time VT (R281) -/
  vt : Nat
  /-- LTC of its calendar-wheel event (R279) -/
  slot : Option Nat
  /-- CIR as applied (R285) -/
  cir : Nat
  /-- PIR as applied (R285) -/
  pir : Nat
  /-- CBS as applied (R285) -/
  cbs : Nat
  /-- PBS as applied (R285) -/
  pbs : Nat
  /-- MODE as applied (R285) -/
  mode : Nat
  /-- thermal scaling fraction as applied (256 is none) (R299) -/
  f : Nat
  /-- frozen while the requester-down line is set (R282) -/
  frozen : Bool
  deriving DecidableEq, Repr

/-- `Meter` at reset. -/
def Meter.reset : Meter where
  tc := 0
  tp := 0
  vt := 0
  slot := none
  cir := 0xFFFFF
  pir := 0xFFFFF
  cbs := 0xFFFF
  pbs := 0xFFFF
  mode := 0
  f := 256
  frozen := false

/-- One subscriber bucket (R289). -/
structure Bucket where
  /-- Ts, signed bytes (R289) -/
  ts : Int
  /-- virtual time (R281) -/
  vt : Nat
  /-- SUB_RATE as applied (R289) -/
  rate : Nat
  /-- SUB_BURST as applied (R289) -/
  burst : Nat
  /-- frozen while the requester-down line is set (R282) -/
  frozen : Bool
  /-- LTC of its calendar-wheel event (R281) -/
  slot : Option Nat
  deriving DecidableEq, Repr

/-- `Bucket` at reset. -/
def Bucket.reset : Bucket where
  ts := 0
  vt := 0
  rate := 0xFFFFF
  burst := 0xFFFF
  frozen := false
  slot := none

/-- A request word in a port's input queue. -/
structure InReq where
  /-- TYPE (R93) -/
  kind : Nat
  /-- the other fields of the word (R92) -/
  req : Request
  /-- arrival LTC (R39) -/
  arrival : Nat
  /-- acceptance number (R97) -/
  ord : Nat
  /-- its TAG was in flight when it was accepted (R101) -/
  dup : Bool
  deriving DecidableEq, Repr

/-- `InReq` at reset. -/
def InReq.reset : InReq where
  kind := 0
  req := Request.zero
  arrival := 0
  ord := 0
  dup := false

/-- Write-data beats still owed to one accepted request or descriptor (R97, R148). -/
structure Owed where
  /-- acceptance number (R97) -/
  ord : Nat
  /-- beats still owed (R93) -/
  left : Nat
  /-- the beats are taken and discarded (R101) -/
  drop : Bool
  deriving DecidableEq, Repr

/-- `Owed` at reset. -/
def Owed.reset : Owed where
  ord := 0
  left := 0
  drop := false

/-- One tile or narrow port. -/
structure Port where
  /-- request credits the requester holds (R86) -/
  reqCrd : Nat
  /-- write-data credits the requester holds (R86) -/
  wdCrd : Nat
  /-- response credits the controller holds (R87) -/
  rspCrd : Nat
  /-- the most response credits held at once since they restarted: what the requester has granted in total (R113) -/
  rspGrant : Nat
  /-- input queue (R88) -/
  inq : List InReq
  /-- beats owed, in acceptance order (R97) -/
  owed : List Owed
  /-- beats that came before any request owes them (R97) -/
  early : List WBeat
  /-- beats taken for requests not yet admitted (R97) -/
  wdat : List (Nat × WBeat)
  /-- next acceptance number (R97) -/
  nextOrd : Nat
  /-- entry whose RD response is being driven (R113) -/
  cur : Option Nat
  /-- KX_TPn_RSP / KX_NPn_RSP as last driven (R908) -/
  rsp : BitVec 2096
  /-- RSP_VALID of the last response event (R908) -/
  rspValid : Bool
  /-- scale-plane cache, least recently used first (R342) -/
  scale : List (Key × Line)
  deriving DecidableEq, Repr

/-- `Port` at reset. -/
def Port.reset : Port where
  reqCrd := 0
  wdCrd := 0
  rspCrd := 0
  rspGrant := 0
  inq := []
  owed := []
  early := []
  wdat := []
  nextOrd := 0
  cur := none
  rsp := 0
  rspValid := false
  scale := []

/-- A BLP descriptor in the descriptor queue. -/
structure InDesc where
  /-- OP (R144) -/
  op : Nat
  /-- the other fields (R144) -/
  desc : Desc
  /-- arrival LTC (R39) -/
  arrival : Nat
  /-- acceptance number (R148) -/
  ord : Nat
  /-- LTC from which the fabric reads it out of the crossing queue (used in DET_TIMING) (R81) -/
  vis : Nat
  deriving DecidableEq, Repr

/-- `InDesc` at reset. -/
def InDesc.reset : InDesc where
  op := 0
  desc := Desc.zero
  arrival := 0
  ord := 0
  vis := 0

/-- A BLP descriptor in flight (R150) or waiting for its completion record. -/
structure BDesc where
  /-- tracker entry (R136) -/
  eid : Nat
  /-- OP (R144) -/
  op : Nat
  /-- the descriptor (R144) -/
  desc : Desc
  /-- acceptance number (R152) -/
  ord : Nat
  /-- admission status, when rejected (R157) -/
  fin : Option Done
  /-- outbound beats driven (R156) -/
  obeats : Nat
  /-- rejected: LTC from which the landing port reads the answer out of the crossing queue (used in DET_TIMING) (R81) -/
  vis : Nat
  deriving DecidableEq, Repr

/-- `BDesc` at reset. -/
def BDesc.reset : BDesc where
  eid := 0
  op := 0
  desc := Desc.zero
  ord := 0
  fin := none
  obeats := 0
  vis := 0

/-- The bulk landing port. -/
structure Blp where
  /-- descriptor credits the network engine holds (R86) -/
  descCrd : Nat
  /-- inbound-data credits the network engine holds (R86) -/
  idataCrd : Nat
  /-- outbound-data credits the controller holds (R87) -/
  odataCrd : Nat
  /-- completion credits the controller holds (R87) -/
  cplCrd : Nat
  /-- descriptor queue (R150) -/
  dq : List InDesc
  /-- inbound beats owed, in acceptance order (R148) -/
  owed : List Owed
  /-- inbound beats taken, by acceptance number (R148) -/
  idat : List (Nat × Line)
  /-- descriptors in flight (R150) -/
  flight : List BDesc
  /-- next acceptance number (R148) -/
  nextOrd : Nat
  /-- KX_BLP_ODATA as last driven (R908) -/
  odata : BitVec 544
  /-- ODATA_VALID of the last outbound event (R908) -/
  odataValid : Bool
  /-- KX_BLP_CPL as last driven (R908) -/
  cpl : BitVec 128
  /-- CPL_VALID of the last completion event (R908) -/
  cplValid : Bool
  /-- inbound beats on their way to the fabric: acceptance number, and LTC from which the fabric reads the beat (DET_TIMING)
  (R81) -/
  late : List (Nat × Nat)
  deriving DecidableEq, Repr

/-- `Blp` at reset. -/
def Blp.reset : Blp where
  descCrd := 0
  idataCrd := 0
  odataCrd := 0
  cplCrd := 0
  dq := []
  owed := []
  idat := []
  flight := []
  nextOrd := 0
  odata := 0
  odataValid := false
  cpl := 0
  cplValid := false
  late := []

/-- One entry of a request window or narrow slot. -/
structure WinEnt where
  /-- tracker entry (or the cause of follow-on work) (R204) -/
  eid : Nat
  /-- subscriber (R204) -/
  sub : Nat
  /-- service (R301) -/
  svc : Nat
  /-- colour (R210) -/
  colour : Colour
  /-- arrival LTC (R210) -/
  arrival : Nat
  /-- effective deadline (R210) -/
  dl : Nat
  /-- the deadline is a real one (R140) -/
  real : Bool
  /-- insertion number (R212) -/
  seq : Nat
  /-- admission number (R212) -/
  adm : Nat
  /-- it occupies one of the 8 reserved entries (R205) -/
  rsv : Bool
  /-- what its reads are for (R204) -/
  use : ReadUse
  /-- accesses still to issue (R204) -/
  keys : List Key
  /-- accesses issued under the present column grant (R225) -/
  taken : Nat
  /-- LTC from which the channel reads it out of the crossing queue (used in DET_TIMING) (R81) -/
  vis : Nat
  /-- rows resealed for it whose stale bits a launch keeps set, by bank * 16384 + row (R473) -/
  sealed : List Nat
  /-- words with a smaller arrival number leave the crossing queue before it (R64) -/
  qix : Nat
  /-- its word is still in the crossing queue (R64) -/
  word : Bool
  deriving DecidableEq, Repr

/-- `WinEnt` at reset. -/
def WinEnt.reset : WinEnt where
  eid := 0
  sub := 0
  svc := 0
  colour := .green
  arrival := 0
  dl := 0
  real := false
  seq := 0
  adm := 0
  rsv := false
  use := .port
  keys := []
  taken := 0
  vis := 0
  sealed := []
  qix := 0
  word := false

/-- One column read issued and not yet returned (R656). -/
structure Flight where
  /-- tracker entry (R656) -/
  eid : Nat
  /-- subscriber (R665) -/
  sub : Nat
  /-- what the read is for (R665) -/
  use : ReadUse
  /-- bank (R656) -/
  bank : Nat
  /-- row (R656) -/
  row : Nat
  /-- column (R656) -/
  col : Nat
  /-- the 72 symbols the bank sent (R656) -/
  code : Code
  /-- read raw, without the decoder (R471) -/
  raw : Bool
  /-- CCLK of its column command (R718) -/
  issued : Nat
  /-- a brew op that writes its access has started since (R105) -/
  nobuf : Bool
  /-- steering in force at its column command (R604) -/
  steer : Tab Nat
  /-- issued in NARROW mode (R608) -/
  nar : Bool
  /-- colour of its entry (R271) -/
  colour : Colour
  deriving DecidableEq, Repr

/-- `Flight` at reset. -/
def Flight.reset : Flight where
  eid := 0
  sub := 0
  use := .port
  bank := 0
  row := 0
  col := 0
  code := 0
  raw := false
  issued := 0
  nobuf := false
  steer := []
  nar := false
  colour := .green

/-- A write access or accumulation piece in the fabric-to-channel queue (R237, R396). -/
structure WrItem where
  /-- tracker entry (R237) -/
  eid : Nat
  /-- subscriber (R263) -/
  sub : Nat
  /-- an accumulation access (R396) -/
  acc : Bool
  /-- bank (R237) -/
  bank : Nat
  /-- row (R237) -/
  row : Nat
  /-- column (R237) -/
  col : Nat
  /-- a write: its read half is in or not needed; an accumulation: it made no miss read (R223) -/
  fetched : Bool
  /-- read data for the merge, once returned (R121) -/
  merged : Option Line
  /-- the read half returned stale data (R471) -/
  rstale : Bool
  /-- arrival number in the channel island (R396) -/
  ix : Nat
  /-- arrival LTC of its request (R30) -/
  arrival : Nat
  /-- effective deadline of its request (R30) -/
  dl : Nat
  /-- that deadline is a real one (R140) -/
  real : Bool
  /-- write data, or the addends of an accumulation, first one lowest (R46) -/
  data : Line
  /-- bytes that a write enables (R99) -/
  mask : BitVec 64
  /-- an accumulation: its region entry (R382) -/
  rent : BitVec 256
  /-- index of that entry (R400) -/
  rix : Nat
  /-- an accumulation: addend format (R384) -/
  afmt : Nat
  /-- an accumulation: first slot of the access that it updates (R380) -/
  slot0 : Nat
  /-- an accumulation: slots of the access that it updates (R380) -/
  cnt : Nat
  /-- LTC from which the channel reads it out of the crossing queue (used in DET_TIMING) (R81) -/
  vis : Nat
  deriving DecidableEq, Repr

/-- `WrItem` at reset. -/
def WrItem.reset : WrItem where
  eid := 0
  sub := 0
  acc := false
  bank := 0
  row := 0
  col := 0
  fetched := false
  merged := none
  rstale := false
  ix := 0
  arrival := 0
  dl := 0
  real := false
  data := 0
  mask := 0
  rent := 0
  rix := 0
  afmt := 0
  slot0 := 0
  cnt := 0
  vis := 0

/-- One write-buffer entry (R204). -/
structure WBuf where
  /-- bank (R204) -/
  bank : Nat
  /-- row (R204) -/
  row : Nat
  /-- column (R204) -/
  col : Nat
  /-- the 72 symbols to be written (R655) -/
  code : Code
  /-- held as 72 raw symbols (R655) -/
  raw : Bool
  /-- subscriber of the write (R525) -/
  sub : Nat
  /-- acceptance order of the cause (R460) -/
  ix : Nat
  deriving DecidableEq, Repr

/-- `WBuf` at reset. -/
def WBuf.reset : WBuf where
  bank := 0
  row := 0
  col := 0
  code := 0
  raw := false
  sub := 0
  ix := 0

/-- One accumulation-cache line (R392). -/
structure AccLine where
  /-- bank (R392) -/
  bank : Nat
  /-- row (R392) -/
  row : Nat
  /-- column (R392) -/
  col : Nat
  /-- the slots (R392) -/
  data : Line
  /-- what memory holds of it, as last read or written back (R399) -/
  base : Line
  /-- subscriber of the last piece applied (R525) -/
  sub : Nat
  /-- region index (R400) -/
  rix : Nat
  /-- its write-back waits for a write-buffer entry: the cause (R935) -/
  out : Option Nat
  /-- it stays in the cache, clean, once it has been written back (R400) -/
  stay : Bool
  deriving DecidableEq, Repr

/-- `AccLine` at reset. -/
def AccLine.reset : AccLine where
  bank := 0
  row := 0
  col := 0
  data := 0
  base := 0
  sub := 0
  rix := 0
  out := none
  stay := false

/-- Timing state of one bank: earliest CCLK for the next command (R247). -/
structure BankT where
  /-- row open in the bank (R210) -/
  openRow : Option Nat
  /-- earliest ACT or REFpb (tRC, tRP, tRFCpb) (R247) -/
  okAct : Nat
  /-- earliest PRE (tRAS, tWR, tRTP) (R247) -/
  okPre : Nat
  /-- earliest column command (tRCD) (R247) -/
  okCol : Nat
  /-- on loan to a brew op (R459) -/
  loan : Bool
  /-- no column command since its row was opened (R258) -/
  fresh : Bool
  deriving DecidableEq, Repr

/-- `BankT` at reset. -/
def BankT.reset : BankT where
  openRow := none
  okAct := 0
  okPre := 0
  okCol := 0
  loan := false
  fresh := false

/-- One entry of a hot-row tracker (R519). -/
structure HotRow where
  /-- row (R519) -/
  row : Nat
  /-- count (R519) -/
  c : Nat
  /-- vote record: counted activations by subscriber (R526) -/
  votes : List (Nat × Nat)
  /-- the row is hot (R522) -/
  hot : Bool
  /-- LTC view of its previous activation (R523) -/
  last : Nat
  deriving DecidableEq, Repr

/-- `HotRow` at reset. -/
def HotRow.reset : HotRow where
  row := 0
  c := 0
  votes := []
  hot := false
  last := 0

/-- Refresh engine and hot-row tracker of one bank. -/
structure RefBank where
  /-- due accumulator, in sixteenths, as of the view value t0 (R494) -/
  acc : Nat
  /-- LTC view at which acc was settled (R494) -/
  t0 : Nat
  /-- refreshes owed O (R499) -/
  owed : Nat
  /-- refreshes pulled in P (R499) -/
  pulled : Nat
  /-- refresh pointer (R496) -/
  ptr : Nat
  /-- activations counted in the tracker window, N (R519) -/
  n : Nat
  /-- decrement count F (R519) -/
  fdec : Nat
  /-- HOT_THR in force for the window (R535) -/
  thr : Nat
  /-- held rows (R519) -/
  rows : List HotRow
  deriving DecidableEq, Repr

/-- `RefBank` at reset. -/
def RefBank.reset : RefBank where
  acc := 0
  t0 := 0
  owed := 0
  pulled := 0
  ptr := 0
  n := 0
  fdec := 0
  thr := 0x2000
  rows := []

/-- Brew sequencer of one channel island. -/
structure BrewSeq where
  /-- launch running on the channel (R450) -/
  cur : Option Nat
  /-- latched BSET mask of computing banks (R597) -/
  mask : BitVec 32
  /-- first CCLK in which a command of the launch may follow its BSET (R597) -/
  bset : Nat
  /-- in-bank registers V0 to V7, key bank*8+r (R445) -/
  regs : Tab Line
  /-- op queue words held, in 64-bit op words (R451) -/
  q : List (BitVec 64)
  /-- acceptance mark at which each op was written (R460) -/
  qacc : List Nat
  /-- launch that each op belongs to (R73) -/
  qid : List Nat
  /-- read pointer, in op words from the release pointer (R64) -/
  rd : Nat
  /-- op in progress (R459) -/
  op : Option (BitVec 64)
  /-- progress count: column offset, or CCLK spent in a WAIT (R463) -/
  prog : Nat
  /-- accesses since the op's start or last resumption (R461) -/
  seg : Nat
  /-- CCLK at which a row op ends (R458) -/
  endAt : Nat
  /-- stopped at a preemption point (R463) -/
  stopped : Bool
  /-- its banks are still to be precharged after a stop at the end of an op (R463) -/
  stopOpen : Bool
  /-- why: 1 urgent read, 2 urgent refresh, 3 thermal budget (R258) -/
  stopWhy : Nat
  /-- ops ended of the running launch (R477) -/
  ops : Nat
  /-- the launch is being stopped as for an abort (R480) -/
  killed : Bool
  /-- launches told to stop whose words still stand in the op queue (R480) -/
  gone : List Nat
  deriving DecidableEq, Repr

/-- `BrewSeq` at reset. -/
def BrewSeq.reset : BrewSeq where
  cur := none
  mask := 0
  bset := 0
  regs := []
  q := []
  qacc := []
  qid := []
  rd := 0
  op := none
  prog := 0
  seg := 0
  endAt := 0
  stopped := false
  stopOpen := false
  stopWhy := 0
  ops := 0
  killed := false
  gone := []

/-- A calibration lane or takeover in progress on a bundle (R604, R642). -/
structure Trims where
  /-- lane being moved (0 to 71 DQ, 72 to 81 CA) (R604) -/
  lane : Nat
  /-- bond it leaves (R604) -/
  src : Nat
  /-- bond it goes to (R604) -/
  dst : Nat
  /-- CCLK of the MIRROR (R604) -/
  since : Nat
  /-- permanent takeover (R606) -/
  perm : Bool
  /-- the MIRROR has been sent (R604) -/
  mirrored : Bool
  deriving DecidableEq, Repr

/-- `Trims` at reset. -/
def Trims.reset : Trims where
  lane := 0
  src := 0
  dst := 0
  since := 0
  perm := true
  mirrored := false

/-- Health of one DQ bond (R668 to R671). -/
structure Lane where
  /-- marked as an erasure (R669) -/
  marked : Bool
  /-- corrected symbols this round (R668) -/
  corr : Nat
  /-- consecutive rounds with errors after marking (R670) -/
  run : Nat
  /-- consecutive rounds without errors (R671) -/
  clean : Nat
  deriving DecidableEq, Repr

/-- `Lane` at reset. -/
def Lane.reset : Lane where
  marked := false
  corr := 0
  run := 0
  clean := 0

/-- A command half sent on a bundle (R594, R600). -/
structure Half where
  /-- a column half (R594) -/
  col : Bool
  /-- its bits (R595) -/
  w : BitVec 50
  /-- CCLK in which it was sent (R600) -/
  sent : Nat
  deriving DecidableEq, Repr

/-- `Half` at reset. -/
def Half.reset : Half where
  col := false
  w := 0
  sent := 0

/-- One bundle: training, steering, trims and calibration. -/
structure Link where
  /-- STS_LINK STATE (R648) -/
  state : LinkState
  /-- steering table: lane to bond + 1 (0: default bond) (R604) -/
  steer : Tab Nat
  /-- failed bonds, rising (R602) -/
  failed : List Nat
  /-- lane health by DQ bond (R668) -/
  lanes : Tab Lane
  /-- takeovers between MIRROR and SWITCH (R604) -/
  swap : List Trims
  /-- NARROW mode (R607) -/
  narrow : Bool
  /-- cause of the running full retrain (R629) -/
  cause : Nat
  /-- CAL_DUE (R640) -/
  calDue : Bool
  /-- pass running (R641) -/
  calAct : Bool
  /-- position within the list of the pass (R641) -/
  calPos : Nat
  /-- bonds of the pass, in order (R641) -/
  calList : List Nat
  /-- the pass has used a hold (R649) -/
  calHold : Bool
  /-- the pass serves CAL_RUN (R830) -/
  calCmd : Bool
  /-- earliest LTC of the next calibration hold (R643) -/
  calNext : Nat
  /-- trims in use are derived (R638) -/
  derived : Bool
  /-- Tc at the last completed run (R640) -/
  tlast : BitVec 16
  /-- trim store, key (bond*4+rate)*5+point (R634) -/
  trim : Tab (BitVec 32)
  /-- trims in use, by bond (R639) -/
  inuse : Tab (BitVec 32)
  /-- impedance finger code taken by the PHY (R624) -/
  finger : Nat
  /-- TLM_CAL_LTC (R649) -/
  calLtc : Nat
  /-- TLM_CAL_TEMP (R649) -/
  calTemp : BitVec 32
  /-- TLM_CAL_CNT (R649) -/
  calCnt : Nat
  /-- the bundle has been trained since power-on reset (R648) -/
  trained : Bool
  /-- command halves other than NOP sent (R600) -/
  halves : Nat
  /-- the frame of the last CCLK on the CA lanes (R594) -/
  frame : BitVec 80
  /-- the newest halves sent, oldest first: as many as the two counts can differ by (R600) -/
  hist : List Half
  /-- halves to be sent again, as the two counts name them (R600) -/
  resend : Nat
  /-- discarded halves still to be sent again, oldest first (R600) -/
  again : List Half
  /-- SB_ALERT_n low (R599) -/
  alert : Bool
  /-- SB_RST_n (R590) -/
  rstN : Bool
  /-- SB_CKE (R590) -/
  cke : Bool
  /-- the PHY of the bundle is on (R688) -/
  phy : Bool
  deriving DecidableEq, Repr

/-- `Link` at reset. -/
def Link.reset : Link where
  state := .off
  steer := []
  failed := []
  lanes := []
  swap := []
  narrow := false
  cause := 0
  calDue := false
  calAct := false
  calPos := 0
  calList := []
  calHold := false
  calCmd := false
  calNext := 0
  derived := false
  tlast := 0x8000
  trim := []
  inuse := []
  finger := 0
  calLtc := 0
  calTemp := 0x8000
  calCnt := 0
  trained := false
  halves := 0
  frame := 0
  hist := []
  resend := 0
  again := []
  alert := false
  rstN := false
  cke := false
  phy := false

/-- A row repair running on a slice (R679). -/
structure Repair where
  /-- bank (R679) -/
  bank : Nat
  /-- row (R679) -/
  row : Nat
  /-- LTC at its start (R679) -/
  start : Nat
  /-- ECC detail word of the access that caused it (R679) -/
  detail : BitVec 32
  /-- the row as read, 32 accesses (R679) -/
  held : List Code
  /-- columns held as raw symbols (R655) -/
  raws : List Nat
  /-- arrival LTC of its work (R30) -/
  arrival : Nat
  deriving DecidableEq, Repr

/-- `Repair` at reset. -/
def Repair.reset : Repair where
  bank := 0
  row := 0
  start := 0
  detail := 0
  held := []
  raws := []
  arrival := 0

/-- A scrub check waiting on a slice (R678). -/
structure ScrubChk where
  /-- bank (R678) -/
  bank : Nat
  /-- row (R678) -/
  row : Nat
  /-- column (R678) -/
  col : Nat
  /-- symbols of a first scrub correction (empty: check after UE) (R676) -/
  syms : List Nat
  deriving DecidableEq, Repr

/-- `ScrubChk` at reset. -/
def ScrubChk.reset : ScrubChk where
  bank := 0
  row := 0
  col := 0
  syms := []

/-- A read of a secondary copy that scrub still owes (R197). -/
structure Compare where
  /-- place of the secondary copy (R197) -/
  key : Key
  /-- data of the primary (R197) -/
  data : Line
  /-- region of the primary (R197) -/
  region : Nat
  /-- detail word of a mismatch (R197) -/
  detail : Nat
  /-- arrival LTC (R30) -/
  arrival : Nat
  /-- the copies differ, and the rewrite of the secondary waits for its charge (R197) -/
  fix : Bool
  deriving DecidableEq, Repr

/-- `Compare` at reset. -/
def Compare.reset : Compare where
  key := 0
  data := 0
  region := 0
  detail := 0
  arrival := 0
  fix := false

/-- Scheduler of one channel island. -/
structure Sched where
  /-- CCLK counted in the island (R202) -/
  cclk : Nat
  /-- request window (R204) -/
  window : List WinEnt
  /-- narrow slot (R220) -/
  narrowSlot : List WinEnt
  /-- follow-on reads waiting for a window entry (R936) -/
  waiting : List WinEnt
  /-- reads issued, oldest first (R656) -/
  flight : List Flight
  /-- next insertion number (R212) -/
  nextSeq : Nat
  /-- stream (window sequence number) holding the column grant (R224) -/
  grant : Option Nat
  /-- accesses issued under the grant (R225) -/
  grantCnt : Nat
  /-- WRITE phase (R231) -/
  wrPhase : Bool
  /-- the WRITE phase was entered under the second case of R232 (R233) -/
  wrIdle : Bool
  /-- first CCLK in which the narrow cap allows a narrow column command again (R222) -/
  lastNarrow : Nat
  /-- round-robin turn of class arbitration: last subscriber served, by class (R240) -/
  rr : Tab Nat
  /-- holds in force on the channel (R243) -/
  held : Nat
  /-- class arbitration in force (R238) -/
  cls : Bool
  /-- stopped by shut-down (R578) -/
  stop : Bool
  /-- an event has taken the row slot of the next CCLK (R202) -/
  rowTaken : Bool
  /-- CCLK since which an LSTEER, ETRIM or CALP has waited for a row slot (R598) -/
  sideAt : Option Nat
  deriving DecidableEq, Repr

/-- `Sched` at reset. -/
def Sched.reset : Sched where
  cclk := 0
  window := []
  narrowSlot := []
  waiting := []
  flight := []
  nextSeq := 0
  grant := none
  grantCnt := 0
  wrPhase := false
  wrIdle := false
  lastNarrow := 0
  rr := []
  held := 0
  cls := true
  stop := false
  rowTaken := false
  sideAt := none

/-- Data structures of one channel island. -/
structure ChData where
  /-- fabric-to-channel queue: writes and accumulation pieces not read yet (R237) -/
  fcq : List WrItem
  /-- words read out of that queue whose work in the island is not done (R64) -/
  unit : List WrItem
  /-- write buffer, oldest first (R204) -/
  wb : List WBuf
  /-- follow-on writes waiting for an entry (R935) -/
  fow : List WBuf
  /-- correction queue (R935) -/
  corr : List WBuf
  /-- accumulation cache, least recently used first (R392) -/
  lines : List AccLine
  /-- miss reads in flight (R394) -/
  miss : List Key
  /-- narrow read buffer, least recently used first (R208) -/
  nrb : List (Key × Line)
  /-- next arrival number in the channel island (R396) -/
  nextIx : Nat
  /-- lines read by misses that wait for room in the cache, with the cause (R935) -/
  fill : List (AccLine × Nat)
  deriving DecidableEq, Repr

/-- `ChData` at reset. -/
def ChData.reset : ChData where
  fcq := []
  unit := []
  wb := []
  fow := []
  corr := []
  lines := []
  miss := []
  nrb := []
  nextIx := 0
  fill := []

/-- Bank timing of one channel island and its timing registers. -/
structure BankSet where
  /-- bank timing state (R247) -/
  banks : Tab BankT
  /-- CCLK of the last activations, newest first (R247) -/
  faw : List Nat
  /-- earliest ACT or REFpb to any bank (tRRD) (R247) -/
  okActAny : Nat
  /-- earliest column command (tCCD, NARROW) (R247) -/
  okCol : Nat
  /-- earliest RD (tWTR) (R247) -/
  okRd : Nat
  /-- earliest WR (tRTW) (R247) -/
  okWr : Nat
  /-- earliest command after SRX (tXS) (R247) -/
  okAny : Nat
  /-- CFG_TIM0 to CFG_TIM3, active set (R248) -/
  tim : Timing
  /-- CFG_TIM0 to CFG_TIM3, shadow set (R248) -/
  tim2 : Timing
  deriving DecidableEq, Repr

/-- `BankSet` at reset. -/
def BankSet.reset : BankSet where
  banks := []
  faw := []
  okActAny := 0
  okCol := 0
  okRd := 0
  okWr := 0
  okAny := 0
  tim := Timing.reset
  tim2 := Timing.reset

/-- Refresh engine of one channel island. -/
structure Refr where
  /-- slice in self-refresh (R511) -/
  selfRef : Bool
  /-- refresh engine running (R497) -/
  refOn : Bool
  /-- refresh band (R491) -/
  band : Nat
  /-- band set from a substitute (R537) -/
  subst : Bool
  /-- the reading that last set the band (R490) -/
  read : BitVec 16
  /-- refresh and tracker state by bank (R494) -/
  rbanks : Tab RefBank
  deriving DecidableEq, Repr

/-- `Refr` at reset. -/
def Refr.reset : Refr where
  selfRef := true
  refOn := false
  band := 0
  subst := false
  read := 0x8000
  rbanks := []

/-- Scrub and error-record state of one slice. -/
structure Scrub where
  /-- an ECC_CE record was written this round (R666) -/
  ceRec : Bool
  /-- ECC_UE records written this round (R666) -/
  ueRecs : Nat
  /-- scrub position within the pass (R673) -/
  spos : Nat
  /-- LTC of the scrub pass start (moved by pauses) (R674) -/
  sstart : Nat
  /-- PERIOD of the present pass, in hours (R702) -/
  speriod : Nat
  /-- STS_SCRUB LATE (R674) -/
  slate : Bool
  /-- passes completed (R703) -/
  spass : Nat
  /-- LTC since which scrub is paused (R940) -/
  spaused : Option Nat
  /-- scrub checks waiting (R678) -/
  checks : List ScrubChk
  /-- reads of secondary copies on this slice that wait for their charge or for a hold to end (R197) -/
  cmps : List Compare
  deriving DecidableEq, Repr

/-- `Scrub` at reset. -/
def Scrub.reset : Scrub where
  ceRec := false
  ueRecs := 0
  spos := 0
  sstart := 0
  speriod := 24
  slate := false
  spass := 0
  spaused := none
  checks := []
  cmps := []

/-- Service state and spares of one physical slice. -/
structure Spare where
  /-- in service (not STS_PFENCE) (R780) -/
  inServ : Bool
  /-- result of its last completed in-service test (R929) -/
  tested : Bool
  /-- a spare-slice march runs (R929) -/
  testing : Bool
  /-- row repairs running (R679) -/
  repairs : List Repair
  /-- row repairs that wait for their charge (R263) -/
  repWait : List Repair
  /-- spare rows used or withdrawn, by bank (R681) -/
  rowsLeft : Tab Nat
  /-- spare rows of a bank at negotiation (R611) -/
  rowsInit : Nat
  /-- spare units left (R683) -/
  unitsLeft : Nat
  /-- banks whose unit is fenced (R683) -/
  unitBad : List Nat
  /-- banks waiting for a unit substitution (R682) -/
  unitWait : List Nat
  /-- UNIT_SUB messages sent: bank and LTC (R682) -/
  unitSent : List (Nat × Nat)
  deriving DecidableEq, Repr

/-- `Spare` at reset. -/
def Spare.reset : Spare where
  inServ := true
  tested := true
  testing := false
  repairs := []
  repWait := []
  rowsLeft := []
  rowsInit := 0
  unitsLeft := 0
  unitBad := []
  unitWait := []
  unitSent := []

/-- One channel island and the physical slice it drives. -/
structure Slice where
  /-- ticks by which its LTC view lags (R37) -/
  lag : Nat
  /-- its view held its value at the last tick (R37) -/
  lagHeld : Bool
  /-- Sched part (R204) -/
  sch : Sched
  /-- ChData part (R204) -/
  dat : ChData
  /-- BankSet part (R204) -/
  bt : BankSet
  /-- Refr part (R204) -/
  rf : Refr
  /-- BrewSeq part (R204) -/
  brew : BrewSeq
  /-- Link part (R204) -/
  link : Link
  /-- Scrub part (R204) -/
  scr : Scrub
  /-- Spare part (R204) -/
  rep : Spare
  /-- thermal level (R564) -/
  level : Nat
  /-- reading or substitute used for the level (R586) -/
  temp : BitVec 16
  deriving DecidableEq, Repr

/-- `Slice` at reset. -/
def Slice.reset : Slice where
  lag := 3
  lagHeld := false
  sch := Sched.reset
  dat := ChData.reset
  bt := BankSet.reset
  rf := Refr.reset
  brew := BrewSeq.reset
  link := Link.reset
  scr := Scrub.reset
  rep := Spare.reset
  level := 0
  temp := 0x8000

/-- One of the 336 sensors (R539). -/
structure Sensor where
  /-- last reading (R547) -/
  value : BitVec 16
  /-- declared broken (R549) -/
  broken : Bool
  /-- deviated this round (R547) -/
  dev : Bool
  /-- consecutive deviating rounds (R549) -/
  devcnt : Nat
  /-- readings of the preceding unbroken rounds, newest first (R556) -/
  hist : List (BitVec 16)
  /-- a THERM_RISE record is outstanding (R557) -/
  rose : Bool
  /-- substitute (R552) -/
  sub : BitVec 16
  /-- consecutive rounds below LO (R562) -/
  lo : Nat
  /-- consecutive rounds above HI (R562) -/
  hi : Nat
  /-- SENSOR_CLEAR takes effect at the next evaluation (R815) -/
  clr : Bool
  deriving DecidableEq, Repr

/-- `Sensor` at reset. -/
def Sensor.reset : Sensor where
  value := 0x8000
  broken := false
  dev := false
  devcnt := 0
  hist := []
  rose := false
  sub := 0x8000
  lo := 0
  hi := 0
  clr := false

/-- Temperature sensing and thermal protection. -/
structure Therm where
  /-- sensors (voltage monitors reset to 0xFFFF through their accessor) (R539) -/
  sens : Tab Sensor
  /-- TLM_THERM_ROUND (R545) -/
  round : Nat
  /-- TLM_THERM_LTC (R545) -/
  roundLtc : Nat
  /-- a round's conversions run (R542) -/
  roundOpen : Bool
  /-- LTC at which the round started (R542) -/
  roundStart : Nat
  /-- rounds started since power-on reset (R559) -/
  roundNo : Nat
  /-- consecutive rounds with at least 2 mismatches, by ADC (R560) -/
  adcMis : Tab Nat
  /-- STS_THERM_INST ADC_FAIL (R586) -/
  adcFail : BitVec 5
  /-- KX_THR_REQ (R567) -/
  thrReq : Bool
  /-- LTC at which grace started (R568) -/
  graceStart : Option Nat
  /-- enforcement active (R569) -/
  enforce : Bool
  /-- a commit moved the end of grace to a time already past: enforcement starts at the next evaluation (R585) -/
  graceLate : Bool
  /-- shut-down latch (KX_SHUTDOWN) (R578) -/
  latch : Bool
  /-- HOT_SLICE (R586) -/
  hotSlice : Nat
  /-- rounds since the impedance engine last measured (R624) -/
  zqRounds : Nat
  /-- finger code measured against KX_ZQ (R624) -/
  zqCode : Nat
  /-- KX_THR_FRAC (R567) -/
  thrFrac : BitVec 8
  deriving DecidableEq, Repr

/-- `Therm` at reset. -/
def Therm.reset : Therm where
  sens := []
  round := 0
  roundLtc := 0
  roundOpen := false
  roundStart := 0
  roundNo := 0
  adcMis := []
  adcFail := 0
  thrReq := false
  graceStart := none
  enforce := false
  graceLate := false
  latch := false
  hotSlice := 0
  zqRounds := 0
  zqCode := 0
  thrFrac := 0x80

/-- One remap table entry (R187). -/
structure Remap where
  /-- PSLICE (R187) -/
  ps : Nat
  /-- NEW_PSLICE (R187) -/
  new : Nat
  /-- STATE (R187) -/
  st : RemapSt
  /-- MPTR (R187) -/
  mptr : Nat
  deriving DecidableEq, Repr

/-- `Remap` at reset. -/
def Remap.reset : Remap where
  ps := 0
  new := 0
  st := .bound
  mptr := 0

/-- A migration candidate (R684). -/
structure Cand where
  /-- logical channel (R684) -/
  chan : Nat
  /-- CAUSE (R684) -/
  cause : Nat
  /-- copy share (R833) -/
  share : Nat
  /-- TARGET, 0xFF by R686 (R833) -/
  target : Nat
  deriving DecidableEq, Repr

/-- `Cand` at reset. -/
def Cand.reset : Cand where
  chan := 0
  cause := 0
  share := 0
  target := 0xFF

/-- A running migration or REBIND (R688, R696). -/
structure Mig where
  /-- logical channel (R688) -/
  chan : Nat
  /-- old slice (R688) -/
  old : Nat
  /-- new slice (R688) -/
  new : Nat
  /-- CAUSE (R684) -/
  cause : Nat
  /-- copy share (R297) -/
  share : Nat
  /-- past step 3 (R688) -/
  copying : Bool
  /-- a REBIND (R696) -/
  rebind : Bool
  /-- accesses copied ahead of the copy share (R690) -/
  debt : Nat
  /-- the PENDING MIGRATE waits for it (R759) -/
  cmd : Bool
  /-- admission number at which the copy of row MPTR began: earlier accesses of the row complete on the old slice first (R191) -/
  mark : Nat
  deriving DecidableEq, Repr

/-- `Mig` at reset. -/
def Mig.reset : Mig where
  chan := 0
  old := 0
  new := 0
  cause := 0
  share := 0
  copying := false
  rebind := false
  debt := 0
  cmd := false
  mark := 0

/-- One memory layer as negotiated. -/
structure Layer where
  /-- negotiated major version (R621) -/
  major : Nat
  /-- negotiated minor version (R621) -/
  minor : Nat
  /-- fenced (R621) -/
  fenced : Bool
  /-- FCAUSE (R621) -/
  fcause : Nat
  /-- negotiated rate set (R621) -/
  rates : Nat
  /-- negotiated FEAT bits (R621) -/
  feat : Nat
  /-- timings in units of 10 ps (R611) -/
  tims : List Nat
  /-- disturbance threshold (R611) -/
  td : Nat
  /-- maximum operating temperature (R611) -/
  tmax : Nat
  /-- power states (R611) -/
  pstates : Nat
  /-- P_MAX (R611) -/
  pmax : Nat
  /-- last POWER_REPORT, power (R867) -/
  power : Nat
  /-- last reported power state (R867) -/
  pstate : Nat
  /-- consecutive missed reports (R867) -/
  missed : Nat
  /-- reported in this evaluation interval (R867) -/
  got : Bool
  /-- POWER_SET not yet acknowledged: state and LTC (R869) -/
  setTo : Option (Nat × Nat)
  /-- last budget message sent (R870) -/
  budget : Nat
  deriving DecidableEq, Repr

/-- `Layer` at reset. -/
def Layer.reset : Layer where
  major := 0
  minor := 0
  fenced := false
  fcause := 0
  rates := 0
  feat := 0
  tims := []
  td := 0
  tmax := 0
  pstates := 1
  pmax := 0
  power := 0
  pstate := 0
  missed := 0
  got := false
  setTo := none
  budget := 0xFFFF

/-- Negotiated stack, remap table, spares and power of the layers. -/
structure Stack where
  /-- layers (R621) -/
  layers : Tab Layer
  /-- TDmin (R533) -/
  tdMin : Nat
  /-- largest Fmax (R530) -/
  fMax : Nat
  /-- stack-wide features (R617) -/
  feats : Nat
  /-- rate points available (R251) -/
  rates : Nat
  /-- remap table (R187) -/
  remap : List Remap
  /-- migration candidates, in order (R685) -/
  cands : List Cand
  /-- migrations and REBINDs running (R688) -/
  migs : List Mig
  /-- next spare slice of the in-service test (R928) -/
  istNext : Nat
  /-- LTC of the last in-service test cycle (or the end of start-up) (R928) -/
  istLast : Nat
  /-- fell back to FEDERATED (R618) -/
  fedFall : Bool
  /-- evaluations since the budget messages were last sent (R870) -/
  fedCnt : Nat
  /-- last BUDGET share (R868) -/
  share : Option Nat
  /-- PSUM (R855) -/
  psum : Nat
  /-- CFG_ECC as applied since an evaluation (R701) -/
  ecc : Word
  /-- CFG_SCRUB as applied since an evaluation (R701) -/
  scrub : Word
  /-- CFG_MIG as applied since an evaluation (R701) -/
  mig : Word
  deriving DecidableEq, Repr

/-- The default map of R188. -/
def defaultRemap : List Remap :=
  (List.range 128).map fun c => ⟨9 * (c / 8) + c % 8, 0, .bound, 0⟩

/-- `Stack` at reset. -/
def Stack.reset : Stack where
  layers := []
  tdMin := 0
  fMax := 0
  feats := 0
  rates := 0
  remap := defaultRemap
  cands := []
  migs := []
  istNext := 0
  istLast := 0
  fedFall := false
  fedCnt := 0
  share := none
  psum := 0
  ecc := 0x0CFA0C10
  scrub := 0x31
  mig := 0x402

/-- One gather engine (R360). -/
structure Gth where
  /-- the GATHER's tracker entry (R360) -/
  eid : Nat
  /-- descriptor (R353) -/
  desc : BitVec 160
  /-- list accesses issued (R362) -/
  lissued : Nat
  /-- list entries as read (R363) -/
  ents : Tab (BitVec 64)
  /-- status of each list entry's access (R364) -/
  esta : Tab RspStatus
  /-- list accesses returned (R362) -/
  lgot : List Nat
  /-- next stream unit (64 B) to issue (R366) -/
  pos : Nat
  /-- page reads in flight (R366) -/
  flight : Nat
  /-- staged stream units (R366) -/
  units : List (Nat × RspStatus × Line)
  /-- issues no further reads (R372) -/
  drop : Bool
  /-- the page last counted in TLM_GTH_BAD, plus 1 (0: none) (R376) -/
  bad : Nat
  deriving DecidableEq, Repr

/-- `Gth` at reset. -/
def Gth.reset : Gth where
  eid := 0
  desc := 0
  lissued := 0
  ents := []
  esta := []
  lgot := []
  pos := 0
  flight := 0
  units := []
  drop := false
  bad := 0

/-- A brew launch admitted and not ended (R448). -/
structure Launch where
  /-- tracker entry (R448) -/
  eid : Nat
  /-- launching port (R446) -/
  port : Nat
  /-- TAG (R479) -/
  tag : BitVec 8
  /-- region (R447) -/
  rix : Nat
  /-- region entry (R198) -/
  rent : BitVec 256
  /-- program slot (R446) -/
  slot : Nat
  /-- op words (R427) -/
  prog : List (BitVec 64)
  /-- launch descriptor (R446) -/
  desc : BitVec 384
  /-- effective deadline (R210) -/
  dl : Nat
  /-- selected channels (R446) -/
  chans : List Nat
  /-- next op (R438) -/
  pc : Nat
  /-- ITER (R438) -/
  iter : Nat
  /-- ops written so far (R477) -/
  nops : Nat
  /-- the dispatcher has written its last op (R451) -/
  doneDisp : Bool
  /-- channels on which it has started (R450) -/
  started : List Nat
  /-- channels that have reached their commit point (R477) -/
  commits : List Nat
  /-- channels on which it has ended (R480) -/
  stopped : List Nat
  /-- status decided before its end (ABORTED, FAULT, FENCED, OK) (R482) -/
  why : Option RspStatus
  /-- LTC from which its channels read the launch word (used in DET_TIMING) (R81) -/
  vis : Nat
  deriving DecidableEq, Repr

/-- `Launch` at reset. -/
def Launch.reset : Launch where
  eid := 0
  port := 0
  tag := 0
  rix := 0
  rent := 0
  slot := 0
  prog := []
  desc := 0
  dl := 0
  chans := []
  pc := 0
  iter := 0
  nops := 0
  doneDisp := false
  started := []
  commits := []
  stopped := []
  why := none
  vis := 0

/-- Fabric island: tracker, shaping, gather, brew dispatcher, stale bitmap. -/
structure Fab where
  /-- global request tracker (R133) -/
  trk : List Entry
  /-- next admission number (0 names no entry) (R212) -/
  nextId : Nat
  /-- meter queues, in admission order (R261) -/
  mq : List Shaped
  /-- channel queues, in order of entry (R262) -/
  cq : List Piece
  /-- service meters (R259) -/
  meters : Tab Meter
  /-- subscriber buckets (R289) -/
  buckets : Tab Bucket
  /-- channel counts A, key k*128+c (R293) -/
  chCnt : Tab Nat
  /-- throttle count Bl by channel (R301) -/
  thL : Tab Nat
  /-- throttle count Bo by channel (R301) -/
  thO : Tab Nat
  /-- channels under the thermal budget in this period (R573) -/
  thOn : List Nat
  /-- fraction F of the channel budget in this period (R585) -/
  thF : Nat
  /-- activation meters, key k*128+c (R303) -/
  actCnt : Tab Nat
  /-- end of the row-disturbance throttle, key k*128+c (0: none) (R307) -/
  thrEnd : Tab Nat
  /-- start of the present channel period (R293) -/
  period : Nat
  /-- subscribers whose synchronised line is set (R160) -/
  down : List Nat
  /-- subscribers masked (line set, or not yet resumed) (R164) -/
  masked : List Nat
  /-- STS_SUB_DRAINED (R162) -/
  drained : List Nat
  /-- admission holds in force, by cause (R741) -/
  hold : List Nat
  /-- gather queue: tracker entries, in admission order (R360) -/
  fq : List Nat
  /-- gather engines (eid 0: free) (R360) -/
  engines : Tab Gth
  /-- program store (R427) -/
  progs : Tab (List (BitVec 64))
  /-- launches, in admission order (R448) -/
  launches : List Launch
  /-- stale bitmap: set bits, key (chan*32+bank)*16384+row (R466) -/
  stale : List Nat
  /-- start of the last sampled interval (R312) -/
  sampled : Nat
  /-- ended writes with DIGEST whose data has not all come (R143) -/
  ghost : List Entry
  /-- requester-down lines as driven (R901) -/
  lines : List Nat
  /-- words of the stale bitmap whose parity is wrong (R699) -/
  staleBad : List Nat
  deriving DecidableEq, Repr

/-- `Fab` at reset. -/
def Fab.reset : Fab where
  trk := []
  nextId := 1
  mq := []
  cq := []
  meters := []
  buckets := []
  chCnt := []
  thL := []
  thO := []
  thOn := []
  thF := 0x80
  actCnt := []
  thrEnd := []
  period := 0
  down := []
  masked := []
  drained := []
  hold := []
  fq := []
  engines := []
  progs := []
  launches := []
  stale := []
  sampled := 0
  ghost := []
  lines := []
  staleBad := []

/-- One digest stream (R722). -/
structure Stream where
  /-- KEY (R746) -/
  key : BitVec 32
  /-- last fence number (R728) -/
  n : BitVec 32
  /-- S (R724) -/
  s : BitVec 64
  /-- BYTES (R724) -/
  bytes : BitVec 64
  /-- PIECES (R724) -/
  pieces : BitVec 64
  /-- D_n, byte 0 in the low bits (R728) -/
  d : BitVec 256
  /-- region digest RD (R733) -/
  rd : BitVec 256
  /-- RD valid (R743) -/
  rdv : Bool
  deriving DecidableEq, Repr

/-- `Stream` at reset. -/
def Stream.reset : Stream where
  key := 1
  n := 0
  s := 0
  bytes := 0
  pieces := 0
  d := 0
  rd := 0
  rdv := false

/-- A digest record being written (R730). -/
structure DgRec where
  /-- stream index (16 + s for an aggregate) (R730) -/
  stream : Nat
  /-- fence number (R730) -/
  n : BitVec 32
  /-- LTC of the fence (R730) -/
  ltc : Nat
  /-- BYTES of the closed epoch (R730) -/
  bytes : BitVec 64
  /-- PIECES of the closed epoch (R730) -/
  pieces : BitVec 64
  /-- D_n or G_n (R730) -/
  d : BitVec 256
  /-- tracker entry of the digest fence that waits (R726) -/
  fence : Option Nat
  /-- the DIGEST_FENCE command waits (R837) -/
  cmd : Bool
  /-- tracker entry of its write (R730) -/
  eid : Option Nat
  deriving DecidableEq, Repr

/-- `DgRec` at reset. -/
def DgRec.reset : DgRec where
  stream := 0
  n := 0
  ltc := 0
  bytes := 0
  pieces := 0
  d := 0
  fence := none
  cmd := false
  eid := none

/-- An unmatched lock-step record (R739). -/
structure LsRec where
  /-- stream (R739) -/
  stream : Nat
  /-- fence number (R739) -/
  n : BitVec 32
  /-- D_n (R739) -/
  d : BitVec 256
  deriving DecidableEq, Repr

/-- `LsRec` at reset. -/
def LsRec.reset : LsRec where
  stream := 0
  n := 0
  d := 0

/-- A KX_DXP frame in the transmit queue (R736). -/
structure LsFrame where
  /-- 0 record, 1 heartbeat (R736) -/
  typ : Nat
  /-- SEQ (R736) -/
  seq : BitVec 16
  /-- stream number (R736) -/
  stream : Nat
  /-- fence number (R736) -/
  n : BitVec 32
  /-- D_n (R736) -/
  d : BitVec 256
  deriving DecidableEq, Repr

/-- `LsFrame` at reset. -/
def LsFrame.reset : LsFrame where
  typ := 0
  seq := 0
  stream := 0
  n := 0
  d := 0

/-- Determinism, digests and lock-step. -/
structure Det where
  /-- STS_DET MODE (R746) -/
  mode : DetMode
  /-- ARMED (R746) -/
  armed : Bool
  /-- ALIGNED (R746) -/
  aligned : Bool
  /-- BROKEN (R746) -/
  broken : BitVec 7
  /-- ALIGN_LTC (R715) -/
  alignLtc : Nat
  /-- alignment: 0 none, 1 draining, 2 ARMED, 3 A0 seen (R713) -/
  align : Nat
  /-- LTC of the hold, of ARMED or of A0 (R716) -/
  alignAt : Nat
  /-- edges since ARMED at which KX_ALIGN was sampled 0 (R714) -/
  lows : Nat
  /-- started by start-up or warm reset (R708) -/
  alignBoot : Bool
  /-- digest streams (R722) -/
  streams : Tab Stream
  /-- program digest PD (R732) -/
  pd : BitVec 256
  /-- record writes in progress (R730) -/
  recs : List DgRec
  /-- unmatched own records, oldest first (R739) -/
  own : List LsRec
  /-- unmatched partner records (R739) -/
  peer : List LsRec
  /-- transmit queue (R737) -/
  txq : List LsFrame
  /-- next SEQ (R736) -/
  txSeq : BitVec 16
  /-- last SEQ received (R738) -/
  rxSeq : Option (BitVec 16)
  /-- LTC at which a frame was last sent (R737) -/
  lastTx : Nat
  /-- LTC of the last valid frame (R738) -/
  lastRx : Nat
  /-- frame last sent on KX_DXP; none: the pair idles, both low (R736) -/
  dxp : Option (BitVec 384)
  /-- LINK_UP (R746) -/
  linkUp : Bool
  /-- MISMATCH (R746) -/
  mismatch : Bool
  /-- HELD (R746) -/
  lsHeld : Bool
  /-- M_STREAM (R746) -/
  mStream : Nat
  /-- M_FENCE (R746) -/
  mFence : BitVec 32
  deriving DecidableEq, Repr

/-- `Det` at reset. -/
def Det.reset : Det where
  mode := .off
  armed := false
  aligned := false
  broken := 0
  alignLtc := 0
  align := 0
  alignAt := 0
  lows := 0
  alignBoot := false
  streams := []
  pd := 0
  recs := []
  own := []
  peer := []
  txq := []
  txSeq := 0
  rxSeq := none
  lastTx := 0
  lastRx := 0
  dxp := none
  linkUp := false
  mismatch := false
  lsHeld := false
  mStream := 0
  mFence := 0

/-- The configuration in force: the CFG_ words of every section (R786). -/
structure Cfg where
  /-- region table (R169) -/
  regions : List (BitVec 256)
  /-- CFG_SCHED0 (R256) -/
  sched0 : Word
  /-- CFG_SCHED1 (R256) -/
  sched1 : Word
  /-- CFG_CLASS0 (R256) -/
  class0 : Word
  /-- CFG_CLASS1 (R256) -/
  class1 : Word
  /-- CFG_CLASS2 (R256) -/
  class2 : Word
  /-- CFG_CLASS3 (R256) -/
  class3 : Word
  /-- CFG_SHP_CTL (R310) -/
  shpCtl : Word
  /-- CFG_SHP_TRUST0 (R310) -/
  trust0 : Word
  /-- CFG_SHP_TRUST1 (R310) -/
  trust1 : Word
  /-- CFG_MTR_CIR (R310) -/
  cir : Tab Word
  /-- CFG_MTR_PIR (R310) -/
  pir : Tab Word
  /-- CFG_MTR_BURST (R310) -/
  burst : Tab Word
  /-- CFG_SUB_RATE (R310) -/
  subRate : Tab Word
  /-- CFG_SUB_BURST (R310) -/
  subBurst : Tab Word
  /-- CFG_CHS (R310) -/
  chs : Tab Word
  /-- CFG_OBS_FOCUS (R310) -/
  focus : Tab Word
  /-- CFG_XFU (R349) -/
  xfu : Tab Word
  /-- CFG_GTH_CTL (R374) -/
  gth : Word
  /-- CFG_REF_CTL (R534) -/
  refCtl : Word
  /-- CFG_RDT_CTL (R534) -/
  rdtCtl : Word
  /-- CFG_THERM0 (R583) -/
  therm0 : Word
  /-- CFG_THERM1 (R583) -/
  therm1 : Word
  /-- CFG_VMON (R583) -/
  vmon : Tab Word
  /-- CFG_LINK (R650) -/
  link : Word
  /-- CFG_ECC (R701) -/
  ecc : Word
  /-- CFG_SCRUB (R701) -/
  scrub : Word
  /-- CFG_MIG (R701) -/
  mig : Word
  /-- CFG_DET (R746) -/
  det : Word
  /-- CFG_DIG_KEY (R746) -/
  digKey : Tab Word
  /-- CFG_DIG_BIND (R746) -/
  digBind : Tab Word
  /-- CFG_DIG_REC (R746) -/
  digRec : Word
  /-- CFG_LS (R746) -/
  ls : Word
  /-- CFG_LS_PEER (R746) -/
  lsPeer : Word
  /-- CFG_PWR0 (R864) -/
  pwr0 : Word
  /-- CFG_PWR1 (R864) -/
  pwr1 : Word
  /-- CFG_PWR2 (R864) -/
  pwr2 : Word
  /-- CFG_PWR3 (R864) -/
  pwr3 : Word
  /-- brew section (R786) -/
  progs : Tab (List (BitVec 64))
  /-- patch section payload (R786) -/
  patch : Option (List Word)
  /-- CFG_GEN (R753) -/
  gen : Word
  /-- CRC-32C trailer of the image in force (R753) -/
  crc : Word
  /-- LENGTH of the image in force (R783) -/
  len : Nat
  /-- the image in force, by word (R791) -/
  image : Tab Word
  deriving DecidableEq, Repr

/-- The factory-default region table (R169): entry 0 is PLAIN over 128 GiB on all channels at 4 KiB grain. -/
def regionsReset : List (BitVec 256) :=
  BitVec.ofNat 256 (1 + 4 * 2 ^ 14 + 7 * 2 ^ 18 + 0xFFFF * 2 ^ 48 + 0x80 * 2 ^ 104 + (2 ^ 128 - 1) * 2 ^ 128) ::
    List.replicate 63 (BitVec.ofNat 256 (4 * 2 ^ 14 + 7 * 2 ^ 18 + 0x80 * 2 ^ 104))

/-- `Cfg` at reset. -/
def Cfg.reset : Cfg where
  regions := regionsReset
  sched0 := 0x02028050
  sched1 := 0xFFFE0430
  class0 := 0xAAAAAAAA
  class1 := 0xAAAAAAAA
  class2 := 0xC0F30255
  class3 := 0
  shpCtl := 0x00032019
  trust0 := 0
  trust1 := 0
  cir := []
  pir := []
  burst := []
  subRate := []
  subBurst := []
  chs := []
  focus := []
  xfu := []
  gth := 4
  refCtl := 4
  rdtCtl := 0x2000
  therm0 := 0x8070645A
  therm1 := 0x00082014
  vmon := []
  link := 0x0002A205
  ecc := 0x0CFA0C10
  scrub := 0x31
  mig := 0x402
  det := 0xFA0
  digKey := []
  digBind := []
  digRec := 0x200
  ls := 0
  lsPeer := 0
  pwr0 := 0
  pwr1 := 0
  pwr2 := 0
  pwr3 := 0
  progs := []
  patch := none
  gen := 0
  crc := 0
  len := 0
  image := []

/-- What a mode change replaced at its commit boundary, for a shut-down that abandons it (R581). -/
structure Undo where
  /-- configuration before (R581) -/
  cfg : Cfg
  /-- program store before (R581) -/
  progs : Tab (List (BitVec 64))
  /-- CFG_STATUS SOURCE before (R581) -/
  src : Nat
  /-- CFG_STATUS CAUSE before (R581) -/
  cause : Nat
  /-- CFG_DEFAULTED before (R581) -/
  defaulted : Bool
  /-- PD before (R581) -/
  pd : BitVec 256
  /-- determinism mode before (R581) -/
  mode : DetMode
  /-- ALIGNED before (R581) -/
  aligned : Bool
  /-- digest streams before (R581) -/
  streams : Tab Stream
  /-- own lock-step records before (R581) -/
  own : List LsRec
  /-- partner records before (R581) -/
  peer : List LsRec
  /-- meters before (R581) -/
  meters : Tab Meter
  /-- buckets before (R581) -/
  buckets : Tab Bucket
  deriving DecidableEq, Repr

/-- `Undo` at reset. -/
def Undo.reset : Undo where
  cfg := Cfg.reset
  progs := []
  src := 0
  cause := 0
  defaulted := false
  pd := 0
  mode := .off
  aligned := false
  streams := []
  own := []
  peer := []
  meters := []
  buckets := []

/-- A two-phase mode change between its prepare and the end of its commit window (R805). -/
structure ModeChg where
  /-- what it carries (R804) -/
  what : ChgKind
  /-- shadow configuration (R805) -/
  cfg : Cfg
  /-- shadow rate point (R253) -/
  rate : Nat
  /-- shadow determinism mode (R707) -/
  det : DetMode
  /-- context image being restored, by 8-byte word (R744) -/
  ctx : List (BitVec 64)
  /-- LTC of PREPARE (R806) -/
  start : Nat
  /-- LTC of the last acknowledgement so far; a unit whose write-back waits has not acknowledged (R808) -/
  acked : Nat
  /-- every unit has acknowledged (R805) -/
  ackd : Bool
  /-- past the commit boundary (R809) -/
  committed : Bool
  /-- LTC of the commit boundary (R809) -/
  commitAt : Nat
  /-- what the commit replaced (R581) -/
  undo : Option Undo
  /-- slices whose channels the window holds (R809) -/
  held : List Nat
  /-- gang transaction it belongs to (R859) -/
  gang : Option Gang
  /-- opcode of the command it completes (0: none here) (R810) -/
  opc : BitVec 8
  /-- completes by a CMD_DONE record (R759) -/
  pend : Bool
  deriving DecidableEq, Repr

/-- `ModeChg` at reset. -/
def ModeChg.reset : ModeChg where
  what := .cfg
  cfg := Cfg.reset
  rate := 0
  det := .off
  ctx := []
  start := 0
  acked := 0
  ackd := false
  committed := false
  commitAt := 0
  undo := none
  held := []
  gang := none
  opc := 0
  pend := false

/-- Mailbox and interrupts. -/
structure Mbx where
  /-- MBX_CMD (R754) -/
  cmd : Word
  /-- MBX_ARG0 to MBX_ARG15 (R754) -/
  args : Tab Word
  /-- MBX_RESP0 to MBX_RESP15 (R754) -/
  resp : Tab Word
  /-- STATE (R754) -/
  st : MbxSt
  /-- PENDING (R754) -/
  pend : Bool
  /-- ERR (R754) -/
  err : BitVec 8
  /-- OPCODE taken at the last doorbell (R754) -/
  opcode : BitVec 8
  /-- NRESP (R754) -/
  nresp : Nat
  /-- the copy of MBX_CMD that executes (R755) -/
  copyCmd : Word
  /-- the copy of the argument words (R755) -/
  copyArgs : Tab Word
  /-- LTC of the doorbell (R799) -/
  since : Nat
  /-- the BUSY command, when later events end it (R758) -/
  run : Option RunCmd
  /-- commands accepted with PENDING (R759) -/
  pending : List PendCmd
  /-- earliest LTC at which a copied command that waits to start may start (R719) -/
  starts : Option Nat
  /-- EVT_IRQ_STATUS causes (R765) -/
  irq : BitVec 5
  /-- EVT_IRQ_EN (R765) -/
  irqEn : BitVec 5
  deriving DecidableEq, Repr

/-- `Mbx` at reset. -/
def Mbx.reset : Mbx where
  cmd := 0
  args := []
  resp := []
  st := .idle
  pend := false
  err := 0
  opcode := 0
  nresp := 0
  copyCmd := 0
  copyArgs := []
  since := 0
  run := none
  pending := []
  starts := none
  irq := 0
  irqEn := 31

/-- A record on its way to the management island from a channel island or the fabric island (R80, R81). -/
structure CrossRec where
  /-- LTC from which the management island reads it (R81) -/
  due : Nat
  /-- channel island, or 144 for the fabric island (R80) -/
  ps : Nat
  /-- the record (R772) -/
  ev : Ev
  /-- UNIT (R771) -/
  unit : Nat
  /-- DETAIL (R771) -/
  detail : Nat
  deriving DecidableEq, Repr

/-- `CrossRec` at reset. -/
def CrossRec.reset : CrossRec where
  due := 0
  ps := 0
  ev := .icqReset
  unit := 0
  detail := 0

/-- Event log (R768). -/
structure Evt where
  /-- records held, oldest first (R768) -/
  recs : List Rec
  /-- read pointer, counted from the release pointer (R64) -/
  rd : Nat
  /-- mark, counted from the release pointer (R64) -/
  mark : Nat
  /-- write pointer modulo 2^9 (R48) -/
  wr : Nat
  /-- next SEQ (R771) -/
  seq : BitVec 16
  /-- records dropped since space was last free (R769) -/
  drop : Nat
  /-- EVT_LOG_CTL LEVEL (R768) -/
  level : Nat
  /-- LTC at which each of the newest records can be read, in DET_TIMING (R81) -/
  late : List Nat
  /-- LTC at which Preid sees each freed record, in DET_TIMING (R82) -/
  freed : List Nat
  /-- records on their way to the management island, in DET_TIMING (R81) -/
  cross : List CrossRec
  deriving DecidableEq, Repr

/-- `Evt` at reset. -/
def Evt.reset : Evt where
  recs := []
  rd := 0
  mark := 0
  wr := 0
  seq := 0
  drop := 0
  level := 0
  late := []
  freed := []
  cross := []

/-- Sticky bits and level register of one crossing queue (R57, R59, R60). -/
structure Icq where
  /-- overrun (R57) -/
  ovr : Bool
  /-- underrun (R59) -/
  und : Bool
  /-- level register (R60) -/
  level : Nat
  /-- words discarded by its resets (R74) -/
  lost : Nat
  /-- write pointer modulo 512 (class 9: in the event log) (R47) -/
  wr : Nat
  /-- credits that the producer has spent (R74) -/
  used : Nat
  /-- for each freed word that the producer has not seen yet, the LTC at which it does (DET_TIMING) (R82) -/
  freed : List Nat
  /-- for each of the newest words that the consumer cannot read yet, the LTC at which it can (DET_TIMING) (R81) -/
  late : List Nat
  /-- first copies of the four pointers: the bits, parity in bit 9, in which each differs from its pointer (R69) -/
  dmgA : Tab Nat
  /-- second copies (R69) -/
  dmgB : Tab Nat
  deriving DecidableEq, Repr

/-- `Icq` at reset. -/
def Icq.reset : Icq where
  ovr := false
  und := false
  level := 0
  lost := 0
  wr := 0
  used := 0
  freed := []
  late := []
  dmgA := []
  dmgB := []

/-- One telemetry counter (R773). -/
structure Ctr where
  /-- value (R773) -/
  v : Nat
  /-- OVF bit (R777) -/
  ovf : Bool
  deriving DecidableEq, Repr

/-- `Ctr` at reset. -/
def Ctr.reset : Ctr where
  v := 0
  ovf := false

/-- A control word on its way in a crossing queue (R80, R81). -/
structure CtlSent where
  /-- QCLASS (R80) -/
  q : Nat
  /-- QINDEX (R80) -/
  i : Nat
  /-- LTC from which its consumer reads it (R81) -/
  due : Nat
  /-- the word (R80) -/
  what : CtlWord
  deriving DecidableEq, Repr

/-- `CtlSent` at reset. -/
def CtlSent.reset : CtlSent where
  q := 0
  i := 0
  due := 0
  what := .hold 0

/-- Control port: window, time, configuration status, telemetry, boot store. -/
structure Ctl where
  /-- captured high word of the LTC (R36) -/
  ltcCap : Word
  /-- captured word 1 of a telemetry slot (R777) -/
  tlmCap : Word
  /-- page and slot whose word 1 is captured, as 128 * page + slot (R777) -/
  tlmSlot : Option Nat
  /-- TLM_SEL PAGE (R776) -/
  tlmSel : Nat
  /-- CFG_WIN (R753) -/
  win : Word
  /-- staging buffer, by word (R791) -/
  staging : Tab Word
  /-- CFG_STATUS SOURCE (R753) -/
  srcImg : Nat
  /-- CFG_DEFAULTED (R753) -/
  defaulted : Bool
  /-- CFG_STATUS CAUSE (R753) -/
  cause : Nat
  /-- boot copy A as stored (none: the device does not answer) (R889) -/
  bootA : Option (Tab Word)
  /-- boot copy B as stored (R889) -/
  bootB : Option (Tab Word)
  /-- copies whose contents are unknown after a timeout (R818) -/
  bootBad : List Nat
  /-- KX_CP_RDATA of the last read event (R908) -/
  rdata : Word
  /-- telemetry counters, key page*128+slot (R779) -/
  tlm : Tab Ctr
  /-- control words on their way in a crossing queue, in DET_TIMING (R81) -/
  words : List CtlSent
  /-- crossing queues, key QCLASS*256+QINDEX (R80) -/
  icqs : Tab Icq
  deriving DecidableEq, Repr

/-- `Ctl` at reset. -/
def Ctl.reset : Ctl where
  ltcCap := 0
  tlmCap := 0
  tlmSlot := none
  tlmSel := 0
  win := 0
  staging := []
  srcImg := 0
  defaulted := false
  cause := 0
  bootA := none
  bootB := none
  bootBad := []
  rdata := 0
  tlm := []
  words := []
  icqs := []

/-- One member table entry (R856). -/
structure Member where
  /-- CFG_PWR0 bits [5:0] as announced (R855) -/
  cfg : Nat
  /-- AGG_MASK as announced (R855) -/
  agg : Nat
  /-- PSUM as announced (R855) -/
  psum : Nat
  /-- LTC of its last ANNOUNCE (R856) -/
  seen : Nat
  deriving DecidableEq, Repr

/-- `Member` at reset. -/
def Member.reset : Member where
  cfg := 0
  agg := 0
  psum := 0
  seen := 0

/-- Contributions of one aggregate (R878). -/
structure Aggr where
  /-- stream (R878) -/
  stream : Nat
  /-- fence number (R878) -/
  n : BitVec 32
  /-- LTC of the first contribution (R879) -/
  first : Nat
  /-- contributions by ring ID, ascending (R878) -/
  parts : List (Nat × BitVec 256)
  /-- BYTES of the master's own epoch (R880) -/
  bytes : BitVec 64
  /-- PIECES of the master's own epoch (R880) -/
  pieces : BitVec 64
  deriving DecidableEq, Repr

/-- `Aggr` at reset. -/
def Aggr.reset : Aggr where
  stream := 0
  n := 0
  first := 0
  parts := []
  bytes := 0
  pieces := 0

/-- Ring stop, membership, gang and aggregation. -/
structure Ring where
  /-- CFG_PWR0 as applied since an evaluation (R865) -/
  pwr0 : Word
  /-- CFG_PWR1 as applied (R865) -/
  pwr1 : Word
  /-- CFG_PWR2 as applied (R865) -/
  pwr2 : Word
  /-- CFG_PWR3 as applied (R865) -/
  pwr3 : Word
  /-- KX_RING_ID as sampled (R846) -/
  id : Nat
  /-- KX_INST_EN (R846) -/
  en : Bool
  /-- KX_INST_PWROK (R846) -/
  pwrok : Bool
  /-- the stop is present (bypass open) (R847) -/
  present : Bool
  /-- KX_AON_RST_n low (R846) -/
  aonRst : Bool
  /-- frames driven on KX_RING_O_DAT by the last event that drove any (R846) -/
  out : List (List (BitVec 16))
  /-- member table (R856) -/
  members : Tab (Option Member)
  /-- last transaction number used (R855) -/
  xid : BitVec 16
  /-- IMAGE chunks received for the next PREPARE (R859) -/
  chunks : Tab (Option Line)
  /-- a gang PREPARE that a member in Frost holds until Thaw (R860) -/
  gang : Option Gang
  /-- LTC of the last ANNOUNCE sent (R855) -/
  lastAnn : Nat
  /-- LTC of the last BUDGET frames (R873) -/
  lastBud : Nat
  /-- aggregates being collected (R878) -/
  aggs : List Aggr
  /-- fence number of the last aggregate closed, by stream (R879) -/
  gdone : Tab (Option (BitVec 32))
  /-- G_(n-1) by stream (R878) -/
  gprev : Tab (BitVec 256)
  deriving DecidableEq, Repr

/-- `Ring` at reset. -/
def Ring.reset : Ring where
  pwr0 := 0
  pwr1 := 0
  pwr2 := 0
  pwr3 := 0
  id := 0
  en := true
  pwrok := true
  present := false
  aonRst := false
  out := []
  members := []
  xid := 0
  chunks := []
  gang := none
  lastAnn := 0
  lastBud := 0
  aggs := []
  gdone := []
  gprev := []

/-- IEEE 1500 wrapper (R924). -/
structure Wrap where
  /-- instruction in effect (R924) -/
  wir : BitVec 8
  /-- boundary register: the values last shifted in or captured (64 of its cells) (R924) -/
  boundary : BitVec 64
  /-- result register of KX_MBIST (R926) -/
  bist : BitVec 16
  /-- BIST running (R926) -/
  bistRun : Bool
  /-- KX_SLICE_TEST register (R924) -/
  slice : BitVec 16
  /-- KX_IDCODE register as captured (R924) -/
  idcode : BitVec 64
  /-- BIST or scan has left the arrays undefined (R926) -/
  undef : Bool
  deriving DecidableEq, Repr

/-- `Wrap` at reset. -/
def Wrap.reset : Wrap where
  wir := 0
  boundary := 0
  bist := 0
  bistRun := false
  slice := 0
  idcode := 0
  undef := false

/-- Resets, time, phase and power. -/
structure Sys where
  /-- local time counter (R31) -/
  ltc : Nat
  /-- ticks by which the fabric island's view lags (R37) -/
  fabLag : Nat
  /-- the fabric island's view held its value at the last tick (R37) -/
  fabHeld : Bool
  /-- KX_POR_n (R881) -/
  porN : Bool
  /-- KX_RST_n (R882) -/
  rstN : Bool
  /-- the warm-reset sequence is over and waits for release (R886) -/
  rstEnd : Bool
  /-- a warm reset waits for the end of a commit window (R811) -/
  rstDue : Bool
  /-- PHASE (R781) -/
  phase : Phase
  /-- READY (R781) -/
  ready : Bool
  /-- READY has been 1 since power-on reset (R887) -/
  everReady : Bool
  /-- RATE (R781) -/
  rate : Nat
  /-- LTC of the end of start-up (R928) -/
  readyLtc : Nat
  /-- KX_FROST (R908) -/
  frost : Bool
  /-- FROST_ENTER runs (R899) -/
  entering : Bool
  /-- LTC of the Frost admission hold (R843) -/
  frostAt : Nat
  /-- KX_WAKE as last sampled (R903) -/
  wake : Bool
  /-- a wake edge was seen during Frost entry (R844) -/
  wakeSeen : Bool
  /-- tick w of the wake event (R904) -/
  wakeLtc : Nat
  /-- KX_RAIL_EN (R908) -/
  rails : BitVec 3
  /-- the surroundings as start-up last met them, for a start-up that a warm reset restarts (R887) -/
  env : Option StartEnv
  /-- counter applied to the free values of Config (the model's own field) (the model's own field) -/
  free : Nat
  deriving DecidableEq, Repr

/-- `Sys` at reset. -/
def Sys.reset : Sys where
  ltc := 0
  fabLag := 3
  fabHeld := false
  porN := false
  rstN := true
  rstEnd := false
  rstDue := false
  phase := .romBoot
  ready := false
  everReady := false
  rate := 0
  readyLtc := 0
  frost := false
  entering := false
  frostAt := 0
  wake := false
  wakeSeen := false
  wakeLtc := 0
  rails := 0
  env := none
  free := 0

/-- The whole block. -/
structure State where
  /-- commands waiting, first in first out (the host's queue) (the model's own field) -/
  pending : List Instr
  /-- resets, time, phase and power (R881) -/
  sys : Sys
  /-- control port (R751) -/
  ctl : Ctl
  /-- mailbox and interrupts (R754) -/
  mbx : Mbx
  /-- event log (R768) -/
  evt : Evt
  /-- configuration in force (R786) -/
  cfg : Cfg
  /-- two-phase mode change in progress (R805) -/
  mc : Option ModeChg
  /-- fabric island (R17) -/
  fab : Fab
  /-- tile ports 0 to 31 and narrow ports 32 to 35 (R84) -/
  ports : Tab Port
  /-- bulk landing port (R143) -/
  blp : Blp
  /-- channel islands and their physical slices (R19) -/
  slices : Tab Slice
  /-- sensors and thermal protection (R539) -/
  therm : Therm
  /-- negotiated stack, remap table, repair (R611) -/
  stk : Stack
  /-- determinism, digests, lock-step (R706) -/
  det : Det
  /-- management ring (R845) -/
  ring : Ring
  /-- test wrapper (R924) -/
  wrap : Wrap
  /-- memory arrays by access; an unlisted access is the zero codeword (R9) -/
  mem : Tab Code
  deriving DecidableEq, Repr

/-- The block right after power-on reset is asserted: every field at the value INVENTORY.md names. -/
def State.reset : State where
  pending := []
  sys := Sys.reset
  ctl := Ctl.reset
  mbx := Mbx.reset
  evt := Evt.reset
  cfg := Cfg.reset
  mc := none
  fab := Fab.reset
  ports := []
  blp := Blp.reset
  slices := []
  therm := Therm.reset
  stk := Stack.reset
  det := Det.reset
  ring := Ring.reset
  wrap := Wrap.reset
  mem := []

end Sys2Proof.Machine
end

