-- ==== Sys2Proof/Machine/Tab.lean ====
section
/-! DEFINITION. Sparse tables in one canonical form: numbers strictly rising, and no listed value equal to what an
unlisted number reads as. Equal contents are therefore equal lists. -/

namespace Sys2Proof.Machine

/-- The value at `k`; `d` where the table lists none. -/
def Tab.get {α : Type} (d : α) : Tab α → Nat → α
  | [], _ => d
  | (k', v) :: t, k => if k' = k then v else Tab.get d t k

/-- The table with `v` at `k`. Writing the default `d` takes the entry out. -/
def Tab.set {α : Type} [DecidableEq α] (d : α) : Tab α → Nat → α → Tab α
  | [], k, v => if v = d then [] else [(k, v)]
  | (k', v') :: t, k, v =>
    if k < k' then (if v = d then (k', v') :: t else (k, v) :: (k', v') :: t)
    else if k = k' then (if v = d then t else (k, v) :: t)
    else (k', v') :: Tab.set d t k v

/-- Every number of the table is above `n` and no listed value is the default. -/
def Tab.above {α : Type} [DecidableEq α] (d : α) (n : Option Nat) : Tab α → Bool
  | [] => true
  | (k, v) :: t =>
    (match n with
      | none => true
      | some m => decide (m < k)) && decide (v ≠ d) && Tab.above d (some k) t

/-- The canonical form: numbers rise strictly and no listed value is the default. -/
def Tab.wf {α : Type} [DecidableEq α] (d : α) (t : Tab α) : Bool := Tab.above d none t

/-- The table with the value at `k` changed by `f`. -/
def Tab.upd {α : Type} [DecidableEq α] (d : α) (t : Tab α) (k : Nat) (f : α → α) : Tab α :=
  Tab.set d t k (f (Tab.get d t k))

/-- The table with every listed value changed by `f`; entries that become the default leave. -/
def Tab.mapVals {α : Type} [DecidableEq α] (d : α) (f : Nat → α → α) : Tab α → Tab α
  | [] => []
  | (k, v) :: t =>
    if f k v = d then Tab.mapVals d f t else (k, f k v) :: Tab.mapVals d f t

/-- The table without the numbers that `p` picks. -/
def Tab.drop {α : Type} (p : Nat → Bool) (t : Tab α) : Tab α := t.filter fun kv => !p kv.1

/-- Insert a number into a list that rises strictly. -/
def insertNat (k : Nat) : List Nat → List Nat
  | [] => [k]
  | a :: t => if k < a then k :: a :: t else if k = a then a :: t else a :: insertNat k t

/-- The list with its element at `i` replaced by `v`. -/
def setAt {α : Type} (l : List α) (i : Nat) (v : α) : List α :=
  match l, i with
  | [], _ => []
  | _ :: t, 0 => v :: t
  | a :: t, i + 1 => a :: setAt t i v

/-- Take the first element that `p` picks out of a list. -/
def takeFirst {α : Type} (p : α → Bool) : List α → Option (α × List α)
  | [] => none
  | a :: t =>
    if p a then some (a, t)
    else match takeFirst p t with
      | none => none
      | some (x, r) => some (x, a :: r)

/-- The list with the first element that `p` picks changed by `g`. -/
def updFirst {α : Type} (p : α → Bool) (g : α → α) : List α → List α
  | [] => []
  | a :: t => if p a then g a :: t else a :: updFirst p g t

/-- The list without the first element that `p` picks. -/
def dropFirst {α : Type} (p : α → Bool) : List α → List α
  | [] => []
  | a :: t => if p a then t else a :: dropFirst p t

/-- The element of a list that `lt` puts before all others; the earlier one on a tie. -/
def least {α : Type} (lt : α → α → Bool) : List α → Option α
  | [] => none
  | a :: t =>
    match least lt t with
    | none => some a
    | some b => if lt b a then some b else some a

end Sys2Proof.Machine
end

