-- ==== Sys2Proof/Machine/Ops.lean ====
section
/-! DEFINITION. The operations that commands share: bit fields, access to the islands, time, event records,
telemetry counters, error and status codes, memory accesses and credits. -/

namespace Sys2Proof.Machine

/-- Answer of a command that runs. -/
abbrev Res := Host.Outcome State Fault Refusal

/-! ### Bit fields -/

/-- Bits `lo + len - 1 : lo` of a word, as a number. -/
def fld {n : Nat} (w : BitVec n) (lo len : Nat) : Nat := (w.toNat >>> lo) % 2 ^ len

/-- Bit `i` of a word. -/
def bit {n : Nat} (w : BitVec n) (i : Nat) : Bool := w.toNat.testBit i

/-- The signed value of bits `lo + len - 1 : lo`. -/
def sfld {n : Nat} (w : BitVec n) (lo len : Nat) : Int :=
  let v := fld w lo len
  if v < 2 ^ (len - 1) then (v : Int) else (v : Int) - 2 ^ len

/-- 1 or 0. -/
def b2n (b : Bool) : Nat := if b then 1 else 0

/-- Byte `i` of a word, byte 0 in the low bits (R5). -/
def byteOf {n : Nat} (w : BitVec n) (i : Nat) : Nat := fld w (8 * i) 8

/-- The number whose byte `i` is element `i` of the list (R5). -/
def ofBytes : List Nat → Nat
  | [] => 0
  | b :: t => b % 256 + 256 * ofBytes t

/-- The low `n` bytes of a number, low byte first (R5). -/
def toBytes : Nat → Nat → List Nat
  | 0, _ => []
  | n + 1, v => v % 256 :: toBytes n (v / 256)

/-- A little-endian 32-bit word at byte `o` of a byte list; bytes beyond the list are 0. -/
def le (l : List Nat) (o n : Nat) : Nat := ofBytes ((l.drop o).take n)

/-- The numbers 0 to 31 whose bit is set in a word. -/
def setBits {n : Nat} (w : BitVec n) : List Nat := (List.range n).filter fun i => bit w i

/-! ### Codes -/

/-- Response status code (R109). -/
def RspStatus.code : RspStatus → Nat
  | .ok => 0 | .ue => 1 | .decerr => 2 | .perm => 3 | .fenced => 4 | .window => 5
  | .aborted => 6 | .fault => 7 | .thermstop => 8 | .stale => 9 | .badreq => 10

/-- Place in the order of R111; statuses that no data access ends with come first, as whole-request answers. -/
def RspStatus.rank : RspStatus → Nat
  | .fault => 0 | .thermstop => 1 | .fenced => 2 | .ue => 3 | .stale => 4 | .window => 5 | .ok => 6
  | .decerr => 0 | .perm => 0 | .aborted => 0 | .badreq => 0

/-- The status that several accesses give together (R111). -/
def RspStatus.worse (a b : RspStatus) : RspStatus := if b.rank < a.rank then b else a

/-- The first status of R111's order in a list; OK for none. -/
def worstOf (l : List RspStatus) : RspStatus := l.foldl RspStatus.worse .ok

/-- Colour code (R92). -/
def Colour.code : Colour → Nat
  | .green => 0 | .yellow => 1 | .red => 2

/-- E_OK (R764). -/
def eOk : BitVec 8 := 0
/-- E_BADOP (R764). -/
def eBadop : BitVec 8 := 1
/-- E_BADARG (R764). -/
def eBadarg : BitVec 8 := 2
/-- E_RANGE (R764). -/
def eRange : BitVec 8 := 3
/-- E_STATE (R764). -/
def eState : BitVec 8 := 4
/-- E_BUSY (R764). -/
def eBusy : BitVec 8 := 5
/-- E_NOTSUP (R764). -/
def eNotsup : BitVec 8 := 6
/-- E_CHECK (R764). -/
def eCheck : BitVec 8 := 7
/-- E_TIMEOUT (R764). -/
def eTimeout : BitVec 8 := 8
/-- E_ABORTED (R764). -/
def eAborted : BitVec 8 := 9
/-- E_NOT_ACTIVE (R764). -/
def eNotActive : BitVec 8 := 10
/-- E_NOSPARE (R764). -/
def eNospare : BitVec 8 := 11

/-- Layer of a physical slice (R9). -/
def layerOf (p : Nat) : Nat := p / 9

/-! ### Access to the islands -/

/-- Channel island and slice `p`. -/
def State.slice (s : State) (p : Nat) : Slice := Tab.get Slice.reset s.slices p

/-- The state with island `p` replaced. -/
def State.setSlice (s : State) (p : Nat) (x : Slice) : State :=
  { s with slices := Tab.set Slice.reset s.slices p x }

/-- The state with island `p` changed. -/
def State.modSlice (s : State) (p : Nat) (f : Slice → Slice) : State := s.setSlice p (f (s.slice p))

/-- Port `k` (0 to 35). -/
def State.port (s : State) (k : Nat) : Port := Tab.get Port.reset s.ports k

/-- The state with port `k` replaced. -/
def State.setPort (s : State) (k : Nat) (x : Port) : State :=
  { s with ports := Tab.set Port.reset s.ports k x }

/-- The state with port `k` changed. -/
def State.modPort (s : State) (k : Nat) (f : Port → Port) : State := s.setPort k (f (s.port k))

/-- The state with the fabric island changed. -/
def State.modFab (s : State) (f : Fab → Fab) : State := { s with fab := f s.fab }

/-- The state with the mailbox changed. -/
def State.modMbx (s : State) (f : Mbx → Mbx) : State := { s with mbx := f s.mbx }

/-- The state with the system fields changed. -/
def State.modSys (s : State) (f : Sys → Sys) : State := { s with sys := f s.sys }

/-- The state with the stack fields changed. -/
def State.modStk (s : State) (f : Stack → Stack) : State := { s with stk := f s.stk }

/-- The state with the determinism fields changed. -/
def State.modDet (s : State) (f : Det → Det) : State := { s with det := f s.det }

/-- The state with the thermal fields changed. -/
def State.modTherm (s : State) (f : Therm → Therm) : State := { s with therm := f s.therm }

/-- The state with the ring fields changed. -/
def State.modRing (s : State) (f : Ring → Ring) : State := { s with ring := f s.ring }

/-- The state with the control-port fields changed. -/
def State.modCtl (s : State) (f : Ctl → Ctl) : State := { s with ctl := f s.ctl }

/-- The state with the landing port changed. -/
def State.modBlp (s : State) (f : Blp → Blp) : State := { s with blp := f s.blp }

/-- The state with channel island `p`'s scheduler changed. -/
def State.modSch (s : State) (p : Nat) (f : Sched → Sched) : State :=
  s.modSlice p fun x => { x with sch := f x.sch }

/-- The state with channel island `p`'s data structures changed. -/
def State.modDat (s : State) (p : Nat) (f : ChData → ChData) : State :=
  s.modSlice p fun x => { x with dat := f x.dat }

/-- The state with bundle `p` changed. -/
def State.modLink (s : State) (p : Nat) (f : Link → Link) : State :=
  s.modSlice p fun x => { x with link := f x.link }

/-- Even parity over the bits of `v` below bit `n` (R595, R596). -/
def evenParity (n v : Nat) : Nat := ((List.range n).filter fun i => v.testBit i).length % 2

/-- A row half: ROP `op`, its fields in their places, parity in bit 49 (R595). -/
def rowHalf (op fields : Nat) : BitVec 50 := BitVec.ofNat 50 (op + fields + evenParity 49 (op + fields) * 2 ^ 49)

/-- A column half: COP `op`, its fields in their places, parity in bit 29 (R596). -/
def colHalf (op fields : Nat) : BitVec 50 := BitVec.ofNat 50 (op + fields + evenParity 29 (op + fields) * 2 ^ 29)

/-- A half goes into the frame of CCLK `t` (R594); halves other than NOP are counted, and one sent while the alert is low is
discarded by the endpoint and will be sent again (R599, R600). -/
def Link.send (l : Link) (t : Nat) (col : Bool) (w : BitVec 50) : Link :=
  { l with again := if l.alert then l.again ++ [⟨col, w, t⟩] else l.again, halves := (l.halves + 1) % 2 ^ 16,
           resend := if l.alert then (l.resend + 1) % 2 ^ 16 else l.resend,
           hist := (l.hist ++ [(⟨col, w, t⟩ : Half)]).drop (l.hist.length - 65534),
           frame := if col then (l.frame.setWidth 50).setWidth 80 ||| (w.setWidth 80) <<< 50
                    else (l.frame >>> 50) <<< 50 ||| w.setWidth 80 }

/-- The alert is cleared over the sideband, and the two counts agree again: halves sent from now on are executed (step 2 of R630,
R599, R600). -/
def Link.clearAlert (l : Link) : Link :=
  if l.alert then { l with alert := false, halves := (l.halves + 2 ^ 16 - l.resend) % 2 ^ 16 } else l

/-- Both commands that steer `lane` onto `bond`: the MIRROR in CCLK `t` and the SWITCH 8 CCLK later (R595, R604). -/
def Link.sendSteer (l : Link) (t lane bond : Nat) : Link :=
  (l.send t false (rowHalf 8 (lane * 2 ^ 4 + bond * 2 ^ 11))).send (t + 8) false (rowHalf 8 (lane * 2 ^ 4 + bond * 2 ^ 11 + 2 ^ 18))

/-- A row command is sent on bundle `p` in the present CCLK of its island (R594, R595). -/
def State.sendRow (s : State) (p op fields : Nat) : State :=
  s.modLink p fun l => l.send (s.slice p).sch.cclk false (rowHalf op fields)

/-- A column command is sent on bundle `p` in the present CCLK of its island (R594, R596). -/
def State.sendCol (s : State) (p op fields : Nat) : State :=
  s.modLink p fun l => l.send (s.slice p).sch.cclk true (colHalf op fields)

/-- BC of ACT and PRE: every bank of the BSET mask (R595). -/
def bcBit : Nat := 2 ^ 23

/-- The state with the scrub fields of slice `p` changed. -/
def State.modScr (s : State) (p : Nat) (f : Scrub → Scrub) : State :=
  s.modSlice p fun x => { x with scr := f x.scr }

/-- The state with the spares of slice `p` changed. -/
def State.modRep (s : State) (p : Nat) (f : Spare → Spare) : State :=
  s.modSlice p fun x => { x with rep := f x.rep }

/-- The state with the brew sequencer of island `p` changed. -/
def State.modBrew (s : State) (p : Nat) (f : BrewSeq → BrewSeq) : State :=
  s.modSlice p fun x => { x with brew := f x.brew }

/-- Apply `f` for each element of a list, in order. -/
def State.each {α : Type} (s : State) (l : List α) (f : State → α → State) : State := l.foldl f s

/-- MODECHG: a mode change runs here, or the instance has received the PREPARE of one of its gang (R805, R859). -/
def State.modechg (s : State) : Bool := s.mc.isSome || s.ring.gang.isSome

/-! ### Time -/

/-- The fabric island's view of the LTC (R37, R39). -/
def State.fabView (s : State) : Nat := s.sys.ltc - s.sys.fabLag

/-- Channel island `p`'s view of the LTC (R37, R41). -/
def State.view (s : State) (p : Nat) : Nat := s.sys.ltc - (s.slice p).lag

/-- The LTC value a rule with a period counts in (R717). -/
def State.periodTime (s : State) (v : Nat) : Nat :=
  match s.det.mode with
  | .timing => v - s.det.alignLtc
  | _ => v

/-- LTC ticks in `n` microseconds (R31). -/
def us (n : Nat) : Nat := 400 * n

/-- LTC ticks in `n` milliseconds (R31). -/
def ms (n : Nat) : Nat := 400000 * n

/-- Advance the counter that free values are applied to (the model's own field). -/
def State.nextFree (s : State) : State := { s with sys := { s.sys with free := s.sys.free + 1 } }

/-! ### Island-crossing queues (R45 to R68, R80 to R82) -/

/-- Queue `i` of class `q`. -/
def State.icq (s : State) (q i : Nat) : Icq := Tab.get Icq.reset s.ctl.icqs (q * 256 + i)

/-- The state with queue `i` of class `q` changed. -/
def State.modIcq (s : State) (q i : Nat) (f : Icq → Icq) : State :=
  { s with ctl := { s.ctl with icqs := Tab.upd Icq.reset s.ctl.icqs (q * 256 + i) f } }

/-- `n` or more is the depth of a queue of class `q`: 256 records of the event log (R768), 16 words of an op queue (R451), for the
other classes a power of two from 8 to 256 that the spec leaves open (R45; free value, DESIGN CHOICE, log 55). -/
def icqDeep (q n : Nat) : Bool :=
  if q = 9 then decide (256 ≤ n)
  else if q = 2 then decide (16 ≤ n)
  else if n < 8 then false
  else if 256 ≤ n then true
  else decide (2 ^ (3 + Config.freeDepth q % 6) ≤ n)

/-- LTC ticks from a write to the consumer, and from a release to the producer, of class `q`: they count in DET_TIMING only; in
every other mode R53 and R54 leave the delay open up to 3 cycles, and the model takes none (R81, R82; DESIGN CHOICE, log 12). -/
def State.crossTime (s : State) (q : Nat) : Nat :=
  match s.det.mode with
  | .timing => if q = 8 || q = 9 then 16 else 4
  | .off | .bits => 0

/-- The stamps of a list that are still to come. -/
def State.ahead (s : State) (l : List Nat) : List Nat := l.filter fun t => decide (s.sys.ltc < t)

/-- Words of queue (q, i) that have been released without the producer having seen it yet (R82). -/
def State.icqUnseen (s : State) (q i : Nat) : Nat := (s.ahead (if q = 9 then s.evt.freed else (s.icq q i).freed)).length

/-- The newest words of queue (q, i) that the consumer cannot read yet (R81). -/
def State.icqLate (s : State) (q i : Nat) : Nat := (s.ahead (if q = 9 then s.evt.late else (s.icq q i).late)).length

/-- The full flag of queue (q, i), which holds `occ` words from release to write (R50, R52, R82). -/
def State.icqFull (s : State) (q i occ : Nat) : Bool := icqDeep q (occ + s.icqUnseen q i)

/-- The producer has a credit for queue (q, i) left: one for each word of its depth, less the words it has sent whose release it
has not seen (R74, R82, R237). -/
def State.icqCredit (s : State) (q i : Nat) : Bool := !icqDeep q ((s.icq q i).used + s.icqUnseen q i)

/-- In DET_TIMING the newest word of queue (q, i) becomes readable later (R81). -/
def State.icqDelay (s : State) (q i : Nat) : State :=
  let d := s.crossTime q
  if d = 0 then s else s.modIcq q i fun x => { x with late := s.ahead x.late ++ [s.sys.ltc + d] }

/-- A word is written into queue (q, i): the write pointer advances and a credit is spent (R47, R81). -/
def State.icqWrite (s : State) (q i : Nat) : State :=
  (s.modIcq q i fun x => { x with wr := (x.wr + 1) % 512, used := x.used + 1 }).icqDelay q i

/-- In DET_TIMING the producer of queue (q, i) sees `n` freed words later (R82). -/
def State.icqFree (s : State) (q i n : Nat) : State :=
  let d := s.crossTime q
  if d = 0 then s else s.modIcq q i fun x => { x with freed := s.ahead x.freed ++ List.replicate n (s.sys.ltc + d) }

/-- `n` words of queue (q, i) are released: their credits go back to the producer, in DET_TIMING later (R64, R82). -/
def State.icqRelease (s : State) (q i n : Nat) : State :=
  (s.modIcq q i fun x => { x with used := x.used - n }).icqFree q i n

/-- LTC at which the producer of a queue of class `q` can write its next word: now, or, while the full flag is asserted, once it
has seen enough slots free (R50, R52, R82). `l` are the ticks at which it sees the slots of the words under way free, rising. -/
def slotAt (q now : Nat) : List Nat → Nat
  | [] => now
  | t :: ts => if icqDeep q (ts.length + 1) then slotAt q (max now t) ts else now

/-- LTC at which the next word of AUTO queue (q, i) is written: its producer holds it while the full flag is asserted, so that no
word is written into a full queue (R50, R52, R56). -/
def State.icqAt (s : State) (q i : Nat) : Nat := slotAt q s.sys.ltc (s.ahead (s.icq q i).freed)

/-- LTC at which the consumer of AUTO queue (q, i) reads the next word (R81). -/
def State.icqSeen (s : State) (q i : Nat) : Nat := s.icqAt q i + s.crossTime q

/-- A word passes an AUTO queue: it is written, and the READ releases it (R65). Outside DET_TIMING that is one step; in DET_TIMING
the consumer reads it at `icqSeen`, and its slot is free again for the producer one crossing later (R81, R82). -/
def State.icqPass (s : State) (q i : Nat) : State :=
  let d := s.crossTime q
  s.modIcq q i fun x =>
    { x with wr := (x.wr + 1) % 512, freed := if d = 0 then x.freed else s.ahead x.freed ++ [s.icqSeen q i + d] }

/-- The queue is empty: its pointers are 0, its credits are back (R74, R885). -/
def Icq.emptied (x : Icq) : Icq := { x with wr := 0, used := 0, freed := [], late := [], dmgA := [], dmgB := [] }

/-- The queues between the fabric, channel, landing and management islands are emptied, as in a reset of those islands (R713,
R885). -/
def State.emptyIcqs (s : State) : State :=
  { s with ctl := { s.ctl with words := [], icqs := Tab.mapVals Icq.reset (fun k x => if k < 2048 then x.emptied else x) s.ctl.icqs } }

/-! ### Event log (R768 to R772) -/

/-- CODE of a record (R772). -/
def Ev.code : Ev → Nat
  | .icqReset => 0x001 | .icqOverrun => 0x002 | .portProtocol => 0x010 | .cmdDone => 0x020
  | .cfgDefault => 0x021 | .cfgReject => 0x022 | .counterSat => 0x023 | .errcntSat => 0x024
  | .logDrop => 0x025 | .cfgClamped => 0x026 | .replicaMismatch => 0x030 | .rdtHot => 0x040
  | .rdtClamped => 0x041 | .thermLevel => 0x050 | .thermEnforce => 0x051 | .thermShutdown => 0x052
  | .thermRise => 0x053 | .sensorBroken => 0x054 | .adcFail => 0x055 | .vmonRange => 0x056
  | .negFence => 0x060 | .negFallback => 0x061 | .linkSpare => 0x062 | .linkNarrow => 0x063
  | .linkRetrain => 0x064 | .linkFence => 0x065 | .laneErase => 0x066 | .laneFail => 0x067
  | .laneClear => 0x068 | .eccCe => 0x070 | .eccUe => 0x071 | .eccHard => 0x072 | .rowRepair => 0x073
  | .unitSub => 0x080 | .migStart => 0x081 | .migDone => 0x082 | .migFail => 0x083 | .chanFence => 0x084
  | .chanRebind => 0x085 | .firnEmpty => 0x086 | .fuseMinority => 0x087 | .fuseFence => 0x088
  | .scrubLate => 0x089 | .alignDone => 0x090 | .alignFail => 0x091 | .detBreak => 0x092
  | .digRecLost => 0x093 | .lsMismatch => 0x094 | .lsLost => 0x095 | .lsPeer => 0x096 | .lsGap => 0x097
  | .lsOverflow => 0x098

/-- Causes a record sets (R772, R765): bit 0 MBX, 1 EVT, 2 THERM, 3 FATAL. -/
def Ev.causes : Ev → BitVec 5
  | .cmdDone => 1
  | .thermLevel | .thermEnforce | .thermRise | .sensorBroken | .adcFail | .vmonRange => 4
  | .thermShutdown => 12
  | .laneErase | .laneClear | .eccCe => 0
  | .migFail | .chanFence | .fuseFence => 10
  | .icqReset | .icqOverrun | .portProtocol | .cfgDefault | .cfgReject | .counterSat | .errcntSat | .logDrop
  | .cfgClamped | .replicaMismatch | .rdtHot | .rdtClamped | .negFence | .negFallback | .linkSpare | .linkNarrow
  | .linkRetrain | .linkFence | .laneFail | .eccUe | .eccHard | .rowRepair | .unitSub | .migStart | .migDone
  | .chanRebind | .firnEmpty | .fuseMinority | .scrubLate | .alignDone | .alignFail | .detBreak | .digRecLost
  | .lsMismatch | .lsLost | .lsPeer | .lsGap | .lsOverflow => 2

/-- The record of R771. -/
def mkRec (seq : BitVec 16) (e : Ev) (unit detail ltc : Nat) : Rec where
  w0 := BitVec.ofNat 32 (seq.toNat + e.code * 2 ^ 16 + (e.causes.toNat / 2) * 2 ^ 28)
  w1 := BitVec.ofNat 32 (unit % 2 ^ 16)
  w2 := BitVec.ofNat 32 (ltc % 2 ^ 32)
  w3 := BitVec.ofNat 32 (ltc / 2 ^ 32)
  w4 := BitVec.ofNat 32 detail

/-- The stamps of a crossing of the event log with `n` more words under way: none outside DET_TIMING (R81, R82). -/
def State.logStamps (s : State) (l : List Nat) (n : Nat) : List Nat :=
  let d := s.crossTime 9
  if d = 0 then l else s.ahead l ++ List.replicate n (s.sys.ltc + d)

/-- Put a record behind the others of a log that has room (R768, R771). -/
def Evt.push (l : Evt) (e : Ev) (unit detail ltc : Nat) : Evt :=
  { l with recs := l.recs ++ [mkRec l.seq e unit detail ltc], seq := l.seq + 1, wr := (l.wr + 1) % 512 }

/-- Records that the reader of the log sees: all but those on their way in DET_TIMING (R61, R81). -/
def State.logSeen (s : State) : Nat := s.evt.recs.length - s.icqLate 9 0

/-- The log has no room: it is full, or in DET_TIMING its producer has not yet seen the room there is (R50, R82). -/
def State.logFull (s : State) : Bool := s.icqFull 9 0 s.evt.recs.length

/-- A log entry and its causes: R768 to R772; a full log counts the record as dropped and still sets the causes
(R767, R769); an occupancy that reaches LEVEL from below sets LEVEL (R62), in DET_TIMING once the reader sees it. -/
def State.event (s : State) (e : Ev) (unit detail : Nat) : State :=
  let irq := s.mbx.irq ||| e.causes
  if s.logFull then
    { s with evt := { s.evt with drop := min (s.evt.drop + 1) 0xFFFFFFFF }, mbx := { s.mbx with irq := irq } }
  else
    let lvl := s.crossTime 9 == 0 && s.evt.recs.length < s.evt.level && s.evt.level ≤ s.evt.recs.length + 1
    { s with evt := { s.evt.push e unit detail s.sys.ltc with late := s.logStamps s.evt.late 1 },
             mbx := { s.mbx with irq := if lvl then irq ||| 16 else irq } }

/-- A record that an island reports crosses queue (q, i) to the management island, which makes it when it reads the word: at once
or, in DET_TIMING, later (R15, R81). `ps` names the island: a channel island, or 144 for the fabric. -/
def State.reportBy (s : State) (q i ps : Nat) (e : Ev) (unit detail : Nat) : State :=
  let due := s.icqSeen q i
  let s1 := s.icqPass q i
  if due ≤ s.sys.ltc then s1.event e unit detail
  else { s1 with evt := { s1.evt with cross := s1.evt.cross ++ [⟨due, ps, e, unit, detail⟩] } }

/-- A record that channel island `p`, its PHY or its memory slice reports crosses class 4 (R80). -/
def State.report (s : State) (p : Nat) (e : Ev) (unit detail : Nat) : State := s.reportBy 4 p p e unit detail

/-- A record that the fabric island reports crosses class 7, index 1 (R80). -/
def State.reportFab (s : State) (e : Ev) (unit detail : Nat) : State := s.reportBy 7 1 144 e unit detail

/-- The management island reads the words that have crossed, and makes their records (R81). -/
def State.readReports (s : State) : State :=
  let seen (x : CrossRec) : Bool := decide (x.due ≤ s.sys.ltc)
  (State.each { s with evt := { s.evt with cross := s.evt.cross.filter fun x => !seen x } } (s.evt.cross.filter seen)) fun s x =>
    s.event x.ev x.unit x.detail

/-- Once the log has room, the records it dropped are reported by one LOG_DROP (R769). -/
def State.reportDrops (s : State) : State :=
  if s.evt.drop ≠ 0 && !s.logFull then
    State.event { s with evt := { s.evt with drop := 0 } } .logDrop 0 s.evt.drop
  else s

/-! ### Telemetry counters (R773, R779) -/

/-- Counter `slot` of telemetry page `page`. -/
def State.ctr (s : State) (page slot : Nat) : Ctr := Tab.get Ctr.reset s.ctl.tlm (page * 128 + slot)

/-- Add `n` to a counter whose top is `top`: beyond it, it stays at the top, sets OVF, and the first time writes
one record `e` (R773). -/
def State.count (s : State) (top : Nat) (e : Ev) (page slot n : Nat) : State :=
  let c := s.ctr page slot
  let c' : Ctr := if c.v + n ≤ top then { c with v := c.v + n } else { v := top, ovf := true }
  let s1 : State := { s with ctl := { s.ctl with tlm := Tab.set Ctr.reset s.ctl.tlm (page * 128 + slot) c' } }
  if c'.ovf && !c.ovf then s1.event e 0 (page + slot * 2 ^ 12) else s1

/-- Add to a 48-bit statistics counter (R773). -/
def State.stat (s : State) (page slot n : Nat) : State := s.count (2 ^ 48 - 1) .counterSat page slot n

/-- Add to a 32-bit error counter (R773). -/
def State.errCount (s : State) (page slot n : Nat) : State := s.count (2 ^ 32 - 1) .errcntSat page slot n

/-- Statistics counter `slot` of physical slice `p` (R779). -/
def State.statSlice (s : State) (p slot n : Nat) : State := s.stat p slot n

/-- Statistics counter `slot` of logical channel `c` (R779). -/
def State.statChan (s : State) (c slot n : Nat) : State := s.stat (0x100 + c) slot n

/-- Statistics counter `i` of meter `m` (R779). -/
def State.statMeter (s : State) (m i n : Nat) : State := s.stat (0x200 + m / 4) (32 * (m % 4) + i) n

/-- Statistics counter `slot` of subscriber `k` (R779). -/
def State.statSub (s : State) (k slot n : Nat) : State := s.stat (0x280 + k) slot n

/-! ### Memory arrays -/

/-- The place of an access in the arrays (R9). -/
def keyOf (ps bank row col : Nat) : Key := ((ps * 32 + bank) * 16384 + row) * 32 + col

/-- Slice of a place. -/
def keyPs (k : Key) : Nat := k / (32 * 16384 * 32)
/-- Bank of a place. -/
def keyBank (k : Key) : Nat := k / (16384 * 32) % 32
/-- Row of a place. -/
def keyRow (k : Key) : Nat := k / 32 % 16384
/-- Column of a place. -/
def keyCol (k : Key) : Nat := k % 32

/-- The 72 symbols the arrays hold at a place; an unlisted place holds the zero codeword. -/
def State.code (s : State) (k : Key) : Code := Tab.get 0 s.mem k

/-- The state with the symbols at a place written. -/
def State.setCode (s : State) (k : Key) (v : Code) : State := { s with mem := Tab.set 0 s.mem k v }

/-- The canonical form of the memory arrays: places rise and no listed one holds the zero codeword. -/
def Memory.wf (m : Tab Code) : Bool := Tab.wf 0 m

/-! ### Stale bitmap (R466, R488) -/

/-- Number of the bit of row `row` of bank `bank` of logical channel `c`. -/
def staleKey (c bank row : Nat) : Nat := (c * 32 + bank) * 16384 + row

/-- The stale bit of a row. -/
def Fab.isStale (f : Fab) (c bank row : Nat) : Bool := f.stale.contains (staleKey c bank row)

/-- Set the stale bit of a row. -/
def Fab.setStale (f : Fab) (c bank row : Nat) : Fab := { f with stale := insertNat (staleKey c bank row) f.stale }

/-- Clear the stale bit of a row. -/
def Fab.clearStale (f : Fab) (c bank row : Nat) : Fab :=
  { f with stale := f.stale.filter fun k => k != staleKey c bank row }

/-- A row's bit is read with its word of the bitmap: a word with wrong parity is taken as all ones and rewritten so, and counted
(R699). -/
def State.readBit (s : State) (c bank row : Nat) : State :=
  let w := staleKey c bank row / 64
  if s.fab.staleBad.contains w then
    (s.modFab fun f =>
      { f with staleBad := f.staleBad.filter (· != w),
               stale := (List.range 64).foldl (fun l i => insertNat (64 * w + i) l) f.stale }).errCount 0x320 10 1
  else s

/-! ### Tracker entries -/

/-- The next admission number is taken by something that holds no tracker entry. -/
def State.takeNumber (s : State) : State := s.modFab fun f => { f with nextId := f.nextId + 1 }


/-- The tracker entry with a number. -/
def Fab.entry (f : Fab) (id : Nat) : Option Entry := f.trk.find? fun e => e.id == id

/-- Change the tracker entry with a number. -/
def Fab.modEntry (f : Fab) (id : Nat) (g : Entry → Entry) : Fab :=
  { f with trk := f.trk.map fun e => if e.id = id then g e else e }

/-- Change the tracker entry with a number. -/
def State.modEntry (s : State) (id : Nat) (g : Entry → Entry) : State := s.modFab fun f => f.modEntry id g

/-- Free a tracker entry. -/
def State.freeEntry (s : State) (id : Nat) : State :=
  s.modFab fun f => { f with trk := f.trk.filter fun e => e.id != id }

end Sys2Proof.Machine
end

