-- ==== Sys2Proof/Machine/Operands.lean ====
section
/-! DEFINITION. The number formats: MX elements, the port formats BF16, FP16 and FP32, accumulation addends,
expand-on-read, compress-on-write and the rounded read-out. A finite value is a sign, a magnitude and a power of
two, so every rounding is from the exact value. -/

namespace Sys2Proof.Machine

/-- A decoded number: NaN, an infinity, or (−1)^neg · m · 2^e. -/
inductive Num where
  | nan
  | inf (neg : Bool)
  | fin (neg : Bool) (m : Nat) (e : Int)
  deriving DecidableEq, Repr

/-- A binary format: exponent bits, fraction bits, bias. -/
structure Fmt where
  /-- exponent bits -/
  eb : Nat
  /-- fraction bits -/
  fb : Nat
  /-- exponent bias -/
  bias : Nat
  deriving DecidableEq, Repr

/-- BF16 (R328). -/
def fmtBf16 : Fmt := ⟨8, 7, 127⟩
/-- FP16 (R328). -/
def fmtFp16 : Fmt := ⟨5, 10, 15⟩
/-- FP32 (R328). -/
def fmtFp32 : Fmt := ⟨8, 23, 127⟩

/-- The output format of OFMT (R169, R328). -/
def ofmtFmt (ofmt : Nat) : Fmt := if ofmt = 0 then fmtBf16 else if ofmt = 1 then fmtFp16 else fmtFp32

/-- Output width ow of OFMT in bytes (R170). -/
def owOf (ofmt : Nat) : Nat := if ofmt = 2 then 4 else 2

/-- Stored bits per element eb of ETYPE (R325). -/
def ebOf (etype : Nat) : Nat :=
  if etype = 2 || etype = 3 then 6 else if etype = 4 then 4 else 8

/-- The format of a floating-point ETYPE (R325). -/
def etypeFmt (etype : Nat) : Fmt :=
  match etype with
  | 0 => ⟨4, 3, 7⟩
  | 1 => ⟨5, 2, 15⟩
  | 2 => ⟨3, 2, 3⟩
  | 3 => ⟨2, 3, 1⟩
  | _ => ⟨2, 1, 1⟩

/-- emax of ETYPE (R325). -/
def emaxOf (etype : Nat) : Int :=
  match etype with
  | 0 => 8
  | 1 => 15
  | 2 => 4
  | 3 => 2
  | 4 => 2
  | _ => 0

/-- Largest finite value of ETYPE as m · 2^e (R325). -/
def maxFin (etype : Nat) : Nat × Int :=
  match etype with
  | 0 => (7, 6)
  | 1 => (7, 13)
  | 2 => (7, 2)
  | 3 => (15, -1)
  | 4 => (3, 1)
  | _ => (127, -6)

/-- m · 2^sh rounded to an integer, ties to even. -/
def rne (m : Nat) (sh : Int) : Nat :=
  if 0 ≤ sh then m * 2 ^ sh.toNat
  else
    let k := (-sh).toNat
    let q := m / 2 ^ k
    let r := m % 2 ^ k
    if 2 * r < 2 ^ k then q else if 2 ^ k < 2 * r then q + 1 else q + q % 2

/-- Exponent of the leading bit of m · 2^e, for nonzero m. -/
def topExp (m : Nat) (e : Int) : Int := (Nat.log2 m : Int) + e

/-- m1 · 2^e1 is above m2 · 2^e2. -/
def magLt (m2 : Nat) (e2 : Int) (m1 : Nat) (e1 : Int) : Bool :=
  let b := min e1 e2
  decide (m2 * 2 ^ (e2 - b).toNat < m1 * 2 ^ (e1 - b).toNat)

/-- Magnitude code of m · 2^e in a format, rounded to nearest even with subnormals; it may pass the format's
largest finite code. -/
def magCode (f : Fmt) (m : Nat) (e : Int) : Nat :=
  if m = 0 then 0
  else
    let emin : Int := 1 - (f.bias : Int)
    let x := max (topExp m e) emin
    (x - emin).toNat * 2 ^ f.fb + rne m (e - (x - f.fb))

/-- Code of infinity, without sign. -/
def infCode (f : Fmt) : Nat := (2 ^ f.eb - 1) * 2 ^ f.fb

/-- QNAN (R328). -/
def qnan (f : Fmt) : Nat := infCode f + 2 ^ (f.fb - 1)

/-- The sign bit. -/
def signBit (f : Fmt) (neg : Bool) : Nat := b2n neg * 2 ^ (f.eb + f.fb)

/-- round_out of R327: code, and whether the rounded magnitude passed the largest finite value. -/
def roundOut (f : Fmt) (sat : Bool) (neg : Bool) (m : Nat) (e : Int) : Nat × Bool :=
  let c := magCode f m e
  if infCode f ≤ c then (signBit f neg + (if sat then infCode f - 1 else infCode f), true)
  else (signBit f neg + c, false)

/-- The number of a code in a floating-point format whose top exponent is a number like any other. -/
def plainNum (f : Fmt) (c : Nat) : Num :=
  let neg := c.testBit (f.eb + f.fb)
  let ex := c / 2 ^ f.fb % 2 ^ f.eb
  let fr := c % 2 ^ f.fb
  if ex = 0 then .fin neg fr (1 - (f.bias : Int) - f.fb)
  else .fin neg (2 ^ f.fb + fr) ((ex : Int) - f.bias - f.fb)

/-- The number of a code in an IEEE format (R328, R384). -/
def ieeeNum (f : Fmt) (c : Nat) : Num :=
  if c / 2 ^ f.fb % 2 ^ f.eb = 2 ^ f.eb - 1 then
    if c % 2 ^ f.fb = 0 then .inf (c.testBit (f.eb + f.fb)) else .nan
  else plainNum f c

/-- The number of an element code (R325, R326). -/
def elemNum (etype c : Nat) : Num :=
  match etype with
  | 0 => if c % 128 = 0x7F then .nan else plainNum ⟨4, 3, 7⟩ c
  | 1 => ieeeNum ⟨5, 2, 15⟩ c
  | 2 => plainNum ⟨3, 2, 3⟩ c
  | 3 => plainNum ⟨2, 3, 1⟩ c
  | 4 => plainNum ⟨2, 1, 1⟩ c
  | _ => if c < 128 then .fin false c (-6) else .fin true (256 - c) (-6)

/-- expand of R327: output code, and whether TLM_XF_OVF counts the element. -/
def expand (etype x c ofmt : Nat) (sat : Bool) : Nat × Bool :=
  let f := ofmtFmt ofmt
  if x = 0xFF then (qnan f, false)
  else
    match elemNum etype c with
    | .nan => (qnan f, false)
    | .inf neg => (signBit f neg + infCode f, false)
    | .fin neg m e => roundOut f sat neg m (e + x - 127)

/-- Element `i` of a block's element bytes, read as one little-endian number (R322). -/
def elemAt (etype bits i : Nat) : Nat := bits / 2 ^ (ebOf etype * i) % 2 ^ ebOf etype

/-- A block of 32 elements expanded: port bytes (R324), elements that overflowed. -/
def expandBlock (etype x bits ofmt : Nat) (sat : Bool) : List Nat × Nat :=
  let es := (List.range 32).map fun i => expand etype x (elemAt etype bits i) ofmt sat
  (es.flatMap fun r => toBytes (owOf ofmt) r.1, (es.filter (·.2)).length)

/-- quantise of R335: element code, and whether it saturated. The value is (−1)^neg · m · 2^e. -/
def quantise (etype : Nat) (neg : Bool) (m : Nat) (e : Int) : Nat × Bool :=
  let mf := maxFin etype
  let big := magLt mf.1 mf.2 m e
  let m' := if big then mf.1 else m
  let e' := if big then mf.2 else e
  if etype = 5 then
    let k := rne m' (e' + 6)
    ((if neg then (256 - k) % 256 else k), big)
  else
    let f := etypeFmt etype
    (signBit f neg + magCode f m' e', big)

/-- compress of R335: scale byte, element bytes as one number, saturated elements, and whether it is a NaN block. -/
def compressBlock (etype : Nat) (xs : List Num) : Nat × Nat × Nat × Bool :=
  if xs.any (fun x => match x with | .fin _ _ _ => false | _ => true) then (0xFF, 0, 0, true)
  else
    let tops := xs.filterMap fun x =>
      match x with
      | .fin _ m e => if m = 0 then none else some (topExp m e)
      | _ => none
    let se : Int :=
      match tops with
      | [] => -127
      | t :: ts => max ((ts.foldl max t) - emaxOf etype) (-127)
    let qs := xs.map fun x =>
      match x with
      | .fin neg m e => quantise etype neg m (e - se)
      | _ => (0, false)
    let bits := (qs.reverse).foldl (fun a q => a * 2 ^ ebOf etype + q.1) 0
    ((se + 127).toNat, bits, (qs.filter (·.2)).length, false)

/-- The 32 numbers of a block of port bytes in OFMT. -/
def portNums (ofmt : Nat) (bs : List Nat) : List Num :=
  (List.range 32).map fun i => ieeeNum (ofmtFmt ofmt) (le bs (owOf ofmt * i) (owOf ofmt))

/-- Width of an addend format in bytes (R96, R384). -/
def afmtWidth (afmt : Nat) : Nat :=
  if afmt = 0 || afmt = 5 then 4 else if afmt = 1 || afmt = 2 then 2 else 1

/-- The number of an addend code of a floating-point AFMT (R384). -/
def addendNum (afmt c : Nat) : Num :=
  match afmt with
  | 0 => ieeeNum fmtFp32 c
  | 1 => ieeeNum fmtBf16 c
  | 2 => ieeeNum fmtFp16 c
  | 3 => elemNum 0 c
  | _ => elemNum 1 c

/-- readout of R408 for a slot of `w` integer bits. -/
def readout (slot w ofmt : Nat) (e : Int) : Nat :=
  let f := ofmtFmt ofmt
  let nan := slot.testBit w
  let pinf := slot.testBit (w + 1)
  let ninf := slot.testBit (w + 2)
  let i := slot % 2 ^ w
  if nan || (pinf && ninf) then qnan f
  else if pinf then infCode f
  else if ninf then signBit f true + infCode f
  else if i = 0 then 0
  else if i < 2 ^ (w - 1) then (roundOut f false false i e).1
  else (roundOut f false true (2 ^ w - i) e).1

end Sys2Proof.Machine
end

