-- ==== Sys2Proof/Machine/Flags.lean ====
section
/-! DEFINITION. The flags the block computes: the flags of an accumulation slot (R377, R382), the window test
(R410), and the interrupt outputs (R766). -/

namespace Sys2Proof.Machine

/-- What one addend does to a slot: the slot's new bits, and what R418 counts. -/
structure Added where
  /-- the slot -/
  slot : Nat
  /-- it was a NaN -/
  nan : Bool
  /-- it was an infinity -/
  inf : Bool
  /-- it set or would have set OOR -/
  oor : Bool
  deriving DecidableEq, Repr

/-- Integer bits W of a slot: 120 for ACC128, 60 for ACC64 (R379). -/
def slotW (acc128 : Bool) : Nat := if acc128 then 120 else 60

/-- Add k to INT modulo 2^W, with the OOR and INEXACT flags of R382. -/
def addInt (w slot : Nat) (neg : Bool) (k : Nat) (inexact : Bool) : Added :=
  let i := slot % 2 ^ w
  let i' := (if neg then i + (2 ^ w - k % 2 ^ w) else i + k) % 2 ^ w
  let oor := decide (2 ^ (w - 1) ≤ k)
  let s1 := slot - i + i'
  let s2 := if oor then s1 ||| 2 ^ (w + 3) else s1
  let s3 := if inexact && w = 120 then s2 ||| 2 ^ (w + 4) else s2
  ⟨s3, false, false, oor⟩

/-- accumulate of R382 with addend code `a`. -/
def accumulate (w slot a afmt : Nat) (e : Int) : Added :=
  if afmt = 5 then
    if a < 2 ^ 31 then addInt w slot false a false else addInt w slot true (2 ^ 32 - a) false
  else
    match addendNum afmt a with
    | .nan => ⟨slot ||| 2 ^ w, true, false, false⟩
    | .inf neg => ⟨slot ||| 2 ^ (if neg then w + 2 else w + 1), false, true, false⟩
    | .fin neg m me =>
      let sh := me - e
      let k := rne m sh
      let inexact := decide (sh < 0) && m % 2 ^ (-sh).toNat != 0
      addInt w slot neg k inexact

/-- A slot lies outside the window WEXP (R410); −128 declares none. -/
def outsideWindow (w slot : Nat) (wexp e : Int) : Bool :=
  if wexp = -128 then false
  else
    let flags := slot.testBit w || slot.testBit (w + 1) || slot.testBit (w + 2)
    let i := slot % 2 ^ w
    let mag := if i < 2 ^ (w - 1) then i else 2 ^ w - i
    flags || (if e ≤ wexp then decide (2 ^ (wexp - e).toNat ≤ mag) else decide (0 < mag))

/-- KX_IRQ_MBX (R766). -/
def irqMbx (s : State) : Bool := bit (s.mbx.irq &&& s.mbx.irqEn) 0

/-- KX_IRQ_EVT (R766). -/
def irqEvt (s : State) : Bool := bit (s.mbx.irq &&& s.mbx.irqEn) 1 || bit (s.mbx.irq &&& s.mbx.irqEn) 4

/-- KX_IRQ_THERM (R766). -/
def irqTherm (s : State) : Bool := bit (s.mbx.irq &&& s.mbx.irqEn) 2

/-- KX_IRQ_FATAL (R766). -/
def irqFatal (s : State) : Bool := bit (s.mbx.irq &&& s.mbx.irqEn) 3

end Sys2Proof.Machine
end

