-- ==== Sys2Proof/Machine/Region.lean ====
section
/-! DEFINITION. Regions and translation: the fields of a region table entry (R169), the place of every access
(R178, R179), the remap table (R187, R190), and the accesses a request makes. -/

namespace Sys2Proof.Machine

/-- EN -/
def rEn (r : BitVec 256) : Bool := bit r 0
/-- TYPE: 0 PLAIN, 1 PACKED, 2 ACCUM, 3 PINNED -/
def rType (r : BitVec 256) : Nat := fld r 1 3
/-- WP -/
def rWp (r : BitVec 256) : Bool := bit r 4
/-- STALE_RAW -/
def rStaleRaw (r : BitVec 256) : Bool := bit r 5
/-- VIEW: true is ROUNDED -/
def rView (r : BitVec 256) : Bool := bit r 6
/-- REPL -/
def rRepl (r : BitVec 256) : Bool := bit r 7
/-- PARTNER -/
def rPartner (r : BitVec 256) : Nat := fld r 8 6
/-- GRAIN -/
def rGrain (r : BitVec 256) : Nat := fld r 14 4
/-- NLOG -/
def rNlog (r : BitVec 256) : Nat := fld r 18 3
/-- STEER -/
def rSteer (r : BitVec 256) : Bool := bit r 21
/-- BASE -/
def rBase (r : BitVec 256) : Nat := fld r 32 16
/-- SIZE -/
def rSize (r : BitVec 256) : Nat := fld r 48 16
/-- ROWBASE -/
def rRowbase (r : BitVec 256) : Nat := fld r 64 14
/-- ETYPE -/
def rEtype (r : BitVec 256) : Nat := fld r 80 3
/-- OFMT -/
def rOfmt (r : BitVec 256) : Nat := fld r 83 2
/-- SLOT: true is ACC128 -/
def rSlot (r : BitVec 256) : Bool := bit r 85
/-- SCALE_E, signed -/
def rScaleE (r : BitVec 256) : Int := sfld r 96 8
/-- WEXP, signed; −128 declares no window -/
def rWexp (r : BitVec 256) : Int := sfld r 104 8
/-- CMASK -/
def rCmask (r : BitVec 256) : Nat := fld r 128 128

/-- Region size S in bytes (R169). -/
def rS (r : BitVec 256) : Nat := (rSize r + 1) * 2 ^ 21
/-- Channel count n (R169). -/
def rN (r : BitVec 256) : Nat := 2 ^ rNlog r
/-- Interleave grain G (R169). -/
def rG (r : BitVec 256) : Nat := 2 ^ (rGrain r + 8)
/-- Logical base in bytes (R169). -/
def rLo (r : BitVec 256) : Nat := rBase r * 2 ^ 21
/-- Slot size sb (R377). -/
def rSb (r : BitVec 256) : Nat := if rSlot r then 16 else 8
/-- Output width ow (R170). -/
def rOw (r : BitVec 256) : Nat := owOf (rOfmt r)
/-- Stored bits per element eb (R325). -/
def rEb (r : BitVec 256) : Nat := ebOf (rEtype r)
/-- The channel set in order of membership (R170). -/
def rMembers (r : BitVec 256) : List Nat := (List.range 128).filter fun c => (rCmask r).testBit c
/-- ACCUM in the ROUNDED view. -/
def rRounded (r : BitVec 256) : Bool := rType r = 2 && rView r

/-- Element share EF of a PACKED region on one channel (R177). -/
def rEF (r : BitVec 256) : Nat := (rS r / rN r) * rEb r / (8 * rOw r)

/-- Footprint per channel F (R177). -/
def rF (r : BitVec 256) : Nat :=
  if rType r = 1 then rEF r + rS r / (32 * rOw r * rN r)
  else if rRounded r then (rS r / rOw r) * rSb r / rN r
  else rS r / rN r

/-- Rows B of the band (R177). -/
def rB (r : BitVec 256) : Nat := (rF r + 65535) / 65536

/-- Entry `i` of a region table. -/
def regionAt (t : List (BitVec 256)) (i : Nat) : BitVec 256 := t.getD i 0

/-- The enabled region that holds a logical address (R167, R179). -/
def findRegion (t : List (BitVec 256)) (a : Nat) : Option Nat :=
  (List.range 64).find? fun i =>
    let r := regionAt t i
    rEn r && decide (rLo r ≤ a) && decide (a < rLo r + rS r)

/-- A place in a logical channel. -/
structure Place where
  /-- logical channel -/
  chan : Nat
  /-- bank -/
  bank : Nat
  /-- row -/
  row : Nat
  /-- column -/
  col : Nat
  deriving DecidableEq, Repr

/-- banded_cell of R179 on channel-set member `i`. -/
def bandedCell (r : BitVec 256) (i oc : Nat) : Place :=
  let row := rRowbase r + oc / 65536
  let k := oc / 2048 % 32
  let group := (k % 8) ^^^ (row % 8)
  ⟨(rMembers r).getD i 0, 4 * group + k / 8, row, oc / 64 % 32⟩

/-- pinned_cell of R179. -/
def pinnedCell (r : BitVec 256) (o : Nat) : Place :=
  let f := rS r / rN r
  let oc := o % f
  let b := f / 65536
  ⟨(rMembers r).getD (o / f) 0, oc / (b * 2048), rRowbase r + oc / 2048 % b, oc / 64 % 32⟩

/-- Channel-set member and channel offset of interleaved byte `s` (R179). -/
def interleave (r : BitVec 256) (s : Nat) : Nat × Nat :=
  let g := rG r
  ((s / g) % rN r, ((s / g) / rN r) * g + s % g)

/-- Place of interleaved byte `s`. -/
def ilvPlace (r : BitVec 256) (s : Nat) : Place :=
  let p := interleave r s
  bandedCell r p.1 p.2

/-- Element accesses of the block that holds expanded offset `o`, with the block's first byte in the first one. -/
def blockPlaces (r : BitVec 256) (o : Nat) : List Place × Nat :=
  let p := interleave r o
  let e := (p.2 / (32 * rOw r)) * 4 * rEb r
  let a := e - e % 64
  (if e % 64 + 4 * rEb r > 64 then [bandedCell r p.1 a, bandedCell r p.1 (a + 64)] else [bandedCell r p.1 a], e % 64)

/-- Scale access of the block that holds expanded offset `o`, and the byte in it (R179). -/
def scalePlace (r : BitVec 256) (o : Nat) : Place × Nat :=
  let p := interleave r o
  let y := rEF r + p.2 / (32 * rOw r)
  (bandedCell r p.1 y, y % 64)

/-- Slot lines that slot bytes `s` to `s + len − 1` of an ACCUM region touch. -/
def slotPlaces (r : BitVec 256) (s len : Nat) : List Place :=
  (List.range ((s + len - 1) / 64 + 1 - s / 64)).map fun i => ilvPlace r ((s / 64 + i) * 64)

/-- Accesses of the 64 B of port data at region offset `o`, with a mark for a scale access (R178 to R181). -/
def unitPlaces (r : BitVec 256) (o : Nat) : List (Place × Bool) :=
  if rType r = 3 then [(pinnedCell r o, false)]
  else if rType r = 1 then ((blockPlaces r o).1.map fun p => (p, false)) ++ [((scalePlace r o).1, true)]
  else if rRounded r then
    (slotPlaces r ((o / rOw r) * rSb r) (64 / rOw r * rSb r)).map fun p => (p, false)
  else [(ilvPlace r o, false)]

/-! ### The remap table -/

/-- Remap entry of a channel. -/
def Stack.remapAt (k : Stack) (c : Nat) : Remap := k.remap.getD c Remap.reset

/-- slice_of(CHAN, row) (R190); none when FENCED. -/
def Stack.sliceOf (k : Stack) (c row : Nat) : Option Nat :=
  let e := k.remapAt c
  match e.st with
  | .bound => some e.ps
  | .migrating => some (if row < e.mptr then e.new else e.ps)
  | .fenced => none

/-- The state with a remap entry replaced. -/
def State.setRemap (s : State) (c : Nat) (e : Remap) : State :=
  s.modStk fun k => { k with remap := setAt k.remap c e }

/-- The logical channel a slice is bound to, or takes part in serving while it migrates. -/
def Stack.chanOf (k : Stack) (p : Nat) : Option Nat :=
  (List.range 128).find? fun c =>
    let e := k.remapAt c
    match e.st with
    | .bound => e.ps == p
    | .migrating => e.ps == p || e.new == p
    | .fenced => false

/-- Key of a place on the slice that holds it now. -/
def Stack.keyAt (k : Stack) (p : Place) : Option Key :=
  (k.sliceOf p.chan p.row).map fun ps => keyOf ps p.bank p.row p.col

/-! ### Accesses of a request -/

/-- An access at a place for port units `u` to `u`. -/
def mkAcc (k : Stack) (p : Place) (u : Nat) (scale : Bool) : Acc :=
  { Acc.reset with view0 := u, view1 := u, scale := scale, chan := p.chan, ps := (k.sliceOf p.chan p.row).getD 0,
                   bank := p.bank, row := p.row, col := p.col }

/-- The access is at the place. -/
def Acc.isAt (a : Acc) (p : Place) : Bool :=
  a.chan == p.chan && a.bank == p.bank && a.row == p.row && a.col == p.col

/-- Key of an access. -/
def Acc.key (a : Acc) : Key := keyOf a.ps a.bank a.row a.col

/-- Add an access for unit `u`, or add the unit to the one that is at the place already. -/
def addAcc (k : Stack) (l : List Acc) (p : Place) (u : Nat) (scale : Bool) : List Acc :=
  if l.any fun a => a.isAt p then
    l.map fun a => if a.isAt p then { a with view1 := max a.view1 u, units := a.units ++ [u] } else a
  else l ++ [{ mkAcc k p u scale with units := [u] }]

/-- The access feeds unit `u`: one of its list, or of its range where it has none (R111, R333). -/
def Acc.feeds (a : Acc) (u : Nat) : Bool :=
  if a.units.isEmpty then decide (a.view0 ≤ u) && decide (u ≤ a.view1) else a.units.contains u

/-- Accesses of `n` units of 64 B from region offset `o` (R179). Only a PACKED region has units that share one. -/
def accsOf (k : Stack) (r : BitVec 256) (o n : Nat) : List Acc :=
  if rType r = 1 then
    (List.range n).foldl (fun l u =>
      (unitPlaces r (o + 64 * u)).foldl (fun l p => addAcc k l p.1 u p.2) l) []
  else (List.range n).flatMap fun u => (unitPlaces r (o + 64 * u)).map fun p => mkAcc k p.1 u p.2

/-- First slot j0 that an ACC at region offset `o` names (R380). -/
def firstSlot (r : BitVec 256) (o : Nat) : Nat := if rView r then o / rOw r else o / rSb r

/-- Slots of the region (R380, R381). -/
def slotCount (r : BitVec 256) : Nat := if rView r then rS r / rOw r else rS r / rSb r

/-- Accesses that hold slots `j0` to `j0 + n − 1`; the views are the first and last addend each one takes. -/
def slotAccs (k : Stack) (r : BitVec 256) (j0 n : Nat) : List Acc :=
  let sb := rSb r
  let per := 64 / sb
  (List.range ((j0 + n - 1) / per + 1 - j0 / per)).map fun i =>
    let line := j0 / per + i
    { mkAcc k (ilvPlace r (line * 64)) 0 false with
      view0 := line * per - j0, view1 := min ((line + 1) * per - 1 - j0) (n - 1) }

/-- Byte `i` of the data of an access. -/
def lineByte (d : Line) (i : Nat) : Nat := byteOf d i

/-- Bytes of the block of 32 elements that holds expanded offset `o`, from the accesses of an entry: element bits
and scale byte (R322, R323). -/
def blockBits (r : BitVec 256) (accs : List Acc) (o : Nat) : Nat × Nat :=
  let find (p : Place) : Line := match accs.find? (fun a => a.isAt p) with | some a => a.data | none => 0
  let bp := blockPlaces r o
  let bytes := bp.1.flatMap fun p => toBytes 64 (find p).toNat
  let sp := scalePlace r o
  (le bytes bp.2 (4 * rEb r), lineByte (find sp.1) sp.2)

/-- Slot bits `j` of an ACCUM region from the accesses of an entry. -/
def slotBits (r : BitVec 256) (accs : List Acc) (j : Nat) : Nat :=
  let s := j * rSb r
  match accs.find? (fun a => a.isAt (ilvPlace r s)) with
  | some a => fld a.data (8 * (s % 64)) (8 * rSb r)
  | none => 0

/-- The 64 B that port unit `u` of a request at region offset `o` delivers, before expansion is counted
(R320, R327, R408). -/
def unitData (r : BitVec 256) (sat : Bool) (accs : List Acc) (o u : Nat) : Line :=
  let x := o + 64 * u
  if rType r = 1 then
    let b := blockBits r accs x
    let out := (expandBlock (rEtype r) b.2 b.1 (rOfmt r) sat).1
    BitVec.ofNat 512 (le out (x % (32 * rOw r)) 64)
  else if rRounded r then
    let j0 := x / rOw r
    BitVec.ofNat 512 (ofBytes ((List.range (64 / rOw r)).flatMap fun i =>
      toBytes (rOw r) (readout (slotBits r accs (j0 + i)) (slotW (rSlot r)) (rOfmt r) (rScaleE r))))
  else
    match accs.find? (fun a => a.view0 == u) with
    | some a => a.data
    | none => 0

/-- Status of port unit `u`: that of the accesses it carries (R111). -/
def unitStatus (accs : List Acc) (u : Nat) : RspStatus :=
  worstOf ((accs.filter fun a => a.feeds u).filterMap (·.st))

/-- Every access has ended. -/
def accsDone (accs : List Acc) : Bool := accs.all fun a => a.st.isSome

/-- Set the status and data of the accesses of a list at a key that have not ended. -/
def endAcc (l : List Acc) (k : Key) (st : RspStatus) (d : Line) : List Acc :=
  l.map fun a => if a.key = k && a.st.isNone then { a with st := some st, data := d } else a

/-- The fabric reads the end of the accesses of a list at a key from LTC `t` on (R81). -/
def seeAcc (l : List Acc) (k : Key) (t : Nat) : List Acc := l.map fun a => if a.key = k then { a with vis := max a.vis t } else a

/-- Every access has ended, and by LTC `t` the fabric has read it (R81). -/
def accsSeen (accs : List Acc) (t : Nat) : Bool := accs.all fun a => a.st.isSome && decide (a.vis ≤ t)

end Sys2Proof.Machine
end

