-- ==== Sys2Proof/Machine/Codec.lean ====
section
/-! DEFINITION. The codes the block computes: RS(72,64) over GF(2^8) with erasures, CRC-32C, the GF(2^64) leaf of
a digest, and SHA-256. All on natural numbers, by structural recursion. -/

namespace Sys2Proof.Machine

/-! ### GF(2^8) (R654) -/

/-- Multiply by α = 0x02, modulo x^8 + x^4 + x^3 + x^2 + 1. -/
def gfX (a : Nat) : Nat := if a < 128 then 2 * a else (2 * a) ^^^ 0x11D

/-- The low `n` bits of `b` times `a`. -/
def gfMulN : Nat → Nat → Nat → Nat
  | 0, _, _ => 0
  | n + 1, a, b => (if b % 2 = 1 then a else 0) ^^^ gfMulN n (gfX a) (b / 2)

/-- Product in GF(2^8). -/
def gfMul (a b : Nat) : Nat := gfMulN 8 a b

/-- α to the power `n`. -/
def gfAlpha : Nat → Nat
  | 0 => 1
  | n + 1 => gfX (gfAlpha n)

/-- `a` to the power `n`. -/
def gfPow (a : Nat) : Nat → Nat
  | 0 => 1
  | n + 1 => gfMul a (gfPow a n)

/-- Inverse of a nonzero element: its power 254. -/
def gfInv (a : Nat) : Nat := gfPow a 254

/-- Quotient in GF(2^8). -/
def gfDiv (a b : Nat) : Nat := gfMul a (gfInv b)

/-! ### RS(72,64) (R654) -/

/-- Coefficients of a monic product, highest power below the leading one first, times (x − `r`). -/
def polyMulRoot (g : List Nat) (r : Nat) : List Nat :=
  List.zipWith (fun a b => a ^^^ gfMul r b) (g ++ [0]) (1 :: g)

/-- The generator without its leading coefficient, coefficient of x^7 first. -/
def rsGen : List Nat := (List.range 8).foldl (fun g j => polyMulRoot g (gfAlpha j)) []

/-- One step of the division of m(x) x^8 by g(x): the remainder register, coefficient of x^7 first. -/
def rsStep (g r : List Nat) (d : Nat) : List Nat :=
  match r with
  | [] => []
  | h :: t =>
    let f := h ^^^ d
    List.zipWith (fun a b => a ^^^ gfMul f b) (t ++ [0]) g

/-- Check symbols 64 to 71 of 64 data symbols. -/
def rsCheck (d : List Nat) : List Nat :=
  let g := rsGen
  d.foldl (rsStep g) [0, 0, 0, 0, 0, 0, 0, 0]

/-- The 72 symbols of a code word. -/
def symsOf (c : Code) : List Nat := toBytes 72 c.toNat

/-- The data of a code word: symbols 0 to 63. -/
def dataOf (c : Code) : Line := c.setWidth 512

/-- Encode 64 data bytes with fresh check symbols (R655). The zero access needs none. -/
def rsEncode (d : Line) : Code :=
  if d = 0 then 0
  else
    let b := toBytes 64 d.toNat
    BitVec.ofNat 576 (ofBytes (b ++ rsCheck b))

/-- Syndrome j of the symbols: the code polynomial at α^j. -/
def rsSyn (c : List Nat) (j : Nat) : Nat :=
  let x := gfAlpha j
  c.foldl (fun a s => gfMul a x ^^^ s) 0

/-- All eight syndromes. -/
def rsSyns (c : List Nat) : List Nat := (List.range 8).map (rsSyn c)

/-- Locator of symbol i: α^(71 − i). -/
def rsLoc (i : Nat) : Nat := gfAlpha (71 - i)

/-- Take a known locator out of a syndrome sequence: T_j = S_(j+1) + X S_j. -/
def rsFilter (x : Nat) (t : List Nat) : List Nat :=
  List.zipWith (fun a b => b ^^^ gfMul x a) t t.tail

/-- Value at symbol `i` when the wrong symbols are exactly those of `l` (which holds `i`). -/
def rsValue (syn : List Nat) (l : List Nat) (i : Nat) : Nat :=
  let o := l.filter (· != i)
  let t := o.foldl (fun t k => rsFilter (rsLoc k) t) syn
  let p := o.foldl (fun a k => gfMul a (rsLoc i ^^^ rsLoc k)) 1
  gfDiv (t.headD 0) p

/-- The sequence is geometric with ratio `x`. -/
def isGeo (x : Nat) : List Nat → Bool
  | a :: b :: t => (b == gfMul x a) && isGeo x (b :: t)
  | _ => true

/-- The one unknown error that a filtered syndrome sequence shows, if it shows exactly one. -/
def rsOne (t : List Nat) (era : List Nat) : Option Nat :=
  match t with
  | a :: b :: _ =>
    if a = 0 then none
    else
      let x := gfDiv b a
      if isGeo x t then (List.range 72).find? (fun i => rsLoc i == x && !era.contains i) else none
  | _ => none

/-- Two unknown errors: the roots of the error locator that the first four syndromes fix. -/
def rsTwo (s : List Nat) : Option (Nat × Nat) :=
  match s with
  | s0 :: s1 :: s2 :: s3 :: _ =>
    let det := gfMul s1 s1 ^^^ gfMul s0 s2
    if det = 0 then none
    else
      let a := gfDiv (gfMul s0 s3 ^^^ gfMul s1 s2) det
      let b := gfDiv (gfMul s1 s3 ^^^ gfMul s2 s2) det
      match (List.range 72).filter (fun i =>
        let x := rsLoc i
        gfMul x x ^^^ gfMul a x ^^^ b == 0) with
      | [i, j] => some (i, j)
      | _ => none
  | _ => none

/-- What a decode finds: the corrected symbols, the unknown errors it corrected, and every symbol it changed;
`ue` for an uncorrectable pattern, with the symbols as read (R658, R661, R664). -/
structure Decoded where
  /-- symbols after correction, or as read -/
  code : Code
  /-- uncorrectable -/
  ue : Bool
  /-- symbols corrected outside the erasure set -/
  unknown : List Nat
  /-- symbols changed -/
  changed : List Nat
  deriving DecidableEq, Repr

/-- Symbols to correct, when the erasures are `era` and the unknown errors `unk`; none when they do not explain
every syndrome. -/
def rsFix (c : Code) (syn era unk : List Nat) : Option Decoded :=
  let l := era ++ unk
  let vals := l.map fun i => (i, rsValue syn l i)
  let c' := vals.foldl (fun a iv => a ^^^ (BitVec.ofNat 576 (iv.2 * 2 ^ (8 * iv.1)))) c
  if (rsSyns (symsOf c')).all (· == 0) then
    some ⟨c', false, unk, (vals.filter fun iv => iv.2 != 0).map (·.1)⟩
  else none

/-- The decoder of R658: with no erasure up to 2 unknown errors, with 1 to 4 erasures up to 1. -/
def rsDecode (c : Code) (era : List Nat) : Decoded :=
  if c = 0 then ⟨c, false, [], []⟩
  else
    let syn := rsSyns (symsOf c)
    if syn.all (· == 0) then ⟨c, false, [], []⟩
    else
      let bad : Decoded := ⟨c, true, [], []⟩
      let t := era.foldl (fun t k => rsFilter (rsLoc k) t) syn
      if t.all (· == 0) then (rsFix c syn era []).getD bad
      else
        match rsOne t era with
        | some i => (rsFix c syn era [i]).getD bad
        | none =>
          if era.isEmpty then
            match rsTwo syn with
            | some (i, j) => (rsFix c syn [] [i, j]).getD bad
            | none => bad
          else bad

/-! ### CRC -/

/-- `n` bit steps of a reflected CRC with polynomial `p`. -/
def crcBits (p : Nat) : Nat → Nat → Nat
  | 0, c => c
  | n + 1, c => crcBits p n (if c % 2 = 1 then (c / 2) ^^^ p else c / 2)

/-- CRC-32C register after the bytes (R785: RFC 3720). -/
def crc32cReg (c : Nat) (l : List Nat) : Nat := l.foldl (fun c b => crcBits 0x82F63B78 8 (c ^^^ b)) c

/-- CRC-32C with initial value and final XOR 0xFFFF_FFFF (R785). -/
def crc32c (l : List Nat) : Nat := crc32cReg 0xFFFFFFFF l ^^^ 0xFFFFFFFF

/-! ### GF(2^64) (R724) -/

/-- Multiply by x modulo x^64 + x^4 + x^3 + x + 1. -/
def gf64X (a : Nat) : Nat := if a < 2 ^ 63 then 2 * a else ((2 * a) % 2 ^ 64) ^^^ 0x1B

/-- The low `n` bits of `b` times `a`. -/
def gf64MulN : Nat → Nat → Nat → Nat
  | 0, _, _ => 0
  | n + 1, a, b => (if b % 2 = 1 then a else 0) ^^^ gf64MulN n (gf64X a) (b / 2)

/-- Product in GF(2^64). -/
def gf64Mul (a b : Nat) : Nat := gf64MulN 64 a b

/-- `a` to the power `n` in GF(2^64). -/
def gf64Pow (a : Nat) : Nat → Nat
  | 0 => 1
  | n + 1 => gf64Mul a (gf64Pow a n)

/-- Leaf of consecutive words from word index `j` of a block: XOR of w_j K^(512 − j) (R724). -/
def leafOf (key : Nat) : Nat → List Nat → Nat
  | _, [] => 0
  | j, w :: t => (if w = 0 then 0 else gf64Mul w (gf64Pow key (512 - j))) ^^^ leafOf key (j + 1) t

/-! ### SHA-256 (R729: FIPS 180-4) -/

/-- Sum modulo 2^32. -/
def add32 (a b : Nat) : Nat := (a + b) % 2 ^ 32

/-- Rotate a 32-bit word right. -/
def rotr (x n : Nat) : Nat := (x >>> n) ||| ((x <<< (32 - n)) % 2 ^ 32)

/-- The 64 constants. -/
def shaK : List Nat :=
  [0x428a2f98, 0x71374491, 0xb5c0fbcf, 0xe9b5dba5, 0x3956c25b, 0x59f111f1, 0x923f82a4, 0xab1c5ed5] ++
  [0xd807aa98, 0x12835b01, 0x243185be, 0x550c7dc3, 0x72be5d74, 0x80deb1fe, 0x9bdc06a7, 0xc19bf174] ++
  [0xe49b69c1, 0xefbe4786, 0x0fc19dc6, 0x240ca1cc, 0x2de92c6f, 0x4a7484aa, 0x5cb0a9dc, 0x76f988da] ++
  [0x983e5152, 0xa831c66d, 0xb00327c8, 0xbf597fc7, 0xc6e00bf3, 0xd5a79147, 0x06ca6351, 0x14292967] ++
  [0x27b70a85, 0x2e1b2138, 0x4d2c6dfc, 0x53380d13, 0x650a7354, 0x766a0abb, 0x81c2c92e, 0x92722c85] ++
  [0xa2bfe8a1, 0xa81a664b, 0xc24b8b70, 0xc76c51a3, 0xd192e819, 0xd6990624, 0xf40e3585, 0x106aa070] ++
  [0x19a4c116, 0x1e376c08, 0x2748774c, 0x34b0bcb5, 0x391c0cb3, 0x4ed8aa4a, 0x5b9cca4f, 0x682e6ff3] ++
  [0x748f82ee, 0x78a5636f, 0x84c87814, 0x8cc70208, 0x90befffa, 0xa4506ceb, 0xbef9a3f7, 0xc67178f2]

/-- The initial hash value. -/
def shaH0 : List Nat := [0x6a09e667, 0xbb67ae85, 0x3c6ef372, 0xa54ff53a, 0x510e527f, 0x9b05688c, 0x1f83d9ab, 0x5be0cd19]

/-- Extend a message schedule held newest first, `n` more words. -/
def shaSched : Nat → List Nat → List Nat
  | 0, w => w
  | n + 1, w =>
    let a := w.getD 1 0
    let b := w.getD 14 0
    let s1 := rotr a 17 ^^^ rotr a 19 ^^^ (a >>> 10)
    let s0 := rotr b 7 ^^^ rotr b 18 ^^^ (b >>> 3)
    shaSched n (((s1 + w.getD 6 0 + s0 + w.getD 15 0) % 2 ^ 32) :: w)

/-- One round on the eight working variables. -/
def shaRound (h : List Nat) (kw : Nat) : List Nat :=
  match h with
  | [a, b, c, d, e, f, g, hh] =>
    let s1 := rotr e 6 ^^^ rotr e 11 ^^^ rotr e 25
    let ch := (e &&& f) ^^^ ((0xFFFFFFFF ^^^ e) &&& g)
    let t1 := (hh + s1 + ch + kw) % 2 ^ 32
    let s0 := rotr a 2 ^^^ rotr a 13 ^^^ rotr a 22
    let mj := (a &&& b) ^^^ (a &&& c) ^^^ (b &&& c)
    [add32 t1 (s0 + mj), a, b, c, add32 d t1, e, f, g]
  | l => l

/-- A big-endian 32-bit word of four bytes. -/
def be32 (l : List Nat) : Nat := l.foldl (fun a b => a * 256 + b) 0

/-- One 64-byte block. -/
def shaBlock (h : List Nat) (blk : List Nat) : List Nat :=
  let w0 := (List.range 16).map fun i => be32 ((blk.drop (4 * i)).take 4)
  let w := (shaSched 48 w0.reverse).reverse
  let r := (List.zipWith (fun k x => k + x) shaK w).foldl shaRound h
  List.zipWith add32 h r

/-- The blocks of a padded message, `n` of them. -/
def shaBlocks : Nat → List Nat → List Nat → List Nat
  | 0, h, _ => h
  | n + 1, h, m => shaBlocks n (shaBlock h (m.take 64)) (m.drop 64)

/-- The `n` bytes of a number, high byte first. -/
def beBytes (n v : Nat) : List Nat := (toBytes n v).reverse

/-- SHA-256 of a byte string, as 32 bytes. -/
def sha256 (m : List Nat) : List Nat :=
  let n := m.length
  let pad := (119 - n % 64) % 64
  let m' := m ++ [0x80] ++ List.replicate pad 0 ++ beBytes 8 (8 * n)
  (shaBlocks (m'.length / 64) shaH0 m').flatMap (beBytes 4)

/-- SHA-256 as a 256-bit value with byte 0 in the low bits. -/
def sha256Bits (m : List Nat) : BitVec 256 := BitVec.ofNat 256 (ofBytes (sha256 m))

end Sys2Proof.Machine
end

