-- ==== Sys2Proof/Machine/RingNet.lean ====
section
/-! DEFINITION. Ring frames and the member table: what the ring stop sends and what every instance derives from the
table (R847 to R858). -/

namespace Sys2Proof.Machine

/-- One bit step of CRC-16 with polynomial 0x1021, most significant bit first. -/
def crc16Bits : Nat → Nat → Nat
  | 0, c => c
  | n + 1, c => crc16Bits n (if c < 2 ^ 15 then 2 * c else (2 * c % 2 ^ 16) ^^^ 0x1021)

/-- CRC word over the header and payload words (R853). -/
def crc16 (ws : List (BitVec 16)) : BitVec 16 :=
  BitVec.ofNat 16 (ws.foldl (fun c w => crc16Bits 16 (c ^^^ w.toNat)) 0xFFFF)

/-- A frame: header, payload, CRC (R852). -/
def ringFrame (typ src dst : Nat) (pl : List (BitVec 16)) : List (BitVec 16) :=
  let b := BitVec.ofNat 16 (typ * 4096 + src * 512 + dst * 64 + pl.length) :: pl
  b ++ [crc16 b]

/-- The 16-bit words of a number, low word first (R5). -/
def words16 (n v : Nat) : List (BitVec 16) := (List.range n).map fun i => BitVec.ofNat 16 (v / 2 ^ (16 * i))

/-- Frames driven by an event; a stop that is not present drives none of its own (R847, R848). -/
def State.ringSend (s : State) (fs : List (List (BitVec 16))) : State :=
  if s.ring.present && !fs.isEmpty then s.modRing fun r => { r with out := fs } else s

/-- The bypass has a cause (R847): not enabled, rails bad, power-on reset, or a warm reset in progress. -/
def State.bypassed (s : State) : Bool :=
  !s.ring.en || !s.ring.pwrok || !s.sys.porN || s.sys.rstEnd || s.ring.aonRst

/-- The member table as pairs of ring ID and entry, rising. -/
def Ring.memberList (r : Ring) : List (Nat × Member) :=
  r.members.filterMap fun kv => kv.2.map fun m => (kv.1, m)

/-- The master this instance derives (R857). -/
def Ring.master (r : Ring) : Nat :=
  match r.memberList with
  | [] => r.id
  | (i, m) :: _ =>
    let want := m.cfg / 4 % 8
    if m.cfg / 32 % 2 = 1 && (r.memberList.any fun km => km.1 == want) then want else i

/-- This instance is the master. -/
def State.isMaster (s : State) : Bool := s.ring.master == s.ring.id

/-- CFG_PWR0 GANG (R864). -/
def State.gangOn (s : State) : Bool := bit s.ring.pwr0 1

/-- Members of the gang other than this instance (R858). -/
def State.gangOthers (s : State) : List Nat :=
  (s.ring.memberList.filter fun km => km.1 != s.ring.id && km.2.cfg / 2 % 2 == 1).map (·.1)

/-- AGG_MASK as this instance announces it (R855). -/
def State.aggMask (s : State) : Nat := if bit s.ring.pwr3 0 then fld s.ring.pwr3 1 16 else 0

/-- AGG_MASK of the master: its own, or as it announced it (R876). -/
def State.masterAgg (s : State) : Nat :=
  if s.isMaster then s.aggMask
  else match Tab.get none s.ring.members s.ring.master with
    | some m => m.agg
    | none => 0

/-- The ANNOUNCE frame of this instance (R855). -/
def State.announceFrame (s : State) : List (BitVec 16) :=
  ringFrame 1 s.ring.id s.ring.id
    [BitVec.ofNat 16 (fld s.ring.pwr0 0 6), BitVec.ofNat 16 s.aggMask, BitVec.ofNat 16 (min s.stk.psum 0xFFFF), 0]

/-- The own entry of the member table, as an ANNOUNCE sent now makes it. -/
def State.ownMember (s : State) : Member :=
  ⟨fld s.ring.pwr0 0 6, s.aggMask, min s.stk.psum 0xFFFF, s.sys.ltc⟩

/-- Members that a BUDGET frame goes to: announced MODE 0 (R873). -/
def Ring.budgetMembers (r : Ring) : List (Nat × Member) := r.memberList.filter fun km => km.2.cfg % 2 == 0

/-- A 16-bit budget; what the manual gives no value for, a share that does not fit or a share of nothing, is a free
value (DESIGN CHOICE, log 22). -/
def State.budgetWord (s : State) (num den : Nat) : Nat :=
  if den = 0 || 0xFFFF ≤ num / den then fld (Config.freeWord s.sys.free den) 0 16 else num / den

/-- A budget as held: 0xFFFF is none (R855, R875). -/
def budgetOf (w : Nat) : Option Nat := if w = 0xFFFF then none else some w

/-- The master's shares: BUDGET frames for the other members, and its own share (R873); 0xFFFF once DIE_BUDGET has become
0 (R875). -/
def State.sendBudgets (s : State) : State :=
  let die := fld s.ring.pwr2 0 16
  if s.isMaster then
    let ms := s.ring.budgetMembers
    let sum := (ms.map fun km => km.2.psum).sum
    let share (p : Nat) : Nat := if die = 0 then 0xFFFF else s.budgetWord (10 * die * p) sum
    let s1 := s.nextFree.modStk fun k =>
      { k with share := match ms.find? (fun km => km.1 == s.ring.id) with
                        | some km => budgetOf (share km.2.psum)
                        | none => k.share }
    let s2 := s1.modRing fun r => { r with lastBud := s.sys.ltc }
    s2.ringSend ((ms.filter fun km => km.1 != s.ring.id).map fun km =>
      ringFrame 7 s.ring.id km.1 [BitVec.ofNat 16 (share km.2.psum), 0])
  else s

/-- BUDGET frames of a master that runs with a DIE_BUDGET (R873). -/
def State.renewBudgets (s : State) : State := if fld s.ring.pwr2 0 16 = 0 then s else s.sendBudgets

/-- What a member announces, without the time of its last ANNOUNCE. -/
def Member.told (m : Member) : Nat × Nat × Nat := (m.cfg, m.agg, m.psum)

/-- An entry of the member table is written or removed (R856). A change of the table renews the budgets (R873) and may change
the master (R857); aggregation then starts anew at G_0 (R880). -/
def State.setMember (s : State) (i : Nat) (m : Option Member) : State :=
  let old := Tab.get none s.ring.members i
  let s1 := s.modRing fun r => { r with members := Tab.set none r.members i m }
  let s2 := if s1.ring.master = s.ring.master then s1 else s1.modRing fun r => { r with aggs := [], gdone := [], gprev := [] }
  if old.map Member.told = m.map Member.told then s2 else s2.renewBudgets

/-- The ring stop works: present, with its reset and those of the instance released (R846, R847). -/
def State.ringLive (s : State) : Bool := s.ring.present && !s.bypassed

/-- Frames on KX_RING_O_DAT, from the stop itself or passed on. -/
def State.ringDrive (s : State) (fs : List (List (BitVec 16))) : State := s.modRing fun r => { r with out := fs }

/-- A broadcast frame arrives (R848, R852, R854): a bypassed stop copies it; a present one takes it and passes it on, ahead of
what it sends itself, unless the frame is its own. -/
def State.onBroadcast (s : State) (src : Nat) (f : List (BitVec 16)) (go : State → State) : State :=
  if s.ring.aonRst then s
  else if !s.ringLive then s.ringDrive [f]
  else if src = s.ring.id then s
  else
    let t := go (s.ringDrive [])
    t.ringDrive (f :: t.ring.out)

/-- A unicast frame for this stop arrives (R848, R854): a bypassed stop copies it; a present one removes it. -/
def State.onUnicast (s : State) (f : List (BitVec 16)) (go : State → State) : State :=
  if s.ring.aonRst then s else if !s.ringLive then s.ringDrive [f] else go s

end Sys2Proof.Machine
end

