-- ==== Sys2Proof/Machine/Digest.lean ====
section
/-! DEFINITION. Digest streams, digest fences, the program digest, aggregation and the lock-step queues
(R721 to R741, R876 to R880). -/

namespace Sys2Proof.Machine

/-- An event that ends cycle-repeatability, with its cause of R721. -/
def State.detBreak (s : State) (cause : Nat) : State :=
  match s.det.mode with
  | .timing =>
    if s.det.broken.toNat.testBit (cause - 1) then s
    else
      (s.modDet fun d => { d with broken := d.broken ||| BitVec.ofNat 7 (2 ^ (cause - 1)) }).event
        .detBreak 0 (cause * 16)
  | _ => s

/-- Digest stream `i`. -/
def State.stream (s : State) (i : Nat) : Stream := Tab.get Stream.reset s.det.streams i

/-- The state with digest stream `i` changed. -/
def State.modStream (s : State) (i : Nat) (f : Stream → Stream) : State :=
  s.modDet fun d => { d with streams := Tab.upd Stream.reset d.streams i f }

/-- Stream that subscriber `k` feeds, when its binding is enabled (R722). -/
def State.streamOf (s : State) (k : Nat) : Option Nat :=
  let w := Tab.get 0 s.cfg.digBind k
  if k < 37 && bit w 4 then some (fld w 0 4) else none

/-- A piece joins a stream: block, leaf and bytes, with `d` of R723 (R724). -/
def State.contribute (s : State) (i d : Nat) (p : Nat × BitVec 64 × Nat) : State :=
  let st := s.stream i
  let u := p.1 * 4 + d
  let t := p.2.1 ^^^ BitVec.ofNat 64 (gf64Mul u st.key.toNat)
  (s.modStream i fun x => { x with s := x.s + t, bytes := x.bytes + BitVec.ofNat 64 p.2.2, pieces := x.pieces + 1 }).stat
    (0x310 + i) 0 p.2.2

/-- Feed bytes at an address to a piece in the making; a new 4 KiB block closes the piece before (R723). -/
def DgAcc.feed (key : Nat) (a : DgAcc) (addr : Nat) (ws : List Nat) (n : Nat) :
    DgAcc × Option (Nat × BitVec 64 × Nat) :=
  let b := addr / 4096
  let leaf := BitVec.ofNat 64 (leafOf key (addr % 4096 / 8) ws)
  match a.block with
  | none => (⟨some b, leaf, n⟩, none)
  | some b' =>
    if b' = b then (⟨some b, a.leaf ^^^ leaf, a.bytes + n⟩, none)
    else (⟨some b, leaf, n⟩, some (b', a.leaf, a.bytes))

/-- The 8-byte words of a number of `n` words. -/
def words64 (n v : Nat) : List Nat := (List.range n).map fun i => v / 2 ^ (64 * i) % 2 ^ 64

/-- Feed `n` bytes of subscriber `k`'s request to its stream (R143, R722). -/
def State.feed (s : State) (k : Nat) (digest : Bool) (d : Nat) (a : DgAcc) (addr v n : Nat) : State × DgAcc :=
  match (if digest then s.streamOf k else none) with
  | none => (s, a)
  | some i =>
    let r := a.feed (s.stream i).key.toNat addr (words64 (n / 8) v) n
    ((match r.2 with | none => s | some p => s.contribute i d p), r.1)

/-- The last piece of a request joins the stream. -/
def State.feedEnd (s : State) (k : Nat) (digest : Bool) (d : Nat) (a : DgAcc) : State :=
  match (if digest then s.streamOf k else none), a.block with
  | some i, some b => s.contribute i d (b, a.leaf, a.bytes)
  | _, _ => s

/-- Program store slot `i`. -/
def Fab.prog (f : Fab) (i : Nat) : List (BitVec 64) := Tab.get [] f.progs i

/-- Program digest PD (R732). -/
def State.programDigest (s : State) : BitVec 256 :=
  sha256Bits (toBytes 4 s.cfg.crc.toNat ++ (List.range 64).flatMap fun i =>
    toBytes 2 (s.fab.prog i).length ++ (s.fab.prog i).flatMap fun w => toBytes 8 w.toNat)

/-- Recompute PD (R732). -/
def State.newPd (s : State) : State := s.modDet fun d => { d with pd := s.programDigest }

/-- D_n of a stream's epoch (R729). -/
def fenceDigest (st : Stream) (pd : BitVec 256) (i : Nat) (n : BitVec 32) : BitVec 256 :=
  sha256Bits (toBytes 32 st.d.toNat ++ toBytes 32 pd.toNat ++ toBytes 32 (if st.rdv then st.rd.toNat else 0) ++
    toBytes 8 st.s.toNat ++ toBytes 8 st.bytes.toNat ++ toBytes 8 st.pieces.toNat ++ [i % 256, 0, 0, 0] ++
    toBytes 4 n.toNat)

/-! ### Lock-step queues (R737 to R741) -/

/-- CFG_LS LS_EN (R746). -/
def State.lsEn (s : State) : Bool := bit s.cfg.ls 0

/-- Queue a frame for KX_DXP (R737). -/
def State.lsQueue (s : State) (typ stream : Nat) (n : BitVec 32) (d : BitVec 256) : State :=
  if 64 ≤ s.det.txq.length then (s.stat 0x320 8 1).event .lsOverflow 0 0
  else s.modDet fun x =>
    { x with txq := x.txq ++ [⟨typ, x.txSeq, stream, n, d⟩], txSeq := x.txSeq + 1 }

/-- A pair of records of one fence is compared; the first mismatch is latched and recorded, and every mismatch holds admission
while HOLD is 1 (R739, R740, R741). -/
def State.lsCompare (s : State) (stream : Nat) (n : BitVec 32) (a b : BitVec 256) : State :=
  if a = b then s.stat 0x320 6 1
  else
    let s1 := s.stat 0x320 7 1
    let held := bit s.cfg.ls 1 && !s.det.lsHeld
    let s2 := s1.modDet fun d => { d with lsHeld := d.lsHeld || held }
    let s3 := if s2.det.mismatch then s2
      else (s2.modDet fun d => { d with mismatch := true, mStream := stream, mFence := n }).event .lsMismatch 0
        (stream + n.toNat % 2 ^ 24 * 256)
    if held then s3.detBreak 6 else s3

/-- Keep at most 64 unmatched records of one side; the oldest is dropped uncompared (R739). -/
def lsKeep (l : List LsRec) (r : LsRec) : List LsRec × Bool :=
  if 64 ≤ l.length then (l.tail ++ [r], true) else (l ++ [r], false)

/-- A record of one side meets the other side's unmatched records (R739). -/
def State.lsMatch (s : State) (own : Bool) (r : LsRec) : State :=
  let other := if own then s.det.peer else s.det.own
  match takeFirst (fun x : LsRec => x.stream == r.stream && x.n == r.n) other with
  | some (x, rest) =>
    let s1 := s.modDet fun d => if own then { d with peer := rest } else { d with own := rest }
    s1.lsCompare r.stream r.n r.d x.d
  | none =>
    let k := lsKeep (if own then s.det.own else s.det.peer) r
    let s1 := s.modDet fun d => if own then { d with own := k.1 } else { d with peer := k.1 }
    if k.2 then (s1.stat 0x320 8 1).event .lsOverflow 0 0 else s1

/-! ### Aggregation (R876 to R880) -/

/-- CFG_DIG_REC REC_EN (R746). -/
def State.recEn (s : State) : Bool := bit s.cfg.digRec 6

/-- The group of a stream: members that announce it, and this master (R876). -/
def State.aggGroup (s : State) (i : Nat) : List Nat :=
  let ids := (s.ring.memberList.filter fun km => km.2.agg.testBit i).map (·.1)
  insertNat s.ring.id (ids.filter fun x => x != s.ring.id)

/-- G_n over the contributions held (R878). -/
def aggDigest (prev : BitVec 256) (i : Nat) (n : BitVec 32) (parts : List (Nat × BitVec 256)) : BitVec 256 :=
  sha256Bits (toBytes 32 prev.toNat ++ [i % 256] ++ toBytes 4 n.toNat ++ [parts.length % 256] ++
    parts.flatMap fun p => p.1 % 256 :: toBytes 32 p.2.toNat)

/-- Put a contribution in ascending ring ID. -/
def insertPart (id : Nat) (d : BitVec 256) : List (Nat × BitVec 256) → List (Nat × BitVec 256)
  | [] => [(id, d)]
  | (k, x) :: t => if id < k then (id, d) :: (k, x) :: t else if id = k then (k, d) :: t else (k, x) :: insertPart id d t

/-- Close an aggregate: G_n, its chain, and its record (R878, R880). -/
def State.aggClose (s : State) (a : Aggr) : State :=
  let g := aggDigest (Tab.get 0 s.ring.gprev a.stream) a.stream a.n a.parts
  let s1 := s.modRing fun r =>
    { r with aggs := r.aggs.filter (fun x => !(x.stream == a.stream && x.n == a.n)),
             gdone := Tab.set none r.gdone a.stream (some a.n), gprev := Tab.set 0 r.gprev a.stream g }
  if s.recEn then
    s1.modDet fun d => { d with recs := d.recs ++ [⟨16 + a.stream, a.n, s.sys.ltc, a.bytes, a.pieces, g, none, false, none⟩] }
  else s1

/-- `a` is later than `b` in 32-bit serial-number arithmetic (R774). -/
def serialLater (a b : BitVec 32) : Bool := let x := (a - b).toNat; decide (1 ≤ x) && decide (x < 2 ^ 31)

/-- A contribution reaches the master; the aggregate closes when the whole group has contributed (R878); one that
comes after its aggregate has closed is discarded (R879). `own` holds BYTES and PIECES of the master's epoch. -/
def State.aggAdd (s : State) (i : Nat) (n : BitVec 32) (id : Nat) (d : BitVec 256)
    (own : Option (BitVec 64 × BitVec 64)) : State :=
  let late := match Tab.get none s.ring.gdone i with
    | some m => !serialLater n m
    | none => false
  if late then s
  else
    let old := (s.ring.aggs.find? fun a => a.stream == i && a.n == n).getD
      ⟨i, n, s.sys.ltc, [], BitVec.ofNat 64 (Config.freeWord s.sys.free 0).toNat,
        BitVec.ofNat 64 (Config.freeWord s.sys.free 1).toNat⟩
    let a : Aggr := { old with parts := insertPart id d old.parts,
                               bytes := (own.map (·.1)).getD old.bytes, pieces := (own.map (·.2)).getD old.pieces }
    let s1 := s.modRing fun r =>
      { r with aggs := (r.aggs.filter fun x => !(x.stream == i && x.n == n)) ++ [a] }
    let s2 := s1.nextFree
    if (s.aggGroup i).all fun k => a.parts.any fun p => p.1 == k then s2.aggClose a else s2

/-- What a digest fence of an aggregated stream does on the ring (R877). -/
def State.aggFence (s : State) (i : Nat) (n : BitVec 32) (d : BitVec 256) (bytes pieces : BitVec 64) : State :=
  if s.masterAgg.testBit i then
    if s.isMaster then s.aggAdd i n s.ring.id d (some (bytes, pieces))
    else if s.aggMask.testBit i then
      s.ringSend [ringFrame 8 s.ring.id s.ring.master
        (BitVec.ofNat 16 i :: words16 2 n.toNat ++ words16 16 d.toNat)]
    else s
  else s

/-! ### Digest fences (R726 to R731) -/

/-- Close the epoch of stream `i`: next fence number, D_n, the counts cleared, the record begun, the lock-step
record and the aggregate contribution (R728, R730, R737, R877). `fence` is the FENCE entry that waits for the
record, `cmd` a waiting DIGEST_FENCE command. -/
def State.digestFence (s : State) (i : Nat) (fence : Option Nat) (cmd : Bool) : State :=
  let st := s.stream i
  let n := st.n + 1
  let d := fenceDigest st s.det.pd i n
  let s1 := s.modStream i fun x => { x with n := n, d := d, s := 0, bytes := 0, pieces := 0 }
  let s2 := s1.stat (0x310 + i) 1 1
  let s3 := if s.recEn then
      s2.modDet fun x => { x with recs := x.recs ++ [⟨i, n, s.sys.ltc, st.bytes, st.pieces, d, fence, cmd, none⟩] }
    else s2
  let s4 := if s.lsEn then (s3.lsQueue 0 i n d).lsMatch true ⟨i, n, d⟩ else s3
  s4.aggFence i n d st.bytes st.pieces

/-- A stream starts anew with a key: D_0 is zero and the first fence is number 1 (R728). -/
def Stream.restart (key : BitVec 32) : Stream := { Stream.reset with key := key }

end Sys2Proof.Machine
end

