-- ==== Sys2Proof/Machine/PortOps.lean ====
section
/-! DEFINITION. What the ports share: when they take words, credits, the beats a request owes, and the tracker's
reservation (R84 to R101, R133 to R136, R159 to R164). -/

namespace Sys2Proof.Machine

/-- The fabric island runs and its ports take words: no reset, no alignment hold, no Frost (R22, R885, R900, R713). -/
def State.portsLive (s : State) : Bool :=
  s.sys.porN && !s.sys.rstEnd && decide (s.det.align < 2) && (s.sys.phase != .frost)

/-- Subscriber `k` is masked by its requester-down line (R160, R164). -/
def State.isMasked (s : State) (k : Nat) : Bool := s.fab.masked.contains k

/-- Port `k` is a tile port. -/
def isTile (k : Nat) : Bool := decide (k < 32)

/-- Write-data beats of a request of TYPE `t` and LEN `len` (R93). -/
def writeBeats (t len : Nat) : Nat :=
  if t = 1 || t = 2 || t = 3 then (len + 2) / 2 else if t = 5 || t = 6 then 1 else 0

/-- The kind of a TYPE (R93). -/
def kindOf (t : Nat) : Kind :=
  match t with
  | 0 => .rd | 1 => .wr | 2 => .wrPartial | 3 => .acc | 4 => .fence | 5 => .gather | 6 => .brewLaunch | _ => .brewAbort

/-- The TAG of a request word: 6 bits on a narrow port (R102). -/
def tagOf (k : Nat) (tag : BitVec 8) : BitVec 8 := if isTile k then tag else tag &&& 0x3F

/-- A TAG is in flight on a port: in its input queue or in the tracker (R100, R101). -/
def State.tagInFlight (s : State) (k : Nat) (tag : BitVec 8) : Bool :=
  ((s.port k).inq.any fun q => !q.dup && tagOf k q.req.tag == tagOf k tag) ||
    s.fab.trk.any fun e => e.sub == k && tagOf k e.req.tag == tagOf k tag

/-- A word without a credit (R90), or a repeated tag (R101): counted and reported with its detail code. -/
def State.protoError (s : State) (k d : Nat) : State := (s.errCount (0x280 + k) 1 1).reportFab .portProtocol k d

/-- Give beats to what is owed, in acceptance order: the beats each acceptance number gets, what stays owed, and the
beats left over (R97, R101). -/
def bindBeats : List Owed → List WBeat → List (Nat × WBeat) × List Owed × List WBeat
  | [], bs => ([], [], bs)
  | o :: os, [] => ([], o :: os, [])
  | o :: os, b :: bs =>
    let n := min o.left (b :: bs).length
    let now := (b :: bs).take n
    let rest := (b :: bs).drop n
    let got := if o.drop then [] else now.map fun x => (o.ord, x)
    if n < o.left then (got, { o with left := o.left - n } :: os, rest)
    else
      let r := bindBeats os rest
      (got ++ r.1, r.2.1, r.2.2)

/-- A beat joins the entry of subscriber `k` with an acceptance number. -/
def giveBeat (k : Nat) (ob : Nat × WBeat) (l : List Entry) : List Entry :=
  l.map fun e => if e.sub = k && e.ord = ob.1 then { e with wdat := e.wdat ++ [ob.2] } else e

/-- Place bound beats: with the tracker entry of their request, with the request when it has ended before its data came (R143), or
with the port until it is admitted. -/
def State.placeBeats (s : State) (k : Nat) (l : List (Nat × WBeat)) : State :=
  s.each l fun s ob =>
    let mine (e : Entry) : Bool := e.sub == k && e.ord == ob.1
    if s.fab.trk.any mine then s.modFab fun f => { f with trk := giveBeat k ob f.trk }
    else if s.fab.ghost.any mine then s.modFab fun f => { f with ghost := giveBeat k ob f.ghost }
    else s.modPort k fun p => { p with wdat := p.wdat ++ [ob] }

/-- Bind the beats that a port holds for nobody yet. One that comes before any request owes it, which R97 forbids to the
requester, is kept and goes to the next request that owes beats (DESIGN CHOICE, log 56). -/
def State.bindPort (s : State) (k : Nat) : State :=
  let p := s.port k
  let r := bindBeats p.owed p.early
  (s.modPort k fun p => { p with owed := r.2.1, early := r.2.2 }).placeBeats k r.1

/-- A port accepts a request word: it takes a credit, gets its arrival LTC and its place in acceptance order (R84,
R93, R39, R97). A word without a credit is a protocol error (R90); a masked or stopped port takes none (R160). -/
def State.acceptReq (s : State) (k t : Nat) (r : Request) : State :=
  if !s.portsLive || s.isMasked k then s
  else
    let p := s.port k
    if p.reqCrd = 0 then s.protoError k 1
    else
      let dup := s.tagInFlight k r.tag
      let n := writeBeats t r.len.toNat
      let q : InReq := ⟨t, r, s.fabView, p.nextOrd, dup⟩
      (s.setPort k { p with reqCrd := p.reqCrd - 1, inq := p.inq ++ [q], nextOrd := p.nextOrd + 1,
                            owed := if n = 0 then p.owed else p.owed ++ [⟨p.nextOrd, n, dup⟩] }).bindPort k

/-! ### The tracker (R133 to R136) -/

/-- Reserved entries of a subscriber (R133). -/
def reserved (k : Nat) : Nat := if k < 32 then 64 else if k < 36 then 32 else if k = 36 then 128 else 8

/-- A free entry for subscriber `k`: `some false` a reserved one, `some true` a shared one (R134, R135). -/
def Fab.freeSlot (f : Fab) (k : Nat) : Option Bool :=
  if (f.trk.filter fun e => e.sub == k && !e.shared).length < reserved k then some false
  else if (f.trk.filter fun e => e.shared).length < 1728 then some true
  else none

/-- An admission hold keeps subscriber `k`'s requests in their queue (R135, R741, R742, R899, R713). -/
def State.admHeld (s : State) (k : Nat) : Bool :=
  (decide (k < 37) && (s.det.lsHeld || !s.fab.hold.isEmpty)) || s.fab.hold.contains 3

/-- Put an entry into the tracker under a new admission number. -/
def State.addEntry (s : State) (e : Entry) : State :=
  s.modFab fun f => { f with trk := f.trk ++ [{ e with id := f.nextId }], nextId := f.nextId + 1 }

/-- Give every port and the BLP its initial credits; the credits that requesters granted restart at 0 (R86, R87). -/
def State.grantPort (s : State) (k : Nat) : State :=
  s.modPort k fun p => { p with reqCrd := if isTile k then 32 else 16, wdCrd := if isTile k then 64 else 16, rspCrd := 0, rspGrant := 0 }

/-- The same for the BLP. -/
def State.grantBlp (s : State) : State :=
  s.modBlp fun b => { b with descCrd := 8, idataCrd := 256, odataCrd := 0, cplCrd := 0 }

end Sys2Proof.Machine
end

