-- ==== Sys2Proof/Machine/Meter.lean ====
section
/-! DEFINITION. Levels 1 and 2 of shaping: service meters, subscriber buckets, their refills and their test
(R259 to R292, R298 to R300). -/

namespace Sys2Proof.Machine

/-- A rate that limits nothing (R268, R289). -/
def unlimited : Nat := 0xFFFFF

/-- REFILL_SLOTS (R310). -/
def State.refillSlots (s : State) : Nat := fld s.cfg.shpCtl 0 10

/-- YEL_AGE (R310). -/
def State.yelAge (s : State) : Nat := fld s.cfg.shpCtl 10 12

/-- The refill period P in ticks. -/
def State.periodP (s : State) : Nat := 16 * s.refillSlots

/-- CFG_MTR_CIR[m] (R310). -/
def Cfg.mtrCir (c : Cfg) (m : Nat) : Word := Tab.get 0x000FFFFF c.cir m
/-- CFG_MTR_PIR[m] (R310). -/
def Cfg.mtrPir (c : Cfg) (m : Nat) : Word := Tab.get 0x000FFFFF c.pir m
/-- CFG_MTR_BURST[m] (R310). -/
def Cfg.mtrBurst (c : Cfg) (m : Nat) : Word := Tab.get 0xFFFFFFFF c.burst m
/-- CFG_SUB_RATE[k] (R310). -/
def Cfg.subRateAt (c : Cfg) (k : Nat) : Word := Tab.get 0x000FFFFF c.subRate k
/-- CFG_SUB_BURST[k] (R310). -/
def Cfg.subBurstAt (c : Cfg) (k : Nat) : Word := Tab.get 0x0000FFFF c.subBurst k
/-- CFG_CHS[k] (R310). -/
def Cfg.chsAt (c : Cfg) (k : Nat) : Word := Tab.get 0x00010000 c.chs k

/-- Refill boundaries at or before time `t` for a phase below the period (R275, R276). -/
def refillCount (p phase t : Nat) : Nat := if p = 0 then 0 else (t + p - phase) / p

/-- The last refill boundary at or before time `t`; 0 before the first (R281). -/
def lastBoundary (p phase t : Nat) : Nat := if refillCount p phase t = 0 then 0 else phase + (refillCount p phase t - 1) * p

/-- Phase of meter or bucket `m` (R275, R276). -/
def State.refillPhase (s : State) (m : Nat) : Nat := 16 * (m % s.refillSlots)

/-- The time that refills count in: the fabric's view, less ALIGN_LTC in DET_TIMING (R717). -/
def State.refillNow (s : State) : Nat := s.periodTime s.fabView

/-- Refills of meter or bucket `m` due between its virtual time and time `now` (R280, R281). -/
def State.refillsBy (s : State) (m vt now : Nat) : Nat :=
  refillCount s.periodP (s.refillPhase m) now - refillCount s.periodP (s.refillPhase m) (s.periodTime vt)

/-- Refills of meter or bucket `m` due between its virtual time and now (R280, R281). -/
def State.refillsDue (s : State) (m vt : Nat) : Nat := s.refillsBy m vt s.refillNow

/-- The LTC value of a time that refills count in (R717). -/
def State.ltcOf (s : State) (t : Nat) : Nat :=
  match s.det.mode with
  | .timing => t + s.det.alignLtc
  | _ => t

/-- Virtual time of meter or bucket `m` after every refill due at time `now`, as an LTC value (R281). -/
def State.vtBy (s : State) (m now : Nat) : Nat := s.ltcOf (lastBoundary s.periodP (s.refillPhase m) now)

/-- Virtual time of meter or bucket `m` after every refill due now (R281). -/
def State.vtNow (s : State) (m : Nat) : Nat := s.vtBy m s.refillNow

/-- The time just before the present LTC tick: refills in the tick of a change already use the new values (R285, R299). -/
def State.beforeTick (s : State) : Nat := s.periodTime (s.sys.ltc - 1)

/-- Meter `m` of (subscriber, service) `m = 6 k + svc`. -/
def Fab.meter (f : Fab) (m : Nat) : Meter := Tab.get Meter.reset f.meters m

/-- The state with meter `m` replaced. -/
def State.setMeter (s : State) (m : Nat) (x : Meter) : State :=
  s.modFab fun f => { f with meters := Tab.set Meter.reset f.meters m x }

/-- Subscriber bucket `k`. -/
def Fab.bucket (f : Fab) (k : Nat) : Bucket := Tab.get Bucket.reset f.buckets k

/-- The state with bucket `k` replaced. -/
def State.setBucket (s : State) (k : Nat) (x : Bucket) : State :=
  s.modFab fun f => { f with buckets := Tab.set Bucket.reset f.buckets k x }

/-- Fraction that scales a meter's rates: F while enforcement is active, for services 1 to 4 of subscribers 0 to 36
(R298, R300); 256 scales nothing. -/
def State.scaleF (s : State) (m : Nat) : Nat :=
  if s.therm.enforce && decide (m / 6 ≤ 36) && decide (1 ≤ m % 6) && decide (m % 6 ≤ 4) then s.therm.thrFrac.toNat else 256

/-- A rate as scaled: at least 1, an unlimited one left as it is (R298). -/
def scaled (r f : Nat) : Nat := if r = unlimited || f = 256 then r else max 1 (r * f / 256)

/-- The meter with the configured values applied (R285, R299). -/
def State.applyMeter (s : State) (m : Nat) (x : Meter) : Meter :=
  let c := s.cfg.mtrCir m
  let b := s.cfg.mtrBurst m
  { x with cir := fld c 0 20, pir := fld (s.cfg.mtrPir m) 0 20, cbs := fld b 0 16, pbs := fld b 16 16,
           mode := fld c 20 2, f := s.scaleF m }

/-- A refill of `n` periods at the meter's applied rates (R277, R280). -/
def Meter.refill (x : Meter) (slots n : Nat) : Meter :=
  let tc := if x.cir = unlimited then x.tc else min (x.tc + (n * scaled x.cir x.f * slots : Nat)) (x.cbs * 64 : Nat)
  { x with tc := tc, tp := min (x.tp + (n * scaled x.pir x.f * slots : Nat)) (x.pbs * 64 : Nat) }

/-- New values wait for a refill of the meter (R285, R299). -/
def State.meterChanged (s : State) (m : Nat) (x : Meter) : Bool := s.applyMeter m x != x

/-- Every refill due at or before time `now`, together: the configured values apply at the first of them (R280, R281, R285,
R287). A meter that becomes limited starts full there; one that becomes unlimited drops its state. Where new values apply, a
wheel event moves to that refill (R288). -/
def State.settledMeterBy (s : State) (m : Nat) (x : Meter) (now : Nat) : Meter :=
  let n := s.refillsBy m x.vt now
  if x.frozen || n = 0 then x
  else
    let vt := s.vtBy m now
    let y := { s.applyMeter m x with vt := vt, slot := if s.meterChanged m x then x.slot.map (min vt) else x.slot }
    if y.pir = unlimited then { y with tc := 0, tp := 0 }
    else if x.pir = unlimited then { y with tc := (y.cbs * 64 : Nat), tp := (y.pbs * 64 : Nat) }
    else y.refill s.refillSlots n

/-- Every refill due at or before now. -/
def State.settledMeter (s : State) (m : Nat) (x : Meter) : Meter := s.settledMeterBy m x s.refillNow

/-- Settle meter `m`. -/
def State.settleMeter (s : State) (m : Nat) : State := s.setMeter m (s.settledMeter m (s.fab.meter m))

/-- The bucket with the configured values applied (R285, R289). -/
def State.applyBucket (s : State) (k : Nat) (x : Bucket) : Bucket :=
  { x with rate := fld (s.cfg.subRateAt k) 0 20, burst := fld (s.cfg.subBurstAt k) 0 16 }

/-- New values wait for a refill of the bucket (R285, R289). -/
def State.bucketChanged (s : State) (k : Nat) (x : Bucket) : Bool := s.applyBucket k x != x

/-- Every refill of bucket `k` due at or before time `now` (R276, R280, R281, R285, R288, R289). -/
def State.settledBucketBy (s : State) (k : Nat) (x : Bucket) (now : Nat) : Bucket :=
  let n := s.refillsBy k x.vt now
  if x.frozen || n = 0 then x
  else
    let vt := s.vtBy k now
    let y := { s.applyBucket k x with vt := vt, slot := if s.bucketChanged k x then x.slot.map (min vt) else x.slot }
    if y.rate = unlimited then { y with ts := 0 }
    else if x.rate = unlimited then { y with ts := (y.burst * 64 : Nat) }
    else { y with ts := min (x.ts + (n * y.rate * s.refillSlots : Nat)) (y.burst * 64 : Nat) }

/-- Every refill of bucket `k` due at or before now. -/
def State.settledBucket (s : State) (k : Nat) (x : Bucket) : Bucket := s.settledBucketBy k x s.refillNow

/-- Settle bucket `k`. -/
def State.settleBucket (s : State) (k : Nat) : State := s.setBucket k (s.settledBucket k (s.fab.bucket k))

/-- Settle every meter and bucket up to a change of configuration or of the thermal fraction: refills in the tick of the change
use the new values (R285, R299). -/
def State.settleAll (s : State) : State :=
  let t := s.beforeTick
  let s1 := s.each (List.range 288) fun s m => s.setMeter m (s.settledMeterBy m (s.fab.meter m) t)
  s1.each (List.range 48) fun s k => s.setBucket k (s.settledBucketBy k (s.fab.bucket k) t)

/-- After a commit the refills count on the grid of the new REFILL_SLOTS from its tick on, and channel periods and sampling
intervals from their next multiples in the fabric's view, none of which is passed over (R275, R276, R285, R293, R312). -/
def State.rebase (s : State) : State :=
  let t := s.beforeTick
  let s1 := s.each (List.range 288) fun s m =>
    let x := s.fab.meter m
    if x.frozen then s else s.setMeter m { x with vt := s.vtBy m t }
  let s2 := s1.each (List.range 48) fun s k =>
    let x := s.fab.bucket k
    if x.frozen then s else s.setBucket k { x with vt := s.vtBy k t }
  let p := s.periodP
  let now := s.refillNow
  let next (n old : Nat) : Nat := if n = 0 then 0 else if old = now / n * n then old else (now - 1) / n * n
  s2.modFab fun f => { f with period := next p f.period, sampled := next 400 f.sampled }

/-- The initial state of RFC 2698 at the present virtual time (R283); a subscriber that is masked has its meters frozen (R282). -/
def State.initMeters (s : State) (ks : List Nat) : State :=
  s.each ks fun s k =>
    let s1 := s.each (List.range 6) fun s i =>
      let m := 6 * k + i
      let x := { s.applyMeter m Meter.reset with frozen := s.isMasked k }
      s.setMeter m (if x.pir = unlimited then { x with vt := s.vtNow m }
        else { x with tc := (x.cbs * 64 : Nat), tp := (x.pbs * 64 : Nat), vt := s.vtNow m })
    let r := fld (s.cfg.subRateAt k) 0 20
    let b := fld (s.cfg.subBurstAt k) 0 16
    s1.setBucket k ⟨if r = unlimited then 0 else (b * 64 : Nat), s.vtNow k, r, b, s.isMasked k, none⟩

/-- A late charge of C bytes: Tc, Tp and Ts fall, untested, even below zero; unlimited or frozen ones keep no charge (R267,
R282). It counts in TLM_MTR_LATE_CHG also where a frozen meter keeps none, which R318 does not say (DESIGN CHOICE, log 72). -/
def State.lateCharge (s : State) (k svc c : Nat) : State :=
  let m := 6 * k + svc
  let s1 := (s.settleMeter m).settleBucket k
  let x := s1.fab.meter m
  let y := if x.frozen || x.pir = unlimited then x
    else { x with tp := x.tp - (c : Nat), tc := if x.cir = unlimited then x.tc else x.tc - (c : Nat) }
  let b := s1.fab.bucket k
  let b' := if b.frozen || b.rate = unlimited then b else { b with ts := b.ts - (c : Nat) }
  ((s1.setMeter m y).setBucket k b').statMeter m 3 c

/-- Subscriber `k` is flagged trusted (R310). -/
def State.trusted (s : State) (k : Nat) : Bool :=
  if k < 32 then bit s.cfg.trust0 k else k < 37 && bit s.cfg.trust1 (k - 32)

/-- The colour a settled meter gives a charge, and the bucket contents after it; red holds (R269). -/
def Meter.test (x : Meter) (trusted : Bool) (ci : Colour) (c : Nat) : Colour × Meter :=
  if x.pir = unlimited then (.green, x)
  else
    let ci := if x.mode = 0 || (x.mode = 2 && !trusted) then .green else ci
    let cc := min c (x.cbs * 64)
    let p := min c (x.pbs * 64)
    let need := if ci = .red then x.pbs * 64 else p
    if x.tp < (need : Nat) then (.red, x)
    else
      let low := x.cir != unlimited && decide (x.tc < (cc : Nat))
      if ci ≠ .green || low then (.yellow, { x with tp := x.tp - (c : Nat) })
      else (.green, { x with tp := x.tp - (c : Nat), tc := if x.cir = unlimited then x.tc else x.tc - (c : Nat) })

/-- Refills of `add` bytes until a bucket that holds `have'` reaches `need`, at least one; none if it never does (R279). -/
def refillsTo (add : Nat) (have' : Int) (need : Nat) : Option Nat :=
  if add = 0 then none else some (max 1 ((((need : Int) - have').toNat + add - 1) / add))

/-- LTC of the wheel slot of meter or bucket `m` for a refill `n` ahead: that refill's, at most 4,095 slots ahead; the slots
are 16 ticks of the time that refills count in (R278, R279, R717). -/
def State.slotIn (s : State) (m : Nat) (n : Option Nat) : Nat :=
  let far := s.ltcOf ((s.refillNow / 16 + 4095) * 16)
  match n with
  | none => far
  | some n => min far (s.ltcOf (s.refillPhase m + (refillCount s.periodP (s.refillPhase m) s.refillNow + n - 1) * s.periodP))

/-- Wheel event of a head held red: the first refill at which Tp reaches its need, at most 4,095 slots ahead (R279). -/
def State.wheelSlot (s : State) (m : Nat) (x : Meter) (trusted : Bool) (ci : Colour) (c : Nat) : Nat :=
  let ci := if x.mode = 0 || (x.mode = 2 && !trusted) then Colour.green else ci
  let need := if ci = .red then x.pbs * 64 else min c (x.pbs * 64)
  s.slotIn m (refillsTo (scaled x.pir x.f * s.refillSlots) x.tp need)

/-- Wheel event of a bucket with a head of charge `c` held at level 1: the first refill at which Ts reaches its need, at most
4,095 slots ahead (R279, R281). -/
def State.bucketSlot (s : State) (k : Nat) (b : Bucket) (c : Nat) : Nat :=
  s.slotIn k (refillsTo (b.rate * s.refillSlots) b.ts (min c (b.burst * 64)))

/-- The head of the meter queue of (k, svc) (R261). -/
def Fab.mqHead (f : Fab) (k svc : Nat) : Option Shaped := f.mq.find? fun q => q.sub == k && q.svc == svc

/-- The head of the meter queue of (k, svc), changed. -/
def Fab.modHead (f : Fab) (k svc : Nat) (g : Shaped → Shaped) : Fab :=
  { f with mq := updFirst (fun q => q.sub == k && q.svc == svc) g f.mq }

/-- The head leaves its meter queue; each of its pieces enters its channel queue with the colour it passed with
(R262, R270, R271). -/
def State.passHead (s : State) (q : Shaped) (col : Colour) : State :=
  s.modFab fun f =>
    { f with mq := dropFirst (fun x => x.sub == q.sub && x.svc == q.svc) f.mq,
             cq := f.cq ++ q.pieces.map fun p => { p with colour := col } }

/-- Level 1 for a head that its meter passes: the bucket after the charge, or none when it holds (R290). -/
def Bucket.test (b : Bucket) (c : Nat) : Option Bucket :=
  if b.rate = unlimited then some b
  else if b.ts < (min c (b.burst * 64) : Nat) then none
  else some { b with ts := b.ts - (c : Nat) }

/-- Services of a subscriber whose heads wait at level 1, earliest effective deadline first, ties by service (R292). -/
def State.heldHeads (s : State) (k : Nat) : List Nat :=
  let l := (List.range 6).filterMap fun i =>
    match s.fab.mqHead k i with
    | some q => if q.held1 then some (q.dl, i) else none
    | none => none
  (l.mergeSort fun a b => decide (a.1 < b.1) || (a.1 == b.1 && decide (a.2 ≤ b.2))).map (·.2)

/-- A bucket with heads held at level 1 is on the wheel for the first of them that its refill will test (R279, R281, R292). -/
def State.placeBucket (s : State) (k : Nat) : State :=
  let b := s.fab.bucket k
  s.setBucket k { b with
    slot := ((s.heldHeads k).head?.bind (s.fab.mqHead k)).map fun q => s.bucketSlot k b q.charge }

/-- Test the head of (k, svc) at levels 2 and 1 (R259, R265, R269, R290, R291); a masked subscriber's head leaves
untested and uncharged (R160, R282). -/
def State.testHead (s : State) (k svc : Nat) : State :=
  match s.fab.mqHead k svc with
  | none => s
  | some q =>
    let m := 6 * k + svc
    if s.isMasked k || q.charge = 0 then s.passHead q .green
    else
      let s1 := (s.settleMeter m).settleBucket k
      let x := s1.fab.meter m
      let r := x.test (s.trusted k) q.ci q.charge
      if r.1 = .red then
        let x' := { x with slot := some (s1.wheelSlot m x (s.trusted k) q.ci q.charge) }
        ((s1.setMeter m x').modFab fun f => f.modHead k svc fun q => { q with red := true, held1 := false }).statMeter m 2 1
      else
        match (s1.fab.bucket k).test q.charge with
        | none =>
          (((s1.setMeter m { x with slot := none }).modFab fun f =>
            f.modHead k svc fun q => { q with red := false, held1 := true }).placeBucket k).statSub k 0 1
        | some b =>
          let s2 := ((s1.setMeter m { r.2 with slot := none }).setBucket k b).passHead q r.1
          s2.statMeter m (if r.1 = .green then 0 else 1) q.charge

/-- A charge of work whose steps are indivisible, which the meter of (k, svc) and the bucket of `k` pass now; none while they hold
it, or while the meter queue holds a request, which stands ahead of it (R261, R263, R269, R290). Requests of internal subscribers
are green (R273). -/
def State.spend (s : State) (k svc c : Nat) : Option State :=
  let m := 6 * k + svc
  let s1 := (s.settleMeter m).settleBucket k
  let r := (s1.fab.meter m).test (s.trusted k) .green c
  match s.fab.mqHead k svc, r.1, (s1.fab.bucket k).test c with
  | some _, _, _ => none
  | none, .red, _ => none
  | none, _, none => none
  | none, col, some b => some (((s1.setMeter m r.2).setBucket k b).statMeter m (if col = .green then 0 else 1) c)

/-- A test that held such a charge counts as one that held a head: red at its meter, or at level 1 (R318). Work behind a queued
request is not tested (R261). -/
def State.spendHeld (s : State) (k svc c : Nat) : State :=
  let m := 6 * k + svc
  let s1 := (s.settleMeter m).settleBucket k
  if (s.fab.mqHead k svc).isSome then s
  else if ((s1.fab.meter m).test (s.trusted k) .green c).1 = .red then s1.statMeter m 2 1
  else s1.statSub k 0 1

end Sys2Proof.Machine
end

