-- ==== Sys2Proof/Machine/ChanOps.lean ====
section
/-! DEFINITION. What level 3 of shaping, the channel scheduler and its data paths share: rate points, the channel
budget, deadlines, the window, and how an access ends (R204 to R212, R250, R293 to R301). -/

namespace Sys2Proof.Machine

/-- tCK of a rate point in units of 10 ps (R250). -/
def tckOf (rate : Nat) : Nat := if rate = 0 then 80 else if rate = 1 then 100 else if rate = 2 then 125 else 200

/-- Slice `p` runs in NARROW mode (R607). -/
def State.isNarrow (s : State) (p : Nat) : Bool := (s.slice p).link.narrow

/-- Q: column slots of a channel in one refill period (R293); half in NARROW mode. -/
def State.quota (s : State) (c : Nat) : Nat :=
  let q := s.periodP * 250 / tckOf s.sys.rate
  if s.isNarrow (s.stk.remapAt c).ps then q / 2 else q

/-- Accesses of the old slice that a migration's copy share gives it in one channel period (R297, R690). -/
def State.copyRoom (s : State) (m : Mig) : Nat := m.share * s.quota m.chan / 256

/-- NODL_AGE (R256). -/
def State.nodlAge (s : State) : Nat := fld s.cfg.sched1 16 16

/-- PREEMPT_THR (R256). -/
def State.preemptThr (s : State) : Nat := fld s.cfg.sched0 10 10

/-- HIT_WIN (R256). -/
def State.hitWin (s : State) : Nat := fld s.cfg.sched0 0 10

/-- Effective deadline (R210). -/
def State.effDl (s : State) (real : Bool) (dl arrival : Nat) : Nat := if real then dl else arrival + s.nodlAge

/-- Remaining slack of a window entry on slice `p` (R210). -/
def State.slack (s : State) (p : Nat) (w : WinEnt) : Int := (s.effDl w.real w.dl w.arrival : Int) - s.view p

/-- Channel count A[k, c] (R293). -/
def Fab.chA (f : Fab) (k c : Nat) : Nat := Tab.get 0 f.chCnt (k * 128 + c)

/-- CH_MIN or CH_MAX of `k` on `c`; the copy share stands for both on a migrating channel (R294, R297). -/
def State.chShare (s : State) (k c lo len : Nat) : Nat :=
  if k = 41 && (s.stk.remapAt c).st = .migrating then
    ((s.stk.migs.find? fun m => m.chan == c).map (·.share)).getD 0
  else fld (s.cfg.chsAt k) lo len

/-- The copy share of a migration holds back its next row: it is used up in this period, or what earlier rows took beyond it
is not paid yet (R297, R690; DESIGN CHOICE, log 63). -/
def State.copyCapped (s : State) (m : Mig) : Bool := decide (s.copyRoom m ≤ m.debt) || !decide (s.fab.chA 41 m.chan < s.copyRoom m)

/-- The thermal budget admits a piece of subscriber `k`, service `svc`, on channel `c` (R301). -/
def State.thermAdmits (s : State) (k svc c : Nat) : Bool :=
  if s.fab.thOn.contains c && k < 37 then
    let q := s.quota c
    let t := q * s.fab.thF / 256
    let l := (q + 9) / 10
    let bl := Tab.get 0 s.fab.thL c
    let bo := Tab.get 0 s.fab.thO c
    decide (bl + bo < t) || (svc == 0 && decide (bl < l))
  else true

/-- Count a chosen piece of `n` accesses in A, and in Bl or Bo (R294, R301). -/
def Fab.countPiece (f : Fab) (k svc c n : Nat) : Fab :=
  let f1 := { f with chCnt := Tab.upd 0 f.chCnt (k * 128 + c) (· + n) }
  if f.thOn.contains c && k < 37 then
    if svc = 0 then { f1 with thL := Tab.upd 0 f1.thL c (· + n) } else { f1 with thO := Tab.upd 0 f1.thO c (· + n) }
  else f1

/-- CH_MIN or CH_MAX of subscriber `k` leaves it room on channel `c` (R294); a value of 256 is no cap (R310). -/
def State.underShare (s : State) (c k lo len : Nat) : Bool :=
  let v := s.chShare k c lo len
  v == 256 || decide (s.fab.chA k c < v * s.quota c / 256)

/-- Colour order of the fill: green before yellow (R294). -/
def Piece.before (s : State) (a b : Piece) : Bool :=
  let ga := a.colour == .green
  let gb := b.colour == .green
  if ga != gb then ga
  else
    let da := s.effDl a.real a.dl a.arrival
    let db := s.effDl b.real b.dl b.arrival
    if da ≠ db then decide (da < db)
    else match s.det.mode with
      | .timing => decide (a.sub < b.sub) || (a.sub == b.sub && decide (a.adm < b.adm))
      | _ => decide (a.adm < b.adm)

/-- A subscriber whose requests may take a reserved window entry (R205). -/
def mayReserve (k : Nat) : Bool := k == 41 || k == 43 || k == 44

/-- A free window entry for a request: `some false` an ordinary one, `some true` one of the 8 reserved (R205). -/
def State.winSlot (s : State) (p k : Nat) (dl : Nat) : Option Bool :=
  let w := (s.slice p).sch.window
  if (w.filter fun e => !e.rsv).length < 56 then some false
  else if (w.filter fun e => e.rsv).length < 8 &&
      (mayReserve k || decide ((dl : Int) - s.view p < s.preemptThr)) then some true
  else none

/-- A whole row of subscriber 43's repair or reseal work on channel `c` is charged its 32 reads and 32 writes and counts 32
accesses in A, once CH_MAX admits it, its window has an entry for it, and the meter and bucket pass it (R263, R294, R295; log
63). -/
def State.spendRow (s : State) (c : Nat) : Option State :=
  if s.underShare c 43 8 9 && (s.winSlot (s.stk.remapAt c).ps 43 s.fabView).isSome then
    (s.spend 43 5 4096).map fun t => t.modFab fun f => f.countPiece 43 5 c 32
  else none

/-- Such a row that is held counts there: in the channel's CAPPED counter, or as a test of its meter or bucket (R318). -/
def State.spendRowHeld (s : State) (c : Nat) : State :=
  if !s.underShare c 43 8 9 then s.statChan c 0 1
  else if (s.winSlot (s.stk.remapAt c).ps 43 s.fabView).isNone then s
  else s.spendHeld 43 5 4096

/-- Put an entry into the window of slice `p` with the next insertion number (R212). -/
def State.insertWin (s : State) (p : Nat) (w : WinEnt) : State :=
  s.modSch p fun x => { x with window := x.window ++ [{ w with seq := x.nextSeq }], nextSeq := x.nextSeq + 1 }

/-- Put an entry into the narrow slot of slice `p`. -/
def State.insertNarrow (s : State) (p : Nat) (w : WinEnt) : State :=
  s.modSch p fun x => { x with narrowSlot := x.narrowSlot ++ [{ w with seq := x.nextSeq }], nextSeq := x.nextSeq + 1 }

/-- The window entry of a piece (R204, R210). -/
def Piece.winEnt (p : Piece) (use : ReadUse) (keys : List Key) : WinEnt :=
  { WinEnt.reset with
    eid := p.eid, sub := p.sub, svc := p.svc, colour := p.colour, arrival := p.arrival, dl := p.dl, real := p.real, adm := p.adm,
    use := use, keys := keys }

/-! ### How an access ends -/

/-- Every access of an entry that has not ended ends with a status. -/
def Entry.stopAll (e : Entry) (st : RspStatus) : Entry :=
  { e with accs := e.accs.map fun a => if a.st.isNone then { a with st := some st } else a }

/-- The request is decided: its final status and error code. -/
def Entry.done (e : Entry) (st : RspStatus) (err : BitVec 8) : Entry := { e with fin := some ⟨st, err⟩ }

/-- The final answer of a request whose response is one header beat, once it is known (R112, R116, R121, R122). -/
def Entry.headerAnswer (e : Entry) : Option Done :=
  match e.fin with
  | some d => some d
  | none => match e.kind with
    | .wr | .wrPartial | .acc => if accsDone e.accs then some ⟨worstOf (e.accs.filterMap (·.st)), eOk⟩ else none
    | .rd | .fence | .gather | .brewLaunch | .brewAbort | .writeBulk | .accBulk | .readBulk | .gatherList | .gatherPage
    | .scrub | .copy | .digestRec | .ctxWrite | .resealWork | .digestWork => none

/-- Count a request that completes after its deadline (R140, R141). -/
def State.countLate (s : State) (e : Entry) : State :=
  if e.req.slack != 0xFFFF && decide (e.arrival + e.req.slack.toNat < s.fabView) && decide (e.req.service.toNat < 6) then
    s.statMeter (6 * e.sub + e.req.service.toNat) 4 1
  else s

/-- A request whose completion is decided is counted in time or late, once, at that moment (R141). -/
def State.lateOnce (s : State) (id : Nat) : State :=
  match s.fab.entry id with
  | none => s
  | some e =>
    if e.counted || e.headerAnswer.isNone then s else (s.countLate e).modEntry id fun x => { x with counted := true }

/-- Entry `id` is decided, and counted in time or late (R141). -/
def State.decideEntry (s : State) (id : Nat) (st : RspStatus) (err : BitVec 8) : State :=
  (s.modEntry id fun e => if e.fin.isSome then e else e.done st err).lateOnce id

/-- An access of a tracker entry at a key ends with a status and data (R111); the word of its end crosses to the fabric, which
reads it at once or, in DET_TIMING, later (R81). -/
def State.endAccess (s : State) (id : Nat) (k : Key) (st : RspStatus) (d : Line) : State :=
  let t := s.icqSeen 1 (keyPs k)
  ((s.modEntry id fun e => { e with accs := seeAcc (endAcc e.accs k st d) k t }).icqPass 1 (keyPs k)).lateOnce id

/-- A kind that writes memory at the channel. -/
def Kind.isWrite (k : Kind) : Bool :=
  match k with
  | .wr | .wrPartial | .acc | .writeBulk | .accBulk => true
  | .rd | .fence | .gather | .brewLaunch | .brewAbort | .readBulk | .gatherList | .gatherPage | .scrub | .copy
  | .digestRec | .ctxWrite | .resealWork | .digestWork => false

/-- R126: the same subscriber has an earlier write or ACC of this access that has not ended. Gather page reads count
for the port that issued the GATHER (R365). -/
def State.ownWriteAhead (s : State) (id : Nat) (k : Key) : Bool :=
  match s.fab.entry id with
  | none => false
  | some e =>
    s.fab.trk.any fun w => w.kind.isWrite && w.sub == e.msub && decide (w.ord < e.ord) &&
      w.accs.any fun a => a.key == k && a.st.isNone

/-- The BLP descriptor of an entry must wait for earlier writes and ACCs of its source. A later write or ACC does not wait for an
earlier READ_BULK: R151 names only writes and ACCs as what is waited for (DESIGN CHOICE, log 56). -/
def State.blpBlocked (s : State) (id : Nat) : Bool :=
  match s.blp.flight.find? fun d => d.eid == id with
  | none => false
  | some d =>
    s.blp.flight.any fun x => x.desc.srcChip == d.desc.srcChip && decide (x.ord < d.ord) && decide (x.op < 2) &&
      (match s.fab.entry x.eid with | some e => !accsDone e.accs | none => false)

/-! ### The region of an access -/

/-- The window and stale policy of an entry's region, and its view, are those it was translated under (R198). -/
def Entry.rounded (e : Entry) : Bool := rRounded e.rent

end Sys2Proof.Machine
end

