-- ==== Sys2Proof/Machine/WriteData.lean ====
section
/-! DEFINITION. What a write puts into each access: its bytes and the bytes it enables, for plain, partial, narrow,
compressed and bulk writes (R97 to R104, R181, R335, R340), and what an ACC adds (R380). -/

namespace Sys2Proof.Machine

/-- All 64 bytes enabled. -/
def fullMask : BitVec 64 := BitVec.allOnes 64

/-- The bytes that a mask enables, taken from `d`; the others from `old` (R99, R121). -/
def mergeLine (old d : Line) (mask : BitVec 64) : Line :=
  if mask = fullMask then d
  else BitVec.ofNat 512 (ofBytes ((List.range 64).map fun i => if bit mask i then byteOf d i else byteOf old i))

/-- 64 B unit `u` of an entry's tile or bulk write data, with its byte enables. -/
def Entry.unit (e : Entry) (u : Nat) : Line × BitVec 64 :=
  match e.kind with
  | .writeBulk | .accBulk =>
    let b := e.wdat.getD u ⟨0, 0⟩
    (b.data.setWidth 512, fullMask)
  | _ =>
    let b := e.wdat.getD (u / 2) ⟨0, 0⟩
    let h := u % 2
    (BitVec.ofNat 512 (b.data.toNat / 2 ^ (512 * h)), BitVec.ofNat 64 (b.be.toNat / 2 ^ (64 * h)))

/-- Region offset of an entry's request. -/
def Entry.off (e : Entry) : Nat := e.req.addr.toNat - rLo e.rent

/-- Port units of an entry's request (R92). -/
def Entry.units (e : Entry) : Nat := e.req.len.toNat + 1

/-- The compressed blocks of a WR to a PACKED region: expanded offset, scale byte, element bits, saturated elements,
NaN block (R335). -/
def Entry.blocks (e : Entry) : List (Nat × Nat × Nat × Nat × Bool) :=
  let r := e.rent
  let bw := 32 * rOw r
  let bytes := (List.range e.units).flatMap fun u => toBytes 64 (e.unit u).1.toNat
  (List.range (64 * e.units / bw)).map fun i =>
    let c := compressBlock (rEtype r) (portNums (rOfmt r) ((bytes.drop (bw * i)).take bw))
    (e.off + bw * i, c.1, c.2.1, c.2.2.1, c.2.2.2)

/-- Bytes and enables that the compressed blocks put into the access at a place (R181, R340). -/
def Entry.packedFor (e : Entry) (a : Acc) : Line × BitVec 64 :=
  let r := e.rent
  e.blocks.foldl (fun dm b =>
    let put (dm : Nat × Nat) (i v : Nat) : Nat × Nat :=
      (dm.1 - dm.1 / 2 ^ (8 * i) % 256 * 2 ^ (8 * i) + v * 2 ^ (8 * i), dm.2 ||| 2 ^ i)
    let st : Nat × Nat := (dm.1.toNat, dm.2.toNat)
    let sp := scalePlace r b.1
    let st1 := if a.scale && a.isAt sp.1 then put st sp.2 b.2.1 else st
    let bp := blockPlaces r b.1
    let bs := toBytes (4 * rEb r) b.2.2.1
    let st2 := if a.scale then st1
      else (List.range bs.length).foldl (fun st i =>
        let o := bp.2 + i
        match bp.1[o / 64]? with
        | some p => if a.isAt p then put st (o % 64) (bs.getD i 0) else st
        | none => st) st1
    (BitVec.ofNat 512 st2.1, BitVec.ofNat 64 st2.2)) ((0 : Line), (0 : BitVec 64))

/-- Bytes and enables that an entry writes to one of its accesses. -/
def Entry.writeFor (e : Entry) (a : Acc) : Line × BitVec 64 :=
  if 32 ≤ e.sub && e.sub ≤ 35 then
    let b := e.wdat.getD 0 ⟨0, 0⟩
    let h := e.req.addr.toNat / 32 % 2
    let be := if e.kind == .wrPartial then b.be.toNat % 2 ^ 32 else 2 ^ 32 - 1
    (BitVec.ofNat 512 (b.data.toNat % 2 ^ 256 * 2 ^ (256 * h)), BitVec.ofNat 64 (be * 2 ^ (32 * h)))
  else if rType e.rent = 1 then e.packedFor a
  else
    let u := e.unit a.view0
    (u.1, if e.kind == .wrPartial || e.kind == .ctxWrite then u.2 else fullMask)

/-- Addend format of an entry (R92, R144). -/
def Entry.afmt (e : Entry) : Nat := e.req.afmt.toNat

/-- Addend code `i` of an ACC or ACC_BULK (R96, R98). -/
def Entry.addend (e : Entry) (i : Nat) : Nat :=
  let w := afmtWidth e.afmt
  fld (e.unit (i * w / 64)).1 (8 * (i * w % 64)) (8 * w)

/-- Addend codes that an access of an ACC or ACC_BULK takes, the first one lowest (R380, R382). -/
def Entry.addendsOf (e : Entry) (a : Acc) : Line :=
  let w := 8 * afmtWidth e.afmt
  BitVec.ofNat 512 ((List.range (a.view1 + 1 - a.view0)).foldl (fun v i => v + e.addend (a.view0 + i) * 2 ^ (w * i)) 0)

/-- The access of an entry that has not ended and lies at a key. -/
def Entry.accAt (e : Entry) (k : Key) : Option Acc := e.accs.find? fun a => a.key == k && a.st.isNone

/-- What a tracker entry writes at a key; nothing enabled when it has none there. -/
def State.writeAt (s : State) (id : Nat) (k : Key) : Line × BitVec 64 :=
  match s.fab.entry id with
  | none => (0, 0)
  | some e => match e.accAt k with
    | none => (0, 0)
    | some a => e.writeFor a

/-- 64 B units of an entry's request: of its descriptor for a BLP entry (R92, R144). -/
def State.unitsOf (s : State) (e : Entry) : Nat :=
  match e.kind with
  | .writeBulk | .accBulk | .readBulk =>
    ((s.blp.flight.find? fun d => d.eid == e.id).map fun d => (d.desc.len.toNat + 63) / 64).getD 0
  | _ => e.units

/-- The bytes of unit `u` as the digest sees them: disabled bytes count as 0 (R723). -/
def Entry.taken (e : Entry) (u : Nat) : Nat :=
  if 32 ≤ e.sub && e.sub ≤ 35 then
    let b := e.wdat.getD 0 ⟨0, 0⟩
    (mergeLine 0 (BitVec.ofNat 512 (b.data.toNat % 2 ^ 256))
      (if e.kind == .wrPartial then BitVec.ofNat 64 (b.be.toNat % 2 ^ 32) else fullMask)).toNat
  else
    let x := e.unit u
    (mergeLine 0 x.1 (if e.kind == .wrPartial then x.2 else fullMask)).toNat

/-- What the data of a write or ACC of `n` units is to the digest: `d` of R723 and the beats that carry it. -/
def Entry.takes (e : Entry) (n : Nat) : Option (Nat × Nat) :=
  match e.kind with
  | .wr | .wrPartial => some (1, (n + 1) / 2)
  | .acc => some (3, (n + 1) / 2)
  | .writeBulk => some (1, n)
  | .accBulk => some (3, n)
  | .rd | .fence | .gather | .brewLaunch | .brewAbort | .readBulk | .gatherList | .gatherPage | .scrub | .copy | .digestRec
  | .ctxWrite | .resealWork | .digestWork => none

/-- Units of a request's data in the beats that have come, of `n` in all. -/
def Entry.unitsHere (e : Entry) (n : Nat) : Nat :=
  match e.kind with
  | .writeBulk | .accBulk => min n e.wdat.length
  | _ => min n (2 * e.wdat.length)

/-- The first `n` units of a request's data feed its digest stream (R143, R723). -/
def State.hashTaken (s : State) (e : Entry) (d n : Nat) : State :=
  let w := if 32 ≤ e.sub && e.sub ≤ 35 then 32 else 64
  let r := (List.range n).foldl (fun (x : State × DgAcc) u =>
    x.1.feed e.sub true d x.2 (e.req.addr.toNat + 64 * u) (e.taken u) w) (s, DgAcc.zero)
  r.1.feedEnd e.sub true d r.2

/-- Once all data of an admitted write or ACC has been taken, its bytes feed the digest stream, whatever has become of the request
(R143, R723). -/
def State.feedTaken (s : State) (id : Nat) : State :=
  match s.fab.entry id with
  | none => s
  | some e =>
    let n := s.unitsOf e
    match e.takes n with
    | none => s
    | some (d, beats) =>
      if !e.req.digest || e.accs.isEmpty || e.dg.block.isSome || e.wdat.length < beats then s
      else (s.hashTaken e d n).modEntry id fun e => { e with dg := ⟨some 0, 0, 0⟩ }

/-- An ended write that gets no more data feeds the digest with what has come (R143, R160). -/
def State.hashGhost (s : State) (e : Entry) : State :=
  match e.takes e.beats with
  | some (d, _) => if e.wdat.isEmpty then s else s.hashTaken e d (e.unitsHere e.beats)
  | none => s

/-- An ended write or ACC frees its tracker entry. Data it is still owed goes on to be taken: for the digest where it has one
(R143), else to be discarded like that of a rejected request (R149 speaks of descriptors rejected at admission only: DESIGN
CHOICE, log 56). -/
def State.retire (s : State) (e : Entry) : State :=
  let n := s.unitsOf e
  let s1 := s.freeEntry e.id
  match e.takes n with
  | none => s1
  | some (_, beats) =>
    if beats ≤ e.wdat.length || e.accs.isEmpty then s1
    else if e.req.digest && e.dg.block.isNone && s.isMasked e.sub then s1.hashGhost { e with beats := n }
    else if e.req.digest && e.dg.block.isNone then s1.modFab fun f => { f with ghost := f.ghost ++ [{ e with beats := n }] }
    else
      let drop (l : List Owed) : List Owed := l.map fun o => if o.ord = e.ord then { o with drop := true } else o
      if e.sub = 36 then s1.modBlp fun b => { b with owed := drop b.owed }
      else s1.modPort e.sub fun p => { p with owed := drop p.owed }

/-- Ended writes whose data has all come feed the digest and are forgotten (R143). -/
def State.feedGhosts (s : State) : State :=
  let whole (e : Entry) : Option (Nat × Entry) := (e.takes e.beats).bind fun x => if x.2 ≤ e.wdat.length then some (x.1, e) else none
  let s1 := s.each (s.fab.ghost.filterMap whole) fun s x => s.hashTaken x.2 x.1 x.2.beats
  s1.modFab fun f => { f with ghost := f.ghost.filter fun e => (whole e).isNone }

/-- The ended writes of a subscriber that gets no more data feed the digest with what has come (R143, R160). -/
def State.closeGhosts (s : State) (k : Nat) : State :=
  let s1 := s.each (s.fab.ghost.filter fun e => e.sub == k) State.hashGhost
  s1.modFab fun f => { f with ghost := f.ghost.filter fun e => e.sub != k }

/-- The entry of a bulk write with the data that the fabric has read; in DET_TIMING the newest beats are on their way (R81). -/
def State.readSoFar (s : State) (e : Entry) : Entry :=
  { e with wdat := e.wdat.take (e.wdat.length - (s.blp.late.filter fun x => x.1 == e.ord && decide (s.sys.ltc < x.2)).length) }

/-- The data of an access of a bulk write has come: inbound beats come in ascending address order (R148). -/
def Entry.bulkReady (e : Entry) (a : Acc) : Bool :=
  match e.kind with
  | .accBulk => decide ((a.view1 + 1) * afmtWidth e.afmt ≤ 64 * e.wdat.length)
  | _ => decide (a.view1 < e.wdat.length)

/-- Keys of a write piece whose access is enabled only in part: they need a read half; a narrow write always does
(R99, R104, R223). -/
def State.rmwKeys (s : State) (p : Piece) : List Key :=
  match p.write with
  | .write => p.keys.filter fun k =>
      let m := (s.writeAt p.eid k).2
      m != 0 && (m != fullMask || (decide (32 ≤ p.sub) && decide (p.sub ≤ 35)))
  | _ => []

/-- The word that carries one access of a write or accumulation piece into the channel: its data, and all that the channel needs
to apply it (R46, R237, R396). `rmw` names the accesses that need a read half. -/
def State.mkItem (s : State) (x : Piece) (rmw : List Key) (ix : Nat) (k : Key) : WrItem :=
  let e := (s.fab.entry x.eid).getD Entry.reset
  let a := (e.accAt k).getD Acc.reset
  let acc := x.write == .accumulate
  let dm := if acc then (e.addendsOf a, 0) else s.writeAt x.eid k
  { eid := x.eid, sub := x.sub, acc := acc, bank := keyBank k, row := keyRow k, col := keyCol k, fetched := !(rmw.contains k),
    merged := none, rstale := false, ix := ix, arrival := x.arrival, dl := x.dl, real := x.real, data := dm.1, mask := dm.2,
    rent := e.rent, rix := e.rix, afmt := e.afmt, slot0 := (firstSlot e.rent e.off + a.view0) % (64 / rSb e.rent),
    cnt := a.view1 + 1 - a.view0, vis := s.sys.ltc + s.crossTime 0 }

end Sys2Proof.Machine
end

