-- ==== Sys2Proof/Machine/DataOps.lean ====
section
/-! DEFINITION. Data paths of a channel island: erasures and decoding, the write buffer, the correction queue, the
accumulation cache, the narrow read buffer, and what a returned read does (R204 to R209, R392 to R399, R654 to
R678, R935). -/

namespace Sys2Proof.Machine

/-! ### Lanes, symbols and erasures -/

/-- Bond that carries a lane: 0 to 71 DQ, 72 to 81 CA (R590, R604). -/
def Link.bondOf (l : Link) (lane : Nat) : Nat :=
  match Tab.get 0 l.steer lane with
  | 0 => if lane < 72 then lane else lane + 4
  | b + 1 => b

/-- DQ lanes in use (R607). -/
def Link.dqLanes (l : Link) : Nat := if l.narrow then 36 else 72

/-- Symbols that a lane carries (R592, R608). -/
def Link.symsOf (l : Link) (lane : Nat) : List Nat := if l.narrow then [lane, 36 + lane] else [lane]

/-- Health of a DQ bond. -/
def Link.lane (l : Link) (bond : Nat) : Lane := Tab.get Lane.reset l.lanes bond

/-- The bundle with the health of a DQ bond changed. -/
def Link.modLane (l : Link) (bond : Nat) (f : Lane → Lane) : Link :=
  { l with lanes := Tab.upd Lane.reset l.lanes bond f }

/-- The erasure set: symbols carried by marked bonds, never more than 4 (R657). -/
def Link.erasures (l : Link) : List Nat :=
  (((List.range l.dqLanes).filter fun i => (l.lane (l.bondOf i)).marked).flatMap l.symsOf).take 4

/-- Bond that carries a symbol (R668). -/
def Link.bondOfSym (l : Link) (sym : Nat) : Nat := l.bondOf (if l.narrow then sym % 36 else sym)

/-! ### Records -/

/-- The detail word of R665. -/
def eccDetail (row bank col src nerr nera : Nat) : Nat :=
  row + bank * 2 ^ 14 + col * 2 ^ 19 + src * 2 ^ 24 + nerr * 2 ^ 26 + nera * 2 ^ 28

/-- The bundle with the steering under which a read was issued, by which its data came (R604, R668). -/
def State.linkOf (s : State) (p : Nat) (f : Flight) : Link := { (s.slice p).link with steer := f.steer, narrow := f.nar }

/-- Decode 72 symbols read from slice `p` over the steering of `l`, with what it counts and records (R658, R661, R664 to R668).
`src` is the reader of R665. -/
def State.decodeBy (s : State) (l : Link) (p : Nat) (k : Key) (c : Code) (src : Nat) : Decoded × State :=
  let era := l.erasures
  let d := rsDecode c era
  let det (nerr : Nat) : Nat := eccDetail (keyRow k) (keyBank k) (keyCol k) src nerr era.length
  if d.ue then
    let s1 := s.errCount p 25 1
    if (s.slice p).scr.ueRecs < 64 then
      (d, (s1.report p .eccUe p (det 3)).modScr p fun x => { x with ueRecs := x.ueRecs + 1 })
    else (d, s1)
  else if d.changed.isEmpty then (d, s)
  else
    let s1 := s.errCount p 24 1
    let s2 := s1.each d.changed fun s i =>
      (s.errCount p (40 + i) 1).modLink p fun y => y.modLane (l.bondOfSym i) fun x => { x with corr := x.corr + 1 }
    if (s.slice p).scr.ceRec then (d, s2)
    else (d, (s2.report p .eccCe p (det d.unknown.length)).modScr p fun x => { x with ceRec := true })

/-- Decode under the present steering. -/
def State.decode (s : State) (p : Nat) (k : Key) (c : Code) (src : Nat) : Decoded × State := s.decodeBy (s.slice p).link p k c src

/-! ### The write buffer -/

/-- The place of a write-buffer entry is the one named. -/
def WBuf.isAt (w : WBuf) (bank row col : Nat) : Bool := w.bank == bank && w.row == row && w.col == col

/-- Put an access into a buffer list, replacing the entry it holds for it; the older acceptance stays (R127, R663,
R460). -/
def wbMerge (l : List WBuf) (w : WBuf) : List WBuf :=
  updFirst (fun x : WBuf => x.isAt w.bank w.row w.col) (fun x => { w with ix := min x.ix w.ix }) l

/-- Invalidate the narrow read-buffer line of an access (R105). -/
def ChData.dropNarrow (d : ChData) (bank row col : Nat) : ChData :=
  { d with nrb := d.nrb.filter fun kv => !(keyBank kv.1 == bank && keyRow kv.1 == row && keyCol kv.1 == col) }

/-- An access enters the write buffer: it replaces an entry for the same access or takes a new one (R127, R663); the
narrow read-buffer line of the access and a waiting correction of it go (R105). -/
def ChData.wbAdd (d : ChData) (w : WBuf) : ChData :=
  let same (x : WBuf) : Bool := x.isAt w.bank w.row w.col
  let d1 := { d.dropNarrow w.bank w.row w.col with corr := d.corr.filter fun x => !same x }
  if d.wb.any same then { d1 with wb := wbMerge d.wb w }
  else if d.fow.any same then { d1 with fow := wbMerge d.fow w }
  else { d1 with wb := d.wb ++ [w] }

/-- The write buffer has an entry for the access, or a free one. -/
def ChData.wbRoom (d : ChData) (bank row col : Nat) : Bool :=
  decide (d.wb.length < 64) || d.wb.any fun x => x.isAt bank row col

/-- A follow-on write enters the write buffer, where its access already has an entry or a free one is left, or waits in the island
when it is full (R935); the narrow read-buffer line of its access goes (R105). -/
def ChData.wbFollow (d : ChData) (w : WBuf) : ChData :=
  if (d.wb.any fun x => x.isAt w.bank w.row w.col) || (d.wbRoom w.bank w.row w.col && d.fow.isEmpty) then d.wbAdd w
  else { d.dropNarrow w.bank w.row w.col with fow := d.fow ++ [w] }

/-! ### The fabric-to-channel queue (R64, R237) -/

/-- A write that the island reads finds an entry of the write buffer: the one that its access has, or one that no other write
waits for (R237). -/
def ChData.hasEntry (d : ChData) (x : WrItem) : Bool :=
  (d.wb.any fun w => w.isAt x.bank x.row x.col) || (d.unit.any fun y => !y.acc && y.bank == x.bank && y.row == x.row && y.col == x.col) ||
    decide (d.wb.length + d.fow.length + (d.unit.filter fun y => !y.acc).length < 64)

/-- READ words of the queue from its read pointer on: those that have crossed, up to the first write for which the write buffer is
full (R64, R81, R237). -/
def ChData.readWords (now : Nat) : List WrItem → ChData → ChData
  | [], d => { d with fcq := [] }
  | x :: t, d =>
    if decide (now < x.vis) || !(x.acc || d.hasEntry x) then { d with fcq := x :: t }
    else ChData.readWords now t { d with unit := d.unit ++ [x] }

/-- The island reads its fabric-to-channel queue as far as it can: writes and accumulations into the unit, read words whose
turn has come into their window entries; what is read is released (R64, R65, R237). -/
def State.readQueue (s : State) (p : Nat) : State :=
  let x := s.slice p
  let d := ChData.readWords s.sys.ltc x.dat.fcq x.dat
  let turn (w : WinEnt) : Bool := w.word && decide (w.vis ≤ s.sys.ltc) && d.fcq.all fun y => decide (w.qix ≤ y.ix)
  let n := x.dat.fcq.length - d.fcq.length + ((x.sch.window ++ x.sch.narrowSlot).filter turn).length
  if n = 0 then s
  else
    let get (l : List WinEnt) : List WinEnt := l.map fun w => if turn w then { w with word := false } else w
    (s.modSlice p fun x =>
      { x with dat := d, sch := { x.sch with window := get x.sch.window, narrowSlot := get x.sch.narrowSlot } }).icqRelease 0 p n

/-- Entries whose read word still stands in the fabric-to-channel queue of the island (R64). -/
def Slice.readWords (x : Slice) : List WinEnt := (x.sch.window ++ x.sch.narrowSlot).filter (·.word)

/-- Words in the fabric-to-channel queue of the island (R61, R64). -/
def Slice.words0 (x : Slice) : Nat := x.dat.fcq.length + x.readWords.length

/-- A window or narrow entry of island `p` has been read out of the crossing queue; one for the read half of a write, once
that write has been (R64, R81). -/
def State.inIsland (s : State) (p : Nat) (w : WinEnt) : Bool :=
  !w.word && decide (w.vis ≤ s.sys.ltc) && (w.qix == 0 || (s.slice p).dat.fcq.all fun y => decide (w.qix ≤ y.ix))

/-- A correction write enters the write buffer: it is counted and charged to subscriber 40 (R263, R662, R667). -/
def State.corrEnter (s : State) (p : Nat) (w : WBuf) : State :=
  ((s.modDat p fun d => d.wbAdd w).stat p 26 1).lateCharge 40 5 64

/-! ### The accumulation cache and reads of held data -/

/-- The accumulation-cache line of an access. -/
def ChData.lineAt (d : ChData) (bank row col : Nat) : Option AccLine :=
  d.lines.find? fun x => x.bank == bank && x.row == row && x.col == col

/-- The cache without a line. -/
def ChData.dropLine (d : ChData) (bank row col : Nat) : ChData :=
  { d with lines := d.lines.filter fun x => !(x.bank == bank && x.row == row && x.col == col) }

/-- What a waiting follow-on write or the write buffer holds of an access, and whether as raw symbols (R207). -/
def ChData.bufferedAt (d : ChData) (bank row col : Nat) : Option (Code × Bool) :=
  ((d.fow ++ d.wb).find? fun w => w.isAt bank row col).map fun w => (w.code, w.raw)

/-- The symbols an access holds ahead of the arrays, and whether they are raw: from the accumulation cache, a waiting
follow-on write, or the write buffer (R207, R397, R398). -/
def ChData.heldAt (d : ChData) (bank row col : Nat) : Option (Code × Bool) :=
  match d.lineAt bank row col with
  | some l => some (l.data.setWidth 576, false)
  | none => d.bufferedAt bank row col

/-- The line lies at the place. -/
def AccLine.isAt (l : AccLine) (bank row col : Nat) : Bool := l.bank == bank && l.row == row && l.col == col

/-- The line differs from memory (R399). -/
def AccLine.dirty (l : AccLine) : Bool := l.data != l.base

/-- The line as it stays in the cache once it has been written back: memory holds the same, and no write-back waits (R400). -/
def AccLine.clean (l : AccLine) : AccLine := { l with base := l.data, out := none, stay := false }

/-- The cache with the line at a place changed. -/
def ChData.modLine (d : ChData) (l : AccLine) (f : AccLine → AccLine) : ChData :=
  { d with lines := updFirst (fun x : AccLine => x.isAt l.bank l.row l.col) f d.lines }

/-- The write-back of a line enters the write buffer as an eviction (R209, R397, R399); the line leaves the cache, or stays
there clean (R400). -/
def State.enterLine (s : State) (p : Nat) (l : AccLine) (cause : Nat) (stay : Bool) : State :=
  let s1 := s.modDat p fun d =>
    if stay then d.modLine l AccLine.clean else d.dropLine l.bank l.row l.col
  (s1.modDat p fun d => d.wbAdd ⟨l.bank, l.row, l.col, rsEncode l.data, false, l.sub, cause⟩).stat p 12 1

/-- A line is written back, and a clean one that does not stay is invalidated. Without room in the write buffer the line is kept
and waits in the island for the next entry (R935). -/
def State.writeLine (s : State) (p : Nat) (l : AccLine) (cause : Nat) (stay : Bool) : State :=
  let d := (s.slice p).dat
  if !l.dirty then (if stay then s else s.modDat p fun d => d.dropLine l.bank l.row l.col)
  else if d.fow.isEmpty && d.wbRoom l.bank l.row l.col then s.enterLine p l cause stay
  else s.modDat p fun d => d.modLine l fun x => { x with out := some cause, stay := stay }

/-- A line leaves the cache; a dirty one goes to the write buffer as an eviction (R209, R397, R399). -/
def State.evict (s : State) (p : Nat) (l : AccLine) (cause : Nat) : State := s.writeLine p l cause false

/-- The line that a new one replaces: the least recently used one for which no piece waits in the island (R399; that a waiting
piece is one in progress is DEDUCED, log 50). -/
def ChData.victim (d : ChData) : Option AccLine :=
  d.lines.find? fun l => !(d.unit.any fun x => x.acc && l.isAt x.bank x.row x.col)

/-- The pieces that waited for the line are no hits, with what the island still has to apply of them (R418). -/
def ChData.missed (d : ChData) (l : AccLine) : ChData :=
  let ids := (d.unit.filter fun x => x.acc && l.isAt x.bank x.row x.col).map (·.eid)
  let mark (w : List WrItem) : List WrItem := w.map fun x => if x.acc && ids.contains x.eid then { x with fetched := false } else x
  { d with unit := mark d.unit, fcq := mark d.fcq }

/-- The first line that waits for room is installed; the line it replaces is evicted first, and it waits until that eviction has
entered the write buffer, or until a line can be replaced (R392, R393, R399, R935). -/
def State.fillOne (s : State) (p : Nat) : State :=
  let d := (s.slice p).dat
  match d.fill with
  | [] => s
  | (l, c) :: t =>
    let place (s : State) : State := s.modDat p fun d =>
      { d.missed l with lines := d.lines ++ [l], fill := t, miss := d.miss.filter fun y => y != keyOf p l.bank l.row l.col }
    if d.lines.length < 256 then place s
    else if d.lines.any fun x => x.out.isSome && !x.stay then s
    else match d.victim with
      | none => s
      | some v =>
        let s1 := s.evict p v c
        if (s1.slice p).dat.lines.length < 256 then place s1 else s1

/-- Install the lines that wait, in order. -/
def State.runFill (s : State) (p : Nat) : State := s.each (s.slice p).dat.fill fun s _ => s.fillOne p

/-- A line has been read (R393). -/
def State.install (s : State) (p : Nat) (l : AccLine) (cause : Nat) : State :=
  (s.modDat p fun d => { d with fill := d.fill ++ [(l, cause)] }).runFill p

/-! ### Reseal (R472, R473) -/

/-- A launch has ended on a channel: its status is decided and it has committed or stopped there (R449). -/
def Launch.endedOn (l : Launch) (c : Nat) : Bool := l.why.isSome && (l.commits.contains c || l.stopped.contains c)

/-- A launch is active on a bank of a channel: an op of it has been dispatched there and it has not ended there
(R449, R473). -/
def State.launchActive (s : State) (c bank : Nat) : Bool :=
  s.fab.launches.any fun l =>
    l.chans.contains c && (fld l.desc 32 32).testBit bank && decide (0 < l.nops) && !l.endedOn c

/-- The writes of a reseal of a row still wait for write-buffer entries. -/
def ChData.sealing (d : ChData) (bank row : Nat) : Bool :=
  d.fow.any fun w => w.bank == bank && w.row == row && w.sub == 43 && !w.raw

/-- The last write of a reseal has entered the write buffer: the row's stale bit clears, and while a launch is active on the
bank it stays and the accesses that wait for the row are served all the same (R470, R473). -/
def State.resealDone (s : State) (p bank row : Nat) : State :=
  match s.stk.chanOf p with
  | none => s
  | some c =>
    if !s.fab.isStale c bank row || (s.slice p).dat.sealing bank row then s
    else if s.launchActive c bank then
      let mark (l : List WinEnt) : List WinEnt := l.map fun w =>
        if w.keys.any fun k => keyBank k == bank && keyRow k == row then { w with sealed := insertNat (bank * 16384 + row) w.sealed } else w
      s.modSch p fun x => { x with window := mark x.window, narrowSlot := mark x.narrowSlot }
    else s.modFab fun f => f.clearStale c bank row

/-- Waiting follow-on writes take a freed entry ahead of every other write: row-repair and reseal writes, then evictions, then
corrections (R935, which gives no order among them: DESIGN CHOICE, log 50). -/
def State.fillWb (s : State) (p : Nat) : State :=
  let d := (s.slice p).dat
  if 64 ≤ d.wb.length then s
  else match d.fow with
    | w :: t =>
      let s1 := s.modDat p fun d => { d with fow := t }.wbAdd w
      if w.sub = 43 && !w.raw then s1.resealDone p w.bank w.row else s1
    | [] => match d.lines.find? fun l => l.out.isSome with
      | some l => ((s.modDat p fun d => d.modLine l fun x => { x with out := none }).writeLine p l (l.out.getD 0) l.stay).runFill p
      | none => match d.corr with
        | w :: t => (s.modDat p fun d => { d with corr := t }).corrEnter p w
        | [] => s

/-! ### Correction writes, scrub checks -/

/-- A correction write of an access whose stored symbols are still those that were decoded: into the write buffer, or
into the correction queue, or none when that is full (R662, R935). -/
def State.correct (s : State) (p : Nat) (k : Key) (read : Code) (fixed : Code) (cause : Nat) : State :=
  let d := (s.slice p).dat
  let b := keyBank k
  let r := keyRow k
  let c := keyCol k
  let dirty := match d.lineAt b r c with | some l => l.dirty | none => false
  if !bit s.stk.ecc 26 || dirty || s.code k != read || ((d.fow ++ d.wb).any fun w => w.isAt b r c) then s
  else
    let w : WBuf := ⟨b, r, c, rsEncode (dataOf fixed), false, 40, cause⟩
    let s1 := s.detBreak 3
    if d.wb.length < 64 then s1.corrEnter p w
    else if d.corr.length < 4 then s1.modDat p fun d => { d with corr := d.corr ++ [w] }
    else s

/-- The logical channel of a slice is migrating. -/
def State.migrating (s : State) (p : Nat) : Bool :=
  s.stk.remap.any fun e => e.st == .migrating && (e.ps == p || e.new == p)

/-- Queue a scrub check of an access that returned UE to another reader (R664, R678); none on a migrating slice. One that
waits for the access already serves (DEDUCED). -/
def State.queueCheck (s : State) (p : Nat) (k : Key) : State :=
  let c : ScrubChk := ⟨keyBank k, keyRow k, keyCol k, []⟩
  if s.migrating p || (s.slice p).scr.checks.contains c then s
  else s.modScr p fun x => { x with checks := x.checks ++ [c] }

/-! ### The other copy of a replica pair (R194, R196) -/

/-- Place of an access in the other region of its replica pair, as at admission, when the entry's region has one (R198). -/
def Entry.otherCopy (e : Entry) (a : Acc) : Option Place :=
  if rRepl e.rent && (e.kind == .rd || e.kind == .readBulk || e.kind == .gatherPage || e.kind == .gatherList || e.kind == .digestWork) then
    let o := e.off + 64 * a.view0
    let x := ilvPlace e.rent o
    let y := ilvPlace e.pent o
    some (if a.isAt x then y else x)
  else none

/-- Send the access to the other copy: a follow-on read on that slice (R196). The fabric, which reads the end of the first
read out of class 1 of slice `p`, at once or, in DET_TIMING, later, sends it there (R15, R81). -/
def State.retryCopy (s : State) (p : Nat) (f : Flight) (k : Key) (pl : Place) (ps : Nat) (e : Entry) : State :=
  let vis := s.icqSeen 1 p
  let s1 := ((s.detBreak 3).icqPass 1 p).modEntry f.eid fun e => { e with accs := e.accs.map fun a =>
    if a.key = k && a.st.isNone then
      { a with chan := pl.chan, ps := ps, bank := pl.bank, row := pl.row, col := pl.col, retry := true,
               stale := rType e.pent == 3 && s.fab.isStale pl.chan pl.bank pl.row } else a }
  let w : WinEnt := { WinEnt.reset with
    eid := f.eid, sub := f.sub, svc := e.req.service.toNat, colour := f.colour, arrival := e.arrival,
    dl := e.arrival + e.req.slack.toNat, real := e.req.slack != 0xFFFF, adm := e.id, use := .replica, vis := vis,
    keys := [keyOf ps pl.bank pl.row pl.col] }
  s1.modSch ps fun x => { x with waiting := x.waiting ++ [w] }

/-! ### Gather reads -/

/-- Gather engine `i`. -/
def Fab.engine (f : Fab) (i : Nat) : Gth := Tab.get Gth.reset f.engines i

/-- The fabric with gather engine `i` changed. -/
def Fab.modEngine (f : Fab) (i : Nat) (g : Gth → Gth) : Fab := { f with engines := Tab.upd Gth.reset f.engines i g }

/-- List entries 0 to COUNT whose 8 B lie in list access `n`, with their byte in the access (R355, R362). -/
def listEntries (desc : BitVec 160) (n : Nat) : List (Nat × Nat) :=
  let a := fld desc 0 40
  (List.range 8).filterMap fun j =>
    let byte := (a / 64 + n) * 64 + 8 * j
    if a ≤ byte && (byte - a) / 8 ≤ fld desc 64 12 then some ((byte - a) / 8, 8 * j) else none

/-- What expand-on-read counts for `n` units of a PACKED region from expanded offset `o` (R352): blocks, NaN blocks,
elements that overflowed. -/
def State.countExpand (s : State) (port : Nat) (r : BitVec 256) (sat : Bool) (accs : List Acc) (o n : Nat) : State :=
  if rType r != 1 || n = 0 then s
  else
    let bw := 32 * rOw r
    let l := (List.range ((o + 64 * n - 1) / bw + 1 - o / bw)).map fun i => blockBits r accs ((o / bw + i) * bw)
    ((s.statSub port 2 l.length).statSub port 4 (l.filter fun b => b.2 == 0xFF).length).statSub port 5
      (l.map fun b => (expandBlock (rEtype r) b.2 b.1 (rOfmt r) sat).2).sum

/-- A gather read whose accesses have all ended goes to its engine: list entries with the access's status, or staged
stream units (R363, R364, R366, R370); in DET_TIMING the fabric reads those ends later (R81). Its tracker entry frees. -/
def State.settleGather (s : State) (id : Nat) : State :=
  match s.fab.entry id with
  | none => s
  | some e =>
    if !accsSeen e.accs s.sys.ltc then s
    else match e.kind with
      | .gatherList =>
        let st := worstOf (e.accs.filterMap (·.st))
        let d := (e.accs.headD Acc.reset).data
        (s.modFab fun f => f.modEngine e.parent fun g =>
          let n := e.req.addr.toNat / 64 - fld g.desc 0 40 / 64
          let es := listEntries g.desc n
          { g with lgot := insertNat n g.lgot,
                   flight := g.flight - 1,
                   ents := es.foldl (fun t x => Tab.set 0 t x.1 (BitVec.ofNat 64 (fld d (8 * x.2) 64))) g.ents,
                   esta := if st = .ok then g.esta else es.foldl (fun t x => Tab.set .ok t x.1 st) g.esta }).freeEntry id
      | .gatherPage =>
        let us := (List.range e.units).map fun u =>
          (e.beats + u, unitStatus e.accs u, unitData e.rent e.sat e.accs e.off u)
        ((s.countExpand e.msub e.rent e.sat e.accs e.off e.units).modFab fun f => f.modEngine e.parent fun g =>
          { g with units := g.units ++ us, flight := g.flight - 1 }).freeEntry id
      | _ => s

/-- The reads of gather engine `i` that have ended go to it. -/
def State.settleEngine (s : State) (i : Nat) : State :=
  s.each ((s.fab.trk.filter fun e => (e.kind == .gatherList || e.kind == .gatherPage) && e.parent == i).map (·.id)) State.settleGather

/-- Late charge for a scale-plane access of an entry at a key: 64 B (R263, R340). -/
def State.chargeScale (s : State) (id : Nat) (k : Key) : State :=
  match s.fab.entry id with
  | none => s
  | some e => match e.accAt k with
    | some a => if a.scale then s.lateCharge e.msub e.req.service.toNat 64 else s
    | none => s

/-! ### A read that ends -/

/-- An access of the ROUNDED view that holds a slot outside its window (R410, R412). -/
def windowBad (r : BitVec 256) (d : Line) : Bool :=
  rRounded r && (List.range (64 / rSb r)).any fun i =>
    outsideWindow (slotW (rSlot r)) (fld d (8 * rSb r * i) (8 * rSb r)) (rWexp r) (rScaleE r)

/-- Put a line into the narrow read buffer, the most recently used last (R208). -/
def ChData.putNarrow (d : ChData) (k : Key) (x : Line) : ChData :=
  let l := d.nrb.filter fun kv => kv.1 != k
  { d with nrb := (if 64 ≤ l.length then l.tail else l) ++ [(k, x)] }

/-- What a narrow read returned is still what the access holds: no write or accumulation changed it since its column
command (R105, R124). -/
def State.stillCurrent (s : State) (p : Nat) (f : Flight) (d : Line) : Bool :=
  s.code (keyOf p f.bank f.row f.col) == f.code && match (s.slice p).dat.heldAt f.bank f.row f.col with
    | none => true
    | some h => dataOf h.1 == d

/-- A write to a scale-plane access has been admitted and has not entered the write buffer yet. -/
def Fab.scaleWaits (f : Fab) (a : Acc) : Bool :=
  f.trk.any fun w => w.kind.isWrite && rType w.rent == 1 &&
    w.accs.any fun y => y.scale && y.st.isNone && y.chan == a.chan && y.bank == a.bank && y.row == a.row && y.col == a.col

/-- A scale-plane access that returned OK is installed in the cache of the port whose transform unit asked for it, unless it was
invalidated meanwhile, or a write has changed it or will (R342, R344, R347). -/
def State.installScale (s : State) (e : Entry) (a : Acc) (st : RspStatus) (d : Line) (current : Bool) : State :=
  if a.scale && a.inst && st = .ok && current && !s.fab.scaleWaits a && e.msub < 32 && (e.kind == .rd || e.kind == .gatherPage) then
    let k := keyOf a.chan a.bank a.row a.col
    s.modPort e.msub fun p =>
      let l := p.scale.filter fun kv => kv.1 != k
      { p with scale := (if 64 ≤ l.length then l.tail else l) ++ [(k, d)] }
  else s

/-- 64 B accesses of the ROUNDED view that the end of access `k` completes with WINDOW (R412, R418). -/
def Entry.windowsAt (e : Entry) (k : Key) (st : RspStatus) (d : Line) : Nat :=
  let a := (e.accAt k).getD Acc.reset
  let l := endAcc e.accs k st d
  ((List.range (a.view1 + 1 - a.view0)).filter fun i =>
    (l.all fun x => x.st.isSome || decide (a.view0 + i < x.view0) || decide (x.view1 < a.view0 + i)) &&
      unitStatus l (a.view0 + i) == .window).length

/-- A port read ends with a status and data: retry in the other copy (R196; a copy whose channel is FENCED answers FENCED, so that
the response carries no UE after one read: DEDUCED, log 57), WINDOW (R412), narrow read buffer (R208), then the access ends. -/
def State.endPortRead (s : State) (p : Nat) (f : Flight) (st : RspStatus) (d : Line) : State :=
  let k := keyOf p f.bank f.row f.col
  match s.fab.entry f.eid with
  | none => s
  | some e =>
    let a := (e.accAt k).getD Acc.reset
    let other := if st = .ue && !a.retry then e.otherCopy a else none
    match other.bind fun pl => (s.stk.sliceOf pl.chan pl.row).map fun ps => (pl, ps) with
    | some (pl, ps) => s.retryCopy p f k pl ps e
    | none =>
      let out := if st = .ok && windowBad e.rent d then .window else if other.isSome then .fenced else st
      let s1 := if rRounded e.rent then s.stat p 16 (e.windowsAt k out d) else if st = .stale then s.stat p 34 1 else s
      let s2 := if st = .ok && 32 ≤ e.sub && e.sub ≤ 35 && !f.nobuf && s.stillCurrent p f d then s1.modDat p fun x => x.putNarrow k d else s1
      ((s2.installScale e a st d (s.stillCurrent p f d)).endAccess f.eid k out d).settleGather f.eid

/-- Accumulation pieces of an access that come before its first waiting write (R395, R396, R397). -/
def ChData.waitingPieces (d : ChData) (bank row col : Nat) : List WrItem :=
  (d.unit.filter fun x => x.bank == bank && x.row == row && x.col == col).takeWhile fun x => x.acc

/-- A miss read ends: the line is installed, or its waiting pieces complete with UE (R393, R395). -/
def State.endMiss (s : State) (p : Nat) (f : Flight) (st : RspStatus) (d : Line) : State :=
  let k := keyOf p f.bank f.row f.col
  let ws := (s.slice p).dat.waitingPieces f.bank f.row f.col
  if st = .ue then
    let s1 := s.modDat p fun x => { x with miss := x.miss.filter fun y => y != k, unit := x.unit.filter fun y => !ws.contains y }
    s1.each ws fun s w => s.endAccess w.eid k .ue 0
  else s.install p ⟨f.bank, f.row, f.col, d, d, f.sub, (ws.map (·.rix)).headD 0, none, false⟩ f.eid

/-- The scale-plane lines of an access that a write has not changed after all, though its data was merged into them, leave every
port's cache (R345, R347). -/
def State.dropScaleLine (s : State) (id : Nat) (k : Key) : State :=
  match (s.fab.entry id).bind fun e => e.accAt k with
  | some a =>
    if a.scale then
      { s with ports := Tab.mapVals Port.reset (fun _ p =>
          { p with scale := p.scale.filter fun (kv : Key × Line) => kv.1 != keyOf a.chan a.bank a.row a.col }) s.ports }
    else s
  | none => s

/-- The read half of a partial or narrow write ends: the data waits for the merge, or the access ends with UE
(R117, R121, R471). -/
def State.endRmw (s : State) (p : Nat) (f : Flight) (st : RspStatus) (d : Line) : State :=
  let k := keyOf p f.bank f.row f.col
  let is (x : WrItem) : Bool := x.eid == f.eid && !x.acc && x.bank == f.bank && x.row == f.row && x.col == f.col
  if st = .ue then
    ((s.modDat p fun x => { x with unit := dropFirst is x.unit }).dropScaleLine f.eid k).endAccess f.eid k .ue 0
  else s.modDat p fun x =>
    { x with unit := updFirst is (fun y => { y with fetched := true, merged := some d, rstale := st == .stale }) x.unit }

/-- A read other than one of scrub ends. -/
def State.endRead (s : State) (p : Nat) (f : Flight) (st : RspStatus) (d : Line) : State :=
  match f.use with
  | .port | .replica | .work => s.endPortRead p f st d
  | .accMiss => s.endMiss p f st d
  | .rmw => s.endRmw p f st d
  | .scrub | .check | .reseal => s

/-- SRC of R665. -/
def ReadUse.src (u : ReadUse) (sub : Nat) : Nat :=
  match u with
  | .scrub | .check => 1
  | .rmw | .accMiss => 2
  | .port | .replica | .reseal | .work => if sub ≤ 36 then 0 else 3

end Sys2Proof.Machine
end

