-- ==== Sys2Proof/Machine/SchedOps.lean ====
section
/-! DEFINITION. What the channel scheduler works with: bank timing, refresh counts, the hot-row tracker, activation
meters, and the commands ACT, PRE, REFpb, RD and WR (R210, R246 to R248, R303 to R308, R494 to R529). -/

namespace Sys2Proof.Machine

/-! ### Timing (R247, R248) -/

/-- TRCD -/
def BankSet.trcd (b : BankSet) : Nat := fld b.tim.tim0 0 8
/-- TRP -/
def BankSet.trp (b : BankSet) : Nat := fld b.tim.tim0 8 8
/-- TRAS -/
def BankSet.tras (b : BankSet) : Nat := fld b.tim.tim0 16 8
/-- TRC -/
def BankSet.trc (b : BankSet) : Nat := fld b.tim.tim0 24 8
/-- TRRD -/
def BankSet.trrd (b : BankSet) : Nat := fld b.tim.tim1 0 8
/-- TFAW -/
def BankSet.tfaw (b : BankSet) : Nat := fld b.tim.tim1 8 8
/-- TCCD -/
def BankSet.tccd (b : BankSet) : Nat := fld b.tim.tim1 16 8
/-- TWR -/
def BankSet.twr (b : BankSet) : Nat := fld b.tim.tim1 24 8
/-- TRFCPB -/
def BankSet.trfc (b : BankSet) : Nat := fld b.tim.tim2 0 10
/-- RL -/
def BankSet.rl (b : BankSet) : Nat := fld b.tim.tim2 16 8
/-- WL -/
def BankSet.wl (b : BankSet) : Nat := fld b.tim.tim2 24 8
/-- TWTR -/
def BankSet.twtr (b : BankSet) : Nat := fld b.tim.tim3 0 8
/-- TRTP -/
def BankSet.trtp (b : BankSet) : Nat := fld b.tim.tim3 8 8
/-- TRTW -/
def BankSet.trtw (b : BankSet) : Nat := fld b.tim.tim3 16 8
/-- TXS -/
def BankSet.txs (b : BankSet) : Nat := fld b.tim.tim3 24 8

/-- Bank `i`. -/
def BankSet.bank (b : BankSet) (i : Nat) : BankT := Tab.get BankT.reset b.banks i

/-- The set with bank `i` changed. -/
def BankSet.modBank (b : BankSet) (i : Nat) (f : BankT → BankT) : BankSet :=
  { b with banks := Tab.upd BankT.reset b.banks i f }

/-- The state with the bank timing of island `p` changed. -/
def State.modBt (s : State) (p : Nat) (f : BankSet → BankSet) : State := s.modSlice p fun x => { x with bt := f x.bt }

/-- The state with the refresh engine of island `p` changed. -/
def State.modRf (s : State) (p : Nat) (f : Refr → Refr) : State := s.modSlice p fun x => { x with rf := f x.rf }

/-- tFAW leaves room for `n` more activations at CCLK `t` (R247, R457). -/
def BankSet.fawOk (b : BankSet) (n t : Nat) : Bool :=
  match b.faw[4 - n]? with
  | none => true
  | some c => decide (c + b.tfaw ≤ t)

/-- An ACT or REFpb at CCLK `t` that counts as `n` activations for tFAW (R247, R457). -/
def BankSet.didAct (b : BankSet) (n t : Nat) : BankSet :=
  { b with faw := (List.replicate n t ++ b.faw).take 4, okActAny := t + b.trrd }

/-- Every timing rule lets an activation issue to bank `i` at CCLK `t` (R247). -/
def BankSet.actOk (b : BankSet) (i t : Nat) : Bool :=
  decide ((b.bank i).okAct ≤ t) && decide (b.okActAny ≤ t) && b.fawOk 1 t && decide (b.okAny ≤ t)

/-- A PRE may issue to bank `i` (R247). -/
def BankSet.preOk (b : BankSet) (i t : Nat) : Bool := decide ((b.bank i).okPre ≤ t) && decide (b.okAny ≤ t)

/-- A column command may issue to bank `i` (R247). -/
def BankSet.colOk (b : BankSet) (i t : Nat) : Bool :=
  decide ((b.bank i).okCol ≤ t) && decide (b.okCol ≤ t) && decide (b.okAny ≤ t)

/-- ACT of a row (R247). -/
def BankSet.act (b : BankSet) (i row t : Nat) : BankSet :=
  b.modBank i fun x =>
    { x with openRow := some row, fresh := true, okAct := t + b.trc, okPre := max x.okPre (t + b.tras), okCol := t + b.trcd }

/-- PRE (R247). -/
def BankSet.pre (b : BankSet) (i t : Nat) : BankSet :=
  b.modBank i fun x => { x with openRow := none, fresh := false, okAct := max x.okAct (t + b.trp) }

/-- SRX at CCLK `t`: no command goes to the slice before tXS is over (R247). -/
def BankSet.srx (b : BankSet) (t : Nat) : BankSet := { b with okAny := t + b.txs }

/-- The first CCLK from `t` on in which no bank waits for tRP or tRFCpb any more (R247). -/
def BankSet.restAt (b : BankSet) (t : Nat) : Nat := (List.range 32).foldl (fun m i => max m (b.bank i).okAct) t

/-- SRX of slice `p` in the present CCLK (R247). -/
def State.srx (s : State) (p : Nat) : State := s.modBt p fun b => b.srx (s.slice p).sch.cclk

/-- CCLK of the column slot that one column command takes (R203, R247). -/
def State.colGap (s : State) (p : Nat) : Nat :=
  let n := (s.slice p).bt.tccd
  if s.isNarrow p then max n 2 else n

/-- ⌈t / tCK⌉, at least 1, for a time in units of 10 ps (R246). -/
def toCclk (t rate : Nat) : Nat := max 1 ((t + tckOf rate - 1) / tckOf rate)

/-- Memory layer `l` as negotiated. -/
def Stack.layer (k : Stack) (l : Nat) : Layer := Tab.get Layer.reset k.layers l

/-- The stack with memory layer `l` changed. -/
def Stack.modLayer (k : Stack) (l : Nat) (f : Layer → Layer) : Stack :=
  { k with layers := Tab.upd Layer.reset k.layers l f }

/-! ### Refresh (R489 to R506) -/

/-- The band in force: 3 in DET_TIMING (R493). -/
def State.bandOf (s : State) (p : Nat) : Nat :=
  match s.det.mode with
  | .timing => 3
  | _ => (s.slice p).rf.band

/-- The multiplier k of a slice (R489). -/
def State.bandK (s : State) (p : Nat) : Nat := 2 ^ s.bandOf p

/-- Lp and Li (R498). -/
def State.refLimit (s : State) (p : Nat) : Nat := 8 / s.bandK p

/-- Refresh state of bank `i`. -/
def Refr.rb (r : Refr) (i : Nat) : RefBank := Tab.get RefBank.reset r.rbanks i

/-- The engine with bank `i` changed. -/
def Refr.modRb (r : Refr) (i : Nat) (f : RefBank → RefBank) : Refr := { r with rbanks := Tab.upd RefBank.reset r.rbanks i f }

/-- The due accumulator as it stands now, in sixteenths (R494). -/
def State.dueAcc (s : State) (p i : Nat) : Nat :=
  let r := (s.slice p).rf.rb i
  r.acc + 16 * s.bandK p * (s.view p - r.t0)

/-- Settle the accumulators of a slice at its present rate (R492, R494). -/
def State.settleRefresh (s : State) (p : Nat) : State :=
  s.each (List.range 32) fun s i =>
    let a := s.dueAcc p i
    let v := s.view p
    s.modRf p fun r => r.modRb i fun b => { b with acc := a, t0 := v }

/-- The accumulators of a slice take their starting values, with O and P at 0; `fresh` starts the whole engine, with every
pointer at 0 and an empty tracker window (R495, R497, R535). -/
def State.startAccs (s : State) (p : Nat) (fresh : Bool) : State :=
  let v := s.view p
  let thr := fld s.cfg.rdtCtl 0 16
  s.modRf p fun r =>
    { r with rbanks := (List.range 32).foldl (fun t i => Tab.upd RefBank.reset t i fun b =>
      { (if fresh then { RefBank.reset with thr := thr } else b) with acc := 781 * i, t0 := v, owed := 0, pulled := 0 }) r.rbanks }

/-- A slice leaves self-refresh in the present CCLK: tXS runs (R247), O and P of every bank are 0, and the pointer and the due
accumulator, which kept running, continue from their values; the dues that fell in self-refresh are owed to nobody
(R511). -/
def State.srxRefresh (s : State) (p : Nat) : State :=
  (s.each (List.range 32) fun s i =>
    let a := s.dueAcc p i
    let v := s.view p
    s.modRf p fun r => { r.modRb i (fun b => { b with acc := a % 25000, t0 := v, owed := 0, pulled := 0 }) with selfRef := false }).srx p

/-- The refresh of a bank is urgent (R500, R506). -/
def State.refUrgent (s : State) (p i : Nat) : Bool :=
  let o := ((s.slice p).rf.rb i).owed
  match s.det.mode with
  | .timing => decide (0 < o)
  | _ => decide (s.refLimit p < o)

/-- Banks of a list, larger O first and lower number on a tie (R503). -/
def Refr.order (r : Refr) (l : List Nat) : Option Nat :=
  least (fun a b => decide ((r.rb b).owed < (r.rb a).owed)) l

/-- REFpb to bank `i` at CCLK `t`: pointer, O or P, the tracker window when the pointer wraps, and timing (R496, R501,
R516, R519, R535). -/
def State.refpb (s : State) (p i t : Nat) : State :=
  let r := (s.slice p).rf.rb i
  let urgent := s.refUrgent p i
  let pull := r.owed = 0
  let wrap := r.ptr = 8191
  let thr := fld s.cfg.rdtCtl 0 16
  let s1 := s.modRf p fun x => x.modRb i fun b =>
    let b1 := { b with ptr := (b.ptr + 1) % 8192, owed := b.owed - 1, pulled := if pull then b.pulled + 1 else b.pulled }
    if wrap then { b1 with n := 0, fdec := 0, rows := [], thr := thr } else b1
  let s2 := s1.modBt p fun b => (b.didAct 1 t).modBank i fun x =>
    { x with okAct := t + b.trfc, okPre := max x.okPre (t + b.trfc), okCol := max x.okCol (t + b.trfc) }
  let s3 := (s2.sendRow p 3 (i * 2 ^ 4 + r.ptr * 2 ^ 9)).statSlice p 17 1
  if pull then s3.statSlice p 19 1 else if urgent then s3.statSlice p 18 1 else s3

/-! ### The hot-row tracker (R518 to R529) -/

/-- Wmax (R523). -/
def wMax : Nat := 12825000

/-- Spacing S of a hot row: ⌈Wmax / (TD / 2 − H)⌉ (R523). -/
def spacing (td h : Nat) : Nat := if td ≤ 2 * h then 2 * wMax else (2 * wMax + (td - 2 * h) - 1) / (td - 2 * h)

/-- The disturbance threshold of the layer that holds a slice. -/
def State.tdOf (s : State) (p : Nat) : Nat := (s.stk.layer (layerOf p)).td

/-- A row that is hot may not be activated yet (R523). -/
def State.spaced (s : State) (p i row : Nat) : Bool :=
  let r := (s.slice p).rf.rb i
  match r.rows.find? fun x => x.row == row with
  | some x => x.hot && decide (s.view p < x.last + spacing (s.tdOf p) r.thr)
  | none => false

/-- Add a vote of subscriber `k` (R526). -/
def vote (k : Nat) (l : List (Nat × Nat)) : List (Nat × Nat) := Tab.upd 0 l k (· + 1)

/-- The tracker after an activation (R519), with the time of a row's last activation (R523). -/
def RefBank.track (b : RefBank) (row k now : Nat) : RefBank :=
  let b1 := { b with n := b.n + 1 }
  if b.rows.any fun x => x.row == row then
    { b1 with rows := b.rows.map fun x =>
        if x.row = row then { x with c := min (x.c + 1) 65535, votes := vote k x.votes, last := now } else x }
  else if b.rows.length < 256 then { b1 with rows := b.rows ++ [⟨row, 1, vote k [], false, now⟩] }
  else
    { b1 with fdec := b.fdec + 1,
              rows := (b.rows.map fun x => { x with c := x.c - 1 }).filter fun x => x.c != 0 }

/-- The subscriber named by a vote record: the one with more than half of the votes, or one that R526 leaves open
(free value, DESIGN CHOICE, log 5). -/
def namedSub (votes : List (Nat × Nat)) (free : Nat) : Nat :=
  let total := (votes.map (·.2)).sum
  match votes.find? fun v => total < 2 * v.2 with
  | some v => v.1
  | none => (votes.getD (Config.freePick free % votes.length) (0, 0)).1

/-- tREFW of a slice in LTC ticks (R489). -/
def State.trefw (s : State) (p : Nat) : Nat := 12800000 / s.bandK p

/-- A row has become hot: the named subscriber is throttled, the record written (R522, R526 to R529, R305 to R308). -/
def State.becomeHot (s : State) (p i : Nat) (x : HotRow) : State :=
  let k := namedSub x.votes s.sys.free
  let c := (s.stk.chanOf p).getD 0
  let thr := decide (k ≤ 36) && (s.stk.chanOf p).isSome
  let key := k * 128 + c
  let renew := thr && Tab.get 0 s.fab.thrEnd key != 0
  let s1 := (s.nextFree.modRf p fun r => r.modRb i fun b =>
    { b with rows := b.rows.map fun y => if y.row = x.row then { y with hot := true } else y }).statSlice p 21 1
  let s2 := if thr then
      (s1.modFab fun f => { f with thrEnd := Tab.set 0 f.thrEnd key (s.view p + s.trefw p) }).statSlice p 23 1
    else s1
  s2.report p .rdtHot p (k * 2 ^ 26 + i * 2 ^ 21 + x.row * 2 ^ 7 + b2n (!thr) * 2 ^ 6 + b2n renew * 2 ^ 5)

/-- One activation of a row counts in the tracker (R518, R519, R522). -/
def State.track (s : State) (p i row k : Nat) : State :=
  let s1 := s.modRf p fun r => r.modRb i fun b => b.track row k (s.view p)
  let b := (s1.slice p).rf.rb i
  match b.rows.find? fun x => x.row == row with
  | some x => if !x.hot && decide (b.thr ≤ x.c + b.fdec) then s1.becomeHot p i x else s1
  | none => s1

/-! ### Activation meters (R303 to R306) -/

/-- ACT_CIR of a subscriber (R310). -/
def State.actCir (s : State) (k : Nat) : Nat := fld (s.cfg.chsAt k) 17 12

/-- The most activations subscriber `k` may make on channel `c` in this period; none for no limit (R304, R305). -/
def State.actLimit (s : State) (p k c : Nat) : Option Nat :=
  let cir := s.actCir k
  if 36 < k then none
  else if Tab.get 0 s.fab.thrEnd (k * 128 + c) ≠ 0 then
    let base := if cir = 0 then 4 * (s.quota c / (s.slice p).bt.tfaw) else cir
    some (max 1 (base / 8))
  else if cir = 0 then none else some cir

/-- The activation meter allows `n` more activations (R306). -/
def State.actAllowed (s : State) (p k n : Nat) : Bool :=
  match s.stk.chanOf p with
  | none => true
  | some c => match s.actLimit p k c with
    | none => true
    | some m => decide (Tab.get 0 s.fab.actCnt (k * 128 + c) + n ≤ m)

/-- Count `n` activations of subscriber `k` in its activation meter (R303). -/
def State.countActs (s : State) (p k n : Nat) : State :=
  match s.stk.chanOf p with
  | some c => if k ≤ 36 then s.modFab fun f => { f with actCnt := Tab.upd 0 f.actCnt (k * 128 + c) (· + n) } else s
  | none => s

/-- Subscriber an entry's activation is attributed to (R525). -/
def State.actSub (s : State) (w : WinEnt) : Nat :=
  if w.sub = 42 then ((s.fab.entry w.eid).map (·.msub)).getD 42 else w.sub

/-- ACT of one bank: timing, tracker, activation meter, counter (R247, R258, R303, R518). -/
def State.doAct (s : State) (p i row k t : Nat) : State :=
  let s1 := (s.modBt p fun b => (b.act i row t).didAct 1 t).sendRow p 1 (i * 2 ^ 4 + row * 2 ^ 9)
  ((s1.statSlice p 1 1).countActs p k 1).track p i row k

/-- Admission read the stale bit of the access's row as set, and it has not been cleared since (R469, R470). -/
def State.accStale (s : State) (id : Nat) (k : Key) : Bool :=
  match s.fab.entry id with
  | none => false
  | some e => match e.accAt k with
    | none => false
    | some a => a.stale && s.fab.isStale a.chan a.bank a.row

/-- The access of a window entry meets a stale row: one that has not been resealed for it (R466, R473). -/
def State.metStale (s : State) (w : WinEnt) (k : Key) : Bool :=
  s.accStale w.eid k && !w.sealed.contains (keyBank k * 16384 + keyRow k)

/-- STALE_RAW of an entry's region (R470, R471). -/
def State.staleRaw (s : State) (id : Nat) : Bool := ((s.fab.entry id).map fun e => rStaleRaw e.rent).getD false

/-- Work that goes to the arrays outside the row slot opens its row in the bank, unless it is open: the activation is counted,
in the tracker too, for the subscriber of the work (R258, R518, R525). -/
def State.workAct (s : State) (p i row k : Nat) : State :=
  if ((s.slice p).bt.bank i).openRow == some row then s else (s.statSlice p 1 1).track p i row k

/-- Such work waits for the spacing of a hot row that it would activate (R523). -/
def State.workSpaced (s : State) (p i row : Nat) : Bool :=
  ((s.slice p).bt.bank i).openRow != some row && s.spaced p i row

/-- Internal work of slice `p` waits: its channel is held (R244), or an alignment holds admission for every subscriber (R713). -/
def State.workHeld (s : State) (p : Nat) : Bool := (s.slice p).sch.held != 0 || s.fab.hold.contains 3

/-- PRE of one bank (R247). -/
def State.close (s : State) (p i t : Nat) : State := (s.modBt p fun b => b.pre i t).sendRow p 2 (i * 2 ^ 4)

/-- Precharge every open bank of a slice, at the present CCLK of its island. -/
def State.closeAll (s : State) (p : Nat) : State :=
  s.each (List.range 32) fun s b =>
    if ((s.slice p).bt.bank b).openRow.isSome then s.close p b (s.slice p).sch.cclk else s

/-- SRE of a slice: its open banks are precharged, and it goes once none of them waits for tRP or tRFCpb (R247). -/
def State.sre (s : State) (p : Nat) : State :=
  let s1 := s.closeAll p
  s1.modLink p fun l => l.send ((s1.slice p).bt.restAt (s1.slice p).sch.cclk) false (rowHalf 4 0)

/-- Step 1 of R630 is over: every bank is precharged, and tXS after a SRX too (R247). -/
def State.allClosed (s : State) (p : Nat) : Bool :=
  ((List.range 32).all fun i => ((s.slice p).bt.bank i).openRow.isNone) && decide ((s.slice p).bt.okAny ≤ (s.slice p).sch.cclk)

/-- In a held channel the alert is cleared in the first CCLK after step 1 of a full retrain; R630 gives a bound only (DESIGN
CHOICE, log 65). -/
def State.alertCheck (s : State) (p : Nat) : State :=
  if (s.slice p).link.state == .retrain && s.allClosed p then s.modLink p Link.clearAlert else s

/-- PRE of one bank to open another row (R247, R258). -/
def State.doPre (s : State) (p i t : Nat) : State := (s.close p i t).statSlice p 2 1

/-- Count a column command to a row that was open already (R258); the row has now been used. The first column command after
the ACT that opened the row for it is no hit: R258 says 'a row already open', which leaves open when (DESIGN CHOICE, log 54).
-/
def State.countHit (s : State) (p i : Nat) : State :=
  let hit := !((s.slice p).bt.bank i).fresh
  let s1 := s.modBt p fun b => b.modBank i fun x => { x with fresh := false }
  if hit then s1.statSlice p 0 1 else s1

/-! ### Conditions of the island -/

/-- Something uses the island: a logical channel is bound to its slice, a migration or REBIND takes part, or a test runs
on it. The clock of any other island is stopped (R21, R22). -/
def State.islandUsed (s : State) (p : Nat) : Bool :=
  (s.stk.chanOf p).isSome || (s.slice p).rep.testing || s.wrap.bistRun || s.stk.migs.any fun m => m.old == p || m.new == p

/-- The island's clock runs: it is used, and no reset, no Frost, no alignment hold and no thermal stop keeps it (R22, R219,
R578, R713). -/
def State.islandRuns (s : State) (p : Nat) : Bool :=
  s.sys.porN && !s.sys.rstEnd && decide (s.det.align < 2) && (s.sys.phase != .frost) &&
    !(s.slice p).sch.stop && s.islandUsed p

/-- The slice takes commands: it is in service, trained and out of self-refresh. -/
def State.sliceLive (s : State) (p : Nat) : Bool :=
  let x := s.slice p
  s.islandRuns p && x.rep.inServ && !x.rf.selfRef &&
    (match x.link.state with
     | .active | .narrow | .retrain => true
     | .off | .training | .fenced => false)

/-- Class arbitration is called for (R238). -/
def State.wantsClass (s : State) (p : Nat) : Bool :=
  let x := s.slice p
  !s.sys.ready || x.link.state == .training || x.link.state == .retrain || s.migrating p || x.rep.testing ||
    s.wrap.bistRun

end Sys2Proof.Machine
end

