-- ==== Sys2Proof/Machine/BrewOps.lean ====
section
/-! DEFINITION. Brew ops on a channel: op words, in-bank registers and arithmetic, row ops, the launch that runs, and
how a launch stops (R419 to R484). -/

namespace Sys2Proof.Machine

/-! ### Op words (R432 to R437) -/

/-- OPC -/
def opOpc (w : OpWord) : Nat := fld w 0 4
/-- ARGSEL -/
def opArgsel (w : OpWord) : Nat := fld w 4 2
/-- OPD0 -/
def opD0 (w : OpWord) : Nat := fld w 8 16
/-- OPD1 -/
def opD1 (w : OpWord) : Nat := fld w 24 16
/-- OPD2 -/
def opD2 (w : OpWord) : Nat := fld w 40 16
/-- AUX -/
def opAux (w : OpWord) : Nat := fld w 56 8

/-- Row ops (R419). -/
def isRowOp (w : OpWord) : Bool := decide (opOpc w < 6)
/-- MAC_LOAD, MAC_STORE or MAC_STREAM: the ops that access columns. -/
def isMacAcc (w : OpWord) : Bool := opOpc w == 7 || opOpc w == 8 || opOpc w == 9
/-- An op that reads or writes rows of a bank (R460). -/
def touchesRows (w : OpWord) : Bool := isRowOp w || isMacAcc w

/-- Column accesses of an op (R433). -/
def macCount (w : OpWord) : Nat := if opOpc w = 9 then opD1 w + 1 else if isMacAcc w then 1 else 0

/-- Row and column of access `c` of an op whose rows are resolved (R437). -/
def macAt (w : OpWord) (c : Nat) : Nat × Nat :=
  let k := opAux w % 32
  (opD0 w + (k + c) / 32, (k + c) % 32)

/-- The rows that a row op names, each once (R454, R518). -/
def rowsNamed (w : OpWord) : List Nat :=
  match opOpc w with
  | 0 => [opD0 w]
  | 1 => [opD0 w, opD1 w].eraseDups
  | 2 => [opD0 w, opD1 w].eraseDups
  | _ => [opD0 w, opD1 w, opD2 w].eraseDups

/-! ### Arithmetic (R440 to R444) -/

/-- FP32 addition of an exact product to an accumulator (R443): numbers as sign, magnitude and power of two. -/
def macF (a x s : Nat) : Nat :=
  let nan := 0x7FC00000
  let prod : Num := match ieeeNum fmtBf16 x, ieeeNum fmtBf16 s with
    | .nan, _ => .nan
    | _, .nan => .nan
    | .inf p, .inf q => .inf (p != q)
    | .inf p, .fin q m _ => if m = 0 then .nan else .inf (p != q)
    | .fin p m _, .inf q => if m = 0 then .nan else .inf (p != q)
    | .fin p m e, .fin q n f => .fin (p != q) (m * n) (e + f)
  match ieeeNum fmtFp32 a, prod with
  | .nan, _ => nan
  | _, .nan => nan
  | .inf p, .inf q => if p = q then signBit fmtFp32 p + infCode fmtFp32 else nan
  | .inf p, .fin _ _ _ => signBit fmtFp32 p + infCode fmtFp32
  | .fin _ _ _, .inf q => signBit fmtFp32 q + infCode fmtFp32
  | .fin p m e, .fin q n f =>
    if m = 0 && n = 0 then signBit fmtFp32 (p && q)
    else
      let b := min e f
      let u : Int := (if p then -1 else 1) * ((m * 2 ^ (e - b).toNat : Nat) : Int)
      let v : Int := (if q then -1 else 1) * ((n * 2 ^ (f - b).toNat : Nat) : Int)
      let t := u + v
      if t = 0 then 0 else (roundOut fmtFp32 false (decide (t < 0)) t.natAbs b).1

/-- Signed 16-bit value. -/
def s16 (x : Nat) : Int := if x < 2 ^ 15 then (x : Int) else (x : Int) - 2 ^ 16

/-- mac of R443 and R444. -/
def mac (int : Bool) (a x s : Nat) : Nat :=
  if int then ((a : Int) + s16 x * s16 s).emod (2 ^ 32) |>.toNat else macF a x s

/-- In-bank register `r` of bank `b`. -/
def BrewSeq.reg (q : BrewSeq) (b r : Nat) : Line := Tab.get 0 q.regs (b * 8 + r)

/-- The sequencer with a register written. -/
def BrewSeq.setReg (q : BrewSeq) (b r : Nat) (v : Line) : BrewSeq := { q with regs := Tab.set 0 q.regs (b * 8 + r) v }

/-- The sequencer with the registers of `mask` in bank `b` cleared (R445). -/
def BrewSeq.clearRegs (q : BrewSeq) (b mask : Nat) : BrewSeq :=
  (List.range 8).foldl (fun q r => if mask.testBit r then q.setReg b r 0 else q) q

/-- The 32 MACs of one MAC_STREAM access `c` in bank `b` with data `d` (R441, R442). -/
def BrewSeq.macStep (q : BrewSeq) (w : OpWord) (b c : Nat) (d : Line) : BrewSeq :=
  let ctl := opD2 w
  let vacc := ctl % 8
  let opb := ctl / 8 % 8
  let n := ctl / 64 % 8 + 1
  let int := ctl.testBit 9
  let f := c % (32 * n)
  let s := fld (q.reg b (opb + f / 32)) (16 * (f % 32)) 16
  let half (h : Nat) : Line :=
    let a := q.reg b (vacc + h)
    BitVec.ofNat 512 (ofBytes ((List.range 16).flatMap fun e =>
      toBytes 4 (mac int (fld a (32 * e) 32) (fld d (16 * (16 * h + e)) 16) s)))
  (q.setReg b vacc (half 0)).setReg b (vacc + 1) (half 1)

/-! ### Row ops (R422, R433) -/

/-- Symbols of the destination of a row op from those of its sources. -/
def rowFun (opc : Nat) (a b : Code) : Code :=
  match opc with
  | 0 => 0
  | 1 => a
  | 2 => ~~~ a
  | 3 => a ^^^ b
  | 4 => a &&& b
  | _ => a ||| b

/-- A row op in one bank, on the whole stored row (R422). -/
def State.rowOp (s : State) (p bank : Nat) (w : OpWord) : State :=
  s.each (List.range 32) fun s c =>
    s.setCode (keyOf p bank (opD0 w) c)
      (rowFun (opOpc w) (s.code (keyOf p bank (opD1 w) c)) (s.code (keyOf p bank (opD2 w) c)))

/-! ### The launch on a channel -/

/-- Banks of the latched mask. -/
def BrewSeq.banks (q : BrewSeq) : List Nat := setBits q.mask

/-- The launch that runs on island `p` (R450). -/
def State.launchOn (s : State) (p : Nat) : Option Launch :=
  match (s.slice p).brew.cur with
  | none => none
  | some id => s.fab.launches.find? fun l => l.eid == id

/-- Change a launch. -/
def Fab.modLaunch (f : Fab) (id : Nat) (g : Launch → Launch) : Fab :=
  { f with launches := f.launches.map fun l => if l.eid = id then g l else l }

/-- The next op of the queue that has not been read, when it is one of the launch that runs (R64, R450). -/
def BrewSeq.next (q : BrewSeq) : Option OpWord := if q.op.isSome || q.qid[q.rd]? != q.cur then none else q.q[q.rd]?

/-- The words at the front of an op queue that belong to launches the channel has been told to stop are read and released without
running them; words behind others wait for those (R64, R480). -/
def State.purgeOps (s : State) (p : Nat) : State :=
  let q := (s.slice p).brew
  let n := (q.qid.takeWhile fun x => q.gone.contains x).length
  let qid := q.qid.drop n
  (s.modBrew p fun q => { q with q := q.q.drop n, qacc := q.qacc.drop n, qid := qid, gone := q.gone.filter fun x => qid.contains x }).icqRelease
    2 p (2 * n)

/-- The ops of a launch in an op queue are no longer run: their words leave the queue in their turn (R64, R449, R480). -/
def State.dropOps (s : State) (p id : Nat) : State := (s.modBrew p fun q => { q with gone := insertNat id q.gone }).purgeOps p

/-- The words of the next op can be read: in DET_TIMING the newest ones are still on their way (R51, R81). An op takes two
words. -/
def State.brewSeen (s : State) (p : Nat) : Bool :=
  let q := (s.slice p).brew
  decide (2 * (q.rd + 1) ≤ 2 * q.q.length - s.icqLate 2 p)

/-- Every bank of the launch is precharged. -/
def State.brewClosed (s : State) (p : Nat) : Bool :=
  (s.slice p).brew.banks.all fun b => ((s.slice p).bt.bank b).openRow == none

/-- Every bank of the launch has the row open. -/
def State.brewOpen (s : State) (p row : Nat) : Bool :=
  (s.slice p).brew.banks.all fun b => ((s.slice p).bt.bank b).openRow == some row

/-- Precharge the open banks of the launch at CCLK `t`. -/
def State.brewPre (s : State) (p t : Nat) : State :=
  (s.each (s.slice p).brew.banks fun s b =>
    if ((s.slice p).bt.bank b).openRow.isSome then s.modBt p fun x => x.pre b t else s).sendRow p 2 bcBit

/-- Timing lets every open bank of the launch be precharged. -/
def State.brewPreOk (s : State) (p t : Nat) : Bool :=
  (s.slice p).brew.banks.all fun b => ((s.slice p).bt.bank b).openRow == none || (s.slice p).bt.preOk b t

/-- Put the launch's banks on loan, or return them (R459). -/
def State.setLoan (s : State) (p : Nat) (v : Bool) : State :=
  s.each (s.slice p).brew.banks fun s b => s.modBt p fun x => x.modBank b fun y => { y with loan := v }

/-- Banks counted by tFAW for a row command of a launch: four when it is broadcast (R457). -/
def fawWeight (n : Nat) : Nat := if n ≤ 1 then 1 else 4

/-- An activation of the launch's banks may issue at CCLK `t`: timing, spacing of the rows, activation meter (R306,
R454, R457, R523). -/
def State.brewActOk (s : State) (p t k : Nat) (rows : List Nat) : Bool :=
  let bs := (s.slice p).brew.banks
  let b := (s.slice p).bt
  (bs.all fun i => decide ((b.bank i).okAct ≤ t) && !(rows.any fun r => s.spaced p i r)) && decide (b.okActAny ≤ t) &&
    decide (b.okAny ≤ t) && b.fawOk (fawWeight bs.length) t && s.actAllowed p k bs.length

/-- Count a broadcast activation: tFAW and tRRD, activation meter, and the tracker for every row named (R454, R457,
R518). -/
def State.brewCount (s : State) (p t k : Nat) (rows : List Nat) : State :=
  let bs := (s.slice p).brew.banks
  let s1 := (s.modBt p fun b => b.didAct (fawWeight bs.length) t).countActs p k bs.length
  s1.each bs fun s i => s.each rows fun s r => s.track p i r k

/-- Late charge of a launch's BREW meter (R263, R267). -/
def State.brewCharge (s : State) (l : Launch) (bytes : Nat) : State := s.lateCharge l.port 4 bytes

/-- Count brew work in Bo on a channel under the thermal budget (R453). -/
def State.brewHeat (s : State) (p n : Nat) : State :=
  match s.stk.chanOf p with
  | some c => if s.fab.thOn.contains c then s.modFab fun f => { f with thO := Tab.upd 0 f.thO c (· + n) } else s
  | none => s

/-- The thermal budget lets brew work go on (R453). -/
def State.brewCool (s : State) (p : Nat) : Bool :=
  match s.stk.chanOf p with
  | some c =>
    if s.fab.thOn.contains c then
      decide (Tab.get 0 s.fab.thL c + Tab.get 0 s.fab.thO c < s.quota c * s.fab.thF / 256)
    else true
  | none => true

/-- Entries for a bank that admission accepted before the op was written (R460). -/
def State.opHeld (s : State) (p bank mark : Nat) : Bool :=
  let x := s.slice p
  ((x.sch.window ++ x.sch.narrowSlot ++ x.sch.waiting).any fun w =>
      decide (w.adm < mark) && w.keys.any fun k => keyBank k == bank && keyPs k == p) ||
    ((x.dat.wb ++ x.dat.fow ++ x.dat.corr).any fun w => w.bank == bank && decide (w.ix < mark)) ||
    x.dat.lines.any fun l => l.bank == bank && l.out.any fun i => decide (i < mark)

/-- The next op may start as far as R460 goes. -/
def State.opFree (s : State) (p : Nat) (w : OpWord) : Bool :=
  let q := (s.slice p).brew
  !touchesRows w || !(q.banks.any fun b => s.opHeld p b (q.qacc.getD q.rd 0))

/-! ### Ending on a channel -/

/-- A launch ends on a channel: the banks return, its words left in the op queue are released, the channel is free for the next
launch (R449, R450, R480). -/
def State.brewLeave (s : State) (p : Nat) : State :=
  let s1 := s.setLoan p false
  (match (s.slice p).brew.cur with
   | some id => s1.dropOps p id
   | none => s1).modBrew p fun q =>
    { q with cur := none, rd := 0, op := none, prog := 0, seg := 0, endAt := 0, stopped := false, stopOpen := false, stopWhy := 0,
             ops := 0, killed := false }

/-! ### Control words that cross a queue (R15, R80, R81) -/

/-- The consumer reads a control word of class 1, 3 or 7. -/
def State.noteWord (s : State) (w : CtlWord) : State :=
  match w with
  | .hold p => s.modSch p fun x => { x with held := x.held + 1 }
  | .free p => s.modSch p fun x => { x with held := x.held - 1 }
  | .admHold c => s.modFab fun f => { f with hold := insertNat c f.hold }
  | .admFree c => s.modFab fun f => { f with hold := f.hold.filter fun x => x != c }
  | .commit id c => s.modFab fun f => f.modLaunch id fun l => { l with commits := insertNat c l.commits }
  | .stopped id c => s.modFab fun f => f.modLaunch id fun l => { l with stopped := insertNat c l.stopped }
  | .stop _ _ => s

/-- A control word is written into queue (q, i). Its consumer reads it at once, and does `take`, or reads it later in DET_TIMING
(R15, R81). -/
def State.sendWord (s : State) (q i : Nat) (w : CtlWord) (take : State → State) : State :=
  let due := s.icqSeen q i
  let s1 := s.icqPass q i
  if due ≤ s.sys.ltc then take s1 else s1.modCtl fun c => { c with words := c.words ++ [⟨q, i, due, w⟩] }

/-- A control word of class 1, 3 or 7 is sent. -/
def State.tell (s : State) (q i : Nat) (w : CtlWord) : State := s.sendWord q i w fun s => s.noteWord w

/-- A word of this kind is on its way. -/
def State.onWay (s : State) (w : CtlWord) : Bool := s.ctl.words.any fun x => x.what == w

/-- The channel of island `p` has ended the launch that runs there, and reports it in class 1 (R449, R480). -/
def State.brewStopped (s : State) (p : Nat) : State :=
  match (s.slice p).brew.cur, s.stk.chanOf p with
  | some id, some c => (s.tell 1 p (.stopped id c)).brewLeave p
  | _, _ => s.brewLeave p

/-- Island `p` reads the word that stops a launch on channel `c`: it stops at once with no op in progress, else at the end of
a row op or at the next preemption point; one that has not started there never starts, and its words are released (R480,
R482). -/
def State.stopOn (s : State) (p id c : Nat) : State :=
  let q := (s.slice p).brew
  if q.cur = some id then
    if q.op.isNone || q.stopped then s.brewStopped p else s.modBrew p fun q => { q with killed := true }
  else if (s.fab.launches.any fun l => l.eid == id && l.endedOn c) || s.onWay (.commit id c) || s.onWay (.stopped id c) then s
  else (s.dropOps p id).tell 1 p (.stopped id c)

/-- The consumer of queue (q, `i`) reads a control word. -/
def State.takeWord (s : State) (i : Nat) (w : CtlWord) : State :=
  match w with
  | .stop id c => s.stopOn i id c
  | .hold _ | .free _ | .admHold _ | .admFree _ | .commit _ _ | .stopped _ _ => s.noteWord w

/-- The words that have crossed are read, in the order in which they were sent (R81). -/
def State.readWords (s : State) : State :=
  let seen (x : CtlSent) : Bool := decide (x.due ≤ s.sys.ltc)
  (s.modCtl fun c => { c with words := c.words.filter fun x => !seen x }).each (s.ctl.words.filter seen) fun s x => s.takeWord x.i x.what

/-- Row of the table of R482 that a status stands in, the first row highest; a launch that reached its commit point first
keeps OK. -/
def endRow : RspStatus → Nat
  | .ok => 5
  | .thermstop => 4
  | .fault => 3
  | .fenced => 2
  | .aborted => 1
  | .badreq | .perm | .ue | .stale | .decerr | .window => 0

/-- The status of a launch on which two events of the table of R482 fall: that of the earlier row (DEDUCED, log 60). -/
def endStatus (old new : RspStatus) : RspStatus := if endRow old < endRow new then new else old

/-- Tell every selected channel on which a launch has not ended to stop it as for an abort, in a word of class 2 that the
channel reads when it has crossed, whatever ops wait in the queue (R480, R482; DESIGN CHOICE, log 55). A launch that is being
stopped already only takes the status of the earlier row of R482. -/
def State.killLaunch (s : State) (id : Nat) (st : RspStatus) : State :=
  match s.fab.launches.find? fun l => l.eid == id with
  | none => s
  | some l =>
    if l.why.isSome then s.modFab fun f => f.modLaunch id fun l => { l with why := l.why.map fun w => endStatus w st }
    else
      let s1 := s.modFab fun f => f.modLaunch id fun l => { l with why := some st, doneDisp := true }
      s1.each (l.chans.filter fun c => !l.commits.contains c) fun s c =>
        let p := (s.stk.remapAt c).ps
        s.sendWord 2 p (.stop id c) fun s => s.stopOn p id c

end Sys2Proof.Machine
end

