-- ==== Sys2Proof/Machine/IcqOps.lean ====
section
/-! DEFINITION. Island-crossing queues: pointer upsets and queue resets (R69 to R83). -/

namespace Sys2Proof.Machine

/-- The queue exists (R80). -/
def icqExists (q i : Nat) : Bool := if q < 5 then decide (i < 144) else if q = 7 then decide (i < 2) else i == 0

/-- Take what a tracker entry still has to do out of the queues of the fabric and out of the windows. Words in crossing queues
stay, with the read halves and miss reads that they wait for (R75): a write that completes with FAULT still changes the accesses
whose words have reached a channel, and no others (R76 leaves it open: DESIGN CHOICE, log 55). -/
def State.dropWork (s : State) (id : Nat) : State :=
  let s1 := s.modFab fun f =>
    { f with mq := f.mq.filter fun q => q.eid != id, cq := f.cq.filter fun x => x.eid != id, fq := f.fq.filter fun x => x != id }
  let w (l : List WinEnt) : List WinEnt := l.filter fun x => x.eid != id || x.use == .rmw || x.use == .accMiss
  { s1 with slices := Tab.mapVals Slice.reset (fun _ x =>
      { x with sch := { x.sch with window := w x.sch.window, narrowSlot := w x.sch.narrowSlot, waiting := w x.sch.waiting } }) s1.slices }

/-- Scrub reads and checks of a slice that have not issued are dropped (R675, R678). -/
def State.dropScrubs (s : State) (p : Nat) : State :=
  let ids := (s.fab.trk.filter fun e => e.kind == .scrub && (e.accs.any fun a => a.ps == p) &&
    !((s.slice p).sch.flight.any fun f => f.eid == e.id)).map (·.id)
  s.each ids fun s id => (s.dropWork id).freeEntry id

/-- A tracker entry completes with FAULT at its port; an internal subscriber receives the same status (R74, R77, R482). -/
def State.faultEntry (s : State) (id : Nat) : State :=
  match s.fab.entry id with
  | none => s
  | some e =>
    let s1 := s.dropWork id
    match e.kind with
    | .scrub => s1.freeEntry id
    | .gatherList | .gatherPage => (s1.modEntry id fun x => x.stopAll .fault).settleGather id
    | .brewLaunch => s1.killLaunch id .fault
    | .rd | .wr | .wrPartial | .acc | .fence | .gather | .brewAbort | .writeBulk | .accBulk | .readBulk | .copy | .digestRec
    | .ctxWrite | .resealWork | .digestWork =>
      (s1.modEntry id fun x => if x.fin.isSome then x else x.stopAll .fault).decideEntry id .fault eOk

/-- The detail word of R79. -/
def icqDetail (cause q i lost bound : Nat) : Nat :=
  cause * 2 ^ 28 + q * 2 ^ 24 + i * 2 ^ 16 + min 255 lost * 2 ^ 8 + min 255 bound

/-! ### What a queue holds (R47, R48, R61, R73) -/

/-- The end of an access of a bulk transfer is on its way from the fabric to the landing port (class 6, R80, R81). -/
def State.onLanding (s : State) (e : Entry) (a : Acc) : Bool :=
  e.sub == 36 && a.st.isSome && decide (a.vis ≤ s.sys.ltc) && decide (s.sys.ltc < a.vis + s.crossTime 6)

/-- Bits of each pointer of a queue of class `q`: p + 1 for a depth of 2 ^ p (R47). -/
def icqBits (q : Nat) : Nat := (((List.range 9).find? fun p => icqDeep q (2 ^ p)).getD 8) + 1

/-- The words of queue (q, i) that cross in DET_TIMING and are held nowhere but on their way: control words, ended accesses and
internal work, descriptors and inbound beats, ends that the landing port has not seen (R81). -/
def State.icqAway (s : State) (q i : Nat) : Nat :=
  let now := s.sys.ltc
  let ctl := (s.ctl.words.filter fun x => x.q == q && x.i == i && decide (now < x.due)).length
  ctl + match q with
  | 1 => (s.fab.trk.map fun e => (e.accs.filter fun a => a.ps == i && a.st.isSome && decide (now < a.vis)).length).sum
  | 5 => (s.blp.dq.filter fun d => decide (now < d.vis)).length + (s.blp.late.filter fun x => decide (now < x.2)).length
  | 6 => (s.fab.trk.map fun e => (e.accs.filter fun a => s.onLanding e a).length).sum + (s.blp.flight.filter fun d => decide (now < d.vis)).length
  | 7 => if i = 0 then (s.fab.trk.filter fun e => decide (now < e.vis)).length else (s.evt.cross.filter fun x => x.ps == 144).length
  | _ => 0

/-- Words of queue (q, i) from its release pointer to its write pointer (R61). An op is two words. Outside DET_TIMING the words of
classes 1, 3 and 5 to 8 cross within one step (log 12). -/
def State.icqOcc (s : State) (q i : Nat) : Nat :=
  s.icqAway q i + match q with
  | 0 => (s.slice i).words0
  | 2 => 2 * (s.slice i).brew.q.length
  | 4 => (s.evt.cross.filter fun x => x.ps == i).length
  | 9 => s.evt.recs.length
  | _ => 0

/-- Pointer `k` of queue (q, i): 0 write, 1 read, 2 mark, 3 release, each p + 1 bits wide (R47). In the HELD queues the read
pointer is ahead of the release pointer by what has been read, and the mark by what was marked (R64). -/
def State.icqPtr (s : State) (q i k : Nat) : Nat :=
  let m := 2 ^ icqBits q
  let wr := (if q = 9 then s.evt.wr else (s.icq q i).wr) % m
  let rel := (wr + m - s.icqOcc q i % m) % m
  let rd := if q = 9 then s.evt.rd else if q = 2 then 2 * (s.slice i).brew.rd else 0
  let mark := if q = 9 then s.evt.mark else 0
  match k with
  | 0 => wr
  | 1 => (rel + rd) % m
  | 2 => (rel + mark) % m
  | _ => rel

/-- Launches that a control word names. -/
def CtlWord.launches : CtlWord → List Nat
  | .stop id _ | .commit id _ | .stopped id _ => [id]
  | .hold _ | .free _ | .admHold _ | .admFree _ => []

/-- Tracker entries bound to queue (q, i) by the words it holds: those with a word in a class 0 queue; ended accesses on their
way in class 1; the launches with ops in an op queue, or that a control word names; descriptors in flight with a beat on its
way in class 5, or an end on its way in class 6; internal work on its way in class 7 (R73). -/
def State.icqBound (s : State) (q i : Nat) : List Nat :=
  let x := s.slice i
  let now := s.sys.ltc
  let named := ((s.ctl.words.filter fun y => y.q == q && y.i == i).map fun y => y.what.launches).flatten
  let here := match q with
  | 0 => x.dat.fcq.map (·.eid) ++ x.readWords.map (·.eid)
  | 1 => (s.fab.trk.filter fun e => e.accs.any fun a => a.ps == i && a.st.isSome && decide (now < a.vis)).map (·.id)
  | 2 => x.brew.qid
  | 5 => (s.blp.flight.filter fun d => s.blp.late.any fun y => y.1 == d.ord && decide (now < y.2)).map (·.eid)
  | 6 => (s.fab.trk.filter fun e => e.accs.any (s.onLanding e)).map (·.id) ++
      (s.blp.flight.filter fun d => decide (now < d.vis)).map (·.eid)
  | 7 => if i = 0 then (s.fab.trk.filter fun e => decide (now < e.vis)).map (·.id) else []
  | _ => []
  (named ++ here).eraseDups

/-- Outside DET_TIMING, an entry that may have words in a queue whose words the model does not hold: one with an ended access
of the slice in class 1, one of the BLP in classes 5 and 6, one of a subscriber of the management island in class 7 (R73, log
55). -/
def State.icqMay (s : State) (q i id : Nat) : Bool :=
  s.crossTime q == 0 && match s.fab.entry id with
  | none => false
  | some e => match q with
    | 1 => e.fin.isNone && e.accs.any fun a => a.ps == i && a.st.isSome
    | 5 | 6 => e.sub == 36
    | 7 => decide (43 ≤ e.sub) || e.sub == 40 || e.sub == 41
    | _ => false

/-! ### Reset (R74 to R79, R83) -/

/-- The landing port's descriptors that have not been admitted and lose a word, the descriptor itself or a beat, are gone,
with the beats that they are still owed; those in flight have a tracker entry, which says how they end (R73, R74; DESIGN
CHOICE, log 61). -/
def Blp.loseWords (b : Blp) (now : Nat) : Blp :=
  let gone := (b.dq.filter fun d => decide (now < d.vis) || b.late.any fun x => x.1 == d.ord && decide (now < x.2)).map (·.ord)
  { b with dq := b.dq.filter fun d => !gone.contains d.ord
           idat := b.idat.filter fun x => !gone.contains x.1
           owed := b.owed.map fun o => if gone.contains o.ord then { o with drop := true } else o
           late := b.late.filter fun x => decide (x.2 ≤ now)
           descCrd := b.descCrd + gone.length }

/-- Steps 1 to 3 of R74: the words are discarded, the pointers cleared in both copies, the credits return. `lost` words are
discarded in all. The words of an op in progress have been read: with the others they are gone, and its end frees none. -/
def State.clearQueue (s : State) (q i lost : Nat) : State :=
  let s0 := s.modIcq q i fun x =>
    { x.emptied with lost := min 255 lost }
  let s1 := s0.modCtl fun c => { c with words := c.words.filter fun x => !(x.q == q && x.i == i) }
  match q with
  | 0 =>
    let lost (w : WinEnt) : Bool := w.word || (w.qix != 0 && (s.slice i).dat.fcq.any fun x => decide (x.ix < w.qix))
    s1.modSlice i fun x =>
      { x with dat := { x.dat with fcq := [] },
               sch := { x.sch with window := x.sch.window.filter fun w => !lost w,
                                   narrowSlot := x.sch.narrowSlot.filter fun w => !lost w } }
  | 2 => s1.modBrew i fun b => { b with q := [], qacc := [], qid := [], rd := 0, gone := [] }
  | 4 => { s1 with evt := { s1.evt with cross := s1.evt.cross.filter fun x => x.ps != i } }
  | 5 => s1.modBlp fun b => b.loseWords s.sys.ltc
  | 6 => s1.modBlp fun b => { b with flight := b.flight.map fun d =>
      if s.sys.ltc < d.vis then { d with fin := some ⟨.fault, eOk⟩, vis := 0 } else d }
  | 7 => if i = 1 then { s1 with evt := { s1.evt with cross := s1.evt.cross.filter fun x => x.ps != 144 } } else s1
  | 9 => { s1 with evt := { s1.evt with recs := [], rd := 0, mark := 0, wr := 0, late := [], freed := [] } }
  | _ => s1

/-- A queue is reset in the order of R74: its words are lost, the entries bound to it complete with FAULT, and ICQ_RESET is
recorded. The class's counter counts (R78); the sticky bit of an overrun or underrun is set (R57, R59). A reset op queue ends the
launch of its island (R482); a reset event log loses its records, and those of the reset itself come after (R79). `words` and
`bound` add what a queue holds whose words the model does not hold, which in DET_TIMING are those of class 8 only. -/
def State.resetQueue (s : State) (q i cause words : Nat) (bound : List Nat) : State :=
  let more := bound.filter (s.icqMay q i)
  let ids := (s.icqBound q i ++ more).eraseDups.filter fun id => s.fab.trk.any fun e => e.id == id
  let lost := s.icqOcc q i + (if q = 0 || q = 2 || q = 4 || q = 9 || (q != 8 && s.crossTime q != 0) then 0 else words)
  let s1 := (s.clearQueue q i lost).modIcq q i fun x => { x with ovr := x.ovr || cause == 3, und := x.und || cause == 4 }
  let s2 := (s1.detBreak 1).errCount 0x320 (16 + q) 1
  (s2.each ids State.faultEntry).event .icqReset 0 (icqDetail cause q i lost ids.length)

/-! ### Writes into class 0 (R50, R56 to R58, R237) -/

/-- A write or accumulation is written into the fabric-to-channel queue of slice `p`. While the full flag is asserted the word is
not stored, the overrun bit sets, and the queue is reset (R56 to R58); the overrun is recorded, with 0 in LOST and BOUND, which
R79 gives no value before the reset has discarded or faulted anything (DESIGN CHOICE, log 61). The access whose word was refused
gets no end of its own: it ends with FAULT where another word binds its entry to the queue, and else stays in the tracker (R58 and
R73 give it none: DESIGN CHOICE, log 61). -/
def State.pushItem (s : State) (p : Nat) (x : WrItem) : State :=
  if s.icqFull 0 p (s.icqOcc 0 p) then
    (s.event .icqOverrun 0 (icqDetail 3 0 p 0 0)).resetQueue 0 p 3 0 []
  else (s.modDat p fun d => { d with fcq := d.fcq ++ [{ x with ix := d.nextIx }], nextIx := d.nextIx + 1 }).icqWrite 0 p

/-- Queue a piece's writes or accumulations in the fabric-to-channel queue of slice `p` (R237, R396). A write access
with no enabled byte ends here: it is not written and not read (R99). -/
def State.queueWrites (s : State) (p : Nat) (x : Piece) : State :=
  let rmw := s.rmwKeys x
  let idle := match x.write with
    | .write => x.keys.filter fun k => (s.writeAt x.eid k).2 == 0
    | _ => []
  let items := (x.keys.filter fun k => !idle.contains k).map fun k => s.mkItem x rmw 0 k
  (s.each items fun s y => s.pushItem p y).each idle fun s k => s.endAccess x.eid k .ok 0

/-! ### Pointer comparison (R69 to R72) -/

/-- The flips of an upset that fall on a bit that a pointer of class `q` has: its p + 1 bits, and the parity bit, bit 9 of the
operand (R47, R69). -/
def icqFlips (q : Nat) (flips : BitVec 10) : Nat := flips.toNat % 2 ^ icqBits q + flips.toNat / 2 ^ 9 * 2 ^ 9

/-- A copy is intact: its parity bit, bit 9, fits its other bits. `flips` are the bits in which it differs from what was last
written into it (R70). -/
def intact (flips : Nat) : Bool := ((List.range 10).filter fun b => flips.testBit b).length % 2 == 0

/-- The comparison of the two copies of pointer `k` (R71, R72): the one intact copy is written over the other, which is
counted; two intact copies that differ, or no intact copy, reset the queue. Flips that the parity of an intact copy does not
show and that this comparison does not find stay unseen; the pointer is then taken as it was (DESIGN CHOICE, log 55). -/
def State.comparePtr (s : State) (q i k words : Nat) (bound : List Nat) : State :=
  let a := Tab.get 0 (s.icq q i).dmgA k
  let b := Tab.get 0 (s.icq q i).dmgB k
  let good := if intact a then a else b
  if intact a != intact b then
    (s.modIcq q i fun x => { x with dmgA := Tab.set 0 x.dmgA k good, dmgB := Tab.set 0 x.dmgB k good }).stat 0x320 (32 + q) 1
  else if intact a && a == b then s
  else s.resetQueue q i (if intact a then 1 else 2) words bound

/-- ICQ_PTR_UPSET (R69 to R72): bits of the two copies of a pointer flip, and the copies are compared. -/
def execIcqPtrUpset (u : IcqUpset) (s : State) : Res :=
  .next <|
    let q := u.qclass.val
    let i := u.qindex.val
    let k := u.ptr.val
    if !s.sys.porN || !icqExists q i then s
    else
      let s1 := s.modIcq q i fun x =>
        { x with dmgA := Tab.upd 0 x.dmgA k (· ^^^ icqFlips q u.flipA), dmgB := Tab.upd 0 x.dmgB k (· ^^^ icqFlips q u.flipB) }
      s1.comparePtr q i k u.words u.bound

end Sys2Proof.Machine
end

