-- ==== Sys2Proof/Machine/Ports.lean ====
section
/-! DEFINITION. Commands at the port inputs: request words, descriptors, data beats and returned credits (R84 to
R101, R143 to R149). -/

namespace Sys2Proof.Machine

/-- RD (R93): the port accepts the request word. -/
def execRd (port : Fin 36) (r : Request) (s : State) : Res := .next (s.acceptReq port.val 0 r)

/-- WR (R93): the port accepts the request word. -/
def execWr (port : Fin 36) (r : Request) (s : State) : Res := .next (s.acceptReq port.val 1 r)

/-- WR_PARTIAL (R99): the port accepts the request word. -/
def execWrPartial (port : Fin 36) (r : Request) (s : State) : Res := .next (s.acceptReq port.val 2 r)

/-- ACC (R96): the tile port accepts the request word. -/
def execAcc (port : Fin 32) (r : Request) (s : State) : Res := .next (s.acceptReq port.val 3 r)

/-- FENCE (R129): the port accepts the request word. -/
def execFence (port : Fin 36) (r : Request) (s : State) : Res := .next (s.acceptReq port.val 4 r)

/-- GATHER (R353): the tile port accepts the request word, which owes one descriptor beat. -/
def execGather (port : Fin 32) (r : Request) (s : State) : Res := .next (s.acceptReq port.val 5 r)

/-- BREW_LAUNCH (R446): the tile port accepts the request word, which owes one descriptor beat. -/
def execBrewLaunch (port : Fin 32) (r : Request) (s : State) : Res := .next (s.acceptReq port.val 6 r)

/-- BREW_ABORT (R479): the tile port accepts the request word; admission decides whether it takes effect. -/
def execBrewAbort (port : Fin 32) (r : Request) (s : State) : Res := .next (s.acceptReq port.val 7 r)

/-- A word whose TYPE the port does not accept, or a reserved TYPE; any other TYPE is the row of its own kind. -/
def unsupportedType (port typ : Nat) : Bool := decide (8 ≤ typ) || (!isTile port && (typ == 3 || typ == 5 || typ == 6 || typ == 7))

/-- UNSUPPORTED_TYPE_REQUEST (R107): the port accepts the word; admission rejects it at check 2. -/
def execUnsupportedTypeRequest (port : Fin 36) (typ : BitVec 4) (r : Request) (s : State) : Res :=
  .next (if unsupportedType port.val typ.toNat then s.acceptReq port.val typ.toNat r else s)

/-- The BLP accepts a descriptor: it takes a credit and its place in acceptance order; OP 0 and 1 owe ⌈LEN / 64⌉
inbound beats (R144, R148). -/
def State.acceptDesc (s : State) (op : Nat) (d : Desc) : State :=
  if !s.portsLive || s.isMasked 36 then s
  else if s.blp.descCrd = 0 then s.protoError 36 1
  else
    let n := if op < 2 then (d.len.toNat + 63) / 64 else 0
    (s.icqPass 5 0).modBlp fun b =>
      { b with descCrd := b.descCrd - 1,
               dq := b.dq ++ [⟨op, d, s.fabView, b.nextOrd, s.icqSeen 5 0⟩],
               nextOrd := b.nextOrd + 1,
               owed := if n = 0 then b.owed else b.owed ++ [⟨b.nextOrd, n, false⟩] }

/-- WRITE_BULK (R148): the BLP accepts the descriptor. -/
def execWriteBulk (d : Desc) (s : State) : Res := .next (s.acceptDesc 0 d)

/-- ACC_BULK (R417): the BLP accepts the descriptor. -/
def execAccBulk (d : Desc) (s : State) : Res := .next (s.acceptDesc 1 d)

/-- READ_BULK (R155): the BLP accepts the descriptor. -/
def execReadBulk (d : Desc) (s : State) : Res := .next (s.acceptDesc 2 d)

/-- RESERVED_OP_DESCRIPTOR (R149): the BLP accepts the descriptor, which owes no beat; admission rejects it. -/
def execReservedOpDescriptor (d : Desc) (s : State) : Res := .next (s.acceptDesc 3 d)

/-- The beat as the port's width takes it: a narrow port carries 32 B (R104). -/
def portBeat (k : Nat) (data : BitVec 1024) (be : BitVec 128) : WBeat :=
  if isTile k then ⟨data, be⟩ else ⟨BitVec.ofNat 1024 (data.toNat % 2 ^ 256), BitVec.ofNat 128 (be.toNat % 2 ^ 32)⟩

/-- WRITE_DATA_BEAT (R97): the beat goes to the oldest accepted request that is owed beats; its credit comes back
when it leaves the data queue (R89). -/
def execWriteDataBeat (port : Fin 36) (data : BitVec 1024) (be : BitVec 128) (s : State) : Res :=
  .next <|
    if !s.portsLive || s.isMasked port.val then s
    else if (s.port port.val).wdCrd = 0 then s.protoError port.val 1
    else
      let s1 := (s.modPort port.val fun p => { p with early := p.early ++ [portBeat port.val data be] }).bindPort port.val
      (s1.each ((s1.fab.trk.filter fun e => e.sub == port.val).map (·.id)) State.feedTaken).feedGhosts

/-- The oldest owed descriptor gets one beat: what stays owed, and the number of the one that keeps the beat. -/
def takeOwed : List Owed → List Owed × Option Nat
  | [] => ([], none)
  | o :: os =>
    ((if o.left ≤ 1 then os else { o with left := o.left - 1 } :: os), if o.drop then none else some o.ord)

/-- In DET_TIMING the fabric reads an inbound beat out of the crossing queue at a later LTC value `t` (R81). -/
def State.beatLate (s : State) (ord t : Nat) : State :=
  if t ≤ s.sys.ltc then s
  else s.modBlp fun b => { b with late := (b.late.filter fun x => decide (s.sys.ltc < x.2)) ++ [(ord, t)] }

/-- INBOUND_DATA_BEAT (R148): the beat goes to the oldest descriptor that is owed beats (R149), or, when that one has ended before
its data came, to what its digest still needs of it (R143). A beat that no descriptor owes is dropped. -/
def execInboundDataBeat (data : BitVec 512) (s : State) : Res :=
  .next <|
    if !s.portsLive || s.isMasked 36 then s
    else if s.blp.idataCrd = 0 then s.protoError 36 1
    else
      let r := takeOwed s.blp.owed
      let s1 := (s.modBlp fun b => { b with owed := r.1 }).icqPass 5 0
      match r.2 with
      | none => s1
      | some o => match s.fab.trk.find? fun e => e.sub == 36 && e.ord == o with
        | none =>
          if s.fab.ghost.any fun e => e.sub == 36 && e.ord == o then
            (s1.modFab fun f => { f with ghost := giveBeat 36 (o, ⟨data.setWidth 1024, 0⟩) f.ghost }).feedGhosts
          else (s1.modBlp fun b => { b with idat := b.idat ++ [(o, data)] }).beatLate o (s.icqSeen 5 0)
        | some e =>
          ((s1.modEntry e.id fun e => { e with wdat := e.wdat ++ [⟨data.setWidth 1024, 0⟩] }).beatLate o (s.icqSeen 5 0)).feedTaken e.id

/-- RSP_CRD (R87): the requester grants or returns a response credit; both are the same pulse, so the total granted (R113) is
taken as the most credits held at once since they restarted (DESIGN CHOICE, log 56). -/
def execRspCrd (port : Fin 36) (s : State) : Res :=
  .next <| if !s.portsLive || s.isMasked port.val then s
    else s.modPort port.val fun p => { p with rspCrd := p.rspCrd + 1, rspGrant := max p.rspGrant (p.rspCrd + 1) }

/-- ODATA_CRD (R87): the network engine returns an outbound-data credit. -/
def execOdataCrd (s : State) : Res :=
  .next <| if !s.portsLive || s.isMasked 36 then s else s.modBlp fun b => { b with odataCrd := b.odataCrd + 1 }

/-- CPL_CRD (R87): the network engine returns a completion credit. -/
def execCplCrd (s : State) : Res :=
  .next <| if !s.portsLive || s.isMasked 36 then s else s.modBlp fun b => { b with cplCrd := b.cplCrd + 1 }

end Sys2Proof.Machine
end

