-- ==== Sys2Proof/Machine/Prog.lean ====
section
/-! DEFINITION. Brew programs: the available op set, the conditions a program meets, loops, and the rows that its
operands name (R419 to R439, R447). -/

namespace Sys2Proof.Machine

/-- Layers not fenced at negotiation. -/
def Stack.openLayers (k : Stack) : List Nat := (List.range 16).filter fun l => !(k.layer l).fenced

/-- The row-op class is available (R419, R420): no layer reports a row-op duration above 80 ns. -/
def Stack.rowClass (k : Stack) : Bool :=
  k.feats.testBit 0 && k.openLayers.all fun l => ((k.layer l).tims.drop 15).all fun t => decide (t ≤ 8000)

/-- The MAC class is available (R419). -/
def Stack.macClass (k : Stack) : Bool := k.feats.testBit 1

/-- The brew width (R421). -/
def Stack.brewWidth (k : Stack) : Nat := if k.feats.testBit 2 then 8 else 1

/-- Row operands of an op word (R433). -/
def rowOperands (w : OpWord) : List Nat :=
  match opOpc w with
  | 0 => [opD0 w]
  | 1 | 2 => [opD0 w, opD1 w]
  | 3 | 4 | 5 => [opD0 w, opD1 w, opD2 w]
  | 7 | 8 | 9 => [opD0 w]
  | _ => []

/-- Condition 2 of R429: fields an op does not use, and reserved fields, are 0. -/
def opFieldsOk (w : OpWord) : Bool :=
  let d0 := opD0 w
  let d1 := opD1 w
  let d2 := opD2 w
  let aux := opAux w
  fld w 6 2 == 0 && (opArgsel w == 0 || (rowOperands w).any fun x => x.testBit 14) &&
    match opOpc w with
    | 0 => d1 == 0 && d2 == 0 && aux == 0
    | 1 | 2 => d2 == 0 && aux == 0
    | 3 | 4 | 5 => aux == 0
    | 6 => d0 == 0 && d1 == 0 && d2 == 0
    | 7 | 8 => d1 == 0 && d2 == 0
    | 9 => decide (aux < 32) && decide (d2 < 1024)
    | 10 => d0 == 0 && d2 == 0 && aux == 0
    | 11 => decide (d0 < 256) && d2 == 0 && aux == 0
    | _ => false

/-- Condition 4 of R429. -/
def streamOk (w : OpWord) : Bool :=
  let v := opD2 w % 8
  let o := opD2 w / 8 % 8
  let n := opD2 w / 64 % 8
  opOpc w != 9 ||
    (v % 2 == 0 && decide (n ≤ 5) && decide (o + n ≤ 7) && (decide (v + 1 < o) || decide (o + n < v)))

/-- Condition 3 of R429 over the ops from index `i` on; `last` is one above the index of the last LOOP before them. -/
def loopsOk : Nat → Nat → List OpWord → Bool
  | _, _, [] => true
  | i, last, w :: t =>
    if opOpc w = 11 then decide (opD0 w % 256 < i) && decide (last ≤ opD0 w % 256) && loopsOk (i + 1) (i + 1) t
    else loopsOk (i + 1) last t

/-- The conditions of R429. -/
def programOk (p : List OpWord) : Bool :=
  (p.all fun w => decide (opOpc w < 12) && opFieldsOk w && streamOk w) && loopsOk 0 0 p &&
    match p.getLast? with
    | some w => opOpc w != 10 && opOpc w != 11
    | none => false

/-- Every op of a program is in the available op set (R430). -/
def Stack.opsAvailable (k : Stack) (p : List OpWord) : Bool :=
  p.all fun w =>
    if isRowOp w then k.rowClass else if opOpc w = 10 || opOpc w = 11 then true else k.macClass

/-- The largest ITER that op `i` of a program meets: the COUNT of the loop whose body holds it (R438). -/
def maxIter (p : List OpWord) (i : Nat) : Nat :=
  ((List.range p.length).findSome? fun j =>
    match p[j]? with
    | some w => if opOpc w = 11 && i < j && opD0 w % 256 ≤ i then some (opD1 w) else none
    | none => none).getD 0

/-- Effective row of an operand (R436). -/
def effRow (x arg iter step : Nat) : Nat :=
  x % 2 ^ 14 + (if x.testBit 14 then arg else 0) + (if x.testBit 15 then iter * step else 0)

/-- Row argument `i` of a launch descriptor (R446). -/
def launchArg (desc : BitVec 384) (i : Nat) : Nat := fld desc (64 + 16 * i) 14

/-- ITER_STEP of a launch descriptor (R446). -/
def launchStep (desc : BitVec 384) : Nat := fld desc 128 14

/-- The rows an op names at an ITER value, the last row of a stream included (R436, R437). -/
def opRows (desc : BitVec 384) (iter : Nat) (w : OpWord) : List Nat :=
  let rs := (rowOperands w).map fun x => effRow x (launchArg desc (opArgsel w)) iter (launchStep desc)
  if opOpc w = 9 then rs ++ rs.map fun r => r + (opAux w % 32 + opD1 w) / 32 else rs

/-- Every row operand of a program stays within the bank's `b` rows at the largest ITER its loop allows (R447). -/
def rowsOk (p : List OpWord) (desc : BitVec 384) (b : Nat) : Bool :=
  (List.range p.length).all fun i =>
    match p[i]? with
    | some w => (opRows desc (maxIter p i) w).all fun r => decide (r < b)
    | none => true

/-- A slot is named by a launch that is admitted and has not ended (R431). -/
def Fab.slotInUse (f : Fab) (i : Nat) : Bool := f.launches.any fun l => l.slot == i

end Sys2Proof.Machine
end

