-- ==== Sys2Proof/Machine/AdmitOps.lean ====
section
/-! DEFINITION. Admission: the checks of R107, the accesses and pieces of an admitted request, its charge, and the
scale-plane caches at admission (R92 to R107, R144 to R150, R169 to R196, R260 to R264, R342 to R361, R446, R447). -/

namespace Sys2Proof.Machine

/-- BADREQ with an error code (R107). -/
def badreq (e : BitVec 8) : Option Done := some ⟨.badreq, e⟩

/-- The first check that fails. -/
def firstDone : List (Bool × Done) → Option Done
  | [] => none
  | (bad, d) :: t => if bad then some d else firstDone t

/-! ### Checks 1 to 4 (R107) -/

/-- Reserved fields of a gather descriptor beat (R353). -/
def gatherReserved (b : BitVec 1024) : Bool :=
  fld b 37 3 != 0 || fld b 40 24 != 0 || fld b 76 4 != 0 || fld b 83 13 != 0 || fld b 106 6 != 0 ||
    fld b 122 6 != 0 || fld b 138 6 != 0 || fld b 154 6 != 0 || fld b 160 864 != 0

/-- Reserved fields of a launch descriptor beat (R446). -/
def launchReserved (b : BitVec 1024) : Bool :=
  fld b 6 26 != 0 || fld b 78 2 != 0 || fld b 94 2 != 0 || fld b 110 2 != 0 || fld b 126 2 != 0 ||
    fld b 142 114 != 0 || fld b 384 640 != 0

/-- Check 1: a reserved field of the request word or of its descriptor is nonzero (R92, R102, R14). -/
def reqReserved (k t : Nat) (r : Request) (beat : BitVec 1024) : Bool :=
  r.rsvLo != 0 || r.rsvHi != 0 || fld r.addr 37 3 != 0 || (!isTile k && fld r.tag 6 2 != 0) ||
    (isTile k && t == 5 && gatherReserved beat) || (isTile k && t == 6 && launchReserved beat)

/-- Services that a TYPE allows (R93). -/
def serviceOk (t svc : Nat) : Bool :=
  match t with
  | 0 | 5 => decide (svc ≤ 1)
  | 1 | 2 => svc == 2
  | 3 => svc == 3
  | 4 => decide (svc ≤ 4)
  | _ => svc == 4

/-- Check 3. -/
def fieldsBad (t : Nat) (r : Request) : Bool :=
  !serviceOk t r.service.toNat || r.colour == 3 || decide (6 ≤ r.afmt.toNat) || (t != 3 && r.afmt != 0) ||
    (t != 7 && r.abortTag != 0)

/-- R354 broken. -/
def gatherRange (b : BitVec 1024) : Bool :=
  let ps := fld b 80 3
  let off := fld b 96 10
  let cl := fld b 112 10
  let st := fld b 128 10
  let nc := fld b 144 10
  fld b 0 3 != 0 || decide (5 ≤ ps) || decide (64 * 2 ^ ps < off + nc * st + cl + 1) || (nc != 0 && decide (st < cl + 1))

/-- Alignment, LEN and boundary rules of R93, R94, R102, R354 and the first part of R447. -/
def State.rangeBad (s : State) (k t : Nat) (r : Request) (beat : BitVec 1024) : Bool :=
  let a := r.addr.toNat
  let len := r.len.toNat
  let cross := len != 0 && decide (2048 < a % 2048 + (len + 1) * 64)
  if !isTile k then
    if t = 4 then a != 0 || len != 0 else a % 32 != 0 || len != 0
  else
    match t with
    | 0 | 1 | 2 => a % 64 != 0 || cross
    | 3 => a % (16 * afmtWidth r.afmt.toNat) != 0 || cross
    | 5 => a != 0 || len != 0 || gatherRange beat
    | 6 => a % 2 ^ 21 != 0 || len != 0 || (s.fab.prog (fld beat 0 6)).isEmpty || fld beat 32 32 == 0 ||
        decide (s.stk.brewWidth < (setBits (BitVec.ofNat 32 (fld beat 32 32))).length)
    | _ => a != 0 || len != 0

/-! ### Checks 6 to 8 (R107, R171, R939) -/

/-- Check 7 for a request TYPE of port `k` in a region (R106, R171, R172, R334). -/
def permBad (k t : Nat) (r : BitVec 256) : Bool :=
  let ty := rType r
  match t with
  | 0 => !isTile k && (ty == 1 || rRounded r)
  | 1 => rWp r || rRounded r || (ty == 1 && (!isTile k || rOfmt r == 1))
  | 2 => rWp r || rRounded r || ty == 1
  | 3 => rWp r || ty != 2
  | 6 => rWp r || ty != 3
  | _ => false

/-- Slots that an ACC of `n` bytes of addends names, from region offset `o`, leave the region (R381). -/
def slotsBad (r : BitVec 256) (o afmt bytes : Nat) : Bool :=
  decide (slotCount r < firstSlot r o + bytes / afmtWidth afmt)

/-- Channels a launch selects in its region (R446). -/
def launchChans (r : BitVec 256) (beat : BitVec 1024) : List Nat :=
  let m := fld beat 256 128
  if m = 0 then rMembers r else (List.range 128).filter fun c => m.testBit c

/-- The region-dependent part of R447. -/
def State.launchBad (s : State) (r : BitVec 256) (o : Nat) (beat : BitVec 1024) : Bool :=
  o != 0 || ((launchChans r beat).any fun c => !(rCmask r).testBit c) ||
    !rowsOk (s.fab.prog (fld beat 0 6)) (beat.setWidth 384) (rB r)

/-- The region-dependent rules of check 4, made after check 7 (R174, R381, R447, R939). -/
def State.regionBad (s : State) (t : Nat) (q : Request) (r : BitVec 256) (o : Nat) (beat : BitVec 1024) : Bool :=
  let n := (q.len.toNat + 1) * 64
  match t with
  | 0 | 1 => rType r == 1 && (o % (32 * rOw r) != 0 || n % (32 * rOw r) != 0)
  | 3 => slotsBad r o q.afmt.toNat n
  | 6 => s.launchBad r o beat
  | _ => false

/-- The list range of a GATHER (R356): check 6, then check 7. A range whose first and last bytes lie in two enabled regions is
answered with PERM: R356 names DECERR, PERM and FENCED without saying which (DESIGN CHOICE, log 73). -/
def listCheck (t : List (BitVec 256)) (beat : BitVec 1024) : Option Done ⊕ Nat :=
  let a := fld beat 0 40
  let last := a + 8 * (fld beat 64 12 + 1) - 1
  match findRegion t a, findRegion t last with
  | some i, some j => if i = j && rType (regionAt t i) = 0 then .inr i else .inl (some ⟨.perm, eOk⟩)
  | _, _ => .inl (some ⟨.decerr, eOk⟩)

/-- List accesses of a GATHER as places (R362). -/
def listPlaces (r : BitVec 256) (beat : BitVec 1024) : List Place :=
  let a := fld beat 0 40 - rLo r
  let last := a + 8 * (fld beat 64 12 + 1) - 1
  (List.range (last / 64 + 1 - a / 64)).map fun i => ilvPlace r ((a / 64 + i) * 64)

/-! ### Accesses -/

/-- Entries in the request window of a channel; none for a FENCED one, so that STEER may choose it: R195 does not say
(DESIGN CHOICE, log 57). -/
def State.windowOf (s : State) (pl : Place) : Nat :=
  ((s.stk.sliceOf pl.chan pl.row).map fun p => (s.slice p).sch.window.length).getD 0

/-- Accesses of `n` units read from region `i` of a table at offset `o`: a replica pair is read at its primary, or steered to
the channel with fewer window entries (R194, R195). -/
def State.readIn (s : State) (t : List (BitVec 256)) (i o n : Nat) : List Acc :=
  let r := regionAt t i
  if rRepl r then
    let p := regionAt t (min i (rPartner r))
    let q := regionAt t (max i (rPartner r))
    let off := match s.det.mode with | .off => false | .bits | .timing => true
    (List.range n).map fun u =>
      let x := ilvPlace p (o + 64 * u)
      let y := ilvPlace q (o + 64 * u)
      mkAcc s.stk (if rSteer p && !off && decide (s.windowOf y < s.windowOf x) then y else x) u false
  else accsOf s.stk r o n

/-- The same under the table in force. -/
def State.readAccs (s : State) (i o n : Nat) : List Acc := s.readIn s.cfg.regions i o n

/-- The other region of a region's replica pair; 0 when it has none (R194, R198). -/
def pairEntry (t : List (BitVec 256)) (r : BitVec 256) : BitVec 256 := if rRepl r then regionAt t (rPartner r) else 0

/-- The accesses with the stale bits that admission reads for them in a PINNED region (R469). -/
def State.markStale (s : State) (r : BitVec 256) (accs : List Acc) : List Acc :=
  if rType r = 3 then accs.map fun a => { a with stale := s.fab.isStale a.chan a.bank a.row } else accs

/-- Admission reads the stale bit of every access to a PINNED region, but for scrub and reseal (R469, R699). -/
def State.readStale (s : State) (r : BitVec 256) (accs : List Acc) : State :=
  if rType r != 3 then s else s.each accs fun s a => s.readBit a.chan a.bank a.row

/-- Accesses of a request of TYPE `t` in region `i` (R179, R380); a narrow request makes one. -/
def State.requestAccs (s : State) (k t : Nat) (q : Request) (i : Nat) : List Acc :=
  let r := regionAt s.cfg.regions i
  let o := q.addr.toNat - rLo r
  match t with
  | 0 => if isTile k then s.readAccs i o (q.len.toNat + 1) else s.readAccs i (o - o % 64) 1
  | 1 | 2 => if isTile k then accsOf s.stk r o (q.len.toNat + 1) else accsOf s.stk r (o - o % 64) 1
  | 3 => slotAccs s.stk r (firstSlot r o) ((q.len.toNat + 1) * 64 / afmtWidth q.afmt.toNat)
  | _ => []

/-- Some channel of the accesses is fenced with no slice bound to it (check 8). -/
def State.fencedAcc (s : State) (l : List Acc) : Bool := l.any fun a => (s.stk.remapAt a.chan).st == .fenced

/-! ### Pieces (R262, R343) -/

/-- Add an access to the piece of its channel, or start one. -/
def addPiece (base : Piece) (l : List Piece) (a : Acc) : List Piece :=
  if l.any fun p => p.chan == a.chan then l.map fun p => if p.chan = a.chan then { p with keys := p.keys ++ [a.key] } else p
  else l ++ [{ base with chan := a.chan, keys := [a.key] }]

/-- The pieces of an entry's accesses that have not ended: one for each channel; the scale-plane accesses
of a read make pieces of their own (R262, R343). -/
def cutPieces (base : Piece) (accs : List Acc) : List Piece :=
  let l := accs.filter fun a => a.st.isNone
  match base.write with
  | .read => (l.filter fun a => !a.scale).foldl (addPiece base) [] ++ (l.filter (·.scale)).foldl (addPiece base) []
  | .write | .accumulate => l.foldl (addPiece base) []

/-- What an entry does at the channel. -/
def Kind.pieceKind (k : Kind) : PieceKind :=
  match k with
  | .wr | .wrPartial | .writeBulk | .digestRec | .ctxWrite => .write
  | .acc | .accBulk => .accumulate
  | .rd | .fence | .gather | .brewLaunch | .brewAbort | .readBulk | .gatherList | .gatherPage | .scrub | .copy
  | .resealWork | .digestWork => .read

/-- The piece fields that an entry's pieces share. -/
def Entry.basePiece (e : Entry) (svc : Nat) : Piece where
  eid := e.id
  sub := e.sub
  svc := svc
  chan := 0
  colour := .green
  arrival := e.arrival
  dl := e.arrival + e.req.slack.toNat
  real := e.req.slack != 0xFFFF
  adm := e.id
  write := e.kind.pieceKind
  keys := []
  begun := false

/-- The colour of a request's COLOUR field (R92). -/
def colourOf (c : BitVec 2) : Colour := if c = 0 then .green else if c = 1 then .yellow else .red

/-- Charge of accesses at admission: 64 B each, none for scale-plane accesses (R263). -/
def chargeOf (accs : List Acc) : Nat := 64 * (accs.filter fun a => !a.scale).length

/-- Incoming colour of an entry: green for internal subscribers (R273; that the list and page reads of a GATHER, which their
issuer's meter tests, are green too is DEDUCED, log 57), else the COLOUR of its request. -/
def Entry.colourIn (e : Entry) : Colour := if 40 ≤ e.sub then .green else colourOf e.req.colour

/-- An admitted entry's request enters the meter queue of (msub, svc) with its pieces and its charge (R261, R263). Accesses
that have ended already, as those of a gather read to a fenced channel, make no piece and no charge (R260). The effective
deadline of a request without one is fixed here with the NODL_AGE in force, also for a head held at level 1 when a commit
moves it: R292 does not say (DESIGN CHOICE, log 72). -/
def State.enterMeter (s : State) (e : Entry) (svc : Nat) : State :=
  let ps := cutPieces (e.basePiece svc) e.accs
  if ps.isEmpty then s
  else s.modFab fun f =>
    { f with mq := f.mq ++ [⟨e.id, e.msub, svc, e.colourIn, chargeOf (e.accs.filter fun a => a.st.isNone),
        e.arrival + (if e.req.slack = 0xFFFF then s.nodlAge else e.req.slack.toNat), false, false, ps⟩] }

/-! ### Scale-plane caches at admission (R342 to R345) -/

/-- A read finds scale-plane lines in its port's cache: those accesses end there with the line's data, and hits and
misses are counted (R342, R352). -/
def State.scaleLookup (s : State) (port id : Nat) (accs : List Acc) : State :=
  s.each (accs.filter (·.scale)) fun s a =>
    let k := keyOf a.chan a.bank a.row a.col
    match (s.port port).scale.find? fun (kv : Key × Line) => kv.1 == k with
    | some kv =>
      let s1 := s.modPort port fun p => { p with scale := (p.scale.filter fun (x : Key × Line) => x.1 != k) ++ [kv] }
      (s1.modEntry id fun e => { e with accs := endAcc e.accs a.key .ok kv.2 }).statSub port 7 1
    | none => s.statSub port 8 1

/-- A WR to a PACKED region: its port's cached lines take the new scale bytes, every other port's lines go, and
fetches in flight are not installed (R345). -/
def State.scaleWrite (s : State) (port : Nat) (e : Entry) : State :=
  s.each (e.accs.filter (·.scale)) fun s a =>
    let k := keyOf a.chan a.bank a.row a.col
    let dm := e.writeFor a
    let s1 := { s with ports := Tab.mapVals Port.reset (fun i p =>
      if i = port then { p with scale := p.scale.map fun (kv : Key × Line) => if kv.1 = k then (k, mergeLine kv.2 dm.1 dm.2) else kv }
      else { p with scale := p.scale.filter fun (kv : Key × Line) => kv.1 != k }) s.ports }
    s1.modFab fun f => { f with trk := f.trk.map fun x => { x with accs := x.accs.map fun y =>
      if y.scale && y.st.isNone && y.chan = a.chan && y.bank = a.bank && y.row = a.row && y.col = a.col
      then { y with inst := false } else y } }

/-- What compress-on-write counts (R352). -/
def State.countBlocks (s : State) (port : Nat) (e : Entry) : State :=
  let b := e.blocks
  ((s.statSub port 3 b.length).statSub port 4 (b.filter fun x => x.2.2.2.2).length).statSub port 6
    (b.map fun x => x.2.2.2.1).sum

/-! ### Work of internal subscribers (R30, R263, R476, R730, R733) -/

/-- Accesses of `n` units from logical address `a`, with the first check of R107 they fail (R107, checks 6 and 8). -/
def State.workAccs (s : State) (a n : Nat) : List Acc ⊕ RspStatus :=
  match findRegion s.cfg.regions a with
  | none => .inr .decerr
  | some i =>
    let l := s.readAccs i (a - rLo (regionAt s.cfg.regions i)) n
    if s.therm.latch then .inr .thermstop else if s.fencedAcc l then .inr .fenced else .inl l

/-- Admit work of an internal subscriber in service MAINT, translated under region entry `rent`: an entry with its
accesses, its data, and its place in the meter queue. Without a free tracker entry it is admitted later (R133, R135). All but the
digest records of the fabric itself crosses class 7 (R15, R80, R81). -/
def State.addWork (s : State) (sub : Nat) (kind : Kind) (rent : BitVec 256) (a : Nat) (accs : List Acc) (data : List WBeat) : State :=
  match s.fab.freeSlot sub with
  | none => s
  | some shared =>
    let q : Request := { Request.zero with service := 5, slack := 0xFFFF, addr := BitVec.ofNat 40 a,
                                           len := BitVec.ofNat 5 (accs.length - 1) }
    let e : Entry := { Entry.reset with id := s.fab.nextId, sub := sub, msub := sub, kind := kind, req := q, arrival := s.fabView,
                                        shared := shared, rent := rent, pent := pairEntry s.cfg.regions rent, accs := accs,
                                        wdat := data }
    let s1 := if sub = 40 || sub = 43 then s else s.readStale rent accs
    let e1 := if sub = 40 || sub = 43 then e else { e with accs := s1.markStale rent accs }
    let e2 := if sub = 47 then e1 else { e1 with vis := s.icqSeen 7 0 }
    ((if sub = 47 then s1 else s1.icqPass 7 0).addEntry e2).enterMeter e2 5

/-! ### Writes of digest records (R730) -/

/-- The 64 B of a digest record (R730). -/
def DgRec.line (r : DgRec) : Line :=
  BitVec.ofNat 512 (r.stream + r.n.toNat * 2 ^ 32 + r.ltc * 2 ^ 64 + r.bytes.toNat * 2 ^ 128 + r.pieces.toNat * 2 ^ 192 +
    r.d.toNat * 2 ^ 256)

/-- Entry of the record region (R730). -/
def State.recEntry (s : State) : BitVec 256 := regionAt s.cfg.regions (fld s.cfg.digRec 0 6)

/-- Place of a digest record in the record region (R730). -/
def State.recPlace (s : State) (r : DgRec) : Place :=
  let g := fld s.cfg.digRec 7 4
  ilvPlace s.recEntry (64 * (r.stream * 2 ^ g + r.n.toNat % 2 ^ g))

/-- The write of a digest record is admitted as work of subscriber 47 (R730), once a tracker entry is free; a record whose channel
is fenced, or that meets the shut-down latch, makes no write (R731). -/
def State.addRec (s : State) (r : DgRec) : State :=
  let x := s.recPlace r
  if r.eid.isSome || s.therm.latch || (s.stk.sliceOf x.chan x.row).isNone || (s.fab.freeSlot 47).isNone then s
  else
    let id := s.fab.nextId
    (s.addWork 47 .digestRec s.recEntry (rLo s.recEntry) [mkAcc s.stk x 0 false] [⟨r.line.setWidth 1024, BitVec.allOnes 128⟩]).modDet fun d =>
      { d with recs := updFirst (fun y => y == r) (fun y => { y with eid := some id }) d.recs }

/-- Every record that has no write yet gets one, in order (R730). -/
def State.addRecs (s : State) : State := s.each s.det.recs State.addRec

end Sys2Proof.Machine
end

