-- ==== Sys2Proof/Machine/Admit.lean ====
section
/-! DEFINITION. REQUEST_ADMIT and BLP_DESC_ADMIT. -/

namespace Sys2Proof.Machine

/-- The head of a port's input queue leaves it and its credit comes back (R88). -/
def State.popReq (s : State) (k : Nat) : State :=
  s.modPort k fun p => { p with inq := p.inq.tail, reqCrd := p.reqCrd + 1 }

/-- Data beats that a port holds for an acceptance number. -/
def Port.beatsOf (p : Port) (ord : Nat) : List WBeat := (p.wdat.filter fun ob => ob.1 == ord).map (·.2)

/-- The descriptor beat of the head has come, if its TYPE owes one. A word that admission will reject waits for its beat too, on a
narrow port as on a tile port: R103 does not say when it is rejected (DESIGN CHOICE, log 56). -/
def Port.descHere (p : Port) (q : InReq) : Bool := (q.kind != 5 && q.kind != 6) || !(p.beatsOf q.ord).isEmpty

/-- A bank that a launch selects on channel `c` has a fenced unit (R683). -/
def State.unitFenced (s : State) (c : Nat) (beat : BitVec 1024) : Bool :=
  (s.slice (s.stk.remapAt c).ps).rep.unitBad.any fun b => (fld beat 32 32).testBit b

/-- Where the checks of R107 leave a request: rejected, or accepted with the region it addresses and its accesses. -/
def State.checkRequest (s : State) (k : Nat) (q : InReq) (beat : BitVec 1024) : Done ⊕ (Option Nat × List Acc) :=
  let r := q.req
  let t := q.kind
  let a := r.addr.toNat
  let early := firstDone
    [ (reqReserved k t r beat, ⟨.badreq, eBadarg⟩),
      (decide (8 ≤ t) && isTile k, ⟨.badreq, eBadop⟩),
      (unsupportedType k t, ⟨.badreq, eNotsup⟩),
      (t == 6 && !s.stk.rowClass && !s.stk.macClass, ⟨.badreq, eNotsup⟩),
      (fieldsBad t r, ⟨.badreq, eBadarg⟩),
      (s.rangeBad k t r beat, ⟨.badreq, eRange⟩),
      (s.therm.latch, ⟨.thermstop, eOk⟩) ]
  match early with
  | some d => .inl d
  | none =>
    match t with
    | 4 | 7 => .inr (none, [])
    | 5 => match listCheck s.cfg.regions beat with
      | .inl d => .inl (d.getD ⟨.decerr, eOk⟩)
      | .inr i =>
        if (listPlaces (regionAt s.cfg.regions i) beat).any fun p => (s.stk.remapAt p.chan).st == .fenced
        then .inl ⟨.fenced, eOk⟩ else .inr (some i, [])
    | _ => match findRegion s.cfg.regions a with
      | none => .inl ⟨.decerr, eOk⟩
      | some i =>
        let g := regionAt s.cfg.regions i
        let accs := s.requestAccs k t r i
        let chans := if t = 6 then launchChans g beat else []
        match firstDone
          [ (permBad k t g, ⟨.perm, eOk⟩),
            (s.regionBad t r g (a - rLo g) beat, ⟨.badreq, eRange⟩),
            (s.fencedAcc accs || (chans.any fun c => (s.stk.remapAt c).st == .fenced || s.unitFenced c beat), ⟨.fenced, eOk⟩) ] with
        | some d => .inl d
        | none => .inr (some i, accs)

/-- A rejected request holds a tracker entry until its header beat is driven; its write data is discarded
(R112, R149). -/
def State.rejectReq (s : State) (k : Nat) (q : InReq) (d : Done) (shared : Bool) : State :=
  let e : Entry := { Entry.reset with ord := q.ord, sub := k, msub := k, kind := kindOf q.kind, req := q.req,
                                      arrival := q.arrival, shared := shared, fin := some d }
  ((s.addEntry e).modPort k fun p =>
    { p with owed := p.owed.map fun o => if o.ord = q.ord then { o with drop := true } else o,
             wdat := p.wdat.filter fun ob => ob.1 != q.ord }).lateOnce s.fab.nextId

/-- An accepted BREW_ABORT: it takes effect on a launch of its port that is short of its commit point and not
aborted (R479, R480, R119). -/
def State.takeAbort (s : State) (k id : Nat) (tag : BitVec 8) : State :=
  match s.fab.launches.find? fun l => l.port == k && l.tag == tag && l.why.isNone with
  | some l => (s.killLaunch l.eid .aborted).decideEntry id .ok eOk
  | none => s.decideEntry id .ok eNotActive

/-- An accepted BREW_LAUNCH enters the dispatcher's list (R446, R448). -/
def State.takeLaunch (s : State) (k id : Nat) (q : InReq) (i : Nat) (beat : BitVec 1024) : State :=
  let g := regionAt s.cfg.regions i
  let l : Launch := { Launch.reset with eid := id, port := k, tag := q.req.tag, rix := i, rent := g, slot := fld beat 0 6,
                                        prog := s.fab.prog (fld beat 0 6), desc := beat.setWidth 384,
                                        dl := q.arrival + (if q.req.slack = 0xFFFF then s.nodlAge else q.req.slack.toNat),
                                        chans := launchChans g beat }
  (s.modFab fun f => { f with launches := f.launches ++ [l] }).statSub k 13 1

/-- An accepted request: tracker entry, translation, charge (R136, R179, R261, R938). -/
def State.acceptEntry (s : State) (k : Nat) (q : InReq) (reg : Option Nat) (accs : List Acc) (shared : Bool) : State :=
  let id := s.fab.nextId
  let i := reg.getD 0
  let r := regionAt s.cfg.regions i
  let s := s.readStale r accs
  let accs := s.markStale r accs
  let p := s.port k
  let e : Entry := { Entry.reset with
    id := id, ord := q.ord, sub := k, msub := k, kind := kindOf q.kind, req := q.req, arrival := q.arrival, shared := shared,
    rent := r, rix := i, pent := pairEntry s.cfg.regions r, accs := accs,
    wdat := p.beatsOf q.ord, sat := bit (Tab.get 0 s.cfg.xfu k) 0, tab := if q.kind = 5 then s.cfg.regions else [] }
  let s1 := (s.addEntry e).modPort k fun p => { p with wdat := p.wdat.filter fun ob => ob.1 != q.ord }
  let beat := ((p.beatsOf q.ord).headD ⟨0, 0⟩).data
  match q.kind with
  | 0 =>
    let s2 := s1.scaleLookup k id accs
    match s2.fab.entry id with
    | some e' => s2.enterMeter e' q.req.service.toNat
    | none => s2
  | 1 | 2 | 3 =>
    let s2 := if q.kind = 1 && rType e.rent = 1 then (s1.scaleWrite k e).countBlocks k e else s1
    (s2.enterMeter e q.req.service.toNat).feedTaken id
  | 5 => s1.modFab fun f => { f with fq := f.fq ++ [id] }
  | 6 => s1.takeLaunch k id q i beat
  | 7 => s1.takeAbort k id q.req.abortTag
  | _ => s1

/-- REQUEST_ADMIT (R938): the head of the port's input queue, once a tracker entry is free and no hold, full gather
queue or full launch list keeps it (R135, R361, R448), is discarded for a repeated TAG (R101), rejected by R107, or
admitted. A WR to a PACKED region is admitted with its data (R345). -/
def execRequestAdmit (port : Fin 36) (s : State) : Res :=
  .next <|
    let k := port.val
    let p := s.port k
    match p.inq with
    | [] => s
    | q :: _ =>
      if !s.portsLive || s.isMasked k || s.admHeld k then s
      else if q.dup then (s.popReq k).protoError k 2
      else match s.fab.freeSlot k with
        | none => s
        | some shared =>
          if !p.descHere q || (q.kind == 5 && isTile k && decide (32 ≤ s.fab.fq.length)) ||
              (q.kind == 6 && isTile k && decide (64 ≤ s.fab.launches.length)) then s
          else
            match s.checkRequest k q ((p.beatsOf q.ord).headD ⟨0, 0⟩).data with
            | .inl d => (s.popReq k).rejectReq k q d shared
            | .inr (reg, accs) =>
              let packed := q.kind == 1 && (reg.map fun i => rType (regionAt s.cfg.regions i) == 1) == some true
              if packed && (p.beatsOf q.ord).length < writeBeats 1 q.req.len.toNat then s
              else (s.popReq k).acceptEntry k q reg accs shared

/-! ### BLP descriptors -/

/-- Enabled regions that hold bytes of a range (R145). -/
def regionsIn (t : List (BitVec 256)) (a n : Nat) : List Nat :=
  (List.range 64).filter fun i =>
    let r := regionAt t i
    rEn r && decide (rLo r < a + n) && decide (a < rLo r + rS r)

/-- Check 7 for a descriptor (R171, R172). -/
def descPermBad (op : Nat) (r : BitVec 256) : Bool :=
  rType r == 1 || match op with
    | 0 => rWp r || rRounded r
    | 1 => rWp r || rType r != 2
    | _ => false

/-- Accesses of a descriptor, each with the mark that tells its BLP piece from its neighbours (R179, R228, R264). -/
def State.descAccs (s : State) (op : Nat) (d : Desc) (i : Nat) : List (Acc × Nat) :=
  let r := regionAt s.cfg.regions i
  let o := d.addr.toNat - rLo r
  let n := (d.len.toNat + 63) / 64
  if op = 1 then
    let j0 := firstSlot r o
    let l := slotAccs s.stk r j0 (d.len.toNat / afmtWidth d.afmt.toNat)
    let per := 64 / rSb r
    (List.range l.length).map fun x => (l.getD x Acc.reset, (j0 / per + x) * 64 / rG r)
  else if rType r = 3 then (s.readAccs i o n).map fun a => (a, a.bank * 16384 + a.row)
  else if rRounded r then
    (List.range n).flatMap fun u =>
      let b := (o + 64 * u) / rOw r * rSb r
      let l := slotPlaces r b (64 / rOw r * rSb r)
      (List.range l.length).map fun x => (mkAcc s.stk (l.getD x ⟨0, 0, 0, 0⟩) u false, (b / 64 + x) * 64 / rG r)
  else
    let l := if op = 2 then s.readAccs i o n else accsOf s.stk r o n
    (List.range l.length).map fun u => (l.getD u Acc.reset, (o + 64 * u) / rG r)

/-- Cut a run of accesses into BLP pieces: neighbours with the same mark and channel stay together (R264). -/
def cutBulk (base : Piece) : List (Acc × Nat) → List (Piece × Nat)
  | [] => []
  | (a, m) :: t =>
    match cutBulk base t with
    | (p, m') :: ps =>
      if m = m' && p.chan = a.chan then ({ p with keys := a.key :: p.keys }, m) :: ps
      else ({ base with chan := a.chan, keys := [a.key] }, m) :: (p, m') :: ps
    | [] => [({ base with chan := a.chan, keys := [a.key] }, m)]

/-- Where the checks of R145 leave a descriptor. -/
def State.checkDesc (s : State) (op : Nat) (d : Desc) : Done ⊕ (Nat × List (Acc × Nat)) :=
  let a := d.addr.toNat
  let n := d.len.toNat
  match firstDone
    [ (fld d.addr 37 3 != 0 || d.rsvA != 0 || d.rsvB != 0 || d.rsvC != 0, ⟨.badreq, eBadarg⟩),
      (op == 3, ⟨.badreq, eBadop⟩),
      (d.colour == 3 || decide (6 ≤ d.afmt.toNat) || (op != 1 && d.afmt != 0), ⟨.badreq, eBadarg⟩),
      (a % 64 != 0 || n % 64 != 0 || decide (n < 4096) || decide (2 ^ 24 < n), ⟨.badreq, eRange⟩),
      (decide (1 < (regionsIn s.cfg.regions a n).length), ⟨.badreq, eRange⟩),
      (s.therm.latch, ⟨.thermstop, eOk⟩) ] with
  | some e => .inl e
  | none =>
    match findRegion s.cfg.regions a with
    | none => .inl ⟨.decerr, eOk⟩
    | some i =>
      let g := regionAt s.cfg.regions i
      let accs := s.descAccs op d i
      match firstDone
        [ (op != 1 && decide (rLo g + rS g < a + n), ⟨.decerr, eOk⟩),
          (descPermBad op g, ⟨.perm, eOk⟩),
          (op == 1 && slotsBad g (a - rLo g) d.afmt.toNat n, ⟨.badreq, eRange⟩),
          (s.fencedAcc (accs.map (·.1)), ⟨.fenced, eOk⟩) ] with
      | some e => .inl e
      | none => .inr (i, accs)

/-- Service of a descriptor's OP (R147). -/
def descService (op : Nat) : Nat := if op = 0 then 2 else if op = 1 then 3 else 1

/-- Kind of a descriptor's OP. -/
def descKind (op : Nat) : Kind := if op = 0 then .writeBulk else if op = 1 then .accBulk else .readBulk

/-- The tracker entry of a descriptor. -/
def State.descEntry (s : State) (q : InDesc) (shared : Bool) (i : Nat) (accs : List Acc) : Entry :=
  { Entry.reset with
    id := s.fab.nextId, ord := q.ord, sub := 36, msub := 36, kind := descKind q.op,
    req := { Request.zero with service := BitVec.ofNat 3 (descService q.op), colour := q.desc.colour,
                               digest := q.desc.digest, afmt := q.desc.afmt, slack := 0xFFFF, addr := q.desc.addr },
    arrival := q.arrival, shared := shared, rent := regionAt s.cfg.regions i, rix := i,
    pent := pairEntry s.cfg.regions (regionAt s.cfg.regions i), accs := accs,
    wdat := (s.blp.idat.filter fun x => x.1 == q.ord).map fun x => ⟨x.2.setWidth 1024, 0⟩ }

/-- BLP_DESC_ADMIT (R150): the oldest descriptor, once fewer than 64 are in flight and a tracker entry is free, is
rejected by R145 (its beats are discarded, R149) or cut into pieces, each metered on its own (R264). -/
def execBlpDescAdmit (s : State) : Res :=
  .next <|
    match s.blp.dq, s.fab.freeSlot 36 with
    | q :: rest, some shared =>
      if !s.portsLive || s.isMasked 36 || s.admHeld 36 || decide (64 ≤ s.blp.flight.length) || decide (s.sys.ltc < q.vis) then s
      else
        let id := s.fab.nextId
        let pop (b : Blp) : Blp := { b with dq := rest, descCrd := b.descCrd + 1, idat := b.idat.filter fun x => x.1 != q.ord }
        match s.checkDesc q.op q.desc with
        | .inl d =>
          let e : Entry := { s.descEntry q shared 0 [] with fin := some d, wdat := [] }
          (s.addEntry e).modBlp fun b =>
            { pop b with flight := b.flight ++ [⟨id, q.op, q.desc, q.ord, some d, 0, s.sys.ltc + s.crossTime 6⟩],
                         owed := b.owed.map fun o => if o.ord = q.ord then { o with drop := true } else o }
        | .inr (i, l) =>
          let r := regionAt s.cfg.regions i
          let s0 := s.readStale r (l.map (·.1))
          let e := s0.descEntry q shared i (s0.markStale r (l.map (·.1)))
          let s1 := (s0.addEntry e).modBlp fun b =>
            { pop b with flight := b.flight ++ [⟨id, q.op, q.desc, q.ord, none, 0, 0⟩] }
          let svc := descService q.op
          let ps := cutBulk (e.basePiece svc) l
          (s1.modFab fun f => { f with mq := f.mq ++ ps.map fun p =>
            ⟨id, 36, svc, colourOf q.desc.colour, 64 * p.1.keys.length, q.arrival + s.nodlAge, false, false, [p.1]⟩ }).feedTaken id
    | _, _ => s

end Sys2Proof.Machine
end

