-- ==== Sys2Proof/Machine/SubDown.lean ====
section
/-! DEFINITION. Requester-down lines: mask, drain and resumption of a subscriber (R86, R159 to R165, R282, R283, R372,
R782, R901). -/

namespace Sys2Proof.Machine

/-- None of a subscriber's tracker entries is occupied (R162). -/
def State.subEmpty (s : State) (k : Nat) : Bool := !(s.fab.trk.any fun e => e.sub == k)

/-- The meters and the bucket of a subscriber freeze and leave the wheel (R282). -/
def State.freezeSub (s : State) (k : Nat) : State :=
  (s.each (List.range 6) fun s i => s.setMeter (6 * k + i) { s.fab.meter (6 * k + i) with frozen := true, slot := none }).setBucket k
    { s.fab.bucket k with frozen := true, slot := none }

/-- Keys taken out of the pieces of an entry; pieces left with none go. -/
def pruneKeys (id : Nat) (dead : List Key) (l : List Piece) : List Piece :=
  (l.map fun p => if p.eid = id then { p with keys := p.keys.filter fun k => !dead.contains k } else p).filter fun p =>
    p.eid != id || !p.keys.isEmpty

/-- What has been taken of a bulk write that gets no more data feeds its digest stream (R143). -/
def State.hashCut (s : State) (e : Entry) : State :=
  let n := s.unitsOf e
  match e.takes n with
  | some (d, beats) =>
    if !e.req.digest || e.dg.block.isSome || e.accs.isEmpty || e.wdat.isEmpty || decide (beats ≤ e.wdat.length) then s
    else (s.hashTaken e d (e.unitsHere n)).modEntry e.id fun x => { x with dg := ⟨some 0, 0, 0⟩ }
  | none => s

/-- An admitted write that still lacks data when its subscriber goes down: no more data comes, and what it lacks is dropped. A
write of a port goes whole; a bulk write keeps the accesses whose data has come (DESIGN CHOICE, log 34: R160 does not say). -/
def State.dropUnfed (s : State) (e : Entry) : State :=
  match e.kind with
  | .wr | .wrPartial | .acc =>
    if e.fin.isSome || decide (writeBeats 1 e.req.len.toNat ≤ e.wdat.length) then s else (s.dropWork e.id).retire e
  | .writeBulk | .accBulk =>
    let dead := (e.accs.filter fun a => a.st.isNone && !e.bulkReady a).map Acc.key
    let s1 := s.modFab fun f =>
      { f with mq := f.mq.map fun q => { q with pieces := pruneKeys e.id dead q.pieces }, cq := pruneKeys e.id dead f.cq }
    let s2 := s1.hashCut e
    s2.modEntry e.id fun x => { x with accs := x.accs.map fun a => if a.st.isNone && dead.contains a.key then { a with st := some .ok } else a }
  | .rd | .fence | .gather | .brewLaunch | .brewAbort | .readBulk | .gatherList | .gatherPage | .scrub | .copy | .digestRec
  | .ctxWrite | .resealWork | .digestWork => s

/-- What a subscriber's inputs hold short of admission is discarded (R160, R161). -/
def State.clearInputs (s : State) (k : Nat) : State :=
  if k = 36 then s.modBlp fun b => { b with dq := [], owed := [], idat := [], late := [] }
  else s.modPort k fun p => { p with inq := [], owed := [], early := [], wdat := [] }

/-- A held reset or alignment keeps the fabric from sampling the lines; they are as found when it ends. -/
def State.linesHeld (s : State) : Bool := !s.sys.porN || s.sys.rstEnd

/-- The set line of a subscriber takes effect (R160, R161, R282, R372): it is masked and drains. What it had taken of writes that
get no more data feeds the digest (R143). -/
def State.subDown (s : State) (k : Nat) : State :=
  let s1 := s.modFab fun f => { f with down := insertNat k f.down, masked := insertNat k f.masked }
  let s2 := (s1.freezeSub k).clearInputs k
  let s3 := (s2.closeGhosts k).each (s2.fab.trk.filter fun e => e.sub == k) State.dropUnfed
  if s3.subEmpty k then s3.modFab fun f => { f with drained := insertNat k f.drained } else s3

/-- The controller resumes a drained subscriber (R163, R283): credits restart, tags are free, meters start anew. -/
def State.resumeSub (s : State) (k : Nat) : State :=
  let s1 := s.modFab fun f => { f with masked := f.masked.filter fun x => x != k, drained := f.drained.filter fun x => x != k }
  let s2 := s1.initMeters [k]
  if !s2.sys.ready then s2 else if k = 36 then s2.grantBlp else s2.grantPort k

/-- The cleared line of a subscriber takes effect (R163, R164): a drained subscriber resumes; another stays masked until it is
drained. -/
def State.subUp (s : State) (k : Nat) : State :=
  let s1 := s.modFab fun f => { f with down := f.down.filter fun x => x != k, drained := f.drained.filter fun x => x != k }
  if s1.subEmpty k then s1.resumeSub k else s1

/-- The controller samples the line of a subscriber (R159): what differs from what it found before takes effect. -/
def State.takeLine (s : State) (k : Nat) : State :=
  if s.fab.lines.contains k == s.fab.down.contains k then s
  else if s.fab.lines.contains k then s.subDown k
  else s.subUp k

/-- FCLK runs again: the lines that changed while it was gated take effect (R901). -/
def State.takeLines (s : State) : State := s.each (List.range 37) State.takeLine

/-- A line is driven. In reset it is as found when the reset ends; while the fabric island is stopped it takes effect when
FCLK restarts (R901); else at once (R159). Every change driven while FCLK runs takes effect; one undone in less than 3 FCLK
may be missed (R165; DESIGN CHOICE, log 68). -/
def State.driveLine (s : State) (k : Nat) (set : Bool) : State :=
  let put (l : List Nat) : List Nat := if set then insertNat k l else l.filter fun x => x != k
  let s1 := s.modFab fun f => { f with lines := put f.lines }
  if s.linesHeld then s1.modFab fun f => { f with down := put f.down, masked := put f.masked, drained := put f.drained }
  else if s.portsLive then s1.takeLine k
  else s1

/-- KX_SUB_DOWN_SET (R159, R160, R901). -/
def execKxSubDownSet (k : Fin 37) (s : State) : Res := .next (s.driveLine k.val true)

/-- KX_SUB_DOWN_CLEAR (R159, R163, R901). -/
def execKxSubDownClear (k : Fin 37) (s : State) : Res := .next (s.driveLine k.val false)

/-- SUB_DRAINED (R162, R164): the last tracker entry of a masked subscriber has been freed: its bit sets while its line is set,
and it resumes when the line has cleared. -/
def execSubDrained (k : Fin 37) (s : State) : Res :=
  .next <|
    let k := k.val
    if !s.portsLive || !s.isMasked k || !s.subEmpty k then s
    else if s.fab.down.contains k then s.modFab fun f => { f with drained := insertNat k f.drained }
    else s.resumeSub k

end Sys2Proof.Machine
end

