-- ==== Sys2Proof/Machine/MbxOps.lean ====
section
/-! DEFINITION. The mailbox: the doorbell's copy, the order of checks, completion, pending commands, and the start of
Thaw by a doorbell (R754 to R764, R798 to R803). -/

namespace Sys2Proof.Machine

/-- Argument word `i` of the copy that executes (R755). -/
def State.arg (s : State) (i : Nat) : Word := Tab.get 0 s.mbx.copyArgs i

/-- A register array with the listed words at 0, 1, ... -/
def tabOf (l : List Word) : Tab Word :=
  ((List.range l.length).map fun i => (i, l.getD i 0)).filter fun kv => kv.2 != 0

/-- What the doorbell does before the command executes (R755). -/
def State.takeDoorbell (s : State) : State :=
  s.modMbx fun m =>
    { m with copyCmd := m.cmd, copyArgs := m.args, resp := [], nresp := 0, pend := false, st := .busy,
             opcode := m.cmd.setWidth 8, since := s.sys.ltc, run := none, starts := none }

/-- Completion (R758, R803): response words only on E_OK, the MBX cause when the copied IRQ bit is 1. -/
def State.finish (s : State) (err : BitVec 8) (l : List Word) : State :=
  s.modMbx fun m =>
    { m with resp := if err = eOk then tabOf l else [], nresp := if err = eOk then l.length else 0, err := err,
             st := .done, run := none, starts := none,
             irq := if bit m.copyCmd 8 then m.irq ||| 1 else m.irq }

/-- Acceptance with PENDING (R759). -/
def State.finishPending (s : State) (todo : List Nat) : State :=
  let c : PendCmd := ⟨s.mbx.copyCmd.setWidth 8, (List.range 16).map s.arg, todo⟩
  (s.finish eOk []).modMbx fun m => { m with pend := true, pending := m.pending ++ [c] }

/-- A command with this opcode is pending (R760). -/
def State.isPending (s : State) (op : Nat) : Bool := s.mbx.pending.any fun c => c.op == BitVec.ofNat 8 op

/-- The final completion of a pending command: one CMD_DONE record, which sets the MBX cause (R759). -/
def State.endPending (s : State) (op : Nat) (err : BitVec 8) : State :=
  if s.isPending op then
    (s.modMbx fun m => { m with pending := dropFirst (fun c => c.op == BitVec.ofNat 8 op) m.pending }).event
      .cmdDone 0 (op + err.toNat * 2 ^ 8)
  else s

/-- The first check that fails decides the error code (R800). -/
def firstFail : List (Bool × BitVec 8) → Option (BitVec 8)
  | [] => none
  | (bad, e) :: t => if bad then some e else firstFail t

/-- A reserved bit of MBX_CMD or of a named argument, or an argument word not named, is nonzero (R800, check 1):
`masks` holds the bits that each argument word defines. -/
def State.argsBad (s : State) (masks : List Nat) : Bool :=
  fld s.mbx.copyCmd 9 23 != 0 ||
    (List.range 16).any fun i => (s.arg i).toNat != (s.arg i).toNat &&& masks.getD i 0

/-- The state of the instance forbids commands that need channels (R801). -/
def State.noChannels (s : State) : Bool :=
  s.therm.latch ||
    match s.sys.phase with
    | .romBoot | .negotiation | .training | .zeroing => true
    | .running | .frost | .thaw => false

/-- Run a command's checks in the order of R800, then the command. -/
def State.checked (s : State) (masks : List Nat) (checks : List (Bool × BitVec 8)) (go : State → State) : State :=
  match firstFail ((s.argsBad masks, eBadarg) :: checks) with
  | some e => s.finish e []
  | none => go s

/-- Admission is held for cause `c`: the word crosses class 7 to the fabric (R15, R80, R81). -/
def State.holdAdm (s : State) (c : Nat) : State := s.tell 7 0 (.admHold c)

/-- The hold of admission for cause `c` ends: the word crosses class 7 to the fabric (R15, R80, R81). -/
def State.freeAdm (s : State) (c : Nat) : State := s.tell 7 0 (.admFree c)

/-- Thaw starts: PHASE 6, counted from this tick (R903, R904); FCLK runs again, and a requester-down line that changed in
Frost takes effect (R159, R901). -/
def State.startThaw (s : State) : State := (s.modSys fun y => { y with phase := .thaw, wakeLtc := s.sys.ltc }).takeLines

/-- The control port works and Preid runs (R913). -/
def State.cpLive (s : State) : Bool := s.sys.porN && !s.sys.rstEnd

/-- The first LTC value at least 4,096 ticks ahead whose distance from ALIGN_LTC is a multiple of 65,536 (R719). -/
def State.quantum (s : State) (t : Nat) : Nat :=
  let d := t + 4096 - s.det.alignLtc
  s.det.alignLtc + (d + 65535) / 65536 * 65536

/-- A doorbell with MBX_CMD.OPCODE `op` (R755, R756, R802, R906): ignored while BUSY or before the release from warm
reset; in Frost it starts Thaw and the command waits; a command that R719 delays in DET_TIMING waits for its start;
otherwise `run` executes it on the copy. -/
def State.doorbell (s : State) (op : Nat) (quant : Bool) (run : State → State) : State :=
  if !s.cpLive || fld s.mbx.cmd 0 8 != op || s.mbx.st == .busy then s
  else
    let s1 := s.takeDoorbell
    if s.sys.phase == .frost && !s.therm.latch then s1.startThaw
    else match quant, s.det.mode with
      | true, .timing => s1.modMbx fun m => { m with starts := some (s.quantum s.sys.ltc) }
      | _, _ => run s1

end Sys2Proof.Machine
end

