-- ==== Sys2Proof/Machine/RepairOps.lean ====
section
/-! DEFINITION. What repairs share: the repair detail word, migration candidates, and the start of a row repair
(R679 to R685, R704). -/

namespace Sys2Proof.Machine

/-- The detail word of R704. -/
def repairDetail (chan pslice2 bank cause : Nat) : Nat := chan + pslice2 * 2 ^ 8 + bank * 2 ^ 16 + cause * 2 ^ 21

/-- AUTO_MIG (R701). -/
def State.autoMig (s : State) : Bool := bit s.stk.ecc 27

/-- COPY_SHARE, for the migrations that start after the commit (R701, R702). -/
def State.copyShare (s : State) : Nat := fld s.cfg.mig 4 8

/-- A logical channel becomes a migration candidate (R684, R685); causes 1 to 3 need AUTO_MIG. -/
def State.addCand (s : State) (c cause : Nat) : State :=
  if s.autoMig && !(s.stk.cands.any fun x => x.chan == c && x.cause == cause) then
    s.modStk fun k => { k with cands := k.cands ++ [⟨c, cause, 0, 0xFF⟩] }
  else s

/-- Spare rows left in a bank (R611, R681). -/
def Spare.rows (r : Spare) (bank : Nat) : Nat := r.rowsInit - Tab.get 0 r.rowsLeft bank

/-- Write every write-buffer entry of a row to the bank (R679 step 1); a correction that waited is counted and charged (R662,
R667). -/
def State.flushRow (s : State) (p bank row : Nat) : State :=
  let d := (s.slice p).dat
  let at' (w : WBuf) : Bool := w.bank == bank && w.row == row
  let s0 := s.each (d.corr.filter at') fun s _ => (s.stat p 26 1).lateCharge 40 5 64
  let s1 := s0.each ((d.wb ++ d.fow ++ d.corr).filter at') fun s w => s.setCode (keyOf p bank row w.col) w.code
  s1.modDat p fun d =>
    { d with wb := d.wb.filter fun w => !at' w, fow := d.fow.filter fun w => !at' w,
             corr := d.corr.filter fun w => !at' w }

/-- Read the 32 accesses of a row for a repair or a copy: corrected data with fresh check symbols, uncorrectable
accesses as their raw symbols, a stale row raw (R655, R679, R689). The flag marks raw symbols. -/
def State.readRow (s : State) (p bank row src : Nat) (stale : Bool) : List (Code × Bool) × State :=
  (List.range 32).foldl (fun (acc : List (Code × Bool) × State) c =>
    let k := keyOf p bank row c
    let v := acc.2.code k
    if stale then (acc.1 ++ [(v, true)], acc.2)
    else
      let d := acc.2.decode p k v src
      (acc.1 ++ [if d.1.ue then (v, true) else (rsEncode (dataOf d.1.code), false)], d.2)) ([], s)

/-- A row repair begins once CH_MAX, a window entry and the meter of subscriber 43 pass its 32 reads and 32 writes, and waits
until then (R263, R294), behind repairs of the slice that wait already (R262); on a held channel and in an alignment it waits
for the end of the hold (R244, R713), and for a hot row's spacing (R523). New accesses to the row wait, its writes go to the
bank, its 32 accesses are read and held, and ROW_REPAIR goes to the endpoint; with no spare row left the channel becomes a
candidate (R679 to R681). -/
def State.tryRepair (s : State) (p : Nat) (x : Repair) : State :=
  let r := (s.slice p).rep
  let gone (s : State) : State := s.modRep p fun y => { y with repWait := y.repWait.filter fun z => z != x }
  match s.stk.chanOf p with
  | none => gone s
  | some c =>
    let s := s.readBit c x.bank x.row
    if !r.inServ || r.repairs.any fun y => y.bank == x.bank && y.row == x.row then gone s
    else if r.rows x.bank = 0 then (gone s).addCand c 2
    else
      let wait (s : State) : State := if r.repWait.contains x then s else s.modRep p fun y => { y with repWait := y.repWait ++ [x] }
      if s.workHeld p || s.workSpaced p x.bank x.row || (!r.repWait.isEmpty && r.repWait.head? != some x) then wait s
      else match s.spendRow c with
      | none => wait (s.spendRowHeld c)
      | some s1 =>
        let s2 := (((gone s1).detBreak 5).flushRow p x.bank x.row).workAct p x.bank x.row 43
        let rd := s2.readRow p x.bank x.row 3 (s2.fab.isStale c x.bank x.row)
        let raws := (List.range rd.1.length).filter fun i => (rd.1.getD i (0, false)).2
        rd.2.modRep p fun y =>
          { y with repairs := y.repairs ++ [{ x with start := s.sys.ltc, held := rd.1.map (·.1), raws := raws }] }

/-- A row needs a repair. `detail` is the ECC detail word of the access that caused it. -/
def State.startRepair (s : State) (p bank row detail : Nat) : State :=
  s.tryRepair p { Repair.reset with bank := bank, row := row, detail := BitVec.ofNat 32 detail, arrival := s.fabView }

/-- The first of the repairs that wait for their charge tries again (R262). -/
def State.retryRepairs (s : State) (p : Nat) : State :=
  match (s.slice p).rep.repWait with
  | x :: _ => s.tryRepair p x
  | [] => s

/-- The row of an access is under repair: new accesses to it wait, and no write to it issues (R679). -/
def Spare.repairing (r : Spare) (bank row : Nat) : Bool := r.repairs.any fun x => x.bank == bank && x.row == row

/-! ### What a scrub read finds (R196, R197, R676 to R678) -/

/-- Region, set member and channel offset of a place in an enabled replica pair, when it is an access of the primary's footprint
(R184, R194). -/
def State.primaryAt (s : State) (c bank row col : Nat) : Option (Nat × Nat × Nat) :=
  (List.range 64).findSome? fun i =>
    let r := regionAt s.cfg.regions i
    if rEn r && rRepl r && i < rPartner r && (rCmask r).testBit c && rRowbase r ≤ row && row < rRowbase r + rB r then
      let k := ((bank / 4) ^^^ (row % 8)) + 8 * (bank % 4)
      let oc := (row - rRowbase r) * 65536 + k * 2048 + col * 64
      if oc < rF r then some (i, (rMembers r).idxOf c, oc) else none
    else none

/-- The primary's region and the place of the secondary copy of an access of a primary (R194, R197). -/
def State.secondOf (s : State) (c bank row col : Nat) : Option (Nat × Key) :=
  match s.primaryAt c bank row col with
  | none => none
  | some (i, m, oc) =>
    let pl := bandedCell (regionAt s.cfg.regions (rPartner (regionAt s.cfg.regions i))) m oc
    (s.stk.sliceOf pl.chan pl.row).map fun q => (i, keyOf q pl.bank pl.row pl.col)

/-- The data of an access as it is buffered or stored, corrected. -/
def State.dataAt (s : State) (p bank row col : Nat) : Line :=
  let k := keyOf p bank row col
  dataOf (s.decode p k (match (s.slice p).dat.bufferedAt bank row col with
    | some y => y.1
    | none => s.code k) 1).1.code

/-- The pair that scrub compares still stands: the regions are paired as they were, and the primary holds the data that scrub
read. -/
def State.compareOn (s : State) (x : Compare) : Bool :=
  let r := x.detail % 2 ^ 14
  let b := x.detail / 2 ^ 14 % 32
  let c := x.detail / 2 ^ 19 % 32
  let ch := x.detail / 2 ^ 24
  s.secondOf ch b r c == some (x.region, x.key) && match s.stk.sliceOf ch r with
    | some p => s.dataAt p b r c == x.data
    | none => false

/-- A compare that is over leaves the list. -/
def State.compareOver (s : State) (q : Nat) (x : Compare) : State :=
  s.modScr q fun y => { y with cmps := dropFirst (fun z => z == x) y.cmps }

/-- The secondary is rewritten from the primary once subscriber 40's meter passes the write (R197, R263). -/
def State.runFix (s : State) (q : Nat) (x : Compare) : State :=
  match s.spend 40 5 64 with
  | none => s.spendHeld 40 5 64
  | some s1 =>
    ((s1.compareOver q x).modDat q fun y =>
      y.wbFollow ⟨keyBank x.key, keyRow x.key, keyCol x.key, rsEncode x.data, false, 40, s.fab.nextId⟩).report q .replicaMismatch
      x.region x.detail

/-- Scrub reads the secondary copy of an access of a primary, as it is stored or buffered, and compares; when both decode and
differ, the secondary is rewritten from the primary (R197). The read is one of scrub: it is charged, it counts, it activates
its row, what it corrects is corrected and an uncorrectable access repairs its row (R263, R518, R662, R667, R677); none of a
stale row is made (R474). It waits while its channel is held (R244), for a hot row's spacing (R523), and while its charge does
not pass. A compare whose pair or primary has changed meanwhile is dropped. It takes no column slot (DESIGN CHOICE, log 57).
-/
def State.runCompare (s : State) (q : Nat) (x : Compare) : State :=
  let b := keyBank x.key
  let r := keyRow x.key
  let c := keyCol x.key
  let stale := (s.stk.chanOf q).any fun ch => s.fab.isStale ch b r
  let buf := (s.slice q).dat.bufferedAt b r c
  if !s.compareOn x || stale then s.compareOver q x
  else if s.workHeld q then s
  else if x.fix then s.runFix q x
  else if buf.isNone && s.workSpaced q b r then s
  else match s.spend 40 5 64 with
    | none => s.spendHeld 40 5 64
    | some s0 =>
      let s1 := (s0.compareOver q x).statSlice q 27 1
      let s2 := if buf.isSome then s1 else s1.workAct q b r 40
      let c2 := match buf with
        | some y => y.1
        | none => s.code x.key
      let d := s2.decode q x.key c2 1
      if d.1.ue then d.2.startRepair q b r (eccDetail r b c 1 3 (s.slice q).link.erasures.length)
      else if dataOf d.1.code = x.data then (if d.1.unknown.isEmpty then d.2 else d.2.correct q x.key c2 d.1.code s.fab.nextId)
      else
        let y : Compare := { x with fix := true }
        (d.2.modScr q fun z => { z with cmps := z.cmps ++ [y] }).runFix q y

/-- Scrub reads of secondary copies that wait try again, in order. -/
def State.retryCompares (s : State) (q : Nat) : State := s.each (s.slice q).scr.cmps fun s x => s.runCompare q x

/-- Scrub has read an access of slice `p` with data `data`: when it is one of a primary, the secondary copy is read too (R197). -/
def State.compareCopies (s : State) (p : Nat) (k : Key) (data : Line) : State :=
  match s.stk.chanOf p with
  | none => s
  | some c => match s.secondOf c (keyBank k) (keyRow k) (keyCol k) with
    | none => s
    | some (i, k2) =>
      let x : Compare := ⟨k2, data, i, keyRow k + keyBank k * 2 ^ 14 + keyCol k * 2 ^ 19 + c * 2 ^ 24, s.fabView, false⟩
      (s.modScr (keyPs k2) fun y => { y with cmps := y.cmps ++ [x] }).runCompare (keyPs k2) x

/-- A scrub read, a second scrub read, or a scrub check has been decoded, and counts as an access read by scrub (R197, R404, R667,
R676 to R678). -/
def State.endScrub (s : State) (p : Nat) (f : Flight) (c : Code) : State :=
  let k := keyOf p f.bank f.row f.col
  let era := (s.linkOf p f).erasures
  let r := s.decodeBy (s.linkOf p f) p k c 1
  let det (nerr : Nat) : Nat := eccDetail f.row f.bank f.col 1 nerr era.length
  let s1 := (r.2.statSlice p 27 1).freeEntry f.eid
  let chk := (s.slice p).scr.checks.find? fun x => x.bank == f.bank && x.row == f.row && x.col == f.col
  let isCheck := match f.use with
    | .check => true
    | _ => false
  let s2 := if isCheck then s1.modScr p fun x =>
      { x with checks := dropFirst (fun y => y.bank == f.bank && y.row == f.row && y.col == f.col) x.checks }
    else s1
  if r.1.ue then s2.startRepair p f.bank f.row (det 3)
  else
    let same (s : State) : State := s.compareCopies p k (dataOf r.1.code)
    let again : State :=
      let s3 := s2.correct p k f.code r.1.code f.eid
      let wrote := ((s3.slice p).dat.wb ++ (s3.slice p).dat.corr).any fun w => w.isAt f.bank f.row f.col && w.sub == 40
      same (if wrote then s3.modScr p fun x => { x with checks := x.checks ++ [⟨f.bank, f.row, f.col, r.1.unknown⟩] } else s3)
    match (if isCheck then chk else none) with
    | some y =>
      if y.syms.isEmpty || r.1.unknown.isEmpty then same s2
      else if r.1.unknown == y.syms then
        (same ((s2.correct p k f.code r.1.code f.eid).report p .eccHard p (det r.1.unknown.length))).startRepair p f.bank f.row
          (det r.1.unknown.length)
      else again
    | none => if isCheck || r.1.unknown.isEmpty then same s2 else again

end Sys2Proof.Machine
end

