-- ==== Sys2Proof/Machine/Schedule.lean ====
section
/-! DEFINITION. The channel scheduler: the selection of one row and one column command in each CCLK (R202 to R247),
refresh due times (R494) and the end of a row-disturbance throttle (R307). -/

namespace Sys2Proof.Machine

/-- One member of E (R211): a window or narrow entry with its next access, or the brew op. -/
structure Cont where
  /-- the entry; for the brew op one that only carries the subscriber -/
  w : WinEnt
  /-- it is the brew op -/
  brew : Bool
  /-- it is in the narrow slot -/
  narrow : Bool
  /-- bank of its next access -/
  bank : Nat
  /-- row of its next access -/
  row : Nat
  /-- effective deadline (R210) -/
  dl : Nat
  deriving DecidableEq, Repr

/-! ### Which entries are eligible -/

/-- An earlier write or accumulation of the same access waits in the unit ahead of this read half (R396). -/
def State.rmwBehind (s : State) (p id : Nat) (k : Key) : Bool :=
  let same := (s.slice p).dat.unit.filter fun x => keyOf p x.bank x.row x.col == k
  match same.head? with
  | none => false
  | some x => x.eid != id || x.acc

/-- A scrub check of R678, made after a UE of another reader, waits on slice `p` and has not issued. -/
def State.checkWaits (s : State) (p : Nat) : Bool :=
  (s.slice p).scr.checks.any fun y => y.syms.isEmpty &&
    !((s.slice p).sch.flight.any fun f => f.use == .check && f.bank == y.bank && f.row == y.row && f.col == y.col)

/-- A read of scrub may be served now: none of a row that is stale (R474); none of the walk, and no second read, while scrub
is off (R940); none of the walk while a check of R678 waits (R678). -/
def State.scrubReady (s : State) (p : Nat) (walk : Bool) (k : Key) : Bool :=
  !(match s.stk.chanOf p with
    | some c => s.fab.isStale c (keyBank k) (keyRow k)
    | none => false) &&
    (if walk then bit s.stk.scrub 0 && !s.checkWaits p
     else bit s.stk.scrub 0 || !((s.slice p).scr.checks.any fun y =>
       y.bank == keyBank k && y.row == keyRow k && y.col == keyCol k && !y.syms.isEmpty))

/-- Scrub skips what it has admitted of a row that has become stale since: the walk goes on, a check is dropped (R474, R675). -/
def State.skipStale (s : State) (p : Nat) : State :=
  match s.stk.chanOf p with
  | none => s
  | some c =>
    let bad (w : WinEnt) : Bool := (match w.use with
      | .scrub | .check => true
      | .port | .accMiss | .rmw | .reseal | .replica | .work => false) && w.keys.any fun k => s.fab.isStale c (keyBank k) (keyRow k)
    let ids := ((s.slice p).sch.window.filter bad).map (·.eid)
    if ids.isEmpty then s
    else
      (s.each ids fun s id => s.freeEntry id).modSlice p fun x =>
        { x with sch := { x.sch with window := x.sch.window.filter fun w => !bad w },
                 scr := { x.scr with checks := x.scr.checks.filter fun y => !s.fab.isStale c y.bank y.row } }

/-- An access of an entry may be served now, apart from colour and banks: own writes first (R126), earlier work for
the same access first (R396), a stale row that must be resealed first (R470), and what scrub waits for. -/
def State.accReady (s : State) (p : Nat) (w : WinEnt) (k : Key) : Bool :=
  (match w.use with
   | .port => !s.ownWriteAhead w.eid k
   | .rmw => !s.rmwBehind p w.eid k
   | .scrub => s.scrubReady p true k
   | .check => s.scrubReady p false k
   | .accMiss | .reseal | .replica | .work => true) &&
    (match w.use with
     | .scrub | .check | .reseal => true
     | .port | .rmw | .accMiss | .replica | .work => !s.metStale w k || s.staleRaw w.eid)

/-- A green entry older than the yellow age limit is in the channel (R271). -/
def State.oldGreen (s : State) (p : Nat) : Bool :=
  let x := (s.slice p).sch
  (x.window ++ x.narrowSlot).any fun w => w.colour == .green && s.inIsland p w && decide (s.yelAge < s.view p - w.arrival)

/-- Eligible entries with the next access of each (R210): those that the island has read out of its queue (R64, R81). -/
def State.eligible (s : State) (p : Nat) : List Cont :=
  let x := s.slice p
  let og := s.oldGreen p
  let mk (narrow : Bool) (w : WinEnt) : Option Cont :=
    match w.keys with
    | [] => none
    | k :: _ =>
      if !(w.colour == .yellow && og) && s.inIsland p w && !(x.bt.bank (keyBank k)).loan && s.accReady p w k then
        some ⟨w, false, narrow, keyBank k, keyRow k, s.effDl w.real w.dl w.arrival⟩
      else none
  x.sch.window.filterMap (mk false) ++ x.sch.narrowSlot.filterMap (mk true)

/-- A launch as a member of E: its effective deadline with the NODL_AGE in force, its port, its admission (R210, R212, R218).
A brew op has no insertion into the window, by which R212 breaks ties outside DET_TIMING and by which R240 takes the oldest
entry of a subscriber: it takes the next insertion number, so that it comes last in both (DESIGN CHOICE, log 64). -/
def State.brewMember (s : State) (p : Nat) (l : Launch) (row : Nat) : Cont :=
  ⟨{ WinEnt.reset with sub := l.port, seq := (s.slice p).sch.nextSeq, adm := l.eid }, true, false, 0, row,
    match s.fab.entry l.eid with
    | some e => s.effDl (e.req.slack != 0xFFFF) (e.arrival + e.req.slack.toNat) e.arrival
    | none => l.dl⟩

/-- The brew op as a contender: the op in progress, or the next one when R460, the thermal budget and the channel let
it start (R211, R218, R453). -/
def State.brewCont (s : State) (p : Nat) : Option Cont :=
  let q := (s.slice p).brew
  match s.launchOn p with
  | none => none
  | some l =>
    if q.stopped then none
    else match q.op with
      | some o => if isMacAcc o && decide (q.prog < macCount o) then some (s.brewMember p l (macAt o q.prog).1) else none
      | none => match q.next with
        | some o => if isRowOp o && !q.killed && s.brewSeen p && s.opFree p o && s.brewCool p then some (s.brewMember p l (opD0 o)) else none
        | none => none

/-! ### Order -/

/-- Class of a subscriber (R256). -/
def State.classOf (s : State) (k : Nat) : Nat :=
  let w := if k < 16 then s.cfg.class0 else if k < 32 then s.cfg.class1 else if k < 48 then s.cfg.class2 else s.cfg.class3
  fld w (2 * (k % 16)) 2

/-- Ties of R212. -/
def State.tie (s : State) (a b : Cont) : Bool :=
  match s.det.mode with
  | .timing => decide (a.w.sub < b.w.sub) || (a.w.sub == b.w.sub && decide (a.w.adm < b.w.adm))
  | _ => decide (a.w.seq < b.w.seq)

/-- The deadline that orders an entry in the row slot (R221). -/
def Cont.rowDl (c : Cont) : Nat := if c.narrow then c.w.arrival else c.dl

/-- Row-slot order in NORMAL arbitration (R211, R212, R221). -/
def State.rowBefore (s : State) (a b : Cont) : Bool :=
  if a.rowDl ≠ b.rowDl then decide (a.rowDl < b.rowDl) else s.tie a b

/-- Column-slot order in NORMAL arbitration (R211, R212). -/
def State.colBefore (s : State) (a b : Cont) : Bool :=
  if a.dl ≠ b.dl then decide (a.dl < b.dl) else s.tie a b

/-- The contender's next access hits the open row. -/
def State.isHit (s : State) (p : Nat) (c : Cont) : Bool :=
  if c.brew then s.brewOpen p c.row else ((s.slice p).bt.bank c.bank).openRow == some c.row

/-- Order in class arbitration: class, round robin among subscribers, a row hit, then age (R240, R241). -/
def State.clsBefore (s : State) (p : Nat) (a b : Cont) : Bool :=
  let ca := s.classOf a.w.sub
  let cb := s.classOf b.w.sub
  if ca ≠ cb then decide (ca < cb)
  else
    let last := Tab.get 0 (s.slice p).sch.rr ca
    let ra := (a.w.sub + 64 - (last + 1) % 64) % 64
    let rb := (b.w.sub + 64 - (last + 1) % 64) % 64
    if ra ≠ rb then decide (ra < rb)
    else
      let ha := s.isHit p a
      let hb := s.isHit p b
      if ha ≠ hb then ha else decide (a.w.seq < b.w.seq)

/-- Sort contenders. -/
def sortConts (lt : Cont → Cont → Bool) (l : List Cont) : List Cont := l.mergeSort fun a b => !lt b a

/-- Pressing (R210, R221). -/
def State.pressing (s : State) (p : Nat) (c : Cont) : Bool :=
  c.narrow || decide ((c.dl : Int) - s.view p ≤ s.hitWin)

/-- A subscriber that yields every slot (R217). -/
def yields (k : Nat) : Bool := k == 40 || k == 45

/-- Urgent (R210); scrub and in-service test never become so (R217, R674). -/
def State.urgent (s : State) (p : Nat) (c : Cont) : Bool := !yields c.w.sub && decide ((c.dl : Int) - s.view p < s.preemptThr)

/-! ### Row commands -/

/-- The row command a contender needs: none, `some true` ACT, `some false` PRE. -/
def State.rowNeed (s : State) (p : Nat) (c : Cont) : Option Bool :=
  if c.brew then
    match (s.slice p).brew.op with
    | some _ => if s.brewOpen p c.row then none else some (s.brewClosed p)
    | none => if s.brewClosed p then none else some false
  else match ((s.slice p).bt.bank c.bank).openRow with
    | none => some true
    | some r => if r = c.row then none else some false

/-- Activations that the contender's ACT counts as in the activation meter: one for each computing bank of a launch (R303,
R454). -/
def State.actWeight (s : State) (p : Nat) (c : Cont) : Nat := if c.brew then (s.slice p).brew.banks.length else 1

/-- The activation meter allows the contender's ACT (R306). -/
def State.actMeterOk (s : State) (p : Nat) (c : Cont) : Bool :=
  s.actAllowed p (if c.brew then c.w.sub else s.actSub c.w) (s.actWeight p c)

/-- The row command with which the contender competes for the row slot: none for one whose ACT the activation meter does not
allow, which is not eligible for it (R306), and for a launch in the CCLK of its BSET (R597). -/
def State.rowWant (s : State) (p : Nat) (c : Cont) : Option Bool :=
  if s.actMeterOk p c && (!c.brew || decide ((s.slice p).brew.bset ≤ (s.slice p).sch.cclk)) then s.rowNeed p c else none

/-- The contender's row command may issue at CCLK `t` (R210, R247, R306, R523). -/
def State.rowReady (s : State) (p t : Nat) (c : Cont) (act : Bool) : Bool :=
  if c.brew then (if act then s.brewActOk p t c.w.sub [c.row] else s.brewPreOk p t)
  else if act then
    (s.slice p).bt.actOk c.bank t && !s.spaced p c.bank c.row && s.actAllowed p (s.actSub c.w) 1
  else (s.slice p).bt.preOk c.bank t

/-- Issue the contender's row command; a broadcast ACT or PRE of a launch is one command and counts once (R202, R258). -/
def State.doRow (s : State) (p t : Nat) (c : Cont) (act : Bool) : State :=
  if c.brew then
    if act then
      (((s.each (s.slice p).brew.banks fun s b => s.modBt p fun x => x.act b c.row t).sendRow p 1 (c.row * 2 ^ 9 + bcBit)).statSlice p 1 1).brewCount
        p t c.w.sub [c.row]
    else (s.brewPre p t).statSlice p 2 1
  else if act then s.doAct p c.bank c.row (s.actSub c.w) t
  else s.doPre p c.bank t

/-- An ACT, or the row op of a launch, held only by tRRD or tFAW (R215, R457; that a row op counts here is DEDUCED, log 54). -/
def State.heldByBudget (s : State) (p t : Nat) (c : Cont) : Bool :=
  let b := (s.slice p).bt
  if c.brew then
    let bs := (s.slice p).brew.banks
    (s.rowNeed p c == some true || ((s.slice p).brew.op.isNone && s.brewClosed p)) && s.actMeterOk p c &&
      (bs.all fun i => decide ((b.bank i).okAct ≤ t) && !s.spaced p i c.row) &&
      !(decide (b.okActAny ≤ t) && b.fawOk (fawWeight bs.length) t)
  else s.rowNeed p c == some true && decide ((b.bank c.bank).okAct ≤ t) && !s.spaced p c.bank c.row &&
    s.actAllowed p (s.actSub c.w) 1 && !(decide (b.okActAny ≤ t) && b.fawOk 1 t)

/-! ### Column commands -/

/-- A pressing entry ahead of `c` needs a PRE of the bank, so hits to its open row wait (R214: a hit overtakes no pressing
entry; one that stands before it in the row order overtakes nothing. DEDUCED, log 54). -/
def State.hitBlocked (s : State) (p : Nat) (e : List Cont) (c : Cont) : Bool :=
  e.any fun x => !x.brew && x.bank == c.bank && s.pressing p x && s.rowWant p x == some false && s.rowBefore x c

/-- Writes to the open row of a bank wait while a pressing entry needs its PRE, in NORMAL arbitration (R214, R241). -/
def State.wrBlocked (s : State) (p : Nat) (cls : Bool) (e : List Cont) (bank : Nat) : Bool :=
  !cls && e.any fun x => !x.brew && x.bank == bank && s.pressing p x && s.rowWant p x == some false

/-- Column-ready (R210), without R214; a launch's first command comes after its BSET (R597). No column command goes to a bank
whose urgent refresh waits for its PRE: the refresh wins against every request (R219), within the bound of R507. -/
def State.colReady0 (s : State) (p t : Nat) (c : Cont) : Bool :=
  let b := (s.slice p).bt
  if c.brew then
    (s.slice p).brew.op.isSome && decide ((s.slice p).brew.bset ≤ t) && s.brewOpen p c.row &&
      (s.slice p).brew.banks.all fun i => b.colOk i t
  else (b.bank c.bank).openRow == some c.row && b.colOk c.bank t && decide (b.okRd ≤ t) && !s.refUrgent p c.bank

/-- Column-ready (R210, R214). -/
def State.colReady (s : State) (p t : Nat) (cls : Bool) (e : List Cont) (c : Cont) : Bool :=
  s.colReady0 p t c && (cls || c.brew || !s.hitBlocked p e c)

/-- hits_pending (R213): an entry hits the open row and is column-ready or will be once tCCD allows. -/
def State.hitsPending (s : State) (p t bank : Nat) (e : List Cont) : Bool :=
  let b := (s.slice p).bt
  e.any fun c => !c.brew && c.bank == bank && s.isHit p c && decide ((b.bank bank).okCol ≤ t) && decide (b.okRd ≤ t) &&
    !s.hitBlocked p e c

/-! ### Reads of held data (R207, R208) -/

/-- One access of an entry is answered from held data, when it can be; the entry keeps its other accesses. -/
def State.serveOne (s : State) (p : Nat) (w : WinEnt) (narrow : Bool) (k : Key) : State :=
  let b := keyBank k
  let r := keyRow k
  let c := keyCol k
  let d := (s.slice p).dat
  let scrubbing := match w.use with
    | .scrub | .check => true
    | .port | .accMiss | .rmw | .reseal | .replica | .work => false
  let held := if scrubbing then d.bufferedAt b r c else d.heldAt b r c
  let nb := if narrow && held.isNone && w.use == .port && !s.metStale w k then
      (d.nrb.find? fun kv => kv.1 == k).map (·.2) else none
  if !s.accReady p w k || (held.isNone && nb.isNone) then s
  else
    let drop (l : List WinEnt) : List WinEnt :=
      (updFirst (fun x : WinEnt => x.seq == w.seq) (fun x => { x with keys := x.keys.filter fun y => y != k }) l).filter
        fun x => !x.keys.isEmpty
    let s0 := match w.use with
      | .port => s.chargeScale w.eid k
      | .accMiss | .rmw | .scrub | .check | .reseal | .replica | .work => s
    let s1 := s0.modSch p fun x =>
      if narrow then { x with narrowSlot := drop x.narrowSlot } else { x with window := drop x.window }
    let l := (s.slice p).link
    let f : Flight := ⟨w.eid, w.sub, w.use, b, r, c, s.code k, false, (s.slice p).sch.cclk, false, l.steer, l.narrow, w.colour⟩
    match nb, held with
    | some x, _ => (s1.modDat p fun d => d.putNarrow k x).endRead p f .ok x
    | none, some (x, raw) =>
      if scrubbing then s1.endScrub p f (if raw then x else rsEncode (dataOf x))
      else if s.metStale w k then s1.endRead p f .stale (dataOf x)
      else if raw then
        let dx := s1.decode p k x (w.use.src w.sub)
        let s2 := if dx.1.ue then dx.2.queueCheck p k else dx.2
        s2.endRead p f (if dx.1.ue then .ue else .ok) (dataOf dx.1.code)
      else s1.endRead p f .ok (dataOf x)
    | none, none => s

/-- Answer every access that held data can answer (R207, R208, R398). -/
def State.serveHeld (s : State) (p : Nat) : State :=
  let x := (s.slice p).sch
  let here (l : List WinEnt) : List WinEnt := l.filter fun w => s.inIsland p w
  let s1 := s.each (here x.narrowSlot) fun s w => s.each w.keys fun s k => s.serveOne p w true k
  s1.each (here x.window) fun s w => s.each w.keys fun s k => s.serveOne p w false k

/-! ### Issue of column commands -/

/-- RD of an entry's next access: the bank sends its symbols, which return later (R655, R656, R247). -/
def State.issueRd (s : State) (p t : Nat) (c : Cont) : State :=
  match c.w.keys with
  | [] => s
  | k :: rest =>
    let s0 := match c.w.use with
      | .port => s.chargeScale c.w.eid k
      | .accMiss | .rmw | .scrub | .check | .reseal | .replica | .work => s
    let s1 := s0.countHit p c.bank
    let gap := s.colGap p
    let stale := match c.w.use with
      | .scrub | .check => false
      | .reseal => true
      | .port | .accMiss | .rmw | .replica | .work => s.metStale c.w k
    let upd (l : List WinEnt) : List WinEnt :=
      (updFirst (fun x : WinEnt => x.seq == c.w.seq) (fun x => { x with keys := rest, taken := x.taken + 1 }) l).filter
        fun x => !x.keys.isEmpty
    let s2 := s1.modSch p fun x =>
      { x with window := upd x.window, narrowSlot := upd x.narrowSlot,
               flight := x.flight ++ [⟨c.w.eid, c.w.sub, c.w.use, c.bank, c.row, keyCol k, s.code k, stale, t, false,
                 (s.slice p).link.steer, (s.slice p).link.narrow, c.w.colour⟩] }
    (s2.sendCol p 1 (c.bank * 2 ^ 3 + keyCol k * 2 ^ 8)).modBt p fun b =>
      { b.modBank c.bank fun x => { x with okPre := max x.okPre (t + b.trtp) } with
        okCol := t + gap, okWr := max b.okWr (t + b.trtw) }

/-- Writes that may issue, oldest first: their banks are not on loan (R459), their rows not under repair (R679). -/
def Slice.drain (x : Slice) : List WBuf := x.dat.wb.filter fun w => !(x.bt.bank w.bank).loan && !x.rep.repairing w.bank w.row

/-- The oldest write whose row is open and that may issue (R214, R219, R234, R247). A write to an open row that timing still holds
does not keep back a younger one to an open row: R234 does not say (DESIGN CHOICE, log 71). -/
def State.nextWr (s : State) (p t : Nat) (cls : Bool) (e : List Cont) : Option WBuf :=
  let x := s.slice p
  x.drain.find? fun w =>
    (x.bt.bank w.bank).openRow == some w.row && x.bt.colOk w.bank t && decide (x.bt.okWr ≤ t) && !s.refUrgent p w.bank &&
      !s.wrBlocked p cls e w.bank

/-- WR of a write-buffer entry: the access changes in the bank (R127, R234, R247). -/
def State.issueWr (s : State) (p t : Nat) (w : WBuf) : State :=
  let s1 := (s.countHit p w.bank).modDat p fun d => { d with wb := dropFirst (fun x => x == w) d.wb }
  let gap := s.colGap p
  let s2 := (s1.setCode (keyOf p w.bank w.row w.col) w.code).modBt p fun b =>
    let last := t + b.wl + 1
    { b.modBank w.bank fun x => { x with okPre := max x.okPre (last + b.twr) } with
      okCol := t + gap, okRd := max b.okRd (last + b.twtr) }
  (s2.sendCol p 2 (w.bank * 2 ^ 3 + w.col * 2 ^ 8)).fillWb p

/-- The column half of access `c` of a MAC op: MLD, MST or MSTR (R441, R596). -/
def macHalf (o : OpWord) (c col : Nat) : Nat × Nat :=
  let ctl := opD2 o
  let f := c % (32 * (ctl / 64 % 8 + 1))
  match opOpc o with
  | 7 => (3, col * 2 ^ 8 + opAux o / 32 % 8 * 2 ^ 13)
  | 8 => (4, col * 2 ^ 8 + opAux o / 32 % 8 * 2 ^ 13)
  | _ => (5, col * 2 ^ 8 + ctl % 8 * 2 ^ 13 + (ctl / 8 % 8 + f / 32) % 8 * 2 ^ 16 + f % 32 * 2 ^ 19 + ctl / 512 % 2 * 2 ^ 24)

/-- The column access of the brew op in progress, in every computing bank, which has now used its row (R229, R258, R440 to R444,
R934). -/
def State.issueMac (s : State) (p t : Nat) : State :=
  match (s.slice p).brew.op, s.launchOn p with
  | some o, some l =>
    let q := (s.slice p).brew
    let at' := macAt o q.prog
    let r := opAux o / 32 % 8
    let gap := s.colGap p
    let s1 := s.each q.banks fun s b =>
      let k := keyOf p b at'.1 at'.2
      let d := dataOf (s.code k)
      match opOpc o with
      | 7 => s.modBrew p fun q => q.setReg b r d
      | 8 => s.setCode k (BitVec.ofNat 576 ((s.code k).toNat / 2 ^ 512 * 2 ^ 512 + ((s.slice p).brew.reg b r).toNat))
      | _ => s.modBrew p fun q => q.macStep o b q.prog d
    let n := q.banks.length
    let s2 := (s1.modBrew p fun q => { q with prog := q.prog + 1, seg := q.seg + 1 }).modBt p fun b =>
      let b' : BankSet := { b with okCol := t + gap }
      if opOpc o = 8 then
        q.banks.foldl (fun b i => b.modBank i fun x => { x with okPre := max x.okPre (t + b.twr) }) b'
      else b'
    let h := macHalf o q.prog at'.2
    let s3 := ((s2.sendCol p h.1 h.2).countHit p (q.banks.headD 0)).modBt p fun b =>
      q.banks.foldl (fun b i => b.modBank i fun x => { x with fresh := false }) b
    if opOpc o = 9 then ((s3.brewCharge l (64 * n)).brewHeat p n).statSub l.port 16 (32 * n) else s3
  | _, _ => s

/-! ### The row slot -/

/-- Refresh for the row slot: an urgent one takes it whatever happens (R211, R219, R508). -/
def State.urgentRefresh (s : State) (p t i : Nat) : State :=
  let b := (s.slice p).bt
  match (b.bank i).openRow with
  | some _ => if b.preOk i t then s.close p i t else s
  | none => if b.actOk i t then s.refpb p i t else s

/-- Banks that nothing needs and that are not on loan. -/
def Slice.idleBanks (x : Slice) (busy : List Nat) : List Nat :=
  (List.range 32).filter fun i => !busy.contains i && !(x.bt.bank i).loan

/-- A refresh is due in a bank that nothing needs (R499). -/
def Slice.dueBanks (x : Slice) (busy : List Nat) : List Nat := (x.idleBanks busy).filter fun i => decide (0 < (x.rf.rb i).owed)

/-- A due refresh for a bank that nothing needs, when one may issue (R211, R499, R503). -/
def State.dueRefresh (s : State) (p t : Nat) (busy : List Nat) : Option State :=
  let x := s.slice p
  let ok (i : Nat) : Bool := match (x.bt.bank i).openRow with
    | some _ => x.bt.preOk i t
    | none => x.bt.actOk i t
  (x.rf.order ((x.dueBanks busy).filter ok)).map fun i => s.urgentRefresh p t i

/-- A pull-in, when one may issue (R502). -/
def State.pullIn (s : State) (p t : Nat) (busy : List Nat) : State :=
  let x := s.slice p
  let det := s.det.mode == .timing
  let pulls := (x.idleBanks busy).filter fun i =>
    bit s.cfg.refCtl 2 && !det && (x.rf.rb i).owed == 0 && decide ((x.rf.rb i).pulled < s.refLimit p) &&
      (x.bt.bank i).openRow == none && x.bt.actOk i t
  match pulls with
  | i :: _ => s.refpb p i t
  | [] => s

/-- A due refresh, or a pull-in, for banks that nothing needs (R211, R499, R502, R503). -/
def State.idleRefresh (s : State) (p t : Nat) (busy : List Nat) : State := (s.dueRefresh p t busy).getD (s.pullIn p t busy)

/-- The row command a write needs when no write hits an open row (R234); none whose ACT the activation meter does not allow
(R306). -/
def State.wrRow (s : State) (p t : Nat) : Option State :=
  let x := s.slice p
  if x.drain.any fun w => (x.bt.bank w.bank).openRow == some w.row then none
  else match x.drain.head? with
    | none => none
    | some w =>
      if !s.actAllowed p w.sub 1 then none
      else match (x.bt.bank w.bank).openRow with
      | some _ => if x.bt.preOk w.bank t then some (s.doPre p w.bank t) else none
      | none =>
        if x.bt.actOk w.bank t && !s.spaced p w.bank w.row then
          some (s.doAct p w.bank w.row w.sub t)
        else none

/-- blocked_for_pressing (R215). -/
def State.budgetBlocked (s : State) (p t : Nat) (e : List Cont) (x : Cont) : Bool :=
  e.any fun y => y != x && s.pressing p y && s.heldByBudget p t y

/-- Banks that a contender's row command goes to. -/
def Cont.rowBanks (c : Cont) (q : BrewSeq) : List Nat := if c.brew then q.banks else [c.bank]

/-- The first contender of a list whose row command may issue (R211, R214, R215, R218). -/
def State.rowPick (s : State) (p t : Nat) (cls : Bool) (e : List Cont) : List Cont → Option (Cont × Bool)
  | [] => none
  | x :: rest =>
    match s.rowWant p x with
    | none => s.rowPick p t cls e rest
    | some act =>
      let skip :=
        if cls then false
        else if act then s.budgetBlocked p t e x
        else (x.rowBanks (s.slice p).brew).any (fun b => s.hitsPending p t b e) && !s.pressing p x
      if !skip && s.rowReady p t x act then some (x, act) else s.rowPick p t cls e rest

/-- An urgent refresh that takes the row slot: the bank it goes to (R211, R219, R503). One owed by a bank on loan waits for the
preemption point (R465, R509); R211 gives the slot to nothing else, and while only such a refresh is urgent the model leaves it to
other commands (DESIGN CHOICE, log 64). -/
def State.urgentBank (s : State) (p : Nat) : Option Nat :=
  let x := s.slice p
  x.rf.order ((List.range 32).filter fun i => s.refUrgent p i && !(x.bt.bank i).loan)

/-- The work that holds the channel precharges every bank: a full retrain, or a rate change before its self-refresh (R253,
R630). -/
def State.closes (s : State) (p : Nat) : Bool :=
  ((s.slice p).link.state == .retrain && (s.slice p).link.cause != 5) || match s.mc with
    | some m => m.committed && m.what == .rate && m.held.contains p
    | none => false

/-- Self-refresh entry of a rate change: every bank is precharged, no refresh is running in one (tRFCpb, R247) and no read is
outstanding (step 4 of R253). -/
def State.enterSr (s : State) (p : Nat) : Option State :=
  let b := (s.slice p).bt
  if (s.slice p).link.state == .retrain || !(s.slice p).sch.flight.isEmpty ||
      !((List.range 32).all fun i => (b.bank i).openRow.isNone && decide ((b.bank i).okPre ≤ (s.slice p).sch.cclk)) then none
  else some ((s.sendRow p 4 0).modRf p fun r => { r with selfRef := true })

/-- A PRE of the holding work: the lowest-numbered bank with an open row that may be precharged (R202, R247). -/
def State.closeNext (s : State) (p t : Nat) : Option State :=
  let b := (s.slice p).bt
  ((List.range 32).find? fun i => (b.bank i).openRow.isSome && b.preOk i t).map fun i => s.close p i t

/-- The row slot of a held channel: refreshes, and the PREs and the SRE of the work that holds it (R202, R244, R245, R510). -/
def State.refreshSlot (s : State) (p t : Nat) : State :=
  if (s.slice p).sch.rowTaken then s
  else match s.urgentBank p with
    | some i => s.urgentRefresh p t i
    | none => match (if s.closes p then (s.closeNext p t).or (s.enterSr p) else none) with
      | some s' => s'
      | none => s.idleRefresh p t []

/-- The PRE that a launch stopped at the end of an op still owes its banks (R230, R463). -/
def State.stopPre (s : State) (p t : Nat) : Option State :=
  if !(s.slice p).brew.stopOpen then none
  else
    let b := (s.slice p).bt
    let bs := (s.slice p).brew.banks.filter fun i => (b.bank i).openRow.isSome && !(b.bank i).loan
    if bs.isEmpty || !(bs.all fun i => b.preOk i t) then none
    else some (((s.each bs fun s i => s.modBt p fun x => x.pre i t).sendRow p 2 bcBit).modBrew p fun q => { q with stopOpen := false })

/-- The first takeover whose MIRROR has not been sent. -/
def Link.mirrorWaits (l : Link) : Bool := l.swap.any fun t => !t.mirrored

/-- The MIRROR of the oldest takeover that waits for one is sent in the row slot (R598, R604). -/
def State.sendMirror (s : State) (p t : Nat) : State :=
  let x := ((s.slice p).link.swap.find? fun x => !x.mirrored).getD Trims.reset
  let s1 := (s.sendRow p 8 (x.lane * 2 ^ 4 + x.dst * 2 ^ 11)).modLink p fun l =>
    { l with swap := updFirst (fun x : Trims => !x.mirrored) (fun x => { x with mirrored := true, since := t }) l.swap }
  s1.modSch p fun x => { x with sideAt := if (s1.slice p).link.mirrorWaits then some t else none }

/-- A member of E wants the row slot: it needs a row command; a brew op that has not started is a row op, which does (R598). -/
def State.wantsRow (s : State) (p : Nat) (c : Cont) : Bool := (c.brew && (s.slice p).brew.op.isNone) || (s.rowWant p c).isSome

/-- A row slot that an eligible entry, a pending brew op, or a due or urgent refresh wants (R598). -/
def State.slotWanted (s : State) (p : Nat) (e : List Cont) (busy : List Nat) : Bool :=
  e.any (s.wantsRow p) || !((s.slice p).dueBanks busy).isEmpty || (s.urgentBank p).isSome

/-- An LSTEER, ETRIM or CALP has waited 64 CCLK, and no urgent entry, urgent brew op or urgent refresh wants the row slot
(R598). -/
def State.sideLate (s : State) (p t : Nat) (e : List Cont) : Bool :=
  (match (s.slice p).sch.sideAt with
   | some a => decide (a + 64 ≤ t)
   | none => false) &&
    !(e.any fun c => s.urgent p c && s.wantsRow p c) && (s.urgentBank p).isNone

/-- The members of E of island `p` in row order (R211). -/
def State.members (s : State) (p : Nat) : List Cont :=
  sortConts (if (s.slice p).sch.cls then s.clsBefore p else s.rowBefore) (s.eligible p ++ (s.brewCont p).toList)

/-- Banks that members of E need. -/
def State.busyBanks (s : State) (p : Nat) (e : List Cont) : List Nat := e.flatMap fun c => c.rowBanks (s.slice p).brew

/-- The row slot of the coming CCLK is left to an LSTEER, ETRIM or CALP, with tXS over (R244, R247, R598). -/
def State.sideSlot (s : State) (p : Nat) : Bool :=
  let e := s.members p
  !(s.slice p).sch.rowTaken && (s.slice p).sch.held == 0 && decide ((s.slice p).bt.okAny ≤ (s.slice p).sch.cclk) &&
    (s.sideLate p (s.slice p).sch.cclk e || !s.slotWanted p e (s.busyBanks p e))

/-- An LSTEER, ETRIM or CALP waits for its row slot from now on, if it does not already (R598). -/
def State.sideWait (s : State) (p : Nat) : State := s.modSch p fun x => { x with sideAt := x.sideAt.or (some x.cclk) }

/-- An LSTEER, ETRIM or CALP takes the row slot of the coming CCLK (R598). -/
def State.sideTake (s : State) (p : Nat) : State :=
  (s.modLink p fun l => { l with frame := 0 }).modSch p fun x =>
    { x with rowTaken := true, sideAt := if (s.slice p).link.mirrorWaits then some x.cclk else none }

/-- The row slot of one CCLK (R211, R217, R234, R598). In class arbitration R240 alone orders the entries. The PRE that a stopped
launch owes goes ahead of the write drain and of every member of E, an order that R230 and R463 leave open (DESIGN CHOICE,
log 64). In the WRITE phase the PRE or ACT of the oldest write goes ahead of every row command of E, narrow and urgent ones too:
R211 and R234 give no order between them (DESIGN CHOICE, log 71). -/
def State.rowSlot (s : State) (p t : Nat) (cls : Bool) (e : List Cont) : State :=
  let x := s.slice p
  let busy := s.busyBanks p e
  if x.sch.rowTaken then s
  else match s.urgentBank p with
    | some i => s.urgentRefresh p t i
    | none =>
      if x.link.mirrorWaits && decide (x.bt.okAny ≤ t) && (s.sideLate p t e || !s.slotWanted p e busy) then s.sendMirror p t
      else match s.stopPre p t with
      | some s' => s'
      | none => match (if x.sch.wrPhase then s.wrRow p t else none) with
        | some s' => s'
        | none =>
          let main := e.filter fun c => cls || !yields c.w.sub
          let rest := e.filter fun c => !cls && yields c.w.sub
          match s.rowPick p t cls e main with
          | some (c, act) => s.doRow p t c act
          | none =>
            let need := main.any fun c => (s.rowWant p c).isSome
            match (if need then none else s.rowPick p t cls e rest) with
            | some (c, act) => s.doRow p t c act
            | none => s.idleRefresh p t busy

/-- The oldest write in the WRITE phase, when none hits an open row: it needs an ACT, or first a PRE for it (R234, R525). -/
def State.wrAct (s : State) (p : Nat) : Option WBuf :=
  let x := s.slice p
  if !x.sch.wrPhase || x.drain.any (fun w => (x.bt.bank w.bank).openRow == some w.row) then none
  else x.drain.head?

/-- Count the CCLK in which spacing or an activation meter withheld an ACT, of an entry, a brew op, a write drain or a row repair
(R318, R538). -/
def State.countHeldActs (s : State) (p : Nat) (e : List Cont) : State :=
  let acts := e.filter fun c => (s.rowNeed p c).isSome || (c.brew && (s.slice p).brew.op.isNone)
  let wr := s.wrAct p
  let rows (c : Cont) : List Nat := match (if c.brew then (s.slice p).brew.next else none) with
    | some o => rowsNamed o
    | none => [c.row]
  let opens (c : Cont) : Bool := s.rowNeed p c == some true || (c.brew && (s.slice p).brew.op.isNone && s.brewClosed p)
  let spacedBy (c : Cont) : Bool := opens c && (c.rowBanks (s.slice p).brew).any fun b => (rows c).any fun r => s.spaced p b r
  let s1 := if acts.any spacedBy || (wr.any fun w => ((s.slice p).bt.bank w.bank).openRow == none && s.spaced p w.bank w.row) ||
      ((s.slice p).rep.repWait.head?.any fun x => s.workSpaced p x.bank x.row) then s.statSlice p 22 1 else s
  if (acts.any fun c => !s.actMeterOk p c) || (wr.any fun w => !s.actAllowed p w.sub 1) then
    match s.stk.chanOf p with
    | some c => s1.statChan c 2 1
    | none => s1
  else s1

/-! ### The column slot -/

/-- Units of one page of a GATHER in its stream (R353, R367). -/
def pageUnits (d : BitVec 160) : Nat := (fld d 144 10 + 1) * (fld d 112 10 + 1)

/-- The page that a gather page read belongs to: the GATHER, counted in pages of the largest list (R228, R365). -/
def State.pageOf (s : State) (id : Nat) : Option Nat :=
  match s.fab.entry id with
  | none => none
  | some e => match e.kind with
    | .gatherPage =>
      let g := s.fab.engine e.parent
      some (g.eid * 4096 + e.beats / pageUnits g.desc)
    | _ => none

/-- A stream (R228): the part of a GATHER's page on the channel, a BLP piece, a MAC_STREAM op. -/
def State.isStream (s : State) (p : Nat) (c : Cont) : Bool :=
  if c.brew then (s.slice p).brew.op.any fun o => opOpc o == 9
  else c.w.sub == 36 || (c.w.sub == 42 && (s.pageOf c.w.eid).isSome)

/-- The number a stream holds the grant under: 0 for the brew stream, an even number for a page, an odd one for a window
entry. -/
def State.grantNo (s : State) (c : Cont) : Nat :=
  if c.brew then 0
  else match (if c.w.sub = 42 then s.pageOf c.w.eid else none) with
    | some n => 2 * n + 2
    | none => 2 * c.w.seq + 1

/-- Units of page `page` of engine `i` that it has not issued yet are read on the channel of island `p` (R179, R194, R228,
R355). -/
def State.pageAhead (s : State) (p i page : Nat) : Bool :=
  let g := s.fab.engine i
  let d := g.desc
  let t := ((s.fab.entry g.eid).getD Entry.reset).tab
  let n := pageUnits d
  let chunk := fld d 112 10 + 1
  let size := 4096 * 2 ^ fld d 80 3
  let base := fld (Tab.get 0 g.ents page) 0 40 / size * size
  let addr (u : Nat) : Nat := base + 64 * (fld d 96 10 + u / chunk * fld d 128 10 + u % chunk)
  decide (g.pos < (page + 1) * n) && match findRegion t base with
    | none => false
    | some r => ((List.range n).filter fun u => decide (g.pos ≤ page * n + u)).any fun u =>
        let x := regionAt t r
        decide (rLo x ≤ addr u) && (s.readIn t r (addr u - rLo x) 1).any fun a => s.stk.sliceOf a.chan a.row == some p

/-- Reads of a GATHER's page are still to come on the channel of island `p`: in its window, in the shaping queues, or from
the engine (R228, R366). -/
def State.pageLeft (s : State) (p n : Nat) : Bool :=
  ((s.slice p).sch.window.any fun w => w.sub == 42 && s.pageOf w.eid == some n) ||
    ((s.fab.cq ++ s.fab.mq.flatMap (·.pieces)).any fun x => x.sub == 42 && s.pageOf x.eid == some n &&
      x.keys.any fun k => keyPs k == p) ||
    (List.range 16).any fun i =>
      let g := s.fab.engine i
      g.eid == n / 4096 && !g.drop && s.pageAhead p i (n % 4096)

/-- The stream that holds a grant number has not ended (R225, R228). -/
def State.grantLive (s : State) (p g : Nat) : Bool :=
  if g = 0 then (match (s.slice p).brew.op with
    | some o => opOpc o == 9 && !(s.slice p).brew.stopped && decide ((s.slice p).brew.prog < macCount o)
    | none => false)
  else if g % 2 = 1 then (s.slice p).sch.window.any fun w => 2 * w.seq + 1 == g
  else s.pageLeft p (g / 2 - 1)

/-- The grant of a piece that has ended otherwise than by an issued access is released (R225). -/
def State.grantCheck (s : State) (p : Nat) : State :=
  match (s.slice p).sch.grant with
  | none => s
  | some g => if s.grantLive p g then s else s.modSch p fun x => { x with grant := none, grantCnt := 0 }

/-- The next access of the MAC_STREAM in progress starts a segment (R228, R461). -/
def State.atSegment (s : State) (p : Nat) : Bool :=
  let q := (s.slice p).brew
  match q.op with
  | some o => (opAux o % 32 + q.prog) % 32 == 0 || decide (256 ≤ q.seg)
  | none => true

/-- STREAM_MAX (R256). -/
def State.streamMax (s : State) : Nat := fld s.cfg.sched0 20 6

/-- WR_HI (R256). -/
def State.wrHi (s : State) : Nat := fld s.cfg.sched1 0 6

/-- WR_LO (R256). -/
def State.wrLo (s : State) : Nat := fld s.cfg.sched1 6 6

/-- Issue the picked contender. -/
def State.issueCont (s : State) (p t : Nat) (c : Cont) : State := if c.brew then s.issueMac p t else s.issueRd p t c

/-- The grant after a contender has issued by ordinary selection or as the stream that holds it (R224, R225); `no` is its
number and `str` tells whether it is a stream, both as before the issue. A brew stream releases it at a segment boundary, any
other at an access boundary (R228). -/
def State.afterGrant (s : State) (p : Nat) (c : Cont) (no : Nat) (str : Bool) : State :=
  let g := (s.slice p).sch.grant
  let more := s.grantLive p no
  let inside := c.brew && !s.atSegment p
  s.modSch p fun x =>
    if str && (g == none || g == some no) then
      let n := (if g == none then 0 else x.grantCnt) + 1
      if more && (inside || decide (n < s.streamMax)) then { x with grant := some no, grantCnt := min n 63 }
      else { x with grant := none, grantCnt := 0 }
    else x

/-- The column slot of one CCLK (R211, R217, R222, R225, R226, R234, R235, R240). The next access of a gather page with
several reads in the window is that of its oldest column-ready read, so that a later read issues while an earlier one waits
for its row: R225 does not say which access is next (DESIGN CHOICE, log 71). In the WRITE phase of class arbitration a narrow
entry still takes it, with no cap (R235, R241). Where a brew column access stands in the WRITE phase, which R934 says does not
govern it, no rule says: it issues when no narrow entry, urgent read or write does (DESIGN CHOICE, log 64). -/
def State.colSlot (s : State) (p t : Nat) (cls : Bool) (e : List Cont) : State :=
  let x := (s.slice p).sch
  let ready := e.filter fun c => s.colReady p t cls e c
  let holder := least (fun a b => decide (a.w.seq < b.w.seq)) (ready.filter fun c => x.grant == some (s.grantNo c))
  let winReady := ready.any fun c => !c.narrow && !c.brew
  let narrow := ready.filter (·.narrow)
  let capOk := !winReady || decide (x.lastNarrow ≤ t)
  let capped := !cls && !narrow.isEmpty && !capOk
  let s0 := if capped then s.statSlice p 7 1 else s
  let narrowPick :=
    if cls then (if x.wrPhase then least (s.clsBefore p) narrow else none)
    else if !capOk then none else least (fun a b => decide (a.w.seq < b.w.seq)) narrow
  let urgents := ready.filter fun c => !c.narrow && !c.brew && s.urgent p c
  let contender := match holder with
    | none => false
    | some h =>
      (!h.brew || s.atSegment p) &&
        (if cls then ready.any fun c => decide (s.classOf c.w.sub < s.classOf h.w.sub)
         else narrowPick.isSome || urgents.any fun c => s.grantNo c != s.grantNo h)
  let order := sortConts (if cls then s.clsBefore p else s.colBefore) (ready.filter fun c => cls || !c.narrow)
  let hitCount (s : State) (c : Cont) : State :=
    if !cls && !c.brew && e.any fun y => !y.brew && y.bank == c.bank && s.rowNeed p y == some false then s.statSlice p 3 1 else s
  let take (s : State) (c : Cont) : State :=
    let s1 := (hitCount s c).issueCont p t c
    let s2 := if c.narrow then s1.modSch p fun x => { x with lastNarrow := t + 4 } else s1
    let s3 := if cls then s2.modSch p fun x => { x with rr := Tab.set 0 x.rr (s.classOf c.w.sub) c.w.sub } else s2
    s3.afterGrant p c (s.grantNo c) (s.isStream p c)
  if x.wrPhase then
    match narrowPick with
    | some c => take s0 c
    | none => match (if cls then none else least s.colBefore urgents) with
      | some c => take s0 c
      | none => match s.nextWr p t cls e with
        | some w => s0.issueWr p t w
        | none => match ready.find? (·.brew) with
          | some c => take s0 c
          | none => s0
  else match holder with
    | some h =>
      if contender then
        let s1 := (s0.statSlice p 4 1).modSch p fun x => { x with grant := none, grantCnt := 0 }
        match narrowPick, order.find? fun c => s.grantNo c != s.grantNo h && (cls || !yields c.w.sub) with
        | some c, _ => take s1 c
        | none, some c => take s1 c
        | none, none => take s1 h
      else take s0 h
    | none =>
      match narrowPick with
      | some c => take s0 c
      | none =>
        match order.find? fun c => cls || !yields c.w.sub with
        | some c => take s0 c
        | none => match order with
          | c :: _ => take s0 c
          | [] => s0

/-- READ and WRITE phases (R231 to R233). A WRITE phase entered at WR_HI takes the grant from a stream (R226), from a brew
stream at its next segment boundary (R228). -/
def State.phase (s : State) (p t : Nat) (cls : Bool) (e : List Cont) : State :=
  let x := s.slice p
  let n := x.dat.wb.length
  let ents := e.filter fun c => !c.brew
  let crs := ents.any fun c => s.colReady p t cls e c
  if !x.sch.wrPhase then
    let hi := decide (s.wrHi ≤ n)
    let idle := decide (0 < n) && !crs && !(ents.any fun c => (s.rowWant p c).isSome)
    if hi || idle then
      let s1 := (s.modSch p fun y => { y with wrPhase := true, wrIdle := !hi }).statSlice p 6 1
      if hi && x.sch.grant.isSome then
        (s1.modSch p fun y =>
          if x.sch.grant == some 0 && !s.atSegment p then { y with grantCnt := 63 } else { y with grant := none, grantCnt := 0 }).statSlice
            p 4 1
      else s1
    else s
  else if n ≤ s.wrLo || (x.sch.wrIdle && crs) then s.modSch p fun y => { y with wrPhase := false, wrIdle := false }
  else s

/-- A WAIT op in progress spends one CCLK (R433, R463). -/
def State.waitTick (s : State) (p : Nat) : State :=
  let q := (s.slice p).brew
  match q.op with
  | some o => if opOpc o = 10 && !q.stopped then s.modBrew p fun q => { q with prog := q.prog + 1 } else s
  | none => s

/-- An op waits under R460 in this CCLK (R487). -/
def State.countOpHeld (s : State) (p : Nat) : State :=
  let q := (s.slice p).brew
  match q.next with
  | some o => if q.cur.isSome && !q.stopped && s.brewSeen p && !s.opFree p o then s.statSlice p 35 1 else s
  | none => s

/-- CCLK from its RD to the hand-over of a read in DET_TIMING (R718); in NARROW mode the access takes one more (R608; DEDUCED that
it does so here too, log 65). -/
def State.returnTime (s : State) (p : Nat) (f : Flight) : Nat := (s.slice p).bt.rl + 6 + b2n f.nar

/-- The RD of a read was discarded by the endpoint and is still to be sent again (R599, R600). -/
def Link.lacks (l : Link) (f : Flight) : Bool := l.again.any fun h => h.col && h.sent == f.issued

/-- In DET_TIMING the oldest read of an island is handed over exactly RL + 6 CCLK after its RD (R718): it is due in the present
CCLK. -/
def State.returnDue (s : State) (p : Nat) : Bool :=
  s.det.mode == .timing && match (s.slice p).sch.flight with
    | [] => false
    | f :: _ => !(s.slice p).link.lacks f && decide (f.issued + s.returnTime p f ≤ (s.slice p).sch.cclk)

/-- CHANNEL_SCHEDULE (R211): one CCLK of channel island `p`: a new frame of its bundle (R594), row repairs and reads of
secondary copies that waited for their charge (R263), answers from held data, the row slot, then the column slot. A held
channel issues refreshes only (R244); a read that is due returns before the CCLK ends (R718); the island then reads its queue
as far as it can (R64); the change of arbitration takes effect in the next CCLK (R239). -/
def execChannelSchedule (p : Fin 144) (s : State) : Res :=
  .next <|
    let p := p.val
    if !s.islandRuns p || s.returnDue p then s
    else
      let t := (s.slice p).sch.cclk
      let cls := (s.slice p).sch.cls
      let taken := (s.slice p).sch.rowTaken
      let s := s.modLink p fun l => { l with frame := if taken then (l.frame.setWidth 50).setWidth 80 else 0 }
      let s1 :=
        if !s.sliceLive p then s
        else if (s.slice p).sch.held ≠ 0 then (s.alertCheck p).refreshSlot p t
        else
          let s0 := ((((((s.retryRepairs p).retryCompares p).skipStale p).serveHeld p).grantCheck p).waitTick p).countOpHeld p
          let e := s0.members p
          let s2 := (s0.phase p t cls e).countHeldActs p e
          (s2.rowSlot p t cls e).colSlot p t cls e
      let want := s1.wantsClass p
      (s1.readQueue p).modSch p fun x => { x with cclk := t + 1, rowTaken := false, cls := want }

/-- REFRESH_DUE (R494): the bank's accumulator has reached 25,000 sixteenths; in self-refresh O and P stay (R511). -/
def execRefreshDue (p : Fin 144) (bank : Fin 32) (s : State) : Res :=
  .next <|
    let a := s.dueAcc p.val bank.val
    if !s.islandRuns p.val || !(s.slice p.val).rf.refOn || (s.slice p.val).rf.selfRef || a < 25000 then s
    else
      let v := s.view p.val
      s.modRf p.val fun r => r.modRb bank.val fun b =>
        let b1 := { b with acc := a - 25000, t0 := v }
        if 0 < b.pulled then { b1 with pulled := b.pulled - 1 } else { b1 with owed := b.owed + 1 }

/-- RDT_THROTTLE_END (R307): the throttle of the subscriber on the channel has lasted one tREFW. -/
def execRdtThrottleEnd (k : Fin 37) (c : Fin 128) (s : State) : Res :=
  .next <|
    let key := k.val * 128 + c.val
    let e := Tab.get 0 s.fab.thrEnd key
    if e = 0 || s.view (s.stk.remapAt c.val).ps < e then s
    else s.modFab fun f => { f with thrEnd := Tab.set 0 f.thrEnd key 0 }

end Sys2Proof.Machine
end

