-- ==== Sys2Proof/Machine/Shaping.lean ====
section
/-! DEFINITION. Commands of the shaping hierarchy: meter tests, refills, channel periods, the fill of the window, and
queue observation (R259 to R318). -/

namespace Sys2Proof.Machine

/-- The fabric island runs: no reset holds it, its clock is not gated, no alignment holds it (R22). -/
def State.fabLive (s : State) : Bool := s.portsLive

/-- Work of the management island that the fabric has not read out of class 7 yet, in DET_TIMING (R81). -/
def State.onItsWay (s : State) (id : Nat) : Bool := (s.fab.entry id).any fun e => decide (s.sys.ltc < e.vis)

/-- METER_TEST (R269): the head of the meter queue is tested, unless it is held red or at level 1; those wait for
their wheel event or bucket refill (R272, R279, R291, R292). Writes of digest records are admitted first (R730). -/
def execMeterTest (k : Fin 48) (svc : Fin 6) (s : State) : Res :=
  .next <|
    if !s.fabLive then s
    else
      let s0 := if k.val = 47 && svc.val = 5 then s.addRecs else s
      match s0.fab.mqHead k.val svc.val with
      | none => s0
      | some q =>
        if ((q.red || q.held1) && !s.isMasked k.val) || s0.onItsWay q.eid then s0 else s0.testHead k.val svc.val

/-- METER_WHEEL_EVENT (R279): at the slot's LTC, or at the refill where new values apply (R288), the due refills are applied
together and the head is tested again (R280, R281). -/
def execMeterWheelEvent (k : Fin 48) (svc : Fin 6) (s : State) : Res :=
  .next <|
    let m := 6 * k.val + svc.val
    match (s.fab.meter m).slot with
    | none => s
    | some t =>
      let moved := s.meterChanged m (s.fab.meter m) && decide (0 < s.refillsDue m (s.fab.meter m).vt)
      if !s.fabLive || s.isMasked k.val || (decide (s.fabView < t) && !moved) then s
      else
        let s1 := s.settleMeter m
        (s1.setMeter m { s1.fab.meter m with slot := none }).testHead k.val svc.val

/-- Requests and BLP pieces in the meter queue of (k, svc). -/
def Fab.mqLen (f : Fab) (k svc : Nat) : Nat := (f.mq.filter fun q => q.sub == k && q.svc == svc).length

/-- Test held heads in order until one stays held (R292). -/
def State.testHeld (s : State) (k : Nat) : List Nat → State
  | [] => s
  | i :: t =>
    let s1 := s.testHead k i
    if s1.fab.mqLen k i = s.fab.mqLen k i then s1 else s1.testHeld k t

/-- SUB_BUCKET_REFILL (R281, R292): at the slot's LTC, or at the refill where new values apply (R288), the due refills of the
bucket are applied together, and held heads are tested in order. -/
def execSubBucketRefill (k : Fin 48) (s : State) : Res :=
  .next <|
    let b := s.fab.bucket k.val
    match b.slot with
    | none => s
    | some t =>
      let moved := s.bucketChanged k.val b && decide (0 < s.refillsDue k.val b.vt)
      if !s.fabLive || b.frozen || (decide (s.fabView < t) && !moved) then s
      else
        let s1 := s.settleBucket k.val
        let s2 := s1.setBucket k.val { s1.fab.bucket k.val with slot := none }
        (s2.testHeld k.val (s2.heldHeads k.val)).placeBucket k.val

/-- Channels under the thermal budget: those whose bound slice, or old or new slice while migrating, was at THROTTLE
at the last evaluation while enforcement is active (R301, R573). -/
def State.budgetChans (s : State) : List Nat :=
  if s.therm.enforce then
    (List.range 128).filter fun c =>
      let e := s.stk.remapAt c
      match e.st with
      | .bound => (s.slice e.ps).level == 2
      | .migrating => (s.slice e.ps).level == 2 || (s.slice e.new).level == 2
      | .fenced => false
  else []

/-- The channel period that the fabric's view lies in has started: the channel counts, thermal counts and activation meters start
again at 0, and a changed thermal set or fraction takes effect (R293, R303, R573, R585). What a copy has read ahead of its share
counts against the share of the new period (R690; DESIGN CHOICE, log 63). -/
def State.periodStart (s : State) : State :=
  let p := s.periodP
  let t := if p = 0 then 0 else s.refillNow / p * p
  if t = s.fab.period then s
  else
    let s1 := s.modFab fun f =>
      { f with chCnt := [], thL := [], thO := [], actCnt := [], period := t, thOn := s.budgetChans, thF := s.therm.thrFrac.toNat }
    s1.modStk fun k => { k with migs := k.migs.map fun m => { m with debt := m.debt - s.copyRoom m } }

/-- CHANNEL_PERIOD_START (R293): at a multiple of P. -/
def execChannelPeriodStart (s : State) : Res := .next (if s.fabLive then s.periodStart else s)

/-- A write or ACC piece of the same port for this channel was admitted earlier and has not yet gone (R396). -/
def Fab.earlierWrite (f : Fab) (p : Piece) : Bool :=
  p.write != .read &&
    (f.cq ++ f.mq.flatMap (·.pieces)).any fun q =>
      q.sub == p.sub && q.chan == p.chan && q.write != .read && decide (q.adm < p.adm)

/-- The write data of a piece's request has all come (R97). -/
def State.dataReady (s : State) (p : Piece) : Bool :=
  match p.write, s.fab.entry p.eid with
  | .read, _ => true
  | _, none => true
  | _, some e => match e.kind with
    | .wr | .wrPartial | .acc => decide (writeBeats 1 e.req.len.toNat ≤ e.wdat.length)
    | .writeBulk | .accBulk => p.keys.all fun k => ((e.accAt k).map (s.readSoFar e).bulkReady).getD true
    | _ => true

/-- The row of a place is under repair: new accesses to it wait (R679). -/
def State.rowInRepair (s : State) (k : Key) : Bool := (s.slice (keyPs k)).rep.repairing (keyBank k) (keyRow k)

/-- The access, of the request admitted as number `adm`, lies in the row that a migration copies next: it waits until the copy has
passed the row, unless it was translated before that row's turn came (R191, R243). -/
def State.rowCopying (s : State) (adm : Nat) (k : Key) : Bool :=
  s.stk.migs.any fun m => m.copying && !m.rebind && m.old == keyPs k && (s.stk.remapAt m.chan).mptr == keyRow k && decide (m.mark ≤ adm)

/-- A write or accumulation piece of an entry that touches one of these accesses has not yet entered the channel (R262). -/
def Fab.writeOutside (f : Fab) (id : Nat) (ks : List Key) : Bool :=
  (f.cq ++ f.mq.flatMap (·.pieces)).any fun q => q.eid == id && q.write != .read && ks.any fun k => q.keys.contains k

/-- A read piece follows an earlier write of its own subscriber into the channel, so that it holds no window entry and
no narrow slot that the write needs (R126). -/
def State.behindOwnWrite (s : State) (p : Piece) : Bool :=
  p.write == .read && match s.fab.entry p.eid with
    | none => false
    | some e => s.fab.trk.any fun w =>
        w.kind.isWrite && w.sub == e.msub && decide (w.ord < e.ord) && s.fab.writeOutside w.id p.keys

/-- Accesses of a piece that do not wait: their rows are neither under repair nor being copied. Only such accesses wait; the
others of the piece go on (R191, R679). -/
def State.freeKeys (s : State) (p : Piece) : List Key := p.keys.filter fun k => !s.rowInRepair k && !s.rowCopying p.adm k

/-- The heads of the channel queues of channel `c`: of each, the first piece with an access that does not wait under R191 or R679,
since only such accesses wait (R191, R262, R294). -/
def State.heads (s : State) (c : Nat) : List Piece :=
  let q := s.fab.cq.filter fun p => p.chan == c && !(s.freeKeys p).isEmpty
  (List.range 48).flatMap fun k => (List.range 6).filterMap fun i => q.find? fun p => p.sub == k && p.svc == i

/-- The slice that the next accesses of a piece go to: that of its first access that does not wait. The accesses of one
channel lie on two slices while it migrates (R191). -/
def State.pieceSlice (s : State) (p : Piece) : Nat := keyPs ((s.freeKeys p).headD 0)

/-- A head the channel may take now, apart from shares and budget: its slice is not held, earlier writes of its port
have gone, its data has come, R151 does not stop it, and some of its accesses do not wait. -/
def State.headReady (s : State) (p : Piece) : Bool :=
  let ps := s.pieceSlice p
  (s.slice ps).sch.held == 0 && !s.fab.earlierWrite p && !s.behindOwnWrite p && s.dataReady p && !s.blpBlocked p.eid &&
    !(s.freeKeys p).isEmpty

/-- A free window entry for a piece on its slice (R205). -/
def State.pieceSlot (s : State) (p : Piece) : Option Bool :=
  s.winSlot (s.pieceSlice p) p.sub (s.effDl p.real p.dl p.arrival)

/-- Of `n` words for the channel of slice `ps`, those the fabric has credits for (R237). -/
def State.creditsFor (s : State) (ps n : Nat) : Nat :=
  ((List.range n).filter fun i => !icqDeep 0 ((s.icq 0 ps).used + s.icqUnseen 0 ps + i)).length

/-- Entries of island `p` that wait for the reseal of a stale row (R470). -/
def State.resealFor (s : State) (p : Nat) (want : Key → Bool) : Option WinEnt :=
  let x := (s.slice p).sch
  least (fun a b => decide (s.effDl a.real a.dl a.arrival < s.effDl b.real b.dl b.arrival)) <|
    (x.window ++ x.narrowSlot).filter fun w => s.inIsland p w && match w.use with
      | .port | .rmw | .accMiss | .replica | .work => !s.staleRaw w.eid && w.keys.any fun k => want k && s.metStale w k
      | .scrub | .check | .reseal => false

/-- The admitted access whose reseal waits for nothing but a window entry, the earliest deadline first (R485, R679, R936). -/
def State.resealWaits (s : State) (p : Nat) : Option WinEnt :=
  s.resealFor p fun k => !(s.slice p).dat.sealing (keyBank k) (keyRow k) && !s.rowInRepair k && !((s.slice p).bt.bank (keyBank k)).loan

/-- A window entry is free for the follow-on reads that an entry of the window makes (R205, R936). -/
def State.entryFor (s : State) (p : Nat) (w : WinEnt) : Bool := (s.winSlot p w.sub (s.effDl w.real w.dl w.arrival)).isSome

/-- With one more window entry taken, the reads of a reseal that wait, and whose deadline `ahead` puts first, still find an entry,
if there is one that they may take at all (R936). -/
def State.leavesEntry (s : State) (p : Nat) (rsv : Bool) (ahead : WinEnt → Bool) : Bool :=
  match s.resealWaits p with
  | none => true
  | some w => !ahead w || !s.entryFor p w || (s.insertWin p { WinEnt.reset with rsv := rsv }).entryFor p w

/-- A waiting read may go to the window: one of the fabric's from the other copy needs a credit of the crossing queue, once the
fabric has seen the first copy's answer; the reads of the island itself cross nothing (R81, R196, R237). -/
def State.mayEnter (s : State) (p : Nat) (w : WinEnt) : Bool :=
  w.use != .replica || (decide (w.vis ≤ s.sys.ltc) && s.icqCredit 0 p)

/-- A waiting read takes a window entry; one from the other copy as a word of the crossing queue (R64, R196). -/
def State.enterWaiting (s : State) (p : Nat) (w : WinEnt) : State :=
  let s1 := s.modSch p fun x => { x with waiting := dropFirst (fun y => y == w) x.waiting }
  let r := (s.winSlot p w.sub (s.effDl w.real w.dl w.arrival)).getD false
  if w.use == .replica then
    let e := { w with rsv := r, word := true, vis := s.sys.ltc + s.crossTime 0, qix := (s.slice p).dat.nextIx }
    (((s1.insertWin p e).modDat p fun d => { d with nextIx := d.nextIx + 1 }).icqWrite 0 p).readQueue p
  else s1.insertWin p { w with rsv := r }

/-- Of the follow-on reads that wait and may take a free window entry, the one with the earliest deadline takes it (R936). -/
def State.fillOneWaiting (s : State) (p : Nat) : State :=
  let dl (w : WinEnt) : Nat := s.effDl w.real w.dl w.arrival
  let fits := (s.slice p).sch.waiting.filter fun w => s.mayEnter p w && match s.winSlot p w.sub (dl w) with
    | none => false
    | some r => s.leavesEntry p r fun v => decide (dl v < dl w)
  match least (fun a b => decide (dl a < dl b)) fits with
  | none => s
  | some w => s.enterWaiting p w

/-- Follow-on reads that wait take freed window entries, ahead of every head (R936). -/
def State.fillWaiting (s : State) (p : Nat) : State := s.each (s.slice p).sch.waiting fun s _ => s.fillOneWaiting p

/-- A free window entry for a head, beside those that waiting follow-on reads take first (R205, R936). -/
def State.headEntry (s : State) (p : Piece) : Bool :=
  match s.pieceSlot p with
  | none => false
  | some r => s.leavesEntry (s.pieceSlice p) r fun _ => true

/-- The slot a head needs is free: the narrow slot of its port, or a window entry for a read or for the read halves of
a partial write; whole writes need neither (R204, R205, R220). Each also needs a credit of the crossing queue (R237). -/
def State.headFits (s : State) (p : Piece) : Bool :=
  let ps := s.pieceSlice p
  s.icqCredit 0 ps &&
    (if 32 ≤ p.sub && p.sub ≤ 35 then !((s.slice ps).sch.narrowSlot.any fun w => w.sub == p.sub)
    else match p.write with
      | .read => s.headEntry p
      | .write => (s.rmwKeys p).isEmpty || s.headEntry p
      | .accumulate => true)

/-- What the reads of a piece are for. -/
def State.readUse (s : State) (p : Piece) : ReadUse :=
  match s.fab.entry p.eid with
  | none => .port
  | some e => match e.kind with
    | .scrub => if e.parent = 1 then .check else .scrub
    | .rd | .wr | .wrPartial | .acc | .fence | .gather | .brewLaunch | .brewAbort | .writeBulk | .accBulk | .readBulk
    | .gatherList | .gatherPage | .copy | .digestRec | .ctxWrite | .resealWork | .digestWork => .port

/-- The accesses of a head that go now: those on its slice that do not wait; of a write or accumulation, as many as there are
credits for. -/
def State.goKeys (s : State) (p : Piece) : List Key :=
  let ks := (s.freeKeys p).filter fun k => keyPs k == s.pieceSlice p
  match p.write with
  | .read => ks
  | .write | .accumulate => ks.take (s.creditsFor (s.pieceSlice p) ks.length)

/-- A chosen head goes into the fabric-to-channel queue: its read word with a narrow slot or window entry, its writes with the
entries of their read halves (R204, R223, R237); the island reads what it can (R64). Accesses that wait stay at the head of its
channel queue; the piece has passed the tests of R294 (R295). -/
def State.takeHead (s : State) (p : Piece) : State :=
  let ps := s.pieceSlice p
  let go := s.goKeys p
  let rest := p.keys.filter fun k => !go.contains k
  let x := { p with keys := go }
  let s1 := s.modFab fun f =>
    { f.countPiece p.sub p.svc p.chan go.length with
      cq := if rest.isEmpty then dropFirst (fun q => q == p) f.cq
            else updFirst (fun q => q == p) (fun q => { q with keys := rest, begun := true }) f.cq }
  let put (s : State) (w : WinEnt) : State :=
    let w := { w with vis := s.sys.ltc + s.crossTime 0, qix := (s.slice ps).dat.nextIx }
    if 32 ≤ p.sub && p.sub ≤ 35 then s.insertNarrow ps w
    else s.insertWin ps { w with rsv := (s.pieceSlot p).getD false }
  let s2 := match p.write with
    | .read =>
      ((put s1 { x.winEnt (s.readUse p) go with word := true }).modDat ps fun d => { d with nextIx := d.nextIx + 1 }).icqWrite 0 ps
    | .write =>
      let rmw := s.rmwKeys x
      let s2 := s1.queueWrites ps x
      if rmw.isEmpty then s2 else put s2 (x.winEnt .rmw rmw)
    | .accumulate => s1.queueWrites ps x
  s2.readQueue ps

/-- CH_MAX and the thermal budget admit a head now: tested anew for each piece, and not again for one of which some accesses have
entered (R294, R295, R301). -/
def State.shareOk (s : State) (c : Nat) (p : Piece) : Bool := p.begun || (s.underShare c p.sub 8 9 && s.thermAdmits p.sub p.svc c)

/-- The channel may take a head now, as far as CH_MAX, the thermal budget and the free slots go (R294, R301). -/
def State.mayTake (s : State) (c : Nat) (p : Piece) : Bool := s.shareOk c p && s.headFits p

/-- Heads still in their channel queues that CH_MAX excludes (the row that a migration copies next among them, R297), and
those that the thermal budget excludes, are counted once for each fill, which is one CCLK (R294, R318), whether or not the
window has a free entry in it, which R318 does not say (DESIGN CHOICE, log 72). -/
def State.countExcluded (s : State) (c : Nat) (heads : List Piece) : State :=
  let out := heads.filter fun p => !p.begun && s.fab.cq.contains p
  let capped := (out.any fun p => !s.underShare c p.sub 8 9) ||
    s.stk.migs.any fun m => m.chan == c && m.copying && !m.rebind && s.copyCapped m
  let hot := out.any fun p => !s.thermAdmits p.sub p.svc c
  let s1 := if capped then s.statChan c 0 1 else s
  if hot then s1.statChan c 1 1 else s1

/-- CHANNEL_FILL (R294): follow-on reads first (R936), then each narrow port's slot (R296), then one head chosen from
the pool of R294. -/
def execChannelFill (c : Fin 128) (s : State) : Res :=
  .next <|
    if !s.fabLive then s
    else
      let c := c.val
      let e := s.stk.remapAt c
      let s0 := s.fillWaiting e.ps
      let s0 := match e.st with | .migrating => s0.fillWaiting e.new | _ => s0
      let ready := (s0.heads c).filter s0.headReady
      let isNarrow (p : Piece) : Bool := decide (32 ≤ p.sub) && decide (p.sub ≤ 35)
      let s2 := s0.each (ready.filter isNarrow) fun s p => if s.mayTake c p then s.takeHead p else s
      let s3 := s2.countExcluded c ready
      let wide := ready.filter fun p => !isNarrow p && s3.mayTake c p
      let g := wide.filter fun p => s3.underShare c p.sub 0 8
      match least (fun a b => Piece.before s3 a b) (if g.isEmpty then wide else g) with
      | none => s3
      | some p => s3.takeHead p

/-- Depth bin (R315). -/
def depthBin (d : Nat) : Nat :=
  if d = 0 then 0 else if d = 1 then 1 else if d < 4 then 2 else if d < 8 then 3 else if d < 16 then 4
  else if d < 32 then 5 else if d < 64 then 6 else 7

/-- Delay bin (R315). -/
def delayBin (h : Nat) : Nat :=
  if h < 16 then 0 else if h < 40 then 1 else if h < 80 then 2 else if h < 160 then 3 else if h < 400 then 4
  else if h < 800 then 5 else if h < 4000 then 6 else 7

/-- Requests admitted and not yet in the window or narrow slot: (k, svc, chan), tracker entry, arrival; one element
for each request and channel (R313). Gather list and page reads are requests of subscriber 42 in the GATHER's service here, also
while they wait in the meter queue of the issuing port, of which R313 does not speak (DESIGN CHOICE, log 72). -/
def Fab.waitingReqs (f : Fab) : List ((Nat × Nat × Nat) × Nat × Nat) :=
  (((f.mq.flatMap (·.pieces)) ++ f.cq).map fun p => ((p.sub, p.svc, p.chan), p.eid, p.arrival)).eraseDups

/-- Samples of one queue: depth, and arrival of its oldest request (R313, R314). -/
def queueDepth (l : List ((Nat × Nat × Nat) × Nat × Nat)) (q : Nat × Nat × Nat) : Nat × Option Nat :=
  let m := (l.filter fun x => x.1 == q).map fun x => x.2.2
  (m.length, m.min?)

/-- Add one interval's samples of a set of queues to a depth and a delay histogram: `idle` queues were empty. -/
def State.addSamples (s : State) (page dBase hBase idle : Nat) (qs : List (Nat × Option Nat)) : State :=
  let s1 := if idle = 0 then s else s.stat page dBase idle
  s1.each qs fun s d =>
    let s' := s.stat page (dBase + depthBin d.1) 1
    match d.2 with
    | some a => s'.stat page (hBase + delayBin (s.fabView - a)) 1
    | none => s'

/-- The interval of 400 ticks that the fabric's view lies in is sampled, once: every queue, into the three sets of histograms
(R312, R315, R316). -/
def State.queueSample (s : State) : State :=
  let t := s.refillNow / 400 * 400
  if t = s.fab.sampled then s
  else
    let l := s.fab.waitingReqs
    let qs := (l.map (·.1)).eraseDups
    let s1 := s.modFab fun f => { f with sampled := t }
    let s2 := s1.each (List.range 288) fun s m =>
      let mine := qs.filter fun q => 6 * q.1 + q.2.1 == m
      s.addSamples (0x200 + m / 4) (32 * (m % 4) + 8) (32 * (m % 4) + 16) (128 - mine.length)
        (mine.map (queueDepth l))
    let s3 := s2.each (List.range 128) fun s c =>
      let mine := qs.filter fun q => q.2.2 == c
      s.addSamples (0x100 + c) 8 16 (288 - mine.length) (mine.map (queueDepth l))
    s3.each (List.range 16) fun s j =>
      let w := Tab.get 0 s.cfg.focus j
      if bit w 16 then s.addSamples (0x300 + j) 0 8 0 [queueDepth l (fld w 0 6, fld w 6 3, fld w 9 7)] else s

/-- QUEUE_SAMPLE (R312): once in each interval of 400 ticks. -/
def execQueueSample (s : State) : Res := .next (if s.fabLive then s.queueSample else s)

end Sys2Proof.Machine
end

