-- ==== Sys2Proof/Machine/ChanData.lean ====
section
/-! DEFINITION. Commands of the channel's data paths: returned reads, entry into the write buffer, accumulation and
reseal (R121, R382, R396, R472, R656). -/

namespace Sys2Proof.Machine

/-- READ_DATA_RETURN (R656): the oldest read of the island returns, in DET_TIMING when it is due (R718), and none whose RD the
endpoint discarded before it has been sent again (R599); `err` is what the
transfer or the cells changed. The access is decoded, corrected or reported UE, and its reader goes on (R609, R661 to R664).
-/
def execReadDataReturn (p : Fin 144) (err : BitVec 576) (s : State) : Res :=
  .next <|
    let p := p.val
    match (s.slice p).sch.flight with
    | [] => s
    | f :: rest =>
      if !s.islandRuns p || (s.slice p).link.lacks f || (s.det.mode == .timing && !s.returnDue p) then s
      else
        let s1 := s.modSch p fun x => { x with flight := rest }
        let k := keyOf p f.bank f.row f.col
        let c := f.code ^^^ err
        match f.use with
        | .scrub | .check => s1.endScrub p f c
        | .port | .accMiss | .rmw | .replica | .reseal | .work =>
          if f.raw then s1.endRead p f .stale (dataOf c)
          else
            let r := s1.decodeBy (s1.linkOf p f) p k c (f.use.src f.sub)
            if r.1.ue then (r.2.queueCheck p k).endRead p f .ue (dataOf c)
            else
              let s2 := if r.1.unknown.isEmpty then r.2 else r.2.correct p k f.code r.1.code f.eid
              s2.endRead p f .ok (dataOf r.1.code)

/-! ### Writes -/

/-- A write of the island's queue finds a write-buffer entry: the one that its access has, or a free one that no follow-on write
waits for (R127, R935). -/
def ChData.mayEnter (d : ChData) (x : WrItem) : Bool :=
  (d.wb.any fun w => w.isAt x.bank x.row x.col) ||
    (decide (d.wb.length < 64) && d.fow.isEmpty && d.corr.isEmpty && !(d.lines.any fun l => l.out.isSome && !l.isAt x.bank x.row x.col))

/-- The first access of the unit that is a write and may enter the write buffer: earlier work for its access
has gone, its read half is in, its row is not under repair (R121, R237, R396, R679). -/
def State.nextWrite (s : State) (p : Nat) : Option WrItem :=
  let d := (s.slice p).dat
  d.unit.find? fun x =>
    !x.acc && x.fetched &&
      !(d.unit.any fun y => decide (y.ix < x.ix) && y.bank == x.bank && y.row == x.row && y.col == x.col) &&
      !(s.slice p).rep.repairing x.bank x.row && !(d.miss.contains (keyOf p x.bank x.row x.col)) && d.mayEnter x

/-- WRITE_BUFFER_ENTER (R121): a write access takes a write-buffer entry with its merged data and fresh check symbols;
a cached accumulation line goes first (R397), the narrow read-buffer line goes (R105), the access completes. -/
def execWriteBufferEnter (p : Fin 144) (s : State) : Res :=
  .next <|
    let p := p.val
    if !s.islandRuns p || (s.slice p).sch.held ≠ 0 then s
    else match s.nextWrite p with
      | none => s
      | some x =>
        let k := keyOf p x.bank x.row x.col
        let s1 := match (s.slice p).dat.lineAt x.bank x.row x.col with
          | some l => s.evict p l x.eid
          | none => s
        let d := (s1.slice p).dat
        if (d.lineAt x.bank x.row x.col).isSome || !d.mayEnter x then s1
        else
          let v := mergeLine (x.merged.getD 0) x.data x.mask
          let s2 := s1.modDat p fun d =>
            { d with unit := dropFirst (fun y => y == x) d.unit }.wbAdd ⟨x.bank, x.row, x.col, rsEncode v, false, x.sub, x.eid⟩
          ((s2.chargeScale x.eid k).endAccess x.eid k .ok 0).runFill p

/-! ### Accumulation -/

/-- Slot bits `i` of a line replaced. -/
def setSlot (d : Line) (sb i v : Nat) : Line :=
  let o := 8 * sb * i
  BitVec.ofNat 512 (d.toNat - fld d o (8 * sb) * 2 ^ o + v * 2 ^ o)

/-- Addend code `i` of an accumulation access. -/
def WrItem.addend (x : WrItem) (i : Nat) : Nat := let w := 8 * afmtWidth x.afmt; fld x.data (w * i) w

/-- The addends of an access applied to its line in order (R382, R380), with what R418 counts: updates, NaN, Inf,
OOR. -/
def WrItem.applyLine (x : WrItem) (d : Line) : Line × Nat × Nat × Nat × Nat :=
  let sb := rSb x.rent
  let w := slotW (rSlot x.rent)
  (List.range x.cnt).foldl (fun (t : Line × Nat × Nat × Nat × Nat) i =>
    let ix := x.slot0 + i
    let y := accumulate w (fld t.1 (8 * sb * ix) (8 * sb)) (x.addend i) x.afmt (rScaleE x.rent)
    (setSlot t.1 sb ix y.slot, t.2.1 + 1, t.2.2.1 + b2n y.nan, t.2.2.2.1 + b2n y.inf, t.2.2.2.2 + b2n y.oor)) (d, 0, 0, 0, 0)

/-- Miss reads in flight: those whose line has not been read yet (R394). -/
def ChData.missesOut (d : ChData) : Nat := d.miss.length - d.fill.length

/-- The first accumulation access of the unit with no earlier work for the same access, whose line is present, or
else one that can make a miss read (R394, R396). -/
def State.nextAcc (s : State) (p : Nat) : Option (WrItem × Option AccLine) :=
  let d := (s.slice p).dat
  let first := d.unit.filter fun x => x.acc &&
    (d.unit.find? fun y => y.bank == x.bank && y.row == x.row && y.col == x.col) == some x &&
      !(s.slice p).rep.repairing x.bank x.row
  match first.find? fun x => (d.lineAt x.bank x.row x.col).isSome with
  | some x => some (x, d.lineAt x.bank x.row x.col)
  | none =>
    if 16 ≤ d.missesOut then none
    else (first.find? fun x => !d.miss.contains (keyOf p x.bank x.row x.col)).map fun x => (x, none)

/-- No access of the entry's ACC piece is left for the island: its last one has been applied (R262, R406). -/
def State.pieceApplied (s : State) (p id : Nat) : Bool :=
  let d := (s.slice p).dat
  !((d.unit ++ d.fcq).any fun x => x.acc && x.eid == id) &&
    !(s.fab.cq.any fun x => x.eid == id && x.write == .accumulate && x.keys.any fun k => keyPs k == p)

/-- ACC_PIECE_APPLY (R382): the accumulation unit applies the addends of an access to its line, or makes the miss read it
needs as follow-on work with the deadline of its cause (R209, R393, R936); R271 gives such a read, which passes no meter, no
colour, and it counts as green (DESIGN CHOICE, log 62). A piece, the part of its request on the channel, counts once as a hit,
when its last access is applied and no access of it has waited for a miss read, its own or another's (R262, R393, R418; DEDUCED,
log 43). -/
def execAccPieceApply (p : Fin 144) (s : State) : Res :=
  .next <|
    let p := p.val
    if !s.islandRuns p || (s.slice p).sch.held ≠ 0 then s
    else match s.nextAcc p with
      | none => s
      | some (x, some l) =>
        let k := keyOf p x.bank x.row x.col
        let r := x.applyLine l.data
        let l' : AccLine := { l with data := r.1, sub := x.sub, rix := x.rix }
        let s1 := s.modDat p fun d =>
          let d1 := d.dropLine x.bank x.row x.col
          { d1 with lines := d1.lines ++ [l'], unit := dropFirst (fun y => y == x) d.unit }
        let hit := b2n (x.fetched && s1.pieceApplied p x.eid)
        let s2 := (((s1.statSlice p 9 r.2.1).statSlice p 10 hit).statSlice p 13 r.2.2.1).statSlice p 14 r.2.2.2.1
        ((s2.statSlice p 15 r.2.2.2.2).endAccess x.eid k .ok 0).runFill p
      | some (x, none) =>
        let k := keyOf p x.bank x.row x.col
        let w : WinEnt := { WinEnt.reset with
          eid := x.eid, sub := x.sub, svc := 3, arrival := x.arrival, dl := x.dl, real := x.real, adm := x.eid, use := .accMiss, keys := [k] }
        let s1 := (s.modDat p fun d =>
          { d with miss := d.miss ++ [k], unit := updFirst (fun y => y == x) (fun y => { y with fetched := false }) d.unit }).statSlice
            p 11 1
        (s1.modSch p fun y => { y with waiting := y.waiting ++ [w] }).fillWaiting p

/-! ### Reseal -/

/-- Region `r` is an enabled PINNED region whose band holds row `row` of channel `c` (R177). -/
def pinnedHolds (r : BitVec 256) (c row : Nat) : Bool :=
  rEn r && rType r == 3 && (rCmask r).testBit c && decide (rRowbase r ≤ row) && decide (row < rRowbase r + rB r)

/-- The next row of a running RESEAL command's sweep, by its stale bit: the first one at or after the sweep's position
in one of its regions, on a channel that a slice serves (R476, R828). -/
def State.resealNext (s : State) : Option Nat :=
  match s.mbx.run with
  | some x =>
    if x.op == 0x32 then
      s.fab.stale.find? fun k => decide (x.vals.headD 0 ≤ k) && (s.stk.sliceOf (k / (32 * 16384)) (k % 16384)).isSome &&
        x.todo.any fun i => pinnedHolds (regionAt s.cfg.regions i) (k / (32 * 16384)) (k % 16384)
    else none
  | none => none

/-- The RESEAL command completes once its sweep finds no further row and the last reseal's writes have entered the write buffer
(R828). -/
def State.resealCheck (s : State) : State :=
  match s.mbx.run with
  | some x =>
    if x.op == 0x32 && s.resealNext.isNone && !(List.range 144).any fun p => (s.slice p).dat.fow.any fun w => w.sub == 43 && !w.raw
    then s.finish eOk [BitVec.ofNat 32 x.a, BitVec.ofNat 32 x.b] else s
  | none => s

/-- The sweep goes past row `k`, which it resealed or skipped (R476). -/
def State.resealPast (s : State) (k : Nat) (skipped : Bool) : State :=
  s.modMbx fun m => { m with run := m.run.map fun x =>
    if skipped then { x with vals := [k + 1], b := x.b + 1 } else { x with vals := [k + 1], a := x.a + 1 } }

/-- The reseal of one row on slice `p` for entry `cause` (R472): read raw, fresh check symbols, all 32 accesses into the write
buffer, or waiting for entries of it ahead of every other write (R935). -/
def State.resealRow (s : State) (p bank row cause : Nat) : State :=
  let s1 := s.each (List.range 32) fun s i =>
    let v := match (s.slice p).dat.heldAt bank row i with
      | some x => x.1
      | none => s.code (keyOf p bank row i)
    s.modDat p fun d => d.wbFollow ⟨bank, row, i, rsEncode (dataOf v), false, 43, cause⟩
  ((s1.statSlice p 33 1).workAct p bank row 43).resealDone p bank row

/-- A free window entry for the reads of a reseal, once the follow-on reads with an earlier deadline have taken theirs: for
those of the command as work of subscriber 43, for those that an admitted access needs with that access's slack (R205, R936).
-/
def State.resealSlot (s : State) (p : Nat) (w : Option WinEnt) : Bool :=
  match w with
  | some w => (s.fillWaiting p).entryFor p w
  | none => ((s.fillWaiting p).winSlot p 43 (s.view p + s.nodlAge)).isSome

/-- RESEAL_ROW (R472): a stale row that an access waits for, or that the RESEAL command's sweep has reached, is resealed,
once no brew op has its bank on loan (R459, R485); its bit clears unless a launch is active on the bank (R473). The command
skips such a row (R476); for the others CH_MAX and the charge of 32 reads and 32 writes of subscriber 43 must pass (R263,
R294), and it waits for write-buffer entries for the whole row. It waits for a hot row's spacing (R523). -/
def execResealRow (c : Fin 128) (bank : Fin 32) (row : Fin 16384) (s : State) : Res :=
  .next <|
    let c := c.val
    let b := bank.val
    let r := row.val
    let key := staleKey c b r
    match s.stk.sliceOf c r with
    | none => s
    | some p =>
      let s := s.readBit c b r
      let d := (s.slice p).dat
      let newEnts := ((List.range 32).filter fun i => !(d.wb.any fun w => w.isAt b r i)).length
      let active := s.launchActive c b
      let cmd := s.resealNext == some key
      let need := s.resealFor p fun k => keyBank k == b && keyRow k == r
      if !s.sliceLive p || (s.slice p).sch.held ≠ 0 || !s.fab.isStale c b r then s.resealCheck
      else if cmd && active && need.isNone then (s.resealPast key true).resealCheck
      else if d.sealing b r || s.rowInRepair (keyOf p b r 0) || ((s.slice p).bt.bank b).loan || s.workSpaced p b r ||
          !s.resealSlot p need then s.resealCheck
      else match need with
        | some w =>
          let s1 := s.resealRow p b r w.eid
          (if cmd then s1.resealPast key active else s1).resealCheck
        | none =>
          if !cmd || s.workHeld p || !d.fow.isEmpty || 64 < d.wb.length + newEnts then s.resealCheck
          else match s.spendRow c with
            | none => s.spendRowHeld c
            | some s1 => ((s1.resealRow p b r s.fab.nextId).resealPast key false).resealCheck

end Sys2Proof.Machine
end

