-- ==== Sys2Proof/Machine/LinkOps.lean ====
section
/-! DEFINITION. Bundles: bonds, lanes and spares, takeovers, holds, trims, full retrains, and the fence of a slice
(R590 to R610, R629 to R652, R692 to R695). -/

namespace Sys2Proof.Machine

/-! ### Bonds (R590, R602, R603) -/

/-- A DQ bond: 0 to 71 DQ, 72 to 75 SDQ. -/
def isDqBond (b : Nat) : Bool := decide (b < 76)

/-- A good bond (R602). -/
def Link.good (l : Link) (b : Nat) : Bool := !l.failed.contains b

/-- Lanes in use: DQ lanes and CA lanes 72 to 81. -/
def Link.lanesUsed (l : Link) : List Nat := List.range l.dqLanes ++ (List.range 10).map (72 + ·)

/-- The lane that a bond carries. -/
def Link.laneOf (l : Link) (b : Nat) : Option Nat := l.lanesUsed.find? fun k => l.bondOf k == b

/-- A good bond that carries no lane and is not the target of a takeover in progress (R603). -/
def Link.free (l : Link) (b : Nat) : Bool :=
  l.good b && (l.laneOf b).isNone && !(l.swap.any fun t => t.dst == b)

/-- Free DQ spares, rising: free SDQ bonds, in NARROW mode every free good DQ bond (R603). -/
def Link.dqSpares (l : Link) : List Nat :=
  (List.range 76).filter fun b => l.free b && (l.narrow || decide (72 ≤ b))

/-- The SCA is free. -/
def Link.scaFree (l : Link) : Bool := l.free 86

/-- Good DQ bonds (R648). -/
def Link.goodDq (l : Link) : Nat := ((List.range 76).filter l.good).length

/-- Lowest-numbered spare of the kind that a lane needs (R606). -/
def Link.spareFor (l : Link) (lane : Nat) : Option Nat :=
  if lane < 72 then l.dqSpares.head? else if l.scaFree then some 86 else none

/-- The steering table with a lane on a bond (R604). -/
def Link.steerTo (l : Link) (lane bond : Nat) : Link :=
  let dflt := if lane < 72 then lane else lane + 4
  { l with steer := Tab.set 0 l.steer lane (if bond = dflt then 0 else bond + 1) }

/-- The detail word of R652. -/
def linkDetail (bond cause good : Nat) : Nat := bond + cause * 2 ^ 7 + good * 2 ^ 11

/-- A record of R652 about slice `p`. -/
def State.linkEvent (s : State) (e : Ev) (p bond cause : Nat) : State :=
  s.report p e p (linkDetail bond cause (s.slice p).link.goodDq)

/-- The bundle works: ACTIVE or NARROW. -/
def Link.up (l : Link) : Bool := l.state == .active || l.state == .narrow

/-- STS_LINK (R648); SDQ_FREE and GOOD_DQ are 0 until the bundle has been trained. -/
def Link.status (l : Link) : Word :=
  let st := match l.state with
    | .off => 0 | .training => 1 | .active => 2 | .narrow => 3 | .retrain => 4 | .fenced => 5
  let trained := b2n l.trained
  BitVec.ofNat 32 (st + trained * min 7 l.dqSpares.length * 2 ^ 3 + b2n (l.laneOf 86).isSome * 2 ^ 6 + trained * l.goodDq * 2 ^ 7 +
    b2n l.calDue * 2 ^ 14 + b2n l.calAct * 2 ^ 15 + b2n l.derived * 2 ^ 16)

/-! ### Holds (R243, R244, R258) -/

/-- A hold of the channel begins: its word crosses class 3 to the island (R15, R80). Its ticks count as they pass (R258). -/
def State.holdChan (s : State) (p : Nat) : State := s.tell 3 p (.hold p)

/-- A hold of the channel ends: its word crosses class 3 to the island (R15, R80). -/
def State.unholdChan (s : State) (p : Nat) : State := s.tell 3 p (.free p)

/-! ### Trims (R633 to R639) -/

/-- Store key of a trim word. -/
def trimKey (bond rate pt : Nat) : Nat := (bond * 4 + rate) * 5 + pt

/-- MEAS of a trim word. -/
def trimMeas (w : BitVec 32) : Bool := bit w 31

/-- Trim word of a bond, rate point and temperature point. -/
def Link.trimAt (l : Link) (bond rate pt : Nat) : BitVec 32 := Tab.get 0 l.trim (trimKey bond rate pt)

/-- Temperature of a point in 1/16 °C (R636). -/
def trimPoint (j : Nat) : Int := 480 + 320 * j

/-- The point nearest to a temperature, the lower on a tie (R637). -/
def nearestPoint (tc : Int) : Nat :=
  (least (fun a b => decide ((tc - trimPoint a).natAbs < (tc - trimPoint b).natAbs)) (List.range 5)).getD 0

/-- The measured set nearest to point `j`, the lower on a tie. -/
def Link.nearestMeas (l : Link) (bond rate j : Nat) : Option Nat :=
  least (fun (a b : Nat) => decide (((a : Int) - j).natAbs < ((b : Int) - j).natAbs))
    ((List.range 5).filter fun i => trimMeas (l.trimAt bond rate i))

/-- A measured trim word: MEAS 1, the reserved bit 30 at 0 (R633). -/
def measWord (w : BitVec 32) : BitVec 32 := w &&& 0x3FFFFFFF ||| 0x80000000

/-- Store a measured trim; sets not measured take the fields of their nearest measured set (R637). -/
def Link.storeTrim (l : Link) (bond rate : Nat) (tc : Int) (w : BitVec 32) : Link :=
  let l1 := { l with trim := Tab.set 0 l.trim (trimKey bond rate (nearestPoint tc)) (measWord w) }
  (List.range 5).foldl (fun l j =>
    if trimMeas (l.trimAt bond rate j) then l
    else match l1.nearestMeas bond rate j with
      | some i => { l with trim := Tab.set 0 l.trim (trimKey bond rate j) (l1.trimAt bond rate i &&& 0x7FFFFFFF) }
      | none => l) l1

/-- A bond has a measured word at a rate point. -/
def Link.measuredAt (l : Link) (bond rate : Nat) : Bool := (List.range 5).any fun j => trimMeas (l.trimAt bond rate j)

/-- The rate point whose words a bond uses at `rate`: itself, or the nearest with a measured word, the lower on a tie
(R638). -/
def Link.rateFor (l : Link) (bond rate : Nat) : Nat :=
  if l.measuredAt bond rate then rate
  else (least (fun (a b : Nat) => decide (((a : Int) - rate).natAbs < ((b : Int) - rate).natAbs))
    ((List.range 4).filter (l.measuredAt bond))).getD rate

/-- The trim word that a bond uses at a rate point and temperature point: one taken from another rate point has MEAS 0 (R638). -/
def Link.trimWord (l : Link) (bond rate pt : Nat) : BitVec 32 :=
  if l.measuredAt bond rate then l.trimAt bond rate pt else l.trimAt bond (l.rateFor bond rate) pt &&& 0x7FFFFFFF

/-- One field interpolated (R636). -/
def interpField (a b f : Int) : Int := a + ((b - a) * f + 160) / 320

/-- The trims of a bond at a temperature and rate point (R636, R638). -/
def Link.interp (l : Link) (bond rate : Nat) (tc : Int) : BitVec 32 :=
  if tc ≤ 480 then l.trimWord bond rate 0 &&& 0x7FFFFFFF
  else if 1760 ≤ tc then l.trimWord bond rate 4 &&& 0x7FFFFFFF
  else
    let i := ((tc - 480) / 320).toNat
    let f := (tc - 480) % 320
    let a := l.trimWord bond rate i
    let b := l.trimWord bond rate (i + 1)
    let g (lo len : Nat) : Nat := ((interpField (fld a lo len) (fld b lo len) f).toNat % 2 ^ len) * 2 ^ lo
    let v := ((interpField (sfld a 19 6) (sfld b 19 6) f) % 64).toNat
    BitVec.ofNat 32 (g 0 7 + g 7 7 + g 14 5 + v * 2 ^ 19 + g 25 5)

/-- Trims in use at a rate point are derived for some good bond (R634, R638). -/
def Link.isDerived (l : Link) (rate : Nat) : Bool := (List.range 91).any fun b => l.good b && !l.measuredAt b rate

/-- Reading of a sensor, or its substitute (R552). -/
def State.sensorNow (s : State) (i : Nat) : BitVec 16 :=
  let x := Tab.get Sensor.reset s.therm.sens i
  if x.broken then x.sub else x.value

/-- The calibration temperature Tc of a bundle (R635). -/
def State.tcOf (s : State) (p : Nat) : BitVec 16 := s.sensorNow (144 + p)

/-- Every bond takes its interpolated trims at the rate point in force (R638, R639). The finger code is taken only at a lane
boundary or a retrain (R624). -/
def State.takeTrims (s : State) (p : Nat) : State :=
  let tc := (s.tcOf p).toInt
  s.modLink p fun l =>
    { l with inuse := (List.range 91).foldl (fun t b => Tab.set 0 t b (l.interp b s.sys.rate tc)) l.inuse,
             derived := l.isDerived s.sys.rate }

/-- Set CAL_DUE at a change to a rate point whose trims are derived (R640). -/
def State.dueIfDerived (s : State) (p : Nat) : State :=
  s.modLink p fun l => { l with calDue := l.calDue || l.derived }

/-- A calibration run, training or retrain has completed (R640, R649). CAL_DUE ends with it, so no pass that yielded is resumed at
its lane (R644; DEDUCED, log 60). -/
def State.calDone (s : State) (p kind : Nat) : State :=
  let tc := s.tcOf p
  s.modLink p fun l =>
    { l with tlast := tc, trained := true, calDue := false, calPos := 0, calHold := false, calCnt := min (l.calCnt + 1) (2 ^ 32 - 1), calLtc := s.sys.ltc,
             calTemp := BitVec.ofNat 32 (tc.toNat + kind * 2 ^ 16 + s.sys.rate * 2 ^ 18) }

/-! ### Retrain (R629, R632) -/

/-- Rolling calibration of a bundle yields: its lane is abandoned and counted (R644, R653). -/
def State.calYield (s : State) (p : Nat) : State :=
  if (s.slice p).link.calAct then (s.modLink p fun l => { l with calAct := false }).statSlice p 31 1 else s

/-- A full retrain of a bundle starts: it holds the channel, but for cause 5, and the row slots of the hold precharge the open
banks (R202, R629, R630). A cause that arises during one is handled by it (R632). -/
def State.startRetrain (s : State) (p cause : Nat) : State :=
  let l := (s.slice p).link
  if l.state == .retrain || !(l.up || cause = 5) then s
  else
    let s1 := ((s.detBreak 4).calYield p).statSlice p 30 1
    let s2 := s1.modLink p fun l => { l with state := .retrain, cause := cause }
    if cause = 5 then s2 else s2.holdChan p

/-! ### Failed bonds (R602, R606, R672) -/

/-- A good bond is declared failed: a lane that it carries goes to the lowest free spare, whose MIRROR waits for a row slot
(R598), or a full retrain starts with cause 3 (R606, R672). Until the SWITCH its symbols are erased where the set stays at 4
(R606). -/
def State.failBond (s : State) (p b : Nat) : State :=
  let l := (s.slice p).link
  if !l.good b then s
  else
    let s1 := (s.modLink p fun l => { l with failed := insertNat b l.failed }).linkEvent .laneFail p b 0
    match l.laneOf b with
    | none => s1.modLink p fun l => { l with lanes := Tab.set Lane.reset l.lanes b Lane.reset }
    | some k =>
      match (s1.slice p).link.spareFor k with
      | none => s1.startRetrain p 3
      | some d =>
        let erase := decide (k < 72) && !(l.lane b).marked && decide (l.erasures.length + (l.symsOf k).length ≤ 4)
        let s2 := s1.modSch p fun x => { x with sideAt := x.sideAt.or (some x.cclk) }
        (s2.modLink p fun l =>
          let l1 := { l with swap := l.swap ++ [⟨k, b, d, (s1.slice p).sch.cclk, true, false⟩] }
          if erase then l1.modLane b fun x => { x with marked := true } else l1).linkEvent .linkSpare p b 0

/-! ### Replacement of failed bonds in training and retrain (R606, R607, R627, R630, R631) -/

/-- Lanes in use whose bond has failed. -/
def Link.badLanes (l : Link) : List Nat := l.lanesUsed.filter fun k => !l.good (l.bondOf k)

/-- Replace the bond of one lane by a spare, with its LSTEERs and its LINK_SPARE record, when there is one (R604, R606). -/
def State.replaceLane (s : State) (p k : Nat) : State :=
  let l := (s.slice p).link
  match l.spareFor k with
  | some d => (s.modLink p fun l => (l.sendSteer (s.slice p).sch.cclk k d).steerTo k d).linkEvent .linkSpare p (l.bondOf k) 0
  | none => s

/-- Enter NARROW mode on the 36 lowest-numbered good DQ bonds, whose LSTEERs are sent before the NRW (R604, R607). -/
def State.enterNarrow (s : State) (p : Nat) : State :=
  (s.modLink p fun l =>
    let bs := (List.range 76).filter l.good
    let l1 := (List.range 36).foldl (fun (l : Link) k =>
      let b := bs.getD k 0
      if l.bondOf k = b then l else (l.sendSteer (s.slice p).sch.cclk k b).steerTo k b) l
    { l1.send (s.slice p).sch.cclk false (rowHalf 11 (2 ^ 4)) with narrow := true }).linkEvent .linkNarrow p 0x7F 0

/-- The permanent takeovers in progress end with their SWITCH: the spare that was chosen, and recorded, for a failed bond's lane
carries it, unless that spare has failed as well (R606, R630, R672; DEDUCED, log 60). -/
def Link.endSwaps (l : Link) (t : Nat) : Link :=
  { (l.swap.foldl (fun l x => if x.perm && l.good x.dst then (l.sendSteer t x.lane x.dst).steerTo x.lane x.dst else l) l) with swap := [] }

/-- What step 7 of a training or retrain does with failed bonds; the flag says that the slice cannot go on. -/
def State.replaceBonds (s : State) (p : Nat) : State × Bool :=
  let s0 := (s.modLink p fun l => l.endSwaps (s.slice p).sch.cclk).modSch p fun x => { x with sideAt := none }
  let l := (s0.slice p).link
  let s1 := if !l.narrow && l.goodDq < 72 then (if 36 ≤ l.goodDq then s0.enterNarrow p else s0)
    else s0.each (l.badLanes.filter fun k => k < 72) fun s k => s.replaceLane p k
  let s2 := s1.each (((s1.slice p).link.badLanes).filter fun k => 72 ≤ k) fun s k => s.replaceLane p k
  let s3 := s2.modLink p fun l => { l with lanes := l.failed.foldl (fun t b => Tab.set Lane.reset t b Lane.reset) l.lanes }
  (s3, !(s3.slice p).link.badLanes.isEmpty)

/-- The scrub pass of the slice starts at row 0, with PERIOD as it stands; while EN is 0 it starts paused (R673, R674, R702,
R940). -/
def State.newScrub (s : State) (p : Nat) : State :=
  s.modScr p fun x =>
    { x with spos := 0, sstart := s.view p, speriod := fld s.stk.scrub 1 8, slate := false,
             spaused := if bit s.stk.scrub 0 then none else some (s.view p) }

/-! ### Fencing (R692 to R695) -/

/-- A launch is active on a channel (R449, R455). -/
def State.chanLaunch (s : State) (c : Nat) : Bool :=
  s.fab.launches.any fun l => l.chans.contains c && decide (0 < l.nops) && !l.endedOn c

/-- What the write buffers of the slices `ps` hold: the request and the cell of each entry. -/
def State.buffered (s : State) (ps : List Nat) : List (Nat × Key) :=
  ps.flatMap fun p =>
    let d := (s.slice p).dat
    (d.wb ++ d.fow).map fun w => (w.ix, keyOf p w.bank w.row w.col)

/-- An access of a write has ended in a write buffer that still holds its data, and the request has not been answered; an entry of
the write buffer keeps the earliest request that it serves (R460). -/
def Entry.inBuffer (e : Entry) (held : List (Nat × Key)) (a : Acc) : Bool :=
  let write : Bool := match e.kind with
    | .wr | .wrPartial | .writeBulk => true
    | _ => false
  write && e.fin.isNone && a.st == some .ok && held.any fun w => decide (w.1 ≤ e.id) && w.2 == a.key

/-- The accesses of every tracked request on channel `c` that have not ended end with FENCED, and so do those of unanswered writes
whose data the write buffers hold; read data is left open (R695; free value, DESIGN CHOICE, log 4). -/
def State.fenceAccs (s : State) (c : Nat) (ps : List Nat) : State :=
  let held := s.buffered ps
  s.nextFree.modFab fun f => { f with trk := f.trk.map fun e =>
    { e with accs := e.accs.map fun a =>
        if a.chan = c && (a.st.isNone || e.inBuffer held a) then
          { a with st := some .fenced, data := (Config.freeCode s.sys.free a.key).setWidth 512 } else a } }

/-- Pieces without those of channel `c`. -/
def dropChan (c : Nat) (l : List Piece) : List Piece := l.filter fun x => x.chan != c

/-- A channel's requests complete with FENCED, and what its islands hold is discarded (R695, R678). -/
def State.fenceChan (s : State) (c : Nat) (ps : List Nat) : State :=
  let s1 := (s.fenceAccs c ps).modFab fun f =>
    { f with cq := dropChan c f.cq,
             mq := (f.mq.map fun q => { q with pieces := dropChan c q.pieces }).filter fun q => !q.pieces.isEmpty,
             trk := f.trk.filter fun e => !(e.kind == .scrub && e.accs.any fun a => a.chan == c) }
  let s2 := s1.each ps fun s p => (s.icqRelease 0 p (s.slice p).words0).modSlice p fun x =>
    { x with sch := { x.sch with window := [], narrowSlot := [], waiting := [], flight := [], grant := none, wrPhase := false },
             dat := { ChData.reset with nextIx := x.dat.nextIx }, scr := { x.scr with checks := [], cmps := [] },
             rep := { x.rep with repairs := [], repWait := [], unitWait := [], unitSent := [] } }
  let ids := (s2.fab.trk.filter fun e => e.kind == .gatherList || e.kind == .gatherPage).map (·.id)
  (s2.each ids State.settleGather).each (s2.fab.trk.map (·.id)) State.lateOnce

/-- Launches on a channel that becomes FENCED end there at once, an op in progress with them (R482). -/
def State.fenceLaunches (s : State) (c : Nat) (ps : List Nat) : State :=
  let s1 := s.each ((s.fab.launches.filter fun l => l.chans.contains c).map (·.eid)) fun s id => s.killLaunch id .fenced
  s1.each (ps.filter fun p => s1.stk.chanOf p == some c) fun s p => if (s.slice p).brew.cur.isSome then s.brewStopped p else s

/-- A channel becomes FENCED with a cause of R704: one CHAN_FENCE record (R694). -/
def State.chanFence (s : State) (c p cause : Nat) (ps : List Nat) : State :=
  let s1 := s.fenceLaunches c ps
  ((s1.setRemap c { s1.stk.remapAt c with st := .fenced, new := 0, mptr := 0 }).fenceChan c ps).event .chanFence p
    (repairDetail c 0xFF 0 cause)

/-- The slice leaves service: SRE with SB_CKE low, and its PHY goes off (R590, R688). No hold of it is left. -/
def State.outOfService (s : State) (p : Nat) : State :=
  ((if (s.slice p).rf.selfRef then s else s.sre p).modLink p fun l =>
    { l with state := .fenced, calAct := false, calDue := false, calCmd := false, swap := [], cke := false, phy := false }).modSlice p
    fun x => { x with rep := { x.rep with inServ := false, testing := false }, rf := { x.rf with refOn := false, selfRef := true },
                      scr := { x.scr with checks := [], cmps := [] }, sch := { x.sch with held := 0 } }

/-- A pending CAL_RUN no longer waits for bundle `p`; with the last one it completes (R830). -/
def State.calRunDrop (s : State) (p : Nat) : State :=
  let s1 := s.modMbx fun m => { m with pending := m.pending.map fun c =>
    if c.op = 0x41 then { c with todo := c.todo.filter fun x => x != p } else c }
  if s1.mbx.pending.any fun c => c.op == 0x41 && c.todo.isEmpty then s1.endPending 0x41 eOk else s1

/-- The RETRAIN command waits for this slice (R829). -/
def State.retrainCmd (s : State) (p : Nat) : State :=
  match s.mbx.run with
  | some r => if r.op = 0x40 && r.a = p then s.finish eOk [(s.slice p).link.status] else s
  | none => s

/-- The slice leaves service for good, and no command waits for it any longer (R829, R830). -/
def State.retireSlice (s : State) (p : Nat) : State := ((s.outOfService p).calRunDrop p).retrainCmd p

/-- Slice `p` is fenced (R593, R610, R627, R631, R692, R694): a migration or REBIND it takes part in ends, and the
channel it serves becomes FENCED. -/
def State.fenceSlice (s : State) (p : Nat) : State :=
  let s1 := (s.detBreak 5).retireSlice p
  match s.stk.migs.find? fun m => m.old == p && !m.rebind || m.new == p with
  | some m =>
    let s2 := s1.modStk fun k => { k with migs := k.migs.filter fun x => x.chan != m.chan }
    if m.rebind then s2.endPending 0x44 eAborted
    else
      let cause := if m.old = p then 5 else 6
      let s3 := s2.event .migFail m.old (repairDetail m.chan m.new 0 cause)
      let s4 := s3.chanFence m.chan m.old cause [m.old, m.new]
      if m.cmd then s4.endPending 0x43 eAborted else s4
  | none => match s.stk.chanOf p with
    | some c => s1.chanFence c p 7 [p]
    | none => s1

end Sys2Proof.Machine
end

