-- ==== Sys2Proof/Machine/Calib.lean ====
section
/-! DEFINITION. Rolling calibration, lane switches, alerts, and the end of a full retrain (R597 to R600, R629 to R647). -/

namespace Sys2Proof.Machine

/-- DELTA_T (R650). -/
def State.deltaT (s : State) : Nat := fld s.cfg.link 0 5
/-- CAL_PAR (R650). -/
def State.calPar (s : State) : Nat := fld s.cfg.link 5 8
/-- ROLL_EN (R650). -/
def State.rollEn (s : State) : Bool := bit s.cfg.link 13
/-- HOLD_GAP in ticks (R650). -/
def State.holdGap (s : State) : Nat := us (fld s.cfg.link 14 8)

/-- A frequency change, Frost entry, or the shut-down keeps calibration from running (R644, R902). -/
def State.calStopped (s : State) : Bool :=
  s.therm.latch || s.sys.entering || s.sys.phase != .running || s.sys.rstEnd ||
    match s.mc with
    | some m => m.what == .rate
    | none => false

/-- A bundle wants a pass: CAL_DUE outside DET_TIMING with ROLL_EN, or the CAL_RUN command (R641, R645, R646). -/
def State.calWants (s : State) (p : Nat) : Bool :=
  let l := (s.slice p).link
  let roll := match s.det.mode with
    | .timing => false
    | .off | .bits => l.calDue && s.rollEn
  (s.slice p).rep.inServ && l.up && !l.calAct && (l.calCmd || roll)

/-- Bonds of a pass in order: those of the DQ lanes, those of the CA lanes, then every free good bond (R641). -/
def Link.calBonds (l : Link) : List Nat := (l.lanesUsed.map l.bondOf) ++ (List.range 87).filter l.free

/-- CAL_PASS_START (R641): the lowest-numbered bundle that wants a pass starts one while fewer than CAL_PAR run; a pass
that yielded goes on at its lane (R644). The bonds of the pass are fixed when it starts. -/
def execCalPassStart (p : Fin 144) (s : State) : Res :=
  .next <|
    let p := p.val
    let running := ((List.range 144).filter fun i => (s.slice i).link.calAct).length
    if s.calStopped || s.calPar ≤ running || (List.range 144).find? s.calWants ≠ some p then s
    else (s.detBreak 4).modLink p fun l => { l with calAct := true, calList := if l.calPos = 0 then l.calBonds else l.calList }

/-- A calibrated bond stores its measured trims and uses them (R637, R639). The halves sent are a free value after it: the spec
does not say how many CALP and ETRIM a bond takes (R598, R642; DESIGN CHOICE, log 47). -/
def State.useTrim (s : State) (p b : Nat) (w : BitVec 32) : State :=
  let tc := (s.tcOf p).toInt
  s.modLink p fun l =>
    { l.storeTrim b s.sys.rate tc w with
      inuse := Tab.set 0 l.inuse b (measWord w), finger := s.therm.zqCode
      halves := fld (Config.freeWord (l.halves + 65536 * s.sys.ltc) (65536 + 256 * p + b)) 0 16 }

/-- The four LSTEERs of a temporary takeover of `lane` from bond `b` by the spare `d` and back (R604, R642); the frame of CCLK `t`
carries the first. -/
def Link.sendTakeover (l : Link) (t lane b d : Nat) : Link :=
  { ((l.sendSteer t lane d).sendSteer (t + 16) lane b) with
    frame := (l.send t false (rowHalf 8 (lane * 2 ^ 4 + d * 2 ^ 11))).frame }

/-- CAL_LANE (R642, R643): the next bond of the pass is calibrated: a free bond alone; a bond with a lane by temporary
takeover onto the lowest free spare, whose trims are stored too, or under a hold at least HOLD_GAP after the last, which
begins and ends within this one step (log 47); a bond that has failed since the pass began keeps its trims. A bond calibrated
without a hold begins with a command in a row slot that it is left by R598: for a takeover the first of its four LSTEERs.
After the last bond the pass is complete (R641, R649, R830). -/
def execCalLane (p : Fin 144) (bondTrim : BitVec 32) (spareTrim : BitVec 32) (s : State) : Res :=
  .next <|
    let p := p.val
    let l := (s.slice p).link
    let bs := l.calList
    let run := s.islandRuns p
    if !l.calAct || s.calStopped || !l.up then s
    else match bs[l.calPos]? with
      | none => s
      | some b =>
        let lane := l.laneOf b
        let spare := lane.bind l.spareFor
        let hold := lane.isSome && spare.isNone
        if hold && decide (s.sys.ltc < l.calNext) then s
        else if run && !hold && !s.sideSlot p then s.sideWait p
        else
          let s0 := if run && !hold then s.sideTake p else s
          let s0 := match lane, spare with
            | some k, some d => s0.modLink p fun l => l.sendTakeover (s.slice p).sch.cclk k b d
            | _, _ => s0
          let s1 := if l.good b then s0.useTrim p b bondTrim else s0
          let s2 := match spare with
            | some d => s1.useTrim p d spareTrim
            | none => s1
          let s3 := if hold then
              ((s2.detBreak 4).statSlice p 32 1).modLink p fun l => { l with calHold := true, calNext := s.sys.ltc + s.holdGap }
            else s2
          if l.calPos + 1 < bs.length then s3.modLink p fun l => { l with calPos := l.calPos + 1 }
          else
            let kind := if (s3.slice p).link.calHold then 2 else 1
            ((s3.calDone p kind).modLink p fun l =>
              { l with calAct := false, calCmd := false,
                       derived := l.isDerived s.sys.rate }).calRunDrop p

/-- LSTEER_SWITCH (R604): at least 8 CCLK after its MIRROR the oldest takeover's lane moves to its new bond, in a row slot that
R598 leaves it; the mark of a failed bond ends (R672). -/
def execLsteerSwitch (p : Fin 144) (s : State) : Res :=
  .next <|
    let p := p.val
    match (s.slice p).link.swap with
    | [] => s
    | t :: rest =>
      if !s.islandRuns p || !t.mirrored || (s.slice p).sch.cclk < t.since + 8 then s
      else if !s.sideSlot p then s.sideWait p
      else ((s.sideTake p).sendRow p 8 (t.lane * 2 ^ 4 + t.dst * 2 ^ 11 + 2 ^ 18)).modLink p fun l =>
        { l.steerTo t.lane t.dst with
          swap := rest, lanes := if t.perm then Tab.set Lane.reset l.lanes t.src Lane.reset else l.lanes }

/-- SB_ALERT_N (R600): a parity error was found: the alert is counted, the halves after the executed ones, and those sent
until the alert is cleared, are to be sent again, and a full retrain starts with cause 1, or the one that runs handles it
(R632). While the pin is low it does not fall again (R599). The effect of a half stands in the model from its first sending,
and nothing uses it before it has been sent again (R601; DESIGN CHOICE, log 65). -/
def execSbAlertN (p : Fin 144) (executed : BitVec 16) (s : State) : Res :=
  .next <|
    let p := p.val
    let l := (s.slice p).link
    if !(l.up || l.state == .retrain) || l.alert then s
    else
      let n := (l.halves + 2 ^ 16 - executed.toNat) % 2 ^ 16
      let s1 := (s.errCount p 29 1).modLink p fun l =>
        { l with alert := true, resend := n, again := l.again ++ l.hist.drop (l.hist.length - n) }
      s1.startRetrain p 1

/-- EP_CK_LOCK_LOST (R629): a full retrain starts with cause 2. -/
def execEpCkLockLost (p : Fin 144) (s : State) : Res := .next (s.startRetrain p.val 2)

/-- READ_STROBE_LOST (R629): a full retrain starts with cause 4. -/
def execReadStrobeLost (p : Fin 144) (s : State) : Res := .next (s.startRetrain p.val 4)

/-- The next step of a migration or REBIND whose new slice has been trained: MIGRATING and MIG_START, or zeroing (R688,
R696). -/
def State.newSliceReady (s : State) (p : Nat) : State :=
  match s.stk.migs.find? fun m => m.new == p && !m.copying with
  | none => s
  | some m =>
    let s1 := s.modStk fun k => { k with migs := k.migs.map fun x => if x.chan = m.chan then { x with copying := true, mark := s.fab.nextId } else x }
    if m.rebind then s1
    else
      ((s1.setRemap m.chan ⟨m.old, m.new, .migrating, 0⟩).event .migStart m.old (repairDetail m.chan m.new 0 m.cause)).each
        [m.old, m.new] fun s q => (s.dropScrubs q).modScr q fun x => { x with checks := [] }

/-- What waits on halves that were sent from CCLK `h` on waits `d` CCLK longer: reads on their way, a BSET and a row op (R601). -/
def Slice.later (x : Slice) (h d : Nat) : Slice :=
  let row (op : Nat) : Bool := x.link.again.any fun y => !y.col && fld y.w 0 4 == op
  { x with
    sch := { x.sch with flight := x.sch.flight.map fun f => if h ≤ f.issued then { f with issued := f.issued + d } else f }
    brew := { x.brew with bset := if row 6 then x.brew.bset + d else x.brew.bset, endAt := if row 7 then x.brew.endAt + d else x.brew.endAt }
    bt := { x.bt with
      banks := Tab.mapVals BankT.reset (fun _ b => { b with okAct := b.okAct + d, okPre := b.okPre + d, okCol := b.okCol + d }) x.bt.banks
      faw := x.bt.faw.map (· + d), okActAny := x.bt.okActAny + d, okCol := x.bt.okCol + d, okRd := x.bt.okRd + d
      okWr := x.bt.okWr + d, okAny := x.bt.okAny + d } }

/-- The discarded halves are sent again in their order and with their spacing, from the present CCLK on; the constraints of
R247 count from their new times (R600, R601). -/
def State.sendAgain (s : State) (p : Nat) : State :=
  let l := (s.slice p).link
  match l.again with
  | [] => s
  | h :: _ =>
    let t := (s.slice p).sch.cclk
    let d := t - h.sent
    let l1 := l.again.foldl (fun (l : Link) x => l.send (x.sent + d) x.col x.w) { l.clearAlert with again := [] }
    s.modSlice p fun x =>
      let y := x.later h.sent d
      { y with link := l1, sch := { y.sch with cclk := (l.again.foldl (fun m z => max m (z.sent + d)) t) + 1 } }

/-- The measured trim of a bond: the one that the outcome lists, else a free value (DESIGN CHOICE, log 28). -/
def trimOf (o : TrainOutcome) (free p b : Nat) : BitVec 32 :=
  ((o.trims.find? fun x => x.1 == b).map (·.2)).getD (Config.freeWord free (128 * p + b) &&& 0x3FFFFFFF)

/-- Training and a full retrain measure, store and use the trims of every good bond (R626, R630, R637, R639). -/
def State.measureAll (s : State) (p : Nat) (o : TrainOutcome) : State :=
  let l := (s.slice p).link
  s.each ((List.range 91).filter l.good) fun t b => t.useTrim p b (trimOf o s.sys.free p b)

/-- Step 1 of R630 is over: a retrain that holds its channel has been told to the island and has precharged every bank, or the
slice takes no commands. -/
def State.closedFor (s : State) (p : Nat) : Bool :=
  !s.sliceLive p || (s.slice p).link.cause == 5 && decide ((s.slice p).bt.okAny ≤ (s.slice p).sch.cclk) ||
    !s.onWay (.hold p) && s.allClosed p

/-- Step 3 of R688 waits: a launch has become active on the channel that slice `p` is to serve (R455). -/
def State.launchFirst (s : State) (p : Nat) : Bool :=
  s.stk.migs.any fun m => m.new == p && !m.rebind && !m.copying && s.chanLaunch m.chan

/-- RETRAIN_END (R630): once every bank is precharged, the alert is cleared, failed bonds are replaced, NARROW is entered or
the slice is fenced (R607, R631), the measured trims are stored and used, discarded halves are sent again (R600), and the hold
ends with a LINK_RETRAIN record. -/
def execRetrainEnd (p : Fin 144) (o : TrainOutcome) (s : State) : Res :=
  .next <|
    let p := p.val
    let l := (s.slice p).link
    if l.state != .retrain || !s.closedFor p || s.therm.latch || s.sys.rstEnd || s.launchFirst p then s
    else
      let s0 := s.modLink p fun l =>
        { l.clearAlert with failed := (o.badBonds.filter fun b => b < 87).foldl (fun f b => insertNat b f) l.failed }
      let r := s0.replaceBonds p
      let s1 := ((r.1.takeTrims p).measureAll p o).nextFree
      let s2 := (s1.sendAgain p).modLink p fun l =>
        { l with state := if l.narrow then .narrow else .active, resend := 0, derived := l.isDerived s.sys.rate, finger := s.therm.zqCode }
      let s3 := (s2.calDone p 3).linkEvent .linkRetrain p 0x7F l.cause
      let s4 := if l.cause = 5 then s3 else s3.unholdChan p
      let s5 :=
        if r.2 || o.strobeBad then (s4.linkEvent .linkFence p 0x7F 0).fenceSlice p
        else
          let s5 := s4.newSliceReady p
          if !l.narrow && (s4.slice p).link.narrow then
            (match s5.stk.chanOf p with
             | some c => s5.addCand c 1
             | none => s5)
          else s5
      s5.retrainCmd p

end Sys2Proof.Machine
end

