-- ==== Sys2Proof/Machine/Egress.lean ====
section
/-! DEFINITION. What the controller drives back: response beats, outbound beats, completion records, FENCE completion
and digest records (R108 to R132, R152 to R158, R726 to R731). -/

namespace Sys2Proof.Machine

/-! ### Response beats -/

/-- The beat header of R108. -/
def rspHeader (tag : BitVec 8) (st : RspStatus) (err : BitVec 8) (dvalid last : Bool) (seq : Nat) : Nat :=
  tag.toNat + st.code * 2 ^ 8 + err.toNat * 2 ^ 12 + b2n dvalid * 2 ^ 20 + b2n last * 2 ^ 21 + seq % 2 ^ 16 * 2 ^ 22

/-- Drive a beat on a port: it takes one response credit (R87, R908). -/
def State.driveRsp (s : State) (k : Nat) (data header : Nat) : State :=
  s.modPort k fun p =>
    { p with rsp := BitVec.ofNat 2096 (data + header * (if isTile k then 2 ^ 2048 else 2 ^ 256)), rspValid := true,
             rspCrd := p.rspCrd - 1 }

/-- The data beats of an RD: 256 B on a tile port, 32 B on a narrow port (R93, R102). -/
def Entry.rdBeats (e : Entry) : Nat := if e.sub < 32 then (e.units + 3) / 4 else 1

/-- Units that beat `b` of an RD carries. -/
def Entry.beatUnits (e : Entry) (b : Nat) : List Nat :=
  if e.sub < 32 then (List.range 4).filterMap fun i => if 4 * b + i < e.units then some (4 * b + i) else none else [0]

/-- Data of unit `u` as an RD delivers it: the 64 B, or the 32 B half that a narrow request names (R102, R104). -/
def Entry.rdUnit (e : Entry) (u : Nat) : Nat :=
  if e.sub < 32 then (unitData e.rent e.sat e.accs e.off u).toNat
  else ((e.accs.headD Acc.reset).data.toNat / 2 ^ (256 * (e.req.addr.toNat / 32 % 2))) % 2 ^ 256

/-- Status that covers the accesses of a beat (R111). -/
def Entry.beatStatus (e : Entry) (b : Nat) : RspStatus :=
  if e.sub < 32 then worstOf ((e.beatUnits b).map (unitStatus e.accs)) else worstOf (e.accs.filterMap (·.st))

/-- The entry can drive a beat of its own response at LTC `t`: a header, or data of an RD whose accesses have all ended; in
DET_TIMING the fabric reads those ends later (R81). -/
def Entry.answerable (e : Entry) (t : Nat) : Bool :=
  e.fin.isSome || ((e.headerAnswer.isSome || e.kind == .rd) && accsSeen e.accs t)

/-- The response that a port drives next: the RD whose beats are being driven (R113), else the earliest admitted one
that is ready (DESIGN CHOICE, log 20: R125 leaves the order open). -/
def State.nextRsp (s : State) (k : Nat) : Option Entry :=
  match (s.port k).cur with
  | some id => s.fab.entry id
  | none => s.fab.trk.find? fun e => e.sub == k && e.answerable s.sys.ltc

/-- The controller holds the response credits that R113 asks for before the first beat of `n`. -/
def Port.mayStart (p : Port) (n : Nat) : Bool := decide (0 < p.rspCrd) && decide (min n p.rspGrant ≤ p.rspCrd)

/-- Beat index of a header beat: the data beats driven before it, 0 for every other request (R108). -/
def Entry.headerSeq (e : Entry) : Nat :=
  match e.kind with
  | .rd | .gather => e.beats
  | .wr | .wrPartial | .acc | .fence | .brewLaunch | .brewAbort | .writeBulk | .accBulk | .readBulk | .gatherList
  | .gatherPage | .scrub | .copy | .digestRec | .ctxWrite | .resealWork | .digestWork => 0

/-- The bytes that a read or GATHER has delivered join its digest stream, however it ends (R143, R723). -/
def State.closeDelivered (s : State) (e : Entry) : State :=
  match e.kind with
  | .rd | .readBulk => s.feedEnd e.sub e.req.digest 0 e.dg
  | .gather => s.feedEnd e.sub e.req.digest 2 e.dg
  | .wr | .wrPartial | .acc | .fence | .brewLaunch | .brewAbort | .writeBulk | .accBulk | .gatherList
  | .gatherPage | .scrub | .copy | .digestRec | .ctxWrite | .resealWork | .digestWork => s

/-- The last beat of a response has been driven: a request that completes now is counted when late (R141), what it delivered is
hashed (R143), and its entry frees (R91). -/
def State.rspOver (s : State) (e : Entry) : State :=
  (((if e.counted then s else s.countLate e).closeDelivered e).retire e).modPort e.sub fun p => { p with cur := none }

/-- One data beat of an RD (R113, R115): its bytes feed the digest stream (R723). -/
def State.rdBeat (s : State) (e : Entry) : State :=
  let b := e.beats
  let us := e.beatUnits b
  let last := b + 1 = e.rdBeats
  let w := if e.sub < 32 then 64 else 32
  let data := us.foldl (fun d u => d + e.rdUnit u * 2 ^ (512 * (u - 4 * b))) 0
  let s0 := if b = 0 && e.sub < 32 then s.countExpand e.sub e.rent e.sat e.accs e.off e.units else s
  let s1 := s0.driveRsp e.sub data (rspHeader (tagOf e.sub e.req.tag) (e.beatStatus b) eOk true last b)
  let r := us.foldl (fun (x : State × DgAcc) u =>
    x.1.feed e.sub e.req.digest 0 x.2 (e.req.addr.toNat + 64 * u) (e.rdUnit u) w) (s1, e.dg)
  if last then r.1.rspOver { e with dg := r.2 }
  else (r.1.modEntry e.id fun x => { x with beats := b + 1, dg := r.2 }).modPort e.sub fun p => { p with cur := some e.id }

/-- RESPONSE_BEAT (R108 to R113): one beat of the next ready response is driven under a response credit; the response
of a masked subscriber is discarded as it is produced (R160). -/
def execResponseBeat (port : Fin 36) (s : State) : Res :=
  .next <|
    let k := port.val
    if !s.portsLive then s
    else match s.nextRsp k with
      | none => s
      | some e =>
        if s.isMasked k then (if e.answerable s.sys.ltc then s.rspOver e else s)
        else match e.headerAnswer with
          | some d =>
            if (s.port k).rspCrd = 0 then s
            else (s.driveRsp k 0 (rspHeader (tagOf k e.req.tag) d.st d.err false true e.headerSeq)).rspOver e
          | none =>
            if e.kind != .rd || (s.port k).rspCrd = 0 || (e.beats = 0 && !(s.port k).mayStart e.rdBeats) then s
            else s.rdBeat e

/-! ### Bulk landing port -/

/-- 64 B units of a descriptor. -/
def BDesc.units (d : BDesc) : Nat := (d.desc.len.toNat + 63) / 64

/-- The descriptor's entry. -/
def State.descOf (s : State) (d : BDesc) : Entry := (s.fab.entry d.eid).getD Entry.reset

/-- The landing port has the end of an access: in DET_TIMING, once it has crossed from the channel to the fabric and on to the
port (R81). -/
def State.landed (s : State) (a : Acc) : Bool := a.st.isSome && decide (a.vis + s.crossTime 6 ≤ s.sys.ltc)

/-- The next outbound beat of a READ_BULK is ready: its accesses have ended and no loss ended the descriptor (R77). -/
def State.outReady (s : State) (d : BDesc) : Bool :=
  let e := s.descOf d
  d.op == 2 && d.fin.isNone && e.fin.isNone && decide (d.obeats < d.units) &&
    (e.accs.all fun a => s.landed a || !(decide (a.view0 ≤ d.obeats) && decide (d.obeats ≤ a.view1)))

/-- OUTBOUND_BEAT (R156): the next beat of the `n`-th descriptor in flight is driven under an outbound credit, once its word has a
slot in the crossing queue (R50, R82); for a masked BLP it is discarded (R160). -/
def execOutboundBeat (n : Nat) (s : State) : Res :=
  .next <|
    match s.blp.flight[n]? with
    | none => s
    | some d =>
      let masked := s.isMasked 36
      if !s.portsLive || !s.outReady d || (!masked && s.blp.odataCrd = 0) || s.icqFull 6 0 0 then s
      else
        let e := s.descOf d
        let u := d.obeats
        let x := unitData e.rent e.sat e.accs e.off u
        let last := u + 1 = d.units
        let s1 := (s.modBlp fun b =>
          { b with flight := b.flight.map fun y => if y.eid = d.eid then { y with obeats := u + 1 } else y }).icqPass 6 0
        if masked then s1
        else
          let hd := d.desc.descId.toNat + (unitStatus e.accs u).code * 2 ^ 16 + b2n last * 2 ^ 20
          let s2 := s1.modBlp fun b =>
            { b with odata := BitVec.ofNat 544 (x.toNat + hd * 2 ^ 512), odataValid := true, odataCrd := b.odataCrd - 1 }
          let r := s2.feed 36 d.desc.digest 0 e.dg (d.desc.addr.toNat + 64 * u) x.toNat 64
          r.1.modEntry d.eid fun y => { y with dg := r.2 }

/-- A descriptor has completed (R154, R155), or was rejected or lost. -/
def State.descDone (s : State) (d : BDesc) : Bool :=
  let e := s.descOf d
  if d.fin.isSome then decide (d.vis ≤ s.sys.ltc) else e.fin.isSome || (if d.op = 2 then d.obeats == d.units else e.accs.all s.landed)

/-- Byte offset from ADDR of an access of a descriptor (R157). For an ACC_BULK the bytes counted are addend bytes, those of the
descriptor's data; R157 does not say whether they are those or slot bytes of the view (DESIGN CHOICE, log 56). -/
def accByte (e : Entry) (a : Acc) : Nat :=
  match e.kind with
  | .accBulk => a.view0 * afmtWidth e.afmt
  | _ => 64 * a.view0

/-- The completion record of R157. -/
def State.cplRecord (s : State) (d : BDesc) : BitVec 128 :=
  let e := s.descOf d
  let worst := worstOf (e.accs.filterMap (·.st))
  let fin : Done := match d.fin with
    | some x => x
    | none => match e.fin with
      | some x => ⟨if e.accs.isEmpty then x.st else x.st.worse worst, x.err⟩
      | none => ⟨worst, eOk⟩
  let bad := ((e.accs.filter fun a => a.st != some .ok).map (accByte e)).min?
  BitVec.ofNat 128 (d.desc.descId.toNat + d.desc.srcChip.toNat * 2 ^ 16 + fin.st.code * 2 ^ 32 +
    fin.err.toNat * 2 ^ 40 + bad.getD 0x1FFFFFF * 2 ^ 64)

/-- BLP_COMPLETION_RECORD (R152, R158): the earliest accepted completed descriptor with no earlier one of its source in flight
gets its record, under a completion credit and with a slot in the crossing queue (R50, R82); a masked BLP's record is
discarded (R160). -/
def execBlpCompletionRecord (s : State) : Res :=
  .next <|
    let masked := s.isMasked 36
    match s.blp.flight.find? fun d => s.descDone d &&
        !(s.blp.flight.any fun x => x.desc.srcChip == d.desc.srcChip && decide (x.ord < d.ord)) with
    | none => s
    | some d =>
      if !s.portsLive || (!masked && s.blp.cplCrd = 0) || s.icqFull 6 0 0 then s
      else
        let rec' := s.cplRecord d
        let e := s.descOf d
        ((((s.closeDelivered e).retire e).icqPass 6 0).modBlp fun b =>
          { b with flight := b.flight.filter fun x => x.eid != d.eid,
                   cpl := if masked then b.cpl else rec', cplValid := b.cplValid || !masked,
                   cplCrd := if masked then b.cplCrd else b.cplCrd - 1 }).freeEntry d.eid

/-! ### FENCE -/

/-- A request that a later FENCE of its port waits for has not completed at LTC `t` (R129). -/
def Entry.holdsFence (e : Entry) (t : Nat) : Bool :=
  e.fin.isNone &&
    match e.kind with
    | .wr | .wrPartial | .acc => !accsSeen e.accs t
    | .gather => true
    | .rd | .fence | .brewLaunch | .brewAbort | .writeBulk | .accBulk | .readBulk | .gatherList | .gatherPage | .scrub
    | .copy | .digestRec | .ctxWrite | .resealWork | .digestWork => false

/-- FENCE_COMPLETE (R129 to R132): the earliest FENCE of the port whose earlier writes, ACCs and GATHERs have completed
ends with OK; a digest fence also waits for the LAST beat of its port's earlier RDs and GATHERs with DIGEST, closes its stream's
epoch, and waits for its record (R726, R728, R731). -/
def execFenceComplete (port : Fin 36) (s : State) : Res :=
  .next <|
    let k := port.val
    let dig (e : Entry) : Bool := e.req.digest && (s.streamOf k).isSome
    let open' (e : Entry) : Bool := e.sub == k && e.kind == .fence && e.fin.isNone && e.beats == 0
    let met (e : Entry) : Bool :=
      !(s.fab.trk.any fun x => x.sub == k && decide (x.ord < e.ord) &&
        (x.holdsFence s.sys.ltc || (dig e && x.req.digest && (x.kind == .rd || x.kind == .gather))))
    match s.fab.trk.find? fun e => open' e && met e with
    | none => s
    | some e =>
      if !s.portsLive then s
      else match (if dig e then s.streamOf k else none) with
        | none => s.decideEntry e.id .ok eOk
        | some i =>
          if s.recEn then ((s.digestFence i (some e.id) false).modEntry e.id fun x => { x with beats := 1 }).addRecs
          else (s.digestFence i none false).decideEntry e.id .ok eOk

/-! ### Digest records -/

/-- The first record has been written, or is lost: its fence completes, and so does a DIGEST_FENCE command that waits
for it (R731, R837). -/
def State.recordOver (s : State) (r : DgRec) (lost : Bool) : State :=
  let s1 := s.modDet fun d => { d with recs := d.recs.tail }
  let s2 := if lost then s1.event .digRecLost 0 (r.stream % 16 + r.n.toNat % 2 ^ 24 * 2 ^ 8) else s1
  let s3 := match r.fence with
    | some id => s2.decideEntry id (if lost then .fault else .ok) eOk
    | none => s2
  if r.cmd then
    s3.finish eOk ((r.n :: (List.range 8).map fun i => BitVec.ofNat 32 (r.d.toNat / 2 ^ (32 * i))) ++ [BitVec.ofNat 32 (b2n lost)])
  else s3

/-- Why no write of the oldest record can succeed: its channel is fenced, or shut-down has latched. -/
def State.recBarred (s : State) (r : DgRec) : Bool :=
  let x := s.recPlace r
  s.therm.latch || (s.stk.sliceOf x.chan x.row).isNone

/-- DIGEST_RECORD_DONE (R730, R731): the write of the oldest record, work of subscriber 47 like any other, has completed, and its
fence with it; a write that ends with FAULT, that its channel refuses, or that was `lost`, leaves the record lost. -/
def execDigestRecordDone (lost : Bool) (s : State) : Res :=
  .next <|
    if !s.portsLive then s
    else
      let s0 := s.addRecs
      match s0.det.recs with
      | [] => s0
      | r :: _ =>
        match r.eid with
        | none => if lost || s0.recBarred r then s0.recordOver r true else s0
        | some id => match s0.fab.entry id with
          | none => s0.recordOver r true
          | some e =>
            if lost then ((s0.dropWork id).freeEntry id).recordOver r true
            else if e.fin.isSome then (s0.freeEntry id).recordOver r true
            else if accsSeen e.accs s0.sys.ltc then (s0.freeEntry id).recordOver r (worstOf (e.accs.filterMap (·.st)) != .ok)
            else s0

end Sys2Proof.Machine
end

