-- ==== Sys2Proof/Machine/Image.lean ====
section
/-! DEFINITION. The configuration image: its frame and sections, every check of R788, and the configuration it holds
(R169 to R186, R257, R311, R349 to R351, R375, R429, R430, R530, R536, R584, R651, R702, R747, R783 to R797, R865). -/

namespace Sys2Proof.Machine

/-! ### Frame (R783 to R785) -/

/-- Bytes of words, low byte first (R5). -/
def bytesOf (l : List Word) : List Nat := l.flatMap fun w => toBytes 4 w.toNat

/-- LENGTH of the image in a buffer. -/
def imgLength (t : Tab Word) : Nat := (Tab.get 0 t 3).toNat

/-- TAG and LENGTH are right (the first part of check 1 of R788, R890). -/
def headerOk (t : Tab Word) : Bool :=
  let n := imgLength t
  Tab.get 0 t 0 == 0x4743344B && decide (36 ≤ n) && decide (n ≤ 262144) && n % 4 == 0

/-- The words of the image in a buffer. -/
def imageWords (t : Tab Word) : List Word := (List.range (imgLength t / 4)).map fun i => Tab.get 0 t i

/-- Check 1 of R788. -/
def frameOk (t : Tab Word) : Bool :=
  headerOk t &&
    let ws := imageWords t
    crc32c (bytesOf ws.dropLast) == (ws.getLastD 0).toNat

/-- Cut words into sections: ID and payload (R784); none when they do not end where the words do. -/
def cutSections : Nat → List Word → Option (List (Nat × List Word))
  | _, [] => some []
  | n + 1, a :: b :: t =>
    if 65536 ≤ a.toNat || b.toNat % 4 ≠ 0 || t.length < b.toNat / 4 then none
    else (cutSections n (t.drop (b.toNat / 4))).map fun r => (a.toNat, t.take (b.toNat / 4)) :: r
  | _, _ => none

/-- LEN is right for a section (R786), in words. -/
def sectionLen (id n : Nat) : Bool :=
  match id with
  | 1 => decide (3 ≤ n) && decide (n ≤ 16386)
  | 2 => n == 512
  | 3 => n == 6
  | 4 => n == 1027
  | 5 => n == 33
  | 6 => n == 2
  | 7 => n == 50
  | 8 => n == 1
  | 9 => n == 3
  | 10 => n == 57
  | 11 => n == 4
  | 12 => decide (2 ≤ n) && decide (n ≤ 32896)
  | _ => false

/-- Section IDs rise strictly. -/
def idsRise : List (Nat × List Word) → Bool
  | a :: b :: t => decide (a.1 < b.1) && idsRise (b :: t)
  | _ => true

/-- Op words from 32-bit words. -/
def opWords : List Word → List OpWord
  | a :: b :: t => BitVec.ofNat 64 (a.toNat + b.toNat * 2 ^ 32) :: opWords t
  | _ => []

/-- Program records of a brew section: slot and ops; none for a malformed record (R786, check 3 of R788). -/
def cutPrograms : Nat → Option Nat → List Word → Option (List (Nat × List OpWord))
  | _, _, [] => some []
  | k + 1, last, a :: b :: t =>
    let slot := fld a 0 8
    let n := fld a 16 16
    if fld a 8 8 ≠ 0 || b ≠ 0 || 64 ≤ slot || n = 0 || 256 < n || t.length < 2 * n ||
        (match last with | some m => decide (slot ≤ m) | none => false) then none
    else (cutPrograms k (some slot) (t.drop (2 * n))).map fun r => (slot, opWords (t.take (2 * n))) :: r
  | _, _, _ => none

/-- Payload of a section, when the image has it. -/
def payload (l : List (Nat × List Word)) (id : Nat) : Option (List Word) := (l.find? fun x => x.1 == id).map (·.2)

/-- The sections of a framed image that passes check 3 of R788. -/
def sectionsOf (ws : List Word) : Option (List (Nat × List Word)) :=
  let body := (ws.drop 8).dropLast
  if fld (ws.getD 1 0) 16 16 ≠ 0 || fld (ws.getD 4 0) 16 16 ≠ 0 || ws.getD 5 0 ≠ 0 || ws.getD 6 0 ≠ 0 || ws.getD 7 0 ≠ 0 then
    none
  else match cutSections 13 body with
    | none => none
    | some l =>
      if l.length ≠ fld (ws.getD 4 0) 0 16 || !idsRise l || (l.any fun x => !sectionLen x.1 x.2.length) ||
          ((payload l 1).any fun p => (p.getD 1 0).toNat % 4 != 0) ||
          ((payload l 12).any fun p => (cutPrograms 65 none p).isNone) then none
      else some l

/-! ### The configuration an image holds (R786, R787) -/

/-- A register array as a table with default `d`. -/
def tabWith (d : Word) (l : List Word) : Tab Word := l.zipIdx.filterMap fun vi => if vi.1 = d then none else some (vi.2, vi.1)

/-- Region entries from words. -/
def regionWords : Nat → List Word → List (BitVec 256)
  | 0, _ => []
  | n + 1, l => BitVec.ofNat 256 (le (bytesOf (l.take 8)) 0 32) :: regionWords n (l.drop 8)

/-- `n` words of a payload from word `o`. -/
def sub' (l : List Word) (o n : Nat) : List Word := (l.drop o).take n

/-- Put one section into a configuration. -/
def Cfg.withSection (c : Cfg) (id : Nat) (p : List Word) : Cfg :=
  let w (i : Nat) : Word := p.getD i 0
  match id with
  | 1 => { c with patch := some p }
  | 2 => { c with regions := regionWords 64 p }
  | 3 => { c with sched0 := w 0, sched1 := w 1, class0 := w 2, class1 := w 3, class2 := w 4, class3 := w 5 }
  | 4 =>
    { c with shpCtl := w 0, trust0 := w 1, trust1 := w 2, cir := tabWith 0x000FFFFF (sub' p 3 288),
             pir := tabWith 0x000FFFFF (sub' p 291 288), burst := tabWith 0xFFFFFFFF (sub' p 579 288),
             subRate := tabWith 0x000FFFFF (sub' p 867 48), subBurst := tabWith 0x0000FFFF (sub' p 915 48),
             chs := tabWith 0x00010000 (sub' p 963 48), focus := tabWith 0 (sub' p 1011 16) }
  | 5 => { c with xfu := tabWith 0 (sub' p 0 32), gth := w 32 }
  | 6 => { c with refCtl := w 0, rdtCtl := w 1 }
  | 7 => { c with therm0 := w 0, therm1 := w 1, vmon := tabWith 0xFFFF0000 (sub' p 2 48) }
  | 8 => { c with link := w 0 }
  | 9 => { c with ecc := w 0, scrub := w 1, mig := w 2 }
  | 10 =>
    { c with det := w 0, digKey := tabWith 1 (sub' p 1 16), digBind := tabWith 0 (sub' p 17 37), digRec := w 54, ls := w 55,
             lsPeer := w 56 }
  | 11 => { c with pwr0 := w 0, pwr1 := w 1, pwr2 := w 2, pwr3 := w 3 }
  | 12 => { c with progs := ((cutPrograms 65 none p).getD []) }
  | _ => c

/-- The configuration of a framed image with these sections: sections left out take their defaults (R787). -/
def cfgOf (ws : List Word) (l : List (Nat × List Word)) : Cfg :=
  { l.foldl (fun c x => c.withSection x.1 x.2) Cfg.reset with
    gen := ws.getD 2 0, crc := ws.getLastD 0, len := 4 * ws.length, image := tabWith 0 ws }

/-- DET_MODE of a configuration (R746). -/
def Cfg.detMode (c : Cfg) : DetMode :=
  match fld c.det 0 2 with
  | 0 => .off
  | 1 => .bits
  | _ => .timing

/-- CFG_VMON of a monitor. -/
def Cfg.vmonAt (c : Cfg) (v : Nat) : Word := Tab.get 0xFFFF0000 c.vmon v
/-- CFG_DIG_KEY of a stream. -/
def Cfg.digKeyAt (c : Cfg) (i : Nat) : Word := Tab.get 1 c.digKey i

/-! ### Region table rules (R182 to R185, R193) -/

/-- Least GRAIN of a PACKED region (R182). -/
def minGrain (r : BitVec 256) : Nat :=
  let wide := b2n (rOfmt r == 2)
  match rEtype r with
  | 0 | 1 | 5 => 0
  | 2 | 3 => 1 + wide
  | _ => wide

/-- Row bands of two regions are disjoint. -/
def bandsApart (a b : BitVec 256) : Bool := decide (rRowbase a + rB a ≤ rRowbase b) || decide (rRowbase b + rB b ≤ rRowbase a)

/-- Two regions form an alias pair (R185). -/
def aliasPair (a b : BitVec 256) : Bool :=
  rType a == 2 && rType b == 2 && rView a != rView b && rCmask a == rCmask b && rNlog a == rNlog b && rGrain a == rGrain b &&
    rRowbase a == rRowbase b && rSlot a == rSlot b && rScaleE a == rScaleE b && rWexp a == rWexp b && slotCount a == slotCount b

/-- Regions `i` and `j` form a valid replica pair (R193). -/
def replicaPair (t : List (BitVec 256)) (i j : Nat) : Bool :=
  let a := regionAt t i
  let b := regionAt t j
  i != j && rEn a && rEn b && rRepl a && rRepl b && rPartner a == j && rPartner b == i && rType a == 0 && rType b == 0 &&
    rWp a && rWp b && rSize a == rSize b && rNlog a == rNlog b && rGrain a == rGrain b && rCmask a &&& rCmask b == 0

/-- The reserved fields of a region entry are 0 (R14, R172). -/
def regionReservedOk (r : BitVec 256) : Bool := fld r 22 10 == 0 && fld r 78 2 == 0 && fld r 86 10 == 0 && fld r 112 16 == 0

/-- Condition 3 of R183 on entry `i`. -/
def regionFieldsOk (i : Nat) (r : BitVec 256) : Bool :=
  let t := rType r
  decide (t < 4) && regionReservedOk r &&
    (t == 3 || !rStaleRaw r) && (t == 2 || !rView r) && (rRepl r || rPartner r == 0) &&
    decide (rGrain r ≤ 12) && (t != 3 || rGrain r == 0) && (!rSteer r || (rRepl r && decide (i < rPartner r))) &&
    (if t = 1 then decide (rEtype r < 6) else rEtype r == 0) &&
    (if t = 1 || rRounded r then decide (rOfmt r < 3) else rOfmt r == 0) &&
    (t == 2 || (!rSlot r && rScaleE r == 0 && rWexp r == -128))

/-- The conditions of R183 on an enabled entry. -/
def regionOk (i : Nat) (r : BitVec 256) : Bool :=
  let t := rType r
  let ilv := if rRounded r then rS r / rOw r * rSb r else rS r
  regionFieldsOk i r && decide (rLo r + rS r ≤ 2 ^ 37) && (rMembers r).length == rN r &&
    (t == 3 || ilv % (rN r * rG r) == 0) && (t != 1 || decide (minGrain r ≤ rGrain r)) &&
    (t != 3 || rS r / rN r % 65536 == 0) && decide (rRowbase r + rB r ≤ 16384) &&
    (t != 2 || rWexp r == -128 || decide (rScaleE r < rWexp r))

/-- The conditions of R184 on two enabled entries. -/
def regionsApart (a b : BitVec 256) : Bool :=
  (decide (rLo a + rS a ≤ rLo b) || decide (rLo b + rS b ≤ rLo a)) &&
    (rCmask a &&& rCmask b == 0 || bandsApart a b || aliasPair a b)

/-- A region table that R14, R183 and R184 accept: the reserved fields of a disabled entry are 0 too. -/
def tableOk (t : List (BitVec 256)) : Bool :=
  let on := (List.range 64).filter fun i => rEn (regionAt t i)
  ((List.range 64).all fun i => regionReservedOk (regionAt t i)) && (on.all fun i => regionOk i (regionAt t i)) &&
    (on.all fun i => on.all fun j => decide (j ≤ i) || regionsApart (regionAt t i) (regionAt t j)) &&
    decide (((on.filter fun i => rType (regionAt t i) == 3).map fun i => rS (regionAt t i)).sum ≤ 2 ^ 35) &&
    (on.all fun i => !rRepl (regionAt t i) || replicaPair t i (rPartner (regionAt t i)))

/-! ### Rules of the other sections -/

/-- R257. -/
def Cfg.schedOk (c : Cfg) : Bool :=
  fld c.sched0 20 6 != 0 && fld c.sched0 26 6 == 0 && decide (fld c.sched1 6 6 < fld c.sched1 0 6) && fld c.sched1 12 4 == 0 &&
    fld c.sched1 16 16 != 0 && fld c.sched1 16 16 != 0xFFFF && fld c.class2 10 6 == 0 && c.class3 == 0

/-- The rules of R311 on one meter. -/
def Cfg.meterOk (c : Cfg) (m : Nat) : Bool :=
  let a := c.mtrCir m
  let b := c.mtrPir m
  let u := c.mtrBurst m
  let k := m / 6
  let unused := (decide (37 ≤ k) && decide (k ≤ 39)) || (if m % 6 = 5 then decide (k < 40) else decide (40 ≤ k))
  fld a 20 2 != 3 && fld a 22 10 == 0 && fld b 20 12 == 0 && decide (fld a 0 20 ≤ fld b 0 20) && fld u 0 16 != 0 &&
    fld u 16 16 != 0 && (!unused || (a == 0x000FFFFF && b == 0x000FFFFF && u == 0xFFFFFFFF))

/-- The rules of R311 on one subscriber. -/
def Cfg.subOk (c : Cfg) (k : Nat) : Bool :=
  let r := c.subRateAt k
  let b := c.subBurstAt k
  let h := c.chsAt k
  fld r 20 12 == 0 && fld b 0 16 != 0 && fld b 16 16 == 0 && fld h 29 3 == 0 && decide (fld h 8 9 ≤ 256) &&
    decide (fld h 0 8 ≤ fld h 8 9) &&
    (k < 37 || 39 < k || (r == 0x000FFFFF && b == 0x0000FFFF && h == 0x00010000))

/-- R311. A focus entry whose EN is 0 is not held to its SERVICE and SUB (R311 leaves it open: DESIGN CHOICE, log 70). -/
def Cfg.shapingOk (c : Cfg) : Bool :=
  fld c.shpCtl 0 10 != 0 && decide (fld c.shpCtl 10 12 ≤ 4095) && fld c.shpCtl 22 10 == 0 && fld c.trust1 5 27 == 0 &&
    ((List.range 288).all c.meterOk) && ((List.range 48).all c.subOk) &&
    decide (((List.range 48).map fun k => fld (c.chsAt k) 0 8).sum ≤ 256) &&
    (List.range 16).all fun j =>
      let w := Tab.get 0 c.focus j
      fld w 17 15 == 0 && (!bit w 16 || (decide (fld w 6 3 < 6) && decide (fld w 0 6 < 48)))

/-- R349, R375. -/
def Cfg.gatherOk (c : Cfg) : Bool :=
  ((List.range 32).all fun k => decide ((Tab.get 0 c.xfu k).toNat < 2)) && decide (1 ≤ fld c.gth 0 5) &&
    decide (fld c.gth 0 5 ≤ 16) && fld c.gth 5 27 == 0

/-- EXP_SAT is the same on every tile port (R351). -/
def Cfg.satEqual (c : Cfg) : Bool := (List.range 32).all fun k => bit (Tab.get 0 c.xfu k) 0 == bit (Tab.get 0 c.xfu 0) 0

/-- Hmax (R530): the largest H below TDmin / 2. -/
def hMax (td : Nat) : Nat := (td + 1) / 2 - 1

/-- HOT_THR is within R530; with no layer in use, and so no TDmin, nothing bounds it. -/
def Stack.hotOk (k : Stack) (h : Nat) : Bool := k.tdMin == 0 || (decide (k.fMax < h) && decide (2 * h < k.tdMin))

/-- R530, R536. -/
def Cfg.refreshOk (c : Cfg) (start : Bool) (k : Stack) : Bool :=
  fld c.refCtl 3 29 == 0 && fld c.rdtCtl 16 16 == 0 && (start || k.hotOk (fld c.rdtCtl 0 16))

/-- The smallest maximum operating temperature of the negotiated layers (R584). -/
def Stack.tmaxMin (k : Stack) : Nat := ((k.openLayers.map fun l => (k.layer l).tmax).min?).getD 255

/-- R584. -/
def Cfg.thermOk (c : Cfg) (start : Bool) (k : Stack) : Bool :=
  let warn := fld c.therm0 0 8
  let thr := fld c.therm0 8 8
  let shut := fld c.therm0 16 8
  let t := c.therm1
  decide (60 ≤ warn) && decide (warn < thr) && decide (thr < shut) && decide (shut ≤ 125) &&
    (start || decide (shut ≤ k.tmaxMin)) && fld c.therm0 24 8 != 0 && decide (1 ≤ fld t 0 10) && decide (fld t 0 10 ≤ 500) &&
    decide (2 ≤ fld t 10 4) && fld t 14 2 == 0 && fld t 16 6 != 0 && fld t 22 10 == 0 &&
    (List.range 48).all fun v => decide (fld (c.vmonAt v) 0 16 ≤ fld (c.vmonAt v) 16 16)

/-- R651. -/
def Cfg.linkOk (c : Cfg) : Bool :=
  fld c.link 0 5 != 0 && decide (1 ≤ fld c.link 5 8) && decide (fld c.link 5 8 ≤ 144) && fld c.link 14 8 != 0 && fld c.link 22 10 == 0

/-- R702. -/
def Cfg.repairOk (c : Cfg) : Bool :=
  fld c.ecc 0 10 != 0 && fld c.ecc 10 4 != 0 && fld c.ecc 14 12 != 0 && fld c.ecc 28 4 == 0 && fld c.scrub 1 8 != 0 &&
    fld c.scrub 9 23 == 0 && decide (1 ≤ fld c.mig 0 4) && decide (fld c.mig 0 4 ≤ 8) && fld c.mig 4 8 != 0 && fld c.mig 12 20 == 0

/-- Bytes of the digest record region that records of `n` streams fill. -/
def Cfg.recBytes (c : Cfg) (n : Nat) : Nat := n * 2 ^ fld c.digRec 7 4 * 64

/-- R747 with R351. `now` is the mode that a commit changes from; an image that is stored or that start-up reads changes none
(R816, R818). -/
def Cfg.detOk (c : Cfg) (now : Option DetMode) : Bool :=
  let r := regionAt c.regions (fld c.digRec 0 6)
  let m := fld c.det 0 2
  let rec' := bit c.digRec 6
  fld c.det 18 14 == 0 && m != 3 && (now.all fun d => (m == 2) == (d == .timing)) && (m == 0 || c.satEqual) &&
    decide (64 ≤ fld c.det 2 16) && ((List.range 16).all fun i => c.digKeyAt i != 0) &&
    ((List.range 37).all fun k => fld (Tab.get 0 c.digBind k) 5 27 == 0) && fld c.digRec 11 21 == 0 &&
    decide (fld c.digRec 7 4 ≤ 12) &&
    (!rec' || (rEn r && rType r == 0 && !rWp r && decide (c.recBytes 16 ≤ rS r))) && fld c.ls 2 14 == 0 &&
    fld c.lsPeer 16 16 == 0 && (!bit c.ls 0 || rec')

/-- R865. -/
def Cfg.powerOk (c : Cfg) : Bool :=
  let agg := bit c.pwr3 0
  fld c.pwr0 6 26 == 0 && fld c.pwr1 16 16 == 0 && fld c.pwr2 16 16 == 0 && fld c.pwr3 17 15 == 0 &&
    (!agg || (fld c.pwr3 1 16 != 0 && bit c.digRec 6 &&
      decide (c.recBytes 32 ≤ rS (regionAt c.regions (fld c.digRec 0 6)))))

/-- The first program that breaks R429 or R430 decides the error; programs in ascending slot (R788). -/
def progsError (start : Bool) (k : Stack) : List (Nat × List OpWord) → Option (BitVec 8)
  | [] => none
  | (_, p) :: t =>
    if !programOk p then some eBadarg
    else if !start && !k.opsAvailable p then some eNotsup
    else progsError start k t

/-- Check 5 of R788; at start-up without the conditions of R789. -/
def Cfg.fieldsError (c : Cfg) (start : Bool) (now : Option DetMode) (k : Stack) : Option (BitVec 8) :=
  if tableOk c.regions && c.schedOk && c.shapingOk && c.gatherOk && c.refreshOk start k && c.thermOk start k && c.linkOk &&
      c.repairOk && c.detOk now && c.powerOk then progsError start k c.progs
  else some eBadarg

/-- The checks of R788 on the image in a buffer: the error code of the first that fails, or its configuration. -/
def checkImage (t : Tab Word) (start : Bool) (now : Option DetMode) (k : Stack) : BitVec 8 ⊕ Cfg :=
  if !frameOk t then .inl eCheck
  else
    let ws := imageWords t
    if fld (ws.getD 1 0) 0 16 ≠ 3 then .inl eNotsup
    else match sectionsOf ws with
      | none => .inl eBadarg
      | some l =>
        if ((payload l 1).any fun p => p.getD 0 0 != Config.romId || decide (65536 < (p.getD 1 0).toNat + 4 * (p.length - 2))) then
          .inl eNotsup
        else
          let c := cfgOf ws l
          match c.fieldsError start now k with
          | some e => .inl e
          | none => .inr c

/-- The configuration of an image that has passed its checks: the image in force (R883). -/
def cfgOfImage (t : Tab Word) : Cfg :=
  let ws := imageWords t
  cfgOf ws ((sectionsOf ws).getD [])

/-! ### The factory default image (R797) -/

/-- Words of `n` entries of an array with default `d`. -/
def arrayWords (t : Tab Word) (d : Word) (n : Nat) : List Word := (List.range n).map fun i => Tab.get d t i

/-- A section with its header. -/
def sectionWords (id : Nat) (p : List Word) : List Word := BitVec.ofNat 32 id :: BitVec.ofNat 32 (4 * p.length) :: p

/-- The sections 2 to 11 of a configuration. -/
def Cfg.sectionList (c : Cfg) : List Word :=
  sectionWords 2 (c.regions.flatMap fun r => (List.range 8).map fun i => BitVec.ofNat 32 (fld r (32 * i) 32)) ++
  sectionWords 3 [c.sched0, c.sched1, c.class0, c.class1, c.class2, c.class3] ++
  sectionWords 4 ([c.shpCtl, c.trust0, c.trust1] ++ (List.range 288).map c.mtrCir ++ (List.range 288).map c.mtrPir ++
    (List.range 288).map c.mtrBurst ++ (List.range 48).map c.subRateAt ++ (List.range 48).map c.subBurstAt ++
    (List.range 48).map c.chsAt ++ arrayWords c.focus 0 16) ++
  sectionWords 5 (arrayWords c.xfu 0 32 ++ [c.gth]) ++
  sectionWords 6 [c.refCtl, c.rdtCtl] ++
  sectionWords 7 ([c.therm0, c.therm1] ++ (List.range 48).map c.vmonAt) ++
  sectionWords 8 [c.link] ++
  sectionWords 9 [c.ecc, c.scrub, c.mig] ++
  sectionWords 10 ([c.det] ++ (List.range 16).map c.digKeyAt ++ arrayWords c.digBind 0 37 ++ [c.digRec, c.ls, c.lsPeer]) ++
  sectionWords 11 [c.pwr0, c.pwr1, c.pwr2, c.pwr3]

/-- The factory default image: GEN 0, no patch, no brew section, reset values everywhere else (R797). -/
def factoryImage : List Word :=
  let body := Cfg.reset.sectionList
  let ws := [0x4743344B, 3, 0, BitVec.ofNat 32 (4 * (body.length + 9)), 10, 0, 0, 0] ++ body
  ws ++ [BitVec.ofNat 32 (crc32c (bytesOf ws))]

/-- The factory default configuration. -/
def factoryCfg : Cfg := cfgOfImage (tabWith 0 factoryImage)

end Sys2Proof.Machine
end

