-- ==== Sys2Proof/Machine/ChgOps.lean ====
section
/-! DEFINITION. Two-phase mode changes: write-back of reshaped regions, refresh bands, timing sets, the prepare phase, and
how a change ends (R198 to R201, R246 to R253, R491, R504, R505, R535, R581, R707 to R709, R744, R804 to R811, R817). -/

namespace Sys2Proof.Machine

/-! ### Accumulation-cache write-back (R199, R400) -/

/-- An accumulation-cache line of island `p` lies in an ACCUM region: a line belongs to every region that holds its slots, both
regions of an alias pair among them (R185). -/
def State.lineIn (s : State) (p : Nat) (l : AccLine) (r : BitVec 256) : Bool :=
  rEn r && rType r == 2 && decide (rRowbase r ≤ l.row) && decide (l.row < rRowbase r + rB r) &&
    (s.stk.chanOf p).any fun c => (rCmask r).testBit c

/-- Write back every dirty line of an island that `pick` names; with `keep` the lines stay, clean, else they leave the cache. A
line that finds no write-buffer entry waits for one (R935). -/
def State.writeBack (s : State) (p : Nat) (pick : AccLine → Bool) (keep : Bool) : State :=
  s.each ((s.slice p).dat.lines.filter pick) fun s l => s.writeLine p l s.fab.nextId keep

/-- Write back in every island. -/
def State.writeBackAll (s : State) (pick : Nat → AccLine → Bool) (keep : Bool) : State :=
  s.each (List.range 144) fun s p => if (s.slice p).dat.lines.isEmpty then s else s.writeBack p (pick p) keep

/-- Lines that wait to be written back are written to the arrays, when everything drains; their narrow read-buffer lines go
(R105). -/
def State.drainLines (s : State) (p : Nat) : State :=
  s.each ((s.slice p).dat.lines.filter fun l => l.out.isSome && l.dirty) fun s l =>
    let s1 := (s.setCode (keyOf p l.bank l.row l.col) (rsEncode l.data)).stat p 12 1
    s1.modDat p fun d =>
      (if l.stay then d.modLine l AccLine.clean else d.dropLine l.bank l.row l.col).dropNarrow l.bank l.row l.col

/-- A change disables an entry or changes its TYPE, SLOT, channel set, GRAIN or ROWBASE (R199). -/
def reshaped (a b : BitVec 256) : Bool :=
  rEn a && (!rEn b || rType a != rType b || rSlot a != rSlot b || rCmask a != rCmask b || rGrain a != rGrain b ||
    rRowbase a != rRowbase b)

/-- Entries that a change enables, disables or changes (R809). -/
def changedEntries (old new : List (BitVec 256)) : List Nat :=
  (List.range 64).filter fun i =>
    let a := regionAt old i
    let b := regionAt new i
    (rEn a || rEn b) && a != b

/-- Slices that serve a logical channel. -/
def Stack.slicesOf (k : Stack) (c : Nat) : List Nat :=
  let e := k.remapAt c
  match e.st with
  | .bound => [e.ps]
  | .migrating => [e.ps, e.new]
  | .fenced => []

/-- Slices whose channels lie in the old or new channel set of a changed entry (R809). -/
def State.slicesChanged (s : State) (old new : List (BitVec 256)) : List Nat :=
  let l := changedEntries old new
  ((List.range 128).filter fun c => l.any fun i => (rCmask (regionAt old i)).testBit c || (rCmask (regionAt new i)).testBit c)
    |>.flatMap s.stk.slicesOf

/-- Slices of every bound channel. -/
def State.boundSlices (s : State) : List Nat := (List.range 128).flatMap s.stk.slicesOf

/-- A PINNED region with a stale row is disabled or moved (R200): its rows are those whose bits R488 counts. A change of BASE
alone moves no row of it and counts as no move; R200 does not say (DESIGN CHOICE, log 58). -/
def State.movesStale (s : State) (new : List (BitVec 256)) : Bool :=
  (List.range 64).any fun i =>
    let a := regionAt s.cfg.regions i
    let b := regionAt new i
    rEn a && rType a == 3 && (!rEn b || rType b != 3 || rCmask a != rCmask b || rRowbase a != rRowbase b || rSize a != rSize b) &&
      s.fab.stale.any fun k => (rCmask a).testBit (k / (32 * 16384)) &&
        decide (rRowbase a ≤ k % 16384) && decide (k % 16384 < rRowbase a + rB a)

/-! ### Timing sets (R246 to R249) -/

/-- The timing registers of a layer's parameters at a rate point (R246, R248). -/
def timingSet (tims : List Nat) (rate : Nat) : Timing :=
  let f (i : Nat) : Nat := toCclk (tims.getD i 0) rate
  ⟨BitVec.ofNat 32 (f 0 + f 1 * 2 ^ 8 + f 2 * 2 ^ 16 + f 3 * 2 ^ 24),
   BitVec.ofNat 32 (f 4 + f 5 * 2 ^ 8 + f 6 * 2 ^ 16 + f 7 * 2 ^ 24),
   BitVec.ofNat 32 (f 9 + f 13 * 2 ^ 16 + f 14 * 2 ^ 24),
   BitVec.ofNat 32 (f 10 + f 8 * 2 ^ 8 + f 11 * 2 ^ 16 + f 12 * 2 ^ 24)⟩

/-- Every converted parameter fits its field (R249). -/
def timingFits (tims : List Nat) (rate : Nat) : Bool :=
  (List.range 15).all fun i => decide (toCclk (tims.getD i 0) rate < if i = 9 then 1024 else 256)

/-- The shadow sets of every island hold the timing of a rate point (step 1 of R253). -/
def State.shadowRate (s : State) (rate : Nat) : State :=
  s.each (List.range 144) fun s p => s.modBt p fun b => { b with tim2 := timingSet (s.stk.layer (layerOf p)).tims rate }

/-! ### Refresh bands (R489 to R493, R504, R505, R535) -/

/-- MIN_MULT (R534). -/
def State.minMult (s : State) : Nat := fld s.cfg.refCtl 0 2

/-- Entry boundary of a band in 1/16 °C (R489). -/
def bandEdge (j : Nat) : Int := 1360 + 160 * ((j : Int) - 1)

/-- The highest band up to `n` whose boundary, lowered by `h`, a reading is above (R491). -/
def bandAbove (reading h : Int) : Nat → Nat
  | 0 => 0
  | n + 1 => if bandEdge (n + 1) - h < reading then n + 1 else bandAbove reading h n

/-- The rule of R491; a reading that has never come (0x8000) asks for no band. -/
def nextBand (reading : BitVec 16) (band lowest : Nat) : Nat :=
  let r := reading.toInt
  let up := bandAbove r 0 3
  max (if band < up then up else bandAbove r 32 band) lowest

/-- A slice takes its band from a reading (R491, R492, R504): the accumulators are settled at the old rate, and pull-ins
above the new Li go. -/
def State.reband (s : State) (p : Nat) (reading : BitVec 16) (subst : Bool) : State :=
  let old := (s.slice p).rf.band
  let new := nextBand reading old s.minMult
  if new = old then s.modRf p fun r => { r with subst := subst, read := reading }
  else
    let s1 := (s.settleRefresh p).modRf p fun r => { r with band := new, subst := subst, read := reading }
    let timing := match s.det.mode with | .timing => true | .off | .bits => false
    if timing || new < old then s1
    else
      let li := s1.refLimit p
      (s1.modRf p fun r => (List.range 32).foldl (fun r i => r.modRb i fun b => { b with pulled := min b.pulled li }) r).statSlice
        p 20 1

/-- Settle the accumulators of every slice, as before a change of the determinism mode (R493, R709). -/
def State.settleBands (s : State) : State := s.each (List.range 144) State.settleRefresh

/-! ### Applying a configuration -/

/-- Fetches of scale-plane accesses that are in flight will not be installed (R344, R346). -/
def State.dropScales (s : State) : State :=
  let s1 : State := { s with ports := Tab.mapVals Port.reset (fun _ p => { p with scale := [] }) s.ports }
  s1.modFab fun f =>
    { f with trk := f.trk.map fun e => { e with accs := e.accs.map fun a => { a with inst := a.inst && !a.scale } } }

/-- Restart every stream whose key changes (R728, R746). -/
def State.newKeys (s : State) (c : Cfg) : State :=
  s.each (List.range 16) fun s i =>
    if s.cfg.digKeyAt i = c.digKeyAt i then s else s.modStream i fun _ => Stream.restart (c.digKeyAt i)

/-- GRACE in ticks (R568, R583). -/
def Cfg.graceTicks (c : Cfg) : Nat := 40000 * fld c.therm1 0 10

/-- Every unit takes a configuration: stream keys (R746), scale-plane caches (R346), the end of a running grace (R585),
lowest refresh bands (R535), lock-step timers (R737, R738) and the determinism mode (R707). -/
def State.applyCfg (s : State) (c : Cfg) : State :=
  let s1 := s.newKeys c
  let s2 := if s.cfg.regions = c.regions then s1 else s1.dropScales
  let late := match s.therm.graceStart with
    | some g => s.therm.graceLate || (s.cfg.graceTicks != c.graceTicks && decide (g + c.graceTicks < s.sys.ltc))
    | none => false
  let on := bit c.ls 0 && !bit s.cfg.ls 0
  let mode := match s.det.mode with | .timing => DetMode.timing | .off | .bits => c.detMode
  let s3 : State := { s2 with cfg := c }
  let s4 := (s3.modTherm fun t => { t with graceLate := late }).modDet fun d =>
    { d with mode := mode, lastTx := if on then s.sys.ltc else d.lastTx, lastRx := if on then s.sys.ltc else d.lastRx }
  if fld s.cfg.refCtl 0 2 = fld c.refCtl 0 2 then s4
  else s4.each (List.range 144) fun s p => s.reband p (s.slice p).rf.read (s.slice p).rf.subst

/-! ### Prepare (R805) -/

/-- A change reshapes a region that holds the line (R199). -/
def State.reshapes (s : State) (new : List (BitVec 256)) (p : Nat) (l : AccLine) : Bool :=
  (List.range 64).any fun i => reshaped (regionAt s.cfg.regions i) (regionAt new i) && s.lineIn p l (regionAt s.cfg.regions i)

/-- The lines of the regions that a change reshapes are written back and leave the cache (R199, R400). -/
def State.changeBack (s : State) (m : ModeChg) : State :=
  match m.what with
  | .cfg | .restore => s.writeBackAll (s.reshapes m.cfg.regions) false
  | .rate | .det => s

/-- The write-backs that a change's prepare requires have entered their write buffers: no line of a region that it reshapes waits
(R199, R805). -/
def State.backDone (s : State) (m : ModeChg) : Bool :=
  match m.what with
  | .cfg | .restore =>
    (List.range 144).all fun p => (s.slice p).dat.lines.all fun l => l.out.isNone || !s.reshapes m.cfg.regions p l
  | .rate | .det => true

/-- The last unit acknowledges once the work of its prepare is finished; PREPARE and the acknowledgements cross the queues of
classes 3 and 4 (R80, R81, R805). -/
def State.ackTime (s : State) : State :=
  match s.mc with
  | some m =>
    if m.committed || m.ackd || !s.backDone m || s.sys.ltc < m.start + s.crossTime 3 + s.crossTime 4 then s
    else { s with mc := some { m with ackd := true, acked := s.sys.ltc } }
  | none => s

/-- PREPARE and the acknowledgements are words of the classes between the management island and the others (R15, R80). -/
def State.prepareWords (s : State) : State :=
  (((s.icqPass 7 0).icqPass 7 1).each (List.range 144) fun s p => (s.icqPass 3 p).icqPass 4 p)

/-- The units prepare a change: MODECHG is set, reshaped regions are written back; for a rate change calibration yields and the
shadow timing sets are written (R252, R253, R644); a unit that has nothing left to do acknowledges at once (R805). -/
def State.startChange (s : State) (m : ModeChg) : State :=
  let s1 : State := { s.prepareWords with mc := some { m with start := s.sys.ltc, acked := s.sys.ltc, ackd := false } }
  (match m.what with
   | .cfg | .restore => s1.changeBack m
   | .rate => (if m.rate = s.sys.rate then s1 else s1.each (List.range 144) State.calYield).shadowRate m.rate
   | .det => s1).ackTime

/-- Every unit has acknowledged the change in progress (R805). -/
def State.unitsAcked (s : State) : Bool :=
  match s.mc with
  | some m => m.ackd
  | none => true

/-- The master of a gang broadcasts COMMIT once every member has accepted and its own units have acknowledged (R859). -/
def State.gangGo (s : State) : State :=
  match s.mc with
  | some m =>
    match m.gang with
    | some g =>
      if g.master = s.ring.id && g.awaiting.isEmpty && !g.sent && g.errId = 8 && m.ackd then
        ({ s with mc := some { m with acked := s.sys.ltc, gang := some { g with sent := true } } }).ringSend
          [ringFrame 5 s.ring.id s.ring.id [g.xid]]
      else s
    | none => s
  | none => s

/-- The earliest LTC value of the commit boundary (R808, R719, R859). -/
def State.boundary (s : State) (m : ModeChg) : Nat :=
  match s.det.mode with
  | .timing => s.quantum m.acked
  | .off | .bits => m.acked + 64

/-- The commit boundary of a change is reached. -/
def State.changeDue (s : State) (m : ModeChg) : Bool :=
  !m.committed && m.ackd && decide (s.boundary m ≤ s.sys.ltc) &&
    match m.gang with
    | some g => g.sent
    | none => true

/-! ### The end of a change -/

/-- Response words of a two-phase command (R817, R820, R824, R841). -/
def State.changeWords (s : State) (op : BitVec 8) : List Word :=
  if op = 0x10 then [s.cfg.gen, s.cfg.crc]
  else if op = 0x20 then [BitVec.ofNat 32 s.sys.rate]
  else if op = 0x21 then [BitVec.ofNat 32 (match s.det.mode with | .off => 0 | .bits => 1 | .timing => 2)]
  else []

/-- The command of a change completes (R759, R806, R810); a gang member's change has none. -/
def State.changeAnswer (s : State) (m : ModeChg) (err : BitVec 8) : State :=
  if m.pend then s.endPending 0x20 err
  else if m.opc = 0 then s
  else s.finish err (s.changeWords m.opc)

/-- Every island discards the shadow timing set of a rate change (R806). -/
def State.dropShadows (s : State) : State :=
  s.each (List.range 144) fun s p => s.modBt p fun b => { b with tim2 := b.tim }

/-- A change is aborted in its prepare phase (R806, R861): shadows are discarded and MODECHG clears. A gang's master
broadcasts ABORT. -/
def State.abortChange (s : State) (err : BitVec 8) : State :=
  match s.mc with
  | none => s
  | some m =>
    let s0 := match m.what with
      | .rate => s.dropShadows
      | .cfg | .restore | .det => s
    let s1 : State := { s0 with mc := none }
    let s2 := match m.gang with
      | some g => if g.master = s.ring.id then s1.ringSend [ringFrame 6 s.ring.id s.ring.id [g.xid]] else s1
      | none => s1
    s2.changeAnswer m err

/-- What the commit of a RESTORE_CONTEXT put into streams, lock-step queues, meters and buckets goes back; of another change
only the streams that it restarted, since the others have gone on (R581, R728). -/
def State.undoLive (s : State) (m : ModeChg) (u : Undo) : State :=
  match m.what with
  | .restore =>
    (s.modDet fun d => { d with streams := u.streams, own := u.own, peer := u.peer }).modFab fun f =>
      { f with meters := u.meters, buckets := u.buckets }
  | .cfg | .rate | .det =>
    s.each ((List.range 16).filter fun i => s.cfg.digKeyAt i != u.cfg.digKeyAt i) fun s i =>
      s.modStream i fun _ => Tab.get Stream.reset u.streams i

/-- A shut-down abandons a change in either phase: the old mode stays, the command ends with E_ABORTED (R581, R811). -/
def State.abandonChange (s : State) : State :=
  match s.mc with
  | none => s
  | some m =>
    let s1 := s.each m.held State.unholdChan
    let s2 := match m.undo with
      | none => s1
      | some u =>
        let s1 := (s1.settleAll.settleBands).undoLive m u
        let s2 : State := { s1 with cfg := u.cfg, det := { s1.det with mode := u.mode, pd := u.pd, aligned := u.aligned } }
        State.rebase
          { s2 with fab := { s2.fab with progs := u.progs },
                    ctl := { s2.ctl with srcImg := u.src, cause := u.cause, defaulted := u.defaulted } }
    s2.abortChange eAborted

end Sys2Proof.Machine
end

