-- ==== Sys2Proof/Machine/Migrate.lean ====
section
/-! DEFINITION. Migration of a channel to a spare slice, and REBIND (R684 to R696, R191, R297). -/

namespace Sys2Proof.Machine

/-- A spare slice that is unbound, trained, in service and not in use for a migration (R686). -/
def State.spareOk (s : State) (p : Nat) : Bool :=
  let x := s.slice p
  decide (p < 144) && (s.stk.chanOf p).isNone && x.rep.inServ && x.rep.tested && x.link.state != .fenced &&
    !(s.stk.migs.any fun m => m.new == p || m.old == p)

/-- A free spare slice (R686, R929). -/
def State.freeSpare (s : State) (p : Nat) : Bool := s.spareOk p && !(s.slice p).rep.testing

/-- The new slice that R686 chooses: the lowest free spare on another layer than the old slice's, else the one of its own
layer; a slice under test only when no other is free (R929). -/
def State.pickSpare (s : State) (old : Nat) : Option Nat :=
  let pick (ok : Nat → Bool) : Option Nat :=
    match (List.range 144).find? fun p => ok p && layerOf p != layerOf old with
    | some p => some p
    | none => (List.range 144).find? ok
  match pick s.freeSpare with
  | some p => some p
  | none => pick s.spareOk

/-- Free spare slices (R703). -/
def State.slicesFree (s : State) : Nat := ((List.range 144).filter s.freeSpare).length

/-- A march in progress on a slice is abandoned without a result; the slice returns to self-refresh (R929, R931). -/
def State.marchDrop (s : State) (p : Nat) : State :=
  if (s.slice p).rep.testing then
    s.modSlice p fun x =>
      { x with rep := { x.rep with testing := false }, rf := { x.rf with selfRef := true, refOn := false },
               link := { x.link.send (x.bt.restAt x.sch.cclk) false (rowHalf 4 0) with cke := false } }
  else s

/-- Steps 1 and 2 of R688: the new slice leaves self-refresh, its refresh engine starts (R497), and its bundle is retrained
with cause 5 (R629, R639); a retrain of it that runs already serves for that one (R632, R829). A test of it is abandoned
(R929). -/
def State.wakeSlice (s : State) (p : Nat) : State :=
  let s1 := s.modSlice p fun x =>
    { x with rep := { x.rep with testing := false }, rf := { x.rf with selfRef := false, refOn := true },
             bt := x.bt.srx x.sch.cclk,
             link := { x.link.send x.sch.cclk false (rowHalf 5 0) with
               cke := true, rstN := true, phy := true,
               state := if x.link.state == .retrain then .retrain else if x.link.narrow then .narrow else .active } }
  ((s1.startAccs p true).takeTrims p).startRetrain p 5

/-- MIG_MAX (R701). -/
def State.migMax (s : State) : Nat := fld s.stk.mig 0 4

/-- MIG_START (R685 to R688): the first candidate, whose channel is served by slice `p`, starts on its target once fewer than
MIG_MAX migrations run and no launch is active on the channel; one whose channel migrates waits for the end of that. Without a
free spare it is dropped with FIRN_EMPTY (R687); a named target that is no longer free ends the MIGRATE command (R834). -/
def execMigStart (p : Fin 144) (s : State) : Res :=
  .next <|
    match s.stk.cands with
    | [] => s
    | c :: rest =>
      let e := s.stk.remapAt c.chan
      let drop (s : State) : State := s.modStk fun k => { k with cands := rest }
      let cmd (s : State) (err : BitVec 8) : State := if c.cause = 4 then s.endPending 0x43 err else s
      if s.sys.phase != .running || !s.sys.ready || s.therm.latch || s.workHeld p.val then s
      else if e.st = .fenced then cmd (drop s) eAborted
      else if e.st = .migrating || s.stk.migs.any (fun m => m.chan == c.chan) then s
      else if e.ps ≠ p.val || s.migMax ≤ (s.stk.migs.filter fun m => !m.rebind).length || s.chanLaunch c.chan then s
      else
        let target := if c.target = 0xFF then s.pickSpare e.ps else if s.freeSpare c.target then some c.target else none
        match target with
        | none =>
          if c.target ≠ 0xFF then cmd (drop s) eNospare
          else cmd ((drop s).event .firnEmpty e.ps (repairDetail c.chan 0xFF 0 c.cause)) eNospare
        | some n =>
          let share := if c.share = 0 then s.copyShare else c.share
          (((drop s).detBreak 5).modStk fun k =>
            { k with migs := k.migs ++ [{ Mig.reset with
              chan := c.chan, old := e.ps, new := n, cause := c.cause, share := share, cmd := decide (c.cause = 4) }] }).wakeSlice n

/-- An access that was translated to slice `p` for a row before the row's turn came (`mark`) has not ended there, in the
island or on its way to it (R191). -/
def State.rowAhead (s : State) (p row mark : Nat) : Bool :=
  s.fab.trk.any fun e => decide (e.id < mark) && e.accs.any fun a => a.ps == p && a.row == row && a.st.isNone

/-- Work on a row of a slice is unfinished in its island. -/
def State.rowBusyIn (s : State) (p row : Nat) : Bool :=
  let x := s.slice p
  let inKeys (w : WinEnt) : Bool := w.keys.any fun k => keyRow k == row
  (x.sch.window ++ x.sch.narrowSlot ++ x.sch.waiting).any inKeys || (x.sch.flight.any fun f => f.row == row) ||
    ((x.dat.unit ++ x.dat.fcq).any fun w => w.row == row) || ((x.dat.wb ++ x.dat.fow ++ x.dat.corr).any fun w => w.row == row) ||
    (x.dat.miss.any fun k => keyRow k == row) || x.rep.repairs.any fun r => r.row == row

/-- A place on the old slice moved to the new one. -/
def moveKey (old new row : Nat) (k : Key) : Key :=
  if keyPs k = old && keyRow k = row then keyOf new (keyBank k) row (keyCol k) else k

/-- A waiting piece after a row has moved: accesses that moved make a piece of their own (R191). -/
def movePiece (old new row : Nat) (p : Piece) : List Piece :=
  let a := p.keys.filter fun k => !(keyPs k == old && keyRow k == row)
  let b := p.keys.filter fun k => keyPs k == old && keyRow k == row
  if b.isEmpty then [p]
  else
    let q := { p with keys := b.map (moveKey old new row) }
    if a.isEmpty then [q] else [{ p with keys := a }, q]

/-- Accesses that wait outside the island follow a row that has moved (R190, R191). -/
def State.moveWaiting (s : State) (c old new row : Nat) : State :=
  s.modFab fun f =>
    { f with cq := f.cq.flatMap (movePiece old new row),
             mq := f.mq.map fun q => { q with pieces := q.pieces.flatMap (movePiece old new row) },
             trk := f.trk.map fun e => { e with accs := e.accs.map fun a =>
               if a.chan = c && a.ps = old && a.row = row && a.st.isNone then { a with ps := new } else a } }

/-- A decode of what cell `k` of slice `p` holds corrects an unknown error (R662). -/
def State.hasUnknown (s : State) (p : Nat) (k : Key) : Bool := !(rsDecode (s.code k) (s.slice p).link.erasures).unknown.isEmpty

/-- Copy one row in all 32 banks as subscriber 41, with an activation of each bank on both slices; an unknown error that the copy
corrects on the old slice is corrected there (R518, R525, R655, R662, R689). A bad word of stale bits is met here (R699). -/
def State.copyRow (s : State) (c old new row : Nat) : State :=
  s.each (List.range 32) fun s b =>
    let s := s.readBit c b row
    let r := s.readRow old b row 3 (s.fab.isStale c b row)
    ((r.2.workAct old b row 41).workAct new b row 41).each (List.range 32) fun s i =>
      let k := keyOf old b row i
      let v := r.1.getD i (0, false)
      let s1 := s.setCode (keyOf new b row i) v.1
      if v.2 || !s.hasUnknown old k then s1 else s1.correct old k (s.code k) v.1 s.fab.nextId

/-- The end of a migration: the entry is BOUND to the new slice, the old slice leaves service (R675, R688). -/
def State.migEnd (s : State) (m : Mig) : State :=
  let s1 := (s.setRemap m.chan ⟨m.new, 0, .bound, 0⟩).modStk fun k => { k with migs := k.migs.filter fun x => x.chan != m.chan }
  let s2 := (s1.event .migDone m.old (repairDetail m.chan m.new 0 m.cause)).retireSlice m.old
  let s3 := s2.newScrub m.new
  if m.cmd then s3.endPending 0x43 eOk else s3

/-- MIG_ROW_COPY (R688 step 4): row MPTR of a migrating channel is copied in all 32 banks, within the copy share of the
channel (R297, R690: what a row takes beyond the share of its period counts against the next ones, DESIGN CHOICE, log 63) and
the charge of its 1,024 reads and 1,024 writes (R263), once its accumulation-cache lines have been written back (R400) and no
access that was translated to the old slice before is unfinished there (R191), outside a hold of either slice and an alignment
(R244, R713) and with the spacing of a hot row (R523); MPTR rises, and after row 16,383 the migration ends. -/
def execMigRowCopy (c : Fin 128) (s : State) : Res :=
  .next <|
    let c := c.val
    let e := s.stk.remapAt c
    match s.stk.migs.find? fun m => m.chan == c && m.copying && !m.rebind with
    | none => s
    | some m =>
      if e.st != .migrating || !s.sliceLive m.old || !s.sliceLive m.new || s.workHeld m.old || s.workHeld m.new ||
          (List.range 32).any (fun b => s.workSpaced m.old b e.mptr || s.workSpaced m.new b e.mptr) then s
      else match (s.slice m.old).dat.lines.find? fun l => l.row == e.mptr with
        | some l => if l.out.isSome && !l.stay then s else s.evict m.old l s.fab.nextId
        | none =>
          if s.rowAhead m.old e.mptr m.mark || s.rowBusyIn m.old e.mptr || s.copyCapped m then s
          else match s.spend 41 5 131072 with
            | none => s.spendHeld 41 5 131072
            | some s1 =>
              let s2 := (s1.modFab fun f => { f with chCnt := Tab.upd 0 f.chCnt (41 * 128 + c) (· + 1024) }).copyRow c m.old m.new e.mptr
              let s3 := (s2.setRemap c { e with mptr := e.mptr + 1 }).modStk fun k =>
                { k with migs := k.migs.map fun x => if x.chan = c then { x with debt := x.debt + 1024, mark := s.fab.nextId } else x }
              let s4 := (s3.detBreak 5).moveWaiting c m.old m.new e.mptr
              if e.mptr + 1 = 16384 then s4.migEnd m else s4

/-- REBIND_ZEROING_DONE (R696): the new slice holds zeros with fresh check symbols, no scale-plane line of the channel is
kept, so that a read gets what a fetch would give (R347), the channel is BOUND to it, and CHAN_REBIND is recorded; bound to a
NARROW slice the channel is a migration candidate (R684). -/
def execRebindZeroingDone (c : Fin 128) (s : State) : Res :=
  .next <|
    let c := c.val
    match s.stk.migs.find? fun m => m.chan == c && m.rebind && m.copying with
    | none => s
    | some m =>
      if !s.sliceLive m.new then s
      else
        let s1 : State := { s with
          mem := Tab.drop (fun k => keyPs k == m.new) s.mem
          ports := Tab.mapVals Port.reset (fun _ p => { p with scale := p.scale.filter fun (kv : Key × Line) => keyPs kv.1 != c }) s.ports }
        let s2 := (s1.setRemap c ⟨m.new, 0, .bound, 0⟩).modStk fun k => { k with migs := k.migs.filter fun x => x.chan != c }
        let s3 := s2.newScrub m.new
        let s4 := if s.isNarrow m.new then s3.addCand c 1 else s3
        (s4.event .chanRebind m.new (repairDetail c 0xFF 0 0)).endPending 0x44 eOk

end Sys2Proof.Machine
end

