-- ==== Sys2Proof/Machine/Repair.lean ====
section
/-! DEFINITION. Scrub, row repair and unit substitution (R672 to R683, R940). -/

namespace Sys2Proof.Machine

/-! ### Scrub (R673 to R678) -/

/-- Accesses of one pass over a slice. -/
def scrubLen : Nat := 2 ^ 24

/-- PERIOD of a pass in LTC ticks (R674). -/
def Scrub.ticks (x : Scrub) : Nat := x.speriod * 3600 * 400000000

/-- Due time of the `k`-th access of the pass (R674). -/
def Scrub.due (x : Scrub) (k : Nat) : Nat := x.sstart + k * x.ticks / scrubLen

/-- Place of the `k`-th access of a pass: row, then bank, then column (R673). -/
def scrubKey (p k : Nat) : Key := keyOf p (k / 32 % 32) (k / 1024) (k % 32)

/-- A slice that scrub walks: bound to a channel that is not migrating (R673, R675). -/
def State.scrubs (s : State) (p : Nat) : Option Nat :=
  if s.migrating p then none
  else (s.stk.chanOf p).filter fun c => (s.stk.remapAt c).st == .bound

/-- Scrub reads of slice `p` that have been admitted and have not ended; `parent` is 1 for those of checks. -/
def State.scrubsOut (s : State) (p parent : Nat) : List Acc :=
  (s.fab.trk.filter fun e => e.kind == .scrub && e.parent == parent).flatMap fun e => e.accs.filter fun a => a.ps == p

/-- A scrub read is admitted as work of subscriber 40 in service MAINT: it waits at its meter and at the channel level like any
other, and yields every slot there (R30, R217, R263, R294). Frost entry and an alignment stop it (R713, R899). -/
def State.scrubRead (s : State) (p : Nat) (k : Key) (parent : Nat) : Option State :=
  if s.sys.entering || s.fab.hold.contains 3 || (s.fab.freeSlot 40).isNone then none
  else
    let id := s.fab.nextId
    let a : Acc := { Acc.reset with ps := p, bank := keyBank k, row := keyRow k, col := keyCol k, chan := (s.stk.chanOf p).getD 0 }
    some ((s.addWork 40 .scrub 0 0 [a] []).modEntry id fun e => { e with parent := parent })

/-- The read of a scrub check has been admitted. -/
def State.checkOut (s : State) (p : Nat) (y : ScrubChk) : Bool :=
  (s.scrubsOut p 1).any fun a => a.bank == y.bank && a.row == y.row && a.col == y.col

/-- A check may be made: the second read after a correction waits until that write has issued, and while scrub is off (R676,
R940). -/
def State.checkReady (s : State) (p : Nat) (y : ScrubChk) : Bool :=
  let d := (s.slice p).dat
  !s.checkOut p y && (y.syms.isEmpty || (bit s.stk.scrub 0 && !((d.wb ++ d.corr).any fun w => w.isAt y.bank y.row y.col)))

/-- The position after an access of the walk; after the last one the next pass starts (R673, R702). -/
def State.scrubNext (s : State) (p : Nat) : State :=
  s.modScr p fun x =>
    if x.spos + 1 = scrubLen then
      { x with spos := 0, sstart := s.view p, speriod := fld s.stk.scrub 1 8, slate := false, spass := (x.spass + 1) % 2 ^ 16 }
    else { x with spos := x.spos + 1 }

/-- SCRUB_ACCESS (R674): the next access of the walk is due, and the one before it has ended; it is read as subscriber 40, or
skipped when its row is stale (R675). A check after a UE goes first: the walk waits for it (R678). -/
def execScrubAccess (p : Fin 144) (s : State) : Res :=
  .next <|
    let p := p.val
    let x := (s.slice p).scr
    match s.scrubs p with
    | none => s
    | some c =>
      if !s.sliceLive p || (s.slice p).sch.held ≠ 0 || !bit s.stk.scrub 0 || x.spaused.isSome ||
          s.view p < x.due x.spos || !(s.scrubsOut p 0).isEmpty || (x.checks.any fun y => y.syms.isEmpty) then s
      else
        let k := scrubKey p x.spos
        let s := s.readBit c (keyBank k) (keyRow k)
        if s.fab.isStale c (keyBank k) (keyRow k) then s.scrubNext p
        else match s.scrubRead p k 0 with
          | none => s
          | some s1 => s1.scrubNext p

/-- SCRUB_PASS_LATE (R674): the pass has not ended within PERIOD of its start. -/
def execScrubPassLate (p : Fin 144) (s : State) : Res :=
  .next <|
    let p := p.val
    let x := (s.slice p).scr
    match s.scrubs p with
    | none => s
    | some c =>
      if !s.islandRuns p || x.slate || x.spaused.isSome || s.view p ≤ x.sstart + x.ticks then s
      else (s.modScr p fun x => { x with slate := true }).event .scrubLate p (repairDetail c 0xFF 0 0)

/-- SCRUB_CHECK (R676, R678): the earliest check that may be made is read; one of a row that has become stale is dropped,
since scrub reads no access of such a row (R474). -/
def execScrubCheck (p : Fin 144) (s : State) : Res :=
  .next <|
    let p := p.val
    match s.scrubs p, (s.slice p).scr.checks.find? (s.checkReady p) with
    | some c, some y =>
      let s := s.readBit c y.bank y.row
      if !s.sliceLive p || (s.slice p).sch.held ≠ 0 then s
      else if s.fab.isStale c y.bank y.row then
        s.modScr p fun x => { x with checks := dropFirst (fun z => z == y) x.checks }
      else match s.scrubRead p (keyOf p y.bank y.row y.col) 1 with
        | some s1 => if y.syms.isEmpty then s1.detBreak 3 else s1
        | none => s
    | _, _ => s

/-! ### Row repair (R679 to R681) -/

/-- The held accesses of a repaired row go to the write buffer as row-repair write-backs, or wait for its entries ahead of every
other write; an access that a newer write holds there keeps it (R655, R679, R935). -/
def State.repairBack (s : State) (p : Nat) (r : Repair) : State :=
  s.each (List.range r.held.length) fun s i => s.modDat p fun d =>
    if (d.fow ++ d.wb).any fun w => w.isAt r.bank r.row i then d
    else d.wbFollow ⟨r.bank, r.row, i, r.held.getD i 0, r.raws.contains i, 43, s.fab.nextId⟩

/-- ROW_REPAIR_ACK (R679): the endpoint has mapped a spare row in: the 32 held accesses are written back, the row is
released, and ROW_REPAIR is recorded. -/
def execRowRepairAck (p : Fin 144) (s : State) : Res :=
  .next <|
    let p := p.val
    match (s.slice p).rep.repairs with
    | [] => s
    | r :: rest =>
      if !s.sys.porN then s
      else
        let s2 := (s.repairBack p r).modRep p fun x => { x with repairs := rest, rowsLeft := Tab.upd 0 x.rowsLeft r.bank (· + 1) }
        (s2.statSlice p 28 1).report p .rowRepair p r.detail.toNat

/-- ROW_REPAIR_TIMEOUT (R679): no acknowledgement within 20 µs: the row is not repaired, the bank counts as having no
spare row, and the channel becomes a migration candidate (R681). -/
def execRowRepairTimeout (p : Fin 144) (s : State) : Res :=
  .next <|
    let p := p.val
    match (s.slice p).rep.repairs with
    | [] => s
    | r :: rest =>
      if s.sys.ltc < r.start + us 20 then s
      else
        let s1 := s.modRep p fun x => { x with repairs := rest, rowsLeft := Tab.set 0 x.rowsLeft r.bank x.rowsInit }
        match s.stk.chanOf p with
        | some c => s1.addCand c 2
        | none => s1

/-! ### Unit substitution (R682, R683) -/

/-- With no spare unit left, a bank's unit is fenced, and the channel becomes a migration candidate (R683). -/
def State.unitFence (s : State) (p b : Nat) : State :=
  let s1 := (s.detBreak 5).modRep p fun x => { x with unitWait := x.unitWait.filter fun y => y != b, unitBad := insertNat b x.unitBad }
  match s.stk.chanOf p with
  | some c => s1.addCand c 3
  | none => s1

/-- A bank's in-bank unit has failed: a substitution is due, or with no spare unit left the unit is fenced (R682, R683). -/
def State.unitFault (s : State) (p b : Nat) : State :=
  let r := (s.slice p).rep
  if !r.inServ || r.unitBad.contains b || r.unitWait.contains b then s
  else if r.unitsLeft = 0 then s.unitFence p b
  else s.modRep p fun x => { x with unitWait := insertNat b x.unitWait }

/-- EP_UNIT_FAULT (R682): the endpoint reports a unit fault. -/
def execEpUnitFault (p : Fin 144) (bank : Fin 32) (s : State) : Res :=
  .next (if s.sys.ready then s.unitFault p.val bank.val else s)

/-- UNIT_SUB (R682, R683): once no launch is active on the bank, the message goes to the endpoint. While every spare unit left is
asked for by messages without an answer, it waits; with none left, the unit is fenced
(DEDUCED, log 60). -/
def execUnitSub (p : Fin 144) (bank : Fin 32) (s : State) : Res :=
  .next <|
    let p := p.val
    let b := bank.val
    let r := (s.slice p).rep
    let active := match s.stk.chanOf p with
      | some c => s.launchActive c b
      | none => false
    if !r.unitWait.contains b || (r.unitSent.any fun x => x.1 == b) || active then s
    else if r.unitsLeft = 0 then s.unitFence p b
    else if r.unitsLeft ≤ r.unitSent.length then s
    else (s.detBreak 5).modRep p fun x =>
      { x with unitSent := x.unitSent ++ [(b, s.sys.ltc)] }

/-- The wait of a unit substitution is over: one UNIT_SUB record, and the waiting launches are released (R682). -/
def State.unitSubOver (s : State) (p b : Nat) (used : Bool) : State :=
  (s.modRep p fun x =>
    { x with unitWait := x.unitWait.filter fun y => y != b, unitSent := x.unitSent.filter fun y => y.1 != b,
             unitsLeft := if used then x.unitsLeft - 1 else x.unitsLeft }).report p
    .unitSub p (repairDetail ((s.stk.chanOf p).getD 0) 0xFF b 0)

/-- UNIT_SUB_ACK (R682): the endpoint has substituted the unit. -/
def execUnitSubAck (p : Fin 144) (bank : Fin 32) (s : State) : Res :=
  .next (if (s.slice p.val).rep.unitSent.any fun x => x.1 == bank.val then s.unitSubOver p.val bank.val true else s)

/-- UNIT_SUB_TIMEOUT (R682): 20 µs have passed with no acknowledgement; the wait ends as with one, and no spare unit
counts as used (DESIGN CHOICE, log 21). -/
def execUnitSubTimeout (p : Fin 144) (bank : Fin 32) (s : State) : Res :=
  .next <|
    if (s.slice p.val).rep.unitSent.any fun x => x.1 == bank.val && decide (x.2 + us 20 ≤ s.sys.ltc) then
      s.unitSubOver p.val bank.val false
    else s

end Sys2Proof.Machine
end

