-- ==== Sys2Proof/Machine/Regs.lean ====
section
/-! DEFINITION. What a read of each register of the control port's window returns (R751 to R754, R765, R768, R776 to
R782, R791, and the tables they name). -/

namespace Sys2Proof.Machine

/-- A register word from a number. -/
def word (n : Nat) : Word := BitVec.ofNat 32 n

/-- Fields put together: value and lowest bit. -/
def fields (l : List (Nat × Nat)) : Word := word ((l.map fun vl => vl.1 * 2 ^ vl.2).sum)

/-- PHASE (R781). -/
def Phase.code : Phase → Nat
  | .romBoot => 0 | .negotiation => 1 | .training => 2 | .zeroing => 3 | .running => 4 | .frost => 5 | .thaw => 6

/-- Mode code (R706). -/
def DetMode.code : DetMode → Nat
  | .off => 0 | .bits => 1 | .timing => 2

/-- STATE code of the mailbox (R754). -/
def MbxSt.code : MbxSt → Nat
  | .idle => 0 | .busy => 1 | .done => 2

/-- STS_GLOBAL (R781). -/
def State.stsGlobal (s : State) : Word :=
  fields [(b2n s.sys.ready, 0), (s.sys.phase.code, 1), (s.sys.rate, 4), (b2n s.modechg, 6)]

/-- MBX_STATUS (R754). -/
def State.mbxStatus (s : State) : Word :=
  fields [(s.mbx.st.code, 0), (b2n s.mbx.pend, 2), (s.mbx.err.toNat, 8), (s.mbx.opcode.toNat, 16), (s.mbx.nresp, 24)]

/-- CFG_STATUS (R753). -/
def State.cfgStatus (s : State) : Word := fields [(b2n s.ctl.defaulted, 0), (s.ctl.srcImg, 1), (s.ctl.cause, 3)]

/-- STS_THERM_INST (R586). -/
def State.stsThermInst (s : State) : Word :=
  fields [(b2n s.therm.thrReq, 0), (b2n s.therm.graceStart.isSome, 1), (b2n s.therm.enforce, 2), (b2n s.therm.latch, 3),
    (s.therm.adcFail.toNat, 4), (s.therm.hotSlice, 16)]

/-- Logical channels whose slice is in NARROW mode. -/
def State.narrowChans (s : State) : Nat :=
  ((List.range 128).filter fun c => (s.stk.slicesOf c).any fun p => (s.slice p).link.narrow).length

/-- Channel is FENCED. -/
def Stack.isFenced (k : Stack) (c : Nat) : Bool := (k.remapAt c).st == .fenced

/-- STS_FIRN (R703). -/
def State.stsFirn (s : State) : Word :=
  fields [(s.slicesFree, 0), ((s.stk.migs.filter fun m => !m.rebind).length, 5), (s.narrowChans, 9),
    (((List.range 128).filter s.stk.isFenced).length, 17)]

/-- STS_DET (R746). -/
def State.stsDet (s : State) : Word :=
  fields [(s.det.mode.code, 0), (b2n s.det.armed, 2), (b2n s.det.aligned, 3), (s.det.broken.toNat, 4)]

/-- STS_LS (R746). -/
def State.stsLs (s : State) : Word :=
  fields [(b2n s.det.linkUp, 0), (b2n s.det.mismatch, 1), (b2n s.det.lsHeld, 2), (s.det.mStream, 3)]

/-- A word whose bit `b` tells `f` of number `o + b`. -/
def bitWord (o : Nat) (f : Nat → Bool) : Word := fields ((List.range 32).map fun b => (b2n (f (o + b)), b))

/-- STS_LAYER (R621). -/
def Layer.status (l : Layer) : Word :=
  fields [(l.minor, 0), (l.major, 8), (b2n l.fenced, 16), (l.fcause, 17), (l.rates, 20), (l.feat, 24)]

/-- STS_REMAP (R187). -/
def Remap.status (r : Remap) : Word :=
  fields [(r.ps, 0), (r.new, 8), (match r.st with | .bound => 0 | .migrating => 1 | .fenced => 2, 16), (r.mptr, 18)]

/-- Stale rows of region `r` (R488): the rows of its band whose bit is set on a channel of its set. -/
def State.staleRows (s : State) (r : BitVec 256) : Nat :=
  if rEn r && rType r == 3 then (s.fab.stale.filter fun k => (rCmask r).testBit (k / (32 * 16384)) &&
      decide (rRowbase r ≤ k % 16384) && decide (k % 16384 < rRowbase r + rB r)).length
  else 0

/-- STS_THERM (R586). -/
def State.stsTherm (s : State) (p : Nat) : Word :=
  let x := s.slice p
  let broken (i : Nat) : Bool := (Tab.get Sensor.reset s.therm.sens i).broken
  let budget := match s.stk.chanOf p with | some c => s.fab.thOn.contains c | none => false
  fields [(x.level, 0), (b2n (broken p), 2), (b2n (broken (144 + p)), 3), (b2n budget, 4), (x.temp.toNat, 16)]

/-- STS_REF (R537). -/
def State.stsRef (s : State) (p : Nat) : Word :=
  let r := (s.slice p).rf
  let owed := (((List.range 32).map fun i => (r.rb i).owed).max?).getD 0
  let hot := ((List.range 32).map fun i => ((r.rb i).rows.filter (·.hot)).length).sum
  fields [(s.bandOf p, 0), (b2n r.subst, 2), (min 15 owed, 3), (min 511 hot, 8)]

/-- STS_SCRUB (R703, R940). -/
def State.stsScrub (s : State) (p : Nat) : Word :=
  let x := (s.slice p).scr
  let active := (s.scrubs p).isSome && bit s.stk.scrub 0 && s.sys.ready && s.sys.phase == .running && !s.therm.latch
  fields [(x.spos / 1024, 0), (b2n active, 14), (b2n x.slate, 15), (x.spass, 16)]

/-- Word `i` of a timing set (R248). -/
def Timing.word (t : Timing) (i : Nat) : Word :=
  match i with | 0 => t.tim0 | 1 => t.tim1 | 2 => t.tim2 | _ => t.tim3

/-- A 64-bit slot as two words (R778). -/
def longSlot (v : Nat) : Word × Word := (word (v % 2 ^ 32), word (v / 2 ^ 32))

/-- Slot `slot` of telemetry page `page`: word 0 and word 1 (R777 to R779). -/
def State.slotWords (s : State) (page slot : Nat) : Word × Word :=
  let l := (s.slice page).link
  if page < 144 && slot = 36 then (word l.calCnt, 0)
  else if page < 144 && slot = 37 then longSlot l.calLtc
  else if page < 144 && slot = 38 then (l.calTemp, 0)
  else if page = 0x320 && slot = 0 then (word s.therm.round, 0)
  else if page = 0x320 && slot = 1 then longSlot s.therm.roundLtc
  else
    let c := s.ctr page slot
    (word (c.v % 2 ^ 32), fields [(c.v / 2 ^ 32, 0), (b2n c.ovf, 31)])

/-- TLM_SENS (R547): the accessor turns a monitor's field back. -/
def State.sensWord (s : State) (i : Nat) : Word :=
  let x := Tab.get Sensor.reset s.therm.sens i
  if i < 288 then fields [(x.value.toNat, 0), (b2n x.broken, 16), (b2n x.dev, 17), (min 2 x.devcnt, 18)]
  else if i < 336 then word (x.value ^^^ 0x7FFF).toNat
  else 0

/-- Word at byte offset `o` of the selected telemetry page. Word 1 of the slot last captured, while its page is selected,
returns the captured value (R36, R777). -/
def State.tlmWord (s : State) (o : Nat) : Word :=
  let page := s.ctl.tlmSel
  if page = 0x400 || page = 0x401 then s.sensWord (256 * (page - 0x400) + o / 4)
  else if o % 8 = 0 then (s.slotWords page (o / 8)).1
  else if s.ctl.tlmSlot = some (128 * page + o / 8) then s.ctl.tlmCap
  else (s.slotWords page (o / 8)).2

/-- The record at the read pointer (R768). -/
def State.logWord (s : State) (w : Nat) : Word :=
  match (s.evt.recs.take s.logSeen)[s.evt.rd]? with
  | none => 0
  | some r => match w with | 0 => r.w0 | 1 => r.w1 | 2 => r.w2 | 3 => r.w3 | _ => r.w4

/-- Direct status at an offset from 0x2000 (R780). -/
def State.statusReg (s : State) (off : Nat) : Word :=
  let i (base n stride : Nat) (f : Nat → Word) : Option Word :=
    if base ≤ off && off < base + n * stride && (off - base) % stride = 0 then some (f ((off - base) / stride)) else none
  match off with
  | 0x2000 => s.stsGlobal
  | 0x2004 => s.stsThermInst
  | 0x2008 => s.stsFirn
  | 0x200C => s.stsDet
  | 0x2010 => s.stsLs
  | 0x2014 => s.det.mFence
  | 0x2018 => bitWord 0 fun k => s.fab.drained.contains k
  | 0x201C => bitWord 32 fun k => s.fab.drained.contains k
  | _ =>
    if 0x3400 ≤ off && off < 0x3400 + 32 * 144 then
      let b := (s.slice ((off - 0x3400) / 32)).bt
      let w := (off - 0x3400) / 4 % 8
      if w < 4 then b.tim.word w else b.tim2.word (w - 4)
    else
      ((([i 0x2020 4 4 fun j => bitWord (32 * j) s.stk.isFenced,
          i 0x2040 16 4 fun l => (s.stk.layer l).status,
          i 0x2080 5 4 fun j => bitWord (32 * j) fun p => decide (p < 144) && !(s.slice p).rep.inServ,
          i 0x2100 128 4 fun c => (s.stk.remapAt c).status,
          i 0x2300 64 4 fun r => word (s.staleRows (regionAt s.cfg.regions r)),
          i 0x2400 144 4 fun p => (s.slice p).link.status,
          i 0x2800 144 4 s.stsTherm,
          i 0x2C00 144 4 s.stsRef,
          i 0x3000 144 4 s.stsScrub]).findSome? id).getD 0)

/-- The staging window (R791). -/
def State.windowWord (s : State) (i : Nat) : Word :=
  let w := fld s.ctl.win 0 6 * 1024 + i
  if bit s.ctl.win 8 then (if 4 * w < s.cfg.len then Tab.get 0 s.cfg.image w else 0) else Tab.get 0 s.ctl.staging w

/-- What a read of the word at an offset of the control window returns. -/
def State.readReg (s : State) (off : Nat) : Word :=
  if !s.sys.porN || off % 4 ≠ 0 then 0
  else if 0x8000 ≤ off then 0
  else if 0x2000 ≤ off then s.statusReg off
  else if 0x1000 ≤ off then s.windowWord ((off - 0x1000) / 4)
  else if 0x0C00 ≤ off then s.tlmWord (off - 0x0C00)
  else match off with
    | 0x0000 => Config.version
    | 0x0004 => Config.romId
    | 0x0010 => word (s.sys.ltc % 2 ^ 32)
    | 0x0014 => s.ctl.ltcCap
    | 0x0020 => s.ctl.win
    | 0x0024 => s.cfgStatus
    | 0x0028 => s.cfg.gen
    | 0x002C => s.cfg.crc
    | 0x0100 => word (fld s.mbx.cmd 0 9)
    | 0x0108 => s.mbxStatus
    | 0x0400 => s.mbx.irq.setWidth 32
    | 0x0404 => s.mbx.irqEn.setWidth 32
    | 0x0408 => word s.evt.level
    | 0x040C => fields [(s.logSeen, 0), (s.logSeen - s.evt.rd, 9)]
    | 0x0800 => word s.ctl.tlmSel
    | _ =>
      if 0x0140 ≤ off && off < 0x0180 then Tab.get 0 s.mbx.args ((off - 0x0140) / 4)
      else if 0x0180 ≤ off && off < 0x01C0 then Tab.get 0 s.mbx.resp ((off - 0x0180) / 4)
      else if 0x0420 ≤ off && off < 0x0434 then s.logWord ((off - 0x0420) / 4)
      else 0

end Sys2Proof.Machine
end

