-- ==== Sys2Proof/Machine/MbxImm.lean ====
section
/-! DEFINITION. Mailbox commands that change no configuration and issue no memory access: identity, telemetry, sensors,
boot store, region and link reads, retrain, calibration, migration, rebind, spares, digest fence and lock-step release
(R798, R812 to R815, R818, R819, R829 to R837, R839). -/

namespace Sys2Proof.Machine

/-- Opcodes of R798. -/
def opcodes : List Nat :=
  [0x01, 0x02, 0x03, 0x10, 0x11, 0x12, 0x20, 0x21, 0x30, 0x31, 0x32, 0x40, 0x41, 0x42, 0x43, 0x44, 0x45, 0x50, 0x51, 0x52,
    0x60, 0x61, 0x70]

/-- MBX_BAD_OPCODE (R798): a doorbell with an opcode that no command has. -/
def execMbxBadOpcode (s : State) : Res :=
  .next <|
    let op := fld s.mbx.cmd 0 8
    if opcodes.contains op then s else s.doorbell op false fun s => s.finish eBadop []

/-- Field of an argument word. -/
def State.argf (s : State) (i lo len : Nat) : Nat := fld (s.arg i) lo len

/-- The command is now BUSY until later events end it. -/
def State.setRun (s : State) (r : RunCmd) : State := s.modMbx fun m => { m with run := some r }

/-- A BUSY command with this opcode waits for an event. -/
def State.running (s : State) (op : Nat) : Option RunCmd :=
  match s.mbx.run with
  | some r => if r.op = BitVec.ofNat 8 op then some r else none
  | none => none

/-- IDENT (R812). -/
def State.cmdIdent (s : State) : State :=
  s.checked [] [] fun s => s.finish eOk [Config.version, Config.romId, s.stsGlobal, s.cfg.gen]

/-- IDENT. -/
def execIdent (s : State) : Res := .next (s.doorbell 0x01 false State.cmdIdent)

/-- TLM_CLEAR (R813): counters and OVF bits of a page range. -/
def State.cmdTlmClear (s : State) : State :=
  let a := s.argf 0 0 12
  let b := s.argf 1 0 12
  s.checked [0xFFF, 0xFFF] [(decide (b < a) || decide (0x401 < b), eRange)] fun s =>
    let s1 := s.modCtl fun c => { c with tlm := Tab.drop (fun k => decide (a ≤ k / 128) && decide (k / 128 ≤ b)) c.tlm }
    let s2 : State := { s1 with slices := Tab.mapVals Slice.reset (fun p x =>
      if a ≤ p && p ≤ b then { x with link := { x.link with calCnt := 0 } } else x) s1.slices }
    s2.finish eOk []

/-- TLM_CLEAR. -/
def execTlmClear (s : State) : Res := .next (s.doorbell 0x02 false State.cmdTlmClear)

/-- SENSOR_CLEAR (R555, R815): the broken ones among the named sensors are restored at the next evaluation. -/
def State.cmdSensorClear (s : State) : State :=
  let v := s.argf 0 0 9
  s.checked [0x1FF] [(decide (288 ≤ v) && v != 0x1FF, eRange)] fun s =>
    let l := (List.range 288).filter fun i => (v == 0x1FF || v == i) && (Tab.get Sensor.reset s.therm.sens i).broken
    let s1 := s.modTherm fun t =>
      { t with sens := l.foldl (fun m i => Tab.upd Sensor.reset m i fun x => { x with clr := true }) t.sens }
    s1.finish eOk [BitVec.ofNat 32 l.length]

/-- SENSOR_CLEAR. -/
def execSensorClear (s : State) : Res := .next (s.doorbell 0x03 false State.cmdSensorClear)

/-- CFG_STORE (R818): the staged image is checked under R788; its words are what the boot store writes. -/
def State.cmdCfgStore (s : State) : State :=
  s.checked [1] [] fun s =>
    match checkImage s.ctl.staging false none s.stk with
    | .inl e => s.finish e []
    | .inr _ => s.setRun ⟨0x11, s.argf 0 0 1, 0, [], (imageWords s.ctl.staging).map (·.toNat)⟩

/-- CFG_STORE. -/
def execCfgStore (s : State) : Res := .next (s.doorbell 0x11 false State.cmdCfgStore)

/-- CFG_STORE_DONE (R818): the boot store has written the copy and read it back; where the read-back fails check 1 of R788
the copy is left as written, with contents that this model leaves open (DESIGN CHOICE, log 6). -/
def execCfgStoreDone (good : Bool) (s : State) : Res :=
  .next <|
    match s.running 0x11 with
    | none => s
    | some r =>
      let t : Option (Tab Word) := some (tabWith 0 (r.vals.map (BitVec.ofNat 32)))
      let s1 := s.modCtl fun c =>
        { c with bootA := if r.a = 0 then t else c.bootA, bootB := if r.a = 0 then c.bootB else t,
                 bootBad := if good then c.bootBad.filter (fun i => i != r.a) else insertNat r.a c.bootBad }
      s1.finish (if good then eOk else eCheck) []

/-- CFG_STORE_TIMEOUT (R818): after 500 ms the copy's contents are unknown. -/
def execCfgStoreTimeout (s : State) : Res :=
  .next <|
    match s.running 0x11 with
    | none => s
    | some r =>
      if s.sys.ltc < s.mbx.since + ms 500 then s
      else (s.modCtl fun c => { c with bootBad := insertNat r.a c.bootBad }).finish eTimeout []

/-- REGION_READ (R819). -/
def State.cmdRegionRead (s : State) : State :=
  s.checked [0x3F] [] fun s =>
    let r := regionAt s.cfg.regions (s.argf 0 0 6)
    s.finish eOk ((List.range 8).map fun w => BitVec.ofNat 32 (fld r (32 * w) 32))

/-- REGION_READ. -/
def execRegionRead (s : State) : Res := .next (s.doorbell 0x12 false State.cmdRegionRead)

/-! ### Links (R829 to R832) -/

/-- RETRAIN (R829): a full retrain with cause 0; one that runs already is waited for (R632). -/
def State.cmdRetrain (s : State) : State :=
  let p := s.argf 0 0 8
  let l := (s.slice p).link
  s.checked [0xFF] [(decide (144 ≤ p), eRange), (s.noChannels || !(l.up || l.state == .retrain), eState)] fun s =>
    (s.startRetrain p 0).setRun ⟨0x40, p, 0, [], []⟩

/-- RETRAIN. -/
def execRetrain (s : State) : Res := .next (s.doorbell 0x40 true State.cmdRetrain)

/-- CAL_RUN (R830): one pass on each named bundle, accepted with PENDING. -/
def State.cmdCalRun (s : State) : State :=
  let p := s.argf 0 0 8
  let serv (q : Nat) : Bool := (s.slice q).rep.inServ
  s.checked [0xFF] [(decide (144 ≤ p) && p != 0xFF, eRange), (s.noChannels || (p != 0xFF && !serv p), eState),
      (s.isPending 0x41, eBusy)] fun s =>
    let l := (List.range 144).filter fun q => serv q && (p == 0xFF || p == q)
    let s1 := (s.each l fun s q => (s.icqPass 3 q).modLink q fun x => { x with calCmd := true }).finishPending l
    if l.isEmpty then s1.endPending 0x41 eOk else s1

/-- CAL_RUN. -/
def execCalRun (s : State) : Res := .next (s.doorbell 0x41 true State.cmdCalRun)

/-- Byte of LINK_READ for a lane: its bond, or 0x7F where the lane is not carried; bit 7 for a marked bond (R832). -/
def Link.laneByte (l : Link) (k : Nat) : Nat :=
  if 82 ≤ k then 0
  else if !(l.lanesUsed.contains k) then 0x7F
  else
    let b := l.bondOf k
    b + b2n (decide (k < 72) && (l.lane b).marked) * 128

/-- State of a bond for LINK_READ (R832). -/
def Link.bondCode (l : Link) (b : Nat) : Nat := if 87 ≤ b then 3 else if !l.good b then 2 else if l.free b then 1 else 0

/-- Response words of LINK_READ (R831, R832). -/
def State.linkWords (s : State) : List Word :=
  let l := (s.slice (s.argf 0 0 8)).link
  let lanes (o n : Nat) : List Word := (List.range n).map fun w =>
    BitVec.ofNat 32 (ofBytes ((List.range 4).map fun b => l.laneByte (o + 4 * w + b)))
  match s.argf 0 8 2 with
  | 0 => lanes 0 16
  | 1 => lanes 64 5
  | 2 => (List.range 6).map fun w => BitVec.ofNat 32 (((List.range 16).map fun i => l.bondCode (16 * w + i) * 4 ^ i).sum)
  | _ => (List.range 5).map fun j => l.trimWord (s.argf 1 0 7) (s.argf 1 8 2) j

/-- LINK_READ (R831, R832). -/
def State.cmdLinkRead (s : State) : State :=
  s.checked [0x3FF, 0x37F]
      [(decide (144 ≤ s.argf 0 0 8) || (s.argf 0 8 2 == 3 && decide (91 ≤ s.argf 1 0 7)), eRange)] fun s =>
    s.finish eOk s.linkWords

/-- LINK_READ. -/
def execLinkRead (s : State) : Res := .next (s.doorbell 0x42 false State.cmdLinkRead)

/-! ### Spares (R833 to R836) -/

/-- A migration of a channel is queued or runs (R834). -/
def State.migKnown (s : State) (c : Nat) : Bool :=
  (s.stk.cands.any fun x => x.chan == c) || s.stk.migs.any fun x => x.chan == c && !x.rebind

/-- The checks that MIGRATE and REBIND make on TARGET at the end (R834, R835). -/
def State.targetChecks (s : State) (c t : Nat) : List (Bool × BitVec 8) :=
  [(t != 0xFF && !s.freeSpare t, eBadarg), (t == 0xFF && (s.pickSpare (s.stk.remapAt c).ps).isNone, eNospare)]

/-- MIGRATE (R833, R834): a candidate with cause 4, accepted with PENDING. -/
def State.cmdMigrate (s : State) : State :=
  let c := s.argf 0 0 7
  let t := s.argf 0 16 8
  s.checked [0xFFFF7F]
      ([(decide (144 ≤ t) && t != 0xFF, eRange), (s.noChannels || (s.stk.remapAt c).st != .bound, eState),
        (s.isPending 0x43 || s.migKnown c, eBusy)] ++ s.targetChecks c t) fun s =>
    (s.modStk fun k => { k with cands := k.cands ++ [⟨c, 4, s.argf 0 8 8, t⟩] }).finishPending []

/-- MIGRATE. -/
def execMigrate (s : State) : Res := .next (s.doorbell 0x43 true State.cmdMigrate)

/-- REBIND (R696, R835): the new slice goes through steps 1 and 2 of R688; accepted with PENDING. -/
def State.cmdRebind (s : State) : State :=
  let c := s.argf 0 0 7
  let t := s.argf 0 8 8
  s.checked [0xFF7F]
      ([(decide (144 ≤ t) && t != 0xFF, eRange), (s.noChannels || (s.stk.remapAt c).st != .fenced, eState),
        (s.isPending 0x44, eBusy)] ++ s.targetChecks c t) fun s =>
    let old := (s.stk.remapAt c).ps
    let n := if t = 0xFF then (s.pickSpare old).getD 0 else t
    ((s.modStk fun k =>
      { k with migs := k.migs ++ [{ Mig.reset with chan := c, old := old, new := n, rebind := true }] }).wakeSlice n).finishPending []

/-- REBIND. -/
def execRebind (s : State) : Res := .next (s.doorbell 0x44 true State.cmdRebind)

/-- FIRN_READ (R836): the endpoint is asked over the sideband. -/
def State.cmdFirnRead (s : State) : State :=
  let p := s.argf 0 0 8
  s.checked [0xFF] [(decide (144 ≤ p), eRange), ((s.stk.layer (layerOf p)).fenced, eState)] fun s => s.setRun ⟨0x45, p, 0, [], []⟩

/-- FIRN_READ. -/
def execFirnRead (s : State) : Res := .next (s.doorbell 0x45 false State.cmdFirnRead)

/-- FIRN_READ_ANSWER (R836): the endpoint gives the spare units of the slice and the spare rows of each bank. -/
def execFirnReadAnswer (units : BitVec 16) (rows : List (BitVec 16)) (s : State) : Res :=
  .next <|
    match s.running 0x45 with
    | none => s
    | some _ =>
      let row (b : Nat) : Nat := min 255 (rows.getD b 0).toNat
      let words := (List.range 8).map fun w => BitVec.ofNat 32 (ofBytes ((List.range 4).map fun b => row (4 * w + b)))
      let free := ((List.range 16).map fun l => b2n (s.freeSpare (9 * l + 8)) * 2 ^ l).sum
      s.finish eOk ([BitVec.ofNat 32 units.toNat] ++ words ++ [BitVec.ofNat 32 free, s.stsFirn])

/-- FIRN_READ_TIMEOUT (R836): no answer within 1 ms. -/
def execFirnReadTimeout (s : State) : Res :=
  .next <|
    match s.running 0x45 with
    | none => s
    | some _ => if s.sys.ltc < s.mbx.since + ms 1 then s else s.finish eTimeout []

/-! ### Digest fence, lock-step release (R837, R839) -/

/-- DIGEST_FENCE (R837): a digest fence of a stream; with REC_EN the command completes after the record write. -/
def State.cmdDigestFence (s : State) : State :=
  let i := s.argf 0 0 4
  s.checked [0xF] [(s.noChannels, eState)] fun s =>
    if s.recEn then (s.digestFence i none true).setRun ⟨0x50, i, 0, [], []⟩
    else
      let s1 := s.digestFence i none false
      let st := s1.stream i
      s1.finish eOk ((st.n :: (List.range 8).map fun w => BitVec.ofNat 32 (st.d.toNat / 2 ^ (32 * w))) ++ [0])

/-- DIGEST_FENCE. -/
def execDigestFence (s : State) : Res := .next (s.doorbell 0x50 true State.cmdDigestFence)

/-- LOCKSTEP_RELEASE (R741, R839): the latch and the hold are cleared. -/
def State.cmdLockstepRelease (s : State) : State :=
  s.checked [] [(!s.det.mismatch, eNotActive)] fun s =>
    let ws := [s.stsLs, s.det.mFence]
    let s1 := if s.det.lsHeld then s.detBreak 6 else s
    (s1.modDet fun d => { d with mismatch := false, mStream := 0, mFence := 0, lsHeld := false }).finish eOk ws

/-- LOCKSTEP_RELEASE. -/
def execLockstepRelease (s : State) : Res := .next (s.doorbell 0x52 false State.cmdLockstepRelease)

end Sys2Proof.Machine
end

