-- ==== Sys2Proof/Machine/Context.lean ====
section
/-! DEFINITION. The context image: what SAVE_CONTEXT writes and RESTORE_CONTEXT applies (R742 to R745, R841). -/

namespace Sys2Proof.Machine

/-- Bytes of a context image (R743). -/
def ctxLen : Nat := 141124

/-- The low 32 bits of a signed number. -/
def signed32 (v : Int) : Nat := (v.emod (2 ^ 32)).toNat

/-- The signed value of 32 bits. -/
def ofSigned32 (v : Nat) : Int := if v < 2 ^ 31 then v else (v : Int) - 2 ^ 32

/-- The 128 B of a digest stream (R743). -/
def Stream.bytes' (x : Stream) : List Nat :=
  toBytes 4 x.key.toNat ++ toBytes 4 x.n.toNat ++ toBytes 8 x.s.toNat ++ toBytes 8 x.bytes.toNat ++ toBytes 8 x.pieces.toNat ++
    toBytes 32 x.d.toNat ++ toBytes 32 x.rd.toNat ++ toBytes 32 (b2n x.rdv)

/-- The 2,056 B of a program slot (R743). -/
def progBytes (p : List OpWord) : List Nat :=
  toBytes 8 p.length ++ ((List.range 256).flatMap fun i => toBytes 8 (p.getD i 0).toNat)

/-- The context image in force but for its CRC (R743). -/
def State.ctxBody (s : State) : List Nat :=
  (toBytes 2 0x4358 ++ toBytes 2 1 ++ toBytes 4 Config.version.toNat ++
      toBytes 4 (match s.det.mode with | .off => 0 | .bits => 1 | .timing => 2) ++ toBytes 4 s.cfg.crc.toNat ++ toBytes 4 ctxLen ++
      toBytes 44 0) ++
    ((List.range 64).flatMap fun i => toBytes 32 (regionAt s.cfg.regions i).toNat) ++
    ((List.range 16).flatMap fun i => (s.stream i).bytes') ++
    ((List.range 288).flatMap fun m => toBytes 4 (signed32 (s.fab.meter m).tc) ++ toBytes 4 (signed32 (s.fab.meter m).tp) ++ toBytes 8 0) ++
    ((List.range 48).flatMap fun k => toBytes 4 (signed32 (s.fab.bucket k).ts) ++ toBytes 12 0) ++
    ((List.range 64).flatMap fun i => progBytes (s.fab.prog i))

/-- The context image (R743). -/
def State.ctxImage (s : State) : List Nat := let b := s.ctxBody; b ++ toBytes 4 (crc32c b)

/-- The image as 8 B words; the last one holds the CRC in its low half. -/
def wordsOf : Nat → List Nat → List (BitVec 64)
  | _, [] => []
  | 0, _ => []
  | n + 1, l => BitVec.ofNat 64 (le l 0 8) :: wordsOf n (l.drop 8)

/-- 8 B word `i` of an image. -/
def ctxWord (c : List (BitVec 64)) (i : Nat) : Nat := (c.getD i 0).toNat

/-- `n` words from word `i` as one number. -/
def ctxWide (c : List (BitVec 64)) (i n : Nat) : Nat := ((List.range n).map fun j => ctxWord c (i + j) * 2 ^ (64 * j)).sum

/-- The region table of an image. -/
def ctxRegions (c : List (BitVec 64)) : List (BitVec 256) :=
  (List.range 64).map fun i => BitVec.ofNat 256 (ctxWide c (8 + 4 * i) 4)

/-- A digest stream of an image. -/
def ctxStream (c : List (BitVec 64)) (i : Nat) : Stream :=
  let o := 264 + 16 * i
  { key := BitVec.ofNat 32 (ctxWord c o), n := BitVec.ofNat 32 (ctxWord c o / 2 ^ 32), s := c.getD (o + 1) 0,
    bytes := c.getD (o + 2) 0, pieces := c.getD (o + 3) 0, d := BitVec.ofNat 256 (ctxWide c (o + 4) 4),
    rd := BitVec.ofNat 256 (ctxWide c (o + 8) 4), rdv := ctxWord c (o + 12) % 256 != 0 }

/-- The program store of an image. -/
def ctxProgs (c : List (BitVec 64)) : Tab (List OpWord) :=
  (List.range 64).foldl (fun t i =>
    let o := 1192 + 257 * i
    Tab.set [] t i ((List.range (min 256 (ctxWord c o % 2 ^ 16))).map fun j => c.getD (o + 1 + j) 0)) []

/-- Checks 1 to 4 of R744 on an image as read: the code of the first that fails. -/
def State.ctxError (s : State) (c : List (BitVec 64)) : Option (BitVec 8) :=
  let bytes := (c.flatMap fun w => toBytes 8 w.toNat).take ctxLen
  let v := ctxWord c 0 / 2 ^ 32
  if ctxWord c 0 % 2 ^ 16 ≠ 0x4358 || le bytes (ctxLen - 4) 4 ≠ crc32c (bytes.take (ctxLen - 4)) then some eCheck
  else if v / 2 ^ 8 ≠ Config.version.toNat / 2 ^ 8 || ctxWord c 0 / 2 ^ 16 % 2 ^ 16 ≠ 1 then some eNotsup
  else if ctxWord c 1 / 2 ^ 32 ≠ s.cfg.crc.toNat || !s.fab.launches.isEmpty || (s.fab.trk.any fun e => decide (e.sub ≤ 36)) then
    some eState
  else if !tableOk (ctxRegions c) then some eBadarg
  else none

/-- What a restore puts into the units at its commit boundary: streams, meters, buckets, programs; the lock-step queues
are emptied (R744, R745). -/
def State.applyCtx (s : State) (c : List (BitVec 64)) : State :=
  let s1 := s.each (List.range 16) fun s i => s.modStream i fun _ => ctxStream c i
  let s2 := s1.each (List.range 288) fun s m =>
    let w := ctxWord c (520 + 2 * m)
    s.setMeter m { s.fab.meter m with tc := ofSigned32 (w % 2 ^ 32), tp := ofSigned32 (w / 2 ^ 32), vt := s.vtNow m }
  let s3 := s2.each (List.range 48) fun s k =>
    s.setBucket k { s.fab.bucket k with ts := ofSigned32 (ctxWord c (1096 + 2 * k) % 2 ^ 32), vt := s.vtNow k }
  let s4 := (s3.modFab fun f => { f with progs := ctxProgs c }).modDet fun d => { d with own := [], peer := [] }
  s4.newPd.detBreak 5

end Sys2Proof.Machine
end

