-- ==== Sys2Proof/Machine/Brew.lean ====
section
/-! DEFINITION. Commands of brew launches: dispatch, start, ops, preemption, commit and end (R438, R446 to R484). -/

namespace Sys2Proof.Machine

/-! ### Dispatch (R438, R439, R451, R452, R466) -/

/-- Replace the row operands of an op by the rows of the bank that they name: `base` is the region's ROWBASE (R436, R439). -/
def resolveOp (base : Nat) (desc : BitVec 384) (iter : Nat) (w : OpWord) : OpWord :=
  let f (x : Nat) : Nat := (base + effRow x (launchArg desc (opArgsel w)) iter (launchStep desc)) % 2 ^ 14
  let n := (rowOperands w).length
  let d0 := if 0 < n then f (opD0 w) else opD0 w
  let d1 := if 1 < n then f (opD1 w) else opD1 w
  let d2 := if 2 < n then f (opD2 w) else opD2 w
  BitVec.ofNat 64 (opOpc w + d0 * 2 ^ 8 + d1 * 2 ^ 24 + d2 * 2 ^ 40 + opAux w * 2 ^ 56)

/-- Where execution stands after a LOOP at `pc`, if one stands there (R438). -/
def Launch.past (l : Launch) : Nat × Nat :=
  match l.prog[l.pc]? with
  | some w =>
    if opOpc w = 11 then (if l.iter < opD1 w then (opD0 w % 256, l.iter + 1) else (l.pc + 1, 0)) else (l.pc, l.iter)
  | none => (l.pc, l.iter)

/-- Stale bit of the destination row in one bank when a resolved op is dispatched (R466). -/
def Fab.opStale (f : Fab) (c b : Nat) (w : OpWord) : Fab :=
  let set := match opOpc w with
    | 1 => f.isStale c b (opD1 w)
    | 3 => f.isStale c b (opD1 w) || f.isStale c b (opD2 w)
    | 2 | 4 | 5 | 8 => true
    | _ => false
  if set then f.setStale c b (opD0 w) else f

/-- The BREW meter and the bucket of a port allow the dispatcher to write (R452); a launch of a masked port, whose meters are
frozen, runs to its end without them (R282, R483). -/
def State.brewPaid (s : State) (k : Nat) : Bool :=
  let x := s.settledMeter (6 * k + 4) (s.fab.meter (6 * k + 4))
  let b := s.settledBucket k (s.fab.bucket k)
  s.isMasked k || ((x.pir == unlimited || decide (0 ≤ x.tp)) && (b.rate == unlimited || decide (0 ≤ b.ts)))

/-- A launch that has no op yet waits at the dispatcher while one of its channels migrates (R455) or a unit of one of its
banks is due for substitution there (R682), and while an earlier launch still has ops to come on one of its channels (R450).
-/
def State.dispatchWaits (s : State) (n : Nat) (l : Launch) : Bool :=
  let unit (c : Nat) : Bool :=
    let r := (s.slice (s.stk.remapAt c).ps).rep
    (r.unitWait ++ r.unitSent.map (·.1)).any fun b => (fld l.desc 32 32).testBit b
  l.nops == 0 && l.chans.any fun c => (s.stk.remapAt c).st == .migrating || unit c ||
    (s.fab.launches.take n).any fun x => x.chans.contains c && !x.doneDisp && !x.endedOn c

/-- The op queue of slice `p` has room for the two words of the next op of a launch, and for the word of the launch itself
ahead of its first op (16 words, R50, R451). -/
def State.opRoom (s : State) (l : Launch) (p : Nat) : Bool :=
  !s.icqFull 2 p (2 * (s.slice p).brew.q.length + (if l.nops = 0 then 2 else 1))

/-- The word of a launch goes to each of its channels ahead of its first op (R80, R449, R450). -/
def State.sendLaunch (s : State) (l : Launch) (ps : List Nat) : State :=
  if l.nops ≠ 0 then s
  else
    let vis := (ps.map fun p => s.icqSeen 2 p).foldl max s.sys.ltc
    (s.each ps fun s p => s.icqPass 2 p).modFab fun f => f.modLaunch l.eid fun x => { x with vis := vis }

/-- The stale bits that the dispatch of a resolved op reads, and the one that it changes, in one bank (R466, R699). -/
def State.opBits (s : State) (c b : Nat) (o : OpWord) : State :=
  (((s.readBit c b (opD0 o)).readBit c b (opD1 o)).readBit c b (opD2 o)).modFab fun f => f.opStale c b o

/-- BREW_DISPATCH_OP (R451): the next op of the `n`-th launch is resolved and written into the op queue of every
selected channel, whose full flag leaves room for it, behind the ops of earlier launches that
still run there (R450); the stale bits of its destination change (R466). It takes a number in the order of admission, so that all
that was accepted before it has a smaller one (R460). -/
def execBrewDispatchOp (n : Nat) (s : State) : Res :=
  .next <|
    match s.fab.launches[n]? with
    | none => s
    | some l =>
      let ps := l.chans.map fun c => (c, (s.stk.remapAt c).ps)
      let room := ps.all fun cp => s.opRoom l cp.2
      if !s.portsLive || l.doneDisp || l.why.isSome || !room || s.dispatchWaits n l || !s.brewPaid l.port then s
      else
        let at' := l.past
        match l.prog[at'.1]? with
        | none => s
        | some w =>
          let o := resolveOp (rRowbase l.rent) l.desc at'.2 w
          let mark := s.fab.nextId + 1
          let s1 := (s.sendLaunch l (ps.map (·.2))).each ps fun s cp =>
            (((s.modBrew cp.2 fun q =>
              { q with q := q.q ++ [o], qacc := q.qacc ++ [mark], qid := q.qid ++ [l.eid] }).icqWrite 2 cp.2).icqWrite 2 cp.2).each
              (setBits (BitVec.ofNat 32 (fld l.desc 32 32))) fun s b => s.opBits cp.1 b o
          (s1.modFab fun f => f.modLaunch l.eid fun l =>
            { l with pc := at'.1 + 1, iter := at'.2, nops := l.nops + 1, doneDisp := at'.1 + 1 = l.prog.length }).takeNumber.statSub
              l.port 15 ps.length

/-! ### On the channel -/

/-- The island may work on launches: it is live and no hold stops it (R244). -/
def State.brewLive (s : State) (p : Nat) : Bool := s.sliceLive p && (s.slice p).sch.held == 0

/-- BREW_LAUNCH_START (R450): the earliest launch that has not ended on the channel starts there, once its word has come, with
the BSET that latches its banks and clears their registers in a row slot that no urgent refresh takes, with tXS over (R219,
R247, R445, R597); not while the channel migrates (R455). A launch that waits for a unit substitution waits at the dispatcher
(R682). -/
def execBrewLaunchStart (p : Fin 144) (s : State) : Res :=
  .next <|
    let p := p.val
    match s.stk.chanOf p with
    | none => s
    | some c => match s.fab.launches.find? fun l => l.chans.contains c && !l.endedOn c with
      | none => s
      | some l =>
        if !s.brewLive p || s.migrating p || (s.slice p).brew.cur.isSome || l.started.contains c || l.why.isSome || l.nops = 0 ||
            s.sys.ltc < l.vis || (s.slice p).sch.rowTaken || (s.urgentBank p).isSome ||
            (s.slice p).sch.cclk < (s.slice p).bt.okAny then s
        else
          let m := BitVec.ofNat 32 (fld l.desc 32 32)
          let s1 := s.modBrew p fun q =>
            (setBits m).foldl (fun q b => q.clearRegs b 255) { q with cur := some l.eid, mask := m, bset := (s.slice p).sch.cclk + 1 }
          ((s1.modFab fun f => f.modLaunch l.eid fun l => { l with started := insertNat c l.started }).modSch p fun x =>
            { x with rowTaken := true }).sendRow p 6 (m.toNat * 2 ^ 4 + 2 ^ 36)

/-- An urgent read waits for a bank of the launch: one that is eligible but for the loan (R210, R227, R230, R271, R463). -/
def State.urgentRead (s : State) (p : Nat) : Bool :=
  let x := (s.slice p).sch
  (x.window ++ x.narrowSlot).any fun w => !yields w.sub && s.inIsland p w && !(w.colour == .yellow && s.oldGreen p) && match w.keys with
    | k :: _ => (s.slice p).brew.banks.contains (keyBank k) && decide (s.slack p w < s.preemptThr) && s.accReady p w k
    | [] => false

/-- An urgent refresh is owed by a bank of the launch (R465). -/
def State.urgentRef (s : State) (p : Nat) : Bool := (s.slice p).brew.banks.any fun b => s.refUrgent p b

/-- Duration of a row op in CCLK (R246, R458). -/
def State.rowOpTime (s : State) (p : Nat) (w : OpWord) : Nat :=
  let t := (s.stk.layer (layerOf p)).tims
  let i := if opOpc w = 0 then 15 else if opOpc w < 3 then 16 else 17
  toCclk (t.getD i 0) s.sys.rate

/-- Another row command goes before the launch's row op in this CCLK: an urgent refresh, a contender ahead of it that can
issue, or the room that a pressing one waits for (R211, R215, R218). -/
def State.rowBusy (s : State) (p t : Nat) (o : OpWord) (l : Launch) : Bool :=
  let me := s.brewMember p l (opD0 o)
  let cls := (s.slice p).sch.cls
  let lt := if cls then s.clsBefore p else s.rowBefore
  let es := s.eligible p
  let e := sortConts lt (me :: es)
  let ahead := sortConts lt (es.filter fun c => lt c me && (cls || !yields c.w.sub))
  (s.slice p).sch.rowTaken || (s.urgentBank p).isSome || (s.stopPre p t).isSome ||
    ((s.slice p).sch.wrPhase && (s.wrRow p t).isSome) || (s.rowPick p t cls e ahead).isSome ||
    (!cls && s.budgetBlocked p t e me)

/-- A starting op will overwrite the access in one of its banks: it lies in a row op's destination row, or is the one that a
MAC_STORE writes (R105). -/
def opWrites (banks : List Nat) (o : OpWord) (bank row col : Nat) : Bool :=
  banks.contains bank && row == opD0 o && (isRowOp o || (opOpc o == 8 && col == opAux o % 32))

/-- The narrow read-buffer lines that a starting op will overwrite go, and a read of them still in flight brings none back (R105,
R208). -/
def State.dropBrew (s : State) (p : Nat) (o : OpWord) : State :=
  let bs := (s.slice p).brew.banks
  s.modSlice p fun x =>
    { x with dat := { x.dat with nrb := x.dat.nrb.filter fun kv => !opWrites bs o (keyBank kv.1) (keyRow kv.1) (keyCol kv.1) },
             sch := { x.sch with flight := x.sch.flight.map fun f => if opWrites bs o f.bank f.row f.col then { f with nobuf := true } else f } }

/-- The first command of a MAC op may issue: its column command, or the ACT or PRE that its row needs (R210, R247, R306). -/
def State.macReady (s : State) (p t : Nat) (o : OpWord) (l : Launch) : Bool :=
  let row := (macAt o 0).1
  decide ((s.slice p).brew.bset ≤ t) &&
    (if s.brewOpen p row then (s.slice p).brew.banks.all fun i => (s.slice p).bt.colOk i t
    else if s.brewClosed p then s.brewActOk p t l.port [row]
    else s.brewPreOk p t)

/-- A MAC op competes for its slots like an entry, by its deadline: it takes the loan once its first command may issue and no
eligible entry for one of its banks that stands ahead of it may issue a command itself (R218, R459; DEDUCED, log 64). -/
def State.macBehind (s : State) (p t : Nat) (o : OpWord) (l : Launch) : Bool :=
  let me := s.brewMember p l (macAt o 0).1
  let cls := (s.slice p).sch.cls
  let lt := if cls then s.clsBefore p else s.rowBefore
  let es := s.eligible p
  !s.macReady p t o l ||
    es.any fun c => (s.slice p).brew.banks.contains c.bank && lt c me && (cls || !yields c.w.sub) &&
      (s.colReady p t cls es c || (s.rowWant p c).any fun act => s.rowReady p t c act)

/-- A row op starts on its precharged banks: it takes the row slot, counts its activations and is charged (R263, R453 to
R458). -/
def State.startRowOp (s : State) (p t : Nat) (o : OpWord) (l : Launch) : State :=
  let n := (s.slice p).brew.banks.length
  let t1 := t + s.rowOpTime p o
  let s1 := (s.brewCount p t l.port (rowsNamed o)).modBt p fun b =>
    (s.slice p).brew.banks.foldl (fun b i => b.modBank i fun x => { x with okAct := max x.okAct t1 }) b
  ((((s1.modBrew p fun q => { q with endAt := t1 }).modSch p fun x => { x with rowTaken := true }).sendRow p 7
    (opOpc o * 2 ^ 4 + opD0 o * 2 ^ 7 + opD1 o * 2 ^ 21 + opD2 o * 2 ^ 35)).brewCharge l (2048 * n)).brewHeat p (32 * n)

/-- BREW_OP_START (R460): the next op starts in its banks and puts them on loan (R459), unless earlier entries for its
banks hold it (R460), an urgent refresh waits for one of them (R465), or the thermal budget holds it (R453), or an
entry ahead of it goes first (R218). A row op needs its banks precharged, the row slot and the room
of R306, R454, R457 and R523. -/
def execBrewOpStart (p : Fin 144) (s : State) : Res :=
  .next <|
    let p := p.val
    let q := (s.slice p).brew
    let t := (s.slice p).sch.cclk
    match s.launchOn p, q.next with
    | some l, some o =>
      if !s.brewLive p || q.killed || q.stopped || !s.brewSeen p || !s.opFree p o || !s.brewCool p || s.urgentRef p then s
      else
        let go (s : State) : State :=
          ((s.modBrew p fun q => { q with op := some o, rd := 1, prog := 0, seg := 0 }).dropBrew p o).setLoan p true
        if isRowOp o then
          if !s.brewClosed p || !s.brewActOk p t l.port (rowsNamed o) || s.rowBusy p t o l || t < q.bset then s
          else go (s.startRowOp p t o l)
        else if isMacAcc o && s.macBehind p t o l then s
        else go (s.modBrew p fun q => { q with endAt := t + 1 })
    | _, _ => s

/-- The op in progress has done all it does (R458). -/
def State.opOver (s : State) (p : Nat) (o : OpWord) : Bool :=
  let q := (s.slice p).brew
  if isRowOp o || opOpc o = 6 then decide (q.endAt ≤ (s.slice p).sch.cclk)
  else if opOpc o = 10 then decide (opD1 o + 1 ≤ q.prog)
  else decide (macCount o ≤ q.prog)

/-- What an op leaves at its end: the result of a row op, or cleared registers (R422, R433, R445). -/
def State.opEffect (s : State) (p : Nat) (o : OpWord) : State :=
  let banks := (s.slice p).brew.banks
  if isRowOp o then s.each banks fun s b => s.rowOp p b o
  else if opOpc o = 6 then s.modBrew p fun q => banks.foldl (fun q b => q.clearRegs b (opAux o)) q
  else s

/-- The launch reaches its commit point on the channel of island `p`, which reports it in class 1 (R477). -/
def State.brewCommit (s : State) (p id : Nat) : State :=
  match s.stk.chanOf p with
  | some c => (s.tell 1 p (.commit id c)).brewLeave p
  | none => s.brewLeave p

/-- The words of the op in progress are released: those that it was read from stand at the front of the queue, unless a reset has
emptied it meanwhile (R64, R74, R477). -/
def State.releaseOp (s : State) (p : Nat) : State :=
  if (s.slice p).brew.rd = 0 then s
  else (s.modBrew p fun q => { q with q := q.q.tail, qacc := q.qacc.tail, qid := q.qid.tail, rd := 0 }).icqRelease 2 p 2

/-- A launch with further ops stops at the end of an op for an urgent read or an urgent refresh (R230, R461, R463, R465); what
its banks hold open is still to be precharged. -/
def State.stopAtEnd (s : State) (p : Nat) : State :=
  let why := if s.urgentRead p then 1 else if s.urgentRef p then 2 else 0
  if why = 0 then s
  else
    let s1 := s.modBrew p fun q => { q with stopped := true, stopWhy := why, rd := 0, stopOpen := true }
    if why = 1 then s1.statSlice p 5 1 else s1

/-- BREW_OP_END (R477): the op in progress ends, its words are released and its banks return; after the last op of the
program the channel commits; a killed launch stops there (R480); a launch that goes on stops there for an urgent read or
refresh. The narrow read-buffer lines that the op overwrote go (R105). An op does not end while halves that the endpoint discarded
are still to be sent again (R599, R601). -/
def execBrewOpEnd (p : Fin 144) (s : State) : Res :=
  .next <|
    let p := p.val
    match s.launchOn p, (s.slice p).brew.op with
    | some l, some o =>
      if !s.islandRuns p || !s.opOver p o || !(s.slice p).link.again.isEmpty then s
      else
        let s1 := ((((s.opEffect p o).dropBrew p o).setLoan p false).releaseOp p).modBrew p fun q =>
          { q with op := none, ops := q.ops + 1, prog := 0, seg := 0, stopped := false }
        let q := (s1.slice p).brew
        if q.killed then s1.brewStopped p
        else if l.doneDisp && !q.qid.contains l.eid then s1.brewCommit p l.eid
        else s1.stopAtEnd p
    | _, _ => s

/-- The op in progress is at a preemption point inside it (R461). -/
def State.atPreempt (s : State) (p : Nat) (o : OpWord) : Bool :=
  let q := (s.slice p).brew
  if opOpc o = 10 then !s.opOver p o
  else
    opOpc o == 9 && decide (0 < q.prog) && decide (q.prog < macCount o) &&
      ((opAux o % 32 + q.prog) % 32 == 0 || decide (256 ≤ q.seg)) && !s.brewOpen p (macAt o q.prog).1

/-- BREW_PREEMPT (R463): at a preemption point the launch stops for an urgent read, an urgent refresh (R465) or the
thermal budget (R453): its banks are precharged and return, its progress count stays, its op queue rewinds. A killed
launch stops there for good (R480). An urgent refresh of another bank keeps the row slot (R219); on a held channel only an
urgent refresh stops a launch (R244, R509). Only a stop for an urgent read is counted (R258). -/
def execBrewPreempt (p : Fin 144) (s : State) : Res :=
  .next <|
    let p := p.val
    let q := (s.slice p).brew
    let t := (s.slice p).sch.cclk
    match q.op with
    | none => s
    | some o =>
      let why := if s.urgentRead p then 1 else if s.urgentRef p then 2 else if opOpc o = 9 && !s.brewCool p then 3 else 0
      if !s.sliceLive p || q.stopped || !s.atPreempt p o || (why = 0 && !q.killed) || !s.brewPreOk p t ||
          (s.slice p).sch.rowTaken || (s.urgentBank p).isSome || ((s.slice p).sch.held ≠ 0 && why ≠ 2) then s
      else
        let s1 := ((s.brewPre p t).setLoan p false).modSch p fun x => { x with rowTaken := true }
        if q.killed then s1.brewStopped p
        else
          let s2 := s1.modBrew p fun q => { q with stopped := true, stopWhy := why, rd := 0 }
          if why = 1 then s2.statSlice p 5 1 else s2

/-- BREW_RESUME (R464): a stopped launch goes on at its progress count once no urgent entry or refresh waits for its
banks and the thermal budget lets it (R453); between two ops its banks are not on loan (R459). -/
def execBrewResume (p : Fin 144) (s : State) : Res :=
  .next <|
    let p := p.val
    let q := (s.slice p).brew
    if !s.brewLive p || !q.stopped || s.urgentRead p || s.urgentRef p || !s.brewCool p then s
    else
      let s1 := s.modBrew p fun q => { q with stopped := false, stopWhy := 0, seg := 0, stopOpen := false, rd := if q.op.isSome then 1 else 0 }
      if q.op.isSome then s1.setLoan p true else s1

/-! ### Commit and end -/

/-- BREW_LAUNCH_COMMIT (R478): the dispatcher has received the commit of every selected channel before any abort: the
launch's status is OK. -/
def execBrewLaunchCommit (n : Nat) (s : State) : Res :=
  .next <|
    match s.fab.launches[n]? with
    | none => s
    | some l =>
      if l.why.isSome || !(l.chans.all fun c => l.commits.contains c) then s
      else s.modFab fun f => f.modLaunch l.eid fun l => { l with why := some .ok }

/-- BREW_LAUNCH_END (R482): once the status is decided and every selected channel has committed or stopped, the launch
ends: its entry gets the status, and the dispatcher's list has room again (R123, R448). -/
def execBrewLaunchEnd (n : Nat) (s : State) : Res :=
  .next <|
    match s.fab.launches[n]? with
    | none => s
    | some l => match l.why with
      | none => s
      | some st =>
        if !(l.chans.all l.endedOn) then s
        else
          let s1 := (s.modFab fun f => { f with launches := f.launches.filter fun x => x.eid != l.eid }).decideEntry l.eid st eOk
          if st = .aborted then s1.statSub l.port 14 1 else s1

end Sys2Proof.Machine
end

