-- ==== Sys2Proof/Machine/Power.lean ====
section
/-! DEFINITION. Power of the layers: reports, power states and budget messages (R866 to R872). -/

namespace Sys2Proof.Machine

/-- The stack budget Bs (R868). -/
def State.stackBudget (s : State) : Option Nat :=
  let own := fld s.ring.pwr1 0 16
  match s.stk.share with
  | some b => if own = 0 then some b else some (min own b)
  | none => if own = 0 then none else some own

/-- Layer `l` holds a bound slice or a spare slice: a slice in service (R251, R617; DEDUCED, log 60). -/
def State.layerHolds (s : State) (l : Nat) : Bool := (List.range 9).any fun x => (s.slice (9 * l + x)).rep.inServ

/-- A configuration that asks for CENTRAL in a stack that lacks it falls back to FEDERATED, with one record that names the
lowest layer without it (R618). -/
def State.centralCheck (s : State) : State :=
  let hs := s.stk.openLayers.filter s.layerHolds
  let lacks := !hs.isEmpty && !bit s.cfg.pwr0 0 && !s.stk.feats.testBit 3
  let s1 := s.modStk fun k => { k with fedFall := lacks }
  if lacks && !s.stk.fedFall then
    s1.event .negFallback ((hs.find? fun l => !(s.stk.layer l).feat.testBit 3).getD 0) (linkDetail 0x7F 1 0)
  else s1

/-- The instance runs FEDERATED (R870). -/
def State.federated (s : State) : Bool := bit s.ring.pwr0 0 || s.stk.fedFall

/-- Power that counts for a layer: its last report, P_MAX after 10 missed reports (R867). -/
def Layer.counted (l : Layer) : Nat := if 10 ≤ l.missed then l.pmax else l.power

/-- Messages between the instance and its layers run: not before the end of start-up, in a warm reset or in Frost
(R872). -/
def State.powerOn (s : State) : Bool := s.sys.ready && s.sys.phase == .running && !s.sys.rstEnd

/-- The budget message of a layer (R870). -/
def State.budgetMsg (s : State) (l : Nat) : Nat :=
  match s.stackBudget with
  | some b => s.budgetWord (b * (s.stk.layer l).pmax) s.stk.psum
  | none => 0xFFFF

/-- Send every layer its budget message (R870). -/
def State.sendLayerBudgets (s : State) : State :=
  (s.modStk fun k =>
    { s.stk.openLayers.foldl (fun k l => k.modLayer l fun x => { x with budget := s.budgetMsg l }) k with fedCnt := 0 }).nextFree

/-- POWER_SET of a layer (R869). -/
def State.powerSet (s : State) (l st : Nat) : State :=
  s.modStk fun k => k.modLayer l fun x => { x with setTo := some (st, s.sys.ltc) }

/-- The CENTRAL rule (R869). -/
def State.centralRule (s : State) : State :=
  let ls := s.stk.openLayers
  let total := (ls.map fun l => (s.stk.layer l).counted).sum
  let above := match s.stackBudget with | some b => decide (b < total) | none => false
  let room := match s.stackBudget with | some b => decide (16 * total ≤ 15 * b) | none => true
  let lower := ls.filter fun l => decide ((s.stk.layer l).pstate + 1 < (s.stk.layer l).pstates)
  if above then
    match least (fun a b => decide ((s.stk.layer b).counted < (s.stk.layer a).counted)) lower with
    | some l => s.powerSet l ((s.stk.layer l).pstate + 1)
    | none => s
  else if room then
    match least (fun a b => decide ((s.stk.layer b).pstate < (s.stk.layer a).pstate)) ls with
    | some l => if (s.stk.layer l).pstate = 0 then s else s.powerSet l ((s.stk.layer l).pstate - 1)
    | none => s
  else s

/-- What an evaluation does about power (R865, R867, R869, R870, R873): a committed power section applies, reports that
did not come are counted, a CENTRAL that the stack lacks falls back (R618), and the rule of the mode runs. -/
def State.evalPower (s : State) : State :=
  let c := s.cfg
  let die := s.ring.pwr2 != c.pwr2
  let s1 := s.modRing fun r => { r with pwr0 := c.pwr0, pwr1 := c.pwr1, pwr2 := c.pwr2, pwr3 := c.pwr3 }
  let s2 := if die then s1.sendBudgets else s1
  if !s2.powerOn then s2
  else
    let s2 := s2.centralCheck
    let s3 := s2.modStk fun k =>
      { s2.stk.openLayers.foldl (fun k l => k.modLayer l fun x =>
          { x with missed := if x.got then 0 else min 10 (x.missed + 1), got := false }) k with fedCnt := min 1000 (k.fedCnt + 1) }
    if !s3.federated then s3.centralRule
    else if s3.stk.openLayers.any fun l => (s3.stk.layer l).budget != s3.budgetMsg l then
      let n := s3.stk.fedCnt
      s3.sendLayerBudgets.modStk fun k => { k with fedCnt := n }
    else s3

/-- FED_BUDGET_TIMER (R870): every 1,000 evaluations a FEDERATED instance sends its budget messages again. -/
def execFedBudgetTimer (s : State) : Res :=
  .next (if s.powerOn && s.federated && decide (1000 ≤ s.stk.fedCnt) then s.sendLayerBudgets else s)

/-- POWER_REPORT (R867): a layer's power and state. -/
def execPowerReport (l : Fin 16) (power : BitVec 16) (pstate : BitVec 3) (s : State) : Res :=
  .next <|
    if !s.powerOn || (s.stk.layer l.val).fenced then s
    else s.modStk fun k => k.modLayer l.val fun x =>
      { x with power := power.toNat, pstate := pstate.toNat, missed := 0, got := true }

/-- POWER_SET_ACK (R869): the layer is in the state that it was set to. -/
def execPowerSetAck (l : Fin 16) (s : State) : Res :=
  .next <|
    match (s.stk.layer l.val).setTo with
    | some t => s.modStk fun k => k.modLayer l.val fun x => { x with pstate := t.1, setTo := none }
    | none => s

/-- POWER_SET_TIMEOUT (R869): 100 µs without an acknowledgement leave the state as the layer last reported it. -/
def execPowerSetTimeout (l : Fin 16) (s : State) : Res :=
  .next <|
    match (s.stk.layer l.val).setTo with
    | some t =>
      if s.sys.ltc < t.2 + us 100 then s
      else s.modStk fun k => k.modLayer l.val fun x => { x with setTo := none }
    | none => s

end Sys2Proof.Machine
end

