-- ==== Sys2Proof/Machine/StartOps.lean ====
section
/-! DEFINITION. Power-on reset and start-up: boot copies, negotiation of the layers, fuse maps, boot training, the remap
table, zeroing, and what opens admission (R32, R188, R428, R532, R611 to R628, R698, R789, R794 to R797, R881, R883,
R889 to R896). -/

namespace Sys2Proof.Machine

/-! ### Power-on reset (R32, R881, R883) -/

/-- The state that power-on reset leaves: every field at its reset value but the inputs, the boot store, the test wrapper
and the memory arrays. -/
def State.cleared (s : State) : State :=
  { State.reset with
    pending := s.pending, mem := s.mem, wrap := s.wrap
    sys := { Sys.reset with rstN := s.sys.rstN, wake := s.sys.wake, free := s.sys.free }
    fab := { Fab.reset with lines := s.fab.lines, down := s.fab.lines, masked := s.fab.lines, drained := s.fab.lines }
    ctl := { Ctl.reset with bootA := s.ctl.bootA, bootB := s.ctl.bootB, bootBad := s.ctl.bootBad }
    ring := { Ring.reset with id := s.ring.id, en := s.ring.en, pwrok := s.ring.pwrok, aonRst := s.ring.aonRst } }

/-- KX_POR_N_ASSERT (R32, R883): everything returns to its reset value; the rail enables fall at once (R919). -/
def execKxPorNAssert (s : State) : Res := .next s.cleared

/-! ### The image in force (R789, R794 to R796, R889, R890) -/

/-- A boot copy as the device answers (R818: a copy whose store did not finish holds unknown words, DESIGN CHOICE, log 6). -/
def State.bootCopy (s : State) (i : Nat) : Tab Word :=
  if s.ctl.bootBad.contains i then tabWith 0 ((List.range 65536).map fun w => Config.freeBoot (2 * s.sys.free + i) w)
  else ((if i = 0 then s.ctl.bootA else s.ctl.bootB).getD [])

/-- What a boot copy is: not intact, intact with the code of the check it fails, or usable (R794). -/
def State.bootResult (s : State) (answers : Bool) (i : Nat) : BitVec 8 ⊕ Cfg :=
  if answers then checkImage (s.bootCopy i) true none s.stk else .inl eCheck

/-- An intact copy that is not usable writes a CFG_REJECT record (R794). -/
def State.rejectCopy (s : State) (i : Nat) (r : BitVec 8 ⊕ Cfg) : State :=
  match r with
  | .inl e => if e = eCheck then s else s.event .cfgReject i e.toNat
  | .inr _ => s

/-- A copy fails check 1 of R788. -/
def notIntact (r : BitVec 8 ⊕ Cfg) : Bool :=
  match r with
  | .inl e => e == eCheck
  | .inr _ => false

/-- The image that R795 selects: its configuration, SOURCE and CAUSE. -/
def selectImage (a b : BitVec 8 ⊕ Cfg) : Cfg × Nat × Nat :=
  match a, b with
  | .inr x, .inr y =>
    if x.gen ≠ y.gen then (if y.gen < x.gen then (x, 1, 0) else (y, 2, 0))
    else if x.image = y.image then (x, 1, 0) else (factoryCfg, 0, 2)
  | .inr x, .inl _ => (x, 1, 0)
  | .inl _, .inr y => (y, 2, 0)
  | .inl _, .inl _ => (factoryCfg, 0, if notIntact a && notIntact b then 1 else 3)

/-- A configuration is written into every unit at a start: keys, lock-step timers, and what an evaluation takes later in
operation (R701, R737, R746, R865). -/
def State.writeCfg (s : State) (c : Cfg) : State :=
  let s1 : State := { s with cfg := c }
  let s2 := s1.modStk fun k => { k with ecc := c.ecc, scrub := c.scrub, mig := c.mig }
  let s3 := s2.modRing fun r => { r with pwr0 := c.pwr0, pwr1 := c.pwr1, pwr2 := c.pwr2, pwr3 := c.pwr3 }
  s3.modDet fun d =>
    { d with mode := (match c.detMode with | .bits => .bits | .off | .timing => .off)
             streams := (List.range 16).foldl (fun t i => Tab.set Stream.reset t i (Stream.restart (c.digKeyAt i))) [],
             lastTx := s.sys.ltc, lastRx := s.sys.ltc }

/-- Steps 2 and 3 of R891: both copies are read and checked, and the image in force is selected. -/
def State.selectBoot (s : State) (answers : Bool) : State :=
  let a := s.bootResult answers 0
  let b := s.bootResult answers 1
  let r := selectImage a b
  let s1 := (s.rejectCopy 0 a).rejectCopy 1 b
  let s2 := if r.2.1 = 0 then s1.event .cfgDefault 0 r.2.2 else s1
  let s3 := s2.modCtl fun t => { t with srcImg := r.2.1, cause := r.2.2, defaulted := r.2.1 = 0 }
  (s3.writeCfg r.1).modFab fun f => { f with progs := r.1.progs }

/-- A configuration with the conditions of R789 applied, and the records of it. An Hmax above 65,535 does not fit HOT_THR; its
largest value stands in for it (R532, R534; DESIGN CHOICE, log 67). -/
def Stack.clampCfg (k : Stack) (c : Cfg) : Cfg × List (Ev × Nat) :=
  let h := fld c.rdtCtl 0 16
  let m := min 0xFFFF (hMax k.tdMin)
  let c1 := if k.hotOk h then c else { c with rdtCtl := BitVec.ofNat 32 (fld c.rdtCtl 16 16 * 2 ^ 16 + m) }
  let l1 := if k.hotOk h then [] else [(Ev.rdtClamped, m)]
  let t := k.tmaxMin
  if fld c.therm0 16 8 ≤ t then (c1, l1)
  else
    let thr := if fld c.therm0 8 8 < t then fld c.therm0 8 8 else t - 1
    let warn := if fld c.therm0 0 8 < thr then fld c.therm0 0 8 else t - 2
    ({ c1 with therm0 := BitVec.ofNat 32 (warn + thr * 2 ^ 8 + t * 2 ^ 16 + fld c.therm0 24 8 * 2 ^ 24) },
      l1 ++ [(Ev.cfgClamped, 1 + t * 2 ^ 8)])

/-- R789 at start-up: clamped values with their records, and slots whose program is not available left empty. -/
def State.clampStart (s : State) : State :=
  let r := s.stk.clampCfg s.cfg
  let s1 := State.each { s with cfg := r.1 } r.2 fun s e => s.event e.1 0 e.2
  let bad := s1.fab.progs.filter fun ip => !s1.stk.opsAvailable ip.2
  (s1.each bad fun s ip => s.event .cfgClamped 0 (2 + ip.1 * 2 ^ 8)).modFab fun f =>
    { f with progs := f.progs.filter fun ip => s1.stk.opsAvailable ip.2 }

/-! ### Negotiation (R611 to R620) -/

/-- The layer as a capability descriptor that passes check 3 of R614 gives it (R611, R613). -/
def descLayer (d : BitVec 1024) : Layer :=
  let b (o n : Nat) : Nat := fld d (8 * o) (8 * n)
  let major := b 3 1
  let tims := (List.range 18).map fun i => b (0x10 + 2 * i) 2
  { Layer.reset with
    major := major, minor := if major = 1 then b 2 1 else min (b 2 1) 2
    rates := ((List.range 4).map fun r =>
      if (b 0x0A 1).testBit r && !(tims.contains 0) && timingFits tims r then 2 ^ r else 0).sum
    feat := if major = 1 then b 0x0B 1 &&& 0x19 else b 0x0B 1 % 32
    tims := tims, td := b 0x34 4, tmax := b 0x38 1, pstates := b 0x39 1, pmax := b 0x3A 2 }

/-- Fmax of a layer (R530). -/
def Layer.fmax (l : Layer) : Nat :=
  let trc := l.tims.getD 3 1
  if trc / 250 = 0 then wMax * 250 / (257 * trc) else wMax / (257 * (trc / 250))

/-- FCAUSE of the first check of R614 that a layer fails; 0 for none. -/
def layerCause (e : LayerEnv) : Nat :=
  let b (o n : Nat) : Nat := fld e.raw (8 * o) (8 * n)
  let l := descLayer e.raw
  if !e.answers || b 0 2 ≠ 0x5A56 then 1
  else if b 0x7C 4 ≠ crc32c (toBytes 124 e.raw.toNat) then 2
  else if b 3 1 ≠ 1 && b 3 1 ≠ 2 then 3
  else if b 9 1 ≠ 9 || b 0x0C 2 ≠ 128 || !(b 0x0B 1).testBit 4 then 4
  else if l.tims.contains 0 || l.rates = 0 then 5
  else if hMax l.td ≤ l.fmax then 6
  else 0

/-- What a layer's negotiation leaves in STS_LAYER and in the controller (R621). -/
def negLayer (e : LayerEnv) : Layer :=
  let c := layerCause e
  if c = 1 || c = 2 || c = 3 then { Layer.reset with fenced := true, fcause := c }
  else { descLayer e.raw with fenced := c != 0, fcause := c }

/-- Layer `l` is fenced with a cause of R614 or R616: one NEG_FENCE record (R620, R652). -/
def State.negFence (s : State) (l cause : Nat) : State :=
  (s.modStk fun k => k.modLayer l fun x => { x with fenced := true, fcause := cause }).event .negFence l
    (linkDetail 0x7F cause 0)

/-- Rate points of a set. -/
def rateCount (r : Nat) : Nat := ((List.range 4).filter fun i => r.testBit i).length

/-- The rate points that every layer not fenced has. -/
def Stack.commonRates (k : Stack) : Nat := k.openLayers.foldl (fun a l => a &&& (k.layer l).rates) 15

/-- R616: layers are fenced with FCAUSE 7 until a rate point is common to the others. -/
def State.negRates : Nat → State → State
  | 0, s => s
  | n + 1, s =>
    if s.stk.commonRates ≠ 0 then s
    else
      let worse (a b : Nat) : Bool :=
        let x := rateCount (s.stk.layer a).rates
        let y := rateCount (s.stk.layer b).rates
        decide (x < y) || (x == y && decide (b < a))
      match least worse s.stk.openLayers with
      | some l => State.negRates n (s.negFence l 7)
      | none => s

/-- The records and the fence of one slice's fuse repair map (R698, R704). -/
def State.fuseMap (s : State) (p : Nat) (ws : List (BitVec 32 × BitVec 32 × BitVec 32)) : State :=
  let c := if p % 9 < 8 then 8 * (p / 9) + p % 9 else 0
  let split (w : BitVec 32 × BitVec 32 × BitVec 32) : Bool := w.1 != w.2.1 && w.1 != w.2.2 && w.2.1 != w.2.2
  let odd (w : BitVec 32 × BitVec 32 × BitVec 32) : Bool := !split w && !(w.1 == w.2.1 && w.1 == w.2.2)
  let s1 := s.each (ws.filter odd) fun s _ => s.event .fuseMinority p (repairDetail c 0xFF 0 8)
  if ws.any split then (s1.outOfService p).event .fuseFence p (repairDetail c 0xFF 0 8) else s1

/-- Step 5 of R891: every layer is negotiated, and with it fenced or not (R616); then the fuse maps of the layers not fenced are
resolved (R698), the stack-wide features and limits are set,
and CENTRAL falls back where a layer lacks it (R614 to R618, R530, R698, R855). -/
def State.negotiate (s : State) (e : StartEnv) : State :=
  let env (l : Nat) : LayerEnv := e.layers.getD l ⟨false, 0, []⟩
  let s1 := s.each (List.range 16) fun s l =>
    let x := negLayer (env l)
    let s' := s.modStk fun k => { k with layers := Tab.set Layer.reset k.layers l x }
    if x.fenced then s'.negFence l x.fcause else s'
  let s2 := State.negRates 16 s1
  let s3 := s2.each s2.stk.openLayers fun s l => s.each (env l).fuses fun s pw =>
    if pw.1 < 9 then s.fuseMap (9 * l + pw.1) pw.2 else s
  let ls := s3.stk.openLayers
  let hs := ls.filter s3.layerHolds
  let s4 := s3.modStk fun k =>
    { k with rates := if ls.isEmpty then 0 else k.commonRates
             feats := if hs.isEmpty then 0 else hs.foldl (fun a l => a &&& (k.layer l).feat) 15
             tdMin := ((hs.map fun l => (k.layer l).td).min?).getD 0
             fMax := ((hs.map fun l => (k.layer l).fmax).max?).getD 0
             psum := (ls.map fun l => (k.layer l).pmax).sum }
  let s5 := s4.each ls fun s l =>
    let d := (env l).raw
    s.each (List.range 9) fun s x => s.modRep (9 * l + x) fun r =>
      { r with unitsLeft := fld d (8 * 0x3C) 16, rowsInit := fld d (8 * 0x3E) 16 }
  let s6 := (s5.each ((List.range 144).filter fun p => (s5.stk.layer (layerOf p)).fenced) State.outOfService).modTherm fun t =>
    { t with zqCode := e.zq.toNat }
  s6.centralCheck

/-! ### Boot training (R626 to R628) -/

/-- The PHY readings of the boot training stand as the last readings of their sensors (R547, R635). -/
def State.phyAt (s : State) (l : List (BitVec 16)) : State :=
  s.modTherm fun t => { t with sens := (List.range (min 144 l.length)).foldl (fun m i =>
    Tab.upd Sensor.reset m (144 + i) fun x => { x with value := l.getD i 0x8000 }) t.sens }

/-- The band of a slice is MIN_MULT at the lowest (R491, R535); a rise to it is counted as any other (R538). -/
def State.floorBand (s : State) (p : Nat) : State :=
  if (s.slice p).rf.band < s.minMult then (s.modRf p fun r => { r with band := s.minMult }).statSlice p 20 1 else s

/-- The refresh engine of a slice starts (R495, R497, R535). -/
def State.startRefresh (s : State) (p : Nat) : State :=
  ((s.floorBand p).modRf p fun r => { r with selfRef := false, refOn := true }).startAccs p true

/-- Boot training of the bundle of slice `p` of a negotiated layer (R615, R626, R627), and its timing sets: start-up replaces
the values of the active set and of the shadow set of the same layout (R248; that it replaces both is DEDUCED, log 50). A bond
that failed before a warm reset stays failed (R602). A slice that its fuse map has taken out of service is trained and stays
out (R626, R698); while shut-down is latched the trained slice stays in self-refresh (R580; DEDUCED, log 66). -/
def State.trainSlice (s : State) (p : Nat) (o : TrainOutcome) : State :=
  let s0 := (s.modLink p fun l =>
    { l with rstN := true, cke := true, phy := true, state := .training,
             failed := (o.badBonds.filter fun b => b < 87).foldl (fun f b => insertNat b f) l.failed }).modBt p fun b =>
      let t := timingSet (s.stk.layer (layerOf p)).tims s.sys.rate
      { b with tim := t, tim2 := t }
  let r := s0.replaceBonds p
  let s1 := (r.1.measureAll p o).modLink p fun l => { l with finger := s.therm.zqCode }
  let s2 := (s1.takeTrims p).calDone p 0
  if r.2 || o.strobeBad then (s2.linkEvent .linkFence p 0x7F 0).outOfService p
  else if !(s.slice p).rep.inServ then s2.outOfService p
  else
    let s3 := s2.modLink p fun l => { l with state := if l.narrow then .narrow else .active }
    if s.therm.latch then s3.modLink p fun l => { l with cke := false } else (s3.sendRow p 5 0).startRefresh p

/-! ### The remap table and zeroing (R188, R894 to R896) -/

/-- Step 7 of R891; a channel bound to a slice that training took to NARROW is a migration candidate (R684). -/
def State.buildRemap (s : State) : State :=
  let s1 := s.modStk fun k => { k with remap := defaultRemap }
  let out := (List.range 128).filter fun c => !(s1.slice (s1.stk.remapAt c).ps).rep.inServ
  let s2 := s1.each out fun s c =>
    let old := (s.stk.remapAt c).ps
    match s.pickSpare old with
    | some n => s.setRemap c ⟨n, 0, .bound, 0⟩
    | none => (s.setRemap c ⟨old, 0, .fenced, 0⟩).event .chanFence old (repairDetail c 0xFF 0 7)
  let s3 := s2.each ((List.range 144).filter fun p => (s2.stk.chanOf p).isNone && (s2.slice p).rep.inServ) fun s p =>
    ((if (s.slice p).rf.selfRef then s else s.sre p).modRf p fun r =>
      { r with selfRef := true, refOn := false }).modLink p fun l => { l with cke := false }
  s3.each ((List.range 128).filter fun c => (s3.stk.remapAt c).st == .bound && s3.isNarrow (s3.stk.remapAt c).ps) fun s c => s.addCand c 1

/-- Every channel is FENCED: start-up has ended at step 5 (R893). -/
def State.fenceAll (s : State) : State :=
  s.modStk fun k => { k with remap := k.remap.map fun e => { e with st := .fenced } }

/-- Start-up, steps 1 to 7 of R891, at the lowest-numbered rate point available (R892). -/
def State.startUp (s : State) (e : StartEnv) : State :=
  let put (old : Option (Tab Word)) (new : Option (List (BitVec 32))) : Option (Tab Word) :=
    match new with | some l => some (tabWith 0 (l.take 65536)) | none => old
  let bad := s.ctl.bootBad.filter fun i => if i = 0 then e.bootA.isNone else e.bootB.isNone
  let s1 := s.modCtl fun c => { c with bootA := put c.bootA e.bootA, bootB := put c.bootB e.bootB, bootBad := bad }
  let s2 := ((s1.selectBoot e.bootAnswers).nextFree.initMeters (List.range 48)).modSys fun y =>
    { y with rails := 7, phase := .negotiation, env := some { e with bootA := none, bootB := none, phy := [] } }
  let s3 := s2.negotiate e
  if s3.stk.rates = 0 then s3.newPd.fenceAll
  else
    let rate := ((List.range 4).find? fun r => s3.stk.rates.testBit r).getD 0
    let s4 := ((s3.clampStart.newPd).modSys fun y => { y with rate := rate, phase := .training }).phyAt e.phy
    let ps := (List.range 144).filter fun p => !(s4.stk.layer (layerOf p)).fenced
    let s5 := s4.each ps fun s p =>
      s.trainSlice p (((e.train.find? fun x => x.1 == p).map (·.2)).getD ⟨[], false, []⟩)
    (s5.nextFree.buildRemap).modSys fun y => { y with phase := .zeroing }

/-- KX_POR_N_RELEASE (R33, R881, R891, R926): the LTC starts and start-up runs to the beginning of zeroing; BIST and
scan have ended. -/
def execKxPorNRelease (e : StartEnv) (s : State) : Res :=
  .next <|
    if s.sys.porN then s
    else
      let s1 := (s.modSys fun y => { y with porN := true }).modRing fun r => { r with id := e.ringId.toNat, en := e.instEn }
      let s2 : State := { s1 with wrap := { s1.wrap with bistRun := false, undef := false } }
      s2.startUp e

/-! ### Opening admission (step 9 of R891, step 5 of R886) -/

/-- An ANNOUNCE is sent, and the own entry of the member table is made (R849, R855, R856, R873). -/
def State.sendAnnounce (s : State) : State :=
  if !s.ring.present || !s.sys.ready then s
  else
    let s1 := ((s.ringDrive []).modRing fun r => { r with lastAnn := s.sys.ltc }).setMember s.ring.id (some s.ownMember)
    s1.ringDrive (s1.announceFrame :: s1.ring.out)

/-- PHASE 4 and READY 1: credits are granted to every subscriber that is not masked (R86), scrub passes begin after
start-up, an ANNOUNCE goes out, and a FEDERATED instance sends its budget messages (R870). -/
def State.openUp (s : State) : State :=
  let first := !s.sys.everReady
  let s1 := s.modSys fun y =>
    { y with phase := .running, ready := true, everReady := true, frost := false, readyLtc := if first then s.sys.ltc else y.readyLtc }
  let s2 := s1.each ((List.range 36).filter fun k => !s1.isMasked k) State.grantPort
  let s3 := if s2.isMasked 36 then s2 else s2.grantBlp
  let s4 := if first then
      (s3.each s3.boundSlices State.newScrub).modStk fun k => { k with istLast := s.sys.ltc }
    else s3
  let s5 := s4.sendAnnounce
  if first && s5.federated && !s5.therm.latch then s5.sendLayerBudgets else s5

/-- The image in force selects DET_TIMING: alignment stands in for the opening (R708, R898). -/
def State.alignOrOpen (s : State) : State :=
  match s.cfg.detMode with
  | .timing =>
    (s.modDet fun d => { d with align := 1, alignAt := s.sys.ltc, alignBoot := true }).holdAdm 3
  | .off | .bits => s.openUp

/-- ZEROING_DONE (R468, R896): every bound slice holds zeros with fresh check symbols, the stale bitmap is cleared, and
admission opens, or the alignment starts. While shut-down is latched no channel runs and nothing is written (R580; DEDUCED,
log 66). -/
def execZeroingDone (s : State) : Res :=
  .next <|
    if s.sys.phase != .zeroing || s.det.align != 0 || s.sys.rstEnd then s
    else
      let ps := s.boundSlices
      let s1 : State := if s.therm.latch then s else { s with mem := Tab.drop (fun k => ps.contains (keyPs k)) s.mem }
      (s1.modFab fun f => { f with stale := [] }).alignOrOpen

end Sys2Proof.Machine
end

