-- ==== Sys2Proof/Machine/Resets.lean ====
section
/-! DEFINITION. Warm reset: what its assertion ends, keeps and drains, and what its release restarts (R402, R484, R511,
R575, R580, R762, R770, R775, R789, R811, R883 to R888, R898). -/

namespace Sys2Proof.Machine

/-! ### Assertion (R885) -/

/-- A row op in progress completes; the launch ends without a response (R484, R885 step 2). -/
def State.endRowOp (s : State) (p : Nat) : State :=
  let q := (s.slice p).brew
  match q.op with
  | some w => if isRowOp w && !q.stopped && !s.therm.latch then s.opEffect p w else s
  | none => s

/-- Every write buffer of an island is drained to the arrays (R885 step 3); a correction that waited is counted and charged (R662,
R667), and a narrow read-buffer line of a written access goes (R105). -/
def State.drainWrites (s : State) (p : Nat) : State :=
  let d := (s.slice p).dat
  let s0 := s.each d.corr fun s _ => (s.stat p 26 1).lateCharge 40 5 64
  (s0.each (d.corr ++ d.wb ++ d.fow) fun s w => s.setCode (keyOf p w.bank w.row w.col) w.code).modDat p fun d =>
    { (d.fow.foldl (fun d w => d.dropNarrow w.bank w.row w.col) d) with corr := [], wb := [], fow := [] }

/-- All write data of an entry has come. -/
def Entry.dataHere (e : Entry) : Bool :=
  match e.kind with
  | .wr | .wrPartial => decide ((e.units + 1) / 2 ≤ e.wdat.length)
  | .writeBulk => e.accs.all e.bulkReady
  | _ => false

/-- One access of a write takes effect: its bytes with fresh check symbols, over what the arrays hold. -/
def State.writeNow (s : State) (e : Entry) (a : Acc) : State :=
  let w := e.writeFor a
  if w.2 = 0 then s
  else s.setCode a.key (rsEncode (mergeLine (dataOf (rsDecode (s.code a.key) (s.slice a.ps).link.erasures).code) w.1 w.2))

/-- Every other write may or may not have taken effect (R884; free value, DEDUCED, log 29): access by access. -/
def State.maybeWrites (s : State) : State :=
  if s.therm.latch then s
  else
    let l := (s.fab.trk.filter fun e => e.fin.isNone && e.dataHere).flatMap fun e =>
      (e.accs.filter fun a => a.st.isNone).map fun a => (e, a)
    (List.range l.length).foldl (fun t i =>
      match l[i]? with
      | some ea => if Config.freePick (s.sys.free + i) % 2 = 0 then t else t.writeNow ea.1 ea.2
      | none => t) { s with sys := { s.sys with free := s.sys.free + l.length } }

/-- The bundle at a warm reset: SRE, when the slice ran, and SB_CKE low (R885). A pass that no CAL_DUE asks for ends with its
CAL_RUN, so the next one starts anew (R641, R644, R649). -/
def Link.warm (l : Link) (ran : Bool) (t : Nat) : Link :=
  let l1 := { (if ran then l.send t false (rowHalf 4 0) else l) with cke := false, calAct := false, calCmd := false }
  if l.calDue then l1 else { l1 with calPos := 0, calHold := false, calList := [] }

/-- A channel island in reset: its queues, windows, buffers and caches are empty, its banks precharged, its slice in
self-refresh (R511, R885 steps 3 to 5). STS_REF and STS_SCRUB return to their reset values, since they do not say that they keep
them (R12, R537, R703). The endpoint keeps its in-bank registers. -/
def Slice.warm (x : Slice) : Slice :=
  { x with
    sch := { Sched.reset with cclk := x.sch.cclk, stop := x.sch.stop }
    dat := { ChData.reset with nextIx := x.dat.nextIx }
    bt := { x.bt with tim2 := x.bt.tim, banks := [], faw := [], okActAny := 0, okCol := 0, okRd := 0, okWr := 0, okAny := 0 }
    brew := { BrewSeq.reset with mask := x.brew.mask, regs := x.brew.regs }
    rf := { x.rf with
      selfRef := x.rf.selfRef || x.rep.inServ, band := 0, subst := false
      rbanks := Tab.mapVals RefBank.reset (fun _ b => { b with owed := 0, pulled := 0, n := 0, fdec := 0, rows := [] }) x.rf.rbanks }
    link := x.link.warm (x.rep.inServ && !x.rf.selfRef) (x.bt.restAt x.sch.cclk)
    scr := Scrub.reset
    rep := { x.rep with testing := false, repairs := [], repWait := [] }
    temp := 0x8000
    level := if x.level = 3 then 3 else 0 }

/-- The fabric in reset: what the next start needs stays (R883), with the requester-down lines as driven. -/
def Fab.warm (f : Fab) : Fab :=
  { Fab.reset with
    nextId := f.nextId, stale := f.stale, staleBad := f.staleBad, progs := f.progs
    lines := f.lines, down := f.lines, masked := f.lines, drained := f.lines
    thrEnd := f.thrEnd, thF := f.thF, period := f.period, sampled := f.sampled }

/-- Thermal protection at a warm reset (R575): grace and enforcement are cancelled. TLM_SENS VALUE and DEV and HOT_SLICE return
to their reset values, since their registers do not say that they keep them (R12, R547, R586). -/
def State.warmTherm (s : State) : State :=
  let s1 := if s.therm.enforce then s.event .thermEnforce 0 0 else s
  s1.modTherm fun t =>
    { t with sens := Tab.mapVals Sensor.reset (fun _ x => { x with value := 0x8000, dev := false, devcnt := 0 }) t.sens
             hotSlice := 0, thrReq := false, graceStart := none, graceLate := false, enforce := false }

/-- Determinism at a warm reset (R883): every stream restarts as a key change does, queues empty, latch and hold clear. -/
def State.warmDet (s : State) : State :=
  s.modDet fun d =>
    { Det.reset with
      mode := d.mode, pd := d.pd
      streams := (List.range 16).foldl (fun t i => Tab.set Stream.reset t i (Stream.restart (s.cfg.digKeyAt i))) [] }

/-- Migration state at a warm reset: a REBIND whose zeroing has not finished is abandoned, and its slice is a free spare
again (R888); candidates of a dropped MIGRATE command go with it, and a migration that it started goes on without it (R762, R883).
-/
def State.warmStack (s : State) : State :=
  let rb := s.stk.migs.filter (·.rebind)
  let s1 := s.each rb fun s m => s.modSlice m.new fun x =>
    { x with rf := { x.rf with selfRef := true, refOn := false }
             link := { x.link.send (x.bt.restAt x.sch.cclk) false (rowHalf 4 0) with cke := false, state := if x.link.narrow then .narrow else .active } }
  s1.modStk fun k => { k with migs := (k.migs.filter (!·.rebind)).map fun m => { m with cmd := false }, cands := k.cands.filter fun c => c.cause != 4 }

/-- The rest of the sequence: what a warm reset clears, the ports and landing port with their credits, the mode change,
the mailbox and the ring (R883, R885). -/
def State.warmCleared (s : State) : State :=
  let s1 : State := { s with
    slices := Tab.mapVals Slice.reset (fun _ x => x.warm) s.slices
    fab := s.fab.warm, ports := [], blp := Blp.reset, mc := none, mbx := Mbx.reset }
  let s2 := (s1.modCtl fun c => { c with ltcCap := 0, tlmSel := 0, tlmCap := 0, tlmSlot := none, words := [] }).modRing fun r =>
    { r with present := false, members := [], chunks := [], gang := none, aggs := [], gdone := [], gprev := [] }
  s2.emptyIcqs.modSys fun y =>
    { y with rstEnd := true, rstDue := false, phase := .romBoot, ready := false, entering := false, wakeSeen := false }

/-- The sequence of R885, whole. -/
def State.warmReset (s : State) : State :=
  let s1 := s.each (List.range 144) fun s p => ((s.endRowOp p).drainWrites p).calYield p
  s1.maybeWrites.settleBands.warmTherm.warmDet.warmStack.warmCleared

/-- KX_RST_N_ASSERT (R811, R882 to R885): the warm-reset sequence; in the commit window of a mode change it waits for the
end of the window. -/
def execKxRstNAssert (s : State) : Res :=
  .next <|
    if !s.sys.porN || !s.sys.rstN then s.modSys fun y => { y with rstN := false }
    else
      let s1 := s.modSys fun y => { y with rstN := false }
      let window := match s.mc with
        | some m => m.committed
        | none => false
      if window then s1.modSys fun y => { y with rstDue := true } else s1.warmReset

/-! ### Release (R886) -/

/-- SRX of a slice: O and P become 0 (R511), tXS runs (R247), its band is MIN_MULT at the lowest (R491), its scrub pass starts
at row 0 (R12, R703), and the bundle works again with the trims that it last used. -/
def State.wakeWarm (s : State) (p : Nat) : State :=
  ((((s.modLink p fun l => { l with cke := true }).sendRow p 5 0).srxRefresh p).floorBand p).newScrub p

/-- A channel that was in a full retrain starts it again, with its original cause (R886 step 5). -/
def State.againRetrain (s : State) (p : Nat) : State :=
  let l := (s.slice p).link
  if l.state != .retrain then s
  else
    let s1 := s.modSlice p fun x =>
      { x with link := { x.link with state := if x.link.narrow then .narrow else .active }
               rf := if l.cause = 5 then { x.rf with selfRef := false } else x.rf }
    s1.startRetrain p l.cause

/-- Start-up again, for a warm reset before READY has first been 1 (R887): the LTC, the event log, the counters, the rounds
and the staging buffer keep their values; failed bonds stay failed (R602), and with the shut-down latch set the channels stay
stopped (R580). -/
def State.restart (s : State) : State :=
  let f := s.cleared
  let s1 : State := { f with
    sys := { f.sys with ltc := s.sys.ltc, fabLag := s.sys.fabLag, fabHeld := s.sys.fabHeld, porN := true, free := s.sys.free }
    evt := s.evt, therm := s.therm
    ctl := { f.ctl with tlm := s.ctl.tlm, icqs := s.ctl.icqs, staging := s.ctl.staging, win := s.ctl.win }
    slices := Tab.mapVals Slice.reset (fun _ x =>
      { Slice.reset with
        lag := x.lag, lagHeld := x.lagHeld, level := x.level, temp := x.temp,
        sch := { Sched.reset with cclk := x.sch.cclk, stop := s.therm.latch }
        link := { Link.reset with failed := x.link.failed, calLtc := x.link.calLtc, calTemp := x.link.calTemp, calCnt := x.link.calCnt, trained := x.link.trained } }) s.slices }
  match s.sys.env with
  | some e => s1.startUp e
  | none => s1

/-- The sequence of R886, whole: the image in force is written into every unit but the program store, slices leave
self-refresh unless the latch is set (R580), meters start at their initial state, and admission opens, or the alignment
starts (R898). -/
def State.warmRelease (s : State) : State :=
  let s0 := s.modSys fun y => { y with rstEnd := false }
  if !s0.sys.everReady then s0.restart
  else
    let c := (s0.stk.clampCfg (cfgOfImage s0.cfg.image)).1
    let s1 := (s0.writeCfg c).initMeters (List.range 48)
    let live := s1.boundSlices ++ (s1.stk.migs.map (·.new))
    let phys := s1.each ((List.range 144).filter fun p => (s1.slice p).rep.inServ) fun s p => s.modLink p fun l => { l with phy := true }
    let s2 := if s1.therm.latch then s1 else phys.each live State.wakeWarm
    let s3 := s2.alignOrOpen
    let s4 := s3.modSys fun y => { y with frost := false }
    if s4.therm.latch then s4 else s4.each (List.range 144) State.againRetrain

/-- KX_RST_N_RELEASE (R886, R887): the release sequence, once the sequence of R885 has ended. -/
def execKxRstNRelease (s : State) : Res :=
  .next <|
    let s1 := s.modSys fun y => { y with rstN := true }
    if s.sys.porN && s.sys.rstEnd then s1.warmRelease else s1

/-- A warm reset that waited for the end of a mode change takes effect, and its release with it where KX_RST_N is 1 again
(R811). -/
def State.rstAfter (s : State) : State :=
  if !s.sys.rstDue || s.mc.isSome then s
  else
    let s1 := s.warmReset
    if s.sys.rstN then s1.warmRelease else s1

end Sys2Proof.Machine
end

