-- ==== Sys2Proof/Machine/ModeChange.lean ====
section
/-! DEFINITION. The commit boundary of a two-phase mode change, its commit window, and the time-out of its prepare phase
(R198 to R201, R253, R707, R709, R744, R805 to R811, R817, R859). -/

namespace Sys2Proof.Machine

/-- What a change replaces. -/
def State.undoOf (s : State) : Undo :=
  ⟨s.cfg, s.fab.progs, s.ctl.srcImg, s.ctl.cause, s.ctl.defaulted, s.det.pd, s.det.mode, s.det.aligned, s.det.streams, s.det.own,
    s.det.peer, s.fab.meters, s.fab.buckets⟩

/-- A rate change goes on: the shadow set is active, SRX has been sent so early that tXS is met now, and O and P are 0 (steps
6 and 7 of R253, R247, R511). -/
def State.rateGo (s : State) (p : Nat) : State :=
  ((s.sendRow p 5 0).srxRefresh p).modBt p fun b => { b with okAny := (s.slice p).sch.cclk }

/-- Every bundle in service uses its trims of the new rate point (step 5 of R253, R638 to R640). -/
def State.rateTrims (s : State) : State :=
  s.each ((List.range 144).filter fun p => (s.slice p).rep.inServ) fun s p => (s.takeTrims p).dueIfDerived p

/-- A channel period or sampling interval that has begun and that its row has not met yet is met before the times are counted anew
(R293, R312). -/
def State.meetPeriods (s : State) : State := if s.fabLive then s.periodStart.queueSample else s

/-- Every unit applies its shadow at the commit boundary (R808); the holds of its commit window, which every channel knows
from the prepare, begin there (R809). -/
def State.commitChange (s : State) (m : ModeChg) : State :=
  let s := s.meetPeriods
  let u := s.undoOf
  let held : List Nat := match m.what with
    | .cfg | .restore => s.slicesChanged s.cfg.regions m.cfg.regions
    | .rate => if m.rate = s.sys.rate then [] else s.boundSlices
    | .det => []
  let s0 := s.settleAll
  let s1 : State := match m.what with
    | .cfg =>
      let t := (s0.applyCfg m.cfg).modFab fun f => { f with progs := m.cfg.progs }
      (t.modCtl fun c => { c with srcImg := 3, cause := 0, defaulted := false }).newPd.rebase
    | .restore => (s0.applyCfg m.cfg).rebase.applyCtx m.ctx
    | .rate => s0
    | .det =>
      let t := s0.settleBands
      let n := match m.det with | .off => 0 | .bits => 1 | .timing => 2
      let t1 : State := { t with cfg := { t.cfg with det := BitVec.ofNat 32 (fld t.cfg.det 2 30 * 4 + n) } }
      (t1.modDet fun d => { d with mode := m.det, aligned := false }).rebase
  let s2 := s1.each held fun s p => s.noteWord (.hold p)
  { s2 with mc := some { m with committed := true, commitAt := s.sys.ltc, undo := some u, held := held } }

/-- MODECHG_COMMIT (R808, R719, R859): at the commit boundary every unit applies its shadow and the commit window
begins. Lines of reshaped regions that were updated since the prepare are written back first; one that finds no write-buffer entry
keeps its unit's acknowledgement back (R199, R400, R935). -/
def execModechgCommit (s : State) : Res :=
  .next <|
    match s.mc with
    | some m =>
      if s.changeDue m then
        let s1 := s.changeBack m
        if s1.backDone m then s1.commitChange m else s1
      else s
    | none => s

/-- The channels that a rate change holds are in self-refresh, or take no commands at all (step 4 of R253). -/
def State.quiet (s : State) (m : ModeChg) : Bool :=
  match m.what with
  | .rate => m.held.all fun p => !s.sliceLive p
  | .cfg | .restore | .det => true

/-- COMMIT_WINDOW_END (R253, R810, R811): once a rate change's channels are quiet, the held channels are released, MODECHG
clears and the command completes; a warm reset that waits for the end takes effect instead. -/
def execCommitWindowEnd (s : State) : Res :=
  .next <|
    match s.mc with
    | none => s
    | some m =>
      if !m.committed || !s.quiet m then s
      else
        let s1 := match m.what with
          | .rate =>
            let t := (s.modSys fun y => { y with rate := m.rate }).each (List.range 144) fun s p =>
              s.modBt p fun b => { b with tim := b.tim2 }
            if m.rate = s.sys.rate then t else t.rateTrims.each m.held State.rateGo
          | .cfg | .restore | .det => s
        let s2 : State := { s1.each m.held State.unholdChan with mc := none }
        if s.sys.rstDue then s2.rstAfter else s2.changeAnswer m eOk

/-- MODECHG_PREPARE_TIMEOUT (R806): 1 ms after PREPARE a unit has not acknowledged: the change is aborted. -/
def execModechgPrepareTimeout (s : State) : Res :=
  .next <|
    match s.mc with
    | some m =>
      if m.committed || m.ackd || s.sys.ltc < m.start + 400000 then s else s.abortChange eAborted
    | none => s

end Sys2Proof.Machine
end

