-- ==== Sys2Proof/Machine/MbxChg.lean ====
section
/-! DEFINITION. CFG_COMMIT, RATE_SET and DET_SET, and the prepare phase that they start on this instance and, for the
master of a gang, on its members (R252, R708, R790, R804 to R807, R816, R817, R820 to R824, R858, R859). -/

namespace Sys2Proof.Machine

/-! ### Starting a change (R805, R859) -/

/-- IMAGE frames of an image, 64 B each (R855, R859). -/
def State.imageFrames (s : State) (ws : List Word) : List (List (BitVec 16)) :=
  (List.range ((ws.length + 15) / 16)).map fun i =>
    ringFrame 2 s.ring.id s.ring.id (BitVec.ofNat 16 i :: ((List.range 16).flatMap fun j => words16 2 (ws.getD (16 * i + j) 0).toNat))

/-- The PREPARE frame of a gang transaction (R855). -/
def State.prepareFrame (s : State) (g : Gang) : List (BitVec 16) :=
  ringFrame 3 s.ring.id s.ring.id ([g.xid, g.op.setWidth 16] ++ words16 2 g.arg.toNat ++ words16 2 g.crc.toNat)

/-- A change of this instance is carried to the other members of its gang (R858). -/
def State.carries (s : State) : Bool := s.isMaster && s.gangOn && !s.gangOthers.isEmpty

/-- The prepare phase of a change starts; for the master of a gang it starts on every member too (R858, R859). -/
def State.beginChange (s : State) (m : ModeChg) (op : BitVec 8) (arg crc : Word) (img : List Word) : State :=
  if s.isMaster && s.gangOn then
    let x := s.ring.xid + 1
    let g : Gang := ⟨x, s.ring.id, op, arg, crc, s.gangOthers, 0, 8, false, s.sys.ltc⟩
    let s1 := s.modRing fun r => { r with xid := x }
    ((s1.startChange { m with gang := some g }).ringSend (s1.imageFrames img ++ [s1.prepareFrame g]))
  else s.startChange m

/-! ### CFG_COMMIT (R816, R817) -/

/-- A slot whose contents a configuration changes is in use (R431, R816). -/
def State.changesUsed (s : State) (progs : Tab (List OpWord)) : Bool :=
  (List.range 64).any fun i => Tab.get [] progs i != s.fab.prog i && s.fab.slotInUse i

/-- The checks of R816 on the image in a buffer: the code of the first that fails, or its configuration. -/
def State.commitCheck (s : State) (t : Tab Word) : BitVec 8 ⊕ Cfg :=
  match checkImage t false (some s.det.mode) s.stk with
  | .inl e => .inl e
  | .inr c =>
    if s.movesStale c.regions then .inl eState
    else if c.patch ≠ s.cfg.patch then .inl eState
    else if s.changesUsed c.progs then .inl eBusy
    else .inr c

/-- CFG_COMMIT (R816, R817, R807). -/
def State.cmdCfgCommit (s : State) : State :=
  s.checked [] [(s.noChannels, eState), (s.modechg, eBusy)] fun s =>
    match s.commitCheck s.ctl.staging with
    | .inl e => s.finish e []
    | .inr c =>
      let ws := imageWords s.ctl.staging
      s.beginChange { ModeChg.reset with what := .cfg, cfg := c, opc := 0x10 } 0x10 (BitVec.ofNat 32 c.len) c.crc ws

/-- CFG_COMMIT. -/
def execCfgCommit (s : State) : Res := .next (s.doorbell 0x10 false State.cmdCfgCommit)

/-! ### RATE_SET (R252, R820) -/

/-- A full retrain of some channel runs. -/
def State.anyRetrain (s : State) : Bool := (List.range 144).any fun p => (s.slice p).link.state == .retrain

/-- A RATE_SET is held (R252): start-up or a full retrain is in progress. -/
def State.rateWaits (s : State) : Bool := !s.sys.ready || s.anyRetrain

/-- RATE_SET is not allowed in the present state (R252, R801, R820). The alignment of a start-up is part of the start-up, so a
RATE_SET in it is held. -/
def State.rateBad (s : State) : Bool :=
  s.therm.latch || s.det.mode == .timing || (s.det.align != 0 && !s.det.alignBoot) ||
    match s.sys.phase with
    | .romBoot | .negotiation | .frost | .thaw => true
    | .training | .zeroing | .running => false

/-- The prepare of a rate change starts (step 1 of R253). -/
def State.startRate (s : State) (rate : Nat) (pend : Bool) : State :=
  s.beginChange { ModeChg.reset with what := .rate, rate := rate, opc := 0x20, pend := pend } 0x20 (BitVec.ofNat 32 rate) 0 []

/-- RATE_SET (R252, R800, R807, R820). The rate point in force is answered E_OK at once, during start-up or a retrain too: of
the two rows of R252 that then hold, this one goes first (DESIGN CHOICE, log 69). The master of a gang carries it to the
members all the same (R858). A command that would start its prepare meets a running change with E_BUSY. -/
def State.cmdRateSet (s : State) : State :=
  let r := s.argf 0 0 2
  let same := r == s.sys.rate && !s.carries
  let starts := !same && !s.rateWaits
  s.checked [3] [(s.rateBad, eState), (s.isPending 0x20 || (starts && s.modechg), eBusy), (!s.stk.rates.testBit r, eNotsup)] fun s =>
    if same then s.finish eOk [BitVec.ofNat 32 r]
    else if s.rateWaits then s.finishPending []
    else s.startRate r false

/-- RATE_SET. -/
def execRateSet (s : State) : Res := .next (s.doorbell 0x20 false State.cmdRateSet)

/-- A PENDING RATE_SET whose condition has cleared starts its prepare (R252, R807, R821). -/
def State.pendingRate (s : State) : State :=
  match s.mbx.pending.find? fun c => c.op == 0x20 with
  | none => s
  | some c =>
    if s.rateWaits || s.modechg || s.therm.latch then s
    else
      let r := fld (c.args.headD 0) 0 2
      if r = s.sys.rate && !s.carries then s.endPending 0x20 eOk else s.startRate r true

/-! ### DET_SET (R708, R822 to R824) -/

/-- The mode that MODE names. -/
def modeOf (n : Nat) : DetMode := if n = 0 then .off else if n = 1 then .bits else .timing

/-- A change to DET_TIMING is not allowed in the present state (R822). -/
def State.timingBad (s : State) : Bool := s.isPending 0x20 || !s.stk.migs.isEmpty || s.anyRetrain || s.isPending 0x41

/-- DET_SET (R822, R807): a two-phase change, which the master of a gang carries to the members also where it has the mode already
(R858), or the alignment (R713). R351 rejects unequal EXP_SAT for DET_TIMING as for
DET_BITS, though the table of R822 names DET_BITS only (DEDUCED, log 33). -/
def State.cmdDetSet (s : State) : State :=
  let n := s.argf 0 0 2
  let same := n != 2 && modeOf n == s.det.mode && !s.carries
  s.checked [3] [(n == 3, eRange), (s.noChannels || (n == 2 && s.timingBad), eState), (!same && s.modechg, eBusy)] fun s =>
    if n = 2 then
      if !s.cfg.satEqual then s.finish eBadarg []
      else
        ((s.modDet fun d => { d with align := 1, alignAt := s.sys.ltc, alignBoot := false }).holdAdm 3).setRun ⟨0x21, 2, 0, [], []⟩
    else if same then s.finish eOk [BitVec.ofNat 32 n]
    else if n = 1 && !s.cfg.satEqual then s.finish eBadarg []
    else s.beginChange { ModeChg.reset with what := .det, det := modeOf n, opc := 0x21 } 0x21 (BitVec.ofNat 32 n) 0 []

/-- DET_SET. -/
def execDetSet (s : State) : Res := .next (s.doorbell 0x21 false State.cmdDetSet)

end Sys2Proof.Machine
end

