-- ==== Sys2Proof/Machine/MbxMem.lean ====
section
/-! DEFINITION. Mailbox commands that issue memory accesses: ACC_FLUSH, BREW_LOAD, RESEAL, DIGEST_REGION, SAVE_CONTEXT and
RESTORE_CONTEXT (R400, R426 to R431, R476, R732 to R734, R742 to R745, R825 to R828, R838, R840, R841). Their accesses go
through the tracker, the meters and the channels as those of subscribers 43, 46 and 47; Preid goes on with a command at the
LTC ticks that pass (DESIGN CHOICE, log 1). -/

namespace Sys2Proof.Machine

/-! ### ACC_FLUSH (R825) -/

/-- REGION or ALL of ACC_FLUSH and RESEAL: the regions that the command names. -/
def State.namedRegions (s : State) (ok : BitVec 256 → Bool) : List Nat :=
  (List.range 64).filter fun i => ok (regionAt s.cfg.regions i) && (s.argf 0 8 1 == 1 || s.argf 0 0 6 == i)

/-- With ALL 0 the region must be of the kind that the command serves. -/
def State.namedBad (s : State) (ok : BitVec 256 → Bool) : Bool := s.argf 0 8 1 == 0 && !ok (regionAt s.cfg.regions (s.argf 0 0 6))

/-- With ALL 1 the REGION field must be 0. -/
def State.allBad (s : State) : Bool := s.argf 0 8 1 == 1 && s.argf 0 0 6 != 0

/-- An enabled ACCUM region. -/
def isAccum (r : BitVec 256) : Bool := rEn r && rType r == 2

/-- Places of the lines that wait to be written back. -/
def State.linesOut (s : State) : List Key :=
  (List.range 144).flatMap fun p => ((s.slice p).dat.lines.filter fun l => l.out.isSome).map fun l => keyOf p l.bank l.row l.col

/-- The ACC_FLUSH command completes once the last of its write-backs, whose places it holds, has entered its write buffer
(R124, R825). -/
def State.flushCheck (s : State) : State :=
  match s.running 0x30 with
  | some r => if s.linesOut.all fun k => !r.todo.contains k then s.finish eOk [BitVec.ofNat 32 r.a] else s
  | none => s

/-- ACC_FLUSH (R825): every dirty line of the region, or of the instance, is written back and stays, clean. -/
def State.cmdAccFlush (s : State) : State :=
  s.checked [0x13F] [(s.allBad, eBadarg), (s.noChannels, eState), (s.namedBad isAccum, eBadarg)] fun s =>
    let rs := (s.namedRegions isAccum).map (regionAt s.cfg.regions)
    let pick (p : Nat) (l : AccLine) : Bool := s.argf 0 8 1 == 1 || rs.any (s.lineIn p l)
    let n := ((List.range 144).map fun p => ((s.slice p).dat.lines.filter fun l => pick p l && l.dirty).length).sum
    let s1 := s.writeBackAll pick true
    let mine := (List.range 144).flatMap fun p =>
      ((s.slice p).dat.lines.filter fun l => pick p l && l.dirty).map fun l => keyOf p l.bank l.row l.col
    (s1.setRun ⟨0x30, n, 0, s1.linesOut.filter mine.contains, []⟩).flushCheck

/-- ACC_FLUSH. -/
def execAccFlush (s : State) : Res := .next (s.doorbell 0x30 true State.cmdAccFlush)

/-! ### RESEAL (R476, R828) -/

/-- An enabled PINNED region. -/
def isPinned (r : BitVec 256) : Bool := rEn r && rType r == 3

/-- RESEAL (R828): a sweep over the stale rows of one PINNED region or of all. -/
def State.cmdReseal (s : State) : State :=
  s.checked [0x13F] [(s.allBad, eBadarg), (s.noChannels, eState), (s.namedBad isPinned, eBadarg)] fun s =>
    (s.setRun ⟨0x32, 0, 0, s.namedRegions isPinned, [0]⟩).resealCheck

/-- RESEAL. -/
def execReseal (s : State) : Res := .next (s.doorbell 0x32 true State.cmdReseal)

/-! ### Reads of BREW_LOAD and RESTORE_CONTEXT (subscriber 46) -/

/-- Address of op word 0 of BREW_LOAD (R826). -/
def State.loadAddr (s : State) : Nat := (s.arg 1).toNat + s.argf 2 0 5 * 2 ^ 32

/-- First 64 B unit that a command reads, and how many. -/
def State.readSpan (s : State) (op : BitVec 8) : Nat × Nat :=
  if op = 0x31 then (s.loadAddr / 64 * 64, (s.loadAddr % 64 + 8 * s.argf 0 16 9 + 63) / 64)
  else (rLo (regionAt s.cfg.regions (s.argf 0 0 6)), (ctxLen + 63) / 64)

/-- The next read of such a command is admitted: at most 32 units. A read that does not pass the checks of R107 ends the
command as one whose status is not OK (R827, R841). -/
def State.readNext (s : State) (r : RunCmd) : State :=
  let sp := s.readSpan r.op
  let got := r.vals.length / 8
  let a := sp.1 + 64 * got
  match s.workAccs a (min 32 (sp.2 - got)) with
  | .inr _ => s.finish eCheck []
  | .inl accs => s.addWork 46 .digestWork (regionAt s.cfg.regions ((findRegion s.cfg.regions a).getD 0)) a accs []

/-- BREW_LOAD with its program read (checks 4 and 5 of R827). The slot may have come into use meanwhile (R431; DEDUCED,
log 30). -/
def State.loadProgram (s : State) (ws : List Nat) : State :=
  let i := s.argf 0 0 6
  let prog : List OpWord := ((ws.drop (s.loadAddr % 64 / 8)).take (s.argf 0 16 9)).map (BitVec.ofNat 64)
  if crc32c (prog.flatMap fun w => toBytes 8 w.toNat) ≠ (s.arg 3).toNat then s.finish eCheck []
  else if s.fab.slotInUse i then s.finish eBusy []
  else if !programOk prog then s.finish eBadarg []
  else if !s.stk.opsAvailable prog then s.finish eNotsup []
  else (s.modFab fun f => { f with progs := Tab.set [] f.progs i prog }).newPd.finish eOk []

/-- RESTORE_CONTEXT with its image read (R744, R200, R841): the checks, then the two-phase change. -/
def State.restoreImage (s : State) (ws : List Nat) : State :=
  let c : List (BitVec 64) := ws.map (BitVec.ofNat 64)
  match (if s.modechg then some eBusy else s.ctxError c) with
  | some e => s.finish e []
  | none =>
    if s.movesStale (ctxRegions c) then s.finish eState []
    else
      let s1 := s.modMbx fun m => { m with run := none }
      s1.startChange { ModeChg.reset with what := .restore, cfg := { s.cfg with regions := ctxRegions c }, ctx := c, opc := 0x61 }

/-- A read of such a command has ended. -/
def State.readGot (s : State) (r : RunCmd) (e : Entry) : State :=
  if worstOf (e.accs.filterMap (·.st)) ≠ .ok then s.finish eCheck []
  else
    let ws := r.vals ++ (List.range e.units).flatMap fun u => words64 8 (unitData e.rent e.sat e.accs e.off u).toNat
    if (s.readSpan r.op).2 ≤ ws.length / 8 then (if r.op = 0x31 then s.loadProgram ws else s.restoreImage ws)
    else s.setRun { r with vals := ws }

/-- BREW_LOAD (R826, R827): NOPS 0 empties the slot. -/
def State.cmdBrewLoad (s : State) : State :=
  let n := s.argf 0 16 9
  let a := s.loadAddr
  let i := s.argf 0 0 6
  let empty := n == 0
  let inPlain := match findRegion s.cfg.regions a with
    | some x =>
      let r := regionAt s.cfg.regions x
      rType r == 0 && decide (a + 8 * n ≤ rLo r + rS r)
    | none => false
  s.checked [0x1FF003F, 0xFFFFFFFF, 0x1F, 0xFFFFFFFF]
      [(empty && (s.arg 1 != 0 || s.arg 2 != 0 || s.arg 3 != 0), eBadarg), (decide (256 < n) || a % 8 != 0, eRange),
        (s.noChannels, eState), (!empty && !inPlain, eBadarg), (s.fab.slotInUse i, eBusy)] fun s =>
    if empty then (s.modFab fun f => { f with progs := Tab.set [] f.progs i [] }).newPd.finish eOk []
    else s.setRun ⟨0x31, i, n, [], []⟩

/-- BREW_LOAD. -/
def execBrewLoad (s : State) : Res := .next (s.doorbell 0x31 true State.cmdBrewLoad)

/-- RESTORE_CONTEXT (R841). -/
def State.cmdRestoreContext (s : State) : State :=
  s.checked [0x3F] [(s.noChannels, eState)] fun s => s.setRun ⟨0x61, s.argf 0 0 6, 0, [], []⟩

/-- RESTORE_CONTEXT. -/
def execRestoreContext (s : State) : Res := .next (s.doorbell 0x61 true State.cmdRestoreContext)

/-! ### DIGEST_REGION (R733, R734, R838) -/

/-- The region entry whose bytes the digest covers, and how many: a PACKED region is read as the PLAIN view (R734). -/
def digestView (r : BitVec 256) : BitVec 256 × Nat :=
  if rType r = 1 then (BitVec.ofNat 256 (r.toNat - 2), rN r * rB r * 65536) else (r, rS r)

/-- Merkle Tree Hash of RFC 6962 over leaves of 8 B, with SHA-256 (R733). -/
def merkle : Nat → List Nat → List Nat
  | 0, _ => sha256 []
  | n + 1, l =>
    match l with
    | [] => sha256 []
    | [x] => sha256 (0 :: toBytes 8 x)
    | _ :: _ :: _ =>
      let k := 2 ^ Nat.log2 (l.length - 1)
      sha256 (1 :: (merkle n (l.take k) ++ merkle n (l.drop k)))

/-- The region digest is complete (R733, R838). -/
def State.digestDone (s : State) (r : RunCmd) : State :=
  let d : BitVec 256 := BitVec.ofNat 256 (ofBytes (merkle 32 r.vals))
  (s.modStream r.a fun x => { x with rd := d, rdv := true }).finish eOk
    (((List.range 8).map fun w => BitVec.ofNat 32 (d.toNat / 2 ^ (32 * w))) ++ [BitVec.ofNat 32 r.vals.length, BitVec.ofNat 32 r.b])

/-- The next block's read is admitted, or the digest is complete. -/
def State.digestNext (s : State) (r : RunCmd) : State :=
  let g := regionAt s.cfg.regions (s.argf 0 0 6)
  let v := digestView g
  let o := 4096 * r.vals.length
  if v.2 ≤ o then s.digestDone r
  else
    let accs := if rType g = 1 then accsOf s.stk v.1 o 64 else s.readAccs (s.argf 0 0 6) o 64
    if s.therm.latch || s.fencedAcc accs then s.finish eAborted [] else s.addWork 47 .digestWork v.1 (rLo v.1 + o) accs []

/-- A block's read has ended: its leaf over all 512 words (R724, R733). -/
def State.digestGot (s : State) (r : RunCmd) (e : Entry) : State :=
  let st := e.accs.filterMap (·.st)
  if st.any fun x => x == .fault || x == .fenced || x == .thermstop then s.finish eAborted []
  else
    let ws := (List.range 64).flatMap fun u => words64 8 (unitData e.rent false e.accs e.off u).toNat
    let leaf := leafOf (s.stream r.a).key.toNat 0 ws
    s.setRun { r with vals := r.vals ++ [leaf], b := r.b + b2n (st.contains .ue) }

/-- DIGEST_REGION (R838). -/
def State.cmdDigestRegion (s : State) : State :=
  let r := regionAt s.cfg.regions (s.argf 0 0 6)
  s.checked [0xF3F] [(s.noChannels, eState), (!rEn r, eBadarg), (rRounded r, eNotsup)] fun s =>
    s.setRun ⟨0x51, s.argf 0 8 4, 0, [], []⟩

/-- DIGEST_REGION. -/
def execDigestRegion (s : State) : Res := .next (s.doorbell 0x51 true State.cmdDigestRegion)

/-! ### SAVE_CONTEXT (R742, R840) -/

/-- STS_STALE_ROWS of some region is above 0 (R742). -/
def State.anyStale (s : State) : Bool :=
  (List.range 64).any fun i => s.fab.stale.any fun k => pinnedHolds (regionAt s.cfg.regions i) (k / (32 * 16384)) (k % 16384)

/-- SAVE_CONTEXT (R742, R840): subscribers 0 to 36 are held at admission. -/
def State.cmdSaveContext (s : State) : State :=
  let r := regionAt s.cfg.regions (s.argf 0 0 6)
  s.checked [0x3F]
      [(s.noChannels || s.anyStale, eState), (!rEn r || rType r != 0 || rWp r || decide (rS r < ctxLen), eBadarg)] fun s =>
    (s.holdAdm 1).setRun ⟨0x60, 0, 0, [s.sys.ltc], []⟩

/-- SAVE_CONTEXT. -/
def execSaveContext (s : State) : Res := .next (s.doorbell 0x60 true State.cmdSaveContext)

/-- No tracker entry of subscribers 0 to 36 is occupied and no launch is active (R742). -/
def State.portsEmpty (s : State) : Bool := s.fab.launches.isEmpty && !(s.fab.trk.any fun e => decide (e.sub ≤ 36))

/-- The hold of SAVE_CONTEXT is released and the command ends. -/
def State.saveEnd (s : State) (err : BitVec 8) (l : List Word) : State :=
  (s.freeAdm 1).finish err l

/-- SAVE_CONTEXT_DRAINED (R400, R742): the accumulation cache is written back and the image is taken; its write runs as
subscriber 46. -/
def execSaveContextDrained (s : State) : Res :=
  .next <|
    match s.running 0x60 with
    | some r =>
      if r.a ≠ 0 || !s.portsEmpty || !s.fab.hold.contains 1 then s
      else (s.writeBackAll (fun _ _ => true) true).setRun { r with a := 1, vals := s.ctxImage }
    | none => s

/-- SAVE_CONTEXT_TIMEOUT (R742): 10 ms after the hold the subscribers have not drained. -/
def execSaveContextTimeout (s : State) : Res :=
  .next <|
    match s.running 0x60 with
    | some r => if r.a ≠ 0 || s.portsEmpty || s.sys.ltc < r.todo.headD 0 + ms 10 then s else s.saveEnd eTimeout []
    | none => s

/-- The write data of `n` units from byte `o` of an image, with the bytes that the image has enabled. -/
def imageBeats (img : List Nat) (o n : Nat) : List WBeat :=
  (List.range ((n + 1) / 2)).map fun i =>
    let l := (img.drop (o + 128 * i)).take 128
    ⟨BitVec.ofNat 1024 (ofBytes l), BitVec.ofNat 128 (2 ^ l.length - 1)⟩

/-- The next piece of the image is admitted, once the write-backs have entered their write buffers (R400), or the
save is over. -/
def State.saveNext (s : State) (r : RunCmd) : State :=
  if r.a = 0 || !s.linesOut.isEmpty then s
  else if ctxLen ≤ 64 * r.b then s.saveEnd eOk [BitVec.ofNat 32 ctxLen]
  else
    let i := s.argf 0 0 6
    let g := regionAt s.cfg.regions i
    let n := min 32 ((ctxLen + 63) / 64 - r.b)
    let accs := accsOf s.stk g (64 * r.b) n
    if s.therm.latch || s.fencedAcc accs then s.saveEnd eAborted []
    else s.addWork 46 .ctxWrite g (rLo g + 64 * r.b) accs (imageBeats r.vals (64 * r.b) n)

/-- A piece of the image has been written. -/
def State.saveGot (s : State) (r : RunCmd) (e : Entry) : State :=
  if worstOf (e.accs.filterMap (·.st)) ≠ .ok then s.saveEnd eAborted [] else s.setRun { r with b := r.b + e.units }

/-! ### Preid goes on -/

/-- One step of a BUSY command with memory accesses: take the entry that has ended, whose end crosses class 7 from the fabric,
or admit the next one (R80, R81). -/
def State.memStep (s : State) (got : State → Entry → State) (next : State → State) : State :=
  match s.fab.trk.find? fun e => e.kind == .digestWork || e.kind == .ctxWrite with
  | some e => if accsSeen e.accs (s.sys.ltc - s.crossTime 7) then got ((s.freeEntry e.id).icqPass 7 1) e else s
  | none => next s

/-- The BUSY command that memory accesses keep waiting. -/
def State.memWork (s : State) : State :=
  match s.mbx.run with
  | none => s
  | some r =>
    if r.op = 0x30 then s.flushCheck
    else if r.op = 0x31 || r.op = 0x61 then s.memStep (fun s e => s.readGot r e) (fun s => s.readNext r)
    else if r.op = 0x51 then s.memStep (fun s e => s.digestGot r e) (fun s => s.digestNext r)
    else if r.op = 0x32 then s.resealCheck
    else if r.op = 0x60 then s.memStep (fun s e => s.saveGot r e) (fun s => s.saveNext r)
    else s

end Sys2Proof.Machine
end

