-- ==== Sys2Proof/Machine/Frost.lean ====
section
/-! DEFINITION. Frost and Thaw: FROST_ENTER, its drain and its time-out, KX_WAKE and the release of Thaw (R35, R400, R511,
R639, R644, R647, R721, R842 to R844, R899 to R907). -/

namespace Sys2Proof.Machine

/-! ### Entry (R842 to R844, R899) -/

/-- FROST_ENTER is not allowed in the present state (R581, R801, R842). -/
def State.frostBad (s : State) : Bool :=
  s.noChannels || !s.stk.migs.isEmpty || s.anyRetrain || s.isPending 0x41 || s.isPending 0x20

/-- FROST_ENTER (R842; steps 1 and 2 of R899): KX_FROST rises, subscribers 0 to 36 are held, calibration yields. -/
def State.cmdFrostEnter (s : State) : State :=
  s.checked [] [(s.frostBad, eState), (s.modechg, eBusy)] fun s =>
    let s1 := (s.holdAdm 2).each (List.range 144) State.calYield
    (s1.modSys fun y => { y with frost := true, entering := true, frostAt := s.sys.ltc, wakeSeen := false }).setRun ⟨0x70, 0, 0, [], []⟩

/-- FROST_ENTER. -/
def execFrostEnter (s : State) : Res := .next (s.doorbell 0x70 false State.cmdFrostEnter)

/-- The tracker is empty: no request, gather, launch or record write is left (step 3 of R899, step 2 of R713). -/
def State.trackerEmpty (s : State) : Bool := s.fab.trk.isEmpty && s.fab.launches.isEmpty && s.det.recs.isEmpty

/-- A row repair runs. Its write-back goes before the caches' own, so a drain waits for it (R389, R679; DEDUCED,
log 31). -/
def State.repairRuns (s : State) : Bool := (List.range 144).any fun p => !(s.slice p).rep.repairs.isEmpty

/-- Every write buffer of an island is drained, the corrections and lines that wait behind it too (R667, R935). -/
def State.drainAll (s : State) (p : Nat) : State :=
  let l := (s.slice p).dat.corr
  (((s.modDat p fun d => { d with corr := [] }).each l fun s w => s.corrEnter p w).drainWrites p).drainLines p

/-- A slice goes to self-refresh with SB_CKE low (step 5 of R899, step 6 of R713). -/
def State.sleepSlice (s : State) (p : Nat) : State :=
  ((s.sre p).modRf p fun r => { r with selfRef := true }).modLink p fun l => { l with cke := false }

/-- The PHYs of the bundles in service are powered or go off (R899, R904). -/
def State.powerPhys (s : State) (on : Bool) : State :=
  s.each ((List.range 144).filter fun p => (s.slice p).rep.inServ) fun s p => s.modLink p fun l => { l with phy := on }

/-- A channel is held (R243). -/
def State.anyHeld (s : State) : Bool := (List.range 144).any fun p => (s.slice p).sch.held != 0

/-- FROST_DRAINED (steps 4 to 6 of R899, R844): once admission is held, the tracker is empty and no channel is held (R244),
write-back, drain, self-refresh, a march abandoned (R931), PHASE 5 and the end of cycle-repeatability (R721); a wake edge seen
during the entry starts Thaw at once. -/
def execFrostDrained (s : State) : Res :=
  .next <|
    if !s.sys.entering || !s.fab.hold.contains 2 || !s.trackerEmpty || s.repairRuns || s.anyHeld then s
    else
      let s1 := ((s.detBreak 7).writeBackAll (fun _ _ => true) true).each (List.range 144) State.drainAll
      let s2 := ((s1.each s.boundSlices State.sleepSlice).each (List.range 144) State.marchDrop).powerPhys false
      let s3 := (s2.modSys fun y => { y with entering := false, phase := .frost, wakeSeen := false }).finish eOk []
      if s.sys.wakeSeen then s3.startThaw else s3

/-- FROST_ENTER_TIMEOUT (R843): the tracker has not emptied within 10 ms of the hold. -/
def execFrostEnterTimeout (s : State) : Res :=
  .next <|
    if !s.sys.entering || (s.trackerEmpty && s.fab.hold.contains 2) || s.sys.ltc < s.sys.frostAt + ms 10 then s
    else
      let s1 := s.freeAdm 2
      (s1.modSys fun y => { y with entering := false, frost := false, wakeSeen := false }).finish eTimeout []

/-! ### Thaw (R903 to R905) -/

/-- KX_WAKE (R581, R844, R903): a rising edge in PHASE 5 starts Thaw; one during the entry is remembered; with the latch
set it is ignored. -/
def execKxWake (level : Bool) (s : State) : Res :=
  .next <|
    let rise := level && !s.sys.wake
    let s1 := s.modSys fun y => { y with wake := level }
    if !rise || s.therm.latch then s1
    else if s.sys.phase == .frost then s1.startThaw
    else if s.sys.entering then s1.modSys fun y => { y with wakeSeen := true }
    else s1

/-- tXS of a layer in LTC ticks, from units of 10 ps (R611). -/
def Layer.txsTicks (l : Layer) : Nat := (l.tims.getD 12 0 + 249) / 250

/-- The tick at which admission is released: w + 4,800, or the longest tXS after step 4, taken at its bound of 6.5 µs, when
a layer that holds a bound slice has a tXS above 5 µs (R904, R905; DEDUCED, log 31). -/
def State.thawAt (s : State) : Nat :=
  let t := (s.boundSlices.map fun p => (s.stk.layer (layerOf p)).txsTicks).foldl max 0
  s.sys.wakeLtc + (if t ≤ 2000 then 4800 else 2600 + t)

/-- Step 3 of R904 on a bundle in service: interpolated trims, CAL_DUE by R647. -/
def State.thawTrims (s : State) (p : Nat) : State :=
  let far := decide (((s.tcOf p).toInt - (s.slice p).link.tlast.toInt).natAbs > 16 * s.deltaT)
  (s.takeTrims p).modLink p fun l => { l with calDue := l.calDue || far }

/-- Steps 4 and 5 of R904 on a bound slice: SB_CKE high, SRX with O and P at 0, so early that tXS is met at the release. -/
def State.thawSlice (s : State) (p : Nat) : State :=
  (((s.modLink p fun l => { l with cke := true }).sendRow p 5 0).srxRefresh p).modBt p fun b => { b with okAny := (s.slice p).sch.cclk }

/-- The commands that R719 delays in DET_TIMING. -/
def quantised (op : Nat) : Bool := [0x30, 0x31, 0x32, 0x40, 0x41, 0x43, 0x44, 0x50, 0x51, 0x60, 0x61].contains op

/-- The LTC at which the command that waited for Thaw starts (R719, R802, R904). -/
def State.heldStart (s : State) : Nat :=
  match s.det.mode with
  | .timing => if quantised s.mbx.opcode.toNat then s.quantum (max s.mbx.since (s.sys.ltc - 4096)) else s.sys.ltc
  | .off | .bits => s.sys.ltc

/-- THAW_RELEASE (step 6 of R904, R802, R905): KX_FROST falls, admission is released at this very tick, to which its word has
crossed, and the command that a doorbell in Frost holds starts next. -/
def execThawRelease (s : State) : Res :=
  .next <|
    if s.sys.phase != .thaw || s.sys.ltc < s.thawAt then s
    else
      let s0 := (s.powerPhys true).each ((List.range 144).filter fun p => (s.slice p).rep.inServ) State.thawTrims
      let s1 := s0.each s.boundSlices State.thawSlice
      let s2 := s1.noteWord (.admFree 2)
      let s3 := s2.modSys fun y => { y with frost := false, phase := .running }
      if s3.mbx.st == .busy then s3.modMbx fun m => { m with starts := some s.heldStart } else s3

end Sys2Proof.Machine
end

