-- ==== Sys2Proof/Machine/Align.lean ====
section
/-! DEFINITION. The alignment for DET_TIMING: its drain, ARMED, the edges A0 and AR, and its time-outs (R38, R495, R708, R713
to R716, R823, R824, R898). -/

namespace Sys2Proof.Machine

/-- A channel island held in reset by the alignment: what a warm reset keeps stays, with its thermal level, its repairs and a
CAL_RUN that is pending (R713). -/
def Slice.aligned (x : Slice) : Slice :=
  { x.warm with level := x.level, temp := x.temp, rep := { x.rep with testing := false }
                rf := { x.rf with selfRef := x.warm.rf.selfRef }, scr := { x.scr with checks := [], cmps := [] }
                link := { x.warm.link with calCmd := x.link.calCmd, calPos := x.link.calPos, calHold := x.link.calHold, calList := x.link.calList } }

/-- The fabric island held in reset by the alignment: what a warm reset keeps stays, and so do masks and holds (R713), and the
writes that have ended but still take data for a digest stream (R143). -/
def Fab.aligned (f : Fab) : Fab :=
  { f.warm with down := f.down, masked := f.masked, drained := f.drained, hold := f.hold, ghost := f.ghost }

/-- ALIGN_ARMED (steps 3 to 7 of R713): once admission is held, the tracker is empty and no channel is held (R244), caches are
written back and invalidated, buffers drained, self-refresh, islands in reset, ARMED. Port queues, credits and digest streams
stay: R86 and R728 name every moment at which they restart (DEDUCED, log 32). -/
def execAlignArmed (s : State) : Res :=
  .next <|
    if s.det.align ≠ 1 || !s.fab.hold.contains 3 || !s.trackerEmpty || s.repairRuns || s.anyHeld then s
    else
      let s1 := (s.writeBackAll (fun _ _ => true) false).dropScales.each (List.range 144) State.drainAll
      let s2 := s1.each s.boundSlices State.sleepSlice
      let s3 : State := { s2 with slices := Tab.mapVals Slice.reset (fun _ x => x.aligned) s2.slices, fab := s2.fab.aligned }
      s3.emptyIcqs.modDet fun d => { d with align := 2, armed := true, alignAt := s.sys.ltc, lows := 0 }

/-- The alignment gives up its hold of admission: the fabric sees it in this step, which is step 5 of R715. -/
def State.alignFree (s : State) : State :=
  (s.noteWord (.admFree 3)).modDet fun d => { d with align := 0, armed := false, lows := 0 }

/-- DET_SET_DRAIN_TIMEOUT (R823): the drain has not ended within 10 ms of the hold. -/
def execDetSetDrainTimeout (s : State) : Res :=
  .next <|
    if s.det.align ≠ 1 || s.det.alignBoot || (s.trackerEmpty && s.fab.hold.contains 3) || s.sys.ltc < s.det.alignAt + ms 10 then s
    else s.alignFree.finish eTimeout []

/-- ALIGN_A0 (R714): KX_ALIGN is sampled 1, on the next edge of REFCLK (one in four ticks, R17), after at least 2 edges since
ARMED at which it was sampled 0. The pin has no row of its own, so it is 1 in this event and 0 on every other edge (DEDUCED,
log 36). -/
def execAlignA0 (s : State) : Res :=
  .next <|
    if s.det.align ≠ 2 || s.det.lows < 2 then s
    else s.modDet fun d => { d with align := 3, armed := false, alignAt := (s.sys.ltc + 3) / 4 * 4 }

/-- Steps 3 and 4 of R715 on a slice that serves a channel: SRX unless shut-down is latched, accumulators as R495 states,
the scrub pass at row 0. -/
def State.alignSlice (s : State) (p : Nat) : State :=
  if s.therm.latch then s
  else
    let s1 := ((s.sendRow p 5 0).modSlice p fun x =>
      { x with bt := { x.bt with okAny := x.sch.cclk }, rf := { x.rf with selfRef := false }, link := { x.link with cke := true } }).startAccs p false
    s1.newScrub p

/-- The islands run again: slices leave self-refresh, the meters start at their initial state, and the requester-down lines are
sampled again (R159, R901). -/
def State.alignRun (s : State) : State :=
  ((s.each (s.boundSlices ++ s.stk.migs.map (·.new)) State.alignSlice).initMeters (List.range 48)).takeLines

/-- The alignment is over: admission opens, or DET_SET is answered. -/
def State.alignEnd (s : State) (err : BitVec 8) (l : List Word) : State :=
  if s.det.alignBoot then s.alignFree.openUp else s.alignFree.finish err l

/-- The units hold DET_MODE `n` (R824). A slice that DET_TIMING takes to band 3 counts the rise (R493, R538). -/
def State.unitMode (s : State) (n : Nat) (m : DetMode) : State :=
  let c := { s.cfg with det := BitVec.ofNat 32 (fld s.cfg.det 2 30 * 4 + n) }
  let up : List Nat := match m, s.det.mode with
    | .timing, .off | .timing, .bits => (List.range 144).filter fun p => decide ((s.slice p).rf.band < 3)
    | _, _ => []
  State.each { s.settleBands with cfg := c, det := { s.det with mode := m } } up fun s p => s.statSlice p 20 1

/-- ALIGN_DLY in LTC ticks: four to a REFCLK cycle (R17, R31, R746). -/
def State.alignDly (s : State) : Nat := 4 * fld s.cfg.det 2 16

/-- ALIGN_AR (steps 2 to 5 of R715): at AR the views are loaded and ALIGN_LTC captured, the islands run, DET_TIMING is in
force, ALIGNED is set and BROKEN cleared. The steps after AR take effect with it (DEDUCED, log 33). -/
def execAlignAr (s : State) : Res :=
  .next <|
    if s.det.align ≠ 3 || s.sys.ltc < s.det.alignAt + s.alignDly then s
    else
      let s1 := s.unitMode 2 .timing
      let s2 : State := { s1 with slices := (List.range 144).foldl (fun t p => Tab.upd Slice.reset t p fun x => { x with lag := 3 }) s1.slices }
      let s3 := (s2.modSys fun y => { y with fabLag := 3 }).modDet fun d => { d with alignLtc := s.sys.ltc, aligned := true, broken := 0 }
      ((s3.alignRun).event .alignDone 0 0).alignEnd eOk [2]

/-- ALIGN_TIMEOUT (R716): A0 has not come within 1 s of ARMED: the islands are released unaligned; start-up goes on in
DET_BITS. -/
def execAlignTimeout (s : State) : Res :=
  .next <|
    if s.det.align ≠ 2 || s.sys.ltc < s.det.alignAt + ms 1000 then s
    else
      let s1 := if s.det.alignBoot then s.unitMode 1 .bits else s
      ((s1.alignRun).event .alignFail 0 0).alignEnd eTimeout []

end Sys2Proof.Machine
end

