-- ==== Sys2Proof/Machine/Control.lean ====
section
/-! DEFINITION. The control port: register writes, reads that capture, the event log and interrupt causes (R10 to R13, R36,
R64, R751 to R757, R765 to R769, R776, R777, R791). -/

namespace Sys2Proof.Machine

/-- A register write (R751). The mailbox command register keeps reserved bits for check 1 of R800 (DEDUCED, log 27). A LEVEL
of 257 to 511, which R60 and R768 give no outcome, is stored as written and raises no interrupt (DESIGN CHOICE, log 55). -/
def State.writeReg (s : State) (off : Nat) (v : Word) : State :=
  if off = 0x0020 then s.modCtl fun c => { c with win := v &&& 0x13F }
  else if off = 0x0100 then s.modMbx fun m => { m with cmd := v }
  else if 0x0140 ≤ off && off < 0x0180 then s.modMbx fun m => { m with args := Tab.set 0 m.args ((off - 0x0140) / 4) v }
  else if off = 0x0404 then s.modMbx fun m => { m with irqEn := v.setWidth 5 }
  else if off = 0x0408 then { s with evt := { s.evt with level := fld v 0 9 } }
  else if off = 0x0800 then s.modCtl fun c => { c with tlmSel := fld v 0 12 }
  else if 0x1000 ≤ off && off < 0x2000 && !bit s.ctl.win 8 then
    s.modCtl fun c => { c with staging := Tab.set 0 c.staging (fld c.win 0 6 * 1024 + (off - 0x1000) / 4) v }
  else s

/-- REG_WRITE (R10, R13, R751): an aligned word is written into a register that can be written; every other write is
ignored, and so is a write that has a row of its own. -/
def execRegWrite (off : BitVec 16) (v : BitVec 32) (s : State) : Res :=
  .next (if s.sys.porN && off.toNat % 4 == 0 then s.writeReg off.toNat v else s)

/-- LTC_LO_READ (R36): the low word is returned and the high word captured. -/
def execLtcLoRead (s : State) : Res :=
  .next <|
    if !s.sys.porN then s
    else s.modCtl fun c => { c with rdata := s.readReg 0x0010, ltcCap := word (s.sys.ltc / 2 ^ 32 % 2 ^ 32) }

/-- TLM_WORD0_READ (R777): word 0 of a slot of the selected page is returned and word 1 captured. -/
def execTlmWord0Read (slot : Fin 128) (s : State) : Res :=
  .next <|
    if !s.sys.porN then s
    else s.modCtl fun c =>
      { c with rdata := s.readReg (0x0C00 + 8 * slot.val), tlmCap := (s.slotWords c.tlmSel slot.val).2, tlmSlot := some (128 * c.tlmSel + slot.val) }

/-- EVT_LOG_NEXT (R64, R768): the read pointer moves to the next record. With none unread it stays, the underrun bit of the queue
sets and the queue is reset (R59). -/
def execEvtLogNext (s : State) : Res :=
  .next <|
    if !s.sys.porN then s
    else if s.logSeen ≤ s.evt.rd then s.resetQueue 9 0 4 0 []
    else { s with evt := { s.evt with rd := s.evt.rd + 1 } }

/-- EVT_LOG_REWIND (R64, R768): the read pointer returns to the mark. -/
def execEvtLogRewind (s : State) : Res :=
  .next (if s.sys.porN then { s with evt := { s.evt with rd := s.evt.mark } } else s)

/-- EVT_LOG_ACK (R64, R768, R769): the records before the read pointer are freed and the mark moves to it. Once space is
free, dropped records are reported by one LOG_DROP. -/
def execEvtLogAck (s : State) : Res :=
  .next <|
    if !s.sys.porN then s
    else
      State.reportDrops { s with evt := { s.evt with recs := s.evt.recs.drop s.evt.rd, rd := 0, mark := 0,
                                                     freed := s.logStamps s.evt.freed s.evt.rd } }

/-- EVT_IRQ_CLEAR (R10, R766): a 1 clears a cause. -/
def execEvtIrqClear (mask : BitVec 32) (s : State) : Res :=
  .next (if s.sys.porN then s.modMbx fun m => { m with irq := m.irq &&& ~~~(mask.setWidth 5) } else s)

end Sys2Proof.Machine
end

