-- ==== Sys2Proof/Machine/RingOps.lean ====
section
/-! DEFINITION. The ring stop: bypass, ANNOUNCE, the member table, budgets, and frames that pass (R845 to R857, R868, R870,
R873 to R875). -/

namespace Sys2Proof.Machine

/-- The bypass closes while it has a cause (R847); what the stop was passing or driving is lost (R848). -/
def State.bypassClose (s : State) : State :=
  if s.bypassed then s.modRing fun r => { r with present := false, out := if r.present then [] else r.out } else s

/-- KX_INST_PWROK_CHANGE (R847, R848). -/
def execKxInstPwrokChange (ok : Bool) (s : State) : Res := .next ((s.modRing fun r => { r with pwrok := ok }).bypassClose)

/-- KX_AON_RST_N (R846): while low the ring stop alone is in reset and its outputs drive their reset values; afterwards the stop
opens its bypass as after every other cause (DEDUCED, log 35). -/
def execKxAonRstN (level : Bool) (s : State) : Res :=
  .next <|
    let s1 := (s.modRing fun r => { r with aonRst := !level }).bypassClose
    if level then s1 else s1.ringDrive []

/-- RING_BYPASS_OPEN (R849): every cause has ended: the stop is present and sends an ANNOUNCE once READY is 1. -/
def execRingBypassOpen (s : State) : Res :=
  .next (if s.bypassed || s.ring.present then s else (s.modRing fun r => { r with present := true }).sendAnnounce)

/-- ANNOUNCE_TIMER (R855): every 40,000 ticks. -/
def execAnnounceTimer (s : State) : Res :=
  .next (if !s.ringLive || s.sys.ltc < s.ring.lastAnn + 40000 then s else s.sendAnnounce)

/-- ANNOUNCE (R855, R856): the sender's entry of the member table is written. -/
def execAnnounce (src : Fin 8) (cfg : BitVec 16) (agg : BitVec 16) (psum : BitVec 16) (s : State) : Res :=
  .next <|
    s.onBroadcast src.val (ringFrame 1 src.val src.val [cfg, agg, psum, 0]) fun s =>
      s.setMember src.val (some ⟨fld cfg 0 6, agg.toNat, psum.toNat, s.sys.ltc⟩)

/-- MEMBER_EXPIRY (R856): no ANNOUNCE of a member has arrived for 140,000 ticks. -/
def execMemberExpiry (m : Fin 8) (s : State) : Res :=
  .next <|
    match Tab.get none s.ring.members m.val with
    | some x => if !s.sys.porN || s.sys.rstEnd || s.sys.ltc < x.seen + 140000 then s else s.setMember m.val none
    | none => s

/-- BUDGET (R868, R870, R874, R875): the share of the die budget; a FEDERATED instance passes a changed budget to its layers. -/
def execBudget (src : Fin 8) (w : BitVec 16) (s : State) : Res :=
  .next <|
    s.onUnicast (ringFrame 7 src.val s.ring.id [w, 0]) fun s =>
      let s1 := s.modStk fun k => { k with share := budgetOf w.toNat }
      if s1.stackBudget != s.stackBudget && s1.federated && s1.powerOn && !s1.therm.latch then
        let n := s1.stk.fedCnt
        s1.sendLayerBudgets.modStk fun k => { k with fedCnt := n }
      else s1

/-- BUDGET_TIMER (R873): the master sends the shares again every 100 ms. -/
def execBudgetTimer (s : State) : Res :=
  .next (if !s.sys.ready || !s.isMaster || s.sys.ltc < s.ring.lastBud + ms 100 then s else s.renewBudgets)

/-- A frame whose CRC holds and whose length agrees with LEN (R852 to R854). -/
def frameGood (f : List (BitVec 16)) : Bool :=
  match f with
  | [] => false
  | h :: _ => f.length == fld h 0 6 + 2 && crc16 f.dropLast == f.getLastD 0

/-- RING_FRAME_PASS (R848, R854): a bypassed stop copies every frame. A present one passes a frame for another stop, of a
reserved TYPE, or broadcast with a TYPE that only goes to one stop (R855), and removes one that fails its checks, that it sent
itself or that brings it alone a TYPE that is broadcast; a frame that it takes is the row of its type. -/
def execRingFramePass (f : List (BitVec 16)) (s : State) : Res :=
  .next <|
    if s.ring.aonRst then s
    else if !s.ringLive then s.ringDrive [f]
    else
      let h := f.headD 0
      let typ := fld h 12 4
      let src := fld h 9 3
      let dst := fld h 6 3
      let reserved := typ == 0 || decide (8 < typ)
      let single := typ == 4 || typ == 7 || typ == 8
      if !frameGood f || src = s.ring.id then s.ringDrive []
      else if reserved || (dst != s.ring.id && dst != src) || (dst == src && single) then s.ringDrive [f]
      else if dst == s.ring.id && !single then s.ringDrive []
      else s

end Sys2Proof.Machine
end

