-- ==== Sys2Proof/Machine/Gang.lean ====
section
/-! DEFINITION. Gang mode changes on members and master, and digest aggregation frames (R857 to R863, R876 to R880). -/

namespace Sys2Proof.Machine

/-! ### Members (R859, R860) -/

/-- The image that the received chunks hold, over `len` bytes; none while a chunk is missing (R859, R860). -/
def Ring.received (r : Ring) (len : Nat) : Option (Tab Word) :=
  let cs := (List.range ((len + 63) / 64)).map fun i => Tab.get none r.chunks i
  if cs.any Option.isNone then none
  else
    let ws := cs.flatMap fun c => (List.range 16).map fun j => BitVec.ofNat 32 (fld (c.getD 0) (32 * j) 32)
    some (tabWith 0 (ws.take (len / 4)))

/-- What a member prepares for CFG_COMMIT: checks 3 and 4 of R860; the state test of CFG_COMMIT is part of the fourth. -/
def State.gangImage (s : State) (len : Nat) (crc : Word) : BitVec 8 ⊕ ModeChg :=
  match s.ring.received len with
  | none => .inl eCheck
  | some t =>
    if (imageWords t).getLastD 0 ≠ crc || imgLength t ≠ len then .inl eCheck
    else if s.noChannels then .inl eState
    else match s.commitCheck t with
      | .inl e => .inl e
      | .inr c => .inr { ModeChg.reset with what := .cfg, cfg := c }

/-- What a member prepares for RATE_SET: check 5 of R860. -/
def State.gangRate (s : State) (arg : Word) : BitVec 8 ⊕ ModeChg :=
  let r := fld arg 0 2
  if s.rateBad then .inl eState
  else if s.isPending 0x20 then .inl eBusy
  else if !s.stk.rates.testBit r then .inl eNotsup
  else if r ≠ s.sys.rate && s.rateWaits then .inl eBusy
  else .inr { ModeChg.reset with what := .rate, rate := r }

/-- What a member prepares for DET_SET: check 6 of R860. -/
def State.gangDet (s : State) (arg : Word) : BitVec 8 ⊕ ModeChg :=
  let n := fld arg 0 2
  if 2 ≤ n then .inl eRange
  else if s.noChannels then .inl eState
  else if n = 1 && modeOf n ≠ s.det.mode && !s.cfg.satEqual then .inl eBadarg
  else .inr { ModeChg.reset with what := .det, det := modeOf n }

/-- The checks of R860, in order; `busy` tells that MODECHG was already 1 when the PREPARE came. -/
def State.gangCheck (s : State) (g : Gang) (busy : Bool) : BitVec 8 ⊕ ModeChg :=
  if s.therm.latch then .inl eState
  else if busy || s.mc.isSome then .inl eBusy
  else if g.op = 0x10 then s.gangImage g.arg.toNat g.crc
  else if g.op = 0x20 then s.gangRate g.arg
  else s.gangDet g.arg

/-- ACK of a member (R855, R859). -/
def State.sendAck (s : State) (g : Gang) (err : BitVec 8) : State :=
  s.ringSend [ringFrame 4 s.ring.id g.master [g.xid, err.setWidth 16]]

/-- A member whose units have acknowledged accepts (step 3 of R859). -/
def State.gangAck (s : State) : State :=
  match s.mc with
  | some m => match m.gang with
    | some g =>
      if g.master ≠ s.ring.id && g.awaiting.isEmpty && !g.sent && !m.committed && s.unitsAcked then
        ({ s with mc := some { m with gang := some { g with awaiting := [g.master] } } }).sendAck g eOk
      else s
    | none => s
  | none => s

/-- A member takes a PREPARE (R859, R860): it refuses, with MODECHG 1 until the master's ABORT, or prepares its units. The
received chunks are used up. -/
def State.takePrepare (s : State) (g : Gang) (busy : Bool) : State :=
  let s1 := s.modRing fun r => { r with chunks := [], gang := none }
  match s.gangCheck g busy with
  | .inl e => (s1.modRing fun r => { r with gang := some { g with sent := true } }).sendAck g e
  | .inr m => (s1.startChange { m with gang := some { g with start := s.sys.ltc } }).gangAck

/-- A PREPARE held through Frost and Thaw is taken once the instance runs (R802, R860). -/
def State.heldPrepare (s : State) : State :=
  match s.ring.gang with
  | some g => if g.sent || s.sys.phase == .frost || s.sys.phase == .thaw then s else s.takePrepare g false
  | none => s

/-- IMAGE (R859): a chunk of the master's staging buffer. -/
def execImage (src : Fin 8) (chunk : BitVec 16) (data : BitVec 512) (s : State) : Res :=
  .next <|
    s.onBroadcast src.val (ringFrame 2 src.val src.val (chunk :: words16 32 data.toNat)) fun s =>
      if !s.gangOn || src.val ≠ s.ring.master then s
      else s.modRing fun r => { r with chunks := Tab.set none r.chunks chunk.toNat (some data) }

/-- PREPARE (R859, R860, R802): a gang member checks and prepares; one in Frost passes through Thaw first. -/
def execPrepare (src : Fin 8) (xid : BitVec 16) (op : BitVec 8) (arg : BitVec 32) (crc : BitVec 32) (s : State) : Res :=
  .next <|
    s.onBroadcast src.val (ringFrame 3 src.val src.val ([xid, op.setWidth 16] ++ words16 2 arg.toNat ++ words16 2 crc.toNat)) fun s =>
      if !s.gangOn || src.val ≠ s.ring.master then s
      else
        let g : Gang := ⟨xid, src.val, op, arg, crc, [], 0, 8, false, s.sys.ltc⟩
        let s1 := s.modRing fun r => { r with gang := some g }
        if s.sys.phase == .frost && !s.therm.latch then s1.startThaw
        else if s.sys.phase == .thaw && !s.therm.latch then s1
        else s1.takePrepare g s.modechg

/-- COMMIT (R859): the member applies its shadows 64 ticks later. -/
def execCommit (src : Fin 8) (xid : BitVec 16) (s : State) : Res :=
  .next <|
    s.onBroadcast src.val (ringFrame 5 src.val src.val [xid]) fun s =>
      match s.mc with
      | some m => match m.gang with
        | some g =>
          if g.master = src.val && g.master ≠ s.ring.id && g.xid = xid && !g.awaiting.isEmpty && !g.sent then
            { s with mc := some { m with acked := s.sys.ltc, gang := some { g with sent := true } } }
          else s
        | none => s
      | none => s

/-- ABORT (R861): the member discards its shadows and what it has received. -/
def execAbort (src : Fin 8) (xid : BitVec 16) (s : State) : Res :=
  .next <|
    s.onBroadcast src.val (ringFrame 6 src.val src.val [xid]) fun s =>
      let held := match s.ring.gang with
        | some g => g.master == src.val && g.xid == xid
        | none => false
      let s1 := if held then s.modRing fun r => { r with gang := none, chunks := [] } else s
      match s1.mc with
      | some m => match m.gang with
        | some g => if g.master = src.val && g.master ≠ s.ring.id && g.xid = xid && !m.committed then s1.abortChange eAborted else s1
        | none => s1
      | none => s1

/-! ### The master (R859, R861) -/

/-- ACK (R859, R861): once every member has answered, COMMIT goes out as soon as the own units have acknowledged, or, after a
refusal, ABORT with the code of the refusing member with the lowest ring ID. -/
def execAck (src : Fin 8) (xid : BitVec 16) (err : BitVec 8) (s : State) : Res :=
  .next <|
    s.onUnicast (ringFrame 4 src.val s.ring.id [xid, err.setWidth 16]) fun s =>
      match s.mc with
      | some m => match m.gang with
        | some g =>
          if g.master ≠ s.ring.id || g.xid ≠ xid || !g.awaiting.contains src.val then s
          else
            let worse := err ≠ eOk && decide (src.val < g.errId)
            let g' : Gang := { g with awaiting := g.awaiting.filter (fun i => i != src.val),
                                      err := if worse then err else g.err, errId := if worse then src.val else g.errId }
            let s1 : State := { s with mc := some { m with gang := some g' } }
            if !g'.awaiting.isEmpty then s1 else if g'.errId < 8 then s1.abortChange g'.err else s1.gangGo
        | none => s
      | none => s

/-- GANG_PREPARE_TIMEOUT (R861): a member has not answered within 400,000 ticks of PREPARE: ABORT, with the code of a member
that has refused, if any has. -/
def execGangPrepareTimeout (s : State) : Res :=
  .next <|
    match s.mc with
    | some m => match m.gang with
      | some g => if g.master ≠ s.ring.id || g.awaiting.isEmpty || s.sys.ltc < g.start + 400000 then s
        else s.abortChange (if g.errId < 8 then g.err else eAborted)
      | none => s
    | none => s

/-! ### Aggregation (R876 to R879) -/

/-- DIGEST (R878, R879): a member's contribution to an aggregate of this master. -/
def execDigest (src : Fin 8) (stream : Fin 16) (n : BitVec 32) (d : BitVec 256) (s : State) : Res :=
  .next <|
    s.onUnicast (ringFrame 8 src.val s.ring.id (BitVec.ofNat 16 stream.val :: words16 2 n.toNat ++ words16 16 d.toNat)) fun s =>
      if s.isMaster && s.masterAgg.testBit stream.val && (s.aggGroup stream.val).contains src.val then
        s.aggAdd stream.val n src.val d none
      else s

/-- AGG_TIMEOUT (R879): 10 ms after its first contribution an aggregate closes with what it holds. -/
def execAggTimeout (stream : Fin 16) (s : State) : Res :=
  .next <|
    match s.ring.aggs.find? fun a => a.stream == stream.val && decide (a.first + ms 10 ≤ s.sys.ltc) with
    | some a => s.aggClose a
    | none => s

end Sys2Proof.Machine
end

