-- ==== Sys2Proof/Machine/Gather.lean ====
section
/-! DEFINITION. The gather engines: start, list reads, page reads, and stream beats (R353 to R376). -/

namespace Sys2Proof.Machine

/-! ### The stream of a gather (R353, R367) -/

/-- Pages: COUNT + 1. -/
def gPages (d : BitVec 160) : Nat := fld d 64 12 + 1
/-- Units of a chunk: CLEN + 1. -/
def gChunk (d : BitVec 160) : Nat := fld d 112 10 + 1
/-- Units of one page in the stream. -/
def gPageUnits (d : BitVec 160) : Nat := (fld d 144 10 + 1) * gChunk d
/-- Units of the whole stream. -/
def gUnits (d : BitVec 160) : Nat := gPages d * gPageUnits d
/-- List access that holds list entry `i`, counted from the first (R362). -/
def gListOf (d : BitVec 160) (i : Nat) : Nat := (fld d 0 40 + 8 * i) / 64 - fld d 0 40 / 64

/-- Region offset base of page `i`'s address with its low bits cleared (R355). -/
def gPageAddr (d : BitVec 160) (ent : BitVec 64) : Nat := fld ent 0 40 / (4096 * 2 ^ fld d 80 3) * (4096 * 2 ^ fld d 80 3)

/-- Why the page of a list entry is not read, as the status its chunks carry; none when it is read, from the region named of
region table `t` (R356 to R359, R364). SKIP wins over nonzero reserved bits and page bits [39:37], where R355 and R359 leave
the order open (DESIGN CHOICE, log 73). -/
def pageCheck (t : List (BitVec 256)) (d : BitVec 160) (ent : BitVec 64) (esta : RspStatus) : RspStatus ⊕ Nat :=
  if esta ≠ .ok then .inl esta
  else if bit ent 63 then .inl .ok
  else if fld ent 40 23 != 0 || fld ent 37 3 != 0 then .inl .decerr
  else match findRegion t (gPageAddr d ent) with
    | none => .inl .decerr
    | some i =>
      let r := regionAt t i
      let b := rOw r / 2
      if rType r = 2 then .inl .perm
      else if rType r = 1 && (fld d 96 10 % b != 0 || gChunk d % b != 0 || fld d 128 10 % b != 0) then .inl .perm
      else .inr i

/-! ### Engines -/

/-- Engine `i` is busy. -/
def Fab.engBusy (f : Fab) (i : Nat) : Bool := (f.engine i).eid != 0

/-- The GATHER that an engine works for. -/
def State.gatherOf (s : State) (i : Nat) : Entry := (s.fab.entry (s.fab.engine i).eid).getD Entry.reset

/-- PORT_MAX (R374). -/
def State.portMax (s : State) : Nat := fld s.cfg.gth 0 5

/-- Engines that a port holds. -/
def State.enginesOf (s : State) (k : Nat) : Nat :=
  ((List.range 16).filter fun i => s.fab.engBusy i && (s.gatherOf i).sub == k).length

/-- GATHER_ENGINE_START (R360): the earliest queued GATHER whose port is below PORT_MAX takes a free engine. A GATHER
of a masked port leaves the queue and its entry frees (R160, R372). -/
def execGatherEngineStart (s : State) : Res :=
  .next <|
    let sub (id : Nat) : Nat := ((s.fab.entry id).map (·.sub)).getD 0
    if !s.portsLive then s
    else match s.fab.fq.find? fun id => s.isMasked (sub id) || decide (s.enginesOf (sub id) < s.portMax) with
      | none => s
      | some id =>
        let s1 := s.modFab fun f => { f with fq := f.fq.filter fun x => x != id }
        if s.isMasked (sub id) then s1.freeEntry id
        else match (List.range 16).find? fun i => !s.fab.engBusy i with
          | none => s
          | some i =>
            let e := (s.fab.entry id).getD Entry.reset
            s1.modFab fun f => f.modEngine i fun _ =>
              { Gth.reset with eid := id, desc := ((e.wdat.headD ⟨0, 0⟩).data).setWidth 160 }

/-- A gather read enters the tracker as subscriber 42, charged to the GATHER's port and service, with its slack and its place
among the port's requests (R126, R142, R263, R362, R365). It is translated under the region table that the GATHER was admitted
under (R198), and expanded with the EXP_SAT in force at the page read: R350 speaks of data admitted after the commit, and does
not say whether a page is admitted with its GATHER or with its own read (DESIGN CHOICE, log 73). -/
def State.gatherRead (s : State) (i : Nat) (kind : Kind) (a n rix : Nat) (accs : List Acc) (pos : Nat) : State :=
  let g := s.gatherOf i
  let id := s.fab.nextId
  let q : Request := { g.req with tag := 0, addr := BitVec.ofNat 40 a, len := BitVec.ofNat 5 (n - 1), digest := false, rsvLo := 0 }
  let accs' := accs.map fun x =>
    if (s.stk.remapAt x.chan).st = .fenced then { x with st := some .fenced, data := 0 } else x
  let e : Entry := { Entry.reset with
    id := id, ord := g.ord, sub := 42, msub := g.sub, kind := kind, req := q, arrival := s.fabView,
    shared := (s.fab.freeSlot 42).getD true, rent := regionAt g.tab rix, rix := rix, pent := pairEntry g.tab (regionAt g.tab rix),
    accs := accs', beats := pos, parent := i, sat := bit (Tab.get 0 s.cfg.xfu g.sub) 0 }
  let s0 := s.readStale e.rent accs
  let s1 := (s0.addEntry { e with accs := s0.markStale e.rent accs' }).scaleLookup g.sub id accs'
  match s1.fab.entry id with
  | some e' => (s1.enterMeter e' g.req.service.toNat).settleGather id
  | none => s1

/-- The engine may issue reads: its port is not masked and no end has been decided (R372). -/
def State.engRuns (s : State) (i : Nat) : Bool :=
  s.portsLive && s.fab.engBusy i && !(s.fab.engine i).drop && !s.isMasked (s.gatherOf i).sub && (s.gatherOf i).fin.isNone

/-- GATHER_LIST_READ (R362): the engine issues its next list access, at most 2 ahead of the page it is reading. -/
def execGatherListRead (e : Fin 16) (s : State) : Res :=
  .next <|
    let s := s.settleEngine e.val
    let g := s.fab.engine e.val
    let d := g.desc
    let t := (s.gatherOf e.val).tab
    let page := min (g.pos / gPageUnits d) (gPages d - 1)
    if !s.engRuns e.val || (s.fab.freeSlot 42).isNone || gListOf d (gPages d - 1) < g.lissued ||
        gListOf d page + 2 < g.lissued || 128 ≤ g.flight then s
    else
      let a := (fld d 0 40 / 64 + g.lissued) * 64
      match findRegion t (fld d 0 40) with
      | none => s
      | some r =>
        (s.modFab fun f => f.modEngine e.val fun g => { g with lissued := g.lissued + 1, flight := g.flight + 1 }).gatherRead
          e.val .gatherList a 1 r (s.readIn t r (a - rLo (regionAt t r)) 1) 0

/-- Stage units that no read fills: zeros with a status (R370). -/
def State.stageZeros (s : State) (i pos n : Nat) (st : RspStatus) : State :=
  s.modFab fun f => f.modEngine i fun g =>
    { g with units := g.units ++ (List.range n).map (fun u => (pos + u, st, (0 : Line))), pos := pos + n }

/-- GATHER_PAGE_READ (R366): the next part of the stream: one read of at most 2 KiB within a chunk, while staging (1,024
units, those of reads in flight among them) and the 128 list and page reads in flight leave room, or zeros for a page that is
not read (R356 to R359, R364, R370). -/
def execGatherPageRead (e : Fin 16) (s : State) : Res :=
  .next <|
    let i := e.val
    let s := s.settleEngine i
    let g := s.fab.engine i
    let d := g.desc
    let page := g.pos / gPageUnits d
    let inPage := g.pos % gPageUnits d
    let x := s.gatherOf i
    let port := x.sub
    let room := 1024 - (g.pos - 4 * x.beats)
    if !s.engRuns i || gUnits d ≤ g.pos || !g.lgot.contains (gListOf d page) || room = 0 then s
    else match pageCheck x.tab d (Tab.get 0 g.ents page) (Tab.get .ok g.esta page) with
      | .inl st =>
        let s1 := if st = .ok && inPage = 0 then s.statSub port 10 1 else s
        s1.stageZeros i g.pos (min room (gPageUnits d - inPage)) st
      | .inr r =>
        let rg := regionAt x.tab r
        let off := inPage % gChunk d
        let a := gPageAddr d (Tab.get 0 g.ents page) + 64 * (fld d 96 10 + inPage / gChunk d * fld d 128 10 + off)
        let b := if rType rg = 1 then rOw rg / 2 else 1
        let n0 := min (min (gChunk d - off) (32 - a / 64 % 32)) room
        let n := n0 / b * b
        if n = 0 || (s.fab.freeSlot 42).isNone || 128 ≤ g.flight then s
        else
          let s1 := if inPage = 0 then s.statSub port 9 1 else s
          (s1.modFab fun f => f.modEngine i fun g => { g with pos := g.pos + n, flight := g.flight + 1 }).gatherRead i .gatherPage
            a n r (s.readIn x.tab r (a - rLo rg) n) g.pos

/-! ### Beats -/

/-- Place in the order of R369. -/
def gatherRank (st : RspStatus) : Nat :=
  match st with
  | .fault => 0 | .thermstop => 1 | .fenced => 2 | .perm => 3 | .decerr => 4 | .ue => 5 | .stale => 6 | .ok => 7
  | .window => 7 | .aborted => 7 | .badreq => 7

/-- The status of a stream beat (R369). -/
def gatherStatus (l : List RspStatus) : RspStatus :=
  l.foldl (fun a b => if gatherRank b < gatherRank a then b else a) .ok

/-- Count the pages of a beat's units that carry a status other than OK, each once (R376). -/
def State.countBad (s : State) (i port : Nat) (us : List (Nat × RspStatus × Line)) : State :=
  s.each us fun s u =>
    let g := s.fab.engine i
    let page := u.1 / gPageUnits g.desc + 1
    if u.2.1 != .ok && decide (g.bad < page) then
      (s.modFab fun f => f.modEngine i fun g => { g with bad := page }).statSub port 11 1
    else s

/-- Free engine `i`. -/
def State.freeEngine (s : State) (i : Nat) : State := s.modFab fun f => f.modEngine i fun _ => Gth.reset

/-- GATHER_BEAT (R368): the engine drives its next 256 B beat once all its bytes are staged, under a response credit and
outside another RD's beats (R113, R114); the beat with LAST ends the GATHER (R371). An engine that has ended otherwise
frees when its reads have returned (R372). -/
def execGatherBeat (e : Fin 16) (s : State) : Res :=
  .next <|
    let i := e.val
    let s := s.settleEngine i
    let g := s.fab.engine i
    let x := s.gatherOf i
    if !s.portsLive || !s.fab.engBusy i then s
    else if g.drop || s.isMasked x.sub || x.fin.isSome then
      if s.fab.trk.any fun t => (t.kind == .gatherList || t.kind == .gatherPage) && t.parent == i then s
      else if s.isMasked x.sub && x.fin.isNone then (s.freeEngine i).rspOver x
      else s.freeEngine i
    else
      let total := gUnits g.desc
      let want := (List.range 4).filterMap fun j => if 4 * x.beats + j < total then some (4 * x.beats + j) else none
      let us := want.filterMap fun u => g.units.find? fun t => t.1 == u
      let p := s.port x.sub
      if us.length < want.length || p.rspCrd = 0 || p.cur.isSome then s
      else
        let last := total ≤ 4 * x.beats + 4
        let data := us.foldl (fun a u => a + u.2.2.toNat * 2 ^ (512 * (u.1 % 4))) 0
        let s1 := s.driveRsp x.sub data (rspHeader x.req.tag (gatherStatus (us.map (·.2.1))) eOk true last x.beats)
        let s2 := (s1.countBad i x.sub us).statSub x.sub 12 (64 * us.length)
        let r := us.foldl (fun (y : State × DgAcc) u =>
          y.1.feed x.sub x.req.digest 2 y.2 (64 * u.1) u.2.2.toNat 64) (s2, x.dg)
        if last then (r.1.rspOver { x with dg := r.2 }).freeEngine i
        else (r.1.modEntry x.id fun y => { y with beats := x.beats + 1, dg := r.2 }).modFab fun f =>
          f.modEngine i fun g => { g with units := g.units.filter fun t => decide (4 * x.beats + 4 ≤ t.1) }

end Sys2Proof.Machine
end

