-- ==== Sys2Proof/Machine/Ist.lean ====
section
/-! DEFINITION. The periodic in-service test (R928 to R931). -/

namespace Sys2Proof.Machine

/-- The in-service test may run (R931). -/
def State.istAllowed (s : State) : Bool :=
  s.sys.ready && s.sys.phase == .running && !s.sys.entering && !s.therm.latch && !s.sys.rstEnd &&
    match s.det.mode with
    | .timing => false
    | .off | .bits => true

/-- Ticks of 60 minutes (R928). -/
def istPeriod : Nat := ms 3600000

/-- The march starts on a free spare slice: SB_CKE rises, it leaves self-refresh and its refresh engine runs (R590, R929). Its
accesses stand in the one end of the march; the activations of them are not tracked (log 16). -/
def State.marchStart (s : State) (p : Nat) : State :=
  ((s.sendRow p 5 0).modSlice p fun x =>
    { x with rep := { x.rep with testing := true }, rf := { x.rf with selfRef := false, refOn := true },
             link := { x.link with cke := true, phy := true }, bt := x.bt.srx x.sch.cclk }).startAccs p true

/-- The next free spare in ascending order after the last one that a cycle tested (R928); a test by KX_SLICE_TEST does not
move it, which R927 leaves open (DESIGN CHOICE, log 74). -/
def State.nextMarch (s : State) : Option Nat :=
  match (List.range 144).find? fun p => decide (s.stk.istNext ≤ p) && s.freeSpare p with
  | some p => some p
  | none => (List.range 144).find? s.freeSpare

/-- No march runs. -/
def State.marchIdle (s : State) : Bool := !((List.range 144).any fun p => (s.slice p).rep.testing)

/-- IST_CYCLE (R928): every 60 minutes from the end of start-up a cycle starts a march and reports what its other items
find: free bonds that fail (R602), failed bank units (R682) and spare units, and empty queues whose correction path fails
(R930). -/
def execIstCycle (o : IstOutcome) (s : State) : Res :=
  .next <|
    if !s.istAllowed || s.sys.ltc < s.stk.istLast + istPeriod then s
    else
      let s0 := s.modStk fun k => { k with istLast := k.istLast + istPeriod }
      let s1 := match (if s0.marchIdle then s0.nextMarch else none) with
        | some p => (s0.marchStart p).modStk fun k => { k with istNext := p + 1 }
        | none => s0
      let s2 := s1.each o.lanes fun s pb =>
        let l := (s.slice pb.1).link
        if pb.1 < 144 && (s.stk.chanOf pb.1).isSome && pb.2 < 87 && (isDqBond pb.2 || pb.2 == 86) && l.free pb.2 then
          s.failBond pb.1 pb.2
        else s
      let s3 := s2.each o.units fun s pb =>
        let active := match s.stk.chanOf pb.1 with
          | some c => s.launchActive c pb.2
          | none => false
        if pb.1 < 144 && pb.2 < 32 && !active && (s.stk.rowClass || s.stk.macClass) then s.unitFault pb.1 pb.2 else s
      let s4 := s3.each o.spares fun s p =>
        if p < 144 && (s.stk.rowClass || s.stk.macClass) then s.modRep p fun x => { x with unitsLeft := x.unitsLeft - 1 } else s
      s4.each o.queues fun s qi =>
        if icqExists qi.1 qi.2 && qi.1 < 10 && s.icqOcc qi.1 qi.2 == 0 then s.resetQueue qi.1 qi.2 5 0 [] else s

/-- SLICE_MARCH_DONE (R928, R929): the march ends. A slice that passed goes back to self-refresh and holds what the last
march element wrote; one that failed leaves service with LINK_FENCE. The wrapper's result register shows the outcome
(R927). -/
def execSliceMarchDone (pass : Bool) (s : State) : Res :=
  .next <|
    match (List.range 144).find? fun p => (s.slice p).rep.testing with
    | none => s
    | some p =>
      if !s.istAllowed then s
      else
        let s0 : State := { s with mem := Tab.drop (fun k => keyPs k == p) s.mem }
        let s1 := (s0.sre p).modSlice p fun x =>
          { x with rep := { x.rep with testing := false, tested := pass }, rf := { x.rf with selfRef := true, refOn := false },
                   link := { x.link with cke := false } }
        let s2 := if pass then s1 else (s1.retireSlice p).linkEvent .linkFence p 0x7F 0
        let w := s2.wrap.slice
        if fld w 0 8 = p && bit w 8 && !bit w 9 then
          { s2 with wrap := { s2.wrap with slice := w ||| (if pass then 0x600 else 0x200) } }
        else s2

end Sys2Proof.Machine
end

