-- ==== Sys2Proof/Machine/LockStep.lean ====
section
/-! DEFINITION. The lock-step link KX_DXP: received frames, the heartbeat and link timers, and the transmit queue (R736 to
R741). -/

namespace Sys2Proof.Machine

/-- CFG_LS LS_EN and LOCAL_ID, CFG_LS_PEER PEER_ID (R746). -/
def Cfg.localId (c : Cfg) : Nat := fld c.ls 16 16
/-- PEER_ID. -/
def Cfg.peerId (c : Cfg) : Nat := fld c.lsPeer 0 16

/-- The link works: the management island runs with LS_EN at 1. -/
def State.lsLive (s : State) : Bool := s.sys.porN && !s.sys.rstEnd && s.lsEn

/-- CRC-32C of a received frame, over offsets 0x01 to 0x2B (R736). -/
def dxpCrcOk (f : BitVec 384) : Bool := fld f (8 * 0x2C) 32 == crc32c ((toBytes 44 f.toNat).drop 1)

/-- What every received frame goes through: the CRC, the sender, the sequence number, LINK_UP (R738). The frame itself is used
when the last component is true. -/
def State.dxpTake (s : State) (f : BitVec 384) : State × Bool :=
  if !dxpCrcOk f then (s.errCount 0x320 9 1, false)
  else if fld f 16 16 ≠ s.cfg.peerId then (s.event .lsPeer 0 0, false)
  else
    let q : BitVec 16 := BitVec.ofNat 16 (fld f 32 16)
    let gap := match s.det.rxSeq with
      | some x => q != x + 1
      | none => false
    let s1 := if gap then s.event .lsGap 0 0 else s
    (s1.modDet fun d => { d with rxSeq := some q, lastRx := s.sys.ltc, linkUp := true }, true)

/-- TYPE of a frame (R736). -/
def dxpType (f : BitVec 384) : Nat := fld f 8 8

/-- LS_RECORD_FRAME (R738 to R741): a partner record is matched against the own records. The CRC is checked before TYPE is
used, so this row takes a damaged frame of any TYPE but that of a heartbeat; one of a TYPE that R736 does not give is ignored.
-/
def execLsRecordFrame (f : BitVec 384) (s : State) : Res :=
  .next <|
    if !s.lsLive || (dxpCrcOk f && dxpType f ≠ 0) then s
    else
      let r := s.dxpTake f
      if r.2 then r.1.lsMatch false ⟨fld f 48 8, BitVec.ofNat 32 (fld f 64 32), BitVec.ofNat 256 (fld f 96 256)⟩ else r.1

/-- LS_HEARTBEAT_FRAME (R738): a heartbeat shows that the link works. -/
def execLsHeartbeatFrame (f : BitVec 384) (s : State) : Res :=
  .next (if !s.lsLive || (dxpCrcOk f && dxpType f ≠ 1) then s else (s.dxpTake f).1)

/-- LS_HEARTBEAT_TIMER (R737): no frame has been sent for 10 µs, and none waits. -/
def execLsHeartbeatTimer (s : State) : Res :=
  .next (if !s.lsLive || !s.det.txq.isEmpty || s.sys.ltc < s.det.lastTx + us 10 then s else s.lsQueue 1 0 0 0)

/-- LS_LINK_TIMEOUT (R738): no valid frame has come for 100 µs, whatever LS_EN is by then. -/
def execLsLinkTimeout (s : State) : Res :=
  .next <|
    if !s.sys.porN || s.sys.rstEnd || !s.det.linkUp || s.sys.ltc < s.det.lastRx + us 100 then s
    else (s.modDet fun d => { d with linkUp := false }).event .lsLost 0 0

/-- The frame of 48 bytes that KX_DXP carries for an entry of the transmit queue, its first byte lowest: K28.5 as the code group
0xBC (PRESUMED, log 59), TYPE, SRC_ID, SEQ, stream, a zero byte, fence number, D_n, and the CRC-32C over offsets 0x01 to 0x2B
(R736). -/
def dxpFrame (srcId : Nat) (x : LsFrame) : BitVec 384 :=
  let body := toBytes 1 x.typ ++ toBytes 2 srcId ++ toBytes 2 x.seq.toNat ++ toBytes 1 x.stream ++ [0] ++
    toBytes 4 x.n.toNat ++ toBytes 32 x.d.toNat
  BitVec.ofNat 384 (ofBytes (0xBC :: body) + crc32c body * 2 ^ (8 * 0x2C))

/-- LS_FRAME_SENT (R736, R737): the frame at the head of the transmit queue has been sent on KX_DXP, 480 ns
after the one before it at the earliest. -/
def execLsFrameSent (s : State) : Res :=
  .next <|
    if !s.sys.porN || s.sys.rstEnd || s.sys.ltc < s.det.lastTx + 192 then s
    else match s.det.txq with
      | [] => s
      | x :: t => s.modDet fun d => { d with txq := t, lastTx := s.sys.ltc, dxp := some (dxpFrame s.cfg.localId x) }

end Sys2Proof.Machine
end

