-- ==== Sys2Proof/Machine/Shutdown.lean ====
section
/-! DEFINITION. Thermal shut-down: everything that stops at the evaluation at which it latches (R578 to R582, R219, R302,
R373, R482, R515). -/

namespace Sys2Proof.Machine

/-- What shut-down makes of a tracker entry: internal work ends, a request that has not completed completes with
THERMSTOP (R578); a brew launch ends through its launch. -/
def Entry.thermStop (e : Entry) : Option Entry :=
  match e.kind with
  | .scrub | .copy | .gatherList | .gatherPage | .digestRec | .ctxWrite | .resealWork | .digestWork => none
  | .brewLaunch => some e
  | .fence | .gather | .brewAbort => some (if e.fin.isSome then e else e.done .thermstop eOk)
  | .rd | .wr | .wrPartial | .acc | .writeBulk | .accBulk | .readBulk =>
    some (if e.fin.isSome || accsDone e.accs then e else (e.stopAll .thermstop).done .thermstop eOk)

/-- The fabric's part: the tracker, every queue, the gather engines and the launches, which end with
THERMSTOP unless their commit point came first (R219, R302, R373, R482). -/
def Fab.thermStop (f : Fab) : Fab :=
  { f with trk := f.trk.filterMap Entry.thermStop, mq := [], cq := [], fq := [], engines := [],
           launches := f.launches.map fun l =>
             { l with
                why := some ((l.why.map fun w => endStatus w .thermstop).getD .thermstop), doneDisp := true
                stopped := l.chans.foldl (fun a c => insertNat c a) l.stopped } }

/-- The destination of a row op in progress is left with unknown data (R482; free value, DESIGN CHOICE, log 4). -/
def State.spoilRow (s : State) (p : Nat) : State :=
  let q := (s.slice p).brew
  match q.op with
  | some w =>
    if isRowOp w && !q.stopped then
      s.nextFree.each q.banks fun s b => s.each (List.range 32) fun s c =>
        let k := keyOf p b (opD0 w % 16384) c
        s.setCode k (Config.freeCode s.sys.free k)
    else s
  | none => s

/-- The words that an island holds in its fabric-to-channel queue and its op queue are released (R64, R579). -/
def State.releaseAll (s : State) (p : Nat) : State :=
  (s.icqRelease 0 p (s.slice p).words0).icqRelease 2 p (2 * (s.slice p).brew.q.length)

/-- A channel island stops: its windows, buffers, caches and queues are lost, its banks go to self-refresh, calibration
stops (R515, R578, R579, R644). -/
def State.stopIsland (s : State) (p : Nat) : State :=
  (((s.spoilRow p).closeAll p).releaseAll p).modSlice p fun x =>
    { x with sch := { x.sch with window := [], narrowSlot := [], waiting := [], flight := [], grant := none, wrPhase := false, stop := true },
             dat := { ChData.reset with nextIx := x.dat.nextIx },
             brew := { BrewSeq.reset with mask := x.brew.mask, regs := x.brew.regs },
             rf := if x.rep.inServ then { x.rf with selfRef := true, refOn := false } else x.rf,
             link := { (if x.rep.inServ && !x.rf.selfRef then x.link.send (x.bt.restAt x.sch.cclk) false (rowHalf 4 0) else x.link) with
                calAct := false, cke := false },
             scr := { x.scr with checks := [], cmps := [] },
             rep := { x.rep with testing := false, repWait := [] } }

/-- Commands that need no channel go on (R798, R801). -/
def needsChannels (op : Nat) : Bool :=
  match op with
  | 0x01 | 0x02 | 0x03 | 0x11 | 0x12 | 0x42 | 0x45 | 0x52 => false
  | _ => true

/-- The BUSY command that needs channels, and a RATE_SET that waits, end with E_ABORTED (R581, R821; DEDUCED for the
commands other than those of R581, log 23); one whose reads complete with THERMSTOP ends with E_CHECK (R827, R841), and a
DIGEST_FENCE with its record (R731). A Frost entry is given up, and with it the holds of admission, those on their way too. -/
def State.abortBusy (s : State) : State :=
  let op := (s.mbx.copyCmd.setWidth 8).toNat
  let s1 := s.endPending 0x20 eAborted
  let s2 := if s1.mbx.st == .busy && needsChannels op && op != 0x50 && s1.det.align == 0 && s1.sys.phase == .running then
      s1.finish (if s1.mbx.run.any fun r => r.op == 0x31 || r.op == 0x61 then eCheck else eAborted) []
    else s1
  let s3 := if s2.sys.entering then s2.modSys fun y => { y with entering := false, frost := false } else s2
  let stays (c : Nat) : Bool := c == 3 || c == 4 || (c == 2 && s.sys.phase == .frost)
  (s3.modFab fun f => { f with hold := f.hold.filter stays }).modCtl fun c =>
    { c with words := c.words.filter fun x => match x.what with
      | .admHold n => stays n
      | .hold _ | .free _ | .admFree _ | .stop _ _ | .commit _ _ | .stopped _ _ => true }

/-- Shut-down latches (R578): the latch and its outputs, then everything stops. `hot` holds the slices at SHUTDOWN with
their readings. In Frost the instance stays in Frost (R906); in Thaw it goes to PHASE 4, and the
command that waits for it runs next (R907). -/
def State.shutDown (s : State) (hot : List (Nat × BitVec 16)) : State :=
  let s0 := s.detBreak 2
  let s1 := if s0.therm.enforce then s0.settleAll.event .thermEnforce 0 0 else s0
  let s2 := s1.modTherm fun t => { t with latch := true, thrReq := false, graceStart := none, graceLate := false, enforce := false }
  let s3 := s2.modMbx fun m => { m with irq := m.irq ||| 8 }
  let s4 := (s3.abandonChange.modFab Fab.thermStop).each (List.range 144) State.stopIsland
  let s5 := (s4.each (s4.fab.trk.map (·.id)) State.lateOnce).abortBusy
  let s6 := if s5.sys.phase == .thaw then
      (s5.modSys fun y => { y with phase := .running, frost := false }).modMbx fun m =>
        { m with starts := if m.st == .busy then some s5.sys.ltc else m.starts }
    else s5
  s6.each hot fun s pr => s.event .thermShutdown pr.1 (pr.1 + pr.2.toNat * 2 ^ 12)

end Sys2Proof.Machine
end

