-- ==== Sys2Proof/Machine/Thermal.lean ====
section
/-! DEFINITION. Housekeeping rounds: readings, cross-check, substitutes, rate of rise, converters, monitors, refresh
bands, thermal levels, throttle and grace, lane health, and the impedance engine (R539 to R577, R624, R640, R666 to
R672). -/

namespace Sys2Proof.Machine

/-- Ticks of a round, of the start of the first one, and from a round's start until its readings are there (R542,
R543). -/
def roundTicks : Nat := 400000
/-- LTC of the first round's start. -/
def roundFirst : Nat := 400
/-- Ticks after which the readings have been sent. -/
def readingsAt : Nat := 384000

/-- Sensor `i`. A voltage monitor's reset reading is 0xFFFF (R547): its field holds the reading with its low 15 bits
inverted, so that the reset value of both kinds is 0x8000. -/
def State.sensor (s : State) (i : Nat) : Sensor := Tab.get Sensor.reset s.therm.sens i

/-- Reading of a sensor as R547 shows it. -/
def State.reading (s : State) (i : Nat) : BitVec 16 :=
  if i < 288 then (s.sensor i).value else (s.sensor i).value ^^^ 0x7FFF

/-- The state with a sensor changed. -/
def State.modSensor (s : State) (i : Nat) (f : Sensor → Sensor) : State :=
  s.modTherm fun t => { t with sens := Tab.upd Sensor.reset t.sens i f }

/-- HK_ROUND_START (R542): the next round starts at its time, once the one before has been evaluated. The counts that a
slice keeps by round begin again (R666), and the rounds of the impedance engine count (R624). -/
def execHkRoundStart (s : State) : Res :=
  .next <|
    let t := roundFirst + roundTicks * s.therm.roundNo
    if !s.sys.porN || s.therm.roundOpen || s.sys.ltc < t then s
    else
      let s1 := s.modTherm fun h =>
        { h with roundOpen := true, roundStart := t, roundNo := h.roundNo + 1, zqRounds := min 1024 (h.zqRounds + 1) }
      { s1 with slices := Tab.mapVals Slice.reset (fun _ x => { x with scr := { x.scr with ceRec := false, ueRecs := 0 } }) s1.slices }

/-- The detail word of R587. -/
def thermDetail (sensor level : Nat) (value : BitVec 16) : Nat := sensor + level * 2 ^ 9 + value.toNat * 2 ^ 12

/-! ### Cross-check and substitutes (R549 to R555) -/

/-- Neighbours of a temperature sensor: the layers above and below, the positions on either side (R549). -/
def neighbours (i : Nat) : List Nat :=
  let base := if i < 144 then 0 else 144
  let p := i - base
  (if 9 ≤ p then [i - 9] else []) ++ (if p < 135 then [i + 9] else []) ++ (if p % 9 = 0 then [] else [i - 1]) ++
    (if p % 9 = 8 then [] else [i + 1])

/-- The median, the higher of the two middle ones for an even number (R550). -/
def median (l : List Int) : Int := (l.mergeSort fun a b => decide (a ≤ b)).getD (l.length / 2) 0

/-- One sensor's test of R549, with the broken marks of the start of the round. -/
def deviates (s : State) (i : Nat) : Bool :=
  let r := (s.reading i).toInt
  let nb := ((neighbours i).filter fun j => !(s.sensor j).broken).map fun j => (s.reading j).toInt
  if r < -640 || 2400 < r then true
  else if 2 ≤ nb.length then decide ((r - median nb).natAbs > 16 * fld s.cfg.therm1 10 4)
  else false

/-- SENSOR_CLEAR takes effect (R555, R815). -/
def Sensor.cleared (x : Sensor) : Sensor :=
  if x.clr then { x with clr := false, broken := false, devcnt := 0, hist := [], rose := false } else x

/-- The cross-check of every temperature sensor (R549, R551): those that deviate in three rounds in a row are declared broken.
One that was broken at the start of the round is not tested in it, nor after a SENSOR_CLEAR, which restores it now (R815). -/
def State.crossCheck (s : State) : State :=
  let start := s
  s.each (List.range 288) fun s i =>
    if (start.sensor i).broken then s.modSensor i fun x => { x.cleared with dev := false }
    else
      let d := deviates start i
      let n := if d then (start.sensor i).devcnt + 1 else 0
      let s1 := s.modSensor i fun x => { x with dev := d, devcnt := n, broken := n == 3 }
      if n = 3 then (s1.errCount 0x320 5 1).event .sensorBroken 0 (thermDetail i 0 (start.reading i)) else s1

/-- The substitute of a broken sensor, in the order of R552; none when no sensor of its kind is unbroken. -/
def State.substitute (s : State) (i : Nat) : Option Int :=
  let base := if i < 144 then 0 else 144
  let ok (l : List Nat) : List Int := (l.filter fun j => !(s.sensor j).broken).map fun j => (s.reading j).toInt
  let nb := ok (neighbours i)
  let layer := ok ((List.range 9).map fun x => base + 9 * ((i - base) / 9) + x)
  if !nb.isEmpty then some (median nb)
  else match layer.max? with
    | some v => some v
    | none => (ok ((List.range 144).map (base + ·))).max?

/-- Every broken sensor takes its substitute. A sensor that breaks when no other of its kind is unbroken has none before
it: its substitute is left open (R553; free value, DESIGN CHOICE, log 24). -/
def State.substitutes (old s : State) : State :=
  s.nextFree.each ((List.range 288).filter fun i => (s.sensor i).broken) fun t i =>
    match s.substitute i with
    | some v => t.modSensor i fun x => { x with sub := BitVec.ofInt 16 v }
    | none =>
      if (old.sensor i).broken then t
      else t.modSensor i fun x => { x with sub := (Config.freeWord s.sys.free i).setWidth 16 }

/-! ### Rate of rise, converters, monitors (R556 to R563) -/

/-- Rate of rise of every temperature sensor (R556, R557). -/
def State.rateOfRise (s : State) : State :=
  s.each (List.range 288) fun s i =>
    let x := s.sensor i
    if x.broken then s.modSensor i fun x => { x with hist := [], rose := false }
    else
      let r := s.reading i
      let fire := match x.hist[3]? with
        | some h => decide (r.toInt - h.toInt > 16 * (fld s.cfg.therm1 16 6 : Nat))
        | none => false
      let s1 := s.modSensor i fun x => { x with hist := r :: x.hist.take 3, rose := fire }
      if fire && !x.rose then (s1.stat 0x320 4 1).event .thermRise 0 (thermDetail i 0 r) else s1

/-- The cross-reference of the primary converters by the spare one in round `n` (R559, R560). -/
def State.converters (s : State) (n : Nat) (spare : List (BitVec 16)) : State :=
  if s.therm.adcFail ≠ 0 then s
  else
    let b := 12 * (n % 28)
    let off (j : Nat) : Bool :=
      let i := b + j
      let x := s.reading i
      let y := spare.getD j x
      if i < 288 then decide ((x.toInt - y.toInt).natAbs > 16) else decide (((x.toNat : Int) - y.toNat).natAbs > 16)
    let bad (a : Nat) : Bool := decide (2 ≤ ((List.range 12).filter fun j => (b + j) % 4 == a && off j).length)
    let s1 := s.modTherm fun t =>
      { t with adcMis := (List.range 4).foldl (fun m a => Tab.set 0 m a (if bad a then Tab.get 0 m a + 1 else 0)) t.adcMis }
    match (List.range 4).find? fun a => Tab.get 0 s1.therm.adcMis a == 3 with
    | some a => (s1.modTherm fun t => { t with adcFail := BitVec.ofNat 5 (2 ^ a + 16) }).event .adcFail 0 (thermDetail a 0 0)
    | none => s1

/-- The voltage monitors (R562). -/
def State.monitors (s : State) : State :=
  s.each (List.range 48) fun s v =>
    let i := 288 + v
    let x := s.sensor i
    let r := s.reading i
    let w := s.cfg.vmonAt v
    let low := decide (r.toNat < fld w 0 16)
    let high := decide (fld w 16 16 < r.toNat)
    let next (bad other : Bool) (n : Nat) : Nat := if bad then min 2 (n + 1) else if other && n = 2 then 2 else 0
    let lo := next low high x.lo
    let hi := next high low x.hi
    let s1 := s.modSensor i fun x => { x with lo := lo, hi := hi }
    let s2 := if lo = 2 && x.lo ≠ 2 then s1.event .vmonRange 0 (thermDetail i 0 r) else s1
    if hi = 2 && x.hi ≠ 2 then s2.event .vmonRange 0 (thermDetail i 1 r) else s2

/-! ### Levels, throttle and grace (R564 to R574) -/

/-- The level of a slice from its reading (R564). -/
def nextLevel (c : Cfg) (old : Nat) (reading : Int) : Nat :=
  let warn : Int := fld c.therm0 0 8
  let thr : Int := fld c.therm0 8 8
  let shut : Int := fld c.therm0 16 8
  if old = 3 || 16 * shut ≤ reading then 3
  else if 16 * thr ≤ reading || (2 ≤ old && 16 * (thr - 4) < reading) then 2
  else if 16 * warn ≤ reading || (1 ≤ old && 16 * (warn - 3) < reading) then 1
  else 0

/-- Enforcement starts or ends (R299, R569, R587). -/
def State.enforceTo (s : State) (on : Bool) : State :=
  let s1 := s.settleAll.detBreak 2
  (s1.modTherm fun t => { t with enforce := on, graceStart := none, graceLate := false }).event .thermEnforce 0
    (thermDetail 0 (b2n on) 0)

/-- KX_THR_REQ, grace and enforcement after the levels are set (R567 to R572, R585). -/
def State.throttle (s : State) : State :=
  let req := !s.therm.latch && (List.range 144).any fun p => (s.slice p).level == 2
  if req && !s.therm.thrReq then
    (s.modTherm fun t => { t with thrReq := true, graceStart := some s.sys.ltc, graceLate := false }).stat 0x320 2 1
  else if !req && s.therm.thrReq then
    let s1 := s.modTherm fun t => { t with thrReq := false, graceStart := none, graceLate := false }
    if s.therm.enforce then s1.enforceTo false else s1
  else match s.therm.graceStart with
    | some g => if s.therm.graceLate || g + s.cfg.graceTicks < s.sys.ltc then s.enforceTo true else s
    | none => s

/-- KX_THR_FRAC takes THR_FRAC; meters under enforcement settle at the old fraction first (R567, R585). -/
def State.takeFraction (s : State) : State :=
  let f := BitVec.ofNat 8 (fld s.cfg.therm0 24 8)
  if f = s.therm.thrFrac then s
  else (if s.therm.enforce then s.settleAll else s).modTherm fun t => { t with thrFrac := f }

/-- Levels of every slice, their records, shut-down when a slice reaches SHUTDOWN or no diode is left (R553, R564 to R566,
R578, R586), then the throttle. -/
def State.levels (s : State) : State :=
  let used (p : Nat) : BitVec 16 := s.sensorNow p
  let new (p : Nat) : Nat := nextLevel s.cfg (s.slice p).level (used p).toInt
  let none' := (List.range 144).all fun p => (s.sensor p).broken
  let hot := (List.range 144).filter fun p => new p == 3
  let latch := !s.therm.latch && (none' || !hot.isEmpty)
  let top := (least (fun a b => decide ((used b).toInt < (used a).toInt)) (List.range 144)).getD 0
  let s1 := s.each (List.range 144) fun t p =>
    let t1 := t.modSlice p fun x => { x with level := new p, temp := used p }
    if latch || new p = (s.slice p).level then t1
    else t1.event .thermLevel p (thermDetail p (new p) (s.reading p))
  let s2 := s1.modTherm fun t => { t with hotSlice := top }
  (if latch then s2.shutDown (hot.map fun p => (p, s.reading p)) else s2).throttle

/-! ### Lane health (R668 to R672) -/

/-- ERASE_THR, FAIL_ROUNDS and CLEAR_ROUNDS (R701). -/
def State.eraseThr (s : State) : Nat := fld s.stk.ecc 0 10
/-- FAIL_ROUNDS. -/
def State.failRounds (s : State) : Nat := fld s.stk.ecc 10 4
/-- CLEAR_ROUNDS. -/
def State.clearRounds (s : State) : Nat := fld s.stk.ecc 14 12

/-- One DQ bond at an evaluation: marked, failed, or unmarked (R669 to R671). -/
def State.evalLane (s : State) (p b : Nat) : State :=
  let l := (s.slice p).link
  let x := l.lane b
  let set (s : State) (f : Lane → Lane) : State := s.modLink p fun l => l.modLane b f
  if !l.good b then set s fun x => { x with corr := 0 }
  else if !x.marked then
    let s1 := set s fun x => { x with corr := 0 }
    if x.corr < s.eraseThr then s1
    else
      let syms := match l.laneOf b with
        | some k => (l.symsOf k).length
        | none => 0
      if 4 < l.erasures.length + syms then s1.failBond p b
      else (set s1 fun x => { x with marked := true, run := 0, clean := 0 }).linkEvent .laneErase p b 0
  else if x.corr = 0 then
    if s.clearRounds ≤ x.clean + 1 then (set s fun _ => Lane.reset).linkEvent .laneClear p b 0
    else set s fun x => { x with run := 0, clean := x.clean + 1 }
  else
    let s1 := set s fun x => { x with corr := 0, run := x.run + 1, clean := 0 }
    if s.failRounds ≤ x.run + 1 then s1.failBond p b else s1

/-- Lane health of a slice in service (R668 to R672). -/
def State.evalLanes (s : State) (p : Nat) : State :=
  s.each ((s.slice p).link.lanes.map (·.1)) fun s b => if isDqBond b then s.evalLane p b else s

/-- CAL_DUE of a bundle in service (R640). -/
def State.evalCal (s : State) (p : Nat) : State :=
  let l := (s.slice p).link
  if (s.slice p).rep.inServ && (l.up || l.state == .retrain) && decide (((s.tcOf p).toInt - l.tlast.toInt).natAbs > 16 * s.deltaT) then
    s.modLink p fun l => { l with calDue := true }
  else s

/-- The repair configuration of the image applies from an evaluation; a scrub that EN pauses keeps the time (R701,
R940). -/
def State.takeRepair (s : State) : State :=
  let on := bit s.cfg.scrub 0
  let s1 := s.modStk fun k => { k with ecc := s.cfg.ecc, scrub := s.cfg.scrub, mig := s.cfg.mig }
  if on = bit s.stk.scrub 0 then s1
  else s1.each (List.range 144) fun s p => s.modScr p fun x =>
    match on, x.spaused with
    | false, none => { x with spaused := some (s.view p) }
    | true, some t => { x with spaused := none, sstart := x.sstart + (s.view p - t) }
    | _, _ => x

/-! ### The evaluation -/

/-- The readings of a round are stored (R547). -/
def State.storeReadings (s : State) (r : List (BitVec 16)) : State :=
  s.modTherm fun t => { t with sens := (List.range 336).foldl (fun m i =>
    let v := r.getD i (if i < 288 then 0x8000 else 0xFFFF)
    Tab.upd Sensor.reset m i fun x => { x with value := if i < 288 then v else v ^^^ 0x7FFF }) t.sens }

/-- HK_EVALUATION (R543 to R572, R640, R668 to R672, R701, R865 to R870): the readings of the round, with the 12 of the
spare converter, are evaluated; the order of the records within an evaluation is a DESIGN CHOICE (log 25). While a warm
reset is in progress levels and outputs stay (R575; DEDUCED, log 26). A shut-down that ends a commit window lets a warm reset that
waited for it take effect (R811). -/
def execHkEvaluation (readings : List (BitVec 16)) (spare : List (BitVec 16)) (s : State) : Res :=
  .next <|
    if !s.sys.porN || !s.therm.roundOpen || s.sys.ltc < s.therm.roundStart + readingsAt then s
    else
      let n := s.therm.roundNo - 1
      let s1 := s.modTherm fun t =>
        { t with roundOpen := false, round := n % 2 ^ 32, roundLtc := s.sys.ltc }
      let s2 := (s1.icqPass 8 0).storeReadings readings
      let s3 := State.substitutes s s2.crossCheck
      let s4 := ((s3.converters n spare).rateOfRise).monitors
      let s5 := (s4.takeRepair).each (List.range 144) fun s p => s.reband p (s.sensorNow p) (s.sensor p).broken
      if s5.sys.rstEnd then s5.each (List.range 144) State.evalCal
      else
        let s6 := s5.takeFraction.levels
        let s7 := s6.each (List.range 144) fun s p => (if s.therm.latch then s else s.evalLanes p).evalCal p
        s7.evalPower.rstAfter

/-- THERM_GRACE_END (R568, R569): GRACE after its start, with KX_THR_REQ still 1, enforcement starts. -/
def execThermGraceEnd (s : State) : Res :=
  .next <|
    match s.therm.graceStart with
    | some g => if s.therm.thrReq && !s.therm.graceLate && decide (g + s.cfg.graceTicks ≤ s.sys.ltc) then s.enforceTo true else s
    | none => s

/-- ZQ_CAL (R624): every 1,024 rounds the impedance engine measures; each PHY takes the code at its next lane boundary or
retrain. -/
def execZqCal (code : BitVec 5) (s : State) : Res :=
  .next <|
    if !s.sys.porN || s.therm.zqRounds < 1024 then s
    else s.modTherm fun t => { t with zqRounds := 0, zqCode := code.toNat }

end Sys2Proof.Machine
end

