-- ==== Sys2Proof/Machine/Wrapper.lean ====
section
/-! DEFINITION. The IEEE 1500 wrapper and manufacturing test (R924 to R927). -/

namespace Sys2Proof.Machine

/-- The state with the wrapper changed. -/
def State.modWrap (s : State) (f : Wrap → Wrap) : State := { s with wrap := f s.wrap }

/-- The wrapper instruction in effect (R924). -/
def State.wir (s : State) (i : BitVec 8) : State := s.modWrap fun w => { w with wir := i }

/-- WS_BYPASS (R924): the 1-bit bypass register; nothing else changes. -/
def execWsBypass (s : State) : Res := .next (s.wir 0x00)

/-- An instruction allowed only while KX_POR_n is asserted; outside that it acts as WS_BYPASS (R925). -/
def State.underPor (s : State) (i : BitVec 8) (f : State → State) : State := if s.sys.porN then s.wir 0x00 else f (s.wir i)

/-- WS_EXTEST (R924): the boundary register takes the values shifted in and drives the signals. -/
def execWsExtest (v : BitVec 64) (s : State) : Res := .next (s.underPor 0x01 fun s => s.modWrap fun w => { w with boundary := v })

/-- WS_INTEST (R924): the boundary register applies values to the core, which power-on reset holds. -/
def execWsIntest (v : BitVec 64) (s : State) : Res := .next (s.underPor 0x02 fun s => s.modWrap fun w => { w with boundary := v })

/-- KX_IDCODE (R924): KX_VERSION and KX_ROMID. -/
def execKxIdcode (s : State) : Res :=
  .next ((s.wir 0x10).modWrap fun w => { w with idcode := Config.romId ++ Config.version })

/-- Bits that BIST and scan leave in the memory arrays of the controller are undefined until the start-up that follows
writes them (R926): the next free value, and the mark. -/
def State.spoilArrays (s : State) : State := s.nextFree.modWrap fun w => { w with undef := true }

/-- KX_MBIST (R926): every on-block array is tested; the result register shows DONE 0 meanwhile. -/
def execKxMbist (s : State) : Res :=
  .next (s.underPor 0x11 fun s => s.spoilArrays.modWrap fun w => { w with bist := 0, bistRun := true })

/-- MBIST_DONE (R926): DONE in bit 15, a pass bit for each array group. -/
def execMbistDone (groups : BitVec 8) (s : State) : Res :=
  .next <|
    if !s.wrap.bistRun || s.sys.porN then s
    else s.modWrap fun w => { w with bist := 0x8000 ||| groups.setWidth 16, bistRun := false }

/-- KX_SCAN (R924, R926). -/
def execKxScan (s : State) : Res := .next (s.underPor 0x12 State.spoilArrays)

/-- KX_SLICE_TEST (R924, R927): with START the named free spare is tested as by the in-service test, or abandoned at once without
a result where that test does not run (R931); another slice gives DONE 1 and PASS 0 at once. Outside READY or in DET_TIMING it
acts as WS_BYPASS (R925). -/
def execKxSliceTest (v : BitVec 16) (s : State) : Res :=
  .next <|
    let timing := match s.det.mode with | .timing => true | .off | .bits => false
    if !s.sys.ready || timing then s.wir 0x00
    else
      let p := fld v 0 8
      let s1 := (s.wir 0x13).modWrap fun w => { w with slice := v &&& 0x1FF }
      if !bit v 8 then s1
      else if p < 144 && s.freeSpare p then (if s.istAllowed then s1.marchStart p else s1)
      else s1.modWrap fun w => { w with slice := (v &&& 0x1FF) ||| 0x200 }

end Sys2Proof.Machine
end

