-- ==== Sys2Proof/Machine/Dispatch.lean ====
section
/-! DEFINITION. `exec`: one arm for each command of spec/opcode_table.json, each one direct call of its meaning. -/

namespace Sys2Proof.Machine

/-- The effect of a command on everything but the queue of waiting commands. -/
def exec (i : Instr) (s : State) : Host.Outcome State Fault Refusal :=
  match i with
  | .rd port r => Sys2Proof.Machine.execRd port r s
  | .wr port r => Sys2Proof.Machine.execWr port r s
  | .wrPartial port r => Sys2Proof.Machine.execWrPartial port r s
  | .acc port r => Sys2Proof.Machine.execAcc port r s
  | .fence port r => Sys2Proof.Machine.execFence port r s
  | .gather port r => Sys2Proof.Machine.execGather port r s
  | .brewLaunch port r => Sys2Proof.Machine.execBrewLaunch port r s
  | .brewAbort port r => Sys2Proof.Machine.execBrewAbort port r s
  | .writeBulk d => Sys2Proof.Machine.execWriteBulk d s
  | .accBulk d => Sys2Proof.Machine.execAccBulk d s
  | .readBulk d => Sys2Proof.Machine.execReadBulk d s
  | .writeDataBeat port data be => Sys2Proof.Machine.execWriteDataBeat port data be s
  | .inboundDataBeat data => Sys2Proof.Machine.execInboundDataBeat data s
  | .rspCrd port => Sys2Proof.Machine.execRspCrd port s
  | .odataCrd => Sys2Proof.Machine.execOdataCrd s
  | .cplCrd => Sys2Proof.Machine.execCplCrd s
  | .requestAdmit port => Sys2Proof.Machine.execRequestAdmit port s
  | .blpDescAdmit => Sys2Proof.Machine.execBlpDescAdmit s
  | .meterTest k svc => Sys2Proof.Machine.execMeterTest k svc s
  | .meterWheelEvent k svc => Sys2Proof.Machine.execMeterWheelEvent k svc s
  | .subBucketRefill k => Sys2Proof.Machine.execSubBucketRefill k s
  | .channelPeriodStart => Sys2Proof.Machine.execChannelPeriodStart s
  | .channelFill c => Sys2Proof.Machine.execChannelFill c s
  | .queueSample => Sys2Proof.Machine.execQueueSample s
  | .channelSchedule p => Sys2Proof.Machine.execChannelSchedule p s
  | .refreshDue p bank => Sys2Proof.Machine.execRefreshDue p bank s
  | .rdtThrottleEnd k c => Sys2Proof.Machine.execRdtThrottleEnd k c s
  | .readDataReturn p err => Sys2Proof.Machine.execReadDataReturn p err s
  | .writeBufferEnter p => Sys2Proof.Machine.execWriteBufferEnter p s
  | .accPieceApply p => Sys2Proof.Machine.execAccPieceApply p s
  | .resealRow c bank row => Sys2Proof.Machine.execResealRow c bank row s
  | .responseBeat port => Sys2Proof.Machine.execResponseBeat port s
  | .outboundBeat n => Sys2Proof.Machine.execOutboundBeat n s
  | .blpCompletionRecord => Sys2Proof.Machine.execBlpCompletionRecord s
  | .fenceComplete port => Sys2Proof.Machine.execFenceComplete port s
  | .digestRecordDone lost => Sys2Proof.Machine.execDigestRecordDone lost s
  | .gatherEngineStart => Sys2Proof.Machine.execGatherEngineStart s
  | .gatherListRead e => Sys2Proof.Machine.execGatherListRead e s
  | .gatherPageRead e => Sys2Proof.Machine.execGatherPageRead e s
  | .gatherBeat e => Sys2Proof.Machine.execGatherBeat e s
  | .brewDispatchOp n => Sys2Proof.Machine.execBrewDispatchOp n s
  | .brewLaunchStart p => Sys2Proof.Machine.execBrewLaunchStart p s
  | .brewOpStart p => Sys2Proof.Machine.execBrewOpStart p s
  | .brewOpEnd p => Sys2Proof.Machine.execBrewOpEnd p s
  | .brewPreempt p => Sys2Proof.Machine.execBrewPreempt p s
  | .brewResume p => Sys2Proof.Machine.execBrewResume p s
  | .brewLaunchCommit n => Sys2Proof.Machine.execBrewLaunchCommit n s
  | .brewLaunchEnd n => Sys2Proof.Machine.execBrewLaunchEnd n s
  | .scrubAccess p => Sys2Proof.Machine.execScrubAccess p s
  | .scrubPassLate p => Sys2Proof.Machine.execScrubPassLate p s
  | .scrubCheck p => Sys2Proof.Machine.execScrubCheck p s
  | .rowRepairAck p => Sys2Proof.Machine.execRowRepairAck p s
  | .rowRepairTimeout p => Sys2Proof.Machine.execRowRepairTimeout p s
  | .epUnitFault p bank => Sys2Proof.Machine.execEpUnitFault p bank s
  | .unitSub p bank => Sys2Proof.Machine.execUnitSub p bank s
  | .unitSubAck p bank => Sys2Proof.Machine.execUnitSubAck p bank s
  | .unitSubTimeout p bank => Sys2Proof.Machine.execUnitSubTimeout p bank s
  | .hkRoundStart => Sys2Proof.Machine.execHkRoundStart s
  | .hkEvaluation readings spare => Sys2Proof.Machine.execHkEvaluation readings spare s
  | .thermGraceEnd => Sys2Proof.Machine.execThermGraceEnd s
  | .zqCal code => Sys2Proof.Machine.execZqCal code s
  | .fedBudgetTimer => Sys2Proof.Machine.execFedBudgetTimer s
  | .powerReport l power pstate => Sys2Proof.Machine.execPowerReport l power pstate s
  | .powerSetAck l => Sys2Proof.Machine.execPowerSetAck l s
  | .powerSetTimeout l => Sys2Proof.Machine.execPowerSetTimeout l s
  | .istCycle o => Sys2Proof.Machine.execIstCycle o s
  | .sliceMarchDone pass => Sys2Proof.Machine.execSliceMarchDone pass s
  | .calPassStart p => Sys2Proof.Machine.execCalPassStart p s
  | .calLane p bondTrim spareTrim => Sys2Proof.Machine.execCalLane p bondTrim spareTrim s
  | .lsteerSwitch p => Sys2Proof.Machine.execLsteerSwitch p s
  | .sbAlertN p executed => Sys2Proof.Machine.execSbAlertN p executed s
  | .epCkLockLost p => Sys2Proof.Machine.execEpCkLockLost p s
  | .readStrobeLost p => Sys2Proof.Machine.execReadStrobeLost p s
  | .retrainEnd p o => Sys2Proof.Machine.execRetrainEnd p o s
  | .migStart p => Sys2Proof.Machine.execMigStart p s
  | .migRowCopy c => Sys2Proof.Machine.execMigRowCopy c s
  | .rebindZeroingDone c => Sys2Proof.Machine.execRebindZeroingDone c s
  | .icqPtrUpset u => Sys2Proof.Machine.execIcqPtrUpset u s
  | .ident => Sys2Proof.Machine.execIdent s
  | .tlmClear => Sys2Proof.Machine.execTlmClear s
  | .sensorClear => Sys2Proof.Machine.execSensorClear s
  | .cfgCommit => Sys2Proof.Machine.execCfgCommit s
  | .cfgStore => Sys2Proof.Machine.execCfgStore s
  | .cfgStoreTimeout => Sys2Proof.Machine.execCfgStoreTimeout s
  | .regionRead => Sys2Proof.Machine.execRegionRead s
  | .rateSet => Sys2Proof.Machine.execRateSet s
  | .detSet => Sys2Proof.Machine.execDetSet s
  | .accFlush => Sys2Proof.Machine.execAccFlush s
  | .brewLoad => Sys2Proof.Machine.execBrewLoad s
  | .reseal => Sys2Proof.Machine.execReseal s
  | .retrain => Sys2Proof.Machine.execRetrain s
  | .calRun => Sys2Proof.Machine.execCalRun s
  | .linkRead => Sys2Proof.Machine.execLinkRead s
  | .migrate => Sys2Proof.Machine.execMigrate s
  | .rebind => Sys2Proof.Machine.execRebind s
  | .firnRead => Sys2Proof.Machine.execFirnRead s
  | .firnReadTimeout => Sys2Proof.Machine.execFirnReadTimeout s
  | .digestFence => Sys2Proof.Machine.execDigestFence s
  | .digestRegion => Sys2Proof.Machine.execDigestRegion s
  | .lockstepRelease => Sys2Proof.Machine.execLockstepRelease s
  | .saveContext => Sys2Proof.Machine.execSaveContext s
  | .saveContextDrained => Sys2Proof.Machine.execSaveContextDrained s
  | .saveContextTimeout => Sys2Proof.Machine.execSaveContextTimeout s
  | .restoreContext => Sys2Proof.Machine.execRestoreContext s
  | .frostEnter => Sys2Proof.Machine.execFrostEnter s
  | .frostDrained => Sys2Proof.Machine.execFrostDrained s
  | .frostEnterTimeout => Sys2Proof.Machine.execFrostEnterTimeout s
  | .mbxBadOpcode => Sys2Proof.Machine.execMbxBadOpcode s
  | .modechgCommit => Sys2Proof.Machine.execModechgCommit s
  | .commitWindowEnd => Sys2Proof.Machine.execCommitWindowEnd s
  | .modechgPrepareTimeout => Sys2Proof.Machine.execModechgPrepareTimeout s
  | .alignArmed => Sys2Proof.Machine.execAlignArmed s
  | .detSetDrainTimeout => Sys2Proof.Machine.execDetSetDrainTimeout s
  | .alignA0 => Sys2Proof.Machine.execAlignA0 s
  | .alignAr => Sys2Proof.Machine.execAlignAr s
  | .alignTimeout => Sys2Proof.Machine.execAlignTimeout s
  | .kxPorNAssert => Sys2Proof.Machine.execKxPorNAssert s
  | .kxPorNRelease e => Sys2Proof.Machine.execKxPorNRelease e s
  | .zeroingDone => Sys2Proof.Machine.execZeroingDone s
  | .kxRstNAssert => Sys2Proof.Machine.execKxRstNAssert s
  | .kxRstNRelease => Sys2Proof.Machine.execKxRstNRelease s
  | .kxWake level => Sys2Proof.Machine.execKxWake level s
  | .thawRelease => Sys2Proof.Machine.execThawRelease s
  | .kxSubDownSet k => Sys2Proof.Machine.execKxSubDownSet k s
  | .kxSubDownClear k => Sys2Proof.Machine.execKxSubDownClear k s
  | .subDrained k => Sys2Proof.Machine.execSubDrained k s
  | .regWrite off v => Sys2Proof.Machine.execRegWrite off v s
  | .ltcLoRead => Sys2Proof.Machine.execLtcLoRead s
  | .tlmWord0Read slot => Sys2Proof.Machine.execTlmWord0Read slot s
  | .evtLogNext => Sys2Proof.Machine.execEvtLogNext s
  | .evtLogRewind => Sys2Proof.Machine.execEvtLogRewind s
  | .evtLogAck => Sys2Proof.Machine.execEvtLogAck s
  | .evtIrqClear mask => Sys2Proof.Machine.execEvtIrqClear mask s
  | .kxInstPwrokChange ok => Sys2Proof.Machine.execKxInstPwrokChange ok s
  | .kxAonRstN level => Sys2Proof.Machine.execKxAonRstN level s
  | .ringBypassOpen => Sys2Proof.Machine.execRingBypassOpen s
  | .announceTimer => Sys2Proof.Machine.execAnnounceTimer s
  | .announce src cfg agg psum => Sys2Proof.Machine.execAnnounce src cfg agg psum s
  | .memberExpiry m => Sys2Proof.Machine.execMemberExpiry m s
  | .image src chunk data => Sys2Proof.Machine.execImage src chunk data s
  | .prepare src xid op arg crc => Sys2Proof.Machine.execPrepare src xid op arg crc s
  | .ack src xid err => Sys2Proof.Machine.execAck src xid err s
  | .commit src xid => Sys2Proof.Machine.execCommit src xid s
  | .abort src xid => Sys2Proof.Machine.execAbort src xid s
  | .gangPrepareTimeout => Sys2Proof.Machine.execGangPrepareTimeout s
  | .budget src w => Sys2Proof.Machine.execBudget src w s
  | .budgetTimer => Sys2Proof.Machine.execBudgetTimer s
  | .digest src stream n d => Sys2Proof.Machine.execDigest src stream n d s
  | .aggTimeout stream => Sys2Proof.Machine.execAggTimeout stream s
  | .lsRecordFrame f => Sys2Proof.Machine.execLsRecordFrame f s
  | .lsHeartbeatFrame f => Sys2Proof.Machine.execLsHeartbeatFrame f s
  | .lsHeartbeatTimer => Sys2Proof.Machine.execLsHeartbeatTimer s
  | .lsLinkTimeout => Sys2Proof.Machine.execLsLinkTimeout s
  | .wsBypass => Sys2Proof.Machine.execWsBypass s
  | .wsExtest v => Sys2Proof.Machine.execWsExtest v s
  | .wsIntest v => Sys2Proof.Machine.execWsIntest v s
  | .kxIdcode => Sys2Proof.Machine.execKxIdcode s
  | .kxMbist => Sys2Proof.Machine.execKxMbist s
  | .mbistDone groups => Sys2Proof.Machine.execMbistDone groups s
  | .kxScan => Sys2Proof.Machine.execKxScan s
  | .kxSliceTest v => Sys2Proof.Machine.execKxSliceTest v s
  | .unsupportedTypeRequest port typ r => Sys2Proof.Machine.execUnsupportedTypeRequest port typ r s
  | .reservedOpDescriptor d => Sys2Proof.Machine.execReservedOpDescriptor d s
  | .cfgStoreDone good => Sys2Proof.Machine.execCfgStoreDone good s
  | .firnReadAnswer units rows => Sys2Proof.Machine.execFirnReadAnswer units rows s
  | .lsFrameSent => Sys2Proof.Machine.execLsFrameSent s
  | .ringFramePass f => Sys2Proof.Machine.execRingFramePass f s

end Sys2Proof.Machine
end

