-- ==== Sys2Proof/Machine/MbxRun.lean ====
section
/-! DEFINITION. Preid between doorbells: a copied command that waits to start, commands with memory accesses, a PENDING
RATE_SET, and the progress of a mode change (R252, R719, R755, R799, R802, R805, R859). -/

namespace Sys2Proof.Machine

/-- The copied command starts (R719, R755, R802): its bound counts from here (R799). -/
def State.runCopied (s : State) : State :=
  let t := s.modMbx fun m => { m with since := s.sys.ltc, starts := none }
  match fld s.mbx.copyCmd 0 8 with
  | 0x01 => t.cmdIdent
  | 0x02 => t.cmdTlmClear
  | 0x03 => t.cmdSensorClear
  | 0x10 => t.cmdCfgCommit
  | 0x11 => t.cmdCfgStore
  | 0x12 => t.cmdRegionRead
  | 0x20 => t.cmdRateSet
  | 0x21 => t.cmdDetSet
  | 0x30 => t.cmdAccFlush
  | 0x31 => t.cmdBrewLoad
  | 0x32 => t.cmdReseal
  | 0x40 => t.cmdRetrain
  | 0x41 => t.cmdCalRun
  | 0x42 => t.cmdLinkRead
  | 0x43 => t.cmdMigrate
  | 0x44 => t.cmdRebind
  | 0x45 => t.cmdFirnRead
  | 0x50 => t.cmdDigestFence
  | 0x51 => t.cmdDigestRegion
  | 0x52 => t.cmdLockstepRelease
  | 0x60 => t.cmdSaveContext
  | 0x61 => t.cmdRestoreContext
  | 0x70 => t.cmdFrostEnter
  | _ => t.finish eBadop []

/-- A copied command whose start has come. -/
def State.startHeld (s : State) : State :=
  match s.mbx.st, s.mbx.starts with
  | .busy, some t => if t ≤ s.sys.ltc then s.runCopied else s
  | _, _ => s

/-- What Preid and the management island do in a tick. -/
def State.preid (s : State) : State :=
  if !s.cpLive then s
  else s.startHeld.memWork.pendingRate.ackTime.gangGo.gangAck.heldPrepare

end Sys2Proof.Machine
end

