-- ==== Sys2Proof/Machine/Tick.lean ====
section
/-! DEFINITION. One tick of the LTC: what happens while no command waits. -/

namespace Sys2Proof.Machine

/-- The lag of an island's view after a tick: 1 to 3 ticks, and exactly 3 in DET_TIMING (R37, R38, R718). The view advances by
one tick, or by two, or holds its value unless it `held` it at the last tick; which of these is a free value outside
DET_TIMING (DEDUCED, log 3). While an alignment holds the islands in reset their views fall back to a lag of 3, so that the
view loaded at AR is no smaller (R37, R713, R715). -/
def State.nextLag (s : State) (i old : Nat) (held : Bool) : Nat :=
  let o := max 1 (min 3 old)
  if 2 ≤ s.det.align then (if held then o else min 3 (o + 1))
  else match s.det.mode with
  | .timing => 3
  | .off | .bits => match Config.freeLag s.sys.free i % 3 with
    | 0 => max 1 (o - 1)
    | 1 => if held then o else min 3 (o + 1)
    | _ => o

/-- The counter counts, and every island's view follows it (R31, R37). -/
def State.countTick (s : State) : State :=
  let s1 : State := { s with slices := (List.range 144).foldl (fun t p =>
    Tab.upd Slice.reset t p fun x =>
      let n := s.nextLag p x.lag x.lagHeld
      { x with lag := n, lagHeld := decide (x.lag < n) }) s.slices }
  let n := s.nextLag 144 s.sys.fabLag s.sys.fabHeld
  s1.modSys fun y =>
    { y with ltc := (y.ltc + 1) % 2 ^ 64, fabLag := n, fabHeld := decide (s.sys.fabLag < n), free := y.free + 1 }

/-- KX_ALIGN is sampled 0 on a REFCLK edge, one in four ticks, after ARMED: it is 1 only at ALIGN_A0 (R714; DEDUCED,
log 36). -/
def State.sampleAlign (s : State) : State :=
  if s.det.align = 2 && s.sys.ltc % 4 = 0 then s.modDet fun d => { d with lows := min 2 (d.lows + 1) } else s

/-- Ticks spent under enforcement are counted (R589). -/
def State.countEnforce (s : State) : State := if s.therm.enforce then s.stat 0x320 3 1 else s

/-- Ticks that channels spend in holds are counted (R258). Those in which a single access waits at admission for a row that is
being copied (last row of R243) are not: the channel is not held then, and R258 does not say which it means (DESIGN CHOICE,
log 71). -/
def State.countHolds (s : State) : State :=
  s.each ((List.range 144).filter fun p => (s.slice p).sch.held != 0) fun s p => s.statSlice p 8 1

/-- Records come into the reader's view in DET_TIMING: an occupancy that so reaches LEVEL from below sets LEVEL (R62, R81). `seen`
is the occupancy before the tick. -/
def State.levelTick (s : State) (seen : Nat) : State :=
  if seen < s.evt.level && s.evt.level ≤ s.logSeen then s.modMbx fun m => { m with irq := m.irq ||| 16 } else s

/-- One LTC tick (R31, R32): the counter is held while power-on reset is asserted. Words that have crossed are read (R81).
Records that the log dropped are reported once its producer sees room (R82, R769). -/
def State.ltcTick (s : State) : State :=
  if s.sys.porN then (((s.countTick.levelTick s.logSeen).sampleAlign.countEnforce.countHolds.readReports.readWords).reportDrops).preid else s

end Sys2Proof.Machine
end

