-- ==== Sys2Proof/Safety.lean ====
section
/-! DEFINITION. What the claims about the block mean by a sound state and a safe step. -/

namespace Sys2Proof.Machine

/-- A step that answers a next state: the block neither stops nor refuses. -/
def Safe (s : State) : Prop := ∃ t, step s = .next t

/-- `P` holds of every state that a step from `s` can answer. -/
def StepTo (s : State) (P : State → Prop) : Prop := ∀ t, step s = .next t → P t

/-- An invariant: every step keeps it, from every state that has it. -/
def Invariant (P : State → Prop) : Prop := ∀ s, P s → StepTo s P

/-- The state is in canonical form: the memory arrays, the port table, the island table and the counters list each
number once, in rising order and never with the value an unlisted number reads as, and the event log holds at most its
256 records (R768). Two such states with equal contents are equal data. -/
def State.Canon (s : State) : Prop :=
  Memory.wf s.mem = true ∧ Tab.wf Port.reset s.ports = true ∧ Tab.wf Slice.reset s.slices = true ∧
    Tab.wf Ctr.reset s.ctl.tlm = true ∧ s.evt.recs.length ≤ 256

/-- The parts of the state, one for each field of `State` but the queue. -/
inductive Part where
  | sys | ctl | mbx | evt | cfg | mc | fab | ports | blp | slices | therm | stk | det | ring | wrap | mem
  deriving DecidableEq, Repr

/-- A part is as before. -/
def Part.same (p : Part) (s t : State) : Prop :=
  match p with
  | .sys => t.sys = s.sys
  | .ctl => t.ctl = s.ctl
  | .mbx => t.mbx = s.mbx
  | .evt => t.evt = s.evt
  | .cfg => t.cfg = s.cfg
  | .mc => t.mc = s.mc
  | .fab => t.fab = s.fab
  | .ports => t.ports = s.ports
  | .blp => t.blp = s.blp
  | .slices => t.slices = s.slices
  | .therm => t.therm = s.therm
  | .stk => t.stk = s.stk
  | .det => t.det = s.det
  | .ring => t.ring = s.ring
  | .wrap => t.wrap = s.wrap
  | .mem => t.mem = s.mem

/-- The frame of a command: every part of the state that `ps` does not name, and the queue, are as before. -/
def Frame (ps : List Part) (s t : State) : Prop := t.pending = s.pending ∧ ∀ p, p ∉ ps → p.same s t

/-- Of the control port the telemetry counters alone have changed, and of the mailbox the interrupt causes alone: what
counting and recording may touch besides the event log (R765, R767, R773). -/
def Counted (s t : State) : Prop :=
  t.ctl = { s.ctl with tlm := t.ctl.tlm } ∧ t.mbx = { s.mbx with irq := t.mbx.irq }

/-- Of the control port the crossing queues alone have changed: their pointers and credits (R47, R64). -/
def Crossed (s t : State) : Prop := t.ctl = { s.ctl with icqs := t.ctl.icqs }

/-- The same with the counters, and of the mailbox the causes alone. -/
def CountedCrossed (s t : State) : Prop :=
  t.ctl = { s.ctl with tlm := t.ctl.tlm, icqs := t.ctl.icqs } ∧ t.mbx = { s.mbx with irq := t.mbx.irq }

/-- The same with the control words that are on their way (R15, R81). -/
def CountedTold (s t : State) : Prop :=
  t.ctl = { s.ctl with tlm := t.ctl.tlm, icqs := t.ctl.icqs, words := t.ctl.words } ∧ t.mbx = { s.mbx with irq := t.mbx.irq }

/-- Control word `w` has passed queue (q, `i`): its consumer has read it at once, where `read` says what it does, or the word
is on its way, as in DET_TIMING, where it is read later (R15, R80, R81). -/
def State.Tells (s t : State) (q i : Nat) (w : CtlWord) (read unread : Prop) : Prop :=
  if s.icqSeen q i ≤ s.sys.ltc then t.ctl.words = s.ctl.words ∧ read
  else t.ctl.words = s.ctl.words ++ [⟨q, i, s.icqSeen q i, w⟩] ∧ unread

/-- The port, TYPE and request word of a command that hands a request word to a port (R84, R93, R107). -/
def portWord : Instr → Option (Nat × Nat × Request)
  | .rd p r => some (p.val, 0, r)
  | .wr p r => some (p.val, 1, r)
  | .wrPartial p r => some (p.val, 2, r)
  | .acc p r => some (p.val, 3, r)
  | .fence p r => some (p.val, 4, r)
  | .gather p r => some (p.val, 5, r)
  | .brewLaunch p r => some (p.val, 6, r)
  | .brewAbort p r => some (p.val, 7, r)
  | .unsupportedTypeRequest p typ r => if unsupportedType p.val typ.toNat then some (p.val, typ.toNat, r) else none
  | _ => none

/-- The OP and fields of a command that hands a descriptor to the BLP (R143, R144). -/
def blpWord : Instr → Option (Nat × Desc)
  | .writeBulk d => some (0, d)
  | .accBulk d => some (1, d)
  | .readBulk d => some (2, d)
  | .reservedOpDescriptor d => some (3, d)
  | _ => none

/-- Between `s` and `t` the head `q` of the meter queue of (k, svc) has been tested against its meter and bucket, as the
refills due leave them (R269, R280, R290). Held red: it waits for its wheel event (R279). Held at level 1: it waits for the
wheel event of its bucket (R281). Else it leaves the queue, its pieces enter the channel queues with its colour, and its
charge is taken (R262, R270). -/
def State.HeadTested (s t : State) (k svc : Nat) (q : Shaped) : Prop :=
  let m := 6 * k + svc
  let s1 := (s.settleMeter m).settleBucket k
  let x := s1.fab.meter m
  let b := s1.fab.bucket k
  let ci := if x.mode = 0 ∨ (x.mode = 2 ∧ s.trusted k = false) then Colour.green else q.ci
  let need := if ci = .red then x.pbs * 64 else min q.charge (x.pbs * 64)
  let red := x.pir ≠ unlimited ∧ x.tp < (need : Nat)
  let held := b.rate ≠ unlimited ∧ b.ts < (min q.charge (b.burst * 64) : Nat)
  let yellow := x.pir ≠ unlimited ∧ (ci ≠ .green ∨ (x.cir ≠ unlimited ∧ x.tc < (min q.charge (x.cbs * 64) : Nat)))
  let mine (y : Shaped) : Bool := y.sub == k && y.svc == svc
  (red → t.fab = { s1.fab with
    meters := Tab.set Meter.reset s1.fab.meters m { x with slot := some (s.wheelSlot m x (s.trusted k) q.ci q.charge) }
    mq := updFirst mine (fun y => { y with red := true, held1 := false }) s1.fab.mq }) ∧
  (¬ red → held → t.fab = (State.placeBucket { s1 with fab := { s1.fab with
    meters := Tab.set Meter.reset s1.fab.meters m { x with slot := none }
    mq := updFirst mine (fun y => { y with red := false, held1 := true }) s1.fab.mq } } k).fab) ∧
  (¬ red → ¬ held → ∀ col : Colour, col = (if yellow then .yellow else .green) → t.fab = { s1.fab with
    meters := Tab.set Meter.reset s1.fab.meters m { x with
      slot := none
      tp := if x.pir = unlimited then x.tp else x.tp - (q.charge : Nat)
      tc := if x.pir = unlimited ∨ x.cir = unlimited ∨ col = .yellow then x.tc else x.tc - (q.charge : Nat) }
    buckets := Tab.set Bucket.reset s1.fab.buckets k (if b.rate = unlimited then b else { b with ts := b.ts - (q.charge : Nat) })
    mq := dropFirst (fun y => y.sub == q.sub && y.svc == q.svc) s1.fab.mq
    cq := s1.fab.cq ++ q.pieces.map fun p => { p with colour := col } })

/-- Between `s` and `t` gather engine `i` has issued one read: its entry of subscriber 42 stands last in the tracker, for
the GATHER's port, address and length, and waits last in the meter queues (R361, R362, R365, R366). -/
def State.GatherReads (s t : State) (i : Nat) (kind : Kind) (addr n : Nat) (accs : List Acc) : Prop :=
  ∃ e h, t.fab.trk = s.fab.trk ++ [e] ∧ e.id = s.fab.nextId ∧ e.sub = 42 ∧ e.msub = (s.gatherOf i).sub ∧ e.kind = kind ∧
    e.req.addr = BitVec.ofNat 40 addr ∧ e.req.len = BitVec.ofNat 5 (n - 1) ∧ e.parent = i ∧ e.accs = accs ∧ e.fin = none ∧
    t.fab.mq = s.fab.mq ++ [h] ∧ h.eid = s.fab.nextId ∧ h.sub = (s.gatherOf i).sub ∧
    h.svc = (s.gatherOf i).req.service.toNat ∧ h.charge = 64 * accs.length ∧ t.fab.nextId = s.fab.nextId + 1

/-- The opcode of a mailbox command, whether R719 delays it in DET_TIMING, and the bits that each of its argument words
defines (R719, R798, R800). -/
def mailCmd : Instr → Option (Nat × Bool × List Nat)
  | .ident => some (0x01, false, [])
  | .tlmClear => some (0x02, false, [0xFFF, 0xFFF])
  | .sensorClear => some (0x03, false, [0x1FF])
  | .cfgCommit => some (0x10, false, [])
  | .cfgStore => some (0x11, false, [1])
  | .regionRead => some (0x12, false, [0x3F])
  | .rateSet => some (0x20, false, [3])
  | .detSet => some (0x21, false, [3])
  | .accFlush => some (0x30, true, [0x13F])
  | .brewLoad => some (0x31, true, [0x1FF003F, 0xFFFFFFFF, 0x1F, 0xFFFFFFFF])
  | .reseal => some (0x32, true, [0x13F])
  | .retrain => some (0x40, true, [0xFF])
  | .calRun => some (0x41, true, [0xFF])
  | .linkRead => some (0x42, false, [0x3FF, 0x37F])
  | .migrate => some (0x43, true, [0xFFFF7F])
  | .rebind => some (0x44, true, [0xFF7F])
  | .firnRead => some (0x45, false, [0xFF])
  | .digestFence => some (0x50, true, [0xF])
  | .digestRegion => some (0x51, true, [0xF3F])
  | .lockstepRelease => some (0x52, false, [])
  | .saveContext => some (0x60, true, [0x3F])
  | .restoreContext => some (0x61, true, [0x3F])
  | .frostEnter => some (0x70, false, [])
  | _ => none

/-- A doorbell with an opcode is taken and its command runs at once: the control port works, no command is BUSY, the
instance is not in Frost, and R719 does not delay the command (R755, R756, R802). -/
def State.Rings (s : State) (op : Nat) (quant : Bool) : Prop :=
  s.cpLive = true ∧ fld s.mbx.cmd 0 8 = op ∧ s.mbx.st ≠ .busy ∧ (s.sys.phase ≠ .frost ∨ s.therm.latch = true) ∧
    (quant = true → s.det.mode ≠ .timing)

/-- The mailbox after a doorbell whose command has run to its end: the copy taken, DONE, the code, the response words on
E_OK only, and the MBX cause when the copied IRQ bit is 1 (R755, R758, R803). -/
def State.answer (s : State) (err : BitVec 8) (l : List Word) : Mbx :=
  { s.mbx with
    copyCmd := s.mbx.cmd, copyArgs := s.mbx.args, opcode := s.mbx.cmd.setWidth 8, since := s.sys.ltc, run := none, starts := none
    st := .done, pend := false, err := err
    resp := if err = eOk then tabOf l else []
    nresp := if err = eOk then l.length else 0
    irq := if bit s.mbx.cmd 8 then s.mbx.irq ||| 1 else s.mbx.irq }

/-- The mailbox after a doorbell whose command is BUSY, with what it still has to do (R755, R758). -/
def State.busyWith (s : State) (r : Option RunCmd) : Mbx :=
  { s.mbx with
    copyCmd := s.mbx.cmd, copyArgs := s.mbx.args, opcode := s.mbx.cmd.setWidth 8, since := s.sys.ltc, run := r, starts := none
    st := .busy, pend := false, resp := [], nresp := 0 }

/-- The mailbox after the command that it holds has ended (R758, R803). -/
def State.ended (s : State) (err : BitVec 8) (l : List Word) : Mbx :=
  { s.mbx with
    run := none, starts := none, st := .done, err := err
    resp := if err = eOk then tabOf l else []
    nresp := if err = eOk then l.length else 0
    irq := if bit s.mbx.copyCmd 8 then s.mbx.irq ||| 1 else s.mbx.irq }

end Sys2Proof.Machine
end

