-- ==== Sys2Proof/Certificates/Slice0/Obligations.lean ====
section
/-! DEFINITION. The statements for the provers, family by family, in the order of the command table. Each says of every
command it names where it runs and what it then does: the value of each part of the state that its rules give, and (with
`Frame`) that the rest is as before. `State.Canon` is the one invariant they assume; `CanonKept` states it. -/

open Sys2Proof Sys2Proof.Machine

/-! ### The machine as a whole -/

/-- A step takes the command at the front of the queue and runs it on the state with the queue's rest; what it answers is what
the command answers. -/
def Obligations.StepRunsFront : Prop :=
  ∀ (s : State) (c : Instr) (rest : List Instr), step { s with pending := c :: rest } = exec c { s with pending := rest }

/-- No command stops the block: every command answers a next state, from every state. No command touches the queue: after a
step the commands that wait are the ones that waited behind the front. -/
def Obligations.NoCommandStops : Prop :=
  (∀ (c : Instr) (s : State), ∃ t, exec c s = .next t) ∧
  (∀ s t : State, s.Canon → step s = .next t → t.pending = s.pending.tail)

/-- On an empty queue a step is one tick (DESIGN CHOICE, log 1). While KX_POR_n is low nothing changes. While it is high and
Preid has nothing to go on with, the LTC is one more modulo 2^64 (R31, R32), and every view lags by 1 to 3 ticks; outside
DET_TIMING a view advances by one tick, by two, or holds its value, which it does not at two ticks running (R37). Words that have
crossed a queue by then are read (R81). -/
def Obligations.IdleStepTicks : Prop :=
  ∀ s : State, s.pending = [] →
    (s.sys.porN = false → step s = .next s) ∧
    (s.sys.porN = true → s.Canon → s.mbx.starts = none → s.mbx.run = none → s.mbx.pending = [] → s.mc = none →
      s.ring.gang = none →
      ∃ t, step s = .next t ∧ t.sys.ltc = (s.sys.ltc + 1) % 2 ^ 64 ∧ 1 ≤ t.sys.fabLag ∧ t.sys.fabLag ≤ 3 ∧
        (∀ p, p < 144 → 1 ≤ (t.slice p).lag ∧ (t.slice p).lag ≤ 3) ∧
        (s.det.mode ≠ .timing → 1 ≤ s.sys.fabLag → s.sys.fabLag ≤ 3 →
          t.sys.fabLag ≤ s.sys.fabLag + 1 ∧ s.sys.fabLag ≤ t.sys.fabLag + 1 ∧ (s.sys.fabHeld = true → t.sys.fabLag ≤ s.sys.fabLag)) ∧
        (∀ p, p < 144 → s.det.mode ≠ .timing → 1 ≤ (s.slice p).lag → (s.slice p).lag ≤ 3 →
          (t.slice p).lag ≤ (s.slice p).lag + 1 ∧ (s.slice p).lag ≤ (t.slice p).lag + 1 ∧
            ((s.slice p).lagHeld = true → (t.slice p).lag ≤ (s.slice p).lag)) ∧
        Frame [.sys, .slices, .det, .ctl, .evt, .mbx, .fab] s t)

/-- The state after power-on reset is in canonical form, with no command waiting, and holds the values that the spec gives:
LTC 0, PHASE 0 and READY 0, the rails off, the mailbox IDLE, the event log empty with SEQ 0, every counter 0, the staging
buffer and the program store empty, no shut-down latch, the ring stop bypassed, and the memory arrays at zero (R32, R428,
R580, R770, R775, R791, R883, R919; the arrays DESIGN CHOICE, log 2). -/
def Obligations.ResetState : Prop :=
  State.reset.Canon ∧ State.reset.pending = [] ∧ State.reset.sys.ltc = 0 ∧ State.reset.sys.phase = .romBoot ∧
    State.reset.sys.ready = false ∧ State.reset.sys.rails = 0 ∧ State.reset.mbx.st = .idle ∧ State.reset.evt.recs = [] ∧
    State.reset.evt.seq = 0 ∧ (∀ page slot, State.reset.ctr page slot = Ctr.reset) ∧ State.reset.ctl.staging = [] ∧
    State.reset.ctl.tlmSel = 0 ∧ (∀ i, State.reset.fab.prog i = []) ∧ State.reset.therm.latch = false ∧
    State.reset.ringLive = false ∧ State.reset.det.mode = .off ∧ (∀ k, State.reset.code k = 0)

/-- Every step keeps the canonical form, from every state that has it: no command and no tick leaves the memory arrays, the
port table, the island table or the counters out of their form, or more than 256 records in the event log (R768, R769). -/
def Obligations.CanonKept : Prop :=
  Invariant State.Canon

/-! ### Words, beats and credits at the ports (R84 to R101, R143 to R149) -/

/-- RD, WR, WR_PARTIAL, ACC, FENCE, GATHER, BREW_LAUNCH, BREW_ABORT and a word of an unsupported TYPE: a port that takes words
and whose requester holds a credit accepts the word. It stands at the end of the input queue with its TYPE, its arrival LTC,
its acceptance number and the mark of a repeated TAG; the credit and the acceptance number are used; every other port, and all
but the write data bound to earlier requests, stays. -/
def Obligations.RequestAccepted : Prop :=
  ∀ (i : Instr) (k ty : Nat) (r : Request) (s : State), portWord i = some (k, ty, r) → s.Canon → s.portsLive = true →
    s.isMasked k = false → (s.port k).reqCrd ≠ 0 →
    ∃ t, exec i s = .next t ∧
      (t.port k).inq = (s.port k).inq ++ [⟨ty, r, s.fabView, (s.port k).nextOrd, s.tagInFlight k r.tag⟩] ∧
      (t.port k).reqCrd + 1 = (s.port k).reqCrd ∧
      (t.port k).nextOrd = (s.port k).nextOrd + 1 ∧
      (∀ j, j ≠ k → t.port j = s.port j) ∧
      t.fab.trk.map (fun e => { e with wdat := [] }) = s.fab.trk.map (fun e => { e with wdat := [] }) ∧
      t.fab.ghost.map (fun e => { e with wdat := [] }) = s.fab.ghost.map (fun e => { e with wdat := [] }) ∧
      t.fab = { s.fab with trk := t.fab.trk, ghost := t.fab.ghost } ∧
      Frame [.ports, .fab] s t

/-- The same words at a port whose requester holds no credit: the word is not taken; the protocol error is counted for the
subscriber and PORT_PROTOCOL is recorded with DETAIL 1, in DET_TIMING once its word has crossed (R81, R90). At a port that
takes none, or a masked one, nothing happens at all (R160, R885). -/
def Obligations.RequestRefused : Prop :=
  ∀ (i : Instr) (k ty : Nat) (r : Request) (s : State), portWord i = some (k, ty, r) →
    ((s.portsLive = false ∨ s.isMasked k = true) → exec i s = .next s) ∧
    (s.portsLive = true → s.isMasked k = false → (s.port k).reqCrd = 0 →
      exec i s = .next ((s.errCount (0x280 + k) 1 1).reportFab .portProtocol k 1))

/-- WRITE_BULK, ACC_BULK, READ_BULK and a descriptor of OP 3: a BLP that takes words and whose network engine holds a credit
accepts the descriptor. It stands at the end of the descriptor queue, with the LTC at which the fabric reads it out of its
crossing queue; OP 0 and 1 owe one inbound beat for each 64 B or part of it; everything else stays (R81, R144, R148, R149).
The 256-bit descriptor is one command, which carries its OP and every other bit of it. -/
def Obligations.DescriptorAccepted : Prop :=
  (∀ w : BitVec 256, descWord (blpCommand w) = some w ∧ blpWord (blpCommand w) = some ((Desc.opOf w).toNat, Desc.ofWord w)) ∧
  ∀ (i : Instr) (op : Nat) (d : Desc) (s : State), blpWord i = some (op, d) → s.portsLive = true → s.isMasked 36 = false →
    s.blp.descCrd ≠ 0 →
    ∃ t, exec i s = .next t ∧
      t.blp = { s.blp with
        descCrd := s.blp.descCrd - 1
        dq := s.blp.dq ++ [⟨op, d, s.fabView, s.blp.nextOrd, s.icqSeen 5 0⟩]
        nextOrd := s.blp.nextOrd + 1
        owed := s.blp.owed ++ (if op < 2 ∧ d.len ≠ 0 then [⟨s.blp.nextOrd, (d.len.toNat + 63) / 64, false⟩] else []) } ∧
      Crossed s t ∧ Frame [.blp, .ctl] s t

/-- RSP_CRD, ODATA_CRD and CPL_CRD: one credit returned is one credit more, and nothing else changes (R87). -/
def Obligations.CreditReturned : Prop :=
  ∀ s : State, s.portsLive = true →
    (∀ k : Fin 36, s.Canon → s.isMasked k.val = false → ∃ t, exec (.rspCrd k) s = .next t ∧
      (t.port k.val).rspCrd = (s.port k.val).rspCrd + 1 ∧
      t.port k.val = { s.port k.val with rspCrd := (t.port k.val).rspCrd, rspGrant := (t.port k.val).rspGrant } ∧
      (∀ j, j ≠ k.val → t.port j = s.port j) ∧ Frame [.ports] s t) ∧
    (s.isMasked 36 = false → exec .odataCrd s = .next { s with blp := { s.blp with odataCrd := s.blp.odataCrd + 1 } }) ∧
    (s.isMasked 36 = false → exec .cplCrd s = .next { s with blp := { s.blp with cplCrd := s.blp.cplCrd + 1 } })

/-- WRITE_DATA_BEAT before any request owes it (kept for the next one: DESIGN CHOICE, log 56), and INBOUND_DATA_BEAT for a
descriptor that has not been admitted: the beat is kept in acceptance order, and nothing else changes but the crossing queue
that an inbound beat passes. A beat of an owed request goes to the oldest one (R97, R148). No request that has ended is owed
data here. -/
def Obligations.DataBeatTaken : Prop :=
  ∀ s : State, s.Canon → s.portsLive = true → s.fab.ghost = [] →
    (∀ (k : Fin 36) (d : BitVec 1024) (be : BitVec 128), s.isMasked k.val = false → (s.port k.val).wdCrd ≠ 0 →
      (s.port k.val).owed = [] → (s.fab.trk.any fun e => e.sub == k.val) = false →
      ∃ t, exec (.writeDataBeat k d be) s = .next t ∧
        t.port k.val = { s.port k.val with early := (s.port k.val).early ++ [portBeat k.val d be] } ∧
        (∀ j, j ≠ k.val → t.port j = s.port j) ∧ Frame [.ports] s t) ∧
    (∀ (k : Fin 36) (d : BitVec 1024) (be : BitVec 128) (o : Owed) (os : List Owed), s.isMasked k.val = false →
      (s.port k.val).wdCrd ≠ 0 → (s.port k.val).early = [] → (s.port k.val).owed = o :: os → 1 < o.left → o.drop = false →
      (s.fab.trk.any fun e => e.sub == k.val) = false →
      ∃ t, exec (.writeDataBeat k d be) s = .next t ∧
        t.port k.val = { s.port k.val with
          owed := { o with left := o.left - 1 } :: os, wdat := (s.port k.val).wdat ++ [(o.ord, portBeat k.val d be)] } ∧
        (∀ j, j ≠ k.val → t.port j = s.port j) ∧ Frame [.ports] s t) ∧
    (∀ (d : BitVec 512) (o : Owed) (os : List Owed), s.isMasked 36 = false → s.blp.idataCrd ≠ 0 → s.blp.owed = o :: os →
      o.drop = false → (s.fab.trk.any fun e => e.sub == 36) = false →
      ∃ t, exec (.inboundDataBeat d) s = .next t ∧
        t.blp = { s.blp with
          owed := if o.left ≤ 1 then os else { o with left := o.left - 1 } :: os
          idat := s.blp.idat ++ [(o.ord, d)]
          late := if s.icqSeen 5 0 ≤ s.sys.ltc then s.blp.late
            else (s.blp.late.filter fun x => decide (s.sys.ltc < x.2)) ++ [(o.ord, s.icqSeen 5 0)] } ∧
        Crossed s t ∧ Frame [.blp, .ctl] s t)

/-! ### Admission (R107, R133 to R136, R145, R938) -/

/-- REQUEST_ADMIT, for the head `q` of a port's queue that no mask, hold or full list keeps. A repeated TAG is discarded as a
protocol error with DETAIL 2 (R101). Otherwise it takes the free tracker entry: a request that a check of R107 rejects gets
its answer at once, and is counted when late; an accepted FENCE waits for the port's earlier writes; an accepted GATHER joins
the queue of the gather engines; an accepted read whose accesses are all on data planes joins its meter queue with a charge of
64 B for each (R261, R263), and its accesses to a PINNED region carry the stale bits that admission read (R469). The word
leaves the queue and its credit comes back (R88). -/
def Obligations.RequestAdmitted : Prop :=
  ∀ (k : Fin 36) (s : State) (q : InReq) (rest : List InReq), s.Canon → s.portsLive = true → s.isMasked k.val = false →
    s.admHeld k.val = false → (s.port k.val).inq = q :: rest → s.fab.entry s.fab.nextId = none → s.fab.staleBad = [] →
    (q.dup = true → ∃ t, exec (.requestAdmit k) s = .next t ∧
      t.port k.val = { s.port k.val with inq := rest, reqCrd := (s.port k.val).reqCrd + 1 } ∧
      (∀ j, j ≠ k.val → t.port j = s.port j) ∧ CountedCrossed s t ∧ Frame [.ports, .ctl, .evt, .mbx] s t) ∧
    (∀ (shared : Bool), q.dup = false → s.fab.freeSlot k.val = some shared → (s.port k.val).descHere q = true →
      ¬ (q.kind = 5 ∧ isTile k.val = true ∧ 32 ≤ s.fab.fq.length) →
      ¬ (q.kind = 6 ∧ isTile k.val = true ∧ 64 ≤ s.fab.launches.length) →
      (∀ d : Done, s.checkRequest k.val q (((s.port k.val).beatsOf q.ord).headD ⟨0, 0⟩).data = .inl d →
        ∃ t, exec (.requestAdmit k) s = .next t ∧
          t.fab = { s.fab with
            trk := s.fab.trk ++ [{ Entry.reset with
              id := s.fab.nextId, ord := q.ord, sub := k.val, msub := k.val, kind := kindOf q.kind, req := q.req
              arrival := q.arrival, shared := shared, fin := some d, counted := true }]
            nextId := s.fab.nextId + 1 } ∧
          (t.port k.val).inq = rest ∧ (t.port k.val).reqCrd = (s.port k.val).reqCrd + 1 ∧
          (∀ j, j ≠ k.val → t.port j = s.port j) ∧ Counted s t ∧ Frame [.ports, .fab, .ctl, .evt, .mbx] s t) ∧
      (∀ (reg : Option Nat) (accs : List Acc), q.kind = 4 ∨ q.kind = 5 →
        s.checkRequest k.val q (((s.port k.val).beatsOf q.ord).headD ⟨0, 0⟩).data = .inr (reg, accs) →
        ∃ t e, exec (.requestAdmit k) s = .next t ∧ t.fab.trk = s.fab.trk ++ [e] ∧ e.id = s.fab.nextId ∧ e.sub = k.val ∧
          e.kind = kindOf q.kind ∧ e.req = q.req ∧ e.fin = none ∧ t.fab.nextId = s.fab.nextId + 1 ∧
          t.fab.fq = (if q.kind = 5 then s.fab.fq ++ [s.fab.nextId] else s.fab.fq) ∧
          t.fab = { s.fab with trk := t.fab.trk, nextId := t.fab.nextId, fq := t.fab.fq } ∧
          (t.port k.val).inq = rest ∧ (t.port k.val).reqCrd = (s.port k.val).reqCrd + 1 ∧
          (∀ j, j ≠ k.val → t.port j = s.port j) ∧ Frame [.ports, .fab] s t) ∧
      (∀ (reg : Option Nat) (accs : List Acc), q.kind = 0 → accs ≠ [] →
        (∀ a ∈ accs, a.scale = false ∧ a.st = none) →
        s.checkRequest k.val q (((s.port k.val).beatsOf q.ord).headD ⟨0, 0⟩).data = .inr (reg, accs) →
        ∃ t e h, exec (.requestAdmit k) s = .next t ∧ t.fab.trk = s.fab.trk ++ [e] ∧ e.id = s.fab.nextId ∧
          e.sub = k.val ∧ e.kind = .rd ∧ e.accs = s.markStale (regionAt s.cfg.regions (reg.getD 0)) accs ∧
          e.fin = none ∧ t.fab.mq = s.fab.mq ++ [h] ∧
          h.eid = s.fab.nextId ∧ h.sub = k.val ∧ h.svc = q.req.service.toNat ∧ h.charge = 64 * accs.length ∧
          t.fab = { s.fab with trk := t.fab.trk, nextId := t.fab.nextId, mq := t.fab.mq } ∧
          (t.port k.val).inq = rest ∧ (∀ j, j ≠ k.val → t.port j = s.port j) ∧ Frame [.ports, .fab] s t))

/-- The checks of R107 come in their order: a reserved bit answers BADREQ with E_BADARG before anything else; without one, a
TYPE that the port does not accept answers BADREQ with E_NOTSUP, on a tile port a reserved one E_BADOP; with good words, the
shut-down latch answers THERMSTOP before the address is looked at. The 128-bit request word that a port accepts is one
command, which carries its TYPE and every other bit of it (R92, R93). -/
def Obligations.RequestChecks : Prop :=
  ∀ (k : Fin 36) (s : State) (q : InReq) (beat : BitVec 1024),
    (∀ w : BitVec 128, requestWord (portCommand k w) = some w ∧
      portWord (portCommand k w) = some (k.val, (Request.typeOf w).toNat, Request.ofWord w)) ∧
    (reqReserved k.val q.kind q.req beat = true → s.checkRequest k.val q beat = .inl ⟨.badreq, eBadarg⟩) ∧
    (reqReserved k.val q.kind q.req beat = false → 8 ≤ q.kind → isTile k.val = true →
      s.checkRequest k.val q beat = .inl ⟨.badreq, eBadop⟩) ∧
    (reqReserved k.val q.kind q.req beat = false → unsupportedType k.val q.kind = true → isTile k.val = false →
      s.checkRequest k.val q beat = .inl ⟨.badreq, eNotsup⟩) ∧
    (reqReserved k.val q.kind q.req beat = false → unsupportedType k.val q.kind = false →
      (q.kind = 6 → s.stk.rowClass = true ∨ s.stk.macClass = true) → fieldsBad q.kind q.req = false →
      s.rangeBad k.val q.kind q.req beat = false → s.therm.latch = true →
      s.checkRequest k.val q beat = .inl ⟨.thermstop, eOk⟩)

/-- BLP_DESC_ADMIT, for the oldest descriptor `q`, once fewer than 64 are in flight and a tracker entry is free: a rejected
one is answered at once and its beats are discarded (R149); an accepted READ_BULK is in flight with its entry, and each of its
pieces joins the meter queue of the BLP under service 1 (R147, R264). Its credit comes back. -/
def Obligations.DescriptorAdmitted : Prop :=
  ∀ (s : State) (q : InDesc) (rest : List InDesc) (shared : Bool), s.portsLive = true → s.isMasked 36 = false →
    s.admHeld 36 = false → s.blp.flight.length < 64 → s.blp.dq = q :: rest → q.vis ≤ s.sys.ltc → s.fab.staleBad = [] →
    s.fab.freeSlot 36 = some shared →
    (∀ d : Done, s.checkDesc q.op q.desc = .inl d → ∃ t e, exec .blpDescAdmit s = .next t ∧
      t.fab = { s.fab with trk := s.fab.trk ++ [e], nextId := s.fab.nextId + 1 } ∧ e.id = s.fab.nextId ∧ e.sub = 36 ∧
      e.fin = some d ∧
      t.blp = { s.blp with
        dq := rest, descCrd := s.blp.descCrd + 1, idat := s.blp.idat.filter fun x => x.1 != q.ord
        flight := s.blp.flight ++ [⟨s.fab.nextId, q.op, q.desc, q.ord, some d, 0, s.sys.ltc + s.crossTime 6⟩]
        owed := s.blp.owed.map fun o => if o.ord = q.ord then { o with drop := true } else o } ∧
      Frame [.blp, .fab] s t) ∧
    (∀ (i : Nat) (l : List (Acc × Nat)), q.op = 2 → s.fab.entry s.fab.nextId = none →
      s.checkDesc q.op q.desc = .inr (i, l) →
      ∃ t e hs, exec .blpDescAdmit s = .next t ∧ t.fab.trk = s.fab.trk ++ [e] ∧ e.id = s.fab.nextId ∧ e.sub = 36 ∧
        e.kind = .readBulk ∧ e.accs = s.markStale (regionAt s.cfg.regions i) (l.map (·.1)) ∧ e.fin = none ∧ t.fab.mq = s.fab.mq ++ hs ∧
        (∀ h ∈ hs, h.eid = s.fab.nextId ∧ h.sub = 36 ∧ h.svc = 1) ∧
        t.fab = { s.fab with trk := t.fab.trk, nextId := t.fab.nextId, mq := t.fab.mq } ∧
        t.blp = { s.blp with
          dq := rest, descCrd := s.blp.descCrd + 1, idat := s.blp.idat.filter fun x => x.1 != q.ord
          flight := s.blp.flight ++ [⟨s.fab.nextId, q.op, q.desc, q.ord, none, 0, 0⟩] } ∧
        Frame [.blp, .fab] s t)

/-! ### Shaping (R259 to R317) -/

/-- METER_TEST and METER_WHEEL_EVENT on the head `q` of a meter queue that the fabric has read. A masked subscriber's head
passes untested and uncharged, and has no wheel event (R160, R282); a head without charge passes green; one that waits for its
wheel event or bucket refill is left alone (R272, R291). Every other head is tested at levels 2 and 1, with the meter and the
bucket after the refills due (R280): held red, held at level 1, or passed with its colour and charged, as `State.HeadTested`
says of each (R262, R269 to R271, R279, R290). The wheel event of a slot not yet reached does nothing, unless new values have
applied at a refill meanwhile (R288); one that is reached tests the head again (R279). A digest record that has no write yet
is another statement's (`DigestRecordWritten`). -/
def Obligations.MeterTested : Prop :=
  ∀ (k : Fin 48) (svc : Fin 6) (s : State) (q : Shaped), s.portsLive = true → s.fab.mqHead k.val svc.val = some q →
    let m := 6 * k.val + svc.val
    let green (f : Fab) : Fab := { f with
      mq := dropFirst (fun x => x.sub == q.sub && x.svc == q.svc) f.mq
      cq := f.cq ++ q.pieces.map fun p => { p with colour := .green } }
    let s1 := s.settleMeter m
    let s2 := s1.setMeter m { s1.fab.meter m with slot := none }
    ((k.val = 47 → svc.val = 5 → s.det.recs = []) → s.onItsWay q.eid = false →
      (s.isMasked k.val = true → exec (.meterTest k svc) s = .next { s with fab := green s.fab }) ∧
      (s.isMasked k.val = false → (q.red = true ∨ q.held1 = true) → exec (.meterTest k svc) s = .next s) ∧
      (s.isMasked k.val = false → q.red = false → q.held1 = false → q.charge = 0 →
        exec (.meterTest k svc) s = .next { s with fab := green s.fab }) ∧
      (s.isMasked k.val = false → q.red = false → q.held1 = false → q.charge ≠ 0 →
        ∃ t, exec (.meterTest k svc) s = .next t ∧ s.HeadTested t k.val svc.val q ∧ Counted s t ∧
          Frame [.fab, .ctl, .evt, .mbx] s t)) ∧
    (∀ w : Nat, (s.fab.meter m).slot = some w →
      (s.isMasked k.val = true → exec (.meterWheelEvent k svc) s = .next s) ∧
      (s.fabView < w → s.meterChanged m (s.fab.meter m) = false ∨ s.refillsDue m (s.fab.meter m).vt = 0 →
        exec (.meterWheelEvent k svc) s = .next s) ∧
      (w ≤ s.fabView → s.isMasked k.val = false → q.charge = 0 →
        exec (.meterWheelEvent k svc) s = .next { s with fab := green s2.fab }) ∧
      (w ≤ s.fabView → s.isMasked k.val = false → q.charge ≠ 0 →
        ∃ t, exec (.meterWheelEvent k svc) s = .next t ∧ s2.HeadTested t k.val svc.val q ∧ Counted s t ∧
          Frame [.fab, .ctl, .evt, .mbx] s t))

/-- SUB_BUCKET_REFILL does nothing for a bucket that is not on the wheel, or whose slot has not been reached with no new values to
apply at a due refill (R281, R288). Once it is reached, with no held head left, the refills due are applied and the bucket leaves
the wheel, and nothing else happens (R281, R285, R292). CHANNEL_PERIOD_START at a new multiple of P sets every channel
count, thermal count and activation count to 0 (R293, R303) and takes the thermal set and fraction in force (R573); what a
copy has read ahead of its share counts in the new period (R690). QUEUE_SAMPLE in a new interval of 400 ticks touches the
histograms alone (R312, R315). -/
def Obligations.ShapingPeriods : Prop :=
  ∀ s : State, s.portsLive = true →
    (∀ k : Fin 48,
      let b := s.fab.bucket k.val
      let changed := s.bucketChanged k.val b = true ∧ s.refillsDue k.val b.vt ≠ 0
      (b.slot = none → exec (.subBucketRefill k) s = .next s) ∧
      (∀ w, b.slot = some w →
        (s.fabView < w → ¬ changed → exec (.subBucketRefill k) s = .next s) ∧
        (b.frozen = false → w ≤ s.fabView ∨ changed → (∀ q ∈ s.fab.mq, q.held1 = false) →
          ∃ t, exec (.subBucketRefill k) s = .next t ∧
            (Tab.wf Bucket.reset s.fab.buckets = true → t.fab.bucket k.val = { s.settledBucket k.val b with slot := none }) ∧
            (∀ j, j ≠ k.val → t.fab.bucket j = s.fab.bucket j) ∧ t.fab = { s.fab with buckets := t.fab.buckets } ∧
            Frame [.fab] s t))) ∧
    (s.periodP ≠ 0 → s.refillNow / s.periodP * s.periodP ≠ s.fab.period →
      exec .channelPeriodStart s = .next { s with
        fab := { s.fab with
          chCnt := [], thL := [], thO := [], actCnt := [], period := s.refillNow / s.periodP * s.periodP
          thOn := s.budgetChans, thF := s.therm.thrFrac.toNat }
        stk := { s.stk with migs := s.stk.migs.map fun m => { m with debt := m.debt - s.copyRoom m } } }) ∧
    (s.refillNow / 400 * 400 ≠ s.fab.sampled → ∃ t, exec .queueSample s = .next t ∧
      t.fab = { s.fab with sampled := s.refillNow / 400 * 400 } ∧ Counted s t ∧ Frame [.fab, .ctl, .evt, .mbx] s t)

/-- CHANNEL_FILL with one head ready, a read of a tile subscriber, on a bound channel where no read waits: the head leaves the
channel queue and is counted in A (R293, R294), and enters the window of its slice behind the others under the next insertion
number, under one credit of its crossing queue, whose word the island reads at once or, in DET_TIMING, later (R47, R64, R81, R204,
R212, R237). None of its accesses waits for a repair or a copied row, all of them go to that slice, CH_MAX admits it (R294, R310),
and no other word waits in that queue. -/
def Obligations.ChannelFilled : Prop :=
  ∀ (c : Fin 128) (s : State) (p : Piece) (rsv : Bool), s.Canon → s.portsLive = true →
    (s.stk.remapAt c.val).st = .bound → (s.slice (s.stk.remapAt c.val).ps).sch.waiting = [] →
    s.heads c.val = [p] → s.headReady p = true → s.freeKeys p = p.keys → p.chan = c.val → p.sub < 32 → p.write = .read →
    let ps := keyPs (p.keys.headD 0)
    let x := s.slice ps
    x.dat.fcq = [] → (∀ w ∈ x.sch.window ++ x.sch.narrowSlot, w.word = false) → s.resealWaits ps = none →
    s.icqCredit 0 ps = true → s.fab.thOn.contains c.val = false → (∀ k ∈ p.keys, keyPs k = ps) →
    s.underShare c.val p.sub 8 9 = true → s.pieceSlot p = some rsv →
    ∃ t, exec (.channelFill c) s = .next t ∧
      t.fab = { s.fab with
        chCnt := Tab.upd 0 s.fab.chCnt (p.sub * 128 + c.val) (· + p.keys.length)
        cq := dropFirst (fun x => x == p) s.fab.cq } ∧
      t.slice ps = { x with
        sch := { x.sch with
          window := x.sch.window ++ [{ p.winEnt (s.readUse p) p.keys with
            vis := s.sys.ltc + s.crossTime 0, rsv := rsv, seq := x.sch.nextSeq, qix := x.dat.nextIx, word := s.crossTime 0 != 0 }]
          nextSeq := x.sch.nextSeq + 1 }
        dat := { x.dat with nextIx := x.dat.nextIx + 1 } } ∧
      (∀ y, y ≠ ps → t.slice y = s.slice y) ∧ CountedCrossed s t ∧ Frame [.fab, .slices, .ctl, .evt, .mbx] s t

/-! ### The channel (R202 to R247, R307, R382, R494 to R535, R656) -/

/-- CHANNEL_SCHEDULE on a live island counts one CCLK. On a held channel an urgent refresh of a closed bank that timing allows
takes the row slot: its pointer advances, one refresh is owed less, and at the pointer's wrap the tracker window starts anew
(R244, R496, R499, R519). Otherwise a read whose row is open and that nothing stops takes the column slot: it is in flight
with the symbols its access holds, the CCLK of its RD and the steering then in force (R604), and leaves the window after its
last access (R204, R210, R211). No read of DET_TIMING is due at this CCLK (R718). -/
def Obligations.ChannelScheduled : Prop :=
  ∀ (p : Fin 144) (s : State), s.Canon → s.islandRuns p.val = true → s.sliceLive p.val = true →
    s.returnDue p.val = false →
    let x := s.slice p.val
    let t := x.sch.cclk
    (∀ i, x.sch.held ≠ 0 → x.sch.rowTaken = false → x.dat.fcq = [] → (∀ w ∈ x.sch.window ++ x.sch.narrowSlot, w.word = false) →
      x.rf.order ((List.range 32).filter fun j => s.refUrgent p.val j && !(x.bt.bank j).loan) = some i →
      (x.bt.bank i).openRow = none → x.bt.actOk i t = true →
      ∃ u, exec (.channelSchedule p) s = .next u ∧ (u.slice p.val).sch.cclk = t + 1 ∧
        (u.slice p.val).rf = x.rf.modRb i (fun b =>
          let b1 := { b with ptr := (b.ptr + 1) % 8192, owed := b.owed - 1 }
          if b.ptr = 8191 then { b1 with n := 0, fdec := 0, rows := [], thr := fld s.cfg.rdtCtl 0 16 } else b1) ∧
        (∀ j, j ≠ p.val → u.slice j = s.slice j) ∧ Counted s u ∧ Frame [.slices, .ctl, .evt, .mbx] s u) ∧
    (∀ (w : WinEnt) (k : Key) (rest : List Key), x.sch.held = 0 → x.sch.rowTaken = true → x.sch.cls = false →
      x.sch.window = [w] → x.sch.narrowSlot = [] → x.sch.wrPhase = false → x.sch.grant = none → x.dat.wb = [] →
      x.dat.fow = [] → x.dat.lines = [] → x.brew.cur = none → x.brew.op = none → x.rep.repWait = [] →
      x.scr.cmps = [] → x.dat.fcq = [] → 0 < s.wrHi →
      w.keys = k :: rest → w.vis ≤ s.sys.ltc → w.word = false →
      w.use = .port → w.colour = .green → yields w.sub = false → w.sub ≠ 36 → w.sub ≠ 42 →
      s.accReady p.val w k = true → (x.bt.bank (keyBank k)).loan = false →
      (x.bt.bank (keyBank k)).openRow = some (keyRow k) → x.bt.colOk (keyBank k) t = true → x.bt.okRd ≤ t →
      s.refUrgent p.val (keyBank k) = false →
      ∃ u, exec (.channelSchedule p) s = .next u ∧ (u.slice p.val).sch.cclk = t + 1 ∧
        (u.slice p.val).sch.flight = x.sch.flight ++
          [⟨w.eid, w.sub, .port, keyBank k, keyRow k, keyCol k, s.code k, s.metStale w k, t, false, x.link.steer, x.link.narrow,
            w.colour⟩] ∧
        (u.slice p.val).sch.window = (if rest = [] then [] else [{ w with keys := rest, taken := w.taken + 1 }]) ∧
        (∀ j, j ≠ p.val → u.slice j = s.slice j) ∧ u.mem = s.mem ∧ u.ports = s.ports ∧ u.pending = s.pending)

/-- REFRESH_DUE: an accumulator at 25,000 or more gives up 25,000 and the bank owes one refresh more, or has one pulled in
less; below 25,000, and in self-refresh, nothing happens (R494, R511). RDT_THROTTLE_END: the throttle ends once its time has
come, not before, and nothing else changes (R307). -/
def Obligations.RefreshFallsDue : Prop :=
  ∀ s : State,
    (∀ (p : Fin 144) (b : Fin 32), s.islandRuns p.val = true → (s.slice p.val).rf.refOn = true →
      let a := s.dueAcc p.val b.val
      (a < 25000 ∨ (s.slice p.val).rf.selfRef = true → exec (.refreshDue p b) s = .next s) ∧
      (25000 ≤ a → (s.slice p.val).rf.selfRef = false → exec (.refreshDue p b) s = .next (s.modRf p.val fun r => r.modRb b.val fun x =>
        if 0 < x.pulled then { x with acc := a - 25000, t0 := s.view p.val, pulled := x.pulled - 1 }
        else { x with acc := a - 25000, t0 := s.view p.val, owed := x.owed + 1 }))) ∧
    (∀ (k : Fin 37) (c : Fin 128), let e := Tab.get 0 s.fab.thrEnd (k.val * 128 + c.val)
      (s.view (s.stk.remapAt c.val).ps < e → exec (.rdtThrottleEnd k c) s = .next s) ∧
      (e ≠ 0 → e ≤ s.view (s.stk.remapAt c.val).ps → exec (.rdtThrottleEnd k c) s = .next { s with fab := { s.fab with
        thrEnd := Tab.set 0 s.fab.thrEnd (k.val * 128 + c.val) 0 } }))

/-- READ_DATA_RETURN for a port's read: nothing returns for a RD that the endpoint discarded and that has not been sent again
(R599). Else the oldest read leaves the flight. A raw read of a stale row ends its access as STALE with the data as read
(R471); one that decodes without an error ends it as OK with the decoded data (R656, R658). The fabric reads the end at once,
in DET_TIMING after the crossing (R81), where the read returns when it is due (R718). Every other access, entry and island
stays. -/
def Obligations.ReadReturned : Prop :=
  ∀ (p : Fin 144) (err : BitVec 576) (s : State) (f : Flight) (rest : List Flight) (e : Entry), s.Canon →
    s.islandRuns p.val = true → (s.slice p.val).sch.flight = f :: rest → f.use = .port → s.fab.entry f.eid = some e →
    e.kind = .rd → e.fin = none →
    (s.det.mode = .timing → (s.slice p.val).link.lacks f = false → s.returnDue p.val = true) →
    let k := keyOf p.val f.bank f.row f.col
    let v := s.icqSeen 1 (keyPs k)
    let r := rsDecode (f.code ^^^ err) (s.linkOf p.val f).erasures
    ((s.slice p.val).link.lacks f = true → exec (.readDataReturn p err) s = .next s) ∧
    ((s.slice p.val).link.lacks f = false → f.raw = true → ∃ t, exec (.readDataReturn p err) s = .next t ∧
      (t.slice p.val).sch.flight = rest ∧
      t.fab = s.fab.modEntry f.eid (fun e => { e with accs := seeAcc (endAcc e.accs k .stale (dataOf (f.code ^^^ err))) k v }) ∧
      (∀ j, j ≠ p.val → t.slice j = s.slice j) ∧ CountedCrossed s t ∧ Frame [.slices, .fab, .ctl, .evt, .mbx] s t) ∧
    ((s.slice p.val).link.lacks f = false → f.raw = false → r.ue = false → r.changed = [] → r.unknown = [] → rRounded e.rent = false →
      (e.sub < 32 ∨ 35 < e.sub) → ((e.accAt k).getD Acc.reset).scale = false →
      ∃ t, exec (.readDataReturn p err) s = .next t ∧
        t.slice p.val = { s.slice p.val with sch := { (s.slice p.val).sch with flight := rest } } ∧
        t.fab = s.fab.modEntry f.eid (fun e => { e with accs := seeAcc (endAcc e.accs k .ok (dataOf r.code)) k v }) ∧
        (∀ j, j ≠ p.val → t.slice j = s.slice j) ∧ Crossed s t ∧ Frame [.slices, .fab, .ctl] s t)

/-- WRITE_BUFFER_ENTER, with no line of the accumulation cache held or waiting: the write's bytes, merged into what its read half
returned, enter the write buffer under fresh check symbols, and the access has ended OK; memory does not change yet, nor does the
crossing queue, out of which the write was read before (R64, R121, R127, R655). -/
def Obligations.WriteBufferEntered : Prop :=
  ∀ (p : Fin 144) (s : State) (x : WrItem), s.Canon → s.islandRuns p.val = true → (s.slice p.val).sch.held = 0 →
    s.nextWrite p.val = some x → (s.slice p.val).dat.lines = [] → (s.slice p.val).dat.fill = [] →
    let k := keyOf p.val x.bank x.row x.col
    let d := (s.slice p.val).dat
    ∃ t, exec (.writeBufferEnter p) s = .next t ∧
      (t.slice p.val).dat = { d with unit := dropFirst (fun y => y == x) d.unit }.wbAdd
        ⟨x.bank, x.row, x.col, rsEncode (mergeLine (x.merged.getD 0) x.data x.mask), false, x.sub, x.eid⟩ ∧
      t.fab.trk.map (fun e => { e with counted := false }) = (s.fab.modEntry x.eid fun e =>
        { e with accs := seeAcc (endAcc e.accs k .ok 0) k (s.icqSeen 1 (keyPs k)) }).trk.map (fun e => { e with counted := false }) ∧
      t.icq 0 p.val = s.icq 0 p.val ∧
      (∀ j, j ≠ p.val → t.slice j = s.slice j) ∧ CountedCrossed s t ∧ Frame [.slices, .fab, .ctl, .evt, .mbx] s t

/-- ACC_PIECE_APPLY: the addends of the next access go into its cached line, in order, the line is the most recently used and
is dirty exactly while it differs from what memory holds, and the access has ended OK (R382, R392, R399); without the line a
miss read for it, with the piece's deadline, takes a window entry or waits for one, and nothing is applied (R393, R394, R936).
-/
def Obligations.AccumulationApplied : Prop :=
  ∀ (p : Fin 144) (s : State) (x : WrItem), s.Canon → s.islandRuns p.val = true → (s.slice p.val).sch.held = 0 →
    let k := keyOf p.val x.bank x.row x.col
    let d := (s.slice p.val).dat
    (∀ l : AccLine, s.nextAcc p.val = some (x, some l) → d.fill = [] →
      let r := x.applyLine l.data
      ∃ t, exec (.accPieceApply p) s = .next t ∧
        (t.slice p.val).dat = { d with
          lines := (d.dropLine x.bank x.row x.col).lines ++
            [{ l with data := r.1, sub := x.sub, rix := x.rix }]
          unit := dropFirst (fun y => y == x) d.unit } ∧
        (AccLine.dirty { l with data := r.1, sub := x.sub, rix := x.rix } = true ↔ r.1 ≠ l.base) ∧
        t.fab.trk.map (fun e => { e with counted := false }) = (s.fab.modEntry x.eid fun e =>
          { e with accs := seeAcc (endAcc e.accs k .ok 0) k (s.icqSeen 1 (keyPs k)) }).trk.map (fun e => { e with counted := false }) ∧
        t.fab = { s.fab with trk := t.fab.trk } ∧
        (∀ j, j ≠ p.val → t.slice j = s.slice j) ∧ CountedCrossed s t ∧ Frame [.slices, .fab, .ctl, .evt, .mbx] s t) ∧
    (s.nextAcc p.val = some (x, none) → (s.slice p.val).sch.waiting = [] → ∃ t w, exec (.accPieceApply p) s = .next t ∧
      (t.slice p.val).dat = { d with
        miss := d.miss ++ [k]
        unit := updFirst (fun y => y == x) (fun y => { y with fetched := false }) d.unit } ∧
      w.eid = x.eid ∧ w.sub = x.sub ∧ w.use = .accMiss ∧ w.keys = [k] ∧ w.arrival = x.arrival ∧ w.dl = x.dl ∧ w.real = x.real ∧
      ((t.slice p.val).sch.waiting = [w] ∧ (t.slice p.val).sch.window = (s.slice p.val).sch.window ∨
        (t.slice p.val).sch.waiting = [] ∧ (t.slice p.val).sch.window = (s.slice p.val).sch.window ++ [w]) ∧
      (∀ j, j ≠ p.val → t.slice j = s.slice j) ∧ Counted s t ∧ Frame [.slices, .ctl, .evt, .mbx] s t)

/-- RESEAL_ROW for a stale row that an admitted access waits for, with its bank not on loan, no launch active on it and room
for its reads and writes, and not held by the spacing of a hot row (R523): each of its 32 accesses stands in the write buffer
with the data it held under fresh check symbols, and the row's stale bit is clear (R470, R472, R485). Where the row was not
open its activation counts in the tracker, which may throttle (R518, R529). -/
def Obligations.RowResealed : Prop :=
  ∀ (c : Fin 128) (b : Fin 32) (r : Fin 16384) (s : State) (p : Nat) (x : WinEnt), s.Canon → s.mbx.run = none →
    s.stk.sliceOf c.val r.val = some p → s.stk.chanOf p = some c.val → s.sliceLive p = true → (s.slice p).sch.held = 0 →
    s.fab.isStale c.val b.val r.val = true → s.resealFor p (fun k => keyBank k == b.val && keyRow k == r.val) = some x →
    s.resealSlot p (some x) = true → ((s.slice p).bt.bank b.val).loan = false →
    s.launchActive c.val b.val = false → (s.slice p).dat.fow = [] → (s.slice p).dat.wb.length ≤ 32 →
    s.rowInRepair (keyOf p b.val r.val 0) = false → s.workSpaced p b.val r.val = false → s.fab.staleBad = [] →
    ∃ t, exec (.resealRow c b r) s = .next t ∧
      t.fab = { s.fab.clearStale c.val b.val r.val with thrEnd := t.fab.thrEnd } ∧ t.sys = { s.sys with free := t.sys.free } ∧
      (∀ i, i < 32 → ∃ w ∈ (t.slice p).dat.wb, w.isAt b.val r.val i = true ∧ w.raw = false ∧
        w.code = rsEncode (dataOf (match (s.slice p).dat.heldAt b.val r.val i with
          | some x => x.1
          | none => s.code (keyOf p b.val r.val i)))) ∧
      (∀ j, j ≠ p → t.slice j = s.slice j) ∧ CountedCrossed s t ∧ Frame [.sys, .slices, .fab, .ctl, .evt, .mbx] s t

/-! ### What the controller drives back (R108 to R132, R152 to R158, R728 to R731) -/

/-- RESPONSE_BEAT for the next answer `e` of a port, which is owed no more write data. A request answered by one header gets
it under one response credit, with the number of data beats driven before it, and its entry is free again (R87, R91, R108,
R116). A data beat of a read that is not its last leaves the entry with one beat more, and the port with that read until its
last beat, which frees the entry (R91, R113, R115). A masked port's answer is discarded, and the entry is free (R160). -/
def Obligations.ResponseDriven : Prop :=
  ∀ (port : Fin 36) (s : State) (e : Entry), s.Canon → s.portsLive = true → s.nextRsp port.val = some e →
    e.sub = port.val → (∀ x, e.takes (s.unitsOf e) = some x → x.2 ≤ e.wdat.length ∨ e.accs = []) →
    let k := port.val
    let unit := if isTile k then 2 ^ 2048 else 2 ^ 256
    let freed := { s.fab with trk := s.fab.trk.filter fun x => x.id != e.id }
    let data := (e.beatUnits e.beats).foldl (fun d u => d + e.rdUnit u * 2 ^ (512 * (u - 4 * e.beats))) 0
    (∀ d : Done, s.isMasked k = false → (s.port k).rspCrd ≠ 0 → e.headerAnswer = some d →
      ∃ t, exec (.responseBeat port) s = .next t ∧
        t.port k = { s.port k with
          rsp := BitVec.ofNat 2096 (rspHeader (tagOf k e.req.tag) d.st d.err false true e.headerSeq * unit)
          rspValid := true
          rspCrd := (s.port k).rspCrd - 1
          cur := none } ∧
        t.fab = freed ∧ (e.req.digest = false → t.det = s.det) ∧
        (∀ j, j ≠ k → t.port j = s.port j) ∧ Counted s t ∧ Frame [.ports, .fab, .det, .ctl, .evt, .mbx] s t) ∧
    (s.isMasked k = false → (s.port k).rspCrd ≠ 0 → e.headerAnswer = none → e.kind = .rd → e.req.digest = false →
      (e.beats ≠ 0 ∨ (s.port k).mayStart e.rdBeats = true) → e.beats + 1 < e.rdBeats →
      ∃ t, exec (.responseBeat port) s = .next t ∧
        t.port k = { s.port k with
          rsp := BitVec.ofNat 2096 (data + rspHeader (tagOf k e.req.tag) (e.beatStatus e.beats) eOk true false e.beats * unit)
          rspValid := true
          rspCrd := (s.port k).rspCrd - 1
          cur := some e.id } ∧
        t.fab = s.fab.modEntry e.id (fun x => { x with beats := e.beats + 1, dg := e.dg }) ∧
        (∀ j, j ≠ k → t.port j = s.port j) ∧ Counted s t ∧ Frame [.ports, .fab, .ctl, .evt, .mbx] s t) ∧
    (s.isMasked k = false → (s.port k).rspCrd ≠ 0 → e.headerAnswer = none → e.kind = .rd → e.req.digest = false →
      (e.beats ≠ 0 ∨ (s.port k).mayStart e.rdBeats = true) → e.beats + 1 = e.rdBeats →
      ∃ t, exec (.responseBeat port) s = .next t ∧
        t.port k = { s.port k with
          rsp := BitVec.ofNat 2096 (data + rspHeader (tagOf k e.req.tag) (e.beatStatus e.beats) eOk true true e.beats * unit)
          rspValid := true
          rspCrd := (s.port k).rspCrd - 1
          cur := none } ∧
        t.fab = freed ∧
        (∀ j, j ≠ k → t.port j = s.port j) ∧ Counted s t ∧ Frame [.ports, .fab, .ctl, .evt, .mbx] s t) ∧
    (s.isMasked k = true → e.answerable s.sys.ltc = true → ∃ t, exec (.responseBeat port) s = .next t ∧
      t.port k = { s.port k with cur := none } ∧ t.fab = freed ∧ (e.req.digest = false → t.det = s.det) ∧
      (∀ j, j ≠ k → t.port j = s.port j) ∧ Counted s t ∧ Frame [.ports, .fab, .det, .ctl, .evt, .mbx] s t)

/-- OUTBOUND_BEAT for a descriptor whose next unit has come, without DIGEST: the unit is driven with the descriptor's number,
the unit's status and LAST on the last one, under one outbound credit; the descriptor has one beat more (R156). With no slot
free in the crossing queue neither row does anything (R50, R82). BLP_COMPLETION_RECORD: the first completed descriptor with no
earlier one of its source in flight, which has no DIGEST and is owed no more data, leaves the flight with its record, under
one completion credit, and its entry is free (R152, R158). Beat and record pass the crossing queue to the landing port. -/
def Obligations.BulkAnswered : Prop :=
  ∀ s : State, s.portsLive = true → s.isMasked 36 = false →
    (s.icqFull 6 0 0 = true → (∀ n, exec (.outboundBeat n) s = .next s) ∧ exec .blpCompletionRecord s = .next s) ∧
    (∀ (n : Nat) (d : BDesc), s.icqFull 6 0 0 = false → s.blp.flight[n]? = some d → s.outReady d = true → s.blp.odataCrd ≠ 0 →
      d.desc.digest = false →
      let e := s.descOf d
      let last := decide (d.obeats + 1 = d.units)
      ∃ t, exec (.outboundBeat n) s = .next t ∧
        t.blp = { s.blp with
          flight := s.blp.flight.map fun y => if y.eid = d.eid then { y with obeats := d.obeats + 1 } else y
          odata := BitVec.ofNat 544 ((unitData e.rent e.sat e.accs e.off d.obeats).toNat +
            (d.desc.descId.toNat + (unitStatus e.accs d.obeats).code * 2 ^ 16 + b2n last * 2 ^ 20) * 2 ^ 512)
          odataValid := true
          odataCrd := s.blp.odataCrd - 1 } ∧
        t.fab = s.fab.modEntry d.eid (fun y => { y with dg := e.dg }) ∧
        Crossed s t ∧ Frame [.blp, .fab, .ctl] s t) ∧
    (∀ (d : BDesc) (e : Entry), s.icqFull 6 0 0 = false → s.blp.cplCrd ≠ 0 → (s.blp.flight.find? fun d => s.descDone d &&
        !(s.blp.flight.any fun x => x.desc.srcChip == d.desc.srcChip && decide (x.ord < d.ord))) = some d →
      s.fab.entry d.eid = some e → e.req.digest = false →
      (∀ x, e.takes (s.unitsOf e) = some x → x.2 ≤ e.wdat.length ∨ e.accs = []) →
      exec .blpCompletionRecord s = .next { s with
        blp := { s.blp with
          flight := s.blp.flight.filter fun x => x.eid != d.eid
          cpl := s.cplRecord d
          cplValid := true
          cplCrd := s.blp.cplCrd - 1 }
        fab := { s.fab with trk := s.fab.trk.filter fun e => e.id != d.eid }
        ctl := (s.icqPass 6 0).ctl })

/-- FENCE_COMPLETE for a port's earliest open FENCE, without DIGEST, behind which no earlier write, ACC or GATHER of the port
is open: it ends with OK and is counted in time or late at that moment, and no other entry changes (R129, R130, R141). -/
def Obligations.FenceCompleted : Prop :=
  ∀ (port : Fin 36) (s : State) (pre post : List Entry) (e : Entry), s.portsLive = true →
    s.fab.trk = pre ++ e :: post → s.fab.entry e.id = some e → e.sub = port.val → e.kind = .fence → e.fin = none → e.beats = 0 →
    e.req.digest = false → e.counted = false →
    (∀ x ∈ pre, x.sub = port.val → x.kind = .fence → x.fin ≠ none) →
    (∀ x ∈ s.fab.trk, x.sub = port.val → x.ord < e.ord → x.holdsFence s.sys.ltc = false) →
    ∃ t, exec (.fenceComplete port) s = .next t ∧
      t.fab.entry e.id = some { e with fin := some ⟨.ok, eOk⟩, counted := true } ∧
      t.fab.trk.filter (fun x => x.id != e.id) = s.fab.trk.filter (fun x => x.id != e.id) ∧
      t.fab = { s.fab with trk := t.fab.trk } ∧ Counted s t ∧ Frame [.fab, .ctl, .evt, .mbx] s t

/-- DIGEST_RECORD_DONE. A record that has no write yet gets one, as work of subscriber 47: its 64 B to its place in the record
region, charged 64 B to service 5 (R263, R730). A record whose write has ended leaves the list; one whose write did not end
OK, or that no write can reach because its channel is fenced or the shut-down latch is set, is reported as DIG_REC_LOST with
the low bits of its stream and its fence number (R731, R749). -/
def Obligations.DigestRecordWritten : Prop :=
  ∀ (s : State) (r : DgRec) (rest : List DgRec), s.Canon → s.portsLive = true → s.det.recs = r :: rest →
    (∀ y ∈ rest, y.eid.isSome = true) → r.fence = none → r.cmd = false →
    let pl := s.recPlace r
    let gone (s : State) : State := { s with det := { s.det with recs := rest } }
    let lost (s : State) : State := (gone s).event .digRecLost 0 (r.stream % 16 + r.n.toNat % 2 ^ 24 * 2 ^ 8)
    (r.eid = none → (s.stk.sliceOf pl.chan pl.row = none ∨ s.therm.latch = true) →
      ∀ b : Bool, exec (.digestRecordDone b) s = .next (lost s)) ∧
    (∀ shared : Bool, r.eid = none → s.therm.latch = false → (s.stk.sliceOf pl.chan pl.row).isSome = true → s.fab.staleBad = [] →
      rest = [] → s.fab.freeSlot 47 = some shared → s.fab.entry s.fab.nextId = none →
      ∃ t e h, exec (.digestRecordDone false) s = .next t ∧ t.fab.trk = s.fab.trk ++ [e] ∧ e.id = s.fab.nextId ∧ e.sub = 47 ∧
        e.kind = .digestRec ∧ e.accs = s.markStale s.recEntry [mkAcc s.stk pl 0 false] ∧
        e.wdat = [⟨r.line.setWidth 1024, BitVec.allOnes 128⟩] ∧
        e.fin = none ∧ t.fab.mq = s.fab.mq ++ [h] ∧ h.eid = s.fab.nextId ∧ h.sub = 47 ∧ h.svc = 5 ∧ h.charge = 64 ∧
        t.fab = { s.fab with trk := t.fab.trk, nextId := s.fab.nextId + 1, mq := t.fab.mq } ∧
        t.det = { s.det with recs := [{ r with eid := some s.fab.nextId }] } ∧ Frame [.fab, .det] s t) ∧
    (∀ (id : Nat) (e : Entry), r.eid = some id → s.fab.entry id = some e → e.fin = none → accsSeen e.accs s.sys.ltc = true →
      let freed : State := { s with fab := { s.fab with trk := s.fab.trk.filter fun x => x.id != id } }
      exec (.digestRecordDone false) s = .next (if worstOf (e.accs.filterMap (·.st)) = .ok then gone freed else lost freed))

/-! ### Gather engines (R353 to R376) -/

/-- GATHER_ENGINE_START: the oldest queued GATHER of a port below PORT_MAX takes the lowest free engine, with the descriptor
of its data beat (R360). GATHER_LIST_READ: the engine's next list access enters the tracker as subscriber 42, and its meter
queue under the GATHER's port and service (R362, R365). GATHER_PAGE_READ: the units of a page that is not read are staged as
zeros with the page's status (R357, R364, R370); a page that is read makes one read of whole blocks within its chunk (R366).
Both are translated under the region table that the GATHER was admitted under (R198), and carry the stale bits that admission
read (R469). Here no read that has ended for the engine waits. -/
def Obligations.GatherReads : Prop :=
  ∀ s : State, s.portsLive = true →
    (∀ (id i : Nat) (rest : List Nat) (e : Entry), s.fab.fq = id :: rest → s.fab.entry id = some e →
      s.isMasked e.sub = false → s.enginesOf e.sub < s.portMax →
      ((List.range 16).find? fun i => !s.fab.engBusy i) = some i →
      exec .gatherEngineStart s = .next { s with fab := { s.fab with
        fq := s.fab.fq.filter fun x => x != id
        engines := Tab.set Gth.reset s.fab.engines i
          { Gth.reset with eid := id, desc := ((e.wdat.headD ⟨0, 0⟩).data).setWidth 160 } } }) ∧
    (∀ (i : Fin 16) (r : Nat), s.settleEngine i.val = s → s.engRuns i.val = true → (s.fab.freeSlot 42).isSome = true →
      s.fab.entry s.fab.nextId = none → s.fab.staleBad = [] →
      let g := s.fab.engine i.val
      let tab := (s.gatherOf i.val).tab
      let a := (fld g.desc 0 40 / 64 + g.lissued) * 64
      let accs := s.readIn tab r (a - rLo (regionAt tab r)) 1
      g.flight < 128 →
      g.lissued ≤ gListOf g.desc (gPages g.desc - 1) →
      g.lissued ≤ gListOf g.desc (min (g.pos / gPageUnits g.desc) (gPages g.desc - 1)) + 2 →
      findRegion tab (fld g.desc 0 40) = some r → accs ≠ [] →
      (∀ x ∈ accs, x.st = none ∧ x.scale = false ∧ (s.stk.remapAt x.chan).st ≠ .fenced) →
      ∃ t, exec (.gatherListRead i) s = .next t ∧ s.GatherReads t i.val .gatherList a 1 (s.markStale (regionAt tab r) accs) ∧
        t.fab.engines = Tab.set Gth.reset s.fab.engines i.val { g with lissued := g.lissued + 1, flight := g.flight + 1 } ∧
        Frame [.fab] s t) ∧
    (∀ i : Fin 16, s.settleEngine i.val = s → s.engRuns i.val = true →
      let g := s.fab.engine i.val
      let tab := (s.gatherOf i.val).tab
      let page := g.pos / gPageUnits g.desc
      let room := 1024 - (g.pos - 4 * (s.gatherOf i.val).beats)
      g.pos < gUnits g.desc → g.lgot.contains (gListOf g.desc page) = true → room ≠ 0 →
      (∀ st, pageCheck tab g.desc (Tab.get 0 g.ents page) (Tab.get .ok g.esta page) = .inl st →
        let n := min room (gPageUnits g.desc - g.pos % gPageUnits g.desc)
        ∃ t, exec (.gatherPageRead i) s = .next t ∧
          t.fab = { s.fab with engines := Tab.set Gth.reset s.fab.engines i.val { g with
            units := g.units ++ (List.range n).map (fun u => (g.pos + u, st, (0 : Line)))
            pos := g.pos + n } } ∧
          Counted s t ∧ Frame [.fab, .ctl, .evt, .mbx] s t) ∧
      (∀ r : Nat, pageCheck tab g.desc (Tab.get 0 g.ents page) (Tab.get .ok g.esta page) = .inr r →
        rType (regionAt tab r) ≠ 1 → g.flight < 128 → s.fab.staleBad = [] →
        (s.fab.freeSlot 42).isSome = true → s.fab.entry s.fab.nextId = none →
        let inPage := g.pos % gPageUnits g.desc
        let off := inPage % gChunk g.desc
        let a := gPageAddr g.desc (Tab.get 0 g.ents page) + 64 * (fld g.desc 96 10 + inPage / gChunk g.desc * fld g.desc 128 10 + off)
        let n := min (min (gChunk g.desc - off) (32 - a / 64 % 32)) room
        let accs := s.readIn tab r (a - rLo (regionAt tab r)) n
        n ≠ 0 → accs ≠ [] →
        (∀ x ∈ accs, x.st = none ∧ x.scale = false ∧ (s.stk.remapAt x.chan).st ≠ .fenced) →
        ∃ t, exec (.gatherPageRead i) s = .next t ∧ s.GatherReads t i.val .gatherPage a n (s.markStale (regionAt tab r) accs) ∧
          t.fab.engines = Tab.set Gth.reset s.fab.engines i.val { g with pos := g.pos + n, flight := g.flight + 1 } ∧
          Counted s t ∧ Frame [.fab, .ctl, .evt, .mbx] s t))

/-- GATHER_BEAT of an engine whose next four units are staged, before its last beat and without DIGEST: the beat is driven to
the GATHER's port under one response credit with the first status of R369, its units leave staging, and the GATHER has one
beat more (R368, R369). -/
def Obligations.GatherBeatDriven : Prop :=
  ∀ (i : Fin 16) (s : State), s.Canon → s.settleEngine i.val = s → s.portsLive = true → s.fab.engBusy i.val = true →
    let g := s.fab.engine i.val
    let x := s.gatherOf i.val
    let us := (List.range 4).filterMap fun j => g.units.find? fun t => t.1 == 4 * x.beats + j
    g.drop = false → s.isMasked x.sub = false → x.fin = none → x.req.digest = false → (s.port x.sub).rspCrd ≠ 0 →
    (s.port x.sub).cur = none → 4 * x.beats + 4 < gUnits g.desc → us.length = 4 →
    ∃ t, exec (.gatherBeat i) s = .next t ∧
      t.port x.sub = { s.port x.sub with
        rsp := BitVec.ofNat 2096 (us.foldl (fun a u => a + u.2.2.toNat * 2 ^ (512 * (u.1 % 4))) 0 +
          rspHeader x.req.tag (gatherStatus (us.map (·.2.1))) eOk true false x.beats *
            (if isTile x.sub then 2 ^ 2048 else 2 ^ 256))
        rspValid := true
        rspCrd := (s.port x.sub).rspCrd - 1 } ∧
      t.fab.trk = (s.fab.modEntry x.id fun y => { y with beats := x.beats + 1, dg := x.dg }).trk ∧
      (t.fab.engine i.val).units = (g.units.filter fun u => decide (4 * x.beats + 4 ≤ u.1)) ∧
      (∀ j, j ≠ x.sub → t.port j = s.port j) ∧ Counted s t ∧ Frame [.ports, .fab, .ctl, .evt, .mbx] s t

/-! ### Brew launches (R419 to R484) -/

/-- BREW_DISPATCH_OP: the next op of a launch, with its effective rows, stands at the end of the op queue of every channel it
selects, under a number that nothing accepted before it has (R460), and the launch has dispatched one op more (R438, R439,
R451), once every queue has room for the op's two words and, ahead of the first op, for the word of the launch, which its
channels read at once or, in DET_TIMING, later (R80, R81, R449). Nothing is dispatched while the meter or bucket of its port
is below zero, or a queue is full (R50, R452); a launch that has no op yet also waits for an earlier one, a migration or a
unit substitution on its channels (R450, R455, R682). -/
def Obligations.BrewOpDispatched : Prop :=
  ∀ (n : Nat) (s : State) (l : Launch), s.Canon → s.fab.launches[n]? = some l →
    let ps := l.chans.map fun c => (s.stk.remapAt c).ps
    ((s.brewPaid l.port = false ∨ s.dispatchWaits n l = true ∨ ∃ p ∈ ps, s.opRoom l p = false) →
      exec (.brewDispatchOp n) s = .next s) ∧
    (∀ w : OpWord, s.portsLive = true → l.doneDisp = false → l.why = none → ps.Nodup → s.brewPaid l.port = true →
      s.dispatchWaits n l = false → (∀ p ∈ ps, s.opRoom l p = true) → s.fab.staleBad = [] →
      l.prog[l.past.1]? = some w →
      ∃ t, exec (.brewDispatchOp n) s = .next t ∧
        (∀ p ∈ ps, t.slice p = { s.slice p with brew := { (s.slice p).brew with
          q := (s.slice p).brew.q ++ [resolveOp (rRowbase l.rent) l.desc l.past.2 w]
          qacc := (s.slice p).brew.qacc ++ [s.fab.nextId + 1]
          qid := (s.slice p).brew.qid ++ [l.eid] } }) ∧
        (∀ p, p ∉ ps → t.slice p = s.slice p) ∧
        t.fab.launches = (s.fab.modLaunch l.eid fun l' => { l' with
          pc := l.past.1 + 1, iter := l.past.2, nops := l'.nops + 1, doneDisp := l.past.1 + 1 = l'.prog.length
          vis := if l.nops = 0 then (ps.map fun p => s.icqSeen 2 p).foldl max s.sys.ltc else l'.vis }).launches ∧
        t.fab = { s.fab with launches := t.fab.launches, stale := t.fab.stale, nextId := s.fab.nextId + 1 } ∧ CountedCrossed s t ∧
        Frame [.slices, .fab, .ctl, .evt, .mbx] s t)

/-- BREW_LAUNCH_START: the channel's oldest launch that has not ended there, once it has an op and its word has come, takes
the row slot with its BSET, which latches the selected banks and clears their registers, when no urgent refresh takes it and
tXS is over (R81, R219, R247, R445, R450, R597). BREW_OP_START: with no urgent refresh for its banks an op that is no row op
starts there, a MAC op once its first command may issue and no entry ahead of it that may issue wants one of them (R218), and
they go on loan (R459, R460, R464); the narrow read-buffer lines that it will overwrite go, and a read of them in flight
brings none back (R105, R208); a row op also takes the row slot and lasts as long as R458 says. -/
def Obligations.BrewStarted : Prop :=
  ∀ (p : Fin 144) (s : State), s.Canon → s.brewLive p.val = true →
    let x := s.slice p.val
    (∀ (c : Nat) (l : Launch), s.stk.chanOf p.val = some c →
      (s.fab.launches.find? fun l => l.chans.contains c && !l.endedOn c) = some l → s.migrating p.val = false →
      x.brew.cur = none → l.started.contains c = false → l.why = none → l.nops ≠ 0 → l.vis ≤ s.sys.ltc → x.sch.rowTaken = false →
      s.urgentBank p.val = none → x.bt.okAny ≤ x.sch.cclk →
      let m : BitVec 32 := BitVec.ofNat 32 (fld l.desc 32 32)
      ∃ t, exec (.brewLaunchStart p) s = .next t ∧
        t.slice p.val = { x with
          brew := (setBits m).foldl (fun q b => q.clearRegs b 255) { x.brew with
            cur := some l.eid, mask := m, bset := x.sch.cclk + 1 }
          sch := { x.sch with rowTaken := true }
          link := x.link.send x.sch.cclk false (rowHalf 6 (m.toNat * 2 ^ 4 + 2 ^ 36)) } ∧
        t.fab = s.fab.modLaunch l.eid (fun l => { l with started := insertNat c l.started }) ∧
        (∀ j, j ≠ p.val → t.slice j = s.slice j) ∧ Frame [.slices, .fab] s t) ∧
    (∀ (l : Launch) (o : OpWord), s.launchOn p.val = some l → x.brew.next = some o → x.brew.killed = false →
      x.brew.stopped = false → s.brewSeen p.val = true → s.opFree p.val o = true → s.brewCool p.val = true →
      s.urgentRef p.val = false →
      let lost (b r c : Nat) : Bool := opWrites x.brew.banks o b r c
      let flight := x.sch.flight.map fun f => if lost f.bank f.row f.col then { f with nobuf := true } else f
      let dat := { x.dat with nrb := x.dat.nrb.filter fun kv => !lost (keyBank kv.1) (keyRow kv.1) (keyCol kv.1) }
      (isRowOp o = false → (isMacAcc o = true → s.macBehind p.val x.sch.cclk o l = false) → ∃ t, exec (.brewOpStart p) s = .next t ∧
        (t.slice p.val).brew = { x.brew with op := some o, rd := 1, prog := 0, seg := 0, endAt := x.sch.cclk + 1 } ∧
        (∀ b ∈ x.brew.banks, ((t.slice p.val).bt.bank b).loan = true) ∧
        (t.slice p.val).sch = { x.sch with flight := flight } ∧ (t.slice p.val).dat = dat ∧
        (∀ j, j ≠ p.val → t.slice j = s.slice j) ∧ Frame [.slices] s t) ∧
      (isRowOp o = true → s.brewClosed p.val = true → x.brew.bset ≤ x.sch.cclk →
        s.brewActOk p.val x.sch.cclk l.port (rowsNamed o) = true → s.rowBusy p.val x.sch.cclk o l = false →
        ∃ t, exec (.brewOpStart p) s = .next t ∧
          (t.slice p.val).brew = { x.brew with
            op := some o, rd := 1, prog := 0, seg := 0, endAt := x.sch.cclk + s.rowOpTime p.val o } ∧
          (∀ b ∈ x.brew.banks, ((t.slice p.val).bt.bank b).loan = true) ∧
          (t.slice p.val).sch = { x.sch with rowTaken := true, flight := flight } ∧ (t.slice p.val).dat = dat ∧
          (∀ j, j ≠ p.val → t.slice j = s.slice j) ∧ t.mem = s.mem ∧ t.ports = s.ports))

/-- BREW_OP_END of an op that is over, with no half of its link to be sent again (R599): the op leaves the queue, its two
words are released unless a reset of the queue has taken them, and the banks return (R64, R74); a launch that goes on stops
there for an urgent read or an urgent refresh of its banks, and then owes them their PRE (R230, R463, R465). The row op of
each of the launch's banks has written its destination row from its source rows, symbol by symbol, in all 32 accesses, and
nothing else (R422, R433); a WAIT leaves memory alone. After the last op of the program the channel is free and has told the
dispatcher of its commit, which it reads at once or, in DET_TIMING, later (R81, R477). -/
def Obligations.BrewOpEnded : Prop :=
  ∀ (p : Fin 144) (s : State) (l : Launch) (o : OpWord), s.Canon → s.islandRuns p.val = true →
    s.launchOn p.val = some l → (s.slice p.val).brew.op = some o → s.opOver p.val o = true →
    (s.slice p.val).brew.killed = false → (s.slice p.val).link.again = [] → (isRowOp o = true ∨ opOpc o = 10) →
    opD0 o < 16384 → opD1 o < 16384 → opD2 o < 16384 →
    let q := (s.slice p.val).brew
    let qid := if q.rd = 0 then q.qid else q.qid.tail
    let why := if s.urgentRead p.val then 1 else if s.urgentRef p.val then 2 else 0
    ∃ t, exec (.brewOpEnd p) s = .next t ∧
      (isRowOp o = true → ∀ b ∈ q.banks, ∀ c, c < 32 → t.code (keyOf p.val b (opD0 o) c) =
        rowFun (opOpc o) (s.code (keyOf p.val b (opD1 o) c)) (s.code (keyOf p.val b (opD2 o) c))) ∧
      (∀ k, (isRowOp o = true → ∀ b ∈ q.banks, ∀ c, c < 32 → k ≠ keyOf p.val b (opD0 o) c) → t.code k = s.code k) ∧
      ((l.doneDisp = false ∨ qid.contains l.eid = true) → (t.slice p.val).brew = { q with
        op := none
        q := if q.rd = 0 then q.q else q.q.tail
        qacc := if q.rd = 0 then q.qacc else q.qacc.tail
        qid := qid
        rd := 0
        ops := q.ops + 1
        prog := 0
        seg := 0
        stopped := why != 0
        stopWhy := if why = 0 then q.stopWhy else why
        stopOpen := if why = 0 then q.stopOpen else true } ∧
        t.fab = s.fab ∧ CountedCrossed s t) ∧
      (∀ c, l.doneDisp = true → qid.contains l.eid = false → s.stk.chanOf p.val = some c → (t.slice p.val).brew.cur = none ∧
        CountedTold s t ∧ s.Tells t 1 p.val (.commit l.eid c) (t.fab = s.fab.modLaunch l.eid fun l => { l with commits := insertNat c l.commits })
          (t.fab = s.fab)) ∧
      (∀ j, j ≠ p.val → t.slice j = s.slice j) ∧ Frame [.slices, .fab, .mem, .ctl, .evt, .mbx] s t

/-- BREW_PREEMPT of an op at a preemption point for which an urgent read waits: the launch stops, its progress count stays,
its op queue rewinds, its open banks are precharged and all return, and the row slot is taken, when no urgent refresh takes it
and no hold stops it (R219, R244, R461, R463). BREW_RESUME: with no urgent read or refresh for its banks and no thermal budget
against it, it goes on, and takes its banks again when it stopped within an op (R459, R464). -/
def Obligations.BrewPreempted : Prop :=
  ∀ (p : Fin 144) (s : State), s.Canon →
    let x := s.slice p.val
    let t := x.sch.cclk
    let loans (v : Bool) (b : BankSet) : BankSet :=
      x.brew.banks.foldl (fun b i => b.modBank i fun y => { y with loan := v }) b
    (∀ o : OpWord, x.brew.op = some o → s.urgentRead p.val = true → s.sliceLive p.val = true → x.brew.stopped = false →
      x.brew.killed = false → s.atPreempt p.val o = true → s.brewPreOk p.val t = true → x.sch.rowTaken = false →
      x.sch.held = 0 → s.urgentBank p.val = none →
      ∃ u, exec (.brewPreempt p) s = .next u ∧
        u.slice p.val = { x with
          brew := { x.brew with stopped := true, stopWhy := 1, rd := 0 }
          bt := loans false (x.brew.banks.foldl (fun b i => if (b.bank i).openRow.isSome then b.pre i t else b) x.bt)
          sch := { x.sch with rowTaken := true }
          link := x.link.send t false (rowHalf 2 bcBit) } ∧
        (∀ j, j ≠ p.val → u.slice j = s.slice j) ∧ Counted s u ∧ Frame [.slices, .ctl, .evt, .mbx] s u) ∧
    (s.brewLive p.val = true → x.brew.stopped = true → s.urgentRead p.val = false → s.urgentRef p.val = false →
      s.brewCool p.val = true →
      ∃ u, exec (.brewResume p) s = .next u ∧
        u.slice p.val = { x with
          brew := { x.brew with stopped := false, stopWhy := 0, seg := 0, stopOpen := false, rd := if x.brew.op.isSome then 1 else 0 }
          bt := if x.brew.op.isSome then loans true x.bt else x.bt } ∧
        (∀ j, j ≠ p.val → u.slice j = s.slice j) ∧ Frame [.slices] s u)

/-- BREW_LAUNCH_COMMIT: once every selected channel has committed, before any other end, the launch's status is OK (R478).
BREW_LAUNCH_END: once the status is decided and every selected channel has committed or stopped, the launch leaves the
dispatcher, and its entry has the status and is counted in time or late (R141, R448, R482). -/
def Obligations.BrewLaunchEnded : Prop :=
  ∀ (n : Nat) (s : State) (l : Launch), s.fab.launches[n]? = some l →
    (l.why = none → (∀ c ∈ l.chans, l.commits.contains c = true) →
      exec (.brewLaunchCommit n) s = .next { s with fab := s.fab.modLaunch l.eid fun l => { l with why := some .ok } }) ∧
    (l.why = none → (∃ c ∈ l.chans, l.commits.contains c = false) → exec (.brewLaunchCommit n) s = .next s) ∧
    (∀ st, l.why = some st → (∀ c ∈ l.chans, l.commits.contains c = true ∨ l.stopped.contains c = true) →
      ∃ t, exec (.brewLaunchEnd n) s = .next t ∧
        t.fab = { s.fab with launches := s.fab.launches.filter fun x => x.eid != l.eid, trk := t.fab.trk } ∧
        t.fab.trk.filter (fun x => x.id != l.eid) = s.fab.trk.filter (fun x => x.id != l.eid) ∧
        (∀ e : Entry, s.fab.entry l.eid = some e → e.fin = none → e.counted = false →
          t.fab.entry l.eid = some { e with fin := some ⟨st, eOk⟩, counted := true }) ∧
        Counted s t ∧ Frame [.fab, .ctl, .evt, .mbx] s t)

/-! ### Scrub, repair and in-service test (R672 to R683, R928 to R931) -/

/-- SCRUB_ACCESS, due, with no check of R678 waiting and the one before it ended: a stale row's access is skipped; another is
admitted as work of subscriber 40, whose word crosses class 7, and waits at its meter of service MAINT with a charge of 64 B;
the position moves on by one, and at the end of the pass to the next pass (R80, R263, R673 to R675). SCRUB_PASS_LATE: later
than PERIOD after its start the pass is marked and recorded late (R674). SCRUB_CHECK: the first check that may be made is
admitted in the same way, and dropped where its row has become stale (R474, R676, R678). -/
def Obligations.ScrubWalks : Prop :=
  ∀ (p : Fin 144) (s : State) (c : Nat), s.Canon → s.scrubs p.val = some c →
    let x := (s.slice p.val).scr
    let k := scrubKey p.val x.spos
    let read (t : State) (parent : Nat) (k : Key) : Prop :=
      ∃ e a h, t.fab.trk = s.fab.trk ++ [e] ∧ e.id = s.fab.nextId ∧ e.sub = 40 ∧ e.kind = .scrub ∧ e.parent = parent ∧
        e.fin = none ∧ e.vis = s.icqSeen 7 0 ∧ e.accs = [a] ∧ a.st = none ∧ a.chan = c ∧
        a.ps = p.val ∧ a.bank = keyBank k ∧ a.row = keyRow k ∧
        a.col = keyCol k ∧ t.fab.mq = s.fab.mq ++ [h] ∧ h.eid = s.fab.nextId ∧ h.sub = 40 ∧ h.svc = 5 ∧ h.ci = .green ∧
        h.charge = 64 ∧ t.fab = { s.fab with trk := t.fab.trk, nextId := s.fab.nextId + 1, mq := t.fab.mq } ∧
        t.ctl = (s.icqPass 7 0).ctl
    let open' : Prop := s.sys.entering = false ∧ s.fab.hold.contains 3 = false ∧ (s.fab.freeSlot 40).isSome = true ∧
      s.fab.entry s.fab.nextId = none
    (s.sliceLive p.val = true → (s.slice p.val).sch.held = 0 → bit s.stk.scrub 0 = true → x.spaused = none → s.fab.staleBad = [] →
      x.due x.spos ≤ s.view p.val → s.scrubsOut p.val 0 = [] → (∀ y ∈ x.checks, y.syms ≠ []) →
      (s.fab.isStale c (keyBank k) (keyRow k) = true → exec (.scrubAccess p) s = .next (s.modScr p.val fun x =>
        if x.spos + 1 = scrubLen then
          { x with spos := 0, sstart := s.view p.val, speriod := fld s.stk.scrub 1 8, slate := false
                   spass := (x.spass + 1) % 2 ^ 16 }
        else { x with spos := x.spos + 1 })) ∧
      (s.fab.isStale c (keyBank k) (keyRow k) = false → open' → x.spos + 1 ≠ scrubLen →
        ∃ t, exec (.scrubAccess p) s = .next t ∧ read t 0 k ∧
          t.slice p.val = { s.slice p.val with scr := { x with spos := x.spos + 1 } } ∧
          (∀ j, j ≠ p.val → t.slice j = s.slice j) ∧ Frame [.slices, .fab, .ctl] s t)) ∧
    (s.islandRuns p.val = true → x.slate = false → x.spaused = none →
      (s.view p.val ≤ x.sstart + x.ticks → exec (.scrubPassLate p) s = .next s) ∧
      (x.sstart + x.ticks < s.view p.val → exec (.scrubPassLate p) s =
        .next ((s.modScr p.val fun x => { x with slate := true }).event .scrubLate p.val (repairDetail c 0xFF 0 0)))) ∧
    (∀ y : ScrubChk, x.checks.find? (s.checkReady p.val) = some y → s.sliceLive p.val = true →
      (s.slice p.val).sch.held = 0 → s.fab.staleBad = [] →
      (s.fab.isStale ((s.stk.chanOf p.val).getD 0) y.bank y.row = true → exec (.scrubCheck p) s =
        .next (s.modScr p.val fun x => { x with checks := dropFirst (fun z => z == y) x.checks })) ∧
      (s.fab.isStale ((s.stk.chanOf p.val).getD 0) y.bank y.row = false → open' → y.syms ≠ [] ∨ s.det.mode ≠ .timing →
        ∃ t, exec (.scrubCheck p) s = .next t ∧ read t 1 (keyOf p.val y.bank y.row y.col) ∧ Frame [.fab, .ctl] s t))

/-- ROW_REPAIR_ACK: the 32 held accesses stand in the write buffer as row-repair writes, but for those that a newer write holds
there; a spare row of the bank is used, and ROW_REPAIR is recorded with the detail word of its cause (R655, R679, R935).
ROW_REPAIR_TIMEOUT: before 20 µs nothing; then the repair is given up and the bank counts as having no spare row (R679, R681). -/
def Obligations.RowRepaired : Prop :=
  ∀ (p : Fin 144) (s : State) (r : Repair) (rest : List Repair), s.Canon → (s.slice p.val).rep.repairs = r :: rest →
    (r.held.length = 32 → s.sys.porN = true → (s.slice p.val).dat.fow = [] → (s.slice p.val).dat.wb.length ≤ 32 →
      let d := (s.slice p.val).dat
      ∃ t, exec (.rowRepairAck p) s = .next t ∧
        (∀ i, i < 32 → (t.slice p.val).dat.wb.find? (fun w => w.isAt r.bank r.row i) =
          match d.wb.find? fun w => w.isAt r.bank r.row i with
          | some w => some w
          | none => some ⟨r.bank, r.row, i, r.held.getD i 0, r.raws.contains i, 43, s.fab.nextId⟩) ∧
        (t.slice p.val).dat.fow = [] ∧ (t.slice p.val).dat.lines = d.lines ∧ (t.slice p.val).dat.unit = d.unit ∧
        (t.slice p.val).dat.fcq = d.fcq ∧ (t.slice p.val).rep = { (s.slice p.val).rep with
          repairs := rest, rowsLeft := Tab.upd 0 (s.slice p.val).rep.rowsLeft r.bank (· + 1) } ∧
        (∀ j, j ≠ p.val → t.slice j = s.slice j) ∧ CountedCrossed s t ∧ Frame [.slices, .ctl, .evt, .mbx] s t) ∧
    (s.sys.ltc < r.start + 8000 → exec (.rowRepairTimeout p) s = .next s) ∧
    (r.start + 8000 ≤ s.sys.ltc → ∃ t, exec (.rowRepairTimeout p) s = .next t ∧
      t.slice p.val = { s.slice p.val with rep := { (s.slice p.val).rep with
        repairs := rest
        rowsLeft := Tab.set 0 (s.slice p.val).rep.rowsLeft r.bank (s.slice p.val).rep.rowsInit } } ∧
      (∀ j, j ≠ p.val → t.slice j = s.slice j) ∧ (s.autoMig = false → t.stk = s.stk) ∧ Frame [.slices, .stk] s t)

/-- EP_UNIT_FAULT on a slice in service: a substitution of the bank's unit is due, or with no spare unit left the unit is
fenced. UNIT_SUB: with no launch active on the bank the message goes out, once. Message and fence end cycle-repeatability with
cause 5 (R721). UNIT_SUB_ACK ends the wait with one spare unit less and its UNIT_SUB record; UNIT_SUB_TIMEOUT ends it 20 µs
after the message, with no spare unit used (DESIGN CHOICE, log 21) (R682, R683). Where the messages without an answer ask for
every spare unit left, UNIT_SUB waits; with no spare unit left the unit is fenced. -/
def Obligations.UnitSubstituted : Prop :=
  ∀ (p : Fin 144) (bank : Fin 32) (s : State), s.Canon →
    let b := bank.val
    let r := (s.slice p.val).rep
    let ended (used : Nat) : State :=
      (s.modRep p.val fun x => { x with
        unitWait := x.unitWait.filter fun y => y != b
        unitSent := x.unitSent.filter fun y => y.1 != b
        unitsLeft := x.unitsLeft - used }).report p.val .unitSub p.val (repairDetail ((s.stk.chanOf p.val).getD 0) 0xFF b 0)
    (s.sys.ready = true → r.inServ = true → r.unitBad.contains b = false → r.unitWait.contains b = false →
      (r.unitsLeft ≠ 0 → exec (.epUnitFault p bank) s =
        .next (s.modRep p.val fun x => { x with unitWait := insertNat b x.unitWait })) ∧
      (r.unitsLeft = 0 → s.autoMig = false → exec (.epUnitFault p bank) s =
        .next ((s.detBreak 5).modRep p.val fun x => { x with
          unitWait := x.unitWait.filter fun y => y != b
          unitBad := insertNat b x.unitBad }))) ∧
    (r.unitWait.contains b = true → (r.unitSent.any fun x => x.1 == b) = false →
      ((∃ c, s.stk.chanOf p.val = some c ∧ s.launchActive c b = true) → exec (.unitSub p bank) s = .next s) ∧
      ((∀ c, s.stk.chanOf p.val = some c → s.launchActive c b = false) → r.unitsLeft ≠ 0 → r.unitsLeft ≤ r.unitSent.length →
        exec (.unitSub p bank) s = .next s) ∧
      ((∀ c, s.stk.chanOf p.val = some c → s.launchActive c b = false) → r.unitsLeft = 0 → s.autoMig = false →
        exec (.unitSub p bank) s = .next ((s.detBreak 5).modRep p.val fun x => { x with
          unitWait := x.unitWait.filter fun y => y != b
          unitBad := insertNat b x.unitBad })) ∧
      ((∀ c, s.stk.chanOf p.val = some c → s.launchActive c b = false) → r.unitSent.length < r.unitsLeft →
        exec (.unitSub p bank) s = .next ((s.detBreak 5).modRep p.val fun x => { x with
          unitSent := x.unitSent ++ [(b, s.sys.ltc)] }))) ∧
    ((r.unitSent.any fun x => x.1 == b) = true → exec (.unitSubAck p bank) s = .next (ended 1)) ∧
    (∀ l : Nat, r.unitSent = [(b, l)] →
      (s.sys.ltc < l + 8000 → exec (.unitSubTimeout p bank) s = .next s) ∧
      (l + 8000 ≤ s.sys.ltc → exec (.unitSubTimeout p bank) s = .next (ended 0)))

/-- IST_CYCLE: outside READY and RUNNING, in DET_TIMING, and before 60 minutes have passed, nothing. A due cycle whose items
find nothing starts a march on the next free spare slice, which leaves self-refresh, and the next cycle is due an hour later
(R928, R929, R931). One that finds a bank unit bad makes its substitution due (R682, R930). SLICE_MARCH_DONE: the lowest slice
under test holds zeros; one that passed is free again, with its open banks precharged and in self-refresh by a SRE that waits for
them (R247, R928). -/
def Obligations.InServiceTest : Prop :=
  ∀ s : State, s.Canon →
    (∀ o : IstOutcome, (s.istAllowed = false ∨ s.sys.ltc < s.stk.istLast + 1440000000000) → exec (.istCycle o) s = .next s) ∧
    (∀ p : Nat, s.istAllowed = true → s.stk.istLast + 1440000000000 ≤ s.sys.ltc → s.marchIdle = true →
      s.nextMarch = some p → ∃ t, exec (.istCycle ⟨[], [], [], []⟩) s = .next t ∧
        t.stk = { s.stk with istLast := s.stk.istLast + 1440000000000, istNext := p + 1 } ∧
        (t.slice p).rep = { (s.slice p).rep with testing := true } ∧ (t.slice p).rf.selfRef = false ∧
        (t.slice p).rf.refOn = true ∧ (∀ j, j ≠ p → t.slice j = s.slice j) ∧ Frame [.stk, .slices] s t) ∧
    (∀ (p : Fin 144) (b : Fin 32), s.istAllowed = true → s.stk.istLast + 1440000000000 ≤ s.sys.ltc → s.marchIdle = false →
      (∀ c, s.stk.chanOf p.val = some c → s.launchActive c b.val = false) → s.stk.macClass = true →
      (s.slice p.val).rep.inServ = true → (s.slice p.val).rep.unitBad.contains b.val = false →
      (s.slice p.val).rep.unitWait.contains b.val = false → (s.slice p.val).rep.unitsLeft ≠ 0 →
      ∃ t, exec (.istCycle ⟨[], [(p.val, b.val)], [], []⟩) s = .next t ∧
        (t.slice p.val).rep.unitWait = insertNat b.val (s.slice p.val).rep.unitWait ∧
        (∀ j, j ≠ p.val → t.slice j = s.slice j) ∧ Frame [.stk, .slices] s t) ∧
    (∀ p : Nat, s.istAllowed = true → ((List.range 144).find? fun p => (s.slice p).rep.testing) = some p →
      (fld s.wrap.slice 0 8 ≠ p ∨ bit s.wrap.slice 8 = false) →
      let y := (s.closeAll p).slice p
      ∃ t, exec (.sliceMarchDone true) s = .next t ∧ y = { s.slice p with bt := y.bt, link := y.link } ∧
        (∀ b, b < 32 → (y.bt.bank b).openRow = none) ∧
        t.slice p = { y with
          rep := { y.rep with testing := false, tested := true }
          rf := { y.rf with selfRef := true, refOn := false }
          link := { y.link.send (y.bt.restAt y.sch.cclk) false (rowHalf 4 0) with cke := false } } ∧
        (∀ k, keyPs k = p → t.code k = 0) ∧ (∀ k, keyPs k ≠ p → t.code k = s.code k) ∧
        (∀ j, j ≠ p → t.slice j = s.slice j) ∧ Frame [.mem, .slices] s t)

/-! ### Temperature and power (R539 to R588, R866 to R873) -/

/-- HK_ROUND_START: not before its time or during a round; then the round is open, numbered, and counts for the impedance
engine, and the ECC record limits of every island begin again (R542, R624, R666). ZQ_CAL: after 1,024 rounds, not before, the
measured code is the engine's (R624). THERM_GRACE_END: enforcement starts GRACE after its start while KX_THR_REQ is 1, not
before, and the THERM cause is set (R568, R569). -/
def Obligations.ThermalRounds : Prop :=
  ∀ s : State, s.Canon → s.sys.porN = true →
    let t0 := 400 + 400000 * s.therm.roundNo
    ((s.therm.roundOpen = true ∨ s.sys.ltc < t0) → exec .hkRoundStart s = .next s) ∧
    (s.therm.roundOpen = false → t0 ≤ s.sys.ltc → ∃ t, exec .hkRoundStart s = .next t ∧
      t.therm = { s.therm with
        roundOpen := true, roundStart := t0, roundNo := s.therm.roundNo + 1, zqRounds := min 1024 (s.therm.zqRounds + 1) } ∧
      (∀ p, t.slice p = { s.slice p with scr := { (s.slice p).scr with ceRec := false, ueRecs := 0 } }) ∧
      Frame [.therm, .slices] s t) ∧
    (∀ code : BitVec 5, (s.therm.zqRounds < 1024 → exec (.zqCal code) s = .next s) ∧
      (1024 ≤ s.therm.zqRounds → exec (.zqCal code) s =
        .next { s with therm := { s.therm with zqRounds := 0, zqCode := code.toNat } })) ∧
    (∀ g : Nat, s.therm.graceStart = some g → s.therm.thrReq = true → s.therm.graceLate = false →
      (s.sys.ltc < g + s.cfg.graceTicks → exec .thermGraceEnd s = .next s) ∧
      (g + s.cfg.graceTicks ≤ s.sys.ltc → ∃ t, exec .thermGraceEnd s = .next t ∧
        t.therm = { s.therm with enforce := true, graceStart := none } ∧ t.mbx.irq.getLsbD 2 = true ∧
        Counted s t ∧ Frame [.therm, .fab, .det, .ctl, .evt, .mbx] s t))

/-- HK_EVALUATION before its time does nothing. When the readings of the round are there, with every sensor sound, each
temperature in its range and below SHUTDOWN, and none latched: the round's number and time are kept, and every slice has the
level that its reading and its former level give, and the reading (R543, R545, R564, R586). No warm reset waits, but for the
end of a mode change (R811). -/
def Obligations.LevelsEvaluated : Prop :=
  ∀ (readings spare : List (BitVec 16)) (s : State), s.Canon → s.sys.porN = true → s.therm.roundOpen = true →
    (s.sys.ltc < s.therm.roundStart + 384000 → exec (.hkEvaluation readings spare) s = .next s) ∧
    (s.therm.roundStart + 384000 ≤ s.sys.ltc → s.sys.rstEnd = false → s.therm.latch = false →
      (s.sys.rstDue = false ∨ s.mc ≠ none) →
      (∀ i, i < 288 → (s.sensor i).broken = false ∧ (s.sensor i).devcnt < 2 ∧ -640 ≤ (readings.getD i 0x8000).toInt) →
      (∀ p, p < 144 → (readings.getD p 0x8000).toInt < 16 * (fld s.cfg.therm0 16 8 : Nat) ∧ (s.slice p).level < 3) →
      ∃ t, exec (.hkEvaluation readings spare) s = .next t ∧ t.therm.roundOpen = false ∧
        t.therm.round = (s.therm.roundNo - 1) % 2 ^ 32 ∧ t.therm.roundLtc = s.sys.ltc ∧ t.therm.latch = false ∧
        (∀ p, p < 144 → (t.slice p).level = nextLevel s.cfg (s.slice p).level (readings.getD p 0x8000).toInt ∧
          (t.slice p).temp = readings.getD p 0x8000) ∧ t.ports = s.ports ∧ t.mem = s.mem ∧ t.cfg = s.cfg)

/-- FED_BUDGET_TIMER: a FEDERATED instance whose power messages run sends every layer its budget again after 1,000
evaluations, not before (R870). POWER_REPORT: the layer's power and state are as reported, and the report is not missed
(R867); a fenced layer's, or one outside RUNNING, is not taken (R872). POWER_SET_ACK: the layer is in the state it was set to;
POWER_SET_TIMEOUT: 100 µs after the message, not before, it is no longer awaited and the state stays as reported (R869). -/
def Obligations.LayerPower : Prop :=
  ∀ s : State,
    (s.powerOn = true → s.federated = true →
      (s.stk.fedCnt < 1000 → exec .fedBudgetTimer s = .next s) ∧
      (1000 ≤ s.stk.fedCnt → ∃ t, exec .fedBudgetTimer s = .next t ∧
        t.stk = { s.stk.openLayers.foldl (fun k l => k.modLayer l fun x => { x with budget := s.budgetMsg l }) s.stk with
          fedCnt := 0 } ∧ Frame [.stk, .sys] s t)) ∧
    (∀ (l : Fin 16) (power : BitVec 16) (st : BitVec 3),
      ((s.powerOn = false ∨ (s.stk.layer l.val).fenced = true) → exec (.powerReport l power st) s = .next s) ∧
      (s.powerOn = true → (s.stk.layer l.val).fenced = false → exec (.powerReport l power st) s =
        .next (s.modStk fun k => k.modLayer l.val fun x =>
          { x with power := power.toNat, pstate := st.toNat, missed := 0, got := true }))) ∧
    (∀ (l : Fin 16) (n t0 : Nat), (s.stk.layer l.val).setTo = some (n, t0) →
      exec (.powerSetAck l) s = .next (s.modStk fun k => k.modLayer l.val fun x => { x with pstate := n, setTo := none }) ∧
      (s.sys.ltc < t0 + 40000 → exec (.powerSetTimeout l) s = .next s) ∧
      (t0 + 40000 ≤ s.sys.ltc → exec (.powerSetTimeout l) s =
        .next (s.modStk fun k => k.modLayer l.val fun x => { x with setTo := none })))

/-! ### Bundles (R597 to R652) -/

/-- CAL_PASS_START: the lowest-numbered bundle that wants a pass starts it while fewer than CAL_PAR run, and no other one
(R641), with the bonds that it calibrates fixed. CAL_LANE: in a row slot that is left to it a free bond takes its measured
trims, is stored at the present rate point and temperature, and the pass goes on, past a bond that has failed meanwhile
(R602); after the last bond the pass is over, CAL_DUE is clear, and its time and temperature are kept (R598, R637, R641, R642,
R649). A lane with no spare waits for HOLD_GAP after the last hold (R643). LSTEER_SWITCH: 8 CCLK after its MIRROR, not before,
the oldest takeover's lane is on its new bond, and for a permanent one the mark of the old bond ends, in a row slot that is
left to it; without one it waits (R598, R604, R672). -/
def Obligations.BundleCalibrated : Prop :=
  (∀ (p : Fin 144) (s : State), s.Canon → s.calStopped = false →
      let l := (s.slice p.val).link
      ((List.range 144).find? s.calWants = some p.val →
        ((List.range 144).filter fun i => (s.slice i).link.calAct).length < s.calPar →
        ∃ t, exec (.calPassStart p) s = .next t ∧
          t.slice p.val = { s.slice p.val with link := { l with
            calAct := true, calList := if l.calPos = 0 then l.calBonds else l.calList } } ∧
          (∀ j, j ≠ p.val → t.slice j = s.slice j) ∧ Frame [.slices, .det, .evt, .mbx] s t) ∧
      ((List.range 144).find? s.calWants ≠ some p.val → exec (.calPassStart p) s = .next s) ∧
      (∀ (w w2 : BitVec 32) (b : Nat), l.calAct = true → l.up = true → l.calList[l.calPos]? = some b →
        let s0 := if s.islandRuns p.val then s.sideTake p.val else s
        (l.laneOf b = none → s.islandRuns p.val = true → s.sideSlot p.val = false →
          exec (.calLane p w w2) s = .next (s.sideWait p.val)) ∧
        (l.laneOf b = none → (s.islandRuns p.val = true → s.sideSlot p.val = true) → l.calPos + 1 < l.calList.length →
          exec (.calLane p w w2) s = .next ((if l.good b then s0.useTrim p.val b w else s0).modLink p.val fun l =>
            { l with calPos := l.calPos + 1 })) ∧
        (l.laneOf b = none → l.good b = true → (s.islandRuns p.val = true → s.sideSlot p.val = true) →
          l.calPos + 1 = l.calList.length → ∃ t, exec (.calLane p w w2) s = .next t ∧
          (t.slice p.val).link.calAct = false ∧ (t.slice p.val).link.calPos = 0 ∧ (t.slice p.val).link.calDue = false ∧
          (t.slice p.val).link.tlast = s.tcOf p.val ∧ (t.slice p.val).link.calLtc = s.sys.ltc ∧
          (t.slice p.val).link.calCnt = min (l.calCnt + 1) (2 ^ 32 - 1) ∧
          (t.slice p.val).link.trim = (l.storeTrim b s.sys.rate (s.tcOf p.val).toInt w).trim ∧
          (∀ j, j ≠ p.val → t.slice j = s.slice j) ∧ Frame [.slices, .evt, .mbx] s t) ∧
        (l.laneOf b ≠ none → (l.laneOf b).bind l.spareFor = none → s.sys.ltc < l.calNext →
          exec (.calLane p w w2) s = .next s))) ∧
  (∀ (p : Fin 144) (s : State) (t : Trims) (rest : List Trims), s.islandRuns p.val = true →
      (s.slice p.val).link.swap = t :: rest →
      ((t.mirrored = false ∨ (s.slice p.val).sch.cclk < t.since + 8) → exec (.lsteerSwitch p) s = .next s) ∧
      (t.mirrored = true → t.since + 8 ≤ (s.slice p.val).sch.cclk → s.sideSlot p.val = false →
        exec (.lsteerSwitch p) s = .next (s.sideWait p.val)) ∧
      (t.mirrored = true → t.since + 8 ≤ (s.slice p.val).sch.cclk → s.sideSlot p.val = true →
        exec (.lsteerSwitch p) s =
          .next (((s.sideTake p.val).sendRow p.val 8 (t.lane * 2 ^ 4 + t.dst * 2 ^ 11 + 2 ^ 18)).modLink p.val fun l =>
        { l.steerTo t.lane t.dst with
          swap := rest
          lanes := if t.perm then Tab.set Lane.reset l.lanes t.src Lane.reset else l.lanes })))

/-- SB_ALERT_N, EP_CK_LOCK_LOST and READ_STROBE_LOST on a working bundle start a full retrain with causes 1, 2 and 4: a
running calibration yields, and the channel is held once the word of the hold has crossed, so that its row slots precharge the
open banks one by one (R81, R202, R600, R629, R630, R644); on a bundle that retrains already the cause is handled by it
(R632), and while SB_ALERT_N is low it does not fall again (R599). RETRAIN_END waits until every bank is precharged; of one of
full width whose lanes all have good bonds once its takeovers have ended: the bundle is ACTIVE, the alert and the halves to
resend are gone, the hold ends once its word has crossed, and the Tc of the run is kept (R600, R630, R640). The shut-down, a
warm reset and a launch that step 3 of R688 waits for keep it from ending. -/
def Obligations.BundleRetrained : Prop :=
  ∀ (p : Fin 144) (s : State), s.Canon →
    let x := s.slice p.val
    let started (t : State) (cause : Nat) : Prop :=
      (t.slice p.val).link.state = .retrain ∧ (t.slice p.val).link.cause = cause ∧ (t.slice p.val).link.calAct = false ∧
        CountedTold s t ∧ s.Tells t 3 p.val (.hold p.val) ((t.slice p.val).sch.held = x.sch.held + 1) ((t.slice p.val).sch.held = x.sch.held) ∧
        (t.slice p.val).bt = x.bt ∧
        (∀ j, j ≠ p.val → t.slice j = s.slice j) ∧ Frame [.slices, .det, .ctl, .evt, .mbx] s t
    (x.link.up = true →
      (x.link.alert = true → ∀ n : BitVec 16, exec (.sbAlertN p n) s = .next s) ∧
      (x.link.alert = false → ∀ n : BitVec 16, ∃ t, exec (.sbAlertN p n) s = .next t ∧ started t 1 ∧
        (t.slice p.val).link.alert = true ∧
        (t.slice p.val).link.resend = (x.link.halves + 2 ^ 16 - n.toNat) % 2 ^ 16 ∧
        (t.slice p.val).link.again = x.link.again ++ x.link.hist.drop (x.link.hist.length - (x.link.halves + 2 ^ 16 - n.toNat) % 2 ^ 16)) ∧
      (∃ t, exec (.epCkLockLost p) s = .next t ∧ started t 2) ∧
      (∃ t, exec (.readStrobeLost p) s = .next t ∧ started t 4)) ∧
    (x.link.state = .retrain → exec (.epCkLockLost p) s = .next s ∧ exec (.readStrobeLost p) s = .next s ∧
      (∀ o : TrainOutcome, (s.closedFor p.val = false ∨ s.therm.latch = true ∨ s.sys.rstEnd = true ∨
          s.launchFirst p.val = true) →
        exec (.retrainEnd p o) s = .next s) ∧
      (∀ trims : List (Nat × BitVec 32), s.therm.latch = false → s.sys.rstEnd = false → x.link.cause ≠ 5 →
        s.closedFor p.val = true → 72 ≤ x.link.goodDq → (x.link.endSwaps x.sch.cclk).badLanes = [] → x.link.narrow = false →
        (s.stk.migs.find? fun m => m.new == p.val && !m.copying) = none → s.mbx.run = none →
        ∃ t, exec (.retrainEnd p ⟨[], false, trims⟩) s = .next t ∧ (t.slice p.val).link.state = .active ∧
          (t.slice p.val).link.alert = false ∧ (t.slice p.val).link.resend = 0 ∧ (t.slice p.val).link.again = [] ∧
          (t.slice p.val).link.swap = [] ∧ t.sys = { s.sys with free := t.sys.free } ∧
          (t.slice p.val).link.tlast = s.tcOf p.val ∧
          CountedTold s t ∧ s.Tells t 3 p.val (.free p.val) ((t.slice p.val).sch.held = x.sch.held - 1) ((t.slice p.val).sch.held = x.sch.held) ∧
          (∀ j, j ≠ p.val → t.slice j = s.slice j) ∧ Frame [.sys, .slices, .ctl, .evt, .mbx] s t))

/-! ### Migration and crossing queues (R69 to R83, R684 to R696) -/

/-- MIG_START for the first candidate, whose channel is bound to the slice: with a spare it starts on the slice R686 picks,
which leaves self-refresh, refreshes, and retrains with cause 5, or goes on with a retrain that runs already (R632); without
one it is dropped with FIRN_EMPTY (R684 to R688). -/
def Obligations.MigrationStarted : Prop :=
  ∀ (p : Fin 144) (s : State) (c : Cand) (rest : List Cand), s.Canon → s.stk.cands = c :: rest → c.target = 0xFF →
    c.cause ≠ 4 → s.sys.phase = .running → s.sys.ready = true → s.therm.latch = false →
    (s.stk.remapAt c.chan).st = .bound → (s.stk.remapAt c.chan).ps = p.val →
    (s.stk.migs.any fun m => m.chan == c.chan) = false → (s.stk.migs.filter fun m => !m.rebind).length < s.migMax →
    s.chanLaunch c.chan = false → s.workHeld p.val = false →
    (s.pickSpare p.val = none → exec (.migStart p) s = .next ({ s with stk := { s.stk with cands := rest } }.event
      .firnEmpty p.val (repairDetail c.chan 0xFF 0 c.cause))) ∧
    (∀ n : Nat, s.pickSpare p.val = some n → ∃ t, exec (.migStart p) s = .next t ∧
      t.stk = { s.stk with
        cands := rest
        migs := s.stk.migs ++ [{ Mig.reset with
          chan := c.chan, old := p.val, new := n, cause := c.cause, share := if c.share = 0 then s.copyShare else c.share }] } ∧
      (t.slice n).link.state = .retrain ∧
      (t.slice n).link.cause = (if (s.slice n).link.state = .retrain then (s.slice n).link.cause else 5) ∧ (t.slice n).rf.selfRef = false ∧
      (t.slice n).rf.refOn = true ∧ (t.slice n).link.cke = true ∧ (t.slice n).link.phy = true ∧
      (∀ j, j ≠ n → t.slice j = s.slice j) ∧ Counted s t ∧ Frame [.stk, .slices, .det, .ctl, .evt, .mbx] s t)

/-- MIG_ROW_COPY of a migrating channel whose row MPTR has no unfinished work and is not held by the spacing of a hot row
(R523), outside a hold (R244) and an alignment (R713), within the copy share and charged its 1,024 reads and 1,024 writes,
which count against the share (R191, R263, R297, R690): in all 32 banks the new slice holds the row of the old one, each
access with fresh check symbols, or its raw symbols where it is stale or cannot be corrected; MPTR is one more (R655, R688,
R689). REBIND_ZEROING_DONE: the new slice holds zeros, its scrub starts anew, the channel is BOUND to it, the REBIND is over,
no port keeps a scale-plane line of the channel (R347), and the EVT cause is set (R696); on a NARROW slice the channel is a
candidate (R684). -/
def Obligations.MigrationRowCopied : Prop :=
  (∀ (c : Fin 128) (s : State) (m : Mig), s.Canon →
      (s.stk.migs.find? fun m => m.chan == c.val && m.copying && !m.rebind) = some m →
      let e := s.stk.remapAt c.val
      e.st = .migrating → s.sliceLive m.old = true → s.sliceLive m.new = true → s.workHeld m.old = false → s.workHeld m.new = false →
      (∀ b, b < 32 → s.workSpaced m.old b e.mptr = false ∧ s.workSpaced m.new b e.mptr = false) → s.fab.staleBad = [] → ((s.slice m.old).dat.lines.find? fun l => l.row == e.mptr) = none →
      s.rowBusyIn m.old e.mptr = false → s.rowAhead m.old e.mptr m.mark = false → s.copyCapped m = false →
      (s.spend 41 5 131072).isSome = true → m.old ≠ m.new → e.mptr + 1 < 16384 → c.val < s.stk.remap.length →
      ∃ t, exec (.migRowCopy c) s = .next t ∧ t.stk.remapAt c.val = { e with mptr := e.mptr + 1 } ∧
        (∀ b i, b < 32 → i < 32 →
          let v := s.code (keyOf m.old b e.mptr i)
          let d := rsDecode v (s.slice m.old).link.erasures
          t.code (keyOf m.new b e.mptr i) =
            if s.fab.isStale c.val b e.mptr = true ∨ d.ue = true then v else rsEncode (dataOf d.code)) ∧
        (∀ k, (∀ b i, b < 32 → i < 32 → k ≠ keyOf m.new b e.mptr i) → t.code k = s.code k) ∧
        t.stk.migs = (s.stk.migs.map fun x => if x.chan = c.val then { x with debt := x.debt + 1024, mark := s.fab.nextId } else x) ∧
        t.sys = { s.sys with free := t.sys.free } ∧ (∀ j, j ≠ m.old → j ≠ m.new → t.slice j = s.slice j) ∧ CountedCrossed s t ∧
        Frame [.sys, .slices, .fab, .stk, .mem, .det, .ctl, .evt, .mbx] s t) ∧
  (∀ (c : Fin 128) (s : State) (m : Mig), s.Canon →
      (s.stk.migs.find? fun m => m.chan == c.val && m.rebind && m.copying) = some m → s.sliceLive m.new = true →
      c.val < s.stk.remap.length →
      ∃ t, exec (.rebindZeroingDone c) s = .next t ∧ (∀ k, keyPs k = m.new → t.code k = 0) ∧
        (∀ k, keyPs k ≠ m.new → t.code k = s.code k) ∧ t.stk.remapAt c.val = ⟨m.new, 0, .bound, 0⟩ ∧
        t.stk.migs = (s.stk.migs.filter fun x => x.chan != c.val) ∧ (t.slice m.new).scr.spos = 0 ∧
        (s.isNarrow m.new = true → s.autoMig = true → ∃ x ∈ t.stk.cands, x.chan = c.val ∧ x.cause = 1) ∧
        (∀ j, j ≠ m.new → t.slice j = s.slice j) ∧ t.mbx.irq.getLsbD 1 = true ∧
        (∀ k, t.port k = { s.port k with scale := (s.port k).scale.filter fun (kv : Key × Line) => keyPs kv.1 != c.val }) ∧
        Frame [.mem, .ports, .slices, .stk, .evt, .mbx] s t)

/-- ICQ_PTR_UPSET on a pointer whose two copies were good. Flips fall on the pointer's own bits and its parity bit (R47, R69).
Copies that are intact and equal stay as they are; the one intact copy is written over the other, and the class's correction
counts (R70, R71). Otherwise (both intact but different: cause 1; none intact: cause 2) the queue is reset: it is empty with
its credits back, the class's resets count, ICQ_RESET is recorded with its cause and the words lost (R72, R74, R78, R79), and
every request that was bound to it has completed with FAULT (R73, R74); no read word is left in a class 0 queue, and a reset
event log holds that record alone (R79). -/
def Obligations.CrossingQueueUpset : Prop :=
  ∀ (u : IcqUpset) (s : State), s.Canon → Tab.wf Icq.reset s.ctl.icqs = true → s.sys.porN = true →
    icqExists u.qclass.val u.qindex.val = true →
    let q := u.qclass.val
    let i := u.qindex.val
    let whole (t : Tab Nat) : Prop := Tab.wf 0 t = true ∧ Tab.get 0 t u.ptr.val = 0
    let a := icqFlips q u.flipA
    let b := icqFlips q u.flipB
    let copies (v w : Nat) : State := s.modIcq q i fun x => { x with
      dmgA := Tab.set 0 x.dmgA u.ptr.val v, dmgB := Tab.set 0 x.dmgB u.ptr.val w }
    let lost := intact a = intact b ∧ ¬ (intact a = true ∧ a = b)
    let cause := if intact a then 1 else 2
    let words := s.icqOcc q i + (if q = 4 then 0 else u.words)
    whole (s.icq q i).dmgA → whole (s.icq q i).dmgB →
    (intact a = true → a = b → exec (.icqPtrUpset u) s = .next (copies a b)) ∧
    (intact a ≠ intact b → exec (.icqPtrUpset u) s =
      .next ((copies (if intact a then a else b) (if intact a then a else b)).stat 0x320 (32 + q) 1)) ∧
    (lost → 3 ≤ q → q ≤ 8 → u.bound = [] → s.icqBound q i = [] → s.det.mode ≠ .timing → s.icqAway q i = 0 →
      (∀ x ∈ s.ctl.words, ¬ (x.q = q ∧ x.i = i)) → ∃ t, exec (.icqPtrUpset u) s = .next t ∧ (t.icq q i).wr = 0 ∧ (t.icq q i).used = 0 ∧ (t.icq q i).lost = min 255 words ∧
        t.ctr 0x320 (16 + q) = (s.errCount 0x320 (16 + q) 1).ctr 0x320 (16 + q) ∧ CountedCrossed s t ∧ Frame [.ctl, .evt, .mbx] s t ∧
        (s.logFull = false → (s.ctr 0x320 (16 + q)).v < 2 ^ 32 - 1 → t.evt.recs = s.evt.recs ++ [mkRec s.evt.seq .icqReset 0
          (icqDetail cause q i words 0) s.sys.ltc])) ∧
    (∀ (id : Nat) (e : Entry), lost → id ∈ s.icqBound q i ++ u.bound.filter (s.icqMay q i) → s.fab.entry id = some e →
      e.kind = .rd ∨ e.kind = .wr ∨ e.kind = .wrPartial ∨ e.kind = .acc ∨ e.kind = .readBulk ∨ e.kind = .writeBulk → e.fin = none →
      ∃ t x, exec (.icqPtrUpset u) s = .next t ∧ t.fab.entry id = some x ∧ x.fin = some ⟨.fault, eOk⟩ ∧
        t.ports = s.ports ∧ t.mem = s.mem) ∧
    (lost → q = 0 → ∃ t, exec (.icqPtrUpset u) s = .next t ∧ (t.slice i).dat.fcq = [] ∧
      (∀ w ∈ (t.slice i).sch.window ++ (t.slice i).sch.narrowSlot, w.word = false) ∧ (t.icq q i).used = 0 ∧
      t.ports = s.ports ∧ t.mem = s.mem) ∧
    (lost → q = 9 → s.det.mode ≠ .timing → (∀ x ∈ s.ctl.words, x.q ≠ 9) → (s.ctr 0x320 25).v < 2 ^ 32 - 1 →
      ∃ t, exec (.icqPtrUpset u) s = .next t ∧ t.evt.rd = 0 ∧ t.evt.mark = 0 ∧
        t.evt.recs = [mkRec s.evt.seq .icqReset 0 (icqDetail cause 9 0 s.evt.recs.length 0) s.sys.ltc] ∧
        CountedCrossed s t ∧ Frame [.ctl, .evt, .mbx] s t)

/-! ### The mailbox (R754 to R764, R798 to R841) -/

/-- Every mailbox command begins alike. It is ignored before the release from warm reset, while a command is BUSY, and for
another opcode; in Frost, with the latch clear, it starts Thaw, at whose start requester-down lines that changed take effect
(R159), and waits (R755, R756, R802); in DET_TIMING a command that R719 delays waits for its quantum; a nonzero reserved bit
or unnamed argument word ends it with E_BADARG before any other check (R800). An opcode that no command has ends with E_BADOP
(R798). -/
def Obligations.DoorbellTaken : Prop :=
  ∀ s : State,
    let free := s.cpLive = true ∧ s.mbx.st ≠ .busy
    let waits := s.sys.phase = .frost ∧ s.therm.latch = false
    let thawing := State.takeLines { s with mbx := s.busyWith none, sys := { s.sys with phase := .thaw, wakeLtc := s.sys.ltc } }
    (∀ (i : Instr) (op : Nat) (quant : Bool) (masks : List Nat), mailCmd i = some (op, quant, masks) →
      (s.cpLive = false ∨ fld s.mbx.cmd 0 8 ≠ op ∨ s.mbx.st = .busy → exec i s = .next s) ∧
      (free → waits → fld s.mbx.cmd 0 8 = op → exec i s = .next thawing) ∧
      (free → ¬ waits → fld s.mbx.cmd 0 8 = op → quant = true → s.det.mode = .timing →
        exec i s = .next { s with mbx := { s.busyWith none with starts := some (s.quantum s.sys.ltc) } }) ∧
      (s.Rings op quant → s.takeDoorbell.argsBad masks = true → exec i s = .next { s with mbx := s.answer eBadarg [] })) ∧
    (s.cpLive = false ∨ s.mbx.st = .busy ∨ fld s.mbx.cmd 0 8 ∈ opcodes → exec .mbxBadOpcode s = .next s) ∧
    (free → fld s.mbx.cmd 0 8 ∉ opcodes → (waits → exec .mbxBadOpcode s = .next thawing) ∧
      (¬ waits → exec .mbxBadOpcode s = .next { s with mbx := s.answer eBadop [] }))

/-- The commands that answer or change no configuration. IDENT: KX_VERSION, KX_ROMID, STS_GLOBAL and GEN. REGION_READ: the
entry. LINK_READ: its words, or E_RANGE. TLM_CLEAR: the pages of the range read zero, the other pages do not change (R813).
SENSOR_CLEAR: the broken sensors among those named are restored at the next evaluation; it answers how many (R815).
LOCKSTEP_RELEASE: latch and hold are cleared, with what they were in the answer, or E_NOTACTIVE (R839). DIGEST_FENCE without
REC_EN: the next fence number and its digest; with it the command is BUSY until the record is written (R730, R837). And, on a
gang master or not: RATE_SET to the rate in force and DET_SET to the mode in force answer E_OK with it; a CFG_COMMIT whose
image passes every check, a RATE_SET to another supported rate and a DET_SET to another mode begin their change, or the
alignment of DET_TIMING, and stay BUSY until it ends (R805, R807, R817, R820, R824). The master of a gang with other members
begins the change also to the rate or mode that it has (R858). -/
def Obligations.CommandsAnswered : Prop :=
  ∀ s : State, s.Canon →
    let r := s.takeDoorbell
    let a := r.argf 0 0 12
    let b := r.argf 1 0 12
    let v := r.argf 0 0 9
    let named (i : Nat) : Bool := (v == 0x1FF || v == i) && (s.sensor i).broken
    let f := r.argf 0 0 4
    let rate := r.argf 0 0 2
    let n := (s.stream f).n + 1
    let d := fenceDigest (s.stream f) s.det.pd f n
    (s.Rings 0x01 false → r.argsBad [] = false →
      exec .ident s = .next { s with mbx := s.answer eOk [Config.version, Config.romId, s.stsGlobal, s.cfg.gen] }) ∧
    (s.Rings 0x12 false → r.argsBad [0x3F] = false → ∃ ws : List Word, exec .regionRead s = .next { s with mbx := s.answer eOk ws } ∧
      ws.length = 8 ∧ ∀ i, i < 256 → bit (ws.getD (i / 32) 0) (i % 32) = (regionAt s.cfg.regions (r.argf 0 0 6)).getLsbD i) ∧
    (s.Rings 0x42 false → r.argsBad [0x3FF, 0x37F] = false →
      let bad := 144 ≤ r.argf 0 0 8 ∨ (r.argf 0 8 2 = 3 ∧ 91 ≤ r.argf 1 0 7)
      (bad → exec .linkRead s = .next { s with mbx := s.answer eRange [] }) ∧
      (¬ bad → exec .linkRead s = .next { s with mbx := s.answer eOk r.linkWords })) ∧
    (s.Rings 0x02 false → r.argsBad [0xFFF, 0xFFF] = false →
      (b < a ∨ 0x401 < b → exec .tlmClear s = .next { s with mbx := s.answer eRange [] }) ∧
      (a ≤ b → b ≤ 0x401 → ∃ t, exec .tlmClear s = .next t ∧ t.mbx = s.answer eOk [] ∧
        (∀ page slot, slot < 128 → t.ctr page slot = if a ≤ page ∧ page ≤ b then Ctr.reset else s.ctr page slot) ∧
        (∀ p, t.slice p = if a ≤ p ∧ p ≤ b then { s.slice p with link := { (s.slice p).link with calCnt := 0 } } else s.slice p) ∧
        t.ctl = { s.ctl with tlm := t.ctl.tlm } ∧ Frame [.mbx, .ctl, .slices] s t)) ∧
    (s.Rings 0x03 false → r.argsBad [0x1FF] = false →
      (288 ≤ v → v ≠ 0x1FF → exec .sensorClear s = .next { s with mbx := s.answer eRange [] }) ∧
      (v < 288 ∨ v = 0x1FF → ∃ t, exec .sensorClear s = .next t ∧
        t.mbx = s.answer eOk [BitVec.ofNat 32 ((List.range 288).filter named).length] ∧
        (∀ i, t.sensor i = if i < 288 ∧ named i = true then { s.sensor i with clr := true } else s.sensor i) ∧
        t.therm = { s.therm with sens := t.therm.sens } ∧ Frame [.mbx, .therm] s t)) ∧
    (s.Rings 0x52 false → r.argsBad [] = false →
      (s.det.mismatch = false → exec .lockstepRelease s = .next { s with mbx := s.answer eNotActive [] }) ∧
      (s.det.mismatch = true → ∃ t, exec .lockstepRelease s = .next t ∧ t.det.mismatch = false ∧ t.det.lsHeld = false ∧
        t.mbx.st = .done ∧ t.mbx.err = eOk ∧ t.mbx.resp = tabOf [s.stsLs, s.det.mFence] ∧ t.mbx.nresp = 2 ∧
        Frame [.mbx, .det, .evt] s t)) ∧
    (s.Rings 0x10 false → r.argsBad [] = false → s.noChannels = false → s.modechg = false →
      ∀ c, s.commitCheck s.ctl.staging = .inr c → ∃ t m, exec .cfgCommit s = .next t ∧ t.mc = some m ∧ m.what = .cfg ∧
        m.cfg = c ∧ m.opc = 0x10 ∧ m.committed = false ∧ m.start = s.sys.ltc ∧ t.mbx.st = .busy ∧ t.cfg = s.cfg ∧ t.mem = s.mem) ∧
    (s.Rings 0x20 false → r.argsBad [3] = false → s.rateBad = false → s.isPending 0x20 = false → s.stk.rates.testBit rate = true →
      (rate = s.sys.rate → s.carries = false → exec .rateSet s = .next { s with mbx := s.answer eOk [BitVec.ofNat 32 rate] }) ∧
      (rate ≠ s.sys.rate ∨ s.carries = true → s.rateWaits = false → s.modechg = false → ∃ t m, exec .rateSet s = .next t ∧ t.mc = some m ∧ m.what = .rate ∧
        m.rate = rate ∧ m.opc = 0x20 ∧ m.committed = false ∧ m.start = s.sys.ltc ∧ t.mbx.st = .busy ∧ t.sys = s.sys)) ∧
    (s.Rings 0x21 false → r.argsBad [3] = false → rate < 3 → s.noChannels = false →
      (rate < 2 → modeOf rate = s.det.mode → s.carries = false →
        exec .detSet s = .next { s with mbx := s.answer eOk [BitVec.ofNat 32 rate] }) ∧
      (rate < 2 → modeOf rate ≠ s.det.mode ∨ s.carries = true → (rate = 1 → s.cfg.satEqual = true) → s.modechg = false →
        ∃ t m, exec .detSet s = .next t ∧ t.mc = some m ∧ m.what = .det ∧ m.det = modeOf rate ∧ m.opc = 0x21 ∧
          m.committed = false ∧ m.start = s.sys.ltc ∧ t.mbx.st = .busy ∧ t.det = s.det) ∧
      (rate = 2 → s.timingBad = false → s.cfg.satEqual = true → s.modechg = false → ∃ t, exec .detSet s = .next t ∧
        t.det = { s.det with align := 1, alignAt := s.sys.ltc, alignBoot := false } ∧ t.mbx.st = .busy ∧
        s.Tells t 7 0 (.admHold 3) (3 ∈ t.fab.hold) (t.fab = s.fab) ∧
        t.ctl = { s.ctl with icqs := t.ctl.icqs, words := t.ctl.words } ∧ Frame [.det, .fab, .ctl, .mbx] s t)) ∧
    (s.Rings 0x50 true → r.argsBad [0xF] = false →
      (s.noChannels = true → exec .digestFence s = .next { s with mbx := s.answer eState [] }) ∧
      (s.noChannels = false → s.lsEn = false → s.masterAgg.testBit f = false → n ≠ 0 ∨ Tab.wf Stream.reset s.det.streams = true →
        ∃ t, exec .digestFence s = .next t ∧
        (t.stream f).n = n ∧ (t.stream f).d = d ∧ (t.stream f).s = 0 ∧ (t.stream f).bytes = 0 ∧ (t.stream f).pieces = 0 ∧
        (∀ j, j ≠ f → t.stream j = s.stream j) ∧ Frame [.mbx, .det, .ctl, .evt] s t ∧
        (s.recEn = false → t.det.recs = s.det.recs ∧ t.mbx.st = .done ∧ t.mbx.err = eOk ∧ t.mbx.nresp = 10 ∧
          Tab.get 0 t.mbx.resp 0 = n ∧ ∀ i, i < 256 → bit (Tab.get 0 t.mbx.resp (1 + i / 32)) (i % 32) = d.getLsbD i) ∧
        (s.recEn = true → t.mbx.st = .busy ∧
          t.det.recs = s.det.recs ++ [⟨f, n, s.sys.ltc, (s.stream f).bytes, (s.stream f).pieces, d, none, true, none⟩])))

/-- The commands that wait for a device. CFG_STORE: an image that fails a check of R788 ends it with the check's code, else it
is BUSY until the boot store has written and read back the copy; after 500 ms, not before, it ends with E_TIMEOUT and the copy
is not intact (R818). FIRN_READ: E_RANGE, E_STATE for a fenced layer, else BUSY until the endpoint answers; the answer holds
the spare units, the spare rows of each bank up to 255, the free spares and STS_FIRN; after 1 ms, not before, E_TIMEOUT
(R836). -/
def Obligations.DeviceCommands : Prop :=
  ∀ s : State,
    let r := s.takeDoorbell
    let p := r.argf 0 0 8
    (s.Rings 0x11 false → r.argsBad [1] = false →
      (∀ e, checkImage s.ctl.staging false none s.stk = .inl e → exec .cfgStore s = .next { s with mbx := s.answer e [] }) ∧
      (∀ c, checkImage s.ctl.staging false none s.stk = .inr c → exec .cfgStore s = .next { s with
        mbx := s.busyWith (some ⟨0x11, r.argf 0 0 1, 0, [], (imageWords s.ctl.staging).map (·.toNat)⟩) })) ∧
    (∀ x : RunCmd, s.mbx.run = some x → x.op = 0x11 →
      let copy := some (tabWith 0 (x.vals.map (BitVec.ofNat 32)))
      exec (.cfgStoreDone true) s = .next { s with
        ctl := { s.ctl with
          bootA := if x.a = 0 then copy else s.ctl.bootA
          bootB := if x.a = 0 then s.ctl.bootB else copy
          bootBad := s.ctl.bootBad.filter fun i => i != x.a }
        mbx := s.ended eOk [] } ∧
      (∃ t, exec (.cfgStoreDone false) s = .next t ∧ x.a ∈ t.ctl.bootBad ∧ t.mbx = s.ended eCheck [] ∧ Frame [.ctl, .mbx] s t) ∧
      (s.sys.ltc < s.mbx.since + 200000000 → exec .cfgStoreTimeout s = .next s) ∧
      (s.mbx.since + 200000000 ≤ s.sys.ltc → ∃ t, exec .cfgStoreTimeout s = .next t ∧ x.a ∈ t.ctl.bootBad ∧
        t.mbx = s.ended eTimeout [] ∧ Frame [.ctl, .mbx] s t)) ∧
    (s.Rings 0x45 false → r.argsBad [0xFF] = false →
      (144 ≤ p → exec .firnRead s = .next { s with mbx := s.answer eRange [] }) ∧
      (p < 144 → (s.stk.layer (layerOf p)).fenced = true → exec .firnRead s = .next { s with mbx := s.answer eState [] }) ∧
      (p < 144 → (s.stk.layer (layerOf p)).fenced = false →
        exec .firnRead s = .next { s with mbx := s.busyWith (some ⟨0x45, p, 0, [], []⟩) })) ∧
    (∀ x : RunCmd, s.mbx.run = some x → x.op = 0x45 →
      (∀ (units : BitVec 16) (rows : List (BitVec 16)), ∃ ws : List Word,
        exec (.firnReadAnswer units rows) s = .next { s with mbx := s.ended eOk ws } ∧ ws.length = 11 ∧
        (ws.getD 0 0).toNat = units.toNat ∧
        (∀ b, b < 32 → fld (ws.getD (1 + b / 4) 0) (8 * (b % 4)) 8 = min 255 (rows.getD b 0).toNat) ∧
        (∀ l, l < 16 → bit (ws.getD 9 0) l = s.freeSpare (9 * l + 8)) ∧ ws.getD 10 0 = s.stsFirn) ∧
      (s.sys.ltc < s.mbx.since + 400000 → exec .firnReadTimeout s = .next s) ∧
      (s.mbx.since + 400000 ≤ s.sys.ltc → exec .firnReadTimeout s = .next { s with mbx := s.ended eTimeout [] })) ∧
    (s.mbx.run = none → exec (.cfgStoreDone true) s = .next s ∧ exec .cfgStoreTimeout s = .next s ∧ exec .firnReadTimeout s = .next s)

/-! ### Changes of mode (R252, R253, R708, R804 to R811, R816 to R824) -/

/-- CFG_COMMIT, RATE_SET and DET_SET run their checks in the order of R800 and end with the code of the first that fails. A
RATE_SET to the rate in force and a DET_SET to the mode in force end with E_OK at once, but for the master of a gang with
other members (R858); a RATE_SET during start-up or a full retrain is accepted with PENDING (R252); DET_TIMING starts the
alignment with admission held once its word has crossed (R81, R713), unless EXP_SAT differs among the ports (R351; DEDUCED for
DET_TIMING, log 33). Otherwise the change begins: MODECHG is set, the command is BUSY, PREPARE crosses to every island, the
shadows are written (R805), calibration yields to a rate change (R644), and lines of reshaped regions are written back; the
units have acknowledged at once where none is left to write back and nothing is longer on its way (R81, R199, R805). -/
def Obligations.ChangesStarted : Prop :=
  ∀ s : State, s.Canon →
    let r := s.takeDoorbell
    let n := r.argf 0 0 2
    let alone := (s.isMaster && s.gangOn) = false
    let mc (t : State) (m : ModeChg) : Option ModeChg := some { m with
      start := s.sys.ltc, acked := s.sys.ltc, ackd := t.backDone m && decide (s.crossTime 3 + s.crossTime 4 = 0) }
    (s.Rings 0x10 false → r.argsBad [] = false →
      (s.noChannels = true → exec .cfgCommit s = .next { s with mbx := s.answer eState [] }) ∧
      (s.noChannels = false → s.modechg = true → exec .cfgCommit s = .next { s with mbx := s.answer eBusy [] }) ∧
      (∀ e, s.noChannels = false → s.modechg = false → s.commitCheck s.ctl.staging = .inl e →
        exec .cfgCommit s = .next { s with mbx := s.answer e [] }) ∧
      (∀ c, s.noChannels = false → s.commitCheck s.ctl.staging = .inr c → s.modechg = false → alone →
        ∃ t, exec .cfgCommit s = .next t ∧ t.mc = mc t { ModeChg.reset with what := .cfg, cfg := c, opc := 0x10 } ∧
          (t.unitsAcked = true → ∀ p l, p < 144 → l ∈ (t.slice p).dat.lines → s.reshapes c.regions p l = false) ∧
          (∀ p, p < 144 → (t.slice p).dat.lines.filter (fun l => !s.reshapes c.regions p l) =
            (s.slice p).dat.lines.filter (fun l => !s.reshapes c.regions p l)) ∧
          t.mbx = { s.busyWith none with irq := t.mbx.irq } ∧ t.ctl = { s.ctl with tlm := t.ctl.tlm, icqs := t.ctl.icqs } ∧
          Frame [.mc, .slices, .ctl, .evt, .mbx] s t)) ∧
    (s.Rings 0x20 false → r.argsBad [3] = false →
      (s.rateBad = true → exec .rateSet s = .next { s with mbx := s.answer eState [] }) ∧
      (s.rateBad = false → s.isPending 0x20 = true ∨ ((n ≠ s.sys.rate ∨ s.carries = true) ∧ s.rateWaits = false ∧ s.modechg = true) →
        exec .rateSet s = .next { s with mbx := s.answer eBusy [] }) ∧
      (s.rateBad = false → s.isPending 0x20 = false →
        (n = s.sys.rate ∧ s.carries = false) ∨ s.rateWaits = true ∨ s.modechg = false →
        (s.stk.rates.testBit n = false → exec .rateSet s = .next { s with mbx := s.answer eNotsup [] }) ∧
        (s.stk.rates.testBit n = true →
          (n = s.sys.rate → s.carries = false → exec .rateSet s = .next { s with mbx := s.answer eOk [BitVec.ofNat 32 n] }) ∧
          (n ≠ s.sys.rate ∨ s.carries = true → s.rateWaits = true → exec .rateSet s = .next { s with
            mbx := { s.answer eOk [] with
              pend := true
              pending := s.mbx.pending ++ [⟨0x20, (List.range 16).map r.arg, []⟩] } }) ∧
          (n ≠ s.sys.rate → s.rateWaits = false → s.modechg = false → alone → ∃ t, exec .rateSet s = .next t ∧
            t.mc = mc t { ModeChg.reset with what := .rate, rate := n, opc := 0x20 } ∧
            t.mbx = { s.busyWith none with irq := t.mbx.irq } ∧ t.ctl = { s.ctl with tlm := t.ctl.tlm, icqs := t.ctl.icqs } ∧
            (∀ p, p < 144 → t.slice p = { s.slice p with
              bt := { (s.slice p).bt with tim2 := timingSet (s.stk.layer (layerOf p)).tims n }
              link := { (s.slice p).link with calAct := false } }) ∧
            Frame [.mc, .slices, .ctl, .evt, .mbx] s t)))) ∧
    (s.Rings 0x21 false → r.argsBad [3] = false →
      (n = 3 → exec .detSet s = .next { s with mbx := s.answer eRange [] }) ∧
      (n < 3 → s.noChannels = true ∨ (n = 2 ∧ s.timingBad = true) → exec .detSet s = .next { s with mbx := s.answer eState [] }) ∧
      (n = 2 → s.noChannels = false → s.timingBad = false →
        (s.modechg = true → exec .detSet s = .next { s with mbx := s.answer eBusy [] }) ∧
        (s.modechg = false → s.cfg.satEqual = false → exec .detSet s = .next { s with mbx := s.answer eBadarg [] }) ∧
        (s.modechg = false → s.cfg.satEqual = true → ∃ t, exec .detSet s = .next t ∧
          t.det = { s.det with align := 1, alignAt := s.sys.ltc, alignBoot := false } ∧
          s.Tells t 7 0 (.admHold 3) (t.fab = { s.fab with hold := insertNat 3 s.fab.hold }) (t.fab = s.fab) ∧
          t.ctl = { (s.icqPass 7 0).ctl with words := t.ctl.words } ∧
          t.mbx = s.busyWith (some ⟨0x21, 2, 0, [], []⟩) ∧ Frame [.det, .fab, .ctl, .mbx] s t)) ∧
      (n < 2 → s.noChannels = false →
        let other := modeOf n ≠ s.det.mode ∨ s.carries = true
        (modeOf n = s.det.mode → s.carries = false → exec .detSet s = .next { s with mbx := s.answer eOk [BitVec.ofNat 32 n] }) ∧
        (other → s.modechg = true → exec .detSet s = .next { s with mbx := s.answer eBusy [] }) ∧
        (other → s.modechg = false → n = 1 → s.cfg.satEqual = false →
          exec .detSet s = .next { s with mbx := s.answer eBadarg [] }) ∧
        (other → (n = 1 → s.cfg.satEqual = true) → s.modechg = false → alone → exec .detSet s = .next { s with
          mc := mc s { ModeChg.reset with what := .det, det := modeOf n, opc := 0x21 }
          ctl := s.prepareWords.ctl
          mbx := s.busyWith none })))

/-- MODECHG_COMMIT before the boundary does nothing. At it a CFG_COMMIT puts the new configuration and its programs into every
unit with SOURCE 3 and holds the slices that it changes, once lines of reshaped regions updated since the prepare have been
written back, and a channel period or sampling interval that has begun meanwhile is met first (R199, R293, R312); a RATE_SET
holds the slices of every bound channel, whose row slots then precharge and enter self-refresh (R253); a DET_SET sets the
mode, in CFG_DET too, and clears ALIGNED (R707, R808). COMMIT_WINDOW_END, for a rate change once those slices are in
self-refresh: MODECHG clears, the command ends with E_OK, and a rate change has its new rate and its shadow timing in force
(R810). MODECHG_PREPARE_TIMEOUT: 1 ms after PREPARE, not before, a change whose units have not all acknowledged is aborted:
MODECHG clears, the shadow timing sets of a rate change are discarded, its command ends with E_ABORTED, and nothing else
changes (R806). -/
def Obligations.ChangesCommitted : Prop :=
  ∀ (s : State) (m : ModeChg), s.Canon → s.mc = some m →
    (s.changeDue m = false → exec .modechgCommit s = .next s) ∧
    (m.committed = false ∨ s.quiet m = false → exec .commitWindowEnd s = .next s) ∧
    (s.changeDue m = true → (s.changeBack m).backDone m = false → exec .modechgCommit s = .next (s.changeBack m)) ∧
    (s.changeDue m = true → (s.changeBack m).backDone m = true →
      (m.what = .cfg → ∃ t, exec .modechgCommit s = .next t ∧ t.cfg = m.cfg ∧ t.fab.progs = m.cfg.progs ∧ t.ctl.srcImg = 3 ∧
        t.ctl.cause = 0 ∧ t.ctl.defaulted = false ∧
        t.det.mode = (if s.det.mode = .timing then .timing else m.cfg.detMode) ∧ t.det.pd = t.programDigest ∧
        (∀ p ∈ s.slicesChanged s.cfg.regions m.cfg.regions, (s.slice p).sch.held < (t.slice p).sch.held) ∧
        t.mc = some { m with
          committed := true
          commitAt := s.sys.ltc
          undo := some s.undoOf
          held := s.slicesChanged s.cfg.regions m.cfg.regions } ∧
        t.mem = s.mem ∧ t.stk = { s.stk with migs := t.stk.migs } ∧ t.ring = s.ring ∧ t.sys = s.sys) ∧
      (m.what = .rate → m.rate ≠ s.sys.rate → ∃ t, exec .modechgCommit s = .next t ∧
        (∀ p ∈ s.boundSlices, (s.slice p).sch.held < (t.slice p).sch.held) ∧
        (∀ p, p ∉ s.boundSlices → t.slice p = s.slice p) ∧
        (∃ u, t.mc = some u ∧ u.committed = true ∧ u.held = s.boundSlices) ∧
        Counted s t ∧ Frame [.mc, .slices, .fab, .stk, .ctl, .evt, .mbx] s t) ∧
      (m.what = .det → ∃ t, exec .modechgCommit s = .next t ∧ t.det = { s.det with mode := m.det, aligned := false } ∧
        fld t.cfg.det 0 2 = (match m.det with | .off => 0 | .bits => 1 | .timing => 2) ∧
        fld t.cfg.det 2 30 = fld s.cfg.det 2 30 ∧ t.cfg = { s.cfg with det := t.cfg.det } ∧ Counted s t ∧
        Frame [.mc, .cfg, .det, .slices, .fab, .stk, .ctl, .evt, .mbx] s t)) ∧
    (m.committed = true → s.quiet m = true → s.sys.rstDue = false →
      ∃ t, exec .commitWindowEnd s = .next t ∧ t.mc = none ∧
        t.sys.rate = (if m.what = .rate then m.rate else s.sys.rate) ∧ t.sys = { s.sys with rate := t.sys.rate } ∧
        (m.what = .rate → ∀ p, p < 144 → (t.slice p).bt.tim = (s.slice p).bt.tim2) ∧
        (∀ p, p ∉ m.held → (t.slice p).sch.held = (s.slice p).sch.held) ∧
        (m.pend = false → m.opc ≠ 0 → t.mbx.st = .done ∧ t.mbx.err = eOk ∧ t.mbx.run = none) ∧
        (m.pend = false → m.opc = 0x20 → m.what = .rate → t.mbx.nresp = 1 ∧ Tab.get 0 t.mbx.resp 0 = BitVec.ofNat 32 m.rate) ∧
        Frame [.mc, .sys, .slices, .ctl, .evt, .mbx] s t) ∧
    (m.committed = true ∨ m.ackd = true ∨ s.sys.ltc < m.start + 400000 → exec .modechgPrepareTimeout s = .next s) ∧
    (m.committed = false → m.ackd = false → m.start + 400000 ≤ s.sys.ltc → m.gang = none → m.pend = false → m.opc ≠ 0 →
      exec .modechgPrepareTimeout s = .next { (if m.what = .rate then s.dropShadows else s) with
        mc := none, mbx := s.ended eAborted [] })

/-! ### Commands with memory accesses, and commands on bundles and spares (R825 to R835, R838, R840, R841) -/

/-- ACC_FLUSH: every line of the named regions is clean or waits for a write-buffer entry, and the command ends with the
number of dirty ones once none of them waits (R825, R935). RESEAL: with no stale row in its regions on a channel that a slice
serves, and no write of an earlier reseal that waits for the write buffer, it ends at once, else it is BUSY (R828). BREW_LOAD
with NOPS 0 empties its slot, with a program in a PLAIN region it is BUSY (R826, R827). RESTORE_CONTEXT and DIGEST_REGION are
BUSY. SAVE_CONTEXT holds subscribers 0 to 36 once its word has crossed (R81, R742); once they have drained, the caches are
clean and the image is taken; 10 ms after the hold, not before, one that has not drained ends with E_TIMEOUT and the hold
ends. Each ends with the code of its first failing check (R800). -/
def Obligations.MemoryCommands : Prop :=
  ∀ s : State, s.Canon →
    let r := s.takeDoorbell
    let reg := regionAt s.cfg.regions (r.argf 0 0 6)
    let i := r.argf 0 0 6
    let n := r.argf 0 16 9
    let pick (p : Nat) (l : AccLine) : Bool :=
      r.argf 0 8 1 == 1 || ((r.namedRegions isAccum).map (regionAt s.cfg.regions)).any (s.lineIn p l)
    let clean (t : State) (pick : Nat → AccLine → Bool) : Prop := ∀ p b w c, p < 144 →
      ((t.slice p).dat.lineAt b w c).map (·.data) = ((s.slice p).dat.lineAt b w c).map (·.data) ∧
      ∀ l, (t.slice p).dat.lineAt b w c = some l → pick p l = true → l.dirty = false ∨ l.out.isSome = true
    let settled (t : State) : Prop := ∀ p l, p < 144 → l ∈ (s.slice p).dat.lines → pick p l = true → l.dirty = true →
      keyOf p l.bank l.row l.col ∉ t.linesOut
    (s.Rings 0x30 true → r.argsBad [0x13F] = false →
      (r.allBad = true → exec .accFlush s = .next { s with mbx := s.answer eBadarg [] }) ∧
      (r.allBad = false → s.noChannels = true → exec .accFlush s = .next { s with mbx := s.answer eState [] }) ∧
      (r.allBad = false → s.noChannels = false → r.namedBad isAccum = true →
        exec .accFlush s = .next { s with mbx := s.answer eBadarg [] }) ∧
      (r.allBad = false → s.noChannels = false → r.namedBad isAccum = false → ∃ t, exec .accFlush s = .next t ∧
        clean t pick ∧
        (settled t → t.mbx.st = .done ∧ t.mbx.err = eOk ∧ t.mbx.resp = tabOf [BitVec.ofNat 32
          ((List.range 144).map fun p => ((s.slice p).dat.lines.filter fun l => pick p l && l.dirty).length).sum]) ∧
        (¬ settled t → t.mbx.st = .busy) ∧ Frame [.slices, .ctl, .evt, .mbx] s t)) ∧
    (s.Rings 0x32 true → r.argsBad [0x13F] = false → r.allBad = true →
      exec .reseal s = .next { s with mbx := s.answer eBadarg [] }) ∧
    (s.Rings 0x32 true → r.argsBad [0x13F] = false → r.allBad = false →
      (s.noChannels = true → exec .reseal s = .next { s with mbx := s.answer eState [] }) ∧
      (s.noChannels = false → r.namedBad isPinned = true → exec .reseal s = .next { s with mbx := s.answer eBadarg [] }) ∧
      (s.noChannels = false → r.namedBad isPinned = false →
        let stale := (∃ k ∈ s.fab.stale, (s.stk.sliceOf (k / (32 * 16384)) (k % 16384)).isSome = true ∧
            ∃ j ∈ r.namedRegions isPinned, pinnedHolds (regionAt s.cfg.regions j) (k / (32 * 16384)) (k % 16384) = true) ∨
          ∃ p w, p < 144 ∧ w ∈ (s.slice p).dat.fow ∧ w.sub = 43 ∧ w.raw = false
        (¬ stale → exec .reseal s = .next { s with mbx := s.answer eOk [0, 0] }) ∧
        (stale → exec .reseal s = .next { s with mbx := s.busyWith (some ⟨0x32, 0, 0, r.namedRegions isPinned, [0]⟩) }))) ∧
    (s.Rings 0x31 true → r.argsBad [0x1FF003F, 0xFFFFFFFF, 0x1F, 0xFFFFFFFF] = false →
      (n = 0 → r.arg 1 ≠ 0 ∨ r.arg 2 ≠ 0 ∨ r.arg 3 ≠ 0 → exec .brewLoad s = .next { s with mbx := s.answer eBadarg [] }) ∧
      (n = 0 → r.arg 1 = 0 → r.arg 2 = 0 → r.arg 3 = 0 →
        (s.noChannels = true → exec .brewLoad s = .next { s with mbx := s.answer eState [] }) ∧
        (s.noChannels = false → s.fab.slotInUse i = true → exec .brewLoad s = .next { s with mbx := s.answer eBusy [] }) ∧
        (s.noChannels = false → s.fab.slotInUse i = false → ∃ t, exec .brewLoad s = .next t ∧
          t.fab = { s.fab with progs := Tab.set [] s.fab.progs i [] } ∧ t.det = { s.det with pd := t.programDigest } ∧
          t.mbx = s.answer eOk [] ∧ Frame [.fab, .det, .mbx] s t)) ∧
      (n ≠ 0 →
        (256 < n ∨ r.loadAddr % 8 ≠ 0 → exec .brewLoad s = .next { s with mbx := s.answer eRange [] }) ∧
        (n ≤ 256 → r.loadAddr % 8 = 0 → s.noChannels = true → exec .brewLoad s = .next { s with mbx := s.answer eState [] }) ∧
        (n ≤ 256 → r.loadAddr % 8 = 0 → s.noChannels = false →
          (findRegion s.cfg.regions r.loadAddr = none → exec .brewLoad s = .next { s with mbx := s.answer eBadarg [] }) ∧
          (∀ x, findRegion s.cfg.regions r.loadAddr = some x →
            let g := regionAt s.cfg.regions x
            (rType g ≠ 0 ∨ rLo g + rS g < r.loadAddr + 8 * n → exec .brewLoad s = .next { s with mbx := s.answer eBadarg [] }) ∧
            (rType g = 0 → r.loadAddr + 8 * n ≤ rLo g + rS g → s.fab.slotInUse i = true →
              exec .brewLoad s = .next { s with mbx := s.answer eBusy [] }) ∧
            (rType g = 0 → r.loadAddr + 8 * n ≤ rLo g + rS g → s.fab.slotInUse i = false →
              exec .brewLoad s = .next { s with mbx := s.busyWith (some ⟨0x31, i, n, [], []⟩) }))))) ∧
    (s.Rings 0x61 true → r.argsBad [0x3F] = false →
      (s.noChannels = true → exec .restoreContext s = .next { s with mbx := s.answer eState [] }) ∧
      (s.noChannels = false → exec .restoreContext s = .next { s with mbx := s.busyWith (some ⟨0x61, i, 0, [], []⟩) })) ∧
    (s.Rings 0x51 true → r.argsBad [0xF3F] = false →
      (s.noChannels = true → exec .digestRegion s = .next { s with mbx := s.answer eState [] }) ∧
      (s.noChannels = false → rEn reg = false → exec .digestRegion s = .next { s with mbx := s.answer eBadarg [] }) ∧
      (s.noChannels = false → rEn reg = true → rRounded reg = true →
        exec .digestRegion s = .next { s with mbx := s.answer eNotsup [] }) ∧
      (s.noChannels = false → rEn reg = true → rRounded reg = false →
        exec .digestRegion s = .next { s with mbx := s.busyWith (some ⟨0x51, r.argf 0 8 4, 0, [], []⟩) })) ∧
    (s.Rings 0x60 true → r.argsBad [0x3F] = false →
      let fits := rEn reg = true ∧ rType reg = 0 ∧ rWp reg = false ∧ 141124 ≤ rS reg
      (s.noChannels = true ∨ s.anyStale = true → exec .saveContext s = .next { s with mbx := s.answer eState [] }) ∧
      (s.noChannels = false → s.anyStale = false → ¬ fits → exec .saveContext s = .next { s with mbx := s.answer eBadarg [] }) ∧
      (s.noChannels = false → s.anyStale = false → fits → ∃ t, exec .saveContext s = .next t ∧
        s.Tells t 7 0 (.admHold 1) (t.fab = { s.fab with hold := insertNat 1 s.fab.hold }) (t.fab = s.fab) ∧
        t.ctl = { (s.icqPass 7 0).ctl with words := t.ctl.words } ∧
        t.mbx = s.busyWith (some ⟨0x60, 0, 0, [s.sys.ltc], []⟩) ∧ Frame [.fab, .ctl, .mbx] s t)) ∧
    (∀ x : RunCmd, s.mbx.run = some x → x.op = 0x60 →
      (x.a ≠ 0 ∨ s.portsEmpty = false ∨ s.fab.hold.contains 1 = false → exec .saveContextDrained s = .next s) ∧
      (x.a = 0 → s.portsEmpty = true → s.fab.hold.contains 1 = true → ∃ t, exec .saveContextDrained s = .next t ∧ clean t (fun _ _ => true) ∧
        t.mbx.run = some { x with a := 1, vals := s.ctxImage } ∧ t.mbx.st = s.mbx.st ∧
        Counted s { t with mbx := { t.mbx with run := s.mbx.run } } ∧ Frame [.slices, .ctl, .evt, .mbx] s t) ∧
      (x.a ≠ 0 ∨ s.portsEmpty = true ∨ s.sys.ltc < x.todo.headD 0 + 4000000 → exec .saveContextTimeout s = .next s) ∧
      (x.a = 0 → s.portsEmpty = false → x.todo.headD 0 + 4000000 ≤ s.sys.ltc → ∃ t, exec .saveContextTimeout s = .next t ∧
        s.Tells t 7 0 (.admFree 1) (t.fab = { s.fab with hold := s.fab.hold.filter fun c => c != 1 }) (t.fab = s.fab) ∧
        t.ctl = { (s.icqPass 7 0).ctl with words := t.ctl.words } ∧ t.mbx = s.ended eTimeout [] ∧ Frame [.fab, .ctl, .mbx] s t))

/-- RETRAIN: a working bundle begins a full retrain with cause 0, holding its channel once the word has crossed, and the
command is BUSY; one that retrains already is waited for (R632, R829). CAL_RUN: every named bundle in service is to run a
pass; accepted with PENDING (R830). MIGRATE: a candidate with cause 4, accepted with PENDING (R833, R834). REBIND: the new
slice leaves self-refresh and retrains with cause 5, or goes on with a retrain that runs already; accepted with PENDING (R632,
R835). Each ends with the code of its first failing check (R800). -/
def Obligations.SpareCommands : Prop :=
  ∀ s : State, s.Canon →
    let r := s.takeDoorbell
    let p := r.argf 0 0 8
    let c := r.argf 0 0 7
    let l := (s.slice p).link
    let waiting (op : BitVec 8) (todo : List Nat) : Mbx := { s.answer eOk [] with
      pend := true
      pending := s.mbx.pending ++ [⟨op, (List.range 16).map r.arg, todo⟩] }
    (s.Rings 0x40 true → r.argsBad [0xFF] = false →
      (144 ≤ p → exec .retrain s = .next { s with mbx := s.answer eRange [] }) ∧
      (p < 144 → s.noChannels = true ∨ (l.up = false ∧ l.state ≠ .retrain) →
        exec .retrain s = .next { s with mbx := s.answer eState [] }) ∧
      (p < 144 → s.noChannels = false → l.state = .retrain →
        exec .retrain s = .next { s with mbx := s.busyWith (some ⟨0x40, p, 0, [], []⟩) }) ∧
      (p < 144 → s.noChannels = false → l.up = true → ∃ t, exec .retrain s = .next t ∧ (t.slice p).link.state = .retrain ∧
        (t.slice p).link.cause = 0 ∧ (t.slice p).link.calAct = false ∧
        s.Tells t 3 p (.hold p) ((t.slice p).sch.held = (s.slice p).sch.held + 1) ((t.slice p).sch.held = (s.slice p).sch.held) ∧
        (∀ j, j ≠ p → t.slice j = s.slice j) ∧
        t.mbx = { s.busyWith (some ⟨0x40, p, 0, [], []⟩) with irq := t.mbx.irq } ∧ Frame [.slices, .det, .ctl, .evt, .mbx] s t)) ∧
    (s.Rings 0x41 true → r.argsBad [0xFF] = false →
      let named := (List.range 144).filter fun q => (s.slice q).rep.inServ && (p == 0xFF || p == q)
      (144 ≤ p → p ≠ 0xFF → exec .calRun s = .next { s with mbx := s.answer eRange [] }) ∧
      (p < 144 ∨ p = 0xFF →
        (s.noChannels = true ∨ (p ≠ 0xFF ∧ (s.slice p).rep.inServ = false) →
          exec .calRun s = .next { s with mbx := s.answer eState [] }) ∧
        (s.noChannels = false → p = 0xFF ∨ (s.slice p).rep.inServ = true → s.isPending 0x41 = true →
          exec .calRun s = .next { s with mbx := s.answer eBusy [] }) ∧
        (s.noChannels = false → p = 0xFF ∨ (s.slice p).rep.inServ = true → s.isPending 0x41 = false →
          (named ≠ [] → ∃ t, exec .calRun s = .next t ∧ t.mbx = waiting 0x41 named ∧
            (∀ q, t.slice q = if q ∈ named then { s.slice q with link := { (s.slice q).link with calCmd := true } } else s.slice q) ∧
            Crossed s t ∧ Frame [.slices, .ctl, .mbx] s t) ∧
          (named = [] → ∃ t, exec .calRun s = .next t ∧ t.mbx = { waiting 0x41 [] with
            pending := s.mbx.pending
            irq := t.mbx.irq } ∧ Frame [.evt, .mbx] s t)))) ∧
    (s.Rings 0x43 true → r.argsBad [0xFFFF7F] = false →
      let tgt := r.argf 0 16 8
      let spare := if tgt = 0xFF then (s.pickSpare (s.stk.remapAt c).ps).isSome = true else s.freeSpare tgt = true
      (144 ≤ tgt → tgt ≠ 0xFF → exec .migrate s = .next { s with mbx := s.answer eRange [] }) ∧
      (tgt < 144 ∨ tgt = 0xFF →
        (s.noChannels = true ∨ (s.stk.remapAt c).st ≠ .bound → exec .migrate s = .next { s with mbx := s.answer eState [] }) ∧
        (s.noChannels = false → (s.stk.remapAt c).st = .bound →
          (s.isPending 0x43 = true ∨ s.migKnown c = true → exec .migrate s = .next { s with mbx := s.answer eBusy [] }) ∧
          (s.isPending 0x43 = false → s.migKnown c = false →
            (¬ spare → exec .migrate s = .next { s with mbx := s.answer (if tgt = 0xFF then eNospare else eBadarg) [] }) ∧
            (spare → exec .migrate s = .next { s with
              stk := { s.stk with cands := s.stk.cands ++ [⟨c, 4, r.argf 0 8 8, tgt⟩] }
              mbx := waiting 0x43 [] }))))) ∧
    (s.Rings 0x44 true → r.argsBad [0xFF7F] = false →
      let tgt := r.argf 0 8 8
      let old := (s.stk.remapAt c).ps
      let spare := if tgt = 0xFF then (s.pickSpare old).isSome = true else s.freeSpare tgt = true
      let new := if tgt = 0xFF then (s.pickSpare old).getD 0 else tgt
      (144 ≤ tgt → tgt ≠ 0xFF → exec .rebind s = .next { s with mbx := s.answer eRange [] }) ∧
      (tgt < 144 ∨ tgt = 0xFF →
        (s.noChannels = true ∨ (s.stk.remapAt c).st ≠ .fenced → exec .rebind s = .next { s with mbx := s.answer eState [] }) ∧
        (s.noChannels = false → (s.stk.remapAt c).st = .fenced →
          (s.isPending 0x44 = true → exec .rebind s = .next { s with mbx := s.answer eBusy [] }) ∧
          (s.isPending 0x44 = false → ¬ spare →
            exec .rebind s = .next { s with mbx := s.answer (if tgt = 0xFF then eNospare else eBadarg) [] }) ∧
          (s.isPending 0x44 = false → spare → ∃ t, exec .rebind s = .next t ∧
            t.stk = { s.stk with migs := s.stk.migs ++ [{ Mig.reset with chan := c, old := old, new := new, rebind := true }] } ∧
            (t.slice new).link.state = .retrain ∧
            (t.slice new).link.cause = (if (s.slice new).link.state = .retrain then (s.slice new).link.cause else 5) ∧ (t.slice new).rf.selfRef = false ∧
            (t.slice new).rf.refOn = true ∧ (∀ j, j ≠ new → t.slice j = s.slice j) ∧
            t.mbx = { waiting 0x44 [] with irq := t.mbx.irq } ∧ Frame [.stk, .slices, .det, .ctl, .evt, .mbx] s t))))

/-! ### Alignment, Frost, resets and requester-down lines (R32, R35, R160 to R165, R713 to R716, R881 to R907) -/

/-- Alignment. ALIGN_ARMED once admission is held, the tracker is empty and no channel is held (R244): the islands are reset
with caches and buffers empty and every bound slice in self-refresh, and ARMED is set (R713). ALIGN_A0: ARMED falls at the
next edge of REFCLK after two edges at which KX_ALIGN was sampled 0 (R714). ALIGN_AR: ALIGN_DLY later every view lags by 3,
ALIGN_LTC is captured, DET_TIMING is in force, ALIGNED is 1 and BROKEN 0, and the hold ends (R715, R718). ALIGN_TIMEOUT: 1 s
after ARMED the islands run unaligned, start-up in DET_BITS (R716). DET_SET_DRAIN_TIMEOUT: 10 ms after the hold, E_TIMEOUT
(R823). Frost. FROST_ENTER: KX_FROST rises, subscribers 0 to 36 are held once the word has crossed, calibration yields (R899).
FROST_DRAINED: caches clean, buffers empty, bound slices in self-refresh with SB_CKE low, PHASE 5, once admission is held, no
channel is held and no row repair runs; a wake edge seen meanwhile starts Thaw (R844). FROST_ENTER_TIMEOUT after 10 ms (R843).
KX_WAKE: a rising edge in PHASE 5 starts Thaw (R903). THAW_RELEASE: KX_FROST falls, slices work again, PHASE 4, and a waiting
command starts (R904). Requester-down lines driven while FCLK was gated take effect at AR and when Thaw restarts FCLK, and not
before: afterwards each is found as driven (R159, R901). -/
def Obligations.AlignmentAndFrost : Prop :=
  ∀ s : State, s.Canon →
    let bound (t : State) (b : Bool) : Prop := ∀ p ∈ s.boundSlices, (t.slice p).rf.selfRef = b ∧ (t.slice p).link.cke = !b
    let empty (t : State) : Prop :=
      ∀ p, p < 144 → (t.slice p).dat.wb = [] ∧ (t.slice p).dat.fow = [] ∧ (t.slice p).dat.corr = []
    let answered (t : State) (err : BitVec 8) : Prop := t.mbx.st = .done ∧ t.mbx.err = err ∧ t.mbx.run = none
    let sampled (t : State) : Prop := ∀ k, k < 37 → t.fab.lines.contains k = t.fab.down.contains k
    let thawing (t : State) : State := State.takeLines { t with sys := { t.sys with phase := .thaw, wakeLtc := s.sys.ltc } }
    (∀ t : State, sampled (thawing t) ∧ (thawing t).fab.lines = t.fab.lines ∧ (sampled t → (thawing t).fab = t.fab)) ∧
    (s.det.align ≠ 1 ∨ s.fab.hold.contains 3 = false ∨ s.trackerEmpty = false ∨ s.repairRuns = true ∨ s.anyHeld = true →
      exec .alignArmed s = .next s) ∧
    (s.det.align = 1 → s.fab.hold.contains 3 = true → s.trackerEmpty = true → s.repairRuns = false → s.anyHeld = false → ∃ t, exec .alignArmed s = .next t ∧
      t.det = { s.det with align := 2, armed := true, alignAt := s.sys.ltc, lows := 0 } ∧ bound t true ∧ empty t ∧
      (∀ p, p < 144 → (t.slice p).dat.lines = []) ∧ t.fab.hold = s.fab.hold ∧ t.fab.masked = s.fab.masked ∧
      t.fab.down = s.fab.down ∧ t.fab.lines = s.fab.lines ∧ t.fab.ghost = s.fab.ghost ∧ Frame [.det, .slices, .fab, .ports, .mem, .ctl, .evt, .mbx] s t) ∧
    (s.det.align ≠ 1 ∨ s.det.alignBoot = true ∨ (s.trackerEmpty = true ∧ s.fab.hold.contains 3 = true) ∨
      s.sys.ltc < s.det.alignAt + 4000000 → exec .detSetDrainTimeout s = .next s) ∧
    (s.det.align = 1 → s.det.alignBoot = false → s.trackerEmpty = false ∨ s.fab.hold.contains 3 = false →
      s.det.alignAt + 4000000 ≤ s.sys.ltc → exec .detSetDrainTimeout s = .next { s with
        fab := { s.fab with hold := s.fab.hold.filter fun c => c != 3 }
        det := { s.det with align := 0, armed := false, lows := 0 }
        mbx := s.ended eTimeout [] }) ∧
    (s.det.align ≠ 2 ∨ s.det.lows < 2 → exec .alignA0 s = .next s) ∧
    (s.det.align = 2 → 2 ≤ s.det.lows →
      exec .alignA0 s = .next { s with det := { s.det with align := 3, armed := false, alignAt := (s.sys.ltc + 3) / 4 * 4 } }) ∧
    (s.det.align ≠ 3 ∨ s.sys.ltc < s.det.alignAt + 4 * fld s.cfg.det 2 16 → exec .alignAr s = .next s) ∧
    (s.det.align = 3 → s.det.alignAt + 4 * fld s.cfg.det 2 16 ≤ s.sys.ltc → ∃ t, exec .alignAr s = .next t ∧ sampled t ∧
      t.fab.lines = s.fab.lines ∧ t.det.mode = .timing ∧ t.det.aligned = true ∧
      (sampled s → t.det = { s.det with
        mode := .timing, align := 0, armed := false, lows := 0, alignLtc := s.sys.ltc, aligned := true, broken := 0 }) ∧
      (∀ p, p < 144 → (t.slice p).lag = 3) ∧ t.sys.fabLag = 3 ∧ fld t.cfg.det 0 2 = 2 ∧ 3 ∉ t.fab.hold ∧ t.mem = s.mem ∧
      (s.det.alignBoot = false → answered t eOk ∧ t.mbx.resp = tabOf [2] ∧ t.sys = { s.sys with fabLag := 3 }) ∧
      (s.det.alignBoot = true → t.sys.phase = .running ∧ t.sys.ready = true)) ∧
    (s.det.align ≠ 2 ∨ s.sys.ltc < s.det.alignAt + 400000000 → exec .alignTimeout s = .next s) ∧
    (s.det.align = 2 → s.det.alignAt + 400000000 ≤ s.sys.ltc → ∃ t, exec .alignTimeout s = .next t ∧ 3 ∉ t.fab.hold ∧
      (sampled s → t.det = { s.det with
        align := 0, armed := false, lows := 0, mode := if s.det.alignBoot = true then .bits else s.det.mode }) ∧
      (s.det.alignBoot = false → answered t eTimeout ∧ t.sys = s.sys) ∧
      (s.det.alignBoot = true → t.sys.phase = .running ∧ t.sys.ready = true ∧ fld t.cfg.det 0 2 = 1)) ∧
    (s.Rings 0x70 false → s.takeDoorbell.argsBad [] = false →
      (s.frostBad = true → exec .frostEnter s = .next { s with mbx := s.answer eState [] }) ∧
      (s.frostBad = false → s.modechg = true → exec .frostEnter s = .next { s with mbx := s.answer eBusy [] }) ∧
      (s.frostBad = false → s.modechg = false → ∃ t, exec .frostEnter s = .next t ∧
        t.sys = { s.sys with frost := true, entering := true, frostAt := s.sys.ltc, wakeSeen := false } ∧
        s.Tells t 7 0 (.admHold 2) (t.fab = { s.fab with hold := insertNat 2 s.fab.hold }) (t.fab = s.fab) ∧
        (∀ p, p < 144 → (t.slice p).link.calAct = false) ∧
        t.mbx = { s.busyWith (some ⟨0x70, 0, 0, [], []⟩) with irq := t.mbx.irq } ∧
        Frame [.sys, .fab, .slices, .ctl, .evt, .mbx] s t)) ∧
    (s.sys.entering = false ∨ s.fab.hold.contains 2 = false ∨ s.trackerEmpty = false ∨ s.repairRuns = true ∨ s.anyHeld = true →
      exec .frostDrained s = .next s) ∧
    (s.sys.entering = true → s.fab.hold.contains 2 = true → s.trackerEmpty = true → s.repairRuns = false → s.anyHeld = false → ∃ t,
      exec .frostDrained s = .next (if s.sys.wakeSeen = true then thawing t else t) ∧
      t.sys = { s.sys with entering := false, wakeSeen := false, phase := .frost } ∧ bound t true ∧ empty t ∧
      (∀ p, p < 144 → (s.slice p).dat.lines.Pairwise (fun x y => (x.bank, x.row, x.col) ≠ (y.bank, y.row, y.col)) →
        (∀ l ∈ (s.slice p).dat.lines, l.out = none ∧ l.stay = false) →
        (t.slice p).dat.lines = (s.slice p).dat.lines.map fun l => { l with base := l.data }) ∧
      answered t eOk ∧ Frame [.sys, .slices, .fab, .mem, .det, .ctl, .evt, .mbx] s t) ∧
    (s.sys.entering = false ∨ (s.trackerEmpty = true ∧ s.fab.hold.contains 2 = true) ∨ s.sys.ltc < s.sys.frostAt + 4000000 →
      exec .frostEnterTimeout s = .next s) ∧
    (s.sys.entering = true → s.trackerEmpty = false ∨ s.fab.hold.contains 2 = false → s.sys.frostAt + 4000000 ≤ s.sys.ltc →
      ∃ t, exec .frostEnterTimeout s = .next t ∧
        s.Tells t 7 0 (.admFree 2) (t.fab = { s.fab with hold := s.fab.hold.filter fun c => c != 2 }) (t.fab = s.fab) ∧
        t.ctl = { (s.icqPass 7 0).ctl with words := t.ctl.words } ∧
        t.sys = { s.sys with entering := false, frost := false, wakeSeen := false } ∧ t.mbx = s.ended eTimeout [] ∧
        Frame [.fab, .ctl, .sys, .mbx] s t) ∧
    (∀ level : Bool,
      (level = false ∨ s.sys.wake = true ∨ s.therm.latch = true ∨ (s.sys.phase ≠ .frost ∧ s.sys.entering = false) →
        exec (.kxWake level) s = .next { s with sys := { s.sys with wake := level } }) ∧
      (level = true → s.sys.wake = false → s.therm.latch = false →
        (s.sys.phase = .frost → exec (.kxWake level) s = .next (thawing { s with sys := { s.sys with wake := true } })) ∧
        (s.sys.phase ≠ .frost → s.sys.entering = true → exec (.kxWake level) s =
          .next { s with sys := { s.sys with wake := true, wakeSeen := true } }))) ∧
    (s.sys.phase ≠ .thaw ∨ s.sys.ltc < s.thawAt → exec .thawRelease s = .next s) ∧
    (s.sys.phase = .thaw → s.thawAt ≤ s.sys.ltc → ∃ t, exec .thawRelease s = .next t ∧
      t.sys = { s.sys with frost := false, phase := .running } ∧ bound t false ∧
      t.fab = { s.fab with hold := s.fab.hold.filter fun c => c != 2 } ∧
      (∀ p, p < 144 → (s.slice p).rep.inServ = true → (t.slice p).link.phy = true ∧
        (t.slice p).link.inuse = (List.range 91).foldl (fun u b =>
          Tab.set 0 u b ((s.slice p).link.interp b s.sys.rate (s.tcOf p).toInt)) (s.slice p).link.inuse) ∧
      t.mbx = (if s.mbx.st = .busy then { s.mbx with starts := some s.heldStart } else s.mbx) ∧
      Frame [.sys, .slices, .fab, .mbx] s t)

/-- KX_POR_N_ASSERT: registers, queues and caches are at their reset values; the memory arrays, the boot store, the wrapper
and the inputs stay (R32, R883). KX_POR_N_RELEASE: the counter runs, and start-up goes to zeroing at the lowest rate point
that the layers have in common, or ends with every channel FENCED where they have none (R891 to R893). ZEROING_DONE: every
bound slice holds zeros and no row is stale; admission opens with credits granted, or the alignment starts, with admission
held once the word has crossed (R81, R468, R896). KX_RST_N_ASSERT: in the commit window of a change it waits for the end
(R811), else everything in flight is gone, streams start anew, and mode and configuration stay (R883, R885). KX_RST_N_RELEASE:
the image in force is written and admission opens, or the alignment starts (R886, R898); before READY has first been 1
start-up runs again with the counter kept (R887). -/
def Obligations.ResetLines : Prop :=
  ∀ s : State, s.Canon →
    let opened (t : State) : Prop := t.sys.phase = .running ∧ t.sys.ready = true ∧ ∀ k, k < 36 → t.isMasked k = false →
      (t.port k).reqCrd = (if k < 32 then 32 else 16) ∧ (t.port k).wdCrd = if k < 32 then 64 else 16
    (∃ t, exec .kxPorNAssert s = .next t ∧ t.sys.porN = false ∧ t.sys.phase = .romBoot ∧ t.sys.ready = false ∧ t.sys.ltc = 0 ∧
      t.sys.rails = 0 ∧ t.sys.rstN = s.sys.rstN ∧ t.sys.wake = s.sys.wake ∧ t.ports = [] ∧ t.slices = [] ∧ t.blp = Blp.reset ∧
      t.mc = none ∧ t.evt = Evt.reset ∧ t.mbx = Mbx.reset ∧ t.therm = Therm.reset ∧ t.det = Det.reset ∧
      t.fab = { Fab.reset with lines := s.fab.lines, down := s.fab.lines, masked := s.fab.lines, drained := s.fab.lines } ∧ t.ctl = { Ctl.reset with
        bootA := s.ctl.bootA
        bootB := s.ctl.bootB
        bootBad := s.ctl.bootBad } ∧ t.mem = s.mem ∧ t.wrap = s.wrap ∧ t.pending = s.pending) ∧
    (∀ e : StartEnv, (s.sys.porN = true → exec (.kxPorNRelease e) s = .next s) ∧
      (s.sys.porN = false → ∃ t, exec (.kxPorNRelease e) s = .next t ∧ t.sys.porN = true ∧ t.sys.rails = 7 ∧
        t.sys.ltc = s.sys.ltc ∧ t.ring.id = e.ringId.toNat ∧ t.ring.en = e.instEn ∧ t.wrap.bistRun = false ∧
        t.wrap.undef = false ∧ t.mem = s.mem ∧ t.sys.ready = s.sys.ready ∧
        (t.stk.rates = 0 → t.sys.phase = .negotiation ∧ ∀ x ∈ t.stk.remap, x.st = .fenced) ∧
        (t.stk.rates ≠ 0 → t.sys.phase = .zeroing ∧ (List.range 4).find? (fun r => t.stk.rates.testBit r) = some t.sys.rate))) ∧
    (s.sys.phase ≠ .zeroing ∨ s.det.align ≠ 0 ∨ s.sys.rstEnd = true → exec .zeroingDone s = .next s) ∧
    (s.sys.phase = .zeroing → s.det.align = 0 → s.sys.rstEnd = false → ∃ t, exec .zeroingDone s = .next t ∧
      (s.therm.latch = false → ∀ k, t.code k = if keyPs k ∈ s.boundSlices then 0 else s.code k) ∧
      (s.therm.latch = true → t.mem = s.mem) ∧ t.fab.stale = [] ∧ t.fab.masked = s.fab.masked ∧
      (s.cfg.detMode = .timing → t.det = { s.det with align := 1, alignAt := s.sys.ltc, alignBoot := true } ∧
        s.Tells t 7 0 (.admHold 3) (3 ∈ t.fab.hold) (t.fab.hold = s.fab.hold) ∧
        t.ctl = { s.ctl with icqs := t.ctl.icqs, words := t.ctl.words } ∧ Frame [.mem, .fab, .det, .ctl] s t) ∧
      (s.cfg.detMode ≠ .timing → opened t ∧ t.sys.everReady = true)) ∧
    (s.sys.porN = false ∨ s.sys.rstN = false → exec .kxRstNAssert s = .next { s with sys := { s.sys with rstN := false } }) ∧
    (∀ m, s.sys.porN = true → s.sys.rstN = true → s.mc = some m → m.committed = true →
      exec .kxRstNAssert s = .next { s with sys := { s.sys with rstN := false, rstDue := true } }) ∧
    (s.sys.porN = true → s.sys.rstN = true → (∀ m, s.mc = some m → m.committed = false) →
      ∃ t, exec .kxRstNAssert s = .next t ∧ t.sys.rstN = false ∧ t.sys.rstEnd = true ∧ t.sys.rstDue = false ∧
        t.sys.phase = .romBoot ∧ t.sys.ready = false ∧ t.sys.ltc = s.sys.ltc ∧ t.ports = [] ∧ t.blp = Blp.reset ∧ t.mc = none ∧
        t.mbx = Mbx.reset ∧ t.fab.trk = [] ∧ t.fab.mq = [] ∧ t.fab.masked = s.fab.lines ∧ t.fab.lines = s.fab.lines ∧ t.cfg = s.cfg ∧
        t.therm.hotSlice = 0 ∧ (∀ i, (Tab.get Sensor.reset t.therm.sens i).value = 0x8000 ∧
          (Tab.get Sensor.reset t.therm.sens i).dev = false) ∧
        t.det.mode = s.det.mode ∧ (∀ i, i < 16 → t.stream i = Stream.restart (s.cfg.digKeyAt i)) ∧
        (∀ p, p < 144 → (t.slice p).dat.wb = [] ∧ (t.slice p).dat.fow = [] ∧ (t.slice p).dat.lines = [] ∧
          (t.slice p).temp = 0x8000 ∧ (t.slice p).rf.band = 0 ∧ (t.slice p).rf.subst = false ∧ (t.slice p).scr = Scrub.reset) ∧
        t.ring.present = false) ∧
    (s.sys.porN = false ∨ s.sys.rstEnd = false → exec .kxRstNRelease s = .next { s with sys := { s.sys with rstN := true } }) ∧
    (s.sys.porN = true → s.sys.rstEnd = true → ∃ t, exec .kxRstNRelease s = .next t ∧ t.sys.rstN = true ∧
      t.sys.rstEnd = false ∧ t.sys.ltc = s.sys.ltc ∧ t.mem = s.mem ∧
      (s.sys.everReady = true → t.cfg = (s.stk.clampCfg (cfgOfImage s.cfg.image)).1 ∧
        (t.cfg.detMode = .timing → t.det.align = 1 ∧ t.det.alignBoot = true ∧
          (3 ∈ t.fab.hold ∨ ∃ x ∈ t.ctl.words, x.q = 7 ∧ x.i = 0 ∧ x.what = .admHold 3)) ∧
        (t.cfg.detMode ≠ .timing → opened t)))

/-- KX_SUB_DOWN_SET: while the instance is in reset the line alone is noted; while the fabric island stands, in Frost or an
alignment, the line is driven and waits for FCLK (R901); else the subscriber is masked, its meters and bucket freeze, what its
inputs hold is discarded, and it is drained where none of its entries is in the tracker (R159 to R162, R282).
KX_SUB_DOWN_CLEAR: a drained subscriber resumes with new credits, another stays masked (R163, R164). A line driven to the
level that the fabric has found changes nothing else. SUB_DRAINED: with its last entry freed it is drained while its line is
set, and resumes where the line has cleared (R162, R164). -/
def Obligations.RequesterDown : Prop :=
  ∀ (k : Fin 37) (s : State), s.Canon →
    let out (l : List Nat) : List Nat := l.filter fun x => x != k.val
    let set : State := { s with fab := { s.fab with lines := insertNat k.val s.fab.lines } }
    let clear : State := { s with fab := { s.fab with lines := out s.fab.lines } }
    let resumed (t : State) : Prop := t.isMasked k.val = false ∧ k.val ∉ t.fab.drained ∧
      (s.sys.ready = true → k.val < 36 → (t.port k.val).reqCrd = (if k.val < 32 then 32 else 16) ∧
        (t.port k.val).wdCrd = (if k.val < 32 then 64 else 16) ∧ (t.port k.val).rspCrd = 0) ∧
      (s.sys.ready = true → k.val = 36 → t.blp.descCrd = 8 ∧ t.blp.idataCrd = 256 ∧ t.blp.odataCrd = 0 ∧ t.blp.cplCrd = 0) ∧
      (∀ j, j ≠ k.val → t.port j = s.port j) ∧ t.fab.trk = s.fab.trk ∧ Frame [.fab, .ports, .blp] s t
    (s.linesHeld = true →
      exec (.kxSubDownSet k) s = .next { s with fab := { s.fab with
        lines := insertNat k.val s.fab.lines
        down := insertNat k.val s.fab.down
        masked := insertNat k.val s.fab.masked
        drained := insertNat k.val s.fab.drained } } ∧
      exec (.kxSubDownClear k) s = .next { s with fab := { s.fab with
        lines := out s.fab.lines
        down := out s.fab.down
        masked := out s.fab.masked
        drained := out s.fab.drained } }) ∧
    (s.linesHeld = false →
      (s.portsLive = false ∨ k.val ∈ s.fab.down → exec (.kxSubDownSet k) s = .next set) ∧
      (s.portsLive = true → k.val ∉ s.fab.down → ∃ t, exec (.kxSubDownSet k) s = .next t ∧
        t.fab.lines = insertNat k.val s.fab.lines ∧
        k.val ∈ t.fab.down ∧ t.isMasked k.val = true ∧ (t.fab.bucket k.val).frozen = true ∧ (t.fab.bucket k.val).slot = none ∧
        (∀ i, i < 6 → (t.fab.meter (6 * k.val + i)).frozen = true ∧ (t.fab.meter (6 * k.val + i)).slot = none) ∧
        (k.val < 36 → (t.port k.val).inq = [] ∧ (t.port k.val).owed = [] ∧ (t.port k.val).early = [] ∧ (t.port k.val).wdat = []) ∧
        (k.val = 36 → t.blp.dq = [] ∧ t.blp.owed = [] ∧ t.blp.idat = [] ∧ t.blp.late = []) ∧ (∀ j, j ≠ k.val → t.port j = s.port j) ∧
        (s.subEmpty k.val = true → k.val ∈ t.fab.drained ∧ t.fab.trk = s.fab.trk) ∧
        (s.subEmpty k.val = true → (∀ e ∈ s.fab.ghost, e.sub ≠ k.val) → Frame [.fab, .ports, .blp] s t) ∧
        Frame [.fab, .ports, .blp, .slices, .det, .ctl, .evt, .mbx] s t) ∧
      (s.portsLive = false ∨ k.val ∉ s.fab.down → exec (.kxSubDownClear k) s = .next clear) ∧
      (s.portsLive = true → k.val ∈ s.fab.down →
        (s.subEmpty k.val = true → ∃ t, exec (.kxSubDownClear k) s = .next t ∧ resumed t ∧ k.val ∉ t.fab.down ∧
          t.fab.lines = out s.fab.lines) ∧
        (s.subEmpty k.val = false → exec (.kxSubDownClear k) s = .next { s with fab := { s.fab with
          lines := out s.fab.lines
          down := out s.fab.down
          drained := out s.fab.drained } }))) ∧
    (s.portsLive = false ∨ s.isMasked k.val = false ∨ s.subEmpty k.val = false → exec (.subDrained k) s = .next s) ∧
    (s.portsLive = true → s.isMasked k.val = true → s.subEmpty k.val = true →
      (k.val ∈ s.fab.down → exec (.subDrained k) s = .next { s with fab := { s.fab with
        drained := insertNat k.val s.fab.drained } }) ∧
      (k.val ∉ s.fab.down → ∃ t, exec (.subDrained k) s = .next t ∧ resumed t))

/-! ### The control port (R10 to R13, R36, R64, R751 to R769, R776, R777, R791) -/

/-- REG_WRITE of an aligned word: the register at the offset takes it, and nothing else changes; a write to any other offset,
or to one that is not aligned, is ignored (R10, R13, R751; that MBX_CMD keeps its reserved bits is the model's reading,
DEDUCED, log 27). LTC_LO_READ returns the low word and captures the high one, which a later read of the high word returns
whatever the LTC then is (R36); TLM_WORD0_READ returns word 0 of a slot and captures word 1, which a later read of it returns
whatever the counter then is (R777); on a page of sensors it returns the sensor's word (R547). EVT_LOG_NEXT moves the read
pointer past a record that can be read; with none it stays, the underrun bit of the queue sets and the log is reset, with
ICQ_RESET as its last record (R59, R79). EVT_LOG_REWIND returns the pointer to the mark, EVT_LOG_ACK frees the records before
it and reports dropped ones by one LOG_DROP record once there is room (R64, R768, R769). EVT_IRQ_CLEAR clears the causes named
(R766). While KX_POR_n is low the port does nothing. -/
def Obligations.ControlPort : Prop :=
  ∀ s : State,
    let acked : State := { s with evt := { s.evt with
      recs := s.evt.recs.drop s.evt.rd
      rd := 0
      mark := 0
      freed := s.logStamps s.evt.freed s.evt.rd } }
    (s.sys.porN = false → (∀ off v, exec (.regWrite off v) s = .next s) ∧ exec .ltcLoRead s = .next s ∧
      (∀ k, exec (.tlmWord0Read k) s = .next s) ∧ exec .evtLogNext s = .next s ∧ exec .evtLogRewind s = .next s ∧
      exec .evtLogAck s = .next s ∧ ∀ mask, exec (.evtIrqClear mask) s = .next s) ∧
    (s.sys.porN = true →
      (∀ v : BitVec 32,
        exec (.regWrite 0x0020 v) s = .next { s with ctl := { s.ctl with win := v &&& 0x13F } } ∧
        exec (.regWrite 0x0100 v) s = .next { s with mbx := { s.mbx with cmd := v } } ∧
        (∀ j, j < 16 → exec (.regWrite (BitVec.ofNat 16 (0x0140 + 4 * j)) v) s =
          .next { s with mbx := { s.mbx with args := Tab.set 0 s.mbx.args j v } }) ∧
        exec (.regWrite 0x0404 v) s = .next { s with mbx := { s.mbx with irqEn := v.setWidth 5 } } ∧
        exec (.regWrite 0x0408 v) s = .next { s with evt := { s.evt with level := fld v 0 9 } } ∧
        exec (.regWrite 0x0800 v) s = .next { s with ctl := { s.ctl with tlmSel := fld v 0 12 } } ∧
        (∀ j, j < 1024 → exec (.regWrite (BitVec.ofNat 16 (0x1000 + 4 * j)) v) s = .next (if bit s.ctl.win 8 then s else
          { s with ctl := { s.ctl with staging := Tab.set 0 s.ctl.staging (fld s.ctl.win 0 6 * 1024 + j) v } })) ∧
        (∀ off : BitVec 16, off.toNat % 4 ≠ 0 ∨ (off.toNat ∉ [0x0020, 0x0100, 0x0404, 0x0408, 0x0800] ∧
          ¬ (0x0140 ≤ off.toNat ∧ off.toNat < 0x0180) ∧ ¬ (0x1000 ≤ off.toNat ∧ off.toNat < 0x2000)) →
          exec (.regWrite off v) s = .next s)) ∧
      exec .ltcLoRead s = .next { s with ctl := { s.ctl with
        rdata := BitVec.ofNat 32 s.sys.ltc
        ltcCap := BitVec.ofNat 32 (s.sys.ltc / 2 ^ 32) } } ∧
      (∀ (t : State) (later : Nat), exec .ltcLoRead s = .next t → t.ctl.rdata = BitVec.ofNat 32 s.sys.ltc ∧
        ({ t with sys := { t.sys with ltc := later } } : State).readReg 0x0014 = BitVec.ofNat 32 (s.sys.ltc / 2 ^ 32)) ∧
      (∀ k : Fin 128, s.ctl.tlmSel ≠ 0x400 → s.ctl.tlmSel ≠ 0x401 → exec (.tlmWord0Read k) s = .next { s with ctl := { s.ctl with
        rdata := (s.slotWords s.ctl.tlmSel k.val).1
        tlmCap := (s.slotWords s.ctl.tlmSel k.val).2
        tlmSlot := some (128 * s.ctl.tlmSel + k.val) } }) ∧
      (∀ (t : State) (later : Tab Ctr) (k : Fin 128), s.ctl.tlmSel ≠ 0x400 → s.ctl.tlmSel ≠ 0x401 →
        exec (.tlmWord0Read k) s = .next t → ({ t with ctl := { t.ctl with tlm := later } } : State).readReg (0x0C04 + 8 * k.val) =
          (s.slotWords s.ctl.tlmSel k.val).2) ∧
      (∀ k : Fin 128, s.ctl.tlmSel = 0x400 ∨ s.ctl.tlmSel = 0x401 → exec (.tlmWord0Read k) s = .next { s with ctl := { s.ctl with
        rdata := s.sensWord (256 * (s.ctl.tlmSel - 0x400) + 2 * k.val)
        tlmCap := (s.slotWords s.ctl.tlmSel k.val).2
        tlmSlot := some (128 * s.ctl.tlmSel + k.val) } }) ∧
      (s.evt.rd < s.logSeen → exec .evtLogNext s = .next { s with evt := { s.evt with rd := s.evt.rd + 1 } }) ∧
      (s.logSeen ≤ s.evt.rd → ∃ t, exec .evtLogNext s = .next t ∧ (t.icq 9 0).und = true ∧ t.evt.rd = 0 ∧ t.evt.mark = 0 ∧
        t.evt.recs.getLast?.map (fun r => fld r.w0 16 12) = some 0x001 ∧ t.evt.recs.length ≤ 3 ∧ Frame [.det, .ctl, .evt, .mbx] s t) ∧
      exec .evtLogRewind s = .next { s with evt := { s.evt with rd := s.evt.mark } } ∧
      (s.evt.drop = 0 ∨ acked.logFull = true → exec .evtLogAck s = .next acked) ∧
      (s.evt.drop ≠ 0 → acked.logFull = false → ∃ t, exec .evtLogAck s = .next t ∧
        t.evt.recs = s.evt.recs.drop s.evt.rd ++ [mkRec s.evt.seq .logDrop 0 s.evt.drop s.sys.ltc] ∧ t.evt.drop = 0 ∧
        t.evt.rd = 0 ∧ t.evt.mark = 0 ∧ t.evt.seq = s.evt.seq + 1 ∧ t.mbx = { s.mbx with irq := t.mbx.irq } ∧ Frame [.evt, .mbx] s t) ∧
      (∀ mask : BitVec 32, exec (.evtIrqClear mask) s = .next { s with mbx := { s.mbx with irq := s.mbx.irq &&& ~~~(mask.setWidth 5) } }))

/-! ### The ring (R845 to R880) -/

/-- The ring stop. A cause of the bypass closes it, and a stop in its own reset drives nothing (R846, R847); with every cause
gone it is present and, once READY, announces itself (R849), again every 40,000 ticks (R855). A bypassed stop copies every
frame, and one that closes its bypass loses what it was driving (R848); a present one passes frames for others, removes bad ones
and its own (R852 to R854). ANNOUNCE writes the
sender's entry (R856); an entry not renewed for 140,000 ticks goes. BUDGET sets the share (R875); the master renews the
budgets every 100 ms (R873). -/
def Obligations.RingStop : Prop :=
  ∀ s : State,
    let closed (ok aon : Bool) : Bool := !s.ring.en || !ok || !s.sys.porN || s.sys.rstEnd || aon
    let announced (t : State) : Prop := t.ring.lastAnn = s.sys.ltc ∧ t.ring.out.head? = some s.announceFrame ∧
      t.ring.present = true ∧ Tab.get none t.ring.members s.ring.id = some s.ownMember ∧ Frame [.ring, .stk, .sys] s t
    let driven (f : List (BitVec 16)) : State := { s with ring := { s.ring with out := [f] } }
    (∀ ok : Bool, exec (.kxInstPwrokChange ok) s = .next { s with ring := { s.ring with
      pwrok := ok
      present := s.ring.present && !closed ok s.ring.aonRst
      out := if s.ring.present && closed ok s.ring.aonRst then [] else s.ring.out } }) ∧
    exec (.kxAonRstN false) s = .next { s with ring := { s.ring with aonRst := true, present := false, out := [] } } ∧
    exec (.kxAonRstN true) s = .next { s with ring := { s.ring with
      aonRst := false
      present := s.ring.present && !closed s.ring.pwrok false
      out := if s.ring.present && closed s.ring.pwrok false then [] else s.ring.out } } ∧
    (s.bypassed = true ∨ s.ring.present = true → exec .ringBypassOpen s = .next s) ∧
    (s.bypassed = false → s.ring.present = false →
      (s.sys.ready = false → exec .ringBypassOpen s = .next { s with ring := { s.ring with present := true } }) ∧
      (s.sys.ready = true → ∃ t, exec .ringBypassOpen s = .next t ∧ announced t)) ∧
    (s.ringLive = false ∨ s.sys.ltc < s.ring.lastAnn + 40000 ∨ s.sys.ready = false → exec .announceTimer s = .next s) ∧
    (s.ringLive = true → s.ring.lastAnn + 40000 ≤ s.sys.ltc → s.sys.ready = true →
      ∃ t, exec .announceTimer s = .next t ∧ announced t) ∧
    (∀ (src : Fin 8) (cfg agg psum : BitVec 16),
      let f := ringFrame 1 src.val src.val [cfg, agg, psum, 0]
      (s.ring.aonRst = true → exec (.announce src cfg agg psum) s = .next s) ∧
      (s.ring.aonRst = false → s.ringLive = false → exec (.announce src cfg agg psum) s = .next (driven f)) ∧
      (s.ringLive = true → src.val = s.ring.id → exec (.announce src cfg agg psum) s = .next s) ∧
      (s.ringLive = true → src.val ≠ s.ring.id → ∃ t, exec (.announce src cfg agg psum) s = .next t ∧
        t.ring.out.head? = some f ∧
        Tab.get none t.ring.members src.val = some ⟨fld cfg 0 6, agg.toNat, psum.toNat, s.sys.ltc⟩ ∧
        (∀ j, j ≠ src.val → Tab.get none t.ring.members j = Tab.get none s.ring.members j) ∧ Frame [.ring, .stk, .sys] s t)) ∧
    (∀ (m : Fin 8), (Tab.get none s.ring.members m.val = none → exec (.memberExpiry m) s = .next s) ∧
      (∀ x, Tab.get none s.ring.members m.val = some x →
        (s.sys.porN = false ∨ s.sys.rstEnd = true ∨ s.sys.ltc < x.seen + 140000 → exec (.memberExpiry m) s = .next s) ∧
        (s.sys.porN = true → s.sys.rstEnd = false → x.seen + 140000 ≤ s.sys.ltc → ∃ t, exec (.memberExpiry m) s = .next t ∧
          t.ring.members = Tab.set none s.ring.members m.val none ∧ Frame [.ring, .stk, .sys] s t))) ∧
    (∀ (src : Fin 8) (w : BitVec 16),
      (s.ring.aonRst = true → exec (.budget src w) s = .next s) ∧
      (s.ring.aonRst = false → s.ringLive = false →
        exec (.budget src w) s = .next (driven (ringFrame 7 src.val s.ring.id [w, 0]))) ∧
      (s.ringLive = true →
        (s.federated = false ∨ s.powerOn = false ∨ s.therm.latch = true → exec (.budget src w) s =
          .next { s with stk := { s.stk with share := if w = 0xFFFF then none else some w.toNat } }) ∧
        (∃ t, exec (.budget src w) s = .next t ∧ t.stk.share = (if w = 0xFFFF then none else some w.toNat) ∧
          Frame [.stk, .sys] s t))) ∧
    (s.sys.ready = false ∨ s.isMaster = false ∨ s.sys.ltc < s.ring.lastBud + 40000000 ∨ fld s.ring.pwr2 0 16 = 0 →
      exec .budgetTimer s = .next s) ∧
    (s.sys.ready = true → s.isMaster = true → s.ring.lastBud + 40000000 ≤ s.sys.ltc → fld s.ring.pwr2 0 16 ≠ 0 →
      ∃ t, exec .budgetTimer s = .next t ∧ t.ring.lastBud = s.sys.ltc ∧ t.ring.members = s.ring.members ∧
        Frame [.ring, .stk, .sys] s t) ∧
    (∀ f : List (BitVec 16),
      let h := f.headD 0
      let single := fld h 12 4 ∈ [4, 7, 8]
      let other := fld h 12 4 = 0 ∨ 8 < fld h 12 4 ∨ (fld h 6 3 ≠ s.ring.id ∧ fld h 6 3 ≠ fld h 9 3) ∨
        (fld h 6 3 = fld h 9 3 ∧ single)
      (s.ring.aonRst = true → exec (.ringFramePass f) s = .next s) ∧
      (s.ring.aonRst = false → s.ringLive = false → exec (.ringFramePass f) s = .next (driven f)) ∧
      (s.ringLive = true →
        (frameGood f = false ∨ fld h 9 3 = s.ring.id →
          exec (.ringFramePass f) s = .next { s with ring := { s.ring with out := [] } }) ∧
        (frameGood f = true → fld h 9 3 ≠ s.ring.id → other → exec (.ringFramePass f) s = .next (driven f)) ∧
        (frameGood f = true → fld h 9 3 ≠ s.ring.id → ¬ other → fld h 6 3 = s.ring.id → ¬ single →
          exec (.ringFramePass f) s = .next { s with ring := { s.ring with out := [] } }) ∧
        (frameGood f = true → fld h 9 3 ≠ s.ring.id → ¬ other → fld h 6 3 ≠ s.ring.id ∨ single →
          exec (.ringFramePass f) s = .next s)))

/-- Gang changes, at a stop that is present. IMAGE of the master: its chunk is kept. PREPARE: a member refuses with the code
of its first failing check, MODECHG 1 until the ABORT, or prepares its units and, once they have acknowledged, accepts; one in
Frost passes through Thaw first (R859, R860). COMMIT of the accepted transaction: the change waits for its boundary. ABORT:
the change is gone, and its shadow timing sets (R861). ACK at the master: with the last one COMMIT goes out, or, after a
refusal, ABORT with the refusing member's code (R859, R861). GANG_PREPARE_TIMEOUT: ABORT after 400,000 ticks, not before, with
the code of a member that has refused, if any. DIGEST: the member's part joins its aggregate (R878); AGG_TIMEOUT: 10 ms after
its first part the aggregate closes with what it holds (R879). -/
def Obligations.GangFrames : Prop :=
  ∀ s : State, s.ringLive = true →
    let out (fs : List (List (BitVec 16))) : Ring := { s.ring with out := fs }
    let id := s.ring.id
    let dropped (m : ModeChg) : State := if m.what = .rate then s.dropShadows else s
    (∀ (src : Fin 8), src.val ≠ id →
      (∀ (chunk : BitVec 16) (data : BitVec 512),
        let f := ringFrame 2 src.val src.val (chunk :: words16 32 data.toNat)
        (s.gangOn = false ∨ src.val ≠ s.ring.master → exec (.image src chunk data) s = .next { s with ring := out [f] }) ∧
        (s.gangOn = true → src.val = s.ring.master → exec (.image src chunk data) s = .next { s with ring := { out [f] with
          chunks := Tab.set none s.ring.chunks chunk.toNat (some data) } })) ∧
      (∀ (xid : BitVec 16) (op : BitVec 8) (arg crc : BitVec 32),
        let f := ringFrame 3 src.val src.val ([xid, op.setWidth 16] ++ words16 2 arg.toNat ++ words16 2 crc.toNat)
        let g : Gang := ⟨xid, src.val, op, arg, crc, [], 0, 8, false, s.sys.ltc⟩
        let ack (e : BitVec 8) := ringFrame 4 id src.val [xid, e.setWidth 16]
        (s.gangOn = false ∨ src.val ≠ s.ring.master → exec (.prepare src xid op arg crc) s = .next { s with ring := out [f] }) ∧
        (s.gangOn = true → src.val = s.ring.master →
          (s.sys.phase = .frost → s.therm.latch = false → exec (.prepare src xid op arg crc) s = .next (State.takeLines { s with
            sys := { s.sys with phase := .thaw, wakeLtc := s.sys.ltc }
            ring := { out [f] with gang := some g } })) ∧
          (s.sys.phase = .thaw → s.therm.latch = false →
            exec (.prepare src xid op arg crc) s = .next { s with ring := { out [f] with gang := some g } }) ∧
          ((s.sys.phase ≠ .frost ∧ s.sys.phase ≠ .thaw) ∨ s.therm.latch = true →
            (∀ e, s.gangCheck g s.modechg = .inl e → exec (.prepare src xid op arg crc) s = .next { s with
              ring := { out [f, ack e] with chunks := [], gang := some { g with sent := true } } }) ∧
            (∀ m, s.gangCheck g s.modechg = .inr m → ∃ t u, exec (.prepare src xid op arg crc) s = .next t ∧ t.mc = some u ∧
              u.what = m.what ∧ u.cfg = m.cfg ∧ u.rate = m.rate ∧ u.det = m.det ∧ u.committed = false ∧ u.start = s.sys.ltc ∧
              t.ring.chunks = [] ∧ t.ring.gang = none ∧
              t.ring.out = (if t.unitsAcked = true then [f, ack eOk] else [f]) ∧ t.cfg = s.cfg ∧ t.det = s.det ∧ t.mem = s.mem)))) ∧
      (∀ (xid : BitVec 16) (m : ModeChg) (g : Gang), s.mc = some m → m.gang = some g → g.master = src.val →
        let fc := ringFrame 5 src.val src.val [xid]
        let fa := ringFrame 6 src.val src.val [xid]
        (g.xid ≠ xid ∨ g.awaiting = [] ∨ g.sent = true → exec (.commit src xid) s = .next { s with ring := out [fc] }) ∧
        (g.xid = xid → g.awaiting ≠ [] → g.sent = false → exec (.commit src xid) s = .next { s with
          mc := some { m with acked := s.sys.ltc, gang := some { g with sent := true } }
          ring := out [fc] }) ∧
        (s.ring.gang = none → g.xid ≠ xid ∨ m.committed = true → exec (.abort src xid) s = .next { s with ring := out [fa] }) ∧
        (s.ring.gang = none → g.xid = xid → m.committed = false → m.pend = false → m.opc = 0 →
          exec (.abort src xid) s = .next { dropped m with mc := none, ring := out [fa] })) ∧
      (∀ (xid : BitVec 16) (g : Gang), s.mc = none → s.ring.gang = some g → g.master = src.val → g.xid = xid →
        exec (.abort src xid) s = .next { s with ring := { out [ringFrame 6 src.val src.val [xid]] with gang := none, chunks := [] } })) ∧
    (∀ (src : Fin 8) (xid : BitVec 16) (err : BitVec 8) (m : ModeChg) (g : Gang), s.mc = some m → m.gang = some g →
      let rest := g.awaiting.filter fun i => i != src.val
      (g.master ≠ id ∨ g.xid ≠ xid ∨ src.val ∉ g.awaiting → exec (.ack src xid err) s = .next s) ∧
      (g.master = id → g.xid = xid → src.val ∈ g.awaiting → g.sent = false → g.errId = 8 → m.pend = false → m.opc ≠ 0 →
        (rest ≠ [] → exec (.ack src xid err) s = .next { s with mc := some { m with gang := some { g with
          awaiting := rest
          err := if err = eOk then g.err else err
          errId := if err = eOk then 8 else src.val } } }) ∧
        (rest = [] → err = eOk → s.unitsAcked = true → exec (.ack src xid err) s = .next { s with
          mc := some { m with acked := s.sys.ltc, gang := some { g with awaiting := [], sent := true } }
          ring := out [ringFrame 5 id id [xid]] }) ∧
        (rest = [] → err ≠ eOk → exec (.ack src xid err) s = .next { dropped m with
          mc := none
          ring := out [ringFrame 6 id id [xid]]
          mbx := s.ended err [] }))) ∧
    (∀ (m : ModeChg) (g : Gang), s.mc = some m → m.gang = some g →
      (g.master ≠ id ∨ g.awaiting = [] ∨ s.sys.ltc < g.start + 400000 → exec .gangPrepareTimeout s = .next s) ∧
      (g.master = id → g.awaiting ≠ [] → g.start + 400000 ≤ s.sys.ltc → m.pend = false → m.opc ≠ 0 →
        exec .gangPrepareTimeout s = .next { dropped m with
          mc := none
          ring := out [ringFrame 6 id id [g.xid]]
          mbx := s.ended (if g.errId < 8 then g.err else eAborted) (s.changeWords m.opc) })) ∧
    (∀ (src : Fin 8) (i : Fin 16) (n : BitVec 32) (d : BitVec 256),
      (s.isMaster = false ∨ s.masterAgg.testBit i.val = false ∨ src.val ∉ s.aggGroup i.val → exec (.digest src i n d) s = .next s) ∧
      (∀ j, s.isMaster = true → s.masterAgg.testBit i.val = true → src.val ∈ s.aggGroup i.val →
        Tab.get none s.ring.gdone i.val = none → j ∈ s.aggGroup i.val → j ≠ src.val →
        (∀ a ∈ s.ring.aggs, a.stream = i.val → a.n = n → ∀ x ∈ a.parts, x.1 ≠ j) →
        ∃ t a, exec (.digest src i n d) s = .next t ∧ a ∈ t.ring.aggs ∧ a.stream = i.val ∧ a.n = n ∧ (src.val, d) ∈ a.parts ∧
          t.ring = { s.ring with aggs := t.ring.aggs } ∧ Frame [.ring, .sys] s t)) ∧
    (∀ i : Fin 16,
      let due := s.ring.aggs.find? fun a => a.stream == i.val && decide (a.first + 4000000 ≤ s.sys.ltc)
      (due = none → exec (.aggTimeout i) s = .next s) ∧
      (∀ a, due = some a →
        let d := aggDigest (Tab.get 0 s.ring.gprev i.val) i.val a.n a.parts
        exec (.aggTimeout i) s = .next { s with
          ring := { s.ring with
            aggs := s.ring.aggs.filter fun x => !(x.stream == i.val && x.n == a.n)
            gdone := Tab.set none s.ring.gdone i.val (some a.n)
            gprev := Tab.set 0 s.ring.gprev i.val d }
          det := { s.det with recs := s.det.recs ++
            if s.recEn = true then [⟨16 + i.val, a.n, s.sys.ltc, a.bytes, a.pieces, d, none, false, none⟩] else [] } }))

/-! ### Lock-step and the test wrapper (R736 to R741, R924 to R927) -/

/-- Frames of the lock-step link: one whose CRC fails is counted, one of another sender is reported, both without effect; a
good one keeps the link up, with LS_GAP where its sequence number is not the next (R738). A record is compared with the own
record of its fence: equal ones are matched, the first unequal ones set the latch with stream and fence, later ones keep it, and
every one sets the hold where it is enabled (R739 to R741); one without a partner waits. A heartbeat is queued after 10 µs
without a frame (R737); the link is down after 100 µs without a good one (R738); a frame leaves the queue 480 ns after the one
before, and the pair has carried its 48 bytes: TYPE, SRC_ID, SEQ, stream, fence number and D_n at their offsets, and the CRC over
them (R736). -/
def Obligations.LockStepLink : Prop :=
  ∀ s : State,
    (∀ f : BitVec 384,
      let q : BitVec 16 := BitVec.ofNat 16 (fld f 32 16)
      let inOrder := s.det.rxSeq = none ∨ s.det.rxSeq = some (q - 1)
      let good := dxpCrcOk f = true ∧ fld f 16 16 = s.cfg.peerId
      let up : Det := { s.det with rxSeq := some q, lastRx := s.sys.ltc, linkUp := true }
      (s.lsLive = false ∨ (dxpCrcOk f = true ∧ fld f 8 8 ≠ 1) → exec (.lsHeartbeatFrame f) s = .next s) ∧
      (s.lsLive = false ∨ (dxpCrcOk f = true ∧ fld f 8 8 ≠ 0) → exec (.lsRecordFrame f) s = .next s) ∧
      (s.lsLive = true → dxpCrcOk f = false →
        exec (.lsHeartbeatFrame f) s = .next (s.errCount 0x320 9 1) ∧ exec (.lsRecordFrame f) s = .next (s.errCount 0x320 9 1)) ∧
      (s.lsLive = true → fld f 8 8 = 1 →
        (dxpCrcOk f = true → fld f 16 16 ≠ s.cfg.peerId → exec (.lsHeartbeatFrame f) s = .next (s.event .lsPeer 0 0)) ∧
        (good → inOrder → exec (.lsHeartbeatFrame f) s = .next { s with det := up }) ∧
        (good → ¬ inOrder → exec (.lsHeartbeatFrame f) s = .next { s.event .lsGap 0 0 with det := up })) ∧
      (s.lsLive = true → fld f 8 8 = 0 →
        let r : LsRec := ⟨fld f 48 8, BitVec.ofNat 32 (fld f 64 32), BitVec.ofNat 256 (fld f 96 256)⟩
        let mate := takeFirst (fun x : LsRec => x.stream == r.stream && x.n == r.n) s.det.own
        (dxpCrcOk f = true → fld f 16 16 ≠ s.cfg.peerId → exec (.lsRecordFrame f) s = .next (s.event .lsPeer 0 0)) ∧
        (good → inOrder →
          (mate = none → s.det.peer.length < 64 →
            exec (.lsRecordFrame f) s = .next { s with det := { up with peer := s.det.peer ++ [r] } }) ∧
          (∀ x rest, mate = some (x, rest) → ∃ t, exec (.lsRecordFrame f) s = .next t ∧
            (x.d = r.d → t.det = { up with own := rest }) ∧
            (x.d ≠ r.d → t.det = { up with
              own := rest
              mismatch := true
              mStream := if s.det.mismatch = true then s.det.mStream else r.stream
              mFence := if s.det.mismatch = true then s.det.mFence else r.n
              lsHeld := s.det.lsHeld || bit s.cfg.ls 1
              broken := t.det.broken }) ∧
            (s.det.lsHeld = true ∨ bit s.cfg.ls 1 = false → t.det.broken = s.det.broken) ∧
            Counted s t ∧ Frame [.det, .ctl, .evt, .mbx] s t)))) ∧
    (s.lsLive = false ∨ s.det.txq ≠ [] ∨ s.sys.ltc < s.det.lastTx + 4000 → exec .lsHeartbeatTimer s = .next s) ∧
    (s.lsLive = true → s.det.txq = [] → s.det.lastTx + 4000 ≤ s.sys.ltc → exec .lsHeartbeatTimer s = .next { s with
      det := { s.det with txq := [⟨1, s.det.txSeq, 0, 0, 0⟩], txSeq := s.det.txSeq + 1 } }) ∧
    (s.sys.porN = false ∨ s.sys.rstEnd = true ∨ s.det.linkUp = false ∨ s.sys.ltc < s.det.lastRx + 40000 →
      exec .lsLinkTimeout s = .next s) ∧
    (s.sys.porN = true → s.sys.rstEnd = false → s.det.linkUp = true → s.det.lastRx + 40000 ≤ s.sys.ltc → exec .lsLinkTimeout s =
      .next (State.event { s with det := { s.det with linkUp := false } } .lsLost 0 0)) ∧
    (s.sys.porN = false ∨ s.sys.rstEnd = true ∨ s.sys.ltc < s.det.lastTx + 192 ∨ s.det.txq = [] →
      exec .lsFrameSent s = .next s) ∧
    (∀ x rest, s.sys.porN = true → s.sys.rstEnd = false → s.det.lastTx + 192 ≤ s.sys.ltc → s.det.txq = x :: rest →
      exec .lsFrameSent s = .next { s with
        det := { s.det with txq := rest, lastTx := s.sys.ltc, dxp := some (dxpFrame s.cfg.localId x) } }) ∧
    (∀ x : LsFrame, x.typ < 256 → x.stream < 256 →
      let f := dxpFrame s.cfg.localId x
      fld f 8 8 = x.typ ∧ fld f 16 16 = s.cfg.localId ∧ fld f 32 16 = x.seq.toNat ∧ fld f 48 8 = x.stream ∧ fld f 56 8 = 0 ∧
        fld f 64 32 = x.n.toNat ∧ fld f 96 256 = x.d.toNat ∧ dxpCrcOk f = true)

/-- The IEEE 1500 wrapper. WS_BYPASS and KX_IDCODE work always (R924). WS_EXTEST, WS_INTEST, KX_MBIST and KX_SCAN work while
KX_POR_n is low and act as WS_BYPASS otherwise (R925); KX_MBIST and KX_SCAN leave the arrays of the controller undefined
(R926). MBIST_DONE gives DONE and the pass bits. KX_SLICE_TEST acts as WS_BYPASS outside READY and in DET_TIMING; with START
it begins the march of a free spare where the in-service test may run (R931), and gives DONE 1 and PASS 0 at once for another
slice (R927). -/
def Obligations.TestWrapper : Prop :=
  ∀ s : State, s.Canon →
    let bypass : State := { s with wrap := { s.wrap with wir := 0x00 } }
    let spoilt : Sys := { s.sys with free := s.sys.free + 1 }
    exec .wsBypass s = .next bypass ∧
    exec .kxIdcode s = .next { s with wrap := { s.wrap with wir := 0x10, idcode := Config.romId ++ Config.version } } ∧
    (∀ v : BitVec 64,
      (s.sys.porN = true → exec (.wsExtest v) s = .next bypass ∧ exec (.wsIntest v) s = .next bypass) ∧
      (s.sys.porN = false → exec (.wsExtest v) s = .next { s with wrap := { s.wrap with wir := 0x01, boundary := v } } ∧
        exec (.wsIntest v) s = .next { s with wrap := { s.wrap with wir := 0x02, boundary := v } })) ∧
    (s.sys.porN = true → exec .kxMbist s = .next bypass ∧ exec .kxScan s = .next bypass) ∧
    (s.sys.porN = false →
      exec .kxMbist s = .next { s with
        sys := spoilt
        wrap := { s.wrap with wir := 0x11, undef := true, bist := 0, bistRun := true } } ∧
      exec .kxScan s = .next { s with
        sys := spoilt
        wrap := { s.wrap with wir := 0x12, undef := true } }) ∧
    (∀ groups : BitVec 8,
      (s.wrap.bistRun = false ∨ s.sys.porN = true → exec (.mbistDone groups) s = .next s) ∧
      (s.wrap.bistRun = true → s.sys.porN = false → exec (.mbistDone groups) s = .next { s with
        wrap := { s.wrap with bist := 0x8000 ||| groups.setWidth 16, bistRun := false } })) ∧
    (∀ v : BitVec 16,
      (s.sys.ready = false ∨ s.det.mode = .timing → exec (.kxSliceTest v) s = .next bypass) ∧
      (s.sys.ready = true → s.det.mode ≠ .timing →
        let p := fld v 0 8
        let w : Wrap := { s.wrap with wir := 0x13, slice := v &&& 0x1FF }
        (bit v 8 = false → exec (.kxSliceTest v) s = .next { s with wrap := w }) ∧
        (bit v 8 = true → s.freeSpare p = false → exec (.kxSliceTest v) s = .next { s with
          wrap := { w with slice := (v &&& 0x1FF) ||| 0x200 } }) ∧
        (bit v 8 = true → s.freeSpare p = true → s.istAllowed = false → exec (.kxSliceTest v) s = .next { s with wrap := w }) ∧
        (bit v 8 = true → s.freeSpare p = true → s.istAllowed = true → ∃ t, exec (.kxSliceTest v) s = .next t ∧ t.wrap = w ∧
          (t.slice p).rep.testing = true ∧ (t.slice p).rf.selfRef = false ∧ (t.slice p).rf.refOn = true ∧
          (∀ j, j ≠ p → t.slice j = s.slice j) ∧ Frame [.wrap, .slices] s t)))
end

