-- ==== Sys2Proof/Laws/Tab.lean ====
section
/-! SUPPORT. The laws of sparse tables: a read after a write, and every operation keeps the canonical form. -/

namespace Sys2Proof.Machine

variable {α : Type}

section Form
variable [DecidableEq α] {d : α}

/-- A table whose numbers lie above `n` is canonical. -/
theorem Tab.wf_of_above {n : Option Nat} {t : Tab α} (h : Tab.above d n t = true) : Tab.wf d t = true := by
  cases t with
  | nil => rfl
  | cons a t => cases n <;> simp_all [Tab.wf, Tab.above]

/-- A lower bound may be lowered. -/
theorem Tab.above_mono {m n : Nat} {t : Tab α} (hmn : m ≤ n) (h : Tab.above d (some n) t = true) :
    Tab.above d (some m) t = true := by
  cases t with
  | nil => rfl
  | cons a t =>
    simp only [Tab.above, Bool.and_eq_true, decide_eq_true_eq] at h ⊢
    exact ⟨⟨by omega, h.1.2⟩, h.2⟩

/-- Below its bound a table reads as the default. -/
theorem Tab.get_of_above {n k : Nat} {t : Tab α} (h : Tab.above d (some n) t = true) (hk : k ≤ n) :
    Tab.get d t k = d := by
  induction t generalizing n with
  | nil => rfl
  | cons a t ih =>
    simp only [Tab.above, Bool.and_eq_true, decide_eq_true_eq] at h
    have : a.1 ≠ k := by omega
    simp only [Tab.get, this, if_false]
    exact ih h.2 (by omega)

/-- A write leaves every other number alone. -/
theorem Tab.get_set_ne {t : Tab α} {k j : Nat} (v : α) (h : j ≠ k) : Tab.get d (Tab.set d t k v) j = Tab.get d t j := by
  induction t with
  | nil =>
    simp only [Tab.set]
    split
    · rfl
    · simp [Tab.get, Ne.symm h]
  | cons a t ih =>
    simp only [Tab.set]
    split
    · split
      · rfl
      · simp [Tab.get, Ne.symm h]
    · split
      · subst k
        split
        · simp [Tab.get, Ne.symm h]
        · simp [Tab.get, Ne.symm h]
      · simp only [Tab.get, ih]

/-- A read after a write to the same number gives the value written. -/
theorem Tab.get_set_self_of_above {n : Option Nat} {t : Tab α} {k : Nat} (v : α) (h : Tab.above d n t = true) :
    Tab.get d (Tab.set d t k v) k = v := by
  induction t generalizing n with
  | nil =>
    simp only [Tab.set]
    split
    · simp [Tab.get, *]
    · simp [Tab.get]
  | cons a t ih =>
    have ha : Tab.above d (some a.1) t = true := by
      simp only [Tab.above, Bool.and_eq_true] at h
      exact h.2
    simp only [Tab.set]
    split
    · rename_i hk
      split
      · rename_i hv
        have : a.1 ≠ k := by omega
        simp only [Tab.get, this, if_false]
        rw [hv]
        exact Tab.get_of_above ha (by omega)
      · simp [Tab.get]
    · split
      · rename_i hk
        split
        · rename_i hv
          rw [hv]
          exact Tab.get_of_above ha (by omega)
        · simp [Tab.get]
      · rename_i hk
        have : a.1 ≠ k := fun e => hk e.symm
        simp only [Tab.get, this, if_false]
        exact ih ha

/-- A read after a write to the same number gives the value written. -/
theorem Tab.get_set_self {t : Tab α} {k : Nat} (v : α) (h : Tab.wf d t = true) : Tab.get d (Tab.set d t k v) k = v :=
  Tab.get_set_self_of_above v h

/-- A write above a bound keeps the bound. -/
theorem Tab.set_above {n : Option Nat} {t : Tab α} {k : Nat} {v : α} (h : Tab.above d n t = true)
    (hk : ∀ m, n = some m → m < k) : Tab.above d n (Tab.set d t k v) = true := by
  induction t generalizing n with
  | nil =>
    simp only [Tab.set]
    split
    · rfl
    · cases n <;> simp_all [Tab.above]
  | cons a t ih =>
    have ha : Tab.above d (some a.1) t = true := by
      simp only [Tab.above, Bool.and_eq_true] at h
      exact h.2
    simp only [Tab.set]
    split
    · split
      · exact h
      · cases n <;> simp_all [Tab.above]
    · split
      · rename_i hk'
        subst hk'
        split
        · cases n with
          | none => exact Tab.wf_of_above ha
          | some m =>
            have := hk m rfl
            exact Tab.above_mono (by omega) ha
        · cases n <;> simp_all [Tab.above]
      · rename_i h1 h2
        have := ih (n := some a.1) ha (by rintro m ⟨⟩; omega)
        simp only [Tab.above, Bool.and_eq_true] at h ⊢
        exact ⟨h.1, this⟩

/-- A write keeps the canonical form. -/
theorem Tab.set_wf {t : Tab α} {k : Nat} {v : α} (h : Tab.wf d t = true) : Tab.wf d (Tab.set d t k v) = true :=
  Tab.set_above h (by rintro m ⟨⟩)

/-- A change keeps the canonical form. -/
theorem Tab.upd_wf {t : Tab α} {k : Nat} {f : α → α} (h : Tab.wf d t = true) : Tab.wf d (Tab.upd d t k f) = true :=
  Tab.set_wf h

/-- A change of every value keeps the bound. -/
theorem Tab.mapVals_above {n : Option Nat} {t : Tab α} {f : Nat → α → α} (h : Tab.above d n t = true) :
    Tab.above d n (Tab.mapVals d f t) = true := by
  induction t generalizing n with
  | nil => rfl
  | cons a t ih =>
    have ha : Tab.above d (some a.1) t = true := by
      simp only [Tab.above, Bool.and_eq_true] at h
      exact h.2
    have hn : ∀ m, n = some m → m < a.1 := by
      rintro m rfl
      simp only [Tab.above, Bool.and_eq_true, decide_eq_true_eq] at h
      exact h.1.1
    simp only [Tab.mapVals]
    split
    · cases n with
      | none => exact Tab.wf_of_above (ih ha)
      | some m => exact Tab.above_mono (Nat.le_of_lt (hn m rfl)) (ih ha)
    · have := ih ha
      cases n <;> simp_all [Tab.above]

/-- A change of every value keeps the canonical form. -/
theorem Tab.mapVals_wf {t : Tab α} {f : Nat → α → α} (h : Tab.wf d t = true) : Tab.wf d (Tab.mapVals d f t) = true :=
  Tab.mapVals_above h

/-- Taking numbers out keeps the bound. -/
theorem Tab.drop_above {n : Option Nat} {t : Tab α} {p : Nat → Bool} (h : Tab.above d n t = true) :
    Tab.above d n (Tab.drop p t) = true := by
  induction t generalizing n with
  | nil => rfl
  | cons a t ih =>
    have ha : Tab.above d (some a.1) t = true := by
      simp only [Tab.above, Bool.and_eq_true] at h
      exact h.2
    have hn : ∀ m, n = some m → m < a.1 := by
      rintro m rfl
      simp only [Tab.above, Bool.and_eq_true, decide_eq_true_eq] at h
      exact h.1.1
    by_cases hp : p a.1
    · have e : Tab.drop p (a :: t) = Tab.drop p t := by simp [Tab.drop, hp]
      rw [e]
      cases n with
      | none => exact Tab.wf_of_above (ih ha)
      | some m => exact Tab.above_mono (Nat.le_of_lt (hn m rfl)) (ih ha)
    · have e : Tab.drop p (a :: t) = a :: Tab.drop p t := by simp [Tab.drop, hp]
      rw [e]
      have := ih ha
      simp only [Tab.above, Bool.and_eq_true] at h ⊢
      exact ⟨h.1, this⟩

/-- Taking numbers out keeps the canonical form. -/
theorem Tab.drop_wf {t : Tab α} {p : Nat → Bool} (h : Tab.wf d t = true) : Tab.wf d (Tab.drop p t) = true :=
  Tab.drop_above h

/-- Changes in a row keep the canonical form. -/
theorem Tab.foldl_wf {β : Type} {g : Tab α → β → Tab α} (hg : ∀ t b, Tab.wf d t = true → Tab.wf d (g t b) = true)
    (l : List β) : ∀ {t : Tab α}, Tab.wf d t = true → Tab.wf d (l.foldl g t) = true := by
  induction l with
  | nil => exact fun h => h
  | cons b l ih => exact fun h => ih (hg _ b h)

end Form

/-- A number that no entry bears reads as the default. -/
theorem Tab.get_drop {d : α} {t : Tab α} {p : Nat → Bool} {k : Nat} :
    Tab.get d (Tab.drop p t) k = if p k then d else Tab.get d t k := by
  induction t with
  | nil => simp [Tab.drop, Tab.get]
  | cons a t ih =>
    by_cases hp : p a.1
    · have e : Tab.drop p (a :: t) = Tab.drop p t := by simp [Tab.drop, hp]
      rw [e, ih]
      by_cases hk : a.1 = k
      · subst hk
        simp [hp]
      · simp [Tab.get, hk]
    · have e : Tab.drop p (a :: t) = a :: Tab.drop p t := by simp [Tab.drop, hp]
      rw [e]
      by_cases hk : a.1 = k
      · subst hk
        simp [Tab.get, hp]
      · simp [Tab.get, hk, ih]

end Sys2Proof.Machine
end

