-- ==== Sys2Proof/Laws/State.lean ====
section
/-! SUPPORT. What each update of one part of the state does to every part: the part it names and no other. -/

namespace Sys2Proof.Machine

variable (s : State)

@[simp] theorem State.modFab_pending (f : Fab → Fab) : (s.modFab f).pending = s.pending := rfl
@[simp] theorem State.modFab_sys (f : Fab → Fab) : (s.modFab f).sys = s.sys := rfl
@[simp] theorem State.modFab_ctl (f : Fab → Fab) : (s.modFab f).ctl = s.ctl := rfl
@[simp] theorem State.modFab_mbx (f : Fab → Fab) : (s.modFab f).mbx = s.mbx := rfl
@[simp] theorem State.modFab_evt (f : Fab → Fab) : (s.modFab f).evt = s.evt := rfl
@[simp] theorem State.modFab_cfg (f : Fab → Fab) : (s.modFab f).cfg = s.cfg := rfl
@[simp] theorem State.modFab_mc (f : Fab → Fab) : (s.modFab f).mc = s.mc := rfl
@[simp] theorem State.modFab_fab (f : Fab → Fab) : (s.modFab f).fab = f s.fab := rfl
@[simp] theorem State.modFab_ports (f : Fab → Fab) : (s.modFab f).ports = s.ports := rfl
@[simp] theorem State.modFab_blp (f : Fab → Fab) : (s.modFab f).blp = s.blp := rfl
@[simp] theorem State.modFab_slices (f : Fab → Fab) : (s.modFab f).slices = s.slices := rfl
@[simp] theorem State.modFab_therm (f : Fab → Fab) : (s.modFab f).therm = s.therm := rfl
@[simp] theorem State.modFab_stk (f : Fab → Fab) : (s.modFab f).stk = s.stk := rfl
@[simp] theorem State.modFab_det (f : Fab → Fab) : (s.modFab f).det = s.det := rfl
@[simp] theorem State.modFab_ring (f : Fab → Fab) : (s.modFab f).ring = s.ring := rfl
@[simp] theorem State.modFab_wrap (f : Fab → Fab) : (s.modFab f).wrap = s.wrap := rfl
@[simp] theorem State.modFab_mem (f : Fab → Fab) : (s.modFab f).mem = s.mem := rfl

@[simp] theorem State.modMbx_pending (f : Mbx → Mbx) : (s.modMbx f).pending = s.pending := rfl
@[simp] theorem State.modMbx_sys (f : Mbx → Mbx) : (s.modMbx f).sys = s.sys := rfl
@[simp] theorem State.modMbx_ctl (f : Mbx → Mbx) : (s.modMbx f).ctl = s.ctl := rfl
@[simp] theorem State.modMbx_mbx (f : Mbx → Mbx) : (s.modMbx f).mbx = f s.mbx := rfl
@[simp] theorem State.modMbx_evt (f : Mbx → Mbx) : (s.modMbx f).evt = s.evt := rfl
@[simp] theorem State.modMbx_cfg (f : Mbx → Mbx) : (s.modMbx f).cfg = s.cfg := rfl
@[simp] theorem State.modMbx_mc (f : Mbx → Mbx) : (s.modMbx f).mc = s.mc := rfl
@[simp] theorem State.modMbx_fab (f : Mbx → Mbx) : (s.modMbx f).fab = s.fab := rfl
@[simp] theorem State.modMbx_ports (f : Mbx → Mbx) : (s.modMbx f).ports = s.ports := rfl
@[simp] theorem State.modMbx_blp (f : Mbx → Mbx) : (s.modMbx f).blp = s.blp := rfl
@[simp] theorem State.modMbx_slices (f : Mbx → Mbx) : (s.modMbx f).slices = s.slices := rfl
@[simp] theorem State.modMbx_therm (f : Mbx → Mbx) : (s.modMbx f).therm = s.therm := rfl
@[simp] theorem State.modMbx_stk (f : Mbx → Mbx) : (s.modMbx f).stk = s.stk := rfl
@[simp] theorem State.modMbx_det (f : Mbx → Mbx) : (s.modMbx f).det = s.det := rfl
@[simp] theorem State.modMbx_ring (f : Mbx → Mbx) : (s.modMbx f).ring = s.ring := rfl
@[simp] theorem State.modMbx_wrap (f : Mbx → Mbx) : (s.modMbx f).wrap = s.wrap := rfl
@[simp] theorem State.modMbx_mem (f : Mbx → Mbx) : (s.modMbx f).mem = s.mem := rfl

@[simp] theorem State.modSys_pending (f : Sys → Sys) : (s.modSys f).pending = s.pending := rfl
@[simp] theorem State.modSys_sys (f : Sys → Sys) : (s.modSys f).sys = f s.sys := rfl
@[simp] theorem State.modSys_ctl (f : Sys → Sys) : (s.modSys f).ctl = s.ctl := rfl
@[simp] theorem State.modSys_mbx (f : Sys → Sys) : (s.modSys f).mbx = s.mbx := rfl
@[simp] theorem State.modSys_evt (f : Sys → Sys) : (s.modSys f).evt = s.evt := rfl
@[simp] theorem State.modSys_cfg (f : Sys → Sys) : (s.modSys f).cfg = s.cfg := rfl
@[simp] theorem State.modSys_mc (f : Sys → Sys) : (s.modSys f).mc = s.mc := rfl
@[simp] theorem State.modSys_fab (f : Sys → Sys) : (s.modSys f).fab = s.fab := rfl
@[simp] theorem State.modSys_ports (f : Sys → Sys) : (s.modSys f).ports = s.ports := rfl
@[simp] theorem State.modSys_blp (f : Sys → Sys) : (s.modSys f).blp = s.blp := rfl
@[simp] theorem State.modSys_slices (f : Sys → Sys) : (s.modSys f).slices = s.slices := rfl
@[simp] theorem State.modSys_therm (f : Sys → Sys) : (s.modSys f).therm = s.therm := rfl
@[simp] theorem State.modSys_stk (f : Sys → Sys) : (s.modSys f).stk = s.stk := rfl
@[simp] theorem State.modSys_det (f : Sys → Sys) : (s.modSys f).det = s.det := rfl
@[simp] theorem State.modSys_ring (f : Sys → Sys) : (s.modSys f).ring = s.ring := rfl
@[simp] theorem State.modSys_wrap (f : Sys → Sys) : (s.modSys f).wrap = s.wrap := rfl
@[simp] theorem State.modSys_mem (f : Sys → Sys) : (s.modSys f).mem = s.mem := rfl

@[simp] theorem State.modStk_pending (f : Stack → Stack) : (s.modStk f).pending = s.pending := rfl
@[simp] theorem State.modStk_sys (f : Stack → Stack) : (s.modStk f).sys = s.sys := rfl
@[simp] theorem State.modStk_ctl (f : Stack → Stack) : (s.modStk f).ctl = s.ctl := rfl
@[simp] theorem State.modStk_mbx (f : Stack → Stack) : (s.modStk f).mbx = s.mbx := rfl
@[simp] theorem State.modStk_evt (f : Stack → Stack) : (s.modStk f).evt = s.evt := rfl
@[simp] theorem State.modStk_cfg (f : Stack → Stack) : (s.modStk f).cfg = s.cfg := rfl
@[simp] theorem State.modStk_mc (f : Stack → Stack) : (s.modStk f).mc = s.mc := rfl
@[simp] theorem State.modStk_fab (f : Stack → Stack) : (s.modStk f).fab = s.fab := rfl
@[simp] theorem State.modStk_ports (f : Stack → Stack) : (s.modStk f).ports = s.ports := rfl
@[simp] theorem State.modStk_blp (f : Stack → Stack) : (s.modStk f).blp = s.blp := rfl
@[simp] theorem State.modStk_slices (f : Stack → Stack) : (s.modStk f).slices = s.slices := rfl
@[simp] theorem State.modStk_therm (f : Stack → Stack) : (s.modStk f).therm = s.therm := rfl
@[simp] theorem State.modStk_stk (f : Stack → Stack) : (s.modStk f).stk = f s.stk := rfl
@[simp] theorem State.modStk_det (f : Stack → Stack) : (s.modStk f).det = s.det := rfl
@[simp] theorem State.modStk_ring (f : Stack → Stack) : (s.modStk f).ring = s.ring := rfl
@[simp] theorem State.modStk_wrap (f : Stack → Stack) : (s.modStk f).wrap = s.wrap := rfl
@[simp] theorem State.modStk_mem (f : Stack → Stack) : (s.modStk f).mem = s.mem := rfl

@[simp] theorem State.modDet_pending (f : Det → Det) : (s.modDet f).pending = s.pending := rfl
@[simp] theorem State.modDet_sys (f : Det → Det) : (s.modDet f).sys = s.sys := rfl
@[simp] theorem State.modDet_ctl (f : Det → Det) : (s.modDet f).ctl = s.ctl := rfl
@[simp] theorem State.modDet_mbx (f : Det → Det) : (s.modDet f).mbx = s.mbx := rfl
@[simp] theorem State.modDet_evt (f : Det → Det) : (s.modDet f).evt = s.evt := rfl
@[simp] theorem State.modDet_cfg (f : Det → Det) : (s.modDet f).cfg = s.cfg := rfl
@[simp] theorem State.modDet_mc (f : Det → Det) : (s.modDet f).mc = s.mc := rfl
@[simp] theorem State.modDet_fab (f : Det → Det) : (s.modDet f).fab = s.fab := rfl
@[simp] theorem State.modDet_ports (f : Det → Det) : (s.modDet f).ports = s.ports := rfl
@[simp] theorem State.modDet_blp (f : Det → Det) : (s.modDet f).blp = s.blp := rfl
@[simp] theorem State.modDet_slices (f : Det → Det) : (s.modDet f).slices = s.slices := rfl
@[simp] theorem State.modDet_therm (f : Det → Det) : (s.modDet f).therm = s.therm := rfl
@[simp] theorem State.modDet_stk (f : Det → Det) : (s.modDet f).stk = s.stk := rfl
@[simp] theorem State.modDet_det (f : Det → Det) : (s.modDet f).det = f s.det := rfl
@[simp] theorem State.modDet_ring (f : Det → Det) : (s.modDet f).ring = s.ring := rfl
@[simp] theorem State.modDet_wrap (f : Det → Det) : (s.modDet f).wrap = s.wrap := rfl
@[simp] theorem State.modDet_mem (f : Det → Det) : (s.modDet f).mem = s.mem := rfl

@[simp] theorem State.modTherm_pending (f : Therm → Therm) : (s.modTherm f).pending = s.pending := rfl
@[simp] theorem State.modTherm_sys (f : Therm → Therm) : (s.modTherm f).sys = s.sys := rfl
@[simp] theorem State.modTherm_ctl (f : Therm → Therm) : (s.modTherm f).ctl = s.ctl := rfl
@[simp] theorem State.modTherm_mbx (f : Therm → Therm) : (s.modTherm f).mbx = s.mbx := rfl
@[simp] theorem State.modTherm_evt (f : Therm → Therm) : (s.modTherm f).evt = s.evt := rfl
@[simp] theorem State.modTherm_cfg (f : Therm → Therm) : (s.modTherm f).cfg = s.cfg := rfl
@[simp] theorem State.modTherm_mc (f : Therm → Therm) : (s.modTherm f).mc = s.mc := rfl
@[simp] theorem State.modTherm_fab (f : Therm → Therm) : (s.modTherm f).fab = s.fab := rfl
@[simp] theorem State.modTherm_ports (f : Therm → Therm) : (s.modTherm f).ports = s.ports := rfl
@[simp] theorem State.modTherm_blp (f : Therm → Therm) : (s.modTherm f).blp = s.blp := rfl
@[simp] theorem State.modTherm_slices (f : Therm → Therm) : (s.modTherm f).slices = s.slices := rfl
@[simp] theorem State.modTherm_therm (f : Therm → Therm) : (s.modTherm f).therm = f s.therm := rfl
@[simp] theorem State.modTherm_stk (f : Therm → Therm) : (s.modTherm f).stk = s.stk := rfl
@[simp] theorem State.modTherm_det (f : Therm → Therm) : (s.modTherm f).det = s.det := rfl
@[simp] theorem State.modTherm_ring (f : Therm → Therm) : (s.modTherm f).ring = s.ring := rfl
@[simp] theorem State.modTherm_wrap (f : Therm → Therm) : (s.modTherm f).wrap = s.wrap := rfl
@[simp] theorem State.modTherm_mem (f : Therm → Therm) : (s.modTherm f).mem = s.mem := rfl

@[simp] theorem State.modRing_pending (f : Ring → Ring) : (s.modRing f).pending = s.pending := rfl
@[simp] theorem State.modRing_sys (f : Ring → Ring) : (s.modRing f).sys = s.sys := rfl
@[simp] theorem State.modRing_ctl (f : Ring → Ring) : (s.modRing f).ctl = s.ctl := rfl
@[simp] theorem State.modRing_mbx (f : Ring → Ring) : (s.modRing f).mbx = s.mbx := rfl
@[simp] theorem State.modRing_evt (f : Ring → Ring) : (s.modRing f).evt = s.evt := rfl
@[simp] theorem State.modRing_cfg (f : Ring → Ring) : (s.modRing f).cfg = s.cfg := rfl
@[simp] theorem State.modRing_mc (f : Ring → Ring) : (s.modRing f).mc = s.mc := rfl
@[simp] theorem State.modRing_fab (f : Ring → Ring) : (s.modRing f).fab = s.fab := rfl
@[simp] theorem State.modRing_ports (f : Ring → Ring) : (s.modRing f).ports = s.ports := rfl
@[simp] theorem State.modRing_blp (f : Ring → Ring) : (s.modRing f).blp = s.blp := rfl
@[simp] theorem State.modRing_slices (f : Ring → Ring) : (s.modRing f).slices = s.slices := rfl
@[simp] theorem State.modRing_therm (f : Ring → Ring) : (s.modRing f).therm = s.therm := rfl
@[simp] theorem State.modRing_stk (f : Ring → Ring) : (s.modRing f).stk = s.stk := rfl
@[simp] theorem State.modRing_det (f : Ring → Ring) : (s.modRing f).det = s.det := rfl
@[simp] theorem State.modRing_ring (f : Ring → Ring) : (s.modRing f).ring = f s.ring := rfl
@[simp] theorem State.modRing_wrap (f : Ring → Ring) : (s.modRing f).wrap = s.wrap := rfl
@[simp] theorem State.modRing_mem (f : Ring → Ring) : (s.modRing f).mem = s.mem := rfl

@[simp] theorem State.modCtl_pending (f : Ctl → Ctl) : (s.modCtl f).pending = s.pending := rfl
@[simp] theorem State.modCtl_sys (f : Ctl → Ctl) : (s.modCtl f).sys = s.sys := rfl
@[simp] theorem State.modCtl_ctl (f : Ctl → Ctl) : (s.modCtl f).ctl = f s.ctl := rfl
@[simp] theorem State.modCtl_mbx (f : Ctl → Ctl) : (s.modCtl f).mbx = s.mbx := rfl
@[simp] theorem State.modCtl_evt (f : Ctl → Ctl) : (s.modCtl f).evt = s.evt := rfl
@[simp] theorem State.modCtl_cfg (f : Ctl → Ctl) : (s.modCtl f).cfg = s.cfg := rfl
@[simp] theorem State.modCtl_mc (f : Ctl → Ctl) : (s.modCtl f).mc = s.mc := rfl
@[simp] theorem State.modCtl_fab (f : Ctl → Ctl) : (s.modCtl f).fab = s.fab := rfl
@[simp] theorem State.modCtl_ports (f : Ctl → Ctl) : (s.modCtl f).ports = s.ports := rfl
@[simp] theorem State.modCtl_blp (f : Ctl → Ctl) : (s.modCtl f).blp = s.blp := rfl
@[simp] theorem State.modCtl_slices (f : Ctl → Ctl) : (s.modCtl f).slices = s.slices := rfl
@[simp] theorem State.modCtl_therm (f : Ctl → Ctl) : (s.modCtl f).therm = s.therm := rfl
@[simp] theorem State.modCtl_stk (f : Ctl → Ctl) : (s.modCtl f).stk = s.stk := rfl
@[simp] theorem State.modCtl_det (f : Ctl → Ctl) : (s.modCtl f).det = s.det := rfl
@[simp] theorem State.modCtl_ring (f : Ctl → Ctl) : (s.modCtl f).ring = s.ring := rfl
@[simp] theorem State.modCtl_wrap (f : Ctl → Ctl) : (s.modCtl f).wrap = s.wrap := rfl
@[simp] theorem State.modCtl_mem (f : Ctl → Ctl) : (s.modCtl f).mem = s.mem := rfl

@[simp] theorem State.modBlp_pending (f : Blp → Blp) : (s.modBlp f).pending = s.pending := rfl
@[simp] theorem State.modBlp_sys (f : Blp → Blp) : (s.modBlp f).sys = s.sys := rfl
@[simp] theorem State.modBlp_ctl (f : Blp → Blp) : (s.modBlp f).ctl = s.ctl := rfl
@[simp] theorem State.modBlp_mbx (f : Blp → Blp) : (s.modBlp f).mbx = s.mbx := rfl
@[simp] theorem State.modBlp_evt (f : Blp → Blp) : (s.modBlp f).evt = s.evt := rfl
@[simp] theorem State.modBlp_cfg (f : Blp → Blp) : (s.modBlp f).cfg = s.cfg := rfl
@[simp] theorem State.modBlp_mc (f : Blp → Blp) : (s.modBlp f).mc = s.mc := rfl
@[simp] theorem State.modBlp_fab (f : Blp → Blp) : (s.modBlp f).fab = s.fab := rfl
@[simp] theorem State.modBlp_ports (f : Blp → Blp) : (s.modBlp f).ports = s.ports := rfl
@[simp] theorem State.modBlp_blp (f : Blp → Blp) : (s.modBlp f).blp = f s.blp := rfl
@[simp] theorem State.modBlp_slices (f : Blp → Blp) : (s.modBlp f).slices = s.slices := rfl
@[simp] theorem State.modBlp_therm (f : Blp → Blp) : (s.modBlp f).therm = s.therm := rfl
@[simp] theorem State.modBlp_stk (f : Blp → Blp) : (s.modBlp f).stk = s.stk := rfl
@[simp] theorem State.modBlp_det (f : Blp → Blp) : (s.modBlp f).det = s.det := rfl
@[simp] theorem State.modBlp_ring (f : Blp → Blp) : (s.modBlp f).ring = s.ring := rfl
@[simp] theorem State.modBlp_wrap (f : Blp → Blp) : (s.modBlp f).wrap = s.wrap := rfl
@[simp] theorem State.modBlp_mem (f : Blp → Blp) : (s.modBlp f).mem = s.mem := rfl

@[simp] theorem State.setSlice_pending (p : Nat) (x : Slice) : (s.setSlice p x).pending = s.pending := rfl
@[simp] theorem State.setSlice_sys (p : Nat) (x : Slice) : (s.setSlice p x).sys = s.sys := rfl
@[simp] theorem State.setSlice_ctl (p : Nat) (x : Slice) : (s.setSlice p x).ctl = s.ctl := rfl
@[simp] theorem State.setSlice_mbx (p : Nat) (x : Slice) : (s.setSlice p x).mbx = s.mbx := rfl
@[simp] theorem State.setSlice_evt (p : Nat) (x : Slice) : (s.setSlice p x).evt = s.evt := rfl
@[simp] theorem State.setSlice_cfg (p : Nat) (x : Slice) : (s.setSlice p x).cfg = s.cfg := rfl
@[simp] theorem State.setSlice_mc (p : Nat) (x : Slice) : (s.setSlice p x).mc = s.mc := rfl
@[simp] theorem State.setSlice_fab (p : Nat) (x : Slice) : (s.setSlice p x).fab = s.fab := rfl
@[simp] theorem State.setSlice_ports (p : Nat) (x : Slice) : (s.setSlice p x).ports = s.ports := rfl
@[simp] theorem State.setSlice_blp (p : Nat) (x : Slice) : (s.setSlice p x).blp = s.blp := rfl
@[simp] theorem State.setSlice_slices (p : Nat) (x : Slice) : (s.setSlice p x).slices = Tab.set Slice.reset s.slices p x := rfl
@[simp] theorem State.setSlice_therm (p : Nat) (x : Slice) : (s.setSlice p x).therm = s.therm := rfl
@[simp] theorem State.setSlice_stk (p : Nat) (x : Slice) : (s.setSlice p x).stk = s.stk := rfl
@[simp] theorem State.setSlice_det (p : Nat) (x : Slice) : (s.setSlice p x).det = s.det := rfl
@[simp] theorem State.setSlice_ring (p : Nat) (x : Slice) : (s.setSlice p x).ring = s.ring := rfl
@[simp] theorem State.setSlice_wrap (p : Nat) (x : Slice) : (s.setSlice p x).wrap = s.wrap := rfl
@[simp] theorem State.setSlice_mem (p : Nat) (x : Slice) : (s.setSlice p x).mem = s.mem := rfl

@[simp] theorem State.modSlice_pending (p : Nat) (f : Slice → Slice) : (s.modSlice p f).pending = s.pending := rfl
@[simp] theorem State.modSlice_sys (p : Nat) (f : Slice → Slice) : (s.modSlice p f).sys = s.sys := rfl
@[simp] theorem State.modSlice_ctl (p : Nat) (f : Slice → Slice) : (s.modSlice p f).ctl = s.ctl := rfl
@[simp] theorem State.modSlice_mbx (p : Nat) (f : Slice → Slice) : (s.modSlice p f).mbx = s.mbx := rfl
@[simp] theorem State.modSlice_evt (p : Nat) (f : Slice → Slice) : (s.modSlice p f).evt = s.evt := rfl
@[simp] theorem State.modSlice_cfg (p : Nat) (f : Slice → Slice) : (s.modSlice p f).cfg = s.cfg := rfl
@[simp] theorem State.modSlice_mc (p : Nat) (f : Slice → Slice) : (s.modSlice p f).mc = s.mc := rfl
@[simp] theorem State.modSlice_fab (p : Nat) (f : Slice → Slice) : (s.modSlice p f).fab = s.fab := rfl
@[simp] theorem State.modSlice_ports (p : Nat) (f : Slice → Slice) : (s.modSlice p f).ports = s.ports := rfl
@[simp] theorem State.modSlice_blp (p : Nat) (f : Slice → Slice) : (s.modSlice p f).blp = s.blp := rfl
@[simp] theorem State.modSlice_slices (p : Nat) (f : Slice → Slice) : (s.modSlice p f).slices = Tab.upd Slice.reset s.slices p f := rfl
@[simp] theorem State.modSlice_therm (p : Nat) (f : Slice → Slice) : (s.modSlice p f).therm = s.therm := rfl
@[simp] theorem State.modSlice_stk (p : Nat) (f : Slice → Slice) : (s.modSlice p f).stk = s.stk := rfl
@[simp] theorem State.modSlice_det (p : Nat) (f : Slice → Slice) : (s.modSlice p f).det = s.det := rfl
@[simp] theorem State.modSlice_ring (p : Nat) (f : Slice → Slice) : (s.modSlice p f).ring = s.ring := rfl
@[simp] theorem State.modSlice_wrap (p : Nat) (f : Slice → Slice) : (s.modSlice p f).wrap = s.wrap := rfl
@[simp] theorem State.modSlice_mem (p : Nat) (f : Slice → Slice) : (s.modSlice p f).mem = s.mem := rfl

@[simp] theorem State.setPort_pending (k : Nat) (x : Port) : (s.setPort k x).pending = s.pending := rfl
@[simp] theorem State.setPort_sys (k : Nat) (x : Port) : (s.setPort k x).sys = s.sys := rfl
@[simp] theorem State.setPort_ctl (k : Nat) (x : Port) : (s.setPort k x).ctl = s.ctl := rfl
@[simp] theorem State.setPort_mbx (k : Nat) (x : Port) : (s.setPort k x).mbx = s.mbx := rfl
@[simp] theorem State.setPort_evt (k : Nat) (x : Port) : (s.setPort k x).evt = s.evt := rfl
@[simp] theorem State.setPort_cfg (k : Nat) (x : Port) : (s.setPort k x).cfg = s.cfg := rfl
@[simp] theorem State.setPort_mc (k : Nat) (x : Port) : (s.setPort k x).mc = s.mc := rfl
@[simp] theorem State.setPort_fab (k : Nat) (x : Port) : (s.setPort k x).fab = s.fab := rfl
@[simp] theorem State.setPort_ports (k : Nat) (x : Port) : (s.setPort k x).ports = Tab.set Port.reset s.ports k x := rfl
@[simp] theorem State.setPort_blp (k : Nat) (x : Port) : (s.setPort k x).blp = s.blp := rfl
@[simp] theorem State.setPort_slices (k : Nat) (x : Port) : (s.setPort k x).slices = s.slices := rfl
@[simp] theorem State.setPort_therm (k : Nat) (x : Port) : (s.setPort k x).therm = s.therm := rfl
@[simp] theorem State.setPort_stk (k : Nat) (x : Port) : (s.setPort k x).stk = s.stk := rfl
@[simp] theorem State.setPort_det (k : Nat) (x : Port) : (s.setPort k x).det = s.det := rfl
@[simp] theorem State.setPort_ring (k : Nat) (x : Port) : (s.setPort k x).ring = s.ring := rfl
@[simp] theorem State.setPort_wrap (k : Nat) (x : Port) : (s.setPort k x).wrap = s.wrap := rfl
@[simp] theorem State.setPort_mem (k : Nat) (x : Port) : (s.setPort k x).mem = s.mem := rfl

@[simp] theorem State.modPort_pending (k : Nat) (f : Port → Port) : (s.modPort k f).pending = s.pending := rfl
@[simp] theorem State.modPort_sys (k : Nat) (f : Port → Port) : (s.modPort k f).sys = s.sys := rfl
@[simp] theorem State.modPort_ctl (k : Nat) (f : Port → Port) : (s.modPort k f).ctl = s.ctl := rfl
@[simp] theorem State.modPort_mbx (k : Nat) (f : Port → Port) : (s.modPort k f).mbx = s.mbx := rfl
@[simp] theorem State.modPort_evt (k : Nat) (f : Port → Port) : (s.modPort k f).evt = s.evt := rfl
@[simp] theorem State.modPort_cfg (k : Nat) (f : Port → Port) : (s.modPort k f).cfg = s.cfg := rfl
@[simp] theorem State.modPort_mc (k : Nat) (f : Port → Port) : (s.modPort k f).mc = s.mc := rfl
@[simp] theorem State.modPort_fab (k : Nat) (f : Port → Port) : (s.modPort k f).fab = s.fab := rfl
@[simp] theorem State.modPort_ports (k : Nat) (f : Port → Port) : (s.modPort k f).ports = Tab.upd Port.reset s.ports k f := rfl
@[simp] theorem State.modPort_blp (k : Nat) (f : Port → Port) : (s.modPort k f).blp = s.blp := rfl
@[simp] theorem State.modPort_slices (k : Nat) (f : Port → Port) : (s.modPort k f).slices = s.slices := rfl
@[simp] theorem State.modPort_therm (k : Nat) (f : Port → Port) : (s.modPort k f).therm = s.therm := rfl
@[simp] theorem State.modPort_stk (k : Nat) (f : Port → Port) : (s.modPort k f).stk = s.stk := rfl
@[simp] theorem State.modPort_det (k : Nat) (f : Port → Port) : (s.modPort k f).det = s.det := rfl
@[simp] theorem State.modPort_ring (k : Nat) (f : Port → Port) : (s.modPort k f).ring = s.ring := rfl
@[simp] theorem State.modPort_wrap (k : Nat) (f : Port → Port) : (s.modPort k f).wrap = s.wrap := rfl
@[simp] theorem State.modPort_mem (k : Nat) (f : Port → Port) : (s.modPort k f).mem = s.mem := rfl

@[simp] theorem State.setCode_pending (k : Key) (v : Code) : (s.setCode k v).pending = s.pending := rfl
@[simp] theorem State.setCode_sys (k : Key) (v : Code) : (s.setCode k v).sys = s.sys := rfl
@[simp] theorem State.setCode_ctl (k : Key) (v : Code) : (s.setCode k v).ctl = s.ctl := rfl
@[simp] theorem State.setCode_mbx (k : Key) (v : Code) : (s.setCode k v).mbx = s.mbx := rfl
@[simp] theorem State.setCode_evt (k : Key) (v : Code) : (s.setCode k v).evt = s.evt := rfl
@[simp] theorem State.setCode_cfg (k : Key) (v : Code) : (s.setCode k v).cfg = s.cfg := rfl
@[simp] theorem State.setCode_mc (k : Key) (v : Code) : (s.setCode k v).mc = s.mc := rfl
@[simp] theorem State.setCode_fab (k : Key) (v : Code) : (s.setCode k v).fab = s.fab := rfl
@[simp] theorem State.setCode_ports (k : Key) (v : Code) : (s.setCode k v).ports = s.ports := rfl
@[simp] theorem State.setCode_blp (k : Key) (v : Code) : (s.setCode k v).blp = s.blp := rfl
@[simp] theorem State.setCode_slices (k : Key) (v : Code) : (s.setCode k v).slices = s.slices := rfl
@[simp] theorem State.setCode_therm (k : Key) (v : Code) : (s.setCode k v).therm = s.therm := rfl
@[simp] theorem State.setCode_stk (k : Key) (v : Code) : (s.setCode k v).stk = s.stk := rfl
@[simp] theorem State.setCode_det (k : Key) (v : Code) : (s.setCode k v).det = s.det := rfl
@[simp] theorem State.setCode_ring (k : Key) (v : Code) : (s.setCode k v).ring = s.ring := rfl
@[simp] theorem State.setCode_wrap (k : Key) (v : Code) : (s.setCode k v).wrap = s.wrap := rfl
@[simp] theorem State.setCode_mem (k : Key) (v : Code) : (s.setCode k v).mem = Tab.set 0 s.mem k v := rfl

@[simp] theorem State.modEntry_pending (id : Nat) (g : Entry → Entry) : (s.modEntry id g).pending = s.pending := rfl
@[simp] theorem State.modEntry_sys (id : Nat) (g : Entry → Entry) : (s.modEntry id g).sys = s.sys := rfl
@[simp] theorem State.modEntry_ctl (id : Nat) (g : Entry → Entry) : (s.modEntry id g).ctl = s.ctl := rfl
@[simp] theorem State.modEntry_mbx (id : Nat) (g : Entry → Entry) : (s.modEntry id g).mbx = s.mbx := rfl
@[simp] theorem State.modEntry_evt (id : Nat) (g : Entry → Entry) : (s.modEntry id g).evt = s.evt := rfl
@[simp] theorem State.modEntry_cfg (id : Nat) (g : Entry → Entry) : (s.modEntry id g).cfg = s.cfg := rfl
@[simp] theorem State.modEntry_mc (id : Nat) (g : Entry → Entry) : (s.modEntry id g).mc = s.mc := rfl
@[simp] theorem State.modEntry_fab (id : Nat) (g : Entry → Entry) : (s.modEntry id g).fab = s.fab.modEntry id g := rfl
@[simp] theorem State.modEntry_ports (id : Nat) (g : Entry → Entry) : (s.modEntry id g).ports = s.ports := rfl
@[simp] theorem State.modEntry_blp (id : Nat) (g : Entry → Entry) : (s.modEntry id g).blp = s.blp := rfl
@[simp] theorem State.modEntry_slices (id : Nat) (g : Entry → Entry) : (s.modEntry id g).slices = s.slices := rfl
@[simp] theorem State.modEntry_therm (id : Nat) (g : Entry → Entry) : (s.modEntry id g).therm = s.therm := rfl
@[simp] theorem State.modEntry_stk (id : Nat) (g : Entry → Entry) : (s.modEntry id g).stk = s.stk := rfl
@[simp] theorem State.modEntry_det (id : Nat) (g : Entry → Entry) : (s.modEntry id g).det = s.det := rfl
@[simp] theorem State.modEntry_ring (id : Nat) (g : Entry → Entry) : (s.modEntry id g).ring = s.ring := rfl
@[simp] theorem State.modEntry_wrap (id : Nat) (g : Entry → Entry) : (s.modEntry id g).wrap = s.wrap := rfl
@[simp] theorem State.modEntry_mem (id : Nat) (g : Entry → Entry) : (s.modEntry id g).mem = s.mem := rfl

@[simp] theorem State.modSch_pending (p : Nat) (f : Sched → Sched) : (s.modSch p f).pending = s.pending := rfl
@[simp] theorem State.modSch_sys (p : Nat) (f : Sched → Sched) : (s.modSch p f).sys = s.sys := rfl
@[simp] theorem State.modSch_ctl (p : Nat) (f : Sched → Sched) : (s.modSch p f).ctl = s.ctl := rfl
@[simp] theorem State.modSch_mbx (p : Nat) (f : Sched → Sched) : (s.modSch p f).mbx = s.mbx := rfl
@[simp] theorem State.modSch_evt (p : Nat) (f : Sched → Sched) : (s.modSch p f).evt = s.evt := rfl
@[simp] theorem State.modSch_cfg (p : Nat) (f : Sched → Sched) : (s.modSch p f).cfg = s.cfg := rfl
@[simp] theorem State.modSch_mc (p : Nat) (f : Sched → Sched) : (s.modSch p f).mc = s.mc := rfl
@[simp] theorem State.modSch_fab (p : Nat) (f : Sched → Sched) : (s.modSch p f).fab = s.fab := rfl
@[simp] theorem State.modSch_ports (p : Nat) (f : Sched → Sched) : (s.modSch p f).ports = s.ports := rfl
@[simp] theorem State.modSch_blp (p : Nat) (f : Sched → Sched) : (s.modSch p f).blp = s.blp := rfl
@[simp] theorem State.modSch_therm (p : Nat) (f : Sched → Sched) : (s.modSch p f).therm = s.therm := rfl
@[simp] theorem State.modSch_stk (p : Nat) (f : Sched → Sched) : (s.modSch p f).stk = s.stk := rfl
@[simp] theorem State.modSch_det (p : Nat) (f : Sched → Sched) : (s.modSch p f).det = s.det := rfl
@[simp] theorem State.modSch_ring (p : Nat) (f : Sched → Sched) : (s.modSch p f).ring = s.ring := rfl
@[simp] theorem State.modSch_wrap (p : Nat) (f : Sched → Sched) : (s.modSch p f).wrap = s.wrap := rfl
@[simp] theorem State.modSch_mem (p : Nat) (f : Sched → Sched) : (s.modSch p f).mem = s.mem := rfl

@[simp] theorem State.modDat_pending (p : Nat) (f : ChData → ChData) : (s.modDat p f).pending = s.pending := rfl
@[simp] theorem State.modDat_sys (p : Nat) (f : ChData → ChData) : (s.modDat p f).sys = s.sys := rfl
@[simp] theorem State.modDat_ctl (p : Nat) (f : ChData → ChData) : (s.modDat p f).ctl = s.ctl := rfl
@[simp] theorem State.modDat_mbx (p : Nat) (f : ChData → ChData) : (s.modDat p f).mbx = s.mbx := rfl
@[simp] theorem State.modDat_evt (p : Nat) (f : ChData → ChData) : (s.modDat p f).evt = s.evt := rfl
@[simp] theorem State.modDat_cfg (p : Nat) (f : ChData → ChData) : (s.modDat p f).cfg = s.cfg := rfl
@[simp] theorem State.modDat_mc (p : Nat) (f : ChData → ChData) : (s.modDat p f).mc = s.mc := rfl
@[simp] theorem State.modDat_fab (p : Nat) (f : ChData → ChData) : (s.modDat p f).fab = s.fab := rfl
@[simp] theorem State.modDat_ports (p : Nat) (f : ChData → ChData) : (s.modDat p f).ports = s.ports := rfl
@[simp] theorem State.modDat_blp (p : Nat) (f : ChData → ChData) : (s.modDat p f).blp = s.blp := rfl
@[simp] theorem State.modDat_therm (p : Nat) (f : ChData → ChData) : (s.modDat p f).therm = s.therm := rfl
@[simp] theorem State.modDat_stk (p : Nat) (f : ChData → ChData) : (s.modDat p f).stk = s.stk := rfl
@[simp] theorem State.modDat_det (p : Nat) (f : ChData → ChData) : (s.modDat p f).det = s.det := rfl
@[simp] theorem State.modDat_ring (p : Nat) (f : ChData → ChData) : (s.modDat p f).ring = s.ring := rfl
@[simp] theorem State.modDat_wrap (p : Nat) (f : ChData → ChData) : (s.modDat p f).wrap = s.wrap := rfl
@[simp] theorem State.modDat_mem (p : Nat) (f : ChData → ChData) : (s.modDat p f).mem = s.mem := rfl

@[simp] theorem State.modLink_pending (p : Nat) (f : Link → Link) : (s.modLink p f).pending = s.pending := rfl
@[simp] theorem State.modLink_sys (p : Nat) (f : Link → Link) : (s.modLink p f).sys = s.sys := rfl
@[simp] theorem State.modLink_ctl (p : Nat) (f : Link → Link) : (s.modLink p f).ctl = s.ctl := rfl
@[simp] theorem State.modLink_mbx (p : Nat) (f : Link → Link) : (s.modLink p f).mbx = s.mbx := rfl
@[simp] theorem State.modLink_evt (p : Nat) (f : Link → Link) : (s.modLink p f).evt = s.evt := rfl
@[simp] theorem State.modLink_cfg (p : Nat) (f : Link → Link) : (s.modLink p f).cfg = s.cfg := rfl
@[simp] theorem State.modLink_mc (p : Nat) (f : Link → Link) : (s.modLink p f).mc = s.mc := rfl
@[simp] theorem State.modLink_fab (p : Nat) (f : Link → Link) : (s.modLink p f).fab = s.fab := rfl
@[simp] theorem State.modLink_ports (p : Nat) (f : Link → Link) : (s.modLink p f).ports = s.ports := rfl
@[simp] theorem State.modLink_blp (p : Nat) (f : Link → Link) : (s.modLink p f).blp = s.blp := rfl
@[simp] theorem State.modLink_therm (p : Nat) (f : Link → Link) : (s.modLink p f).therm = s.therm := rfl
@[simp] theorem State.modLink_stk (p : Nat) (f : Link → Link) : (s.modLink p f).stk = s.stk := rfl
@[simp] theorem State.modLink_det (p : Nat) (f : Link → Link) : (s.modLink p f).det = s.det := rfl
@[simp] theorem State.modLink_ring (p : Nat) (f : Link → Link) : (s.modLink p f).ring = s.ring := rfl
@[simp] theorem State.modLink_wrap (p : Nat) (f : Link → Link) : (s.modLink p f).wrap = s.wrap := rfl
@[simp] theorem State.modLink_mem (p : Nat) (f : Link → Link) : (s.modLink p f).mem = s.mem := rfl

@[simp] theorem State.modScr_pending (p : Nat) (f : Scrub → Scrub) : (s.modScr p f).pending = s.pending := rfl
@[simp] theorem State.modScr_sys (p : Nat) (f : Scrub → Scrub) : (s.modScr p f).sys = s.sys := rfl
@[simp] theorem State.modScr_ctl (p : Nat) (f : Scrub → Scrub) : (s.modScr p f).ctl = s.ctl := rfl
@[simp] theorem State.modScr_mbx (p : Nat) (f : Scrub → Scrub) : (s.modScr p f).mbx = s.mbx := rfl
@[simp] theorem State.modScr_evt (p : Nat) (f : Scrub → Scrub) : (s.modScr p f).evt = s.evt := rfl
@[simp] theorem State.modScr_cfg (p : Nat) (f : Scrub → Scrub) : (s.modScr p f).cfg = s.cfg := rfl
@[simp] theorem State.modScr_mc (p : Nat) (f : Scrub → Scrub) : (s.modScr p f).mc = s.mc := rfl
@[simp] theorem State.modScr_fab (p : Nat) (f : Scrub → Scrub) : (s.modScr p f).fab = s.fab := rfl
@[simp] theorem State.modScr_ports (p : Nat) (f : Scrub → Scrub) : (s.modScr p f).ports = s.ports := rfl
@[simp] theorem State.modScr_blp (p : Nat) (f : Scrub → Scrub) : (s.modScr p f).blp = s.blp := rfl
@[simp] theorem State.modScr_therm (p : Nat) (f : Scrub → Scrub) : (s.modScr p f).therm = s.therm := rfl
@[simp] theorem State.modScr_stk (p : Nat) (f : Scrub → Scrub) : (s.modScr p f).stk = s.stk := rfl
@[simp] theorem State.modScr_det (p : Nat) (f : Scrub → Scrub) : (s.modScr p f).det = s.det := rfl
@[simp] theorem State.modScr_ring (p : Nat) (f : Scrub → Scrub) : (s.modScr p f).ring = s.ring := rfl
@[simp] theorem State.modScr_wrap (p : Nat) (f : Scrub → Scrub) : (s.modScr p f).wrap = s.wrap := rfl
@[simp] theorem State.modScr_mem (p : Nat) (f : Scrub → Scrub) : (s.modScr p f).mem = s.mem := rfl

@[simp] theorem State.modRep_pending (p : Nat) (f : Spare → Spare) : (s.modRep p f).pending = s.pending := rfl
@[simp] theorem State.modRep_sys (p : Nat) (f : Spare → Spare) : (s.modRep p f).sys = s.sys := rfl
@[simp] theorem State.modRep_ctl (p : Nat) (f : Spare → Spare) : (s.modRep p f).ctl = s.ctl := rfl
@[simp] theorem State.modRep_mbx (p : Nat) (f : Spare → Spare) : (s.modRep p f).mbx = s.mbx := rfl
@[simp] theorem State.modRep_evt (p : Nat) (f : Spare → Spare) : (s.modRep p f).evt = s.evt := rfl
@[simp] theorem State.modRep_cfg (p : Nat) (f : Spare → Spare) : (s.modRep p f).cfg = s.cfg := rfl
@[simp] theorem State.modRep_mc (p : Nat) (f : Spare → Spare) : (s.modRep p f).mc = s.mc := rfl
@[simp] theorem State.modRep_fab (p : Nat) (f : Spare → Spare) : (s.modRep p f).fab = s.fab := rfl
@[simp] theorem State.modRep_ports (p : Nat) (f : Spare → Spare) : (s.modRep p f).ports = s.ports := rfl
@[simp] theorem State.modRep_blp (p : Nat) (f : Spare → Spare) : (s.modRep p f).blp = s.blp := rfl
@[simp] theorem State.modRep_therm (p : Nat) (f : Spare → Spare) : (s.modRep p f).therm = s.therm := rfl
@[simp] theorem State.modRep_stk (p : Nat) (f : Spare → Spare) : (s.modRep p f).stk = s.stk := rfl
@[simp] theorem State.modRep_det (p : Nat) (f : Spare → Spare) : (s.modRep p f).det = s.det := rfl
@[simp] theorem State.modRep_ring (p : Nat) (f : Spare → Spare) : (s.modRep p f).ring = s.ring := rfl
@[simp] theorem State.modRep_wrap (p : Nat) (f : Spare → Spare) : (s.modRep p f).wrap = s.wrap := rfl
@[simp] theorem State.modRep_mem (p : Nat) (f : Spare → Spare) : (s.modRep p f).mem = s.mem := rfl

@[simp] theorem State.modBrew_pending (p : Nat) (f : BrewSeq → BrewSeq) : (s.modBrew p f).pending = s.pending := rfl
@[simp] theorem State.modBrew_sys (p : Nat) (f : BrewSeq → BrewSeq) : (s.modBrew p f).sys = s.sys := rfl
@[simp] theorem State.modBrew_ctl (p : Nat) (f : BrewSeq → BrewSeq) : (s.modBrew p f).ctl = s.ctl := rfl
@[simp] theorem State.modBrew_mbx (p : Nat) (f : BrewSeq → BrewSeq) : (s.modBrew p f).mbx = s.mbx := rfl
@[simp] theorem State.modBrew_evt (p : Nat) (f : BrewSeq → BrewSeq) : (s.modBrew p f).evt = s.evt := rfl
@[simp] theorem State.modBrew_cfg (p : Nat) (f : BrewSeq → BrewSeq) : (s.modBrew p f).cfg = s.cfg := rfl
@[simp] theorem State.modBrew_mc (p : Nat) (f : BrewSeq → BrewSeq) : (s.modBrew p f).mc = s.mc := rfl
@[simp] theorem State.modBrew_fab (p : Nat) (f : BrewSeq → BrewSeq) : (s.modBrew p f).fab = s.fab := rfl
@[simp] theorem State.modBrew_ports (p : Nat) (f : BrewSeq → BrewSeq) : (s.modBrew p f).ports = s.ports := rfl
@[simp] theorem State.modBrew_blp (p : Nat) (f : BrewSeq → BrewSeq) : (s.modBrew p f).blp = s.blp := rfl
@[simp] theorem State.modBrew_therm (p : Nat) (f : BrewSeq → BrewSeq) : (s.modBrew p f).therm = s.therm := rfl
@[simp] theorem State.modBrew_stk (p : Nat) (f : BrewSeq → BrewSeq) : (s.modBrew p f).stk = s.stk := rfl
@[simp] theorem State.modBrew_det (p : Nat) (f : BrewSeq → BrewSeq) : (s.modBrew p f).det = s.det := rfl
@[simp] theorem State.modBrew_ring (p : Nat) (f : BrewSeq → BrewSeq) : (s.modBrew p f).ring = s.ring := rfl
@[simp] theorem State.modBrew_wrap (p : Nat) (f : BrewSeq → BrewSeq) : (s.modBrew p f).wrap = s.wrap := rfl
@[simp] theorem State.modBrew_mem (p : Nat) (f : BrewSeq → BrewSeq) : (s.modBrew p f).mem = s.mem := rfl

@[simp] theorem State.nextFree_pending : (s.nextFree).pending = s.pending := rfl
@[simp] theorem State.nextFree_sys : (s.nextFree).sys = { s.sys with free := s.sys.free + 1 } := rfl
@[simp] theorem State.nextFree_ctl : (s.nextFree).ctl = s.ctl := rfl
@[simp] theorem State.nextFree_mbx : (s.nextFree).mbx = s.mbx := rfl
@[simp] theorem State.nextFree_evt : (s.nextFree).evt = s.evt := rfl
@[simp] theorem State.nextFree_cfg : (s.nextFree).cfg = s.cfg := rfl
@[simp] theorem State.nextFree_mc : (s.nextFree).mc = s.mc := rfl
@[simp] theorem State.nextFree_fab : (s.nextFree).fab = s.fab := rfl
@[simp] theorem State.nextFree_ports : (s.nextFree).ports = s.ports := rfl
@[simp] theorem State.nextFree_blp : (s.nextFree).blp = s.blp := rfl
@[simp] theorem State.nextFree_slices : (s.nextFree).slices = s.slices := rfl
@[simp] theorem State.nextFree_therm : (s.nextFree).therm = s.therm := rfl
@[simp] theorem State.nextFree_stk : (s.nextFree).stk = s.stk := rfl
@[simp] theorem State.nextFree_det : (s.nextFree).det = s.det := rfl
@[simp] theorem State.nextFree_ring : (s.nextFree).ring = s.ring := rfl
@[simp] theorem State.nextFree_wrap : (s.nextFree).wrap = s.wrap := rfl
@[simp] theorem State.nextFree_mem : (s.nextFree).mem = s.mem := rfl

/-! ### One island, port or access after an update -/

/-- A port reads as written. -/
theorem State.port_setPort {s : State} (h : Tab.wf Port.reset s.ports = true) (k : Nat) (x : Port) :
    (s.setPort k x).port k = x := Tab.get_set_self x h

/-- The other ports stay. -/
theorem State.port_setPort_ne {k j : Nat} (x : Port) (h : j ≠ k) : (s.setPort k x).port j = s.port j :=
  Tab.get_set_ne x h

/-- A port reads as changed. -/
theorem State.port_modPort {s : State} (h : Tab.wf Port.reset s.ports = true) (k : Nat) (f : Port → Port) :
    (s.modPort k f).port k = f (s.port k) := Tab.get_set_self _ h

/-- The other ports stay. -/
theorem State.port_modPort_ne {k j : Nat} (f : Port → Port) (h : j ≠ k) : (s.modPort k f).port j = s.port j :=
  Tab.get_set_ne _ h

/-- An island reads as written. -/
theorem State.slice_setSlice {s : State} (h : Tab.wf Slice.reset s.slices = true) (p : Nat) (x : Slice) :
    (s.setSlice p x).slice p = x := Tab.get_set_self x h

/-- The other islands stay. -/
theorem State.slice_setSlice_ne {p q : Nat} (x : Slice) (h : q ≠ p) : (s.setSlice p x).slice q = s.slice q :=
  Tab.get_set_ne x h

/-- An island reads as changed. -/
theorem State.slice_modSlice {s : State} (h : Tab.wf Slice.reset s.slices = true) (p : Nat) (f : Slice → Slice) :
    (s.modSlice p f).slice p = f (s.slice p) := Tab.get_set_self _ h

/-- The other islands stay. -/
theorem State.slice_modSlice_ne {p q : Nat} (f : Slice → Slice) (h : q ≠ p) : (s.modSlice p f).slice q = s.slice q :=
  Tab.get_set_ne _ h

/-- An access reads as written. -/
theorem State.code_setCode {s : State} (h : Memory.wf s.mem = true) (k : Key) (v : Code) : (s.setCode k v).code k = v :=
  Tab.get_set_self v h

/-- The other accesses stay. -/
theorem State.code_setCode_ne {k j : Key} (v : Code) (h : j ≠ k) : (s.setCode k v).code j = s.code j :=
  Tab.get_set_ne v h

/-- A write of one access keeps the canonical form of the memory arrays. -/
theorem Memory.wf_setCode {s : State} (h : Memory.wf s.mem = true) (k : Key) (v : Code) :
    Memory.wf (s.setCode k v).mem = true := Tab.set_wf h

/-- Clearing whole slices keeps it. -/
theorem Memory.wf_drop {m : Tab Code} (h : Memory.wf m = true) (p : Nat → Bool) : Memory.wf (Tab.drop p m) = true :=
  Tab.drop_wf h

/-- The memory arrays at reset have it. -/
theorem Memory.wf_reset : Memory.wf State.reset.mem = true := rfl

end Sys2Proof.Machine
end

