-- ==== Sys2Proof/Laws/Kept.lean ====
section
/-! SUPPORT. What every operation keeps: the canonical form of the state (`State.Canon`) and the queue of waiting
commands. This file has the parts of it, the basic updates, and the steps that the proofs of Laws/Kept*.lean are made of. -/

namespace Sys2Proof.Machine

/-- The state is in canonical form and its queue is `cmds`. -/
def State.Kept (cmds : List Instr) (s : State) : Prop := s.Canon ∧ s.pending = cmds

/-! ### The parts of the form -/

theorem State.Kept.mem {cmds : List Instr} {s : State} (h : s.Kept cmds) : Memory.wf s.mem = true := h.1.1

theorem State.Kept.ports {cmds : List Instr} {s : State} (h : s.Kept cmds) : Tab.wf Port.reset s.ports = true := h.1.2.1

theorem State.Kept.slices {cmds : List Instr} {s : State} (h : s.Kept cmds) : Tab.wf Slice.reset s.slices = true := h.1.2.2.1

theorem State.Kept.tlm {cmds : List Instr} {s : State} (h : s.Kept cmds) : Tab.wf Ctr.reset s.ctl.tlm = true := h.1.2.2.2.1

theorem State.Kept.recs {cmds : List Instr} {s : State} (h : s.Kept cmds) : s.evt.recs.length ≤ 256 := h.1.2.2.2.2

theorem State.Kept.queue {cmds : List Instr} {s : State} (h : s.Kept cmds) : s.pending = cmds := h.2

/-- The form from its parts. -/
theorem State.Kept.of {cmds : List Instr} {s : State} (h1 : Memory.wf s.mem = true) (h2 : Tab.wf Port.reset s.ports = true)
    (h3 : Tab.wf Slice.reset s.slices = true) (h4 : Tab.wf Ctr.reset s.ctl.tlm = true) (h5 : s.evt.recs.length ≤ 256)
    (h6 : s.pending = cmds) : s.Kept cmds := ⟨⟨h1, h2, h3, h4, h5⟩, h6⟩

/-! ### Updates of one part -/

section
variable {cmds : List Instr} {s : State} (h : s.Kept cmds)
include h

theorem State.modFab_kept (f : Fab → Fab) : (s.modFab f).Kept cmds := h
theorem State.modMbx_kept (f : Mbx → Mbx) : (s.modMbx f).Kept cmds := h
theorem State.modSys_kept (f : Sys → Sys) : (s.modSys f).Kept cmds := h
theorem State.modStk_kept (f : Stack → Stack) : (s.modStk f).Kept cmds := h
theorem State.modDet_kept (f : Det → Det) : (s.modDet f).Kept cmds := h
theorem State.modTherm_kept (f : Therm → Therm) : (s.modTherm f).Kept cmds := h
theorem State.modRing_kept (f : Ring → Ring) : (s.modRing f).Kept cmds := h
theorem State.modBlp_kept (f : Blp → Blp) : (s.modBlp f).Kept cmds := h
theorem State.nextFree_kept : s.nextFree.Kept cmds := h
theorem State.modEntry_kept (id : Nat) (g : Entry → Entry) : (s.modEntry id g).Kept cmds := h
theorem State.freeEntry_kept (id : Nat) : (s.freeEntry id).Kept cmds := h

theorem State.modCtl_kept {f : Ctl → Ctl} (hf : ∀ c, Tab.wf Ctr.reset c.tlm = true → Tab.wf Ctr.reset (f c).tlm = true) :
    (s.modCtl f).Kept cmds := .of h.mem h.ports h.slices (hf _ h.tlm) h.recs h.queue

theorem State.setSlice_kept (p : Nat) (x : Slice) : (s.setSlice p x).Kept cmds :=
  .of h.mem h.ports (Tab.set_wf h.slices) h.tlm h.recs h.queue

theorem State.modSlice_kept (p : Nat) (f : Slice → Slice) : (s.modSlice p f).Kept cmds := State.setSlice_kept h p _
theorem State.modSch_kept (p : Nat) (f : Sched → Sched) : (s.modSch p f).Kept cmds := State.setSlice_kept h p _
theorem State.modDat_kept (p : Nat) (f : ChData → ChData) : (s.modDat p f).Kept cmds := State.setSlice_kept h p _
theorem State.modLink_kept (p : Nat) (f : Link → Link) : (s.modLink p f).Kept cmds := State.setSlice_kept h p _
theorem State.sendRow_kept (p op fields : Nat) : (s.sendRow p op fields).Kept cmds := State.setSlice_kept h p _
theorem State.sendCol_kept (p op fields : Nat) : (s.sendCol p op fields).Kept cmds := State.setSlice_kept h p _
theorem State.modScr_kept (p : Nat) (f : Scrub → Scrub) : (s.modScr p f).Kept cmds := State.setSlice_kept h p _
theorem State.modRep_kept (p : Nat) (f : Spare → Spare) : (s.modRep p f).Kept cmds := State.setSlice_kept h p _
theorem State.modBrew_kept (p : Nat) (f : BrewSeq → BrewSeq) : (s.modBrew p f).Kept cmds := State.setSlice_kept h p _

theorem State.setPort_kept (k : Nat) (x : Port) : (s.setPort k x).Kept cmds :=
  .of h.mem (Tab.set_wf h.ports) h.slices h.tlm h.recs h.queue

theorem State.modPort_kept (k : Nat) (f : Port → Port) : (s.modPort k f).Kept cmds := State.setPort_kept h k _

theorem State.setCode_kept (k : Key) (v : Code) : (s.setCode k v).Kept cmds :=
  .of (Tab.set_wf h.mem) h.ports h.slices h.tlm h.recs h.queue

theorem State.addEntry_kept (e : Entry) : (s.addEntry e).Kept cmds := h

/-- A record leaves a log of at most 256 (R768, R769). -/
theorem State.event_kept (e : Ev) (u d : Nat) : (s.event e u d).Kept cmds := by
  unfold State.event
  split
  · exact h
  · rename_i hl
    refine .of h.mem h.ports h.slices h.tlm ?_ h.queue
    simp [State.logFull, State.icqFull, icqDeep] at hl
    simp only [Evt.push, List.length_append, List.length_singleton]
    omega

end

/-- A function of the state that keeps the form. -/
def State.Keeps (cmds : List Instr) (f : State → State) : Prop := ∀ s, s.Kept cmds → (f s).Kept cmds

theorem State.Keeps.mk {cmds : List Instr} {f : State → State} (h : ∀ s, s.Kept cmds → (f s).Kept cmds) : State.Keeps cmds f := h

theorem State.Keeps.kept {cmds : List Instr} {s : State} {f : State → State} (h : State.Keeps cmds f) (hs : s.Kept cmds) : (f s).Kept cmds := h s hs

/-- What every turn of a loop keeps, the loop keeps. -/
theorem State.each_kept {cmds : List Instr} {α : Type} {s : State} {l : List α} {f : State → α → State} (h : s.Kept cmds)
    (hf : ∀ a, State.Keeps cmds fun s => f s a) : (s.each l f).Kept cmds := by
  unfold State.each
  induction l generalizing s with
  | nil => exact h
  | cons a l ih => exact ih (hf a s h)

/-- The same for a fold written out. -/
theorem State.foldl_kept {cmds : List Instr} {α : Type} {s : State} {l : List α} {f : State → α → State} (h : s.Kept cmds)
    (hf : ∀ a, State.Keeps cmds fun s => f s a) : (l.foldl f s).Kept cmds := State.each_kept h hf

/-- The state after reset has it. -/
theorem State.reset_kept : State.reset.Kept [] := .of rfl rfl rfl rfl (Nat.zero_le _) rfl

/-- The same for a fold that carries more than the state. -/
theorem List.foldl_kept {cmds : List Instr} {α β : Type} {l : List α} {f : State × β → α → State × β} {x : State × β} (h : x.1.Kept cmds)
    (hf : ∀ x a, x.1.Kept cmds → (f x a).1.Kept cmds) : (l.foldl f x).1.Kept cmds := by
  induction l generalizing x with
  | nil => exact h
  | cons a l ih => exact ih (hf x a h)

/-- What an outcome's next state has. -/
def Res.Ok (P : State → Prop) : Res → Prop
  | .next t => P t
  | .fault _ => True
  | .refused _ => True

/-! ### Steps of a proof that a definition keeps the form, one for each way a definition is written -/

theorem State.kept_ite {cmds : List Instr} {c : Prop} [Decidable c] {a b : State} (ha : a.Kept cmds) (hb : b.Kept cmds) :
    (if c then a else b).Kept cmds := by
  split <;> assumption

theorem State.kept_cut (cmds : List Instr) (s : State) {P : Prop} (hs : s.Kept cmds) (h : s.Kept cmds → P) : P := h hs

theorem Res.ok_next {P : State → Prop} {t : State} (h : P t) : Res.Ok P (.next t) := h

theorem Res.ok_ite {P : State → Prop} {c : Prop} [Decidable c] {a b : Res} (ha : Res.Ok P a) (hb : Res.Ok P b) :
    Res.Ok P (if c then a else b) := by
  split <;> assumption

/-- Adding to a counter keeps the form (R773). -/
theorem State.count_kept {cmds : List Instr} {s : State} (h : s.Kept cmds) (top : Nat) (e : Ev) (page slot n : Nat) :
    (s.count top e page slot n).Kept cmds := by
  delta State.count
  repeat' first
    | with_reducible assumption
    | (intro x; refine State.kept_cut cmds x ?_ fun _ => ?_; rotate_left; clear_value x; rotate_left; subst x)
    | lift_lets -underBinder
    | (intro x; clear_value x)
    | intro x
    | with_reducible apply State.event_kept
    | with_reducible apply State.kept_ite
    | (refine State.Kept.of ?_ ?_ ?_ ?_ ?_ ?_ <;> dsimp only)
    | with_reducible apply Tab.set_wf
    | with_reducible apply State.Kept.mem
    | with_reducible apply State.Kept.ports
    | with_reducible apply State.Kept.slices
    | with_reducible apply State.Kept.tlm
    | with_reducible apply State.Kept.recs
    | with_reducible apply State.Kept.queue

end Sys2Proof.Machine
end

