-- ==== Sys2Proof/Laws/KeptFabric.lean ====
section
/-! SUPPORT. Every definition keeps the canonical form and the queue (`State.Kept`): the fabric island, the ports, and what the channel islands share. -/

set_option linter.unusedTactic false
set_option linter.unreachableTactic false

namespace Sys2Proof.Machine

/-! ### Ops -/

theorem State.modIcq_kept {cmds : List Instr} {s : State} (h : s.Kept cmds) (q i : Nat) (f : Icq → Icq) :
    (State.modIcq s q i f).Kept cmds := h

theorem State.icqDelay_kept {cmds : List Instr} {s : State} (h : s.Kept cmds) (q i : Nat) :
    (State.icqDelay s q i).Kept cmds := by
  delta State.icqDelay
  repeat' first
    | with_reducible assumption | lift_lets -underBinder
      | (intro x; refine State.kept_cut cmds x ?_ fun _ => ?_; rotate_left; clear_value x; rotate_left; subst x)
      | with_reducible apply State.modIcq_kept | with_reducible apply State.kept_ite | (intro x; clear_value x)
      | intro x | split

theorem State.icqWrite_kept {cmds : List Instr} {s : State} (h : s.Kept cmds) (q i : Nat) :
    (State.icqWrite s q i).Kept cmds := by
  delta State.icqWrite
  repeat' first
    | with_reducible assumption | lift_lets -underBinder
      | (intro x; refine State.kept_cut cmds x ?_ fun _ => ?_; rotate_left; clear_value x; rotate_left; subst x)
      | with_reducible apply State.modIcq_kept | with_reducible apply State.icqDelay_kept | (intro x; clear_value x)
      | intro x

theorem State.icqFree_kept {cmds : List Instr} {s : State} (h : s.Kept cmds) (q i n : Nat) :
    (State.icqFree s q i n).Kept cmds := by
  delta State.icqFree
  repeat' first
    | with_reducible assumption | lift_lets -underBinder
      | (intro x; refine State.kept_cut cmds x ?_ fun _ => ?_; rotate_left; clear_value x; rotate_left; subst x)
      | with_reducible apply State.modIcq_kept | with_reducible apply State.kept_ite | (intro x; clear_value x)
      | intro x | split

theorem State.icqRelease_kept {cmds : List Instr} {s : State} (h : s.Kept cmds) (q i n : Nat) :
    (State.icqRelease s q i n).Kept cmds := by
  delta State.icqRelease
  repeat' first
    | with_reducible assumption | lift_lets -underBinder
      | (intro x; refine State.kept_cut cmds x ?_ fun _ => ?_; rotate_left; clear_value x; rotate_left; subst x)
      | with_reducible apply State.modIcq_kept | with_reducible apply State.icqFree_kept | (intro x; clear_value x)
      | intro x

theorem State.icqPass_kept {cmds : List Instr} {s : State} (h : s.Kept cmds) (q i : Nat) :
    (State.icqPass s q i).Kept cmds := h

theorem State.emptyIcqs_kept {cmds : List Instr} {s : State} (h : s.Kept cmds) :
    (State.emptyIcqs s).Kept cmds := h

theorem State.reportBy_kept {cmds : List Instr} {s : State} (h : s.Kept cmds) (q i ps : Nat) (e : Ev) (unit detail : Nat) :
    (State.reportBy s q i ps e unit detail).Kept cmds := by
  delta State.reportBy
  repeat' first
    | with_reducible assumption | lift_lets -underBinder
      | (intro x; refine State.kept_cut cmds x ?_ fun _ => ?_; rotate_left; clear_value x; rotate_left; subst x)
      | with_reducible apply State.icqPass_kept | with_reducible apply State.event_kept
      | with_reducible apply State.kept_ite | (intro x; clear_value x) | intro x
      | (refine State.Kept.of ?_ ?_ ?_ ?_ ?_ ?_ <;> dsimp only) | with_reducible apply State.Kept.mem
      | with_reducible apply State.Kept.ports | with_reducible apply State.Kept.slices
      | with_reducible apply State.Kept.tlm | with_reducible apply State.Kept.recs
      | with_reducible apply State.Kept.queue | split

theorem State.report_kept {cmds : List Instr} {s : State} (h : s.Kept cmds) (p : Nat) (e : Ev) (unit detail : Nat) :
    (State.report s p e unit detail).Kept cmds := by
  delta State.report
  repeat' first
    | with_reducible assumption | with_reducible apply State.reportBy_kept | intro x

theorem State.reportFab_kept {cmds : List Instr} {s : State} (h : s.Kept cmds) (e : Ev) (unit detail : Nat) :
    (State.reportFab s e unit detail).Kept cmds := by
  delta State.reportFab
  repeat' first
    | with_reducible assumption | with_reducible apply State.reportBy_kept | intro x

theorem State.readReports_kept {cmds : List Instr} {s : State} (h : s.Kept cmds) :
    (State.readReports s).Kept cmds := by
  delta State.readReports
  repeat' first
    | with_reducible assumption | lift_lets -underBinder
      | (intro x; refine State.kept_cut cmds x ?_ fun _ => ?_; rotate_left; clear_value x; rotate_left; subst x)
      | with_reducible apply State.each_kept | with_reducible apply State.event_kept
      | (refine State.Keeps.mk fun _ _ => ?_) | (intro x; clear_value x) | intro x
      | (refine State.Kept.of ?_ ?_ ?_ ?_ ?_ ?_ <;> dsimp only) | with_reducible apply State.Kept.mem
      | with_reducible apply State.Kept.ports | with_reducible apply State.Kept.slices
      | with_reducible apply State.Kept.tlm | with_reducible apply State.Kept.recs
      | with_reducible apply State.Kept.queue

theorem State.reportDrops_kept {cmds : List Instr} {s : State} (h : s.Kept cmds) :
    (State.reportDrops s).Kept cmds := by
  delta State.reportDrops
  repeat' first
    | with_reducible assumption | lift_lets -underBinder
      | (intro x; refine State.kept_cut cmds x ?_ fun _ => ?_; rotate_left; clear_value x; rotate_left; subst x)
      | with_reducible apply State.event_kept | with_reducible apply State.kept_ite | (intro x; clear_value x)
      | intro x | (refine State.Kept.of ?_ ?_ ?_ ?_ ?_ ?_ <;> dsimp only) | with_reducible apply State.Kept.mem
      | with_reducible apply State.Kept.ports | with_reducible apply State.Kept.slices
      | with_reducible apply State.Kept.tlm | with_reducible apply State.Kept.recs
      | with_reducible apply State.Kept.queue | split

theorem State.stat_kept {cmds : List Instr} {s : State} (h : s.Kept cmds) (page slot n : Nat) :
    (State.stat s page slot n).Kept cmds := by
  delta State.stat
  repeat' first
    | with_reducible assumption | with_reducible apply State.count_kept | intro x

theorem State.errCount_kept {cmds : List Instr} {s : State} (h : s.Kept cmds) (page slot n : Nat) :
    (State.errCount s page slot n).Kept cmds := by
  delta State.errCount
  repeat' first
    | with_reducible assumption | with_reducible apply State.count_kept | intro x

theorem State.statSlice_kept {cmds : List Instr} {s : State} (h : s.Kept cmds) (p slot n : Nat) :
    (State.statSlice s p slot n).Kept cmds := by
  delta State.statSlice
  repeat' first
    | with_reducible assumption | with_reducible apply State.stat_kept | intro x

theorem State.statChan_kept {cmds : List Instr} {s : State} (h : s.Kept cmds) (c slot n : Nat) :
    (State.statChan s c slot n).Kept cmds := by
  delta State.statChan
  repeat' first
    | with_reducible assumption | with_reducible apply State.stat_kept | intro x

theorem State.statMeter_kept {cmds : List Instr} {s : State} (h : s.Kept cmds) (m i n : Nat) :
    (State.statMeter s m i n).Kept cmds := by
  delta State.statMeter
  repeat' first
    | with_reducible assumption | with_reducible apply State.stat_kept | intro x

theorem State.statSub_kept {cmds : List Instr} {s : State} (h : s.Kept cmds) (k slot n : Nat) :
    (State.statSub s k slot n).Kept cmds := by
  delta State.statSub
  repeat' first
    | with_reducible assumption | with_reducible apply State.stat_kept | intro x

theorem State.readBit_kept {cmds : List Instr} {s : State} (h : s.Kept cmds) (c bank row : Nat) :
    (State.readBit s c bank row).Kept cmds := by
  delta State.readBit
  repeat' first
    | with_reducible assumption | lift_lets -underBinder
      | (intro x; refine State.kept_cut cmds x ?_ fun _ => ?_; rotate_left; clear_value x; rotate_left; subst x)
      | with_reducible apply State.modFab_kept | with_reducible apply State.errCount_kept
      | with_reducible apply State.foldl_kept | with_reducible apply List.foldl_kept
      | with_reducible apply State.kept_ite | (intro x; clear_value x) | intro x | split

theorem State.takeNumber_kept {cmds : List Instr} {s : State} (h : s.Kept cmds) :
    (State.takeNumber s).Kept cmds := by
  delta State.takeNumber
  repeat' first
    | with_reducible assumption | lift_lets -underBinder
      | (intro x; refine State.kept_cut cmds x ?_ fun _ => ?_; rotate_left; clear_value x; rotate_left; subst x)
      | with_reducible apply State.modFab_kept | (intro x; clear_value x) | intro x

/-! ### Region -/

theorem State.setRemap_kept {cmds : List Instr} {s : State} (h : s.Kept cmds) (c : Nat) (e : Remap) :
    (State.setRemap s c e).Kept cmds := h

/-! ### RingNet -/

theorem State.ringSend_kept {cmds : List Instr} {s : State} (h : s.Kept cmds) (fs : List (List (BitVec 16))) :
    (State.ringSend s fs).Kept cmds := by
  delta State.ringSend
  repeat' first
    | with_reducible assumption | lift_lets -underBinder
      | (intro x; refine State.kept_cut cmds x ?_ fun _ => ?_; rotate_left; clear_value x; rotate_left; subst x)
      | with_reducible apply State.modRing_kept | with_reducible apply State.kept_ite | (intro x; clear_value x)
      | intro x | split

theorem State.sendBudgets_kept {cmds : List Instr} {s : State} (h : s.Kept cmds) :
    (State.sendBudgets s).Kept cmds := by
  delta State.sendBudgets
  repeat' first
    | with_reducible assumption | lift_lets -underBinder
      | (intro x; refine State.kept_cut cmds x ?_ fun _ => ?_; rotate_left; clear_value x; rotate_left; subst x)
      | with_reducible apply State.modStk_kept | with_reducible apply State.modRing_kept
      | with_reducible apply State.nextFree_kept | with_reducible apply State.ringSend_kept
      | with_reducible apply State.kept_ite | (intro x; clear_value x) | intro x | split

theorem State.renewBudgets_kept {cmds : List Instr} {s : State} (h : s.Kept cmds) :
    (State.renewBudgets s).Kept cmds := by
  delta State.renewBudgets
  repeat' first
    | with_reducible assumption | with_reducible apply State.sendBudgets_kept | with_reducible apply State.kept_ite
      | intro x | split

theorem State.setMember_kept {cmds : List Instr} {s : State} (h : s.Kept cmds) (i : Nat) (m : Option Member) :
    (State.setMember s i m).Kept cmds := by
  delta State.setMember
  repeat' first
    | with_reducible assumption | lift_lets -underBinder
      | (intro x; refine State.kept_cut cmds x ?_ fun _ => ?_; rotate_left; clear_value x; rotate_left; subst x)
      | with_reducible apply State.modRing_kept | with_reducible apply State.renewBudgets_kept
      | with_reducible apply State.kept_ite | (intro x; clear_value x) | intro x | split

theorem State.ringDrive_kept {cmds : List Instr} {s : State} (h : s.Kept cmds) (fs : List (List (BitVec 16))) :
    (State.ringDrive s fs).Kept cmds := h

theorem State.onBroadcast_kept {cmds : List Instr} {s : State} {go : State → State} (h : s.Kept cmds) (hg : State.Keeps cmds go) (src : Nat)
    (f : List (BitVec 16)) : (State.onBroadcast s src f go).Kept cmds := by
  simp only [State.onBroadcast]
  repeat' first
    | with_reducible assumption | with_reducible apply State.ringDrive_kept | with_reducible apply State.Keeps.kept hg
      | with_reducible apply State.kept_ite

theorem State.onUnicast_kept {cmds : List Instr} {s : State} {go : State → State} (h : s.Kept cmds) (hg : State.Keeps cmds go)
    (f : List (BitVec 16)) : (State.onUnicast s f go).Kept cmds :=
  State.kept_ite h (State.kept_ite (State.ringDrive_kept h _) (hg _ h))

/-! ### Digest -/

theorem State.detBreak_kept {cmds : List Instr} {s : State} (h : s.Kept cmds) (cause : Nat) :
    (State.detBreak s cause).Kept cmds := by
  delta State.detBreak
  repeat' first
    | with_reducible assumption | lift_lets -underBinder
      | (intro x; refine State.kept_cut cmds x ?_ fun _ => ?_; rotate_left; clear_value x; rotate_left; subst x)
      | with_reducible apply State.modDet_kept | with_reducible apply State.event_kept
      | with_reducible apply State.kept_ite | (intro x; clear_value x) | intro x | split

theorem State.modStream_kept {cmds : List Instr} {s : State} (h : s.Kept cmds) (i : Nat) (f : Stream → Stream) :
    (State.modStream s i f).Kept cmds := h

theorem State.contribute_kept {cmds : List Instr} {s : State} (h : s.Kept cmds) (i d : Nat) (p : Nat × BitVec 64 × Nat) :
    (State.contribute s i d p).Kept cmds := by
  delta State.contribute
  repeat' first
    | with_reducible assumption | lift_lets -underBinder
      | (intro x; refine State.kept_cut cmds x ?_ fun _ => ?_; rotate_left; clear_value x; rotate_left; subst x)
      | with_reducible apply State.stat_kept | with_reducible apply State.modStream_kept | (intro x; clear_value x)
      | intro x

theorem State.feed_kept {cmds : List Instr} {s : State} (h : s.Kept cmds) (k : Nat) (digest : Bool) (d : Nat) (a : DgAcc) (addr v n : Nat) :
    (State.feed s k digest d a addr v n).1.Kept cmds := by
  delta State.feed
  split
  · exact h
  · dsimp only
    split
    · exact h
    · exact State.contribute_kept h ..

theorem State.feedEnd_kept {cmds : List Instr} {s : State} (h : s.Kept cmds) (k : Nat) (digest : Bool) (d : Nat) (a : DgAcc) :
    (State.feedEnd s k digest d a).Kept cmds := by
  delta State.feedEnd
  repeat' first
    | with_reducible assumption | lift_lets -underBinder
      | (intro x; refine State.kept_cut cmds x ?_ fun _ => ?_; rotate_left; clear_value x; rotate_left; subst x)
      | with_reducible apply State.contribute_kept | with_reducible apply State.kept_ite | (intro x; clear_value x)
      | intro x | split

theorem State.newPd_kept {cmds : List Instr} {s : State} (h : s.Kept cmds) :
    (State.newPd s).Kept cmds := h

theorem State.lsQueue_kept {cmds : List Instr} {s : State} (h : s.Kept cmds) (typ stream : Nat) (n : BitVec 32) (d : BitVec 256) :
    (State.lsQueue s typ stream n d).Kept cmds := by
  delta State.lsQueue
  repeat' first
    | with_reducible assumption | lift_lets -underBinder
      | (intro x; refine State.kept_cut cmds x ?_ fun _ => ?_; rotate_left; clear_value x; rotate_left; subst x)
      | with_reducible apply State.modDet_kept | with_reducible apply State.event_kept
      | with_reducible apply State.stat_kept | with_reducible apply State.kept_ite | (intro x; clear_value x)
      | intro x | split

theorem State.lsCompare_kept {cmds : List Instr} {s : State} (h : s.Kept cmds) (stream : Nat) (n : BitVec 32) (a b : BitVec 256) :
    (State.lsCompare s stream n a b).Kept cmds := by
  delta State.lsCompare
  repeat' first
    | with_reducible assumption | lift_lets -underBinder
      | (intro x; refine State.kept_cut cmds x ?_ fun _ => ?_; rotate_left; clear_value x; rotate_left; subst x)
      | with_reducible apply State.modDet_kept | with_reducible apply State.event_kept
      | with_reducible apply State.stat_kept | with_reducible apply State.detBreak_kept
      | with_reducible apply State.kept_ite | (intro x; clear_value x) | intro x | split

theorem State.lsMatch_kept {cmds : List Instr} {s : State} (h : s.Kept cmds) (own : Bool) (r : LsRec) :
    (State.lsMatch s own r).Kept cmds := by
  delta State.lsMatch
  repeat' first
    | with_reducible assumption | lift_lets -underBinder
      | (intro x; refine State.kept_cut cmds x ?_ fun _ => ?_; rotate_left; clear_value x; rotate_left; subst x)
      | with_reducible apply State.modDet_kept | with_reducible apply State.event_kept
      | with_reducible apply State.stat_kept | with_reducible apply State.lsCompare_kept
      | with_reducible apply State.kept_ite | (intro x; clear_value x) | intro x | split

theorem State.aggClose_kept {cmds : List Instr} {s : State} (h : s.Kept cmds) (a : Aggr) :
    (State.aggClose s a).Kept cmds := by
  delta State.aggClose
  repeat' first
    | with_reducible assumption | lift_lets -underBinder
      | (intro x; refine State.kept_cut cmds x ?_ fun _ => ?_; rotate_left; clear_value x; rotate_left; subst x)
      | with_reducible apply State.modDet_kept | with_reducible apply State.modRing_kept
      | with_reducible apply State.kept_ite | (intro x; clear_value x) | intro x | split

theorem State.aggAdd_kept {cmds : List Instr} {s : State} (h : s.Kept cmds) (i : Nat) (n : BitVec 32) (id : Nat) (d : BitVec 256) (own : Option (BitVec 64 × BitVec 64)) :
    (State.aggAdd s i n id d own).Kept cmds := by
  delta State.aggAdd
  repeat' first
    | with_reducible assumption | lift_lets -underBinder
      | (intro x; refine State.kept_cut cmds x ?_ fun _ => ?_; rotate_left; clear_value x; rotate_left; subst x)
      | with_reducible apply State.modRing_kept | with_reducible apply State.nextFree_kept
      | with_reducible apply State.aggClose_kept | with_reducible apply State.kept_ite | (intro x; clear_value x)
      | intro x | split

theorem State.aggFence_kept {cmds : List Instr} {s : State} (h : s.Kept cmds) (i : Nat) (n : BitVec 32) (d : BitVec 256) (bytes pieces : BitVec 64) :
    (State.aggFence s i n d bytes pieces).Kept cmds := by
  delta State.aggFence
  repeat' first
    | with_reducible assumption | with_reducible apply State.ringSend_kept | with_reducible apply State.aggAdd_kept
      | with_reducible apply State.kept_ite | intro x | split

theorem State.digestFence_kept {cmds : List Instr} {s : State} (h : s.Kept cmds) (i : Nat) (fence : Option Nat) (cmd : Bool) :
    (State.digestFence s i fence cmd).Kept cmds := by
  delta State.digestFence
  repeat' first
    | with_reducible assumption | lift_lets -underBinder
      | (intro x; refine State.kept_cut cmds x ?_ fun _ => ?_; rotate_left; clear_value x; rotate_left; subst x)
      | with_reducible apply State.modDet_kept | with_reducible apply State.stat_kept
      | with_reducible apply State.modStream_kept | with_reducible apply State.lsQueue_kept
      | with_reducible apply State.lsMatch_kept | with_reducible apply State.aggFence_kept
      | with_reducible apply State.kept_ite | (intro x; clear_value x) | intro x | split

/-! ### PortOps -/

theorem State.protoError_kept {cmds : List Instr} {s : State} (h : s.Kept cmds) (k d : Nat) :
    (State.protoError s k d).Kept cmds := by
  delta State.protoError
  repeat' first
    | with_reducible assumption | with_reducible apply State.reportFab_kept | with_reducible apply State.errCount_kept
      | intro x

theorem State.placeBeats_kept {cmds : List Instr} {s : State} (h : s.Kept cmds) (k : Nat) (l : List (Nat × WBeat)) :
    (State.placeBeats s k l).Kept cmds := by
  delta State.placeBeats
  repeat' first
    | with_reducible assumption | lift_lets -underBinder
      | (intro x; refine State.kept_cut cmds x ?_ fun _ => ?_; rotate_left; clear_value x; rotate_left; subst x)
      | with_reducible apply State.modPort_kept | with_reducible apply State.modFab_kept
      | with_reducible apply State.each_kept | (refine State.Keeps.mk fun _ _ => ?_)
      | with_reducible apply State.kept_ite | (intro x; clear_value x) | intro x | split

theorem State.bindPort_kept {cmds : List Instr} {s : State} (h : s.Kept cmds) (k : Nat) :
    (State.bindPort s k).Kept cmds := by
  delta State.bindPort
  repeat' first
    | with_reducible assumption | lift_lets -underBinder
      | (intro x; refine State.kept_cut cmds x ?_ fun _ => ?_; rotate_left; clear_value x; rotate_left; subst x)
      | with_reducible apply State.modPort_kept | with_reducible apply State.placeBeats_kept
      | (intro x; clear_value x) | intro x

theorem State.acceptReq_kept {cmds : List Instr} {s : State} (h : s.Kept cmds) (k t : Nat) (r : Request) :
    (State.acceptReq s k t r).Kept cmds := by
  delta State.acceptReq
  repeat' first
    | with_reducible assumption | lift_lets -underBinder
      | (intro x; refine State.kept_cut cmds x ?_ fun _ => ?_; rotate_left; clear_value x; rotate_left; subst x)
      | with_reducible apply State.setPort_kept | with_reducible apply State.protoError_kept
      | with_reducible apply State.bindPort_kept | with_reducible apply State.kept_ite | (intro x; clear_value x)
      | intro x | split

theorem State.grantPort_kept {cmds : List Instr} {s : State} (h : s.Kept cmds) (k : Nat) :
    (State.grantPort s k).Kept cmds := by
  delta State.grantPort
  repeat' first
    | with_reducible assumption | lift_lets -underBinder
      | (intro x; refine State.kept_cut cmds x ?_ fun _ => ?_; rotate_left; clear_value x; rotate_left; subst x)
      | with_reducible apply State.modPort_kept | with_reducible apply State.kept_ite | (intro x; clear_value x)
      | intro x | split

theorem State.grantBlp_kept {cmds : List Instr} {s : State} (h : s.Kept cmds) :
    (State.grantBlp s).Kept cmds := h

/-! ### Meter -/

theorem State.setMeter_kept {cmds : List Instr} {s : State} (h : s.Kept cmds) (m : Nat) (x : Meter) :
    (State.setMeter s m x).Kept cmds := h

theorem State.setBucket_kept {cmds : List Instr} {s : State} (h : s.Kept cmds) (k : Nat) (x : Bucket) :
    (State.setBucket s k x).Kept cmds := h

theorem State.settleMeter_kept {cmds : List Instr} {s : State} (h : s.Kept cmds) (m : Nat) :
    (State.settleMeter s m).Kept cmds := h

theorem State.settleBucket_kept {cmds : List Instr} {s : State} (h : s.Kept cmds) (k : Nat) :
    (State.settleBucket s k).Kept cmds := h

theorem State.settleAll_kept {cmds : List Instr} {s : State} (h : s.Kept cmds) :
    (State.settleAll s).Kept cmds := by
  delta State.settleAll
  repeat' first
    | with_reducible assumption | lift_lets -underBinder
      | (intro x; refine State.kept_cut cmds x ?_ fun _ => ?_; rotate_left; clear_value x; rotate_left; subst x)
      | with_reducible apply State.each_kept | with_reducible apply State.setMeter_kept
      | with_reducible apply State.setBucket_kept | (refine State.Keeps.mk fun _ _ => ?_) | (intro x; clear_value x)
      | intro x

theorem State.rebase_kept {cmds : List Instr} {s : State} (h : s.Kept cmds) :
    (State.rebase s).Kept cmds := by
  delta State.rebase
  repeat' first
    | with_reducible assumption | lift_lets -underBinder
      | (intro x; refine State.kept_cut cmds x ?_ fun _ => ?_; rotate_left; clear_value x; rotate_left; subst x)
      | with_reducible apply State.modFab_kept | with_reducible apply State.each_kept
      | with_reducible apply State.setMeter_kept | with_reducible apply State.setBucket_kept
      | (refine State.Keeps.mk fun _ _ => ?_) | with_reducible apply State.kept_ite | (intro x; clear_value x)
      | intro x | split

theorem State.initMeters_kept {cmds : List Instr} {s : State} (h : s.Kept cmds) (ks : List Nat) :
    (State.initMeters s ks).Kept cmds := by
  delta State.initMeters
  repeat' first
    | with_reducible assumption | lift_lets -underBinder
      | (intro x; refine State.kept_cut cmds x ?_ fun _ => ?_; rotate_left; clear_value x; rotate_left; subst x)
      | with_reducible apply State.each_kept | with_reducible apply State.setMeter_kept
      | with_reducible apply State.setBucket_kept | with_reducible apply State.reset_kept
      | (refine State.Keeps.mk fun _ _ => ?_) | with_reducible apply State.kept_ite | (intro x; clear_value x)
      | intro x | split

theorem State.lateCharge_kept {cmds : List Instr} {s : State} (h : s.Kept cmds) (k svc c : Nat) :
    (State.lateCharge s k svc c).Kept cmds := by
  delta State.lateCharge
  repeat' first
    | with_reducible assumption | lift_lets -underBinder
      | (intro x; refine State.kept_cut cmds x ?_ fun _ => ?_; rotate_left; clear_value x; rotate_left; subst x)
      | with_reducible apply State.statMeter_kept | with_reducible apply State.setMeter_kept
      | with_reducible apply State.setBucket_kept | with_reducible apply State.settleMeter_kept
      | with_reducible apply State.settleBucket_kept | with_reducible apply State.kept_ite | (intro x; clear_value x)
      | intro x | split

theorem State.passHead_kept {cmds : List Instr} {s : State} (h : s.Kept cmds) (q : Shaped) (col : Colour) :
    (State.passHead s q col).Kept cmds := h

theorem State.placeBucket_kept {cmds : List Instr} {s : State} (h : s.Kept cmds) (k : Nat) :
    (State.placeBucket s k).Kept cmds := by
  delta State.placeBucket
  repeat' first
    | with_reducible assumption | lift_lets -underBinder
      | (intro x; refine State.kept_cut cmds x ?_ fun _ => ?_; rotate_left; clear_value x; rotate_left; subst x)
      | with_reducible apply State.setBucket_kept | (intro x; clear_value x) | intro x

theorem State.testHead_kept {cmds : List Instr} {s : State} (h : s.Kept cmds) (k svc : Nat) :
    (State.testHead s k svc).Kept cmds := by
  delta State.testHead
  repeat' first
    | with_reducible assumption | lift_lets -underBinder
      | (intro x; refine State.kept_cut cmds x ?_ fun _ => ?_; rotate_left; clear_value x; rotate_left; subst x)
      | with_reducible apply State.modFab_kept | with_reducible apply State.statMeter_kept
      | with_reducible apply State.statSub_kept | with_reducible apply State.setMeter_kept
      | with_reducible apply State.setBucket_kept | with_reducible apply State.settleMeter_kept
      | with_reducible apply State.settleBucket_kept | with_reducible apply State.passHead_kept
      | with_reducible apply State.placeBucket_kept | with_reducible apply State.kept_ite | (intro x; clear_value x)
      | intro x | split

theorem State.spend_kept {cmds : List Instr} {s t : State} (h : s.Kept cmds) {k svc c : Nat} (e : State.spend s k svc c = some t) : t.Kept cmds := by
  delta State.spend at e
  lift_lets -underBinder at e
  extract_lets m s1 r at e
  have h1 : s1.Kept cmds := h
  clear_value s1 r
  split at e
  · exact absurd e (by simp)
  · exact absurd e (by simp)
  · exact absurd e (by simp)
  · rw [← Option.some.inj e]
    exact State.statMeter_kept (State.setBucket_kept (State.setMeter_kept h1 ..) ..) ..

theorem State.spendHeld_kept {cmds : List Instr} {s : State} (h : s.Kept cmds) (k svc c : Nat) :
    (State.spendHeld s k svc c).Kept cmds := by
  delta State.spendHeld
  repeat' first
    | with_reducible assumption | lift_lets -underBinder
      | (intro x; refine State.kept_cut cmds x ?_ fun _ => ?_; rotate_left; clear_value x; rotate_left; subst x)
      | with_reducible apply State.statMeter_kept | with_reducible apply State.statSub_kept
      | with_reducible apply State.settleMeter_kept | with_reducible apply State.settleBucket_kept
      | with_reducible apply State.kept_ite | (intro x; clear_value x) | intro x | split

/-! ### ChanOps -/

theorem State.spendRow_kept {cmds : List Instr} {s t : State} (h : s.Kept cmds) {c : Nat} (e : State.spendRow s c = some t) : t.Kept cmds := by
  delta State.spendRow at e
  split at e
  · obtain ⟨u, hu, rfl⟩ := Option.map_eq_some_iff.1 e
    exact State.modFab_kept (State.spend_kept h hu) _
  · exact absurd e (by simp)

theorem State.spendRowHeld_kept {cmds : List Instr} {s : State} (h : s.Kept cmds) (c : Nat) :
    (State.spendRowHeld s c).Kept cmds := by
  delta State.spendRowHeld
  repeat' first
    | with_reducible assumption | with_reducible apply State.statChan_kept | with_reducible apply State.spendHeld_kept
      | with_reducible apply State.kept_ite | intro x | split

theorem State.insertWin_kept {cmds : List Instr} {s : State} (h : s.Kept cmds) (p : Nat) (w : WinEnt) :
    (State.insertWin s p w).Kept cmds := by
  delta State.insertWin
  repeat' first
    | with_reducible assumption | lift_lets -underBinder
      | (intro x; refine State.kept_cut cmds x ?_ fun _ => ?_; rotate_left; clear_value x; rotate_left; subst x)
      | with_reducible apply State.modSch_kept | (intro x; clear_value x) | intro x

theorem State.insertNarrow_kept {cmds : List Instr} {s : State} (h : s.Kept cmds) (p : Nat) (w : WinEnt) :
    (State.insertNarrow s p w).Kept cmds := by
  delta State.insertNarrow
  repeat' first
    | with_reducible assumption | lift_lets -underBinder
      | (intro x; refine State.kept_cut cmds x ?_ fun _ => ?_; rotate_left; clear_value x; rotate_left; subst x)
      | with_reducible apply State.modSch_kept | (intro x; clear_value x) | intro x

theorem State.countLate_kept {cmds : List Instr} {s : State} (h : s.Kept cmds) (e : Entry) :
    (State.countLate s e).Kept cmds := by
  delta State.countLate
  repeat' first
    | with_reducible assumption | with_reducible apply State.statMeter_kept | with_reducible apply State.kept_ite
      | intro x | split

theorem State.lateOnce_kept {cmds : List Instr} {s : State} (h : s.Kept cmds) (id : Nat) :
    (State.lateOnce s id).Kept cmds := by
  delta State.lateOnce
  repeat' first
    | with_reducible assumption | lift_lets -underBinder
      | (intro x; refine State.kept_cut cmds x ?_ fun _ => ?_; rotate_left; clear_value x; rotate_left; subst x)
      | with_reducible apply State.modEntry_kept | with_reducible apply State.countLate_kept
      | with_reducible apply State.kept_ite | (intro x; clear_value x) | intro x | split

theorem State.decideEntry_kept {cmds : List Instr} {s : State} (h : s.Kept cmds) (id : Nat) (st : RspStatus) (err : BitVec 8) :
    (State.decideEntry s id st err).Kept cmds := by
  delta State.decideEntry
  repeat' first
    | with_reducible assumption
      | (intro x; refine State.kept_cut cmds x ?_ fun _ => ?_; rotate_left; clear_value x; rotate_left; subst x)
      | with_reducible apply State.modEntry_kept | with_reducible apply State.lateOnce_kept
      | with_reducible apply State.kept_ite | intro x | split

theorem State.endAccess_kept {cmds : List Instr} {s : State} (h : s.Kept cmds) (id : Nat) (k : Key) (st : RspStatus) (d : Line) :
    (State.endAccess s id k st d).Kept cmds := by
  delta State.endAccess
  repeat' first
    | with_reducible assumption | lift_lets -underBinder
      | (intro x; refine State.kept_cut cmds x ?_ fun _ => ?_; rotate_left; clear_value x; rotate_left; subst x)
      | with_reducible apply State.icqPass_kept | with_reducible apply State.modEntry_kept
      | with_reducible apply State.lateOnce_kept | (intro x; clear_value x) | intro x

/-! ### WriteData -/

theorem State.hashTaken_kept {cmds : List Instr} {s : State} (h : s.Kept cmds) (e : Entry) (d n : Nat) :
    (State.hashTaken s e d n).Kept cmds := by
  delta State.hashTaken
  repeat' first
    | with_reducible assumption | lift_lets -underBinder
      | (intro x; refine State.kept_cut cmds x ?_ fun _ => ?_; rotate_left; clear_value x; rotate_left; subst x)
      | (intro x; refine State.kept_cut x.1 ?_ fun _ => ?_; rotate_left; clear_value x; rotate_left; subst x)
      | with_reducible apply State.feed_kept | with_reducible apply State.feedEnd_kept
      | with_reducible apply State.foldl_kept | with_reducible apply List.foldl_kept
      | with_reducible apply State.kept_ite | (intro x; clear_value x) | intro x | split | dsimp only

theorem State.feedTaken_kept {cmds : List Instr} {s : State} (h : s.Kept cmds) (id : Nat) :
    (State.feedTaken s id).Kept cmds := by
  delta State.feedTaken
  repeat' first
    | with_reducible assumption | lift_lets -underBinder
      | (intro x; refine State.kept_cut cmds x ?_ fun _ => ?_; rotate_left; clear_value x; rotate_left; subst x)
      | with_reducible apply State.modEntry_kept | with_reducible apply State.hashTaken_kept
      | with_reducible apply State.kept_ite | (intro x; clear_value x) | intro x | split

theorem State.hashGhost_kept {cmds : List Instr} {s : State} (h : s.Kept cmds) (e : Entry) :
    (State.hashGhost s e).Kept cmds := by
  delta State.hashGhost
  repeat' first
    | with_reducible assumption | lift_lets -underBinder
      | (intro x; refine State.kept_cut cmds x ?_ fun _ => ?_; rotate_left; clear_value x; rotate_left; subst x)
      | with_reducible apply State.hashTaken_kept | with_reducible apply State.kept_ite | (intro x; clear_value x)
      | intro x | split

theorem State.retire_kept {cmds : List Instr} {s : State} (h : s.Kept cmds) (e : Entry) :
    (State.retire s e).Kept cmds := by
  delta State.retire
  repeat' first
    | with_reducible assumption | lift_lets -underBinder
      | (intro x; refine State.kept_cut cmds x ?_ fun _ => ?_; rotate_left; clear_value x; rotate_left; subst x)
      | with_reducible apply State.modPort_kept | with_reducible apply State.modFab_kept
      | with_reducible apply State.modBlp_kept | with_reducible apply State.freeEntry_kept
      | with_reducible apply State.hashGhost_kept | with_reducible apply State.kept_ite | (intro x; clear_value x)
      | intro x | split

theorem State.feedGhosts_kept {cmds : List Instr} {s : State} (h : s.Kept cmds) :
    (State.feedGhosts s).Kept cmds := by
  delta State.feedGhosts
  repeat' first
    | with_reducible assumption | lift_lets -underBinder
      | (intro x; refine State.kept_cut cmds x ?_ fun _ => ?_; rotate_left; clear_value x; rotate_left; subst x)
      | with_reducible apply State.modFab_kept | with_reducible apply State.each_kept
      | with_reducible apply State.hashTaken_kept | (refine State.Keeps.mk fun _ _ => ?_)
      | with_reducible apply State.kept_ite | (intro x; clear_value x) | intro x | split

theorem State.closeGhosts_kept {cmds : List Instr} {s : State} (h : s.Kept cmds) (k : Nat) :
    (State.closeGhosts s k).Kept cmds := by
  delta State.closeGhosts
  repeat' first
    | with_reducible assumption | lift_lets -underBinder
      | (intro x; refine State.kept_cut cmds x ?_ fun _ => ?_; rotate_left; clear_value x; rotate_left; subst x)
      | with_reducible apply State.modFab_kept | with_reducible apply State.each_kept
      | with_reducible apply State.hashGhost_kept | (refine State.Keeps.mk fun _ _ => ?_) | (intro x; clear_value x)
      | intro x

/-! ### DataOps -/

theorem State.decodeBy_kept {cmds : List Instr} {s : State} (h : s.Kept cmds) (l : Link) (p : Nat) (k : Key) (c : Code) (src : Nat) :
    (State.decodeBy s l p k c src).2.Kept cmds := by
  simp only [State.decodeBy]
  repeat' first
    | with_reducible assumption | with_reducible apply State.modScr_kept | with_reducible apply State.report_kept
      | with_reducible apply State.errCount_kept | with_reducible apply State.each_kept
      | with_reducible apply State.modLink_kept | (refine State.Keeps.mk fun _ _ => ?_) | intro x | split

theorem State.decode_kept {cmds : List Instr} {s : State} (h : s.Kept cmds) (p : Nat) (k : Key) (c : Code) (src : Nat) :
    (State.decode s p k c src).2.Kept cmds := State.decodeBy_kept h ..

theorem State.readQueue_kept {cmds : List Instr} {s : State} (h : s.Kept cmds) (p : Nat) :
    (State.readQueue s p).Kept cmds := by
  delta State.readQueue
  repeat' first
    | with_reducible assumption | lift_lets -underBinder
      | (intro x; refine State.kept_cut cmds x ?_ fun _ => ?_; rotate_left; clear_value x; rotate_left; subst x)
      | with_reducible apply State.modSlice_kept | with_reducible apply State.icqRelease_kept
      | with_reducible apply State.readWords_kept | with_reducible apply State.kept_ite | (intro x; clear_value x)
      | intro x | split

theorem State.corrEnter_kept {cmds : List Instr} {s : State} (h : s.Kept cmds) (p : Nat) (w : WBuf) :
    (State.corrEnter s p w).Kept cmds := by
  delta State.corrEnter
  repeat' first
    | with_reducible assumption
      | (intro x; refine State.kept_cut cmds x ?_ fun _ => ?_; rotate_left; clear_value x; rotate_left; subst x)
      | with_reducible apply State.modDat_kept | with_reducible apply State.stat_kept
      | with_reducible apply State.lateCharge_kept | intro x

theorem State.enterLine_kept {cmds : List Instr} {s : State} (h : s.Kept cmds) (p : Nat) (l : AccLine) (cause : Nat) (stay : Bool) :
    (State.enterLine s p l cause stay).Kept cmds := by
  delta State.enterLine
  repeat' first
    | with_reducible assumption | lift_lets -underBinder
      | (intro x; refine State.kept_cut cmds x ?_ fun _ => ?_; rotate_left; clear_value x; rotate_left; subst x)
      | with_reducible apply State.modDat_kept | with_reducible apply State.stat_kept
      | with_reducible apply State.kept_ite | (intro x; clear_value x) | intro x | split

theorem State.writeLine_kept {cmds : List Instr} {s : State} (h : s.Kept cmds) (p : Nat) (l : AccLine) (cause : Nat) (stay : Bool) :
    (State.writeLine s p l cause stay).Kept cmds := by
  delta State.writeLine
  repeat' first
    | with_reducible assumption | lift_lets -underBinder
      | (intro x; refine State.kept_cut cmds x ?_ fun _ => ?_; rotate_left; clear_value x; rotate_left; subst x)
      | with_reducible apply State.modDat_kept | with_reducible apply State.enterLine_kept
      | with_reducible apply State.kept_ite | (intro x; clear_value x) | intro x | split

theorem State.evict_kept {cmds : List Instr} {s : State} (h : s.Kept cmds) (p : Nat) (l : AccLine) (cause : Nat) :
    (State.evict s p l cause).Kept cmds := by
  delta State.evict
  repeat' first
    | with_reducible assumption | with_reducible apply State.writeLine_kept | intro x

theorem State.fillOne_kept {cmds : List Instr} {s : State} (h : s.Kept cmds) (p : Nat) :
    (State.fillOne s p).Kept cmds := by
  delta State.fillOne
  repeat' first
    | with_reducible assumption | lift_lets -underBinder
      | (intro x; refine State.kept_cut cmds x ?_ fun _ => ?_; rotate_left; clear_value x; rotate_left; subst x)
      | with_reducible apply State.modDat_kept | with_reducible apply State.evict_kept
      | with_reducible apply State.kept_ite | (intro x; clear_value x) | intro x
      | (refine State.Kept.of ?_ ?_ ?_ ?_ ?_ ?_ <;> dsimp only) | with_reducible apply State.Kept.mem
      | with_reducible apply State.Kept.ports | with_reducible apply State.Kept.slices
      | with_reducible apply State.Kept.tlm | with_reducible apply State.Kept.recs
      | with_reducible apply State.Kept.queue | split

theorem State.runFill_kept {cmds : List Instr} {s : State} (h : s.Kept cmds) (p : Nat) :
    (State.runFill s p).Kept cmds := by
  delta State.runFill
  repeat' first
    | with_reducible assumption
      | (intro x; refine State.kept_cut cmds x ?_ fun _ => ?_; rotate_left; clear_value x; rotate_left; subst x)
      | with_reducible apply State.each_kept | with_reducible apply State.fillOne_kept
      | (refine State.Keeps.mk fun _ _ => ?_) | intro x

theorem State.install_kept {cmds : List Instr} {s : State} (h : s.Kept cmds) (p : Nat) (l : AccLine) (cause : Nat) :
    (State.install s p l cause).Kept cmds := by
  delta State.install
  repeat' first
    | with_reducible assumption | lift_lets -underBinder
      | (intro x; refine State.kept_cut cmds x ?_ fun _ => ?_; rotate_left; clear_value x; rotate_left; subst x)
      | with_reducible apply State.modDat_kept | with_reducible apply State.runFill_kept | (intro x; clear_value x)
      | intro x

theorem State.resealDone_kept {cmds : List Instr} {s : State} (h : s.Kept cmds) (p bank row : Nat) :
    (State.resealDone s p bank row).Kept cmds := by
  delta State.resealDone
  repeat' first
    | with_reducible assumption | lift_lets -underBinder
      | (intro x; refine State.kept_cut cmds x ?_ fun _ => ?_; rotate_left; clear_value x; rotate_left; subst x)
      | with_reducible apply State.modFab_kept | with_reducible apply State.modSch_kept
      | with_reducible apply State.kept_ite | (intro x; clear_value x) | intro x | split

theorem State.fillWb_kept {cmds : List Instr} {s : State} (h : s.Kept cmds) (p : Nat) :
    (State.fillWb s p).Kept cmds := by
  delta State.fillWb
  repeat' first
    | with_reducible assumption | lift_lets -underBinder
      | (intro x; refine State.kept_cut cmds x ?_ fun _ => ?_; rotate_left; clear_value x; rotate_left; subst x)
      | with_reducible apply State.modDat_kept | with_reducible apply State.corrEnter_kept
      | with_reducible apply State.writeLine_kept | with_reducible apply State.runFill_kept
      | with_reducible apply State.resealDone_kept | with_reducible apply State.kept_ite | (intro x; clear_value x)
      | intro x | split

theorem State.correct_kept {cmds : List Instr} {s : State} (h : s.Kept cmds) (p : Nat) (k : Key) (read : Code) (fixed : Code) (cause : Nat) :
    (State.correct s p k read fixed cause).Kept cmds := by
  delta State.correct
  repeat' first
    | with_reducible assumption | lift_lets -underBinder
      | (intro x; refine State.kept_cut cmds x ?_ fun _ => ?_; rotate_left; clear_value x; rotate_left; subst x)
      | with_reducible apply State.modDat_kept | with_reducible apply State.detBreak_kept
      | with_reducible apply State.corrEnter_kept | with_reducible apply State.kept_ite | (intro x; clear_value x)
      | intro x | split

theorem State.queueCheck_kept {cmds : List Instr} {s : State} (h : s.Kept cmds) (p : Nat) (k : Key) :
    (State.queueCheck s p k).Kept cmds := by
  delta State.queueCheck
  repeat' first
    | with_reducible assumption | lift_lets -underBinder
      | (intro x; refine State.kept_cut cmds x ?_ fun _ => ?_; rotate_left; clear_value x; rotate_left; subst x)
      | with_reducible apply State.modScr_kept | with_reducible apply State.kept_ite | (intro x; clear_value x)
      | intro x | split

theorem State.retryCopy_kept {cmds : List Instr} {s : State} (h : s.Kept cmds) (p : Nat) (f : Flight) (k : Key) (pl : Place) (ps : Nat) (e : Entry) :
    (State.retryCopy s p f k pl ps e).Kept cmds := by
  delta State.retryCopy
  repeat' first
    | with_reducible assumption | lift_lets -underBinder
      | (intro x; refine State.kept_cut cmds x ?_ fun _ => ?_; rotate_left; clear_value x; rotate_left; subst x)
      | with_reducible apply State.modSch_kept | with_reducible apply State.icqPass_kept
      | with_reducible apply State.modEntry_kept | with_reducible apply State.detBreak_kept
      | with_reducible apply State.reset_kept | with_reducible apply State.kept_ite | (intro x; clear_value x)
      | intro x | split

theorem State.countExpand_kept {cmds : List Instr} {s : State} (h : s.Kept cmds) (port : Nat) (r : BitVec 256) (sat : Bool) (accs : List Acc) (o n : Nat) :
    (State.countExpand s port r sat accs o n).Kept cmds := by
  delta State.countExpand
  repeat' first
    | with_reducible assumption | lift_lets -underBinder
      | (intro x; refine State.kept_cut cmds x ?_ fun _ => ?_; rotate_left; clear_value x; rotate_left; subst x)
      | with_reducible apply State.statSub_kept | with_reducible apply State.kept_ite | (intro x; clear_value x)
      | intro x | split

theorem State.settleGather_kept {cmds : List Instr} {s : State} (h : s.Kept cmds) (id : Nat) :
    (State.settleGather s id).Kept cmds := by
  delta State.settleGather
  repeat' first
    | with_reducible assumption | lift_lets -underBinder
      | (intro x; refine State.kept_cut cmds x ?_ fun _ => ?_; rotate_left; clear_value x; rotate_left; subst x)
      | with_reducible apply State.modFab_kept | with_reducible apply State.freeEntry_kept
      | with_reducible apply State.countExpand_kept | with_reducible apply State.reset_kept
      | with_reducible apply State.foldl_kept | with_reducible apply List.foldl_kept
      | with_reducible apply State.kept_ite | (intro x; clear_value x) | intro x | split

theorem State.settleEngine_kept {cmds : List Instr} {s : State} (h : s.Kept cmds) (i : Nat) :
    (State.settleEngine s i).Kept cmds := by
  delta State.settleEngine
  repeat' first
    | with_reducible assumption
      | (intro x; refine State.kept_cut cmds x ?_ fun _ => ?_; rotate_left; clear_value x; rotate_left; subst x)
      | with_reducible apply State.each_kept | with_reducible apply State.settleGather_kept
      | (refine State.Keeps.mk fun _ _ => ?_) | intro x

theorem State.chargeScale_kept {cmds : List Instr} {s : State} (h : s.Kept cmds) (id : Nat) (k : Key) :
    (State.chargeScale s id k).Kept cmds := by
  delta State.chargeScale
  repeat' first
    | with_reducible assumption | lift_lets -underBinder
      | (intro x; refine State.kept_cut cmds x ?_ fun _ => ?_; rotate_left; clear_value x; rotate_left; subst x)
      | with_reducible apply State.lateCharge_kept | with_reducible apply State.kept_ite | (intro x; clear_value x)
      | intro x | split

theorem State.installScale_kept {cmds : List Instr} {s : State} (h : s.Kept cmds) (e : Entry) (a : Acc) (st : RspStatus) (d : Line) (current : Bool) :
    (State.installScale s e a st d current).Kept cmds := by
  delta State.installScale
  repeat' first
    | with_reducible assumption | lift_lets -underBinder
      | (intro x; refine State.kept_cut cmds x ?_ fun _ => ?_; rotate_left; clear_value x; rotate_left; subst x)
      | with_reducible apply State.modPort_kept | with_reducible apply State.kept_ite | (intro x; clear_value x)
      | intro x | split

theorem State.endPortRead_kept {cmds : List Instr} {s : State} (h : s.Kept cmds) (p : Nat) (f : Flight) (st : RspStatus) (d : Line) :
    (State.endPortRead s p f st d).Kept cmds := by
  delta State.endPortRead
  repeat' first
    | with_reducible assumption | lift_lets -underBinder
      | (intro x; refine State.kept_cut cmds x ?_ fun _ => ?_; rotate_left; clear_value x; rotate_left; subst x)
      | with_reducible apply State.modDat_kept | with_reducible apply State.stat_kept
      | with_reducible apply State.endAccess_kept | with_reducible apply State.retryCopy_kept
      | with_reducible apply State.settleGather_kept | with_reducible apply State.installScale_kept
      | with_reducible apply State.reset_kept | with_reducible apply State.kept_ite | (intro x; clear_value x)
      | intro x | split

theorem State.endMiss_kept {cmds : List Instr} {s : State} (h : s.Kept cmds) (p : Nat) (f : Flight) (st : RspStatus) (d : Line) :
    (State.endMiss s p f st d).Kept cmds := by
  delta State.endMiss
  repeat' first
    | with_reducible assumption | lift_lets -underBinder
      | (intro x; refine State.kept_cut cmds x ?_ fun _ => ?_; rotate_left; clear_value x; rotate_left; subst x)
      | with_reducible apply State.modDat_kept | with_reducible apply State.each_kept
      | with_reducible apply State.endAccess_kept | with_reducible apply State.install_kept
      | (refine State.Keeps.mk fun _ _ => ?_) | with_reducible apply State.kept_ite | (intro x; clear_value x)
      | intro x | split

theorem State.dropScaleLine_kept {cmds : List Instr} {s : State} (h : s.Kept cmds) (id : Nat) (k : Key) :
    (State.dropScaleLine s id k).Kept cmds := by
  delta State.dropScaleLine
  repeat' first
    | with_reducible assumption | lift_lets -underBinder
      | (intro x; refine State.kept_cut cmds x ?_ fun _ => ?_; rotate_left; clear_value x; rotate_left; subst x)
      | with_reducible apply State.reset_kept | with_reducible apply State.kept_ite | (intro x; clear_value x)
      | intro x | (refine State.Kept.of ?_ ?_ ?_ ?_ ?_ ?_ <;> dsimp only) | with_reducible apply Tab.mapVals_wf
      | with_reducible apply State.Kept.mem | with_reducible apply State.Kept.ports
      | with_reducible apply State.Kept.slices | with_reducible apply State.Kept.tlm
      | with_reducible apply State.Kept.recs | with_reducible apply State.Kept.queue | split

theorem State.endRmw_kept {cmds : List Instr} {s : State} (h : s.Kept cmds) (p : Nat) (f : Flight) (st : RspStatus) (d : Line) :
    (State.endRmw s p f st d).Kept cmds := by
  delta State.endRmw
  repeat' first
    | with_reducible assumption | lift_lets -underBinder
      | (intro x; refine State.kept_cut cmds x ?_ fun _ => ?_; rotate_left; clear_value x; rotate_left; subst x)
      | with_reducible apply State.modDat_kept | with_reducible apply State.endAccess_kept
      | with_reducible apply State.dropScaleLine_kept | with_reducible apply State.kept_ite | (intro x; clear_value x)
      | intro x | split

theorem State.endRead_kept {cmds : List Instr} {s : State} (h : s.Kept cmds) (p : Nat) (f : Flight) (st : RspStatus) (d : Line) :
    (State.endRead s p f st d).Kept cmds := by
  delta State.endRead
  repeat' first
    | with_reducible assumption | lift_lets -underBinder
      | (intro x; refine State.kept_cut cmds x ?_ fun _ => ?_; rotate_left; clear_value x; rotate_left; subst x)
      | with_reducible apply State.endPortRead_kept | with_reducible apply State.endMiss_kept
      | with_reducible apply State.endRmw_kept | with_reducible apply State.kept_ite | (intro x; clear_value x)
      | intro x | split

/-! ### SchedOps -/

theorem State.modBt_kept {cmds : List Instr} {s : State} (h : s.Kept cmds) (p : Nat) (f : BankSet → BankSet) :
    (State.modBt s p f).Kept cmds := by
  delta State.modBt
  repeat' first
    | with_reducible assumption | lift_lets -underBinder
      | (intro x; refine State.kept_cut cmds x ?_ fun _ => ?_; rotate_left; clear_value x; rotate_left; subst x)
      | with_reducible apply State.modSlice_kept | (intro x; clear_value x) | intro x

theorem State.modRf_kept {cmds : List Instr} {s : State} (h : s.Kept cmds) (p : Nat) (f : Refr → Refr) :
    (State.modRf s p f).Kept cmds := by
  delta State.modRf
  repeat' first
    | with_reducible assumption | lift_lets -underBinder
      | (intro x; refine State.kept_cut cmds x ?_ fun _ => ?_; rotate_left; clear_value x; rotate_left; subst x)
      | with_reducible apply State.modSlice_kept | (intro x; clear_value x) | intro x

theorem State.srx_kept {cmds : List Instr} {s : State} (h : s.Kept cmds) (p : Nat) :
    (State.srx s p).Kept cmds := by
  delta State.srx
  repeat' first
    | with_reducible assumption
      | (intro x; refine State.kept_cut cmds x ?_ fun _ => ?_; rotate_left; clear_value x; rotate_left; subst x)
      | with_reducible apply State.modBt_kept | intro x

theorem State.settleRefresh_kept {cmds : List Instr} {s : State} (h : s.Kept cmds) (p : Nat) :
    (State.settleRefresh s p).Kept cmds := by
  delta State.settleRefresh
  repeat' first
    | with_reducible assumption | lift_lets -underBinder
      | (intro x; refine State.kept_cut cmds x ?_ fun _ => ?_; rotate_left; clear_value x; rotate_left; subst x)
      | with_reducible apply State.each_kept | with_reducible apply State.modRf_kept
      | (refine State.Keeps.mk fun _ _ => ?_) | (intro x; clear_value x) | intro x

theorem State.startAccs_kept {cmds : List Instr} {s : State} (h : s.Kept cmds) (p : Nat) (fresh : Bool) :
    (State.startAccs s p fresh).Kept cmds := by
  delta State.startAccs
  repeat' first
    | with_reducible assumption | lift_lets -underBinder
      | (intro x; refine State.kept_cut cmds x ?_ fun _ => ?_; rotate_left; clear_value x; rotate_left; subst x)
      | with_reducible apply State.modRf_kept | with_reducible apply State.reset_kept
      | with_reducible apply State.foldl_kept | with_reducible apply List.foldl_kept
      | with_reducible apply State.kept_ite | (intro x; clear_value x) | intro x | split

theorem State.srxRefresh_kept {cmds : List Instr} {s : State} (h : s.Kept cmds) (p : Nat) :
    (State.srxRefresh s p).Kept cmds := by
  delta State.srxRefresh
  repeat' first
    | with_reducible assumption | lift_lets -underBinder
      | (intro x; refine State.kept_cut cmds x ?_ fun _ => ?_; rotate_left; clear_value x; rotate_left; subst x)
      | with_reducible apply State.each_kept | with_reducible apply State.modRf_kept
      | with_reducible apply State.srx_kept | (refine State.Keeps.mk fun _ _ => ?_) | (intro x; clear_value x)
      | intro x

theorem State.refpb_kept {cmds : List Instr} {s : State} (h : s.Kept cmds) (p i t : Nat) :
    (State.refpb s p i t).Kept cmds := by
  delta State.refpb
  repeat' first
    | with_reducible assumption | lift_lets -underBinder
      | (intro x; refine State.kept_cut cmds x ?_ fun _ => ?_; rotate_left; clear_value x; rotate_left; subst x)
      | with_reducible apply State.sendRow_kept | with_reducible apply State.statSlice_kept
      | with_reducible apply State.modBt_kept | with_reducible apply State.modRf_kept
      | with_reducible apply State.kept_ite | (intro x; clear_value x) | intro x | split

theorem State.becomeHot_kept {cmds : List Instr} {s : State} (h : s.Kept cmds) (p i : Nat) (x : HotRow) :
    (State.becomeHot s p i x).Kept cmds := by
  delta State.becomeHot
  repeat' first
    | with_reducible assumption | lift_lets -underBinder
      | (intro x; refine State.kept_cut cmds x ?_ fun _ => ?_; rotate_left; clear_value x; rotate_left; subst x)
      | with_reducible apply State.modFab_kept | with_reducible apply State.nextFree_kept
      | with_reducible apply State.report_kept | with_reducible apply State.statSlice_kept
      | with_reducible apply State.modRf_kept | with_reducible apply State.kept_ite | (intro x; clear_value x)
      | intro x | split

theorem State.track_kept {cmds : List Instr} {s : State} (h : s.Kept cmds) (p i row k : Nat) :
    (State.track s p i row k).Kept cmds := by
  delta State.track
  repeat' first
    | with_reducible assumption | lift_lets -underBinder
      | (intro x; refine State.kept_cut cmds x ?_ fun _ => ?_; rotate_left; clear_value x; rotate_left; subst x)
      | with_reducible apply State.modRf_kept | with_reducible apply State.becomeHot_kept
      | with_reducible apply State.kept_ite | (intro x; clear_value x) | intro x | split

theorem State.countActs_kept {cmds : List Instr} {s : State} (h : s.Kept cmds) (p k n : Nat) :
    (State.countActs s p k n).Kept cmds := by
  delta State.countActs
  repeat' first
    | with_reducible assumption | lift_lets -underBinder
      | (intro x; refine State.kept_cut cmds x ?_ fun _ => ?_; rotate_left; clear_value x; rotate_left; subst x)
      | with_reducible apply State.modFab_kept | with_reducible apply State.kept_ite | (intro x; clear_value x)
      | intro x | split

theorem State.doAct_kept {cmds : List Instr} {s : State} (h : s.Kept cmds) (p i row k t : Nat) :
    (State.doAct s p i row k t).Kept cmds := by
  delta State.doAct
  repeat' first
    | with_reducible assumption | lift_lets -underBinder
      | (intro x; refine State.kept_cut cmds x ?_ fun _ => ?_; rotate_left; clear_value x; rotate_left; subst x)
      | with_reducible apply State.sendRow_kept | with_reducible apply State.statSlice_kept
      | with_reducible apply State.modBt_kept | with_reducible apply State.track_kept
      | with_reducible apply State.countActs_kept | (intro x; clear_value x) | intro x

theorem State.workAct_kept {cmds : List Instr} {s : State} (h : s.Kept cmds) (p i row k : Nat) :
    (State.workAct s p i row k).Kept cmds := by
  delta State.workAct
  repeat' first
    | with_reducible assumption | with_reducible apply State.statSlice_kept | with_reducible apply State.track_kept
      | with_reducible apply State.kept_ite | intro x | split

theorem State.close_kept {cmds : List Instr} {s : State} (h : s.Kept cmds) (p i t : Nat) :
    (State.close s p i t).Kept cmds := by
  delta State.close
  repeat' first
    | with_reducible assumption
      | (intro x; refine State.kept_cut cmds x ?_ fun _ => ?_; rotate_left; clear_value x; rotate_left; subst x)
      | with_reducible apply State.sendRow_kept | with_reducible apply State.modBt_kept | intro x

theorem State.closeAll_kept {cmds : List Instr} {s : State} (h : s.Kept cmds) (p : Nat) :
    (State.closeAll s p).Kept cmds := by
  delta State.closeAll
  repeat' first
    | with_reducible assumption
      | (intro x; refine State.kept_cut cmds x ?_ fun _ => ?_; rotate_left; clear_value x; rotate_left; subst x)
      | with_reducible apply State.each_kept | with_reducible apply State.close_kept
      | (refine State.Keeps.mk fun _ _ => ?_) | with_reducible apply State.kept_ite | intro x | split

theorem State.sre_kept {cmds : List Instr} {s : State} (h : s.Kept cmds) (p : Nat) :
    (State.sre s p).Kept cmds := by
  delta State.sre
  repeat' first
    | with_reducible assumption | lift_lets -underBinder
      | (intro x; refine State.kept_cut cmds x ?_ fun _ => ?_; rotate_left; clear_value x; rotate_left; subst x)
      | with_reducible apply State.modLink_kept | with_reducible apply State.closeAll_kept | (intro x; clear_value x)
      | intro x

theorem State.alertCheck_kept {cmds : List Instr} {s : State} (h : s.Kept cmds) (p : Nat) :
    (State.alertCheck s p).Kept cmds := by
  delta State.alertCheck
  repeat' first
    | with_reducible assumption | with_reducible apply State.modLink_kept | with_reducible apply State.kept_ite
      | intro x | split

theorem State.doPre_kept {cmds : List Instr} {s : State} (h : s.Kept cmds) (p i t : Nat) :
    (State.doPre s p i t).Kept cmds := by
  delta State.doPre
  repeat' first
    | with_reducible assumption | with_reducible apply State.statSlice_kept | with_reducible apply State.close_kept
      | intro x

theorem State.countHit_kept {cmds : List Instr} {s : State} (h : s.Kept cmds) (p i : Nat) :
    (State.countHit s p i).Kept cmds := by
  delta State.countHit
  repeat' first
    | with_reducible assumption | lift_lets -underBinder
      | (intro x; refine State.kept_cut cmds x ?_ fun _ => ?_; rotate_left; clear_value x; rotate_left; subst x)
      | with_reducible apply State.statSlice_kept | with_reducible apply State.modBt_kept
      | with_reducible apply State.kept_ite | (intro x; clear_value x) | intro x | split

/-! ### BrewOps -/

theorem State.rowOp_kept {cmds : List Instr} {s : State} (h : s.Kept cmds) (p bank : Nat) (w : OpWord) :
    (State.rowOp s p bank w).Kept cmds := by
  delta State.rowOp
  repeat' first
    | with_reducible assumption
      | (intro x; refine State.kept_cut cmds x ?_ fun _ => ?_; rotate_left; clear_value x; rotate_left; subst x)
      | with_reducible apply State.each_kept | with_reducible apply State.setCode_kept
      | (refine State.Keeps.mk fun _ _ => ?_) | intro x

theorem State.purgeOps_kept {cmds : List Instr} {s : State} (h : s.Kept cmds) (p : Nat) :
    (State.purgeOps s p).Kept cmds := by
  delta State.purgeOps
  repeat' first
    | with_reducible assumption | lift_lets -underBinder
      | (intro x; refine State.kept_cut cmds x ?_ fun _ => ?_; rotate_left; clear_value x; rotate_left; subst x)
      | with_reducible apply State.modBrew_kept | with_reducible apply State.icqRelease_kept
      | (intro x; clear_value x) | intro x

theorem State.dropOps_kept {cmds : List Instr} {s : State} (h : s.Kept cmds) (p id : Nat) :
    (State.dropOps s p id).Kept cmds := by
  delta State.dropOps
  repeat' first
    | with_reducible assumption | lift_lets -underBinder
      | (intro x; refine State.kept_cut cmds x ?_ fun _ => ?_; rotate_left; clear_value x; rotate_left; subst x)
      | with_reducible apply State.modBrew_kept | with_reducible apply State.purgeOps_kept | (intro x; clear_value x)
      | intro x

theorem State.brewPre_kept {cmds : List Instr} {s : State} (h : s.Kept cmds) (p t : Nat) :
    (State.brewPre s p t).Kept cmds := by
  delta State.brewPre
  repeat' first
    | with_reducible assumption
      | (intro x; refine State.kept_cut cmds x ?_ fun _ => ?_; rotate_left; clear_value x; rotate_left; subst x)
      | with_reducible apply State.sendRow_kept | with_reducible apply State.each_kept
      | with_reducible apply State.modBt_kept | (refine State.Keeps.mk fun _ _ => ?_)
      | with_reducible apply State.kept_ite | intro x | split

theorem State.setLoan_kept {cmds : List Instr} {s : State} (h : s.Kept cmds) (p : Nat) (v : Bool) :
    (State.setLoan s p v).Kept cmds := by
  delta State.setLoan
  repeat' first
    | with_reducible assumption | lift_lets -underBinder
      | (intro x; refine State.kept_cut cmds x ?_ fun _ => ?_; rotate_left; clear_value x; rotate_left; subst x)
      | with_reducible apply State.each_kept | with_reducible apply State.modBt_kept
      | (refine State.Keeps.mk fun _ _ => ?_) | (intro x; clear_value x) | intro x

theorem State.brewCount_kept {cmds : List Instr} {s : State} (h : s.Kept cmds) (p t k : Nat) (rows : List Nat) :
    (State.brewCount s p t k rows).Kept cmds := by
  delta State.brewCount
  repeat' first
    | with_reducible assumption | lift_lets -underBinder
      | (intro x; refine State.kept_cut cmds x ?_ fun _ => ?_; rotate_left; clear_value x; rotate_left; subst x)
      | with_reducible apply State.each_kept | with_reducible apply State.modBt_kept
      | with_reducible apply State.track_kept | with_reducible apply State.countActs_kept
      | (refine State.Keeps.mk fun _ _ => ?_) | (intro x; clear_value x) | intro x

theorem State.brewCharge_kept {cmds : List Instr} {s : State} (h : s.Kept cmds) (l : Launch) (bytes : Nat) :
    (State.brewCharge s l bytes).Kept cmds := by
  delta State.brewCharge
  repeat' first
    | with_reducible assumption | with_reducible apply State.lateCharge_kept | intro x

theorem State.brewHeat_kept {cmds : List Instr} {s : State} (h : s.Kept cmds) (p n : Nat) :
    (State.brewHeat s p n).Kept cmds := by
  delta State.brewHeat
  repeat' first
    | with_reducible assumption | lift_lets -underBinder
      | (intro x; refine State.kept_cut cmds x ?_ fun _ => ?_; rotate_left; clear_value x; rotate_left; subst x)
      | with_reducible apply State.modFab_kept | with_reducible apply State.kept_ite | (intro x; clear_value x)
      | intro x | split

theorem State.brewLeave_kept {cmds : List Instr} {s : State} (h : s.Kept cmds) (p : Nat) :
    (State.brewLeave s p).Kept cmds := by
  delta State.brewLeave
  repeat' first
    | with_reducible assumption | lift_lets -underBinder
      | (intro x; refine State.kept_cut cmds x ?_ fun _ => ?_; rotate_left; clear_value x; rotate_left; subst x)
      | with_reducible apply State.modBrew_kept | with_reducible apply State.dropOps_kept
      | with_reducible apply State.setLoan_kept | with_reducible apply State.kept_ite | (intro x; clear_value x)
      | intro x | split

theorem State.noteWord_kept {cmds : List Instr} {s : State} (h : s.Kept cmds) (w : CtlWord) :
    (State.noteWord s w).Kept cmds := by
  delta State.noteWord
  repeat' first
    | with_reducible assumption | lift_lets -underBinder
      | (intro x; refine State.kept_cut cmds x ?_ fun _ => ?_; rotate_left; clear_value x; rotate_left; subst x)
      | with_reducible apply State.modFab_kept | with_reducible apply State.modSch_kept
      | with_reducible apply State.kept_ite | (intro x; clear_value x) | intro x | split

theorem State.sendWord_kept {cmds : List Instr} {s : State} {take : State → State} (h : s.Kept cmds) (ht : State.Keeps cmds take) (q i : Nat)
    (w : CtlWord) : (State.sendWord s q i w take).Kept cmds :=
  State.kept_ite (ht _ (State.icqPass_kept h ..)) (State.modCtl_kept (State.icqPass_kept h ..) fun _ hc => hc)

theorem State.tell_kept {cmds : List Instr} {s : State} (h : s.Kept cmds) (q i : Nat) (w : CtlWord) :
    (State.tell s q i w).Kept cmds := by
  delta State.tell
  repeat' first
    | with_reducible assumption
      | (intro x; refine State.kept_cut cmds x ?_ fun _ => ?_; rotate_left; clear_value x; rotate_left; subst x)
      | with_reducible apply State.noteWord_kept | with_reducible apply State.sendWord_kept
      | (refine State.Keeps.mk fun _ _ => ?_) | intro x

theorem State.brewStopped_kept {cmds : List Instr} {s : State} (h : s.Kept cmds) (p : Nat) :
    (State.brewStopped s p).Kept cmds := by
  delta State.brewStopped
  repeat' first
    | with_reducible assumption | lift_lets -underBinder
      | (intro x; refine State.kept_cut cmds x ?_ fun _ => ?_; rotate_left; clear_value x; rotate_left; subst x)
      | with_reducible apply State.brewLeave_kept | with_reducible apply State.tell_kept
      | with_reducible apply State.kept_ite | (intro x; clear_value x) | intro x | split

theorem State.stopOn_kept {cmds : List Instr} {s : State} (h : s.Kept cmds) (p id c : Nat) :
    (State.stopOn s p id c).Kept cmds := by
  delta State.stopOn
  repeat' first
    | with_reducible assumption | lift_lets -underBinder
      | (intro x; refine State.kept_cut cmds x ?_ fun _ => ?_; rotate_left; clear_value x; rotate_left; subst x)
      | with_reducible apply State.modBrew_kept | with_reducible apply State.dropOps_kept
      | with_reducible apply State.tell_kept | with_reducible apply State.brewStopped_kept
      | with_reducible apply State.kept_ite | (intro x; clear_value x) | intro x | split

theorem State.takeWord_kept {cmds : List Instr} {s : State} (h : s.Kept cmds) (i : Nat) (w : CtlWord) :
    (State.takeWord s i w).Kept cmds := by
  delta State.takeWord
  repeat' first
    | with_reducible assumption | lift_lets -underBinder
      | (intro x; refine State.kept_cut cmds x ?_ fun _ => ?_; rotate_left; clear_value x; rotate_left; subst x)
      | with_reducible apply State.noteWord_kept | with_reducible apply State.stopOn_kept
      | with_reducible apply State.kept_ite | (intro x; clear_value x) | intro x | split

theorem State.readWords_kept {cmds : List Instr} {s : State} (h : s.Kept cmds) :
    (State.readWords s).Kept cmds := by
  delta State.readWords
  repeat' first
    | with_reducible assumption | lift_lets -underBinder
      | (intro x; refine State.kept_cut cmds x ?_ fun _ => ?_; rotate_left; clear_value x; rotate_left; subst x)
      | (intro c hc; exact hc) | with_reducible apply State.modCtl_kept | with_reducible apply State.each_kept
      | with_reducible apply State.takeWord_kept | (refine State.Keeps.mk fun _ _ => ?_) | (intro x; clear_value x)
      | intro x | dsimp only

theorem State.killLaunch_kept {cmds : List Instr} {s : State} (h : s.Kept cmds) (id : Nat) (st : RspStatus) :
    (State.killLaunch s id st).Kept cmds := by
  delta State.killLaunch
  repeat' first
    | with_reducible assumption | lift_lets -underBinder
      | (intro x; refine State.kept_cut cmds x ?_ fun _ => ?_; rotate_left; clear_value x; rotate_left; subst x)
      | with_reducible apply State.modFab_kept | with_reducible apply State.each_kept
      | with_reducible apply State.sendWord_kept | with_reducible apply State.stopOn_kept
      | (refine State.Keeps.mk fun _ _ => ?_) | with_reducible apply State.kept_ite | (intro x; clear_value x)
      | intro x | split

/-! ### IcqOps -/

theorem State.dropWork_kept {cmds : List Instr} {s : State} (h : s.Kept cmds) (id : Nat) :
    (State.dropWork s id).Kept cmds := by
  delta State.dropWork
  repeat' first
    | with_reducible assumption | lift_lets -underBinder
      | (intro x; refine State.kept_cut cmds x ?_ fun _ => ?_; rotate_left; clear_value x; rotate_left; subst x)
      | with_reducible apply State.modFab_kept | with_reducible apply State.reset_kept | (intro x; clear_value x)
      | intro x | (refine State.Kept.of ?_ ?_ ?_ ?_ ?_ ?_ <;> dsimp only) | with_reducible apply Tab.mapVals_wf
      | with_reducible apply State.Kept.mem | with_reducible apply State.Kept.ports
      | with_reducible apply State.Kept.slices | with_reducible apply State.Kept.tlm
      | with_reducible apply State.Kept.recs | with_reducible apply State.Kept.queue

theorem State.dropScrubs_kept {cmds : List Instr} {s : State} (h : s.Kept cmds) (p : Nat) :
    (State.dropScrubs s p).Kept cmds := by
  delta State.dropScrubs
  repeat' first
    | with_reducible assumption | lift_lets -underBinder
      | (intro x; refine State.kept_cut cmds x ?_ fun _ => ?_; rotate_left; clear_value x; rotate_left; subst x)
      | with_reducible apply State.each_kept | with_reducible apply State.freeEntry_kept
      | with_reducible apply State.dropWork_kept | (refine State.Keeps.mk fun _ _ => ?_) | (intro x; clear_value x)
      | intro x

theorem State.faultEntry_kept {cmds : List Instr} {s : State} (h : s.Kept cmds) (id : Nat) :
    (State.faultEntry s id).Kept cmds := by
  delta State.faultEntry
  repeat' first
    | with_reducible assumption | lift_lets -underBinder
      | (intro x; refine State.kept_cut cmds x ?_ fun _ => ?_; rotate_left; clear_value x; rotate_left; subst x)
      | with_reducible apply State.modEntry_kept | with_reducible apply State.freeEntry_kept
      | with_reducible apply State.decideEntry_kept | with_reducible apply State.settleGather_kept
      | with_reducible apply State.killLaunch_kept | with_reducible apply State.dropWork_kept
      | with_reducible apply State.kept_ite | (intro x; clear_value x) | intro x | split

theorem State.clearQueue_kept {cmds : List Instr} {s : State} (h : s.Kept cmds) (q i lost : Nat) :
    (State.clearQueue s q i lost).Kept cmds := by
  have he : ∀ {t : State} (e : Evt), e.recs.length ≤ 256 → t.Kept cmds → ({ t with evt := e } : State).Kept cmds :=
    fun _ hl ht => .of ht.mem ht.ports ht.slices ht.tlm hl ht.queue
  delta State.clearQueue
  lift_lets -underBinder
  intro s0
  have h0 : s0.Kept cmds := State.modIcq_kept h ..
  clear_value s0
  intro s1
  have h1 : s1.Kept cmds := State.modCtl_kept h0 fun _ hc => hc
  clear_value s1
  split
  · exact State.modSlice_kept h1 ..
  · exact State.modBrew_kept h1 ..
  · exact he _ h1.recs h1
  · exact State.modBlp_kept h1 _
  · exact State.modBlp_kept h1 _
  · exact State.kept_ite (he _ h1.recs h1) h1
  · exact he _ (Nat.zero_le _) h1
  · exact h1

theorem State.resetQueue_kept {cmds : List Instr} {s : State} (h : s.Kept cmds) (q i cause words : Nat)
    (bound : List Nat) : (State.resetQueue s q i cause words bound).Kept cmds := by
  delta State.resetQueue
  lift_lets -underBinder
  intro more ids lost s1
  have h1 : s1.Kept cmds := State.modIcq_kept (State.clearQueue_kept h ..) ..
  clear_value s1
  intro s2
  have h2 : s2.Kept cmds := State.errCount_kept (State.detBreak_kept h1 ..) ..
  clear_value s2
  exact State.event_kept (State.each_kept h2 fun _ => State.Keeps.mk fun _ hs => State.faultEntry_kept hs ..) ..

theorem State.pushItem_kept {cmds : List Instr} {s : State} (h : s.Kept cmds) (p : Nat) (x : WrItem) :
    (State.pushItem s p x).Kept cmds := by
  delta State.pushItem
  repeat' first
    | with_reducible assumption | lift_lets -underBinder
      | (intro x; refine State.kept_cut cmds x ?_ fun _ => ?_; rotate_left; clear_value x; rotate_left; subst x)
      | with_reducible apply State.modDat_kept | with_reducible apply State.icqWrite_kept
      | with_reducible apply State.event_kept | with_reducible apply State.resetQueue_kept
      | with_reducible apply State.kept_ite | (intro x; clear_value x) | intro x | split

theorem State.queueWrites_kept {cmds : List Instr} {s : State} (h : s.Kept cmds) (p : Nat) (x : Piece) :
    (State.queueWrites s p x).Kept cmds := by
  delta State.queueWrites
  repeat' first
    | with_reducible assumption | lift_lets -underBinder
      | (intro x; refine State.kept_cut cmds x ?_ fun _ => ?_; rotate_left; clear_value x; rotate_left; subst x)
      | with_reducible apply State.each_kept | with_reducible apply State.endAccess_kept
      | with_reducible apply State.pushItem_kept | (refine State.Keeps.mk fun _ _ => ?_)
      | with_reducible apply State.kept_ite | (intro x; clear_value x) | intro x | split

theorem State.comparePtr_kept {cmds : List Instr} {s : State} (h : s.Kept cmds) (q i k words : Nat) (bound : List Nat) :
    (State.comparePtr s q i k words bound).Kept cmds := by
  delta State.comparePtr
  repeat' first
    | with_reducible assumption | lift_lets -underBinder
      | (intro x; refine State.kept_cut cmds x ?_ fun _ => ?_; rotate_left; clear_value x; rotate_left; subst x)
      | with_reducible apply State.modIcq_kept | with_reducible apply State.stat_kept
      | with_reducible apply State.resetQueue_kept | with_reducible apply State.kept_ite | (intro x; clear_value x)
      | intro x | split

theorem execIcqPtrUpset_kept {cmds : List Instr} {s : State} (h : s.Kept cmds) (u : IcqUpset) :
    Res.Ok (State.Kept cmds) (execIcqPtrUpset u s) := by
  delta execIcqPtrUpset
  repeat' first
    | with_reducible assumption | lift_lets -underBinder | with_reducible apply Res.ok_next
      | (intro x; refine State.kept_cut cmds x ?_ fun _ => ?_; rotate_left; clear_value x; rotate_left; subst x)
      | with_reducible apply State.modIcq_kept | with_reducible apply State.comparePtr_kept
      | with_reducible apply Res.ok_ite | with_reducible apply State.kept_ite | (intro x; clear_value x) | intro x
      | split

/-! ### Ports -/

theorem execRd_kept {cmds : List Instr} {s : State} (h : s.Kept cmds) (port : Fin 36) (r : Request) :
    Res.Ok (State.Kept cmds) (execRd port r s) := by
  delta execRd
  repeat' first
    | with_reducible assumption | with_reducible apply Res.ok_next | with_reducible apply State.acceptReq_kept
      | intro x

theorem execWr_kept {cmds : List Instr} {s : State} (h : s.Kept cmds) (port : Fin 36) (r : Request) :
    Res.Ok (State.Kept cmds) (execWr port r s) := by
  delta execWr
  repeat' first
    | with_reducible assumption | with_reducible apply Res.ok_next | with_reducible apply State.acceptReq_kept
      | intro x

theorem execWrPartial_kept {cmds : List Instr} {s : State} (h : s.Kept cmds) (port : Fin 36) (r : Request) :
    Res.Ok (State.Kept cmds) (execWrPartial port r s) := by
  delta execWrPartial
  repeat' first
    | with_reducible assumption | with_reducible apply Res.ok_next | with_reducible apply State.acceptReq_kept
      | intro x

theorem execAcc_kept {cmds : List Instr} {s : State} (h : s.Kept cmds) (port : Fin 32) (r : Request) :
    Res.Ok (State.Kept cmds) (execAcc port r s) := by
  delta execAcc
  repeat' first
    | with_reducible assumption | with_reducible apply Res.ok_next | with_reducible apply State.acceptReq_kept
      | intro x

theorem execFence_kept {cmds : List Instr} {s : State} (h : s.Kept cmds) (port : Fin 36) (r : Request) :
    Res.Ok (State.Kept cmds) (execFence port r s) := by
  delta execFence
  repeat' first
    | with_reducible assumption | with_reducible apply Res.ok_next | with_reducible apply State.acceptReq_kept
      | intro x

theorem execGather_kept {cmds : List Instr} {s : State} (h : s.Kept cmds) (port : Fin 32) (r : Request) :
    Res.Ok (State.Kept cmds) (execGather port r s) := by
  delta execGather
  repeat' first
    | with_reducible assumption | with_reducible apply Res.ok_next | with_reducible apply State.acceptReq_kept
      | intro x

theorem execBrewLaunch_kept {cmds : List Instr} {s : State} (h : s.Kept cmds) (port : Fin 32) (r : Request) :
    Res.Ok (State.Kept cmds) (execBrewLaunch port r s) := by
  delta execBrewLaunch
  repeat' first
    | with_reducible assumption | with_reducible apply Res.ok_next | with_reducible apply State.acceptReq_kept
      | intro x

theorem execBrewAbort_kept {cmds : List Instr} {s : State} (h : s.Kept cmds) (port : Fin 32) (r : Request) :
    Res.Ok (State.Kept cmds) (execBrewAbort port r s) := by
  delta execBrewAbort
  repeat' first
    | with_reducible assumption | with_reducible apply Res.ok_next | with_reducible apply State.acceptReq_kept
      | intro x

theorem execUnsupportedTypeRequest_kept {cmds : List Instr} {s : State} (h : s.Kept cmds) (port : Fin 36) (typ : BitVec 4) (r : Request) :
    Res.Ok (State.Kept cmds) (execUnsupportedTypeRequest port typ r s) := by
  delta execUnsupportedTypeRequest
  repeat' first
    | with_reducible assumption | with_reducible apply Res.ok_next | with_reducible apply State.acceptReq_kept
      | with_reducible apply Res.ok_ite | with_reducible apply State.kept_ite | intro x | split

theorem State.acceptDesc_kept {cmds : List Instr} {s : State} (h : s.Kept cmds) (op : Nat) (d : Desc) :
    (State.acceptDesc s op d).Kept cmds := by
  delta State.acceptDesc
  repeat' first
    | with_reducible assumption | lift_lets -underBinder
      | (intro x; refine State.kept_cut cmds x ?_ fun _ => ?_; rotate_left; clear_value x; rotate_left; subst x)
      | with_reducible apply State.modBlp_kept | with_reducible apply State.icqPass_kept
      | with_reducible apply State.protoError_kept | with_reducible apply State.kept_ite | (intro x; clear_value x)
      | intro x | split

theorem execWriteBulk_kept {cmds : List Instr} {s : State} (h : s.Kept cmds) (d : Desc) :
    Res.Ok (State.Kept cmds) (execWriteBulk d s) := by
  delta execWriteBulk
  repeat' first
    | with_reducible assumption | with_reducible apply Res.ok_next | with_reducible apply State.acceptDesc_kept
      | intro x

theorem execAccBulk_kept {cmds : List Instr} {s : State} (h : s.Kept cmds) (d : Desc) :
    Res.Ok (State.Kept cmds) (execAccBulk d s) := by
  delta execAccBulk
  repeat' first
    | with_reducible assumption | with_reducible apply Res.ok_next | with_reducible apply State.acceptDesc_kept
      | intro x

theorem execReadBulk_kept {cmds : List Instr} {s : State} (h : s.Kept cmds) (d : Desc) :
    Res.Ok (State.Kept cmds) (execReadBulk d s) := by
  delta execReadBulk
  repeat' first
    | with_reducible assumption | with_reducible apply Res.ok_next | with_reducible apply State.acceptDesc_kept
      | intro x

theorem execReservedOpDescriptor_kept {cmds : List Instr} {s : State} (h : s.Kept cmds) (d : Desc) :
    Res.Ok (State.Kept cmds) (execReservedOpDescriptor d s) := by
  delta execReservedOpDescriptor
  repeat' first
    | with_reducible assumption | with_reducible apply Res.ok_next | with_reducible apply State.acceptDesc_kept
      | intro x

theorem execWriteDataBeat_kept {cmds : List Instr} {s : State} (h : s.Kept cmds) (port : Fin 36) (data : BitVec 1024) (be : BitVec 128) :
    Res.Ok (State.Kept cmds) (execWriteDataBeat port data be s) := by
  delta execWriteDataBeat
  repeat' first
    | with_reducible assumption | lift_lets -underBinder | with_reducible apply Res.ok_next
      | (intro x; refine State.kept_cut cmds x ?_ fun _ => ?_; rotate_left; clear_value x; rotate_left; subst x)
      | with_reducible apply State.modPort_kept | with_reducible apply State.each_kept
      | with_reducible apply State.protoError_kept | with_reducible apply State.bindPort_kept
      | with_reducible apply State.feedTaken_kept | with_reducible apply State.feedGhosts_kept
      | (refine State.Keeps.mk fun _ _ => ?_) | with_reducible apply Res.ok_ite | with_reducible apply State.kept_ite
      | (intro x; clear_value x) | intro x | split

theorem State.beatLate_kept {cmds : List Instr} {s : State} (h : s.Kept cmds) (ord t : Nat) :
    (State.beatLate s ord t).Kept cmds := by
  delta State.beatLate
  repeat' first
    | with_reducible assumption | lift_lets -underBinder
      | (intro x; refine State.kept_cut cmds x ?_ fun _ => ?_; rotate_left; clear_value x; rotate_left; subst x)
      | with_reducible apply State.modBlp_kept | with_reducible apply State.kept_ite | (intro x; clear_value x)
      | intro x | split

theorem execInboundDataBeat_kept {cmds : List Instr} {s : State} (h : s.Kept cmds) (data : BitVec 512) :
    Res.Ok (State.Kept cmds) (execInboundDataBeat data s) := by
  delta execInboundDataBeat
  repeat' first
    | with_reducible assumption | lift_lets -underBinder | with_reducible apply Res.ok_next
      | (intro x; refine State.kept_cut cmds x ?_ fun _ => ?_; rotate_left; clear_value x; rotate_left; subst x)
      | with_reducible apply State.modFab_kept | with_reducible apply State.modBlp_kept
      | with_reducible apply State.icqPass_kept | with_reducible apply State.modEntry_kept
      | with_reducible apply State.protoError_kept | with_reducible apply State.feedTaken_kept
      | with_reducible apply State.feedGhosts_kept | with_reducible apply State.beatLate_kept
      | with_reducible apply Res.ok_ite | with_reducible apply State.kept_ite | (intro x; clear_value x) | intro x
      | split

theorem execRspCrd_kept {cmds : List Instr} {s : State} (h : s.Kept cmds) (port : Fin 36) :
    Res.Ok (State.Kept cmds) (execRspCrd port s) := by
  delta execRspCrd
  repeat' first
    | with_reducible assumption | lift_lets -underBinder | with_reducible apply Res.ok_next
      | (intro x; refine State.kept_cut cmds x ?_ fun _ => ?_; rotate_left; clear_value x; rotate_left; subst x)
      | with_reducible apply State.modPort_kept | with_reducible apply Res.ok_ite
      | with_reducible apply State.kept_ite | (intro x; clear_value x) | intro x | split

theorem execOdataCrd_kept {cmds : List Instr} {s : State} (h : s.Kept cmds) :
    Res.Ok (State.Kept cmds) (execOdataCrd s) := by
  delta execOdataCrd
  repeat' first
    | with_reducible assumption | lift_lets -underBinder | with_reducible apply Res.ok_next
      | (intro x; refine State.kept_cut cmds x ?_ fun _ => ?_; rotate_left; clear_value x; rotate_left; subst x)
      | with_reducible apply State.modBlp_kept | with_reducible apply Res.ok_ite | with_reducible apply State.kept_ite
      | (intro x; clear_value x) | intro x | split

theorem execCplCrd_kept {cmds : List Instr} {s : State} (h : s.Kept cmds) :
    Res.Ok (State.Kept cmds) (execCplCrd s) := by
  delta execCplCrd
  repeat' first
    | with_reducible assumption | lift_lets -underBinder | with_reducible apply Res.ok_next
      | (intro x; refine State.kept_cut cmds x ?_ fun _ => ?_; rotate_left; clear_value x; rotate_left; subst x)
      | with_reducible apply State.modBlp_kept | with_reducible apply Res.ok_ite | with_reducible apply State.kept_ite
      | (intro x; clear_value x) | intro x | split

end Sys2Proof.Machine
end

