-- ==== Sys2Proof/Laws/KeptChannel.lean ====
section
/-! SUPPORT. Every definition keeps the canonical form and the queue (`State.Kept`): admission, the channel scheduler, the data paths, the links, egress and migration. -/

set_option linter.unusedTactic false
set_option linter.unreachableTactic false

namespace Sys2Proof.Machine

/-! ### AdmitOps -/

theorem State.readStale_kept {cmds : List Instr} {s : State} (h : s.Kept cmds) (r : BitVec 256) (accs : List Acc) :
    (State.readStale s r accs).Kept cmds := by
  delta State.readStale
  repeat' first
    | with_reducible assumption
      | (intro x; refine State.kept_cut cmds x ?_ fun _ => ?_; rotate_left; clear_value x; rotate_left; subst x)
      | with_reducible apply State.each_kept | with_reducible apply State.readBit_kept
      | (refine State.Keeps.mk fun _ _ => ?_) | with_reducible apply State.kept_ite | intro x | split

theorem State.enterMeter_kept {cmds : List Instr} {s : State} (h : s.Kept cmds) (e : Entry) (svc : Nat) :
    (State.enterMeter s e svc).Kept cmds := by
  delta State.enterMeter
  repeat' first
    | with_reducible assumption | lift_lets -underBinder
      | (intro x; refine State.kept_cut cmds x ?_ fun _ => ?_; rotate_left; clear_value x; rotate_left; subst x)
      | with_reducible apply State.modFab_kept | with_reducible apply State.kept_ite | (intro x; clear_value x)
      | intro x | split

theorem State.scaleLookup_kept {cmds : List Instr} {s : State} (h : s.Kept cmds) (port id : Nat) (accs : List Acc) :
    (State.scaleLookup s port id accs).Kept cmds := by
  delta State.scaleLookup
  repeat' first
    | with_reducible assumption | lift_lets -underBinder
      | (intro x; refine State.kept_cut cmds x ?_ fun _ => ?_; rotate_left; clear_value x; rotate_left; subst x)
      | with_reducible apply State.modPort_kept | with_reducible apply State.each_kept
      | with_reducible apply State.statSub_kept | with_reducible apply State.modEntry_kept
      | (refine State.Keeps.mk fun _ _ => ?_) | with_reducible apply State.kept_ite | (intro x; clear_value x)
      | intro x | split

theorem State.scaleWrite_kept {cmds : List Instr} {s : State} (h : s.Kept cmds) (port : Nat) (e : Entry) :
    (State.scaleWrite s port e).Kept cmds := by
  delta State.scaleWrite
  repeat' first
    | with_reducible assumption | lift_lets -underBinder
      | (intro x; refine State.kept_cut cmds x ?_ fun _ => ?_; rotate_left; clear_value x; rotate_left; subst x)
      | with_reducible apply State.modFab_kept | with_reducible apply State.each_kept
      | with_reducible apply State.reset_kept | (refine State.Keeps.mk fun _ _ => ?_)
      | with_reducible apply State.kept_ite | (intro x; clear_value x) | intro x
      | (refine State.Kept.of ?_ ?_ ?_ ?_ ?_ ?_ <;> dsimp only) | with_reducible apply Tab.mapVals_wf
      | with_reducible apply State.Kept.mem | with_reducible apply State.Kept.ports
      | with_reducible apply State.Kept.slices | with_reducible apply State.Kept.tlm
      | with_reducible apply State.Kept.recs | with_reducible apply State.Kept.queue | split

theorem State.countBlocks_kept {cmds : List Instr} {s : State} (h : s.Kept cmds) (port : Nat) (e : Entry) :
    (State.countBlocks s port e).Kept cmds := by
  delta State.countBlocks
  repeat' first
    | with_reducible assumption | lift_lets -underBinder
      | (intro x; refine State.kept_cut cmds x ?_ fun _ => ?_; rotate_left; clear_value x; rotate_left; subst x)
      | with_reducible apply State.statSub_kept | (intro x; clear_value x) | intro x

theorem State.addWork_kept {cmds : List Instr} {s : State} (h : s.Kept cmds) (sub : Nat) (kind : Kind) (rent : BitVec 256) (a : Nat) (accs : List Acc) (data : List WBeat) :
    (State.addWork s sub kind rent a accs data).Kept cmds := by
  delta State.addWork
  repeat' first
    | with_reducible assumption | lift_lets -underBinder
      | (intro x; refine State.kept_cut cmds x ?_ fun _ => ?_; rotate_left; clear_value x; rotate_left; subst x)
      | with_reducible apply State.icqPass_kept | with_reducible apply State.addEntry_kept
      | with_reducible apply State.readStale_kept | with_reducible apply State.enterMeter_kept
      | with_reducible apply State.reset_kept | with_reducible apply State.kept_ite | (intro x; clear_value x)
      | intro x | split

theorem State.addRec_kept {cmds : List Instr} {s : State} (h : s.Kept cmds) (r : DgRec) :
    (State.addRec s r).Kept cmds := by
  delta State.addRec
  repeat' first
    | with_reducible assumption | lift_lets -underBinder
      | (intro x; refine State.kept_cut cmds x ?_ fun _ => ?_; rotate_left; clear_value x; rotate_left; subst x)
      | with_reducible apply State.modDet_kept | with_reducible apply State.addWork_kept
      | with_reducible apply State.kept_ite | (intro x; clear_value x) | intro x | split

theorem State.addRecs_kept {cmds : List Instr} {s : State} (h : s.Kept cmds) :
    (State.addRecs s).Kept cmds := by
  delta State.addRecs
  repeat' first
    | with_reducible assumption | with_reducible apply State.each_kept | with_reducible apply State.addRec_kept
      | (refine State.Keeps.mk fun _ _ => ?_) | intro x

/-! ### Admit -/

theorem State.popReq_kept {cmds : List Instr} {s : State} (h : s.Kept cmds) (k : Nat) :
    (State.popReq s k).Kept cmds := by
  delta State.popReq
  repeat' first
    | with_reducible assumption | lift_lets -underBinder
      | (intro x; refine State.kept_cut cmds x ?_ fun _ => ?_; rotate_left; clear_value x; rotate_left; subst x)
      | with_reducible apply State.modPort_kept | (intro x; clear_value x) | intro x

theorem State.rejectReq_kept {cmds : List Instr} {s : State} (h : s.Kept cmds) (k : Nat) (q : InReq) (d : Done) (shared : Bool) :
    (State.rejectReq s k q d shared).Kept cmds := by
  delta State.rejectReq
  repeat' first
    | with_reducible assumption | lift_lets -underBinder
      | (intro x; refine State.kept_cut cmds x ?_ fun _ => ?_; rotate_left; clear_value x; rotate_left; subst x)
      | with_reducible apply State.modPort_kept | with_reducible apply State.addEntry_kept
      | with_reducible apply State.lateOnce_kept | with_reducible apply State.reset_kept
      | with_reducible apply State.kept_ite | (intro x; clear_value x) | intro x | split

theorem State.takeAbort_kept {cmds : List Instr} {s : State} (h : s.Kept cmds) (k id : Nat) (tag : BitVec 8) :
    (State.takeAbort s k id tag).Kept cmds := by
  delta State.takeAbort
  repeat' first
    | with_reducible assumption | lift_lets -underBinder
      | (intro x; refine State.kept_cut cmds x ?_ fun _ => ?_; rotate_left; clear_value x; rotate_left; subst x)
      | with_reducible apply State.decideEntry_kept | with_reducible apply State.killLaunch_kept
      | with_reducible apply State.kept_ite | (intro x; clear_value x) | intro x | split

theorem State.takeLaunch_kept {cmds : List Instr} {s : State} (h : s.Kept cmds) (k id : Nat) (q : InReq) (i : Nat) (beat : BitVec 1024) :
    (State.takeLaunch s k id q i beat).Kept cmds := by
  delta State.takeLaunch
  repeat' first
    | with_reducible assumption | lift_lets -underBinder
      | (intro x; refine State.kept_cut cmds x ?_ fun _ => ?_; rotate_left; clear_value x; rotate_left; subst x)
      | with_reducible apply State.modFab_kept | with_reducible apply State.statSub_kept
      | with_reducible apply State.reset_kept | with_reducible apply State.kept_ite | (intro x; clear_value x)
      | intro x | split

theorem State.acceptEntry_kept {cmds : List Instr} {s : State} (h : s.Kept cmds) (k : Nat) (q : InReq) (reg : Option Nat) (accs : List Acc) (shared : Bool) :
    (State.acceptEntry s k q reg accs shared).Kept cmds := by
  delta State.acceptEntry
  repeat' first
    | with_reducible assumption | lift_lets -underBinder
      | (intro x; refine State.kept_cut cmds x ?_ fun _ => ?_; rotate_left; clear_value x; rotate_left; subst x)
      | with_reducible apply State.modPort_kept | with_reducible apply State.modFab_kept
      | with_reducible apply State.addEntry_kept | with_reducible apply State.feedTaken_kept
      | with_reducible apply State.readStale_kept | with_reducible apply State.enterMeter_kept
      | with_reducible apply State.scaleLookup_kept | with_reducible apply State.scaleWrite_kept
      | with_reducible apply State.countBlocks_kept | with_reducible apply State.takeAbort_kept
      | with_reducible apply State.takeLaunch_kept | with_reducible apply State.reset_kept
      | with_reducible apply State.kept_ite | (intro x; clear_value x) | intro x | split

theorem execRequestAdmit_kept {cmds : List Instr} {s : State} (h : s.Kept cmds) (port : Fin 36) :
    Res.Ok (State.Kept cmds) (execRequestAdmit port s) := by
  delta execRequestAdmit
  repeat' first
    | with_reducible assumption | lift_lets -underBinder | with_reducible apply Res.ok_next
      | (intro x; refine State.kept_cut cmds x ?_ fun _ => ?_; rotate_left; clear_value x; rotate_left; subst x)
      | with_reducible apply State.protoError_kept | with_reducible apply State.popReq_kept
      | with_reducible apply State.rejectReq_kept | with_reducible apply State.acceptEntry_kept
      | with_reducible apply Res.ok_ite | with_reducible apply State.kept_ite | (intro x; clear_value x) | intro x
      | split

theorem execBlpDescAdmit_kept {cmds : List Instr} {s : State} (h : s.Kept cmds) :
    Res.Ok (State.Kept cmds) (execBlpDescAdmit s) := by
  delta execBlpDescAdmit
  repeat' first
    | with_reducible assumption | lift_lets -underBinder | with_reducible apply Res.ok_next
      | (intro x; refine State.kept_cut cmds x ?_ fun _ => ?_; rotate_left; clear_value x; rotate_left; subst x)
      | with_reducible apply State.modFab_kept | with_reducible apply State.modBlp_kept
      | with_reducible apply State.addEntry_kept | with_reducible apply State.feedTaken_kept
      | with_reducible apply State.readStale_kept | with_reducible apply Res.ok_ite
      | with_reducible apply State.kept_ite | (intro x; clear_value x) | intro x | split

/-! ### SubDown -/

theorem State.freezeSub_kept {cmds : List Instr} {s : State} (h : s.Kept cmds) (k : Nat) :
    (State.freezeSub s k).Kept cmds := by
  delta State.freezeSub
  repeat' first
    | with_reducible assumption | lift_lets -underBinder
      | (intro x; refine State.kept_cut cmds x ?_ fun _ => ?_; rotate_left; clear_value x; rotate_left; subst x)
      | with_reducible apply State.each_kept | with_reducible apply State.setMeter_kept
      | with_reducible apply State.setBucket_kept | (refine State.Keeps.mk fun _ _ => ?_) | (intro x; clear_value x)
      | intro x

theorem State.hashCut_kept {cmds : List Instr} {s : State} (h : s.Kept cmds) (e : Entry) :
    (State.hashCut s e).Kept cmds := by
  delta State.hashCut
  repeat' first
    | with_reducible assumption | lift_lets -underBinder
      | (intro x; refine State.kept_cut cmds x ?_ fun _ => ?_; rotate_left; clear_value x; rotate_left; subst x)
      | with_reducible apply State.modEntry_kept | with_reducible apply State.hashTaken_kept
      | with_reducible apply State.kept_ite | (intro x; clear_value x) | intro x | split

theorem State.dropUnfed_kept {cmds : List Instr} {s : State} (h : s.Kept cmds) (e : Entry) :
    (State.dropUnfed s e).Kept cmds := by
  delta State.dropUnfed
  repeat' first
    | with_reducible assumption | lift_lets -underBinder
      | (intro x; refine State.kept_cut cmds x ?_ fun _ => ?_; rotate_left; clear_value x; rotate_left; subst x)
      | with_reducible apply State.modFab_kept | with_reducible apply State.modEntry_kept
      | with_reducible apply State.retire_kept | with_reducible apply State.dropWork_kept
      | with_reducible apply State.hashCut_kept | with_reducible apply State.kept_ite | (intro x; clear_value x)
      | intro x | split

theorem State.clearInputs_kept {cmds : List Instr} {s : State} (h : s.Kept cmds) (k : Nat) :
    (State.clearInputs s k).Kept cmds := by
  delta State.clearInputs
  repeat' first
    | with_reducible assumption | lift_lets -underBinder
      | (intro x; refine State.kept_cut cmds x ?_ fun _ => ?_; rotate_left; clear_value x; rotate_left; subst x)
      | with_reducible apply State.modPort_kept | with_reducible apply State.modBlp_kept
      | with_reducible apply State.kept_ite | (intro x; clear_value x) | intro x | split

theorem State.subDown_kept {cmds : List Instr} {s : State} (h : s.Kept cmds) (k : Nat) :
    (State.subDown s k).Kept cmds := by
  delta State.subDown
  repeat' first
    | with_reducible assumption | lift_lets -underBinder
      | (intro x; refine State.kept_cut cmds x ?_ fun _ => ?_; rotate_left; clear_value x; rotate_left; subst x)
      | with_reducible apply State.modFab_kept | with_reducible apply State.each_kept
      | with_reducible apply State.closeGhosts_kept | with_reducible apply State.freezeSub_kept
      | with_reducible apply State.dropUnfed_kept | with_reducible apply State.clearInputs_kept
      | (refine State.Keeps.mk fun _ _ => ?_) | with_reducible apply State.kept_ite | (intro x; clear_value x)
      | intro x | split

theorem State.resumeSub_kept {cmds : List Instr} {s : State} (h : s.Kept cmds) (k : Nat) :
    (State.resumeSub s k).Kept cmds := by
  delta State.resumeSub
  repeat' first
    | with_reducible assumption | lift_lets -underBinder
      | (intro x; refine State.kept_cut cmds x ?_ fun _ => ?_; rotate_left; clear_value x; rotate_left; subst x)
      | with_reducible apply State.modFab_kept | with_reducible apply State.grantPort_kept
      | with_reducible apply State.grantBlp_kept | with_reducible apply State.initMeters_kept
      | with_reducible apply State.kept_ite | (intro x; clear_value x) | intro x | split

theorem State.subUp_kept {cmds : List Instr} {s : State} (h : s.Kept cmds) (k : Nat) :
    (State.subUp s k).Kept cmds := by
  delta State.subUp
  repeat' first
    | with_reducible assumption | lift_lets -underBinder
      | (intro x; refine State.kept_cut cmds x ?_ fun _ => ?_; rotate_left; clear_value x; rotate_left; subst x)
      | with_reducible apply State.modFab_kept | with_reducible apply State.resumeSub_kept
      | with_reducible apply State.kept_ite | (intro x; clear_value x) | intro x | split

theorem State.takeLine_kept {cmds : List Instr} {s : State} (h : s.Kept cmds) (k : Nat) :
    (State.takeLine s k).Kept cmds := by
  delta State.takeLine
  repeat' first
    | with_reducible assumption | with_reducible apply State.subDown_kept | with_reducible apply State.subUp_kept
      | with_reducible apply State.kept_ite | intro x | split

theorem State.takeLines_kept {cmds : List Instr} {s : State} (h : s.Kept cmds) :
    (State.takeLines s).Kept cmds := by
  delta State.takeLines
  repeat' first
    | with_reducible assumption | with_reducible apply State.each_kept | with_reducible apply State.takeLine_kept
      | (refine State.Keeps.mk fun _ _ => ?_) | intro x

theorem State.driveLine_kept {cmds : List Instr} {s : State} (h : s.Kept cmds) (k : Nat) (set : Bool) :
    (State.driveLine s k set).Kept cmds := by
  delta State.driveLine
  repeat' first
    | with_reducible assumption | lift_lets -underBinder
      | (intro x; refine State.kept_cut cmds x ?_ fun _ => ?_; rotate_left; clear_value x; rotate_left; subst x)
      | with_reducible apply State.modFab_kept | with_reducible apply State.takeLine_kept
      | with_reducible apply State.kept_ite | (intro x; clear_value x) | intro x | split

theorem execKxSubDownSet_kept {cmds : List Instr} {s : State} (h : s.Kept cmds) (k : Fin 37) :
    Res.Ok (State.Kept cmds) (execKxSubDownSet k s) := by
  delta execKxSubDownSet
  repeat' first
    | with_reducible assumption | with_reducible apply Res.ok_next | with_reducible apply State.driveLine_kept
      | intro x

theorem execKxSubDownClear_kept {cmds : List Instr} {s : State} (h : s.Kept cmds) (k : Fin 37) :
    Res.Ok (State.Kept cmds) (execKxSubDownClear k s) := by
  delta execKxSubDownClear
  repeat' first
    | with_reducible assumption | with_reducible apply Res.ok_next | with_reducible apply State.driveLine_kept
      | intro x

theorem execSubDrained_kept {cmds : List Instr} {s : State} (h : s.Kept cmds) (k : Fin 37) :
    Res.Ok (State.Kept cmds) (execSubDrained k s) := by
  delta execSubDrained
  repeat' first
    | with_reducible assumption | lift_lets -underBinder | with_reducible apply Res.ok_next
      | (intro x; refine State.kept_cut cmds x ?_ fun _ => ?_; rotate_left; clear_value x; rotate_left; subst x)
      | with_reducible apply State.modFab_kept | with_reducible apply State.resumeSub_kept
      | with_reducible apply Res.ok_ite | with_reducible apply State.kept_ite | (intro x; clear_value x) | intro x
      | split

/-! ### MbxOps -/

theorem State.takeDoorbell_kept {cmds : List Instr} {s : State} (h : s.Kept cmds) :
    (State.takeDoorbell s).Kept cmds := h

theorem State.finish_kept {cmds : List Instr} {s : State} (h : s.Kept cmds) (err : BitVec 8) (l : List Word) :
    (State.finish s err l).Kept cmds := h

theorem State.finishPending_kept {cmds : List Instr} {s : State} (h : s.Kept cmds) (todo : List Nat) :
    (State.finishPending s todo).Kept cmds := h

theorem State.endPending_kept {cmds : List Instr} {s : State} (h : s.Kept cmds) (op : Nat) (err : BitVec 8) :
    (State.endPending s op err).Kept cmds := by
  delta State.endPending
  repeat' first
    | with_reducible assumption | lift_lets -underBinder
      | (intro x; refine State.kept_cut cmds x ?_ fun _ => ?_; rotate_left; clear_value x; rotate_left; subst x)
      | with_reducible apply State.modMbx_kept | with_reducible apply State.event_kept
      | with_reducible apply State.kept_ite | (intro x; clear_value x) | intro x | split

theorem State.checked_kept {cmds : List Instr} {s : State} {go : State → State} (h : s.Kept cmds) (hg : State.Keeps cmds go) (masks : List Nat)
    (checks : List (Bool × BitVec 8)) : (State.checked s masks checks go).Kept cmds := by
  delta State.checked
  split
  · exact State.finish_kept h ..
  · exact hg _ h

theorem State.holdAdm_kept {cmds : List Instr} {s : State} (h : s.Kept cmds) (c : Nat) :
    (State.holdAdm s c).Kept cmds := by
  delta State.holdAdm
  repeat' first
    | with_reducible assumption | with_reducible apply State.tell_kept | intro x

theorem State.freeAdm_kept {cmds : List Instr} {s : State} (h : s.Kept cmds) (c : Nat) :
    (State.freeAdm s c).Kept cmds := by
  delta State.freeAdm
  repeat' first
    | with_reducible assumption | with_reducible apply State.tell_kept | intro x

theorem State.startThaw_kept {cmds : List Instr} {s : State} (h : s.Kept cmds) : (State.startThaw s).Kept cmds :=
  State.takeLines_kept (State.modSys_kept h _)

theorem State.doorbell_kept {cmds : List Instr} {s : State} {run : State → State} (h : s.Kept cmds) (hg : State.Keeps cmds run) (op : Nat)
    (quant : Bool) : (State.doorbell s op quant run).Kept cmds := by
  have h1 : s.takeDoorbell.Kept cmds := State.takeDoorbell_kept h
  simp only [State.doorbell]
  repeat' first
    | with_reducible assumption | with_reducible apply State.startThaw_kept | with_reducible apply State.modMbx_kept
      | with_reducible apply State.Keeps.kept hg | with_reducible apply State.kept_ite | split

/-! ### RepairOps -/

theorem State.addCand_kept {cmds : List Instr} {s : State} (h : s.Kept cmds) (c cause : Nat) :
    (State.addCand s c cause).Kept cmds := by
  delta State.addCand
  repeat' first
    | with_reducible assumption | lift_lets -underBinder
      | (intro x; refine State.kept_cut cmds x ?_ fun _ => ?_; rotate_left; clear_value x; rotate_left; subst x)
      | with_reducible apply State.modStk_kept | with_reducible apply State.kept_ite | (intro x; clear_value x)
      | intro x | split

theorem State.flushRow_kept {cmds : List Instr} {s : State} (h : s.Kept cmds) (p bank row : Nat) :
    (State.flushRow s p bank row).Kept cmds := by
  delta State.flushRow
  repeat' first
    | with_reducible assumption | lift_lets -underBinder
      | (intro x; refine State.kept_cut cmds x ?_ fun _ => ?_; rotate_left; clear_value x; rotate_left; subst x)
      | with_reducible apply State.modDat_kept | with_reducible apply State.each_kept
      | with_reducible apply State.stat_kept | with_reducible apply State.setCode_kept
      | with_reducible apply State.lateCharge_kept | (refine State.Keeps.mk fun _ _ => ?_) | (intro x; clear_value x)
      | intro x

theorem State.readRow_kept {cmds : List Instr} {s : State} (h : s.Kept cmds) (p bank row src : Nat) (stale : Bool) :
    (State.readRow s p bank row src stale).2.Kept cmds := by
  refine List.foldlRecOn (motive := fun (x : List (Code × Bool) × State) => x.2.Kept cmds) _ _ h fun x hx c _ => ?_
  dsimp only
  split
  · exact hx
  · exact State.decode_kept hx ..

theorem State.tryRepair_kept {cmds : List Instr} {s : State} (h : s.Kept cmds) (p : Nat) (x : Repair) :
    (State.tryRepair s p x).Kept cmds := by
  delta State.tryRepair
  lift_lets -underBinder
  intro r gone
  have hg : ∀ {t : State}, t.Kept cmds → (gone t).Kept cmds := fun ht => State.modRep_kept ht ..
  clear_value gone
  split
  · exact hg h
  rename_i c _
  lift_lets -underBinder
  intro s1
  have h1 : s1.Kept cmds := State.readBit_kept h ..
  clear_value s1
  refine State.kept_ite (hg h1) (State.kept_ite (State.addCand_kept (hg h1) ..) ?_)
  have hw : ∀ {t : State}, t.Kept cmds →
      (if r.repWait.contains x then t else t.modRep p fun y => { y with repWait := y.repWait ++ [x] }).Kept cmds :=
    fun ht => State.kept_ite ht (State.modRep_kept ht ..)
  refine State.kept_ite (hw h1) ?_
  split
  · exact hw (State.spendRowHeld_kept h1 ..)
  · rename_i hs
    lift_lets -underBinder
    intro s2
    have h2 : s2.Kept cmds :=
      State.workAct_kept (State.flushRow_kept (State.detBreak_kept (hg (State.spendRow_kept h1 hs)) _) ..) ..
    clear_value s2
    exact State.modRep_kept (State.readRow_kept h2 ..) ..

theorem State.startRepair_kept {cmds : List Instr} {s : State} (h : s.Kept cmds) (p bank row detail : Nat) :
    (State.startRepair s p bank row detail).Kept cmds := by
  delta State.startRepair
  repeat' first
    | with_reducible assumption | lift_lets -underBinder
      | (intro x; refine State.kept_cut cmds x ?_ fun _ => ?_; rotate_left; clear_value x; rotate_left; subst x)
      | with_reducible apply State.tryRepair_kept | with_reducible apply State.reset_kept | (intro x; clear_value x)
      | intro x

theorem State.retryRepairs_kept {cmds : List Instr} {s : State} (h : s.Kept cmds) (p : Nat) :
    (State.retryRepairs s p).Kept cmds := by
  delta State.retryRepairs
  repeat' first
    | with_reducible assumption | lift_lets -underBinder
      | (intro x; refine State.kept_cut cmds x ?_ fun _ => ?_; rotate_left; clear_value x; rotate_left; subst x)
      | with_reducible apply State.tryRepair_kept | with_reducible apply State.kept_ite | (intro x; clear_value x)
      | intro x | split

theorem State.compareOver_kept {cmds : List Instr} {s : State} (h : s.Kept cmds) (q : Nat) (x : Compare) :
    (State.compareOver s q x).Kept cmds := by
  delta State.compareOver
  repeat' first
    | with_reducible assumption | lift_lets -underBinder
      | (intro x; refine State.kept_cut cmds x ?_ fun _ => ?_; rotate_left; clear_value x; rotate_left; subst x)
      | with_reducible apply State.modScr_kept | (intro x; clear_value x) | intro x

theorem State.runFix_kept {cmds : List Instr} {s : State} (h : s.Kept cmds) (q : Nat) (x : Compare) :
    (State.runFix s q x).Kept cmds := by
  delta State.runFix
  repeat' first
    | with_reducible assumption | lift_lets -underBinder
      | (intro x; refine State.kept_cut cmds x ?_ fun _ => ?_; rotate_left; clear_value x; rotate_left; subst x)
      | with_reducible apply State.modDat_kept | with_reducible apply State.report_kept
      | (refine State.spend_kept ?_ ‹State.spend _ _ _ _ = some _›) | with_reducible apply State.spendHeld_kept
      | with_reducible apply State.compareOver_kept | with_reducible apply State.kept_ite | (intro x; clear_value x)
      | intro x | split

theorem State.runCompare_kept {cmds : List Instr} {s : State} (h : s.Kept cmds) (q : Nat) (x : Compare) :
    (State.runCompare s q x).Kept cmds := by
  delta State.runCompare
  repeat' first
    | with_reducible assumption | lift_lets -underBinder
      | (intro x; refine State.kept_cut cmds x ?_ fun _ => ?_; rotate_left; clear_value x; rotate_left; subst x)
      | (intro x; refine State.kept_cut x.1 ?_ fun _ => ?_; rotate_left; clear_value x; rotate_left; subst x)
      | with_reducible apply State.modScr_kept | with_reducible apply State.statSlice_kept
      | (refine State.spend_kept ?_ ‹State.spend _ _ _ _ = some _›) | with_reducible apply State.spendHeld_kept
      | with_reducible apply State.decode_kept | with_reducible apply State.correct_kept
      | with_reducible apply State.workAct_kept | with_reducible apply State.startRepair_kept
      | with_reducible apply State.compareOver_kept | with_reducible apply State.runFix_kept
      | with_reducible apply State.kept_ite | (intro x; clear_value x) | intro x | split | dsimp only

theorem State.retryCompares_kept {cmds : List Instr} {s : State} (h : s.Kept cmds) (q : Nat) :
    (State.retryCompares s q).Kept cmds := by
  delta State.retryCompares
  repeat' first
    | with_reducible assumption
      | (intro x; refine State.kept_cut cmds x ?_ fun _ => ?_; rotate_left; clear_value x; rotate_left; subst x)
      | with_reducible apply State.each_kept | with_reducible apply State.runCompare_kept
      | (refine State.Keeps.mk fun _ _ => ?_) | intro x

theorem State.compareCopies_kept {cmds : List Instr} {s : State} (h : s.Kept cmds) (p : Nat) (k : Key) (data : Line) :
    (State.compareCopies s p k data).Kept cmds := by
  delta State.compareCopies
  repeat' first
    | with_reducible assumption | lift_lets -underBinder
      | (intro x; refine State.kept_cut cmds x ?_ fun _ => ?_; rotate_left; clear_value x; rotate_left; subst x)
      | with_reducible apply State.modScr_kept | with_reducible apply State.runCompare_kept
      | with_reducible apply State.kept_ite | (intro x; clear_value x) | intro x | split

theorem State.endScrub_kept {cmds : List Instr} {s : State} (h : s.Kept cmds) (p : Nat) (f : Flight) (c : Code) :
    (State.endScrub s p f c).Kept cmds := by
  delta State.endScrub
  repeat' first
    | with_reducible assumption | lift_lets -underBinder
      | (intro x; refine State.kept_cut cmds x ?_ fun _ => ?_; rotate_left; clear_value x; rotate_left; subst x)
      | (intro x; refine State.kept_cut x.1 ?_ fun _ => ?_; rotate_left; clear_value x; rotate_left; subst x)
      | with_reducible apply State.modScr_kept | with_reducible apply State.report_kept
      | with_reducible apply State.statSlice_kept | with_reducible apply State.freeEntry_kept
      | with_reducible apply State.decodeBy_kept | with_reducible apply State.correct_kept
      | with_reducible apply State.startRepair_kept | with_reducible apply State.compareCopies_kept
      | with_reducible apply State.kept_ite | (intro x; clear_value x) | intro x
      | (refine State.Kept.of ?_ ?_ ?_ ?_ ?_ ?_ <;> dsimp only) | with_reducible apply State.Kept.mem
      | with_reducible apply State.Kept.ports | with_reducible apply State.Kept.slices
      | with_reducible apply State.Kept.tlm | with_reducible apply State.Kept.recs
      | with_reducible apply State.Kept.queue | split | dsimp only

/-! ### Schedule -/

theorem State.skipStale_kept {cmds : List Instr} {s : State} (h : s.Kept cmds) (p : Nat) :
    (State.skipStale s p).Kept cmds := by
  delta State.skipStale
  repeat' first
    | with_reducible assumption | lift_lets -underBinder
      | (intro x; refine State.kept_cut cmds x ?_ fun _ => ?_; rotate_left; clear_value x; rotate_left; subst x)
      | with_reducible apply State.modSlice_kept | with_reducible apply State.each_kept
      | with_reducible apply State.freeEntry_kept | (refine State.Keeps.mk fun _ _ => ?_)
      | with_reducible apply State.kept_ite | (intro x; clear_value x) | intro x | split

theorem State.doRow_kept {cmds : List Instr} {s : State} (h : s.Kept cmds) (p t : Nat) (c : Cont) (act : Bool) :
    (State.doRow s p t c act).Kept cmds := by
  delta State.doRow
  repeat' first
    | with_reducible assumption
      | (intro x; refine State.kept_cut cmds x ?_ fun _ => ?_; rotate_left; clear_value x; rotate_left; subst x)
      | with_reducible apply State.sendRow_kept | with_reducible apply State.each_kept
      | with_reducible apply State.statSlice_kept | with_reducible apply State.modBt_kept
      | with_reducible apply State.doAct_kept | with_reducible apply State.doPre_kept
      | with_reducible apply State.brewPre_kept | with_reducible apply State.brewCount_kept
      | (refine State.Keeps.mk fun _ _ => ?_) | with_reducible apply State.kept_ite | intro x | split

theorem State.serveOne_kept {cmds : List Instr} {s : State} (h : s.Kept cmds) (p : Nat) (w : WinEnt) (narrow : Bool) (k : Key) :
    (State.serveOne s p w narrow k).Kept cmds := by
  delta State.serveOne
  repeat' first
    | with_reducible assumption | lift_lets -underBinder
      | (intro x; refine State.kept_cut cmds x ?_ fun _ => ?_; rotate_left; clear_value x; rotate_left; subst x)
      | (intro x; refine State.kept_cut x.1 ?_ fun _ => ?_; rotate_left; clear_value x; rotate_left; subst x)
      | with_reducible apply State.modSch_kept | with_reducible apply State.modDat_kept
      | with_reducible apply State.decode_kept | with_reducible apply State.queueCheck_kept
      | with_reducible apply State.chargeScale_kept | with_reducible apply State.endRead_kept
      | with_reducible apply State.endScrub_kept | with_reducible apply State.kept_ite | (intro x; clear_value x)
      | intro x | split | dsimp only

theorem State.serveHeld_kept {cmds : List Instr} {s : State} (h : s.Kept cmds) (p : Nat) :
    (State.serveHeld s p).Kept cmds := by
  delta State.serveHeld
  repeat' first
    | with_reducible assumption | lift_lets -underBinder
      | (intro x; refine State.kept_cut cmds x ?_ fun _ => ?_; rotate_left; clear_value x; rotate_left; subst x)
      | with_reducible apply State.each_kept | with_reducible apply State.serveOne_kept
      | (refine State.Keeps.mk fun _ _ => ?_) | (intro x; clear_value x) | intro x

theorem State.issueRd_kept {cmds : List Instr} {s : State} (h : s.Kept cmds) (p t : Nat) (c : Cont) :
    (State.issueRd s p t c).Kept cmds := by
  delta State.issueRd
  repeat' first
    | with_reducible assumption | lift_lets -underBinder
      | (intro x; refine State.kept_cut cmds x ?_ fun _ => ?_; rotate_left; clear_value x; rotate_left; subst x)
      | with_reducible apply State.modSch_kept | with_reducible apply State.sendCol_kept
      | with_reducible apply State.chargeScale_kept | with_reducible apply State.modBt_kept
      | with_reducible apply State.countHit_kept | with_reducible apply State.kept_ite | (intro x; clear_value x)
      | intro x | split

theorem State.issueWr_kept {cmds : List Instr} {s : State} (h : s.Kept cmds) (p t : Nat) (w : WBuf) :
    (State.issueWr s p t w).Kept cmds := by
  delta State.issueWr
  repeat' first
    | with_reducible assumption | lift_lets -underBinder
      | (intro x; refine State.kept_cut cmds x ?_ fun _ => ?_; rotate_left; clear_value x; rotate_left; subst x)
      | with_reducible apply State.modDat_kept | with_reducible apply State.sendCol_kept
      | with_reducible apply State.setCode_kept | with_reducible apply State.fillWb_kept
      | with_reducible apply State.modBt_kept | with_reducible apply State.countHit_kept | (intro x; clear_value x)
      | intro x

theorem State.issueMac_kept {cmds : List Instr} {s : State} (h : s.Kept cmds) (p t : Nat) :
    (State.issueMac s p t).Kept cmds := by
  delta State.issueMac
  repeat' first
    | with_reducible assumption | lift_lets -underBinder
      | (intro x; refine State.kept_cut cmds x ?_ fun _ => ?_; rotate_left; clear_value x; rotate_left; subst x)
      | with_reducible apply State.sendCol_kept | with_reducible apply State.modBrew_kept
      | with_reducible apply State.each_kept | with_reducible apply State.statSub_kept
      | with_reducible apply State.setCode_kept | with_reducible apply State.modBt_kept
      | with_reducible apply State.countHit_kept | with_reducible apply State.brewCharge_kept
      | with_reducible apply State.brewHeat_kept | with_reducible apply State.foldl_kept
      | with_reducible apply List.foldl_kept | (refine State.Keeps.mk fun _ _ => ?_)
      | with_reducible apply State.kept_ite | (intro x; clear_value x) | intro x | split

theorem State.urgentRefresh_kept {cmds : List Instr} {s : State} (h : s.Kept cmds) (p t i : Nat) :
    (State.urgentRefresh s p t i).Kept cmds := by
  delta State.urgentRefresh
  repeat' first
    | with_reducible assumption | lift_lets -underBinder
      | (intro x; refine State.kept_cut cmds x ?_ fun _ => ?_; rotate_left; clear_value x; rotate_left; subst x)
      | with_reducible apply State.refpb_kept | with_reducible apply State.close_kept
      | with_reducible apply State.kept_ite | (intro x; clear_value x) | intro x | split

theorem State.dueRefresh_kept {cmds : List Instr} {s t : State} (h : s.Kept cmds) {p n : Nat} {busy : List Nat}
    (e : State.dueRefresh s p n busy = some t) : t.Kept cmds := by
  simp only [State.dueRefresh, Option.map_eq_some_iff] at e
  obtain ⟨i, -, rfl⟩ := e
  exact State.urgentRefresh_kept h ..

theorem State.pullIn_kept {cmds : List Instr} {s : State} (h : s.Kept cmds) (p t : Nat) (busy : List Nat) :
    (State.pullIn s p t busy).Kept cmds := by
  delta State.pullIn
  repeat' first
    | with_reducible assumption | lift_lets -underBinder
      | (intro x; refine State.kept_cut cmds x ?_ fun _ => ?_; rotate_left; clear_value x; rotate_left; subst x)
      | with_reducible apply State.refpb_kept | with_reducible apply State.kept_ite | (intro x; clear_value x)
      | intro x | split

theorem State.idleRefresh_kept {cmds : List Instr} {s : State} (h : s.Kept cmds) (p t : Nat) (busy : List Nat) :
    (State.idleRefresh s p t busy).Kept cmds := by
  rw [State.idleRefresh]
  rcases hd : s.dueRefresh p t busy with _ | x
  · exact State.pullIn_kept h ..
  · exact State.dueRefresh_kept h hd

theorem State.wrRow_kept {cmds : List Instr} {s t : State} (h : s.Kept cmds) {p n : Nat} (e : State.wrRow s p n = some t) : t.Kept cmds := by
  delta State.wrRow at e
  lift_lets -underBinder at e
  extract_lets x at e
  clear_value x
  split at e
  · exact absurd e (by simp)
  · split at e
    · exact absurd e (by simp)
    · split at e
      · exact absurd e (by simp)
      · split at e
        · split at e
          · rw [← Option.some.inj e]
            exact State.doPre_kept h ..
          · exact absurd e (by simp)
        · split at e
          · rw [← Option.some.inj e]
            exact State.doAct_kept h ..
          · exact absurd e (by simp)

theorem State.enterSr_kept {cmds : List Instr} {s t : State} (h : s.Kept cmds) {p : Nat} (e : State.enterSr s p = some t) :
    t.Kept cmds := by
  simp only [State.enterSr] at e
  split at e
  · exact absurd e (by simp)
  · rw [← Option.some.inj e]
    exact State.modRf_kept (State.sendRow_kept h ..) ..

theorem State.closeNext_kept {cmds : List Instr} {s t : State} (h : s.Kept cmds) {p n : Nat} (e : State.closeNext s p n = some t) :
    t.Kept cmds := by
  simp only [State.closeNext, Option.map_eq_some_iff] at e
  obtain ⟨i, -, rfl⟩ := e
  exact State.close_kept h ..

theorem State.refreshSlot_kept {cmds : List Instr} {s : State} (h : s.Kept cmds) (p t : Nat) :
    (State.refreshSlot s p t).Kept cmds := by
  delta State.refreshSlot
  refine State.kept_ite h ?_
  split
  · exact State.urgentRefresh_kept h ..
  · split
    · rename_i hs
      split at hs
      · rcases hc : s.closeNext p t with _ | x
        · rw [hc, Option.none_or] at hs
          exact State.enterSr_kept h hs
        · rw [hc, Option.some_or] at hs
          rw [← Option.some.inj hs]
          exact State.closeNext_kept h hc
      · exact absurd hs (by simp)
    · exact State.idleRefresh_kept h ..

theorem State.stopPre_kept {cmds : List Instr} {s t : State} (h : s.Kept cmds) {p n : Nat} (e : State.stopPre s p n = some t) :
    t.Kept cmds := by
  simp only [State.stopPre] at e
  split at e
  · exact absurd e (by simp)
  · split at e
    · exact absurd e (by simp)
    · rw [← Option.some.inj e]
      exact State.modBrew_kept (State.sendRow_kept
        (State.each_kept h fun _ => State.Keeps.mk fun _ hs => State.modBt_kept hs ..) ..) ..

theorem State.sendMirror_kept {cmds : List Instr} {s : State} (h : s.Kept cmds) (p t : Nat) :
    (State.sendMirror s p t).Kept cmds := by
  delta State.sendMirror
  repeat' first
    | with_reducible assumption | lift_lets -underBinder
      | (intro x; refine State.kept_cut cmds x ?_ fun _ => ?_; rotate_left; clear_value x; rotate_left; subst x)
      | with_reducible apply State.modSch_kept | with_reducible apply State.modLink_kept
      | with_reducible apply State.sendRow_kept | with_reducible apply State.reset_kept
      | with_reducible apply State.kept_ite | (intro x; clear_value x) | intro x | split

theorem State.sideWait_kept {cmds : List Instr} {s : State} (h : s.Kept cmds) (p : Nat) :
    (State.sideWait s p).Kept cmds := by
  delta State.sideWait
  repeat' first
    | with_reducible assumption | lift_lets -underBinder
      | (intro x; refine State.kept_cut cmds x ?_ fun _ => ?_; rotate_left; clear_value x; rotate_left; subst x)
      | with_reducible apply State.modSch_kept | (intro x; clear_value x) | intro x

theorem State.sideTake_kept {cmds : List Instr} {s : State} (h : s.Kept cmds) (p : Nat) :
    (State.sideTake s p).Kept cmds := by
  delta State.sideTake
  repeat' first
    | with_reducible assumption | lift_lets -underBinder
      | (intro x; refine State.kept_cut cmds x ?_ fun _ => ?_; rotate_left; clear_value x; rotate_left; subst x)
      | with_reducible apply State.modSch_kept | with_reducible apply State.modLink_kept
      | with_reducible apply State.kept_ite | (intro x; clear_value x) | intro x | split

theorem State.rowSlot_kept {cmds : List Instr} {s : State} (h : s.Kept cmds) (p t : Nat) (cls : Bool) (e : List Cont) :
    (State.rowSlot s p t cls e).Kept cmds := by
  delta State.rowSlot
  lift_lets -underBinder
  intro x busy
  clear_value x busy
  refine State.kept_ite h ?_
  split
  · exact State.urgentRefresh_kept h ..
  refine State.kept_ite (State.sendMirror_kept h ..) ?_
  split
  · rename_i hs
    exact State.stopPre_kept h hs
  split
  · rename_i hs
    split at hs
    · exact State.wrRow_kept h hs
    · exact absurd hs (by simp)
  lift_lets -underBinder
  intro main rest
  split
  · exact State.doRow_kept h ..
  · lift_lets -underBinder
    intro need
    split
    · exact State.doRow_kept h ..
    · exact State.idleRefresh_kept h ..

theorem State.countHeldActs_kept {cmds : List Instr} {s : State} (h : s.Kept cmds) (p : Nat) (e : List Cont) :
    (State.countHeldActs s p e).Kept cmds := by
  delta State.countHeldActs
  repeat' first
    | with_reducible assumption | lift_lets -underBinder
      | (intro x; refine State.kept_cut cmds x ?_ fun _ => ?_; rotate_left; clear_value x; rotate_left; subst x)
      | with_reducible apply State.statSlice_kept | with_reducible apply State.statChan_kept
      | with_reducible apply State.kept_ite | (intro x; clear_value x) | intro x | split

theorem State.grantCheck_kept {cmds : List Instr} {s : State} (h : s.Kept cmds) (p : Nat) :
    (State.grantCheck s p).Kept cmds := by
  delta State.grantCheck
  repeat' first
    | with_reducible assumption | lift_lets -underBinder
      | (intro x; refine State.kept_cut cmds x ?_ fun _ => ?_; rotate_left; clear_value x; rotate_left; subst x)
      | with_reducible apply State.modSch_kept | with_reducible apply State.kept_ite | (intro x; clear_value x)
      | intro x | split

theorem State.issueCont_kept {cmds : List Instr} {s : State} (h : s.Kept cmds) (p t : Nat) (c : Cont) :
    (State.issueCont s p t c).Kept cmds := by
  delta State.issueCont
  repeat' first
    | with_reducible assumption | with_reducible apply State.issueRd_kept | with_reducible apply State.issueMac_kept
      | with_reducible apply State.kept_ite | intro x | split

theorem State.afterGrant_kept {cmds : List Instr} {s : State} (h : s.Kept cmds) (p : Nat) (c : Cont) (no : Nat) (str : Bool) :
    (State.afterGrant s p c no str).Kept cmds := by
  delta State.afterGrant
  repeat' first
    | with_reducible assumption | lift_lets -underBinder
      | (intro x; refine State.kept_cut cmds x ?_ fun _ => ?_; rotate_left; clear_value x; rotate_left; subst x)
      | with_reducible apply State.modSch_kept | with_reducible apply State.kept_ite | (intro x; clear_value x)
      | intro x | split

theorem State.colSlot_kept {cmds : List Instr} {s : State} (h : s.Kept cmds) (p t : Nat) (cls : Bool) (e : List Cont) :
    (State.colSlot s p t cls e).Kept cmds := by
  delta State.colSlot
  repeat' first
    | with_reducible assumption | lift_lets -underBinder
      | (intro x; refine State.kept_cut cmds x ?_ fun _ => ?_; rotate_left; clear_value x; rotate_left; subst x)
      | with_reducible apply State.modSch_kept | with_reducible apply State.statSlice_kept
      | with_reducible apply State.issueWr_kept | with_reducible apply State.issueCont_kept
      | with_reducible apply State.afterGrant_kept | with_reducible apply State.kept_ite | (intro x; clear_value x)
      | intro x | (refine State.Kept.of ?_ ?_ ?_ ?_ ?_ ?_ <;> dsimp only) | with_reducible apply Tab.set_wf
      | with_reducible apply State.Kept.mem | with_reducible apply State.Kept.ports
      | with_reducible apply State.Kept.slices | with_reducible apply State.Kept.tlm
      | with_reducible apply State.Kept.recs | with_reducible apply State.Kept.queue | split

theorem State.phase_kept {cmds : List Instr} {s : State} (h : s.Kept cmds) (p t : Nat) (cls : Bool) (e : List Cont) :
    (State.phase s p t cls e).Kept cmds := by
  delta State.phase
  repeat' first
    | with_reducible assumption | lift_lets -underBinder
      | (intro x; refine State.kept_cut cmds x ?_ fun _ => ?_; rotate_left; clear_value x; rotate_left; subst x)
      | with_reducible apply State.modSch_kept | with_reducible apply State.statSlice_kept
      | with_reducible apply State.kept_ite | (intro x; clear_value x) | intro x | split

theorem State.waitTick_kept {cmds : List Instr} {s : State} (h : s.Kept cmds) (p : Nat) :
    (State.waitTick s p).Kept cmds := by
  delta State.waitTick
  repeat' first
    | with_reducible assumption | lift_lets -underBinder
      | (intro x; refine State.kept_cut cmds x ?_ fun _ => ?_; rotate_left; clear_value x; rotate_left; subst x)
      | with_reducible apply State.modBrew_kept | with_reducible apply State.kept_ite | (intro x; clear_value x)
      | intro x | split

theorem State.countOpHeld_kept {cmds : List Instr} {s : State} (h : s.Kept cmds) (p : Nat) :
    (State.countOpHeld s p).Kept cmds := by
  delta State.countOpHeld
  repeat' first
    | with_reducible assumption | lift_lets -underBinder
      | (intro x; refine State.kept_cut cmds x ?_ fun _ => ?_; rotate_left; clear_value x; rotate_left; subst x)
      | with_reducible apply State.statSlice_kept | with_reducible apply State.kept_ite | (intro x; clear_value x)
      | intro x | split

theorem execChannelSchedule_kept {cmds : List Instr} {s : State} (h : s.Kept cmds) (p : Fin 144) :
    Res.Ok (State.Kept cmds) (execChannelSchedule p s) := by
  delta execChannelSchedule
  repeat' first
    | with_reducible assumption | lift_lets -underBinder | with_reducible apply Res.ok_next
      | (intro x; refine State.kept_cut cmds x ?_ fun _ => ?_; rotate_left; clear_value x; rotate_left; subst x)
      | with_reducible apply State.modSch_kept | with_reducible apply State.modLink_kept
      | with_reducible apply State.readQueue_kept | with_reducible apply State.alertCheck_kept
      | with_reducible apply State.retryRepairs_kept | with_reducible apply State.retryCompares_kept
      | with_reducible apply State.skipStale_kept | with_reducible apply State.serveHeld_kept
      | with_reducible apply State.refreshSlot_kept | with_reducible apply State.rowSlot_kept
      | with_reducible apply State.countHeldActs_kept | with_reducible apply State.grantCheck_kept
      | with_reducible apply State.colSlot_kept | with_reducible apply State.phase_kept
      | with_reducible apply State.waitTick_kept | with_reducible apply State.countOpHeld_kept
      | with_reducible apply Res.ok_ite | with_reducible apply State.kept_ite | (intro x; clear_value x) | intro x
      | split

theorem execRefreshDue_kept {cmds : List Instr} {s : State} (h : s.Kept cmds) (p : Fin 144) (bank : Fin 32) :
    Res.Ok (State.Kept cmds) (execRefreshDue p bank s) := by
  delta execRefreshDue
  repeat' first
    | with_reducible assumption | lift_lets -underBinder | with_reducible apply Res.ok_next
      | (intro x; refine State.kept_cut cmds x ?_ fun _ => ?_; rotate_left; clear_value x; rotate_left; subst x)
      | with_reducible apply State.modRf_kept | with_reducible apply Res.ok_ite | with_reducible apply State.kept_ite
      | (intro x; clear_value x) | intro x | split

theorem execRdtThrottleEnd_kept {cmds : List Instr} {s : State} (h : s.Kept cmds) (k : Fin 37) (c : Fin 128) :
    Res.Ok (State.Kept cmds) (execRdtThrottleEnd k c s) := by
  delta execRdtThrottleEnd
  repeat' first
    | with_reducible assumption | lift_lets -underBinder | with_reducible apply Res.ok_next
      | (intro x; refine State.kept_cut cmds x ?_ fun _ => ?_; rotate_left; clear_value x; rotate_left; subst x)
      | with_reducible apply State.modFab_kept | with_reducible apply Res.ok_ite | with_reducible apply State.kept_ite
      | (intro x; clear_value x) | intro x | split

/-! ### Shaping -/

theorem execMeterTest_kept {cmds : List Instr} {s : State} (h : s.Kept cmds) (k : Fin 48) (svc : Fin 6) :
    Res.Ok (State.Kept cmds) (execMeterTest k svc s) := by
  delta execMeterTest
  repeat' first
    | with_reducible assumption | lift_lets -underBinder | with_reducible apply Res.ok_next
      | (intro x; refine State.kept_cut cmds x ?_ fun _ => ?_; rotate_left; clear_value x; rotate_left; subst x)
      | with_reducible apply State.testHead_kept | with_reducible apply State.addRecs_kept
      | with_reducible apply Res.ok_ite | with_reducible apply State.kept_ite | (intro x; clear_value x) | intro x
      | split

theorem execMeterWheelEvent_kept {cmds : List Instr} {s : State} (h : s.Kept cmds) (k : Fin 48) (svc : Fin 6) :
    Res.Ok (State.Kept cmds) (execMeterWheelEvent k svc s) := by
  delta execMeterWheelEvent
  repeat' first
    | with_reducible assumption | lift_lets -underBinder | with_reducible apply Res.ok_next
      | (intro x; refine State.kept_cut cmds x ?_ fun _ => ?_; rotate_left; clear_value x; rotate_left; subst x)
      | with_reducible apply State.setMeter_kept | with_reducible apply State.settleMeter_kept
      | with_reducible apply State.testHead_kept | with_reducible apply Res.ok_ite
      | with_reducible apply State.kept_ite | (intro x; clear_value x) | intro x | split

theorem State.testHeld_kept {cmds : List Instr} {s : State} (h : s.Kept cmds) (k : Nat) (l : List Nat) : (State.testHeld s k l).Kept cmds := by
  induction l generalizing s with
  | nil => exact h
  | cons i t ih =>
    simp only [State.testHeld]
    split
    · exact State.testHead_kept h ..
    · exact ih (State.testHead_kept h ..)

theorem execSubBucketRefill_kept {cmds : List Instr} {s : State} (h : s.Kept cmds) (k : Fin 48) :
    Res.Ok (State.Kept cmds) (execSubBucketRefill k s) := by
  delta execSubBucketRefill
  repeat' first
    | with_reducible assumption | lift_lets -underBinder | with_reducible apply Res.ok_next
      | (intro x; refine State.kept_cut cmds x ?_ fun _ => ?_; rotate_left; clear_value x; rotate_left; subst x)
      | with_reducible apply State.setBucket_kept | with_reducible apply State.settleBucket_kept
      | with_reducible apply State.placeBucket_kept | with_reducible apply State.testHeld_kept
      | with_reducible apply Res.ok_ite | with_reducible apply State.kept_ite | (intro x; clear_value x) | intro x
      | split

theorem State.periodStart_kept {cmds : List Instr} {s : State} (h : s.Kept cmds) :
    (State.periodStart s).Kept cmds := by
  delta State.periodStart
  repeat' first
    | with_reducible assumption | lift_lets -underBinder
      | (intro x; refine State.kept_cut cmds x ?_ fun _ => ?_; rotate_left; clear_value x; rotate_left; subst x)
      | with_reducible apply State.modFab_kept | with_reducible apply State.modStk_kept
      | with_reducible apply State.kept_ite | (intro x; clear_value x) | intro x | split

theorem execChannelPeriodStart_kept {cmds : List Instr} {s : State} (h : s.Kept cmds) :
    Res.Ok (State.Kept cmds) (execChannelPeriodStart s) := by
  delta execChannelPeriodStart
  repeat' first
    | with_reducible assumption | with_reducible apply Res.ok_next | with_reducible apply State.periodStart_kept
      | with_reducible apply Res.ok_ite | with_reducible apply State.kept_ite | intro x | split

theorem State.enterWaiting_kept {cmds : List Instr} {s : State} (h : s.Kept cmds) (p : Nat) (w : WinEnt) :
    (State.enterWaiting s p w).Kept cmds := by
  delta State.enterWaiting
  repeat' first
    | with_reducible assumption | lift_lets -underBinder
      | (intro x; refine State.kept_cut cmds x ?_ fun _ => ?_; rotate_left; clear_value x; rotate_left; subst x)
      | with_reducible apply State.modSch_kept | with_reducible apply State.modDat_kept
      | with_reducible apply State.icqWrite_kept | with_reducible apply State.insertWin_kept
      | with_reducible apply State.readQueue_kept | with_reducible apply State.kept_ite | (intro x; clear_value x)
      | intro x | split

theorem State.fillOneWaiting_kept {cmds : List Instr} {s : State} (h : s.Kept cmds) (p : Nat) :
    (State.fillOneWaiting s p).Kept cmds := by
  delta State.fillOneWaiting
  repeat' first
    | with_reducible assumption | lift_lets -underBinder
      | (intro x; refine State.kept_cut cmds x ?_ fun _ => ?_; rotate_left; clear_value x; rotate_left; subst x)
      | with_reducible apply State.enterWaiting_kept | with_reducible apply State.kept_ite | (intro x; clear_value x)
      | intro x | split

theorem State.fillWaiting_kept {cmds : List Instr} {s : State} (h : s.Kept cmds) (p : Nat) :
    (State.fillWaiting s p).Kept cmds := by
  delta State.fillWaiting
  repeat' first
    | with_reducible assumption
      | (intro x; refine State.kept_cut cmds x ?_ fun _ => ?_; rotate_left; clear_value x; rotate_left; subst x)
      | with_reducible apply State.each_kept | with_reducible apply State.fillOneWaiting_kept
      | (refine State.Keeps.mk fun _ _ => ?_) | intro x

theorem State.takeHead_kept {cmds : List Instr} {s : State} (h : s.Kept cmds) (p : Piece) :
    (State.takeHead s p).Kept cmds := by
  delta State.takeHead
  repeat' first
    | with_reducible assumption | lift_lets -underBinder
      | (intro x; refine State.kept_cut cmds x ?_ fun _ => ?_; rotate_left; clear_value x; rotate_left; subst x)
      | with_reducible apply State.modFab_kept | with_reducible apply State.modDat_kept
      | with_reducible apply State.icqWrite_kept | with_reducible apply State.insertWin_kept
      | with_reducible apply State.insertNarrow_kept | with_reducible apply State.readQueue_kept
      | with_reducible apply State.queueWrites_kept | with_reducible apply State.kept_ite | intro x
      | (refine State.Kept.of ?_ ?_ ?_ ?_ ?_ ?_ <;> dsimp only) | with_reducible apply State.Kept.mem
      | with_reducible apply State.Kept.ports | with_reducible apply State.Kept.slices
      | with_reducible apply State.Kept.tlm | with_reducible apply State.Kept.recs
      | with_reducible apply State.Kept.queue | split

theorem State.countExcluded_kept {cmds : List Instr} {s : State} (h : s.Kept cmds) (c : Nat) (heads : List Piece) :
    (State.countExcluded s c heads).Kept cmds := by
  delta State.countExcluded
  repeat' first
    | with_reducible assumption | lift_lets -underBinder
      | (intro x; refine State.kept_cut cmds x ?_ fun _ => ?_; rotate_left; clear_value x; rotate_left; subst x)
      | with_reducible apply State.statChan_kept | with_reducible apply State.kept_ite | (intro x; clear_value x)
      | intro x | split

theorem execChannelFill_kept {cmds : List Instr} {s : State} (h : s.Kept cmds) (c : Fin 128) :
    Res.Ok (State.Kept cmds) (execChannelFill c s) := by
  delta execChannelFill
  repeat' first
    | with_reducible assumption | lift_lets -underBinder | with_reducible apply Res.ok_next
      | (intro x; refine State.kept_cut cmds x ?_ fun _ => ?_; rotate_left; clear_value x; rotate_left; subst x)
      | with_reducible apply State.each_kept | with_reducible apply State.fillWaiting_kept
      | with_reducible apply State.takeHead_kept | with_reducible apply State.countExcluded_kept
      | (refine State.Keeps.mk fun _ _ => ?_) | with_reducible apply Res.ok_ite | with_reducible apply State.kept_ite
      | (intro x; clear_value x) | intro x | split

theorem State.addSamples_kept {cmds : List Instr} {s : State} (h : s.Kept cmds) (page dBase hBase idle : Nat) (qs : List (Nat × Option Nat)) :
    (State.addSamples s page dBase hBase idle qs).Kept cmds := by
  delta State.addSamples
  repeat' first
    | with_reducible assumption | lift_lets -underBinder
      | (intro x; refine State.kept_cut cmds x ?_ fun _ => ?_; rotate_left; clear_value x; rotate_left; subst x)
      | with_reducible apply State.each_kept | with_reducible apply State.stat_kept
      | (refine State.Keeps.mk fun _ _ => ?_) | with_reducible apply State.kept_ite | (intro x; clear_value x)
      | intro x | split

theorem State.queueSample_kept {cmds : List Instr} {s : State} (h : s.Kept cmds) :
    (State.queueSample s).Kept cmds := by
  delta State.queueSample
  repeat' first
    | with_reducible assumption | lift_lets -underBinder
      | (intro x; refine State.kept_cut cmds x ?_ fun _ => ?_; rotate_left; clear_value x; rotate_left; subst x)
      | with_reducible apply State.modFab_kept | with_reducible apply State.each_kept
      | with_reducible apply State.addSamples_kept | (refine State.Keeps.mk fun _ _ => ?_)
      | with_reducible apply State.kept_ite | (intro x; clear_value x) | intro x | split

theorem execQueueSample_kept {cmds : List Instr} {s : State} (h : s.Kept cmds) :
    Res.Ok (State.Kept cmds) (execQueueSample s) := by
  delta execQueueSample
  repeat' first
    | with_reducible assumption | with_reducible apply Res.ok_next | with_reducible apply State.queueSample_kept
      | with_reducible apply Res.ok_ite | with_reducible apply State.kept_ite | intro x | split

/-! ### ChanData -/

theorem execReadDataReturn_kept {cmds : List Instr} {s : State} (h : s.Kept cmds) (p : Fin 144) (err : BitVec 576) :
    Res.Ok (State.Kept cmds) (execReadDataReturn p err s) := by
  delta execReadDataReturn
  repeat' first
    | with_reducible assumption | lift_lets -underBinder | with_reducible apply Res.ok_next
      | (intro x; refine State.kept_cut cmds x ?_ fun _ => ?_; rotate_left; clear_value x; rotate_left; subst x)
      | (intro x; refine State.kept_cut x.1 ?_ fun _ => ?_; rotate_left; clear_value x; rotate_left; subst x)
      | with_reducible apply State.modSch_kept | with_reducible apply State.decodeBy_kept
      | with_reducible apply State.correct_kept | with_reducible apply State.queueCheck_kept
      | with_reducible apply State.endRead_kept | with_reducible apply State.endScrub_kept
      | with_reducible apply Res.ok_ite | with_reducible apply State.kept_ite | (intro x; clear_value x) | intro x
      | split | dsimp only

theorem execWriteBufferEnter_kept {cmds : List Instr} {s : State} (h : s.Kept cmds) (p : Fin 144) :
    Res.Ok (State.Kept cmds) (execWriteBufferEnter p s) := by
  delta execWriteBufferEnter
  repeat' first
    | with_reducible assumption | lift_lets -underBinder | with_reducible apply Res.ok_next
      | (intro x; refine State.kept_cut cmds x ?_ fun _ => ?_; rotate_left; clear_value x; rotate_left; subst x)
      | with_reducible apply State.modDat_kept | with_reducible apply State.endAccess_kept
      | with_reducible apply State.evict_kept | with_reducible apply State.runFill_kept
      | with_reducible apply State.chargeScale_kept | with_reducible apply Res.ok_ite
      | with_reducible apply State.kept_ite | (intro x; clear_value x) | intro x | split

theorem execAccPieceApply_kept {cmds : List Instr} {s : State} (h : s.Kept cmds) (p : Fin 144) :
    Res.Ok (State.Kept cmds) (execAccPieceApply p s) := by
  delta execAccPieceApply
  repeat' first
    | with_reducible assumption | lift_lets -underBinder | with_reducible apply Res.ok_next
      | (intro x; refine State.kept_cut cmds x ?_ fun _ => ?_; rotate_left; clear_value x; rotate_left; subst x)
      | with_reducible apply State.modSch_kept | with_reducible apply State.modDat_kept
      | with_reducible apply State.statSlice_kept | with_reducible apply State.endAccess_kept
      | with_reducible apply State.runFill_kept | with_reducible apply State.fillWaiting_kept
      | with_reducible apply State.reset_kept | with_reducible apply Res.ok_ite | with_reducible apply State.kept_ite
      | (intro x; clear_value x) | intro x | split

theorem State.resealCheck_kept {cmds : List Instr} {s : State} (h : s.Kept cmds) :
    (State.resealCheck s).Kept cmds := by
  delta State.resealCheck
  repeat' first
    | with_reducible assumption | lift_lets -underBinder
      | (intro x; refine State.kept_cut cmds x ?_ fun _ => ?_; rotate_left; clear_value x; rotate_left; subst x)
      | with_reducible apply State.finish_kept | with_reducible apply State.kept_ite | (intro x; clear_value x)
      | intro x | split

theorem State.resealPast_kept {cmds : List Instr} {s : State} (h : s.Kept cmds) (k : Nat) (skipped : Bool) :
    (State.resealPast s k skipped).Kept cmds := h

theorem State.resealRow_kept {cmds : List Instr} {s : State} (h : s.Kept cmds) (p bank row cause : Nat) :
    (State.resealRow s p bank row cause).Kept cmds := by
  delta State.resealRow
  repeat' first
    | with_reducible assumption | lift_lets -underBinder
      | (intro x; refine State.kept_cut cmds x ?_ fun _ => ?_; rotate_left; clear_value x; rotate_left; subst x)
      | with_reducible apply State.modDat_kept | with_reducible apply State.each_kept
      | with_reducible apply State.statSlice_kept | with_reducible apply State.resealDone_kept
      | with_reducible apply State.workAct_kept | (refine State.Keeps.mk fun _ _ => ?_)
      | with_reducible apply State.kept_ite | (intro x; clear_value x) | intro x | split

theorem execResealRow_kept {cmds : List Instr} {s : State} (h : s.Kept cmds) (c : Fin 128) (bank : Fin 32) (row : Fin 16384) :
    Res.Ok (State.Kept cmds) (execResealRow c bank row s) := by
  delta execResealRow
  repeat' first
    | with_reducible assumption | lift_lets -underBinder | with_reducible apply Res.ok_next
      | (intro x; refine State.kept_cut cmds x ?_ fun _ => ?_; rotate_left; clear_value x; rotate_left; subst x)
      | with_reducible apply State.readBit_kept | (refine State.spendRow_kept ?_ ‹State.spendRow _ _ = some _›)
      | with_reducible apply State.spendRowHeld_kept | with_reducible apply State.resealCheck_kept
      | with_reducible apply State.resealPast_kept | with_reducible apply State.resealRow_kept
      | with_reducible apply Res.ok_ite | with_reducible apply State.kept_ite | (intro x; clear_value x) | intro x
      | split

/-! ### LinkOps -/

theorem State.linkEvent_kept {cmds : List Instr} {s : State} (h : s.Kept cmds) (e : Ev) (p bond cause : Nat) :
    (State.linkEvent s e p bond cause).Kept cmds := by
  delta State.linkEvent
  repeat' first
    | with_reducible assumption | with_reducible apply State.report_kept | intro x

theorem State.holdChan_kept {cmds : List Instr} {s : State} (h : s.Kept cmds) (p : Nat) :
    (State.holdChan s p).Kept cmds := by
  delta State.holdChan
  repeat' first
    | with_reducible assumption | with_reducible apply State.tell_kept | intro x

theorem State.unholdChan_kept {cmds : List Instr} {s : State} (h : s.Kept cmds) (p : Nat) :
    (State.unholdChan s p).Kept cmds := by
  delta State.unholdChan
  repeat' first
    | with_reducible assumption | with_reducible apply State.tell_kept | intro x

theorem State.takeTrims_kept {cmds : List Instr} {s : State} (h : s.Kept cmds) (p : Nat) :
    (State.takeTrims s p).Kept cmds := by
  delta State.takeTrims
  repeat' first
    | with_reducible assumption | lift_lets -underBinder
      | (intro x; refine State.kept_cut cmds x ?_ fun _ => ?_; rotate_left; clear_value x; rotate_left; subst x)
      | with_reducible apply State.modLink_kept | with_reducible apply State.foldl_kept
      | with_reducible apply List.foldl_kept | (intro x; clear_value x) | intro x

theorem State.dueIfDerived_kept {cmds : List Instr} {s : State} (h : s.Kept cmds) (p : Nat) :
    (State.dueIfDerived s p).Kept cmds := by
  delta State.dueIfDerived
  repeat' first
    | with_reducible assumption | lift_lets -underBinder
      | (intro x; refine State.kept_cut cmds x ?_ fun _ => ?_; rotate_left; clear_value x; rotate_left; subst x)
      | with_reducible apply State.modLink_kept | (intro x; clear_value x) | intro x

theorem State.calDone_kept {cmds : List Instr} {s : State} (h : s.Kept cmds) (p kind : Nat) :
    (State.calDone s p kind).Kept cmds := by
  delta State.calDone
  repeat' first
    | with_reducible assumption | lift_lets -underBinder
      | (intro x; refine State.kept_cut cmds x ?_ fun _ => ?_; rotate_left; clear_value x; rotate_left; subst x)
      | with_reducible apply State.modLink_kept | (intro x; clear_value x) | intro x

theorem State.calYield_kept {cmds : List Instr} {s : State} (h : s.Kept cmds) (p : Nat) :
    (State.calYield s p).Kept cmds := by
  delta State.calYield
  repeat' first
    | with_reducible assumption | lift_lets -underBinder
      | (intro x; refine State.kept_cut cmds x ?_ fun _ => ?_; rotate_left; clear_value x; rotate_left; subst x)
      | with_reducible apply State.modLink_kept | with_reducible apply State.statSlice_kept
      | with_reducible apply State.kept_ite | (intro x; clear_value x) | intro x | split

theorem State.startRetrain_kept {cmds : List Instr} {s : State} (h : s.Kept cmds) (p cause : Nat) :
    (State.startRetrain s p cause).Kept cmds := by
  delta State.startRetrain
  repeat' first
    | with_reducible assumption | lift_lets -underBinder
      | (intro x; refine State.kept_cut cmds x ?_ fun _ => ?_; rotate_left; clear_value x; rotate_left; subst x)
      | with_reducible apply State.modLink_kept | with_reducible apply State.statSlice_kept
      | with_reducible apply State.detBreak_kept | with_reducible apply State.holdChan_kept
      | with_reducible apply State.calYield_kept | with_reducible apply State.kept_ite | (intro x; clear_value x)
      | intro x | split

theorem State.failBond_kept {cmds : List Instr} {s : State} (h : s.Kept cmds) (p b : Nat) :
    (State.failBond s p b).Kept cmds := by
  delta State.failBond
  repeat' first
    | with_reducible assumption | lift_lets -underBinder
      | (intro x; refine State.kept_cut cmds x ?_ fun _ => ?_; rotate_left; clear_value x; rotate_left; subst x)
      | with_reducible apply State.modSch_kept | with_reducible apply State.modLink_kept
      | with_reducible apply State.linkEvent_kept | with_reducible apply State.startRetrain_kept
      | with_reducible apply State.reset_kept | with_reducible apply State.kept_ite | (intro x; clear_value x)
      | intro x | split

theorem State.replaceLane_kept {cmds : List Instr} {s : State} (h : s.Kept cmds) (p k : Nat) :
    (State.replaceLane s p k).Kept cmds := by
  delta State.replaceLane
  repeat' first
    | with_reducible assumption | lift_lets -underBinder
      | (intro x; refine State.kept_cut cmds x ?_ fun _ => ?_; rotate_left; clear_value x; rotate_left; subst x)
      | with_reducible apply State.modLink_kept | with_reducible apply State.linkEvent_kept
      | with_reducible apply State.kept_ite | (intro x; clear_value x) | intro x | split

theorem State.enterNarrow_kept {cmds : List Instr} {s : State} (h : s.Kept cmds) (p : Nat) :
    (State.enterNarrow s p).Kept cmds := by
  delta State.enterNarrow
  repeat' first
    | with_reducible assumption | lift_lets -underBinder
      | (intro x; refine State.kept_cut cmds x ?_ fun _ => ?_; rotate_left; clear_value x; rotate_left; subst x)
      | with_reducible apply State.modLink_kept | with_reducible apply State.linkEvent_kept
      | with_reducible apply State.foldl_kept | with_reducible apply List.foldl_kept
      | with_reducible apply State.kept_ite | (intro x; clear_value x) | intro x | split

theorem State.replaceBonds_kept {cmds : List Instr} {s : State} (h : s.Kept cmds) (p : Nat) : (State.replaceBonds s p).1.Kept cmds := by
  simp only [State.replaceBonds]
  repeat' first
    | with_reducible assumption | with_reducible apply State.modLink_kept | with_reducible apply State.modSch_kept
      | with_reducible apply State.each_kept
      | with_reducible apply State.replaceLane_kept | with_reducible apply State.enterNarrow_kept
      | (refine State.Keeps.mk fun _ _ => ?_) | intro x | with_reducible apply State.kept_ite

theorem State.newScrub_kept {cmds : List Instr} {s : State} (h : s.Kept cmds) (p : Nat) :
    (State.newScrub s p).Kept cmds := by
  delta State.newScrub
  repeat' first
    | with_reducible assumption | lift_lets -underBinder
      | (intro x; refine State.kept_cut cmds x ?_ fun _ => ?_; rotate_left; clear_value x; rotate_left; subst x)
      | with_reducible apply State.modScr_kept | with_reducible apply State.kept_ite | (intro x; clear_value x)
      | intro x | split

theorem State.fenceAccs_kept {cmds : List Instr} {s : State} (h : s.Kept cmds) (c : Nat) (ps : List Nat) :
    (State.fenceAccs s c ps).Kept cmds := h

theorem State.fenceChan_kept {cmds : List Instr} {s : State} (h : s.Kept cmds) (c : Nat) (ps : List Nat) :
    (State.fenceChan s c ps).Kept cmds := by
  delta State.fenceChan
  repeat' first
    | with_reducible assumption | lift_lets -underBinder
      | (intro x; refine State.kept_cut cmds x ?_ fun _ => ?_; rotate_left; clear_value x; rotate_left; subst x)
      | with_reducible apply State.modSlice_kept | with_reducible apply State.modFab_kept
      | with_reducible apply State.each_kept | with_reducible apply State.icqRelease_kept
      | with_reducible apply State.lateOnce_kept | with_reducible apply State.settleGather_kept
      | with_reducible apply State.fenceAccs_kept | with_reducible apply State.reset_kept
      | (refine State.Keeps.mk fun _ _ => ?_) | (intro x; clear_value x) | intro x

theorem State.fenceLaunches_kept {cmds : List Instr} {s : State} (h : s.Kept cmds) (c : Nat) (ps : List Nat) :
    (State.fenceLaunches s c ps).Kept cmds := by
  delta State.fenceLaunches
  repeat' first
    | with_reducible assumption | lift_lets -underBinder
      | (intro x; refine State.kept_cut cmds x ?_ fun _ => ?_; rotate_left; clear_value x; rotate_left; subst x)
      | with_reducible apply State.each_kept | with_reducible apply State.brewStopped_kept
      | with_reducible apply State.killLaunch_kept | (refine State.Keeps.mk fun _ _ => ?_)
      | with_reducible apply State.kept_ite | (intro x; clear_value x) | intro x | split

theorem State.chanFence_kept {cmds : List Instr} {s : State} (h : s.Kept cmds) (c p cause : Nat) (ps : List Nat) :
    (State.chanFence s c p cause ps).Kept cmds := by
  delta State.chanFence
  repeat' first
    | with_reducible assumption | lift_lets -underBinder
      | (intro x; refine State.kept_cut cmds x ?_ fun _ => ?_; rotate_left; clear_value x; rotate_left; subst x)
      | with_reducible apply State.event_kept | with_reducible apply State.setRemap_kept
      | with_reducible apply State.fenceChan_kept | with_reducible apply State.fenceLaunches_kept
      | (intro x; clear_value x) | intro x

theorem State.outOfService_kept {cmds : List Instr} {s : State} (h : s.Kept cmds) (p : Nat) :
    (State.outOfService s p).Kept cmds := by
  delta State.outOfService
  repeat' first
    | with_reducible assumption | lift_lets -underBinder
      | (intro x; refine State.kept_cut cmds x ?_ fun _ => ?_; rotate_left; clear_value x; rotate_left; subst x)
      | with_reducible apply State.modSlice_kept | with_reducible apply State.modLink_kept
      | with_reducible apply State.sre_kept | with_reducible apply State.kept_ite | (intro x; clear_value x) | intro x
      | split

theorem State.calRunDrop_kept {cmds : List Instr} {s : State} (h : s.Kept cmds) (p : Nat) :
    (State.calRunDrop s p).Kept cmds := by
  delta State.calRunDrop
  repeat' first
    | with_reducible assumption | lift_lets -underBinder
      | (intro x; refine State.kept_cut cmds x ?_ fun _ => ?_; rotate_left; clear_value x; rotate_left; subst x)
      | with_reducible apply State.modMbx_kept | with_reducible apply State.endPending_kept
      | with_reducible apply State.kept_ite | (intro x; clear_value x) | intro x | split

theorem State.retrainCmd_kept {cmds : List Instr} {s : State} (h : s.Kept cmds) (p : Nat) :
    (State.retrainCmd s p).Kept cmds := by
  delta State.retrainCmd
  repeat' first
    | with_reducible assumption | lift_lets -underBinder
      | (intro x; refine State.kept_cut cmds x ?_ fun _ => ?_; rotate_left; clear_value x; rotate_left; subst x)
      | with_reducible apply State.finish_kept | with_reducible apply State.kept_ite | (intro x; clear_value x)
      | intro x | split

theorem State.retireSlice_kept {cmds : List Instr} {s : State} (h : s.Kept cmds) (p : Nat) :
    (State.retireSlice s p).Kept cmds := by
  delta State.retireSlice
  repeat' first
    | with_reducible assumption | with_reducible apply State.outOfService_kept
      | with_reducible apply State.calRunDrop_kept | with_reducible apply State.retrainCmd_kept | intro x

theorem State.fenceSlice_kept {cmds : List Instr} {s : State} (h : s.Kept cmds) (p : Nat) :
    (State.fenceSlice s p).Kept cmds := by
  delta State.fenceSlice
  repeat' first
    | with_reducible assumption | lift_lets -underBinder
      | (intro x; refine State.kept_cut cmds x ?_ fun _ => ?_; rotate_left; clear_value x; rotate_left; subst x)
      | with_reducible apply State.modStk_kept | with_reducible apply State.event_kept
      | with_reducible apply State.detBreak_kept | with_reducible apply State.endPending_kept
      | with_reducible apply State.chanFence_kept | with_reducible apply State.retireSlice_kept
      | with_reducible apply State.kept_ite | (intro x; clear_value x) | intro x | split

/-! ### Calib -/

theorem execCalPassStart_kept {cmds : List Instr} {s : State} (h : s.Kept cmds) (p : Fin 144) :
    Res.Ok (State.Kept cmds) (execCalPassStart p s) := by
  delta execCalPassStart
  repeat' first
    | with_reducible assumption | lift_lets -underBinder | with_reducible apply Res.ok_next
      | (intro x; refine State.kept_cut cmds x ?_ fun _ => ?_; rotate_left; clear_value x; rotate_left; subst x)
      | with_reducible apply State.modLink_kept | with_reducible apply State.detBreak_kept
      | with_reducible apply Res.ok_ite | with_reducible apply State.kept_ite | (intro x; clear_value x) | intro x
      | split

theorem State.useTrim_kept {cmds : List Instr} {s : State} (h : s.Kept cmds) (p b : Nat) (w : BitVec 32) :
    (State.useTrim s p b w).Kept cmds := by
  delta State.useTrim
  repeat' first
    | with_reducible assumption | lift_lets -underBinder
      | (intro x; refine State.kept_cut cmds x ?_ fun _ => ?_; rotate_left; clear_value x; rotate_left; subst x)
      | with_reducible apply State.modLink_kept | (intro x; clear_value x) | intro x

theorem execCalLane_kept {cmds : List Instr} {s : State} (h : s.Kept cmds) (p : Fin 144) (bondTrim : BitVec 32) (spareTrim : BitVec 32) :
    Res.Ok (State.Kept cmds) (execCalLane p bondTrim spareTrim s) := by
  delta execCalLane
  repeat' first
    | with_reducible assumption | lift_lets -underBinder | with_reducible apply Res.ok_next
      | (intro x; refine State.kept_cut cmds x ?_ fun _ => ?_; rotate_left; clear_value x; rotate_left; subst x)
      | with_reducible apply State.modLink_kept | with_reducible apply State.statSlice_kept
      | with_reducible apply State.detBreak_kept | with_reducible apply State.sideWait_kept
      | with_reducible apply State.sideTake_kept | with_reducible apply State.calDone_kept
      | with_reducible apply State.calRunDrop_kept | with_reducible apply State.useTrim_kept
      | with_reducible apply Res.ok_ite | with_reducible apply State.kept_ite | (intro x; clear_value x) | intro x
      | split

theorem execLsteerSwitch_kept {cmds : List Instr} {s : State} (h : s.Kept cmds) (p : Fin 144) :
    Res.Ok (State.Kept cmds) (execLsteerSwitch p s) := by
  delta execLsteerSwitch
  repeat' first
    | with_reducible assumption | lift_lets -underBinder | with_reducible apply Res.ok_next
      | (intro x; refine State.kept_cut cmds x ?_ fun _ => ?_; rotate_left; clear_value x; rotate_left; subst x)
      | with_reducible apply State.modLink_kept | with_reducible apply State.sendRow_kept
      | with_reducible apply State.sideWait_kept | with_reducible apply State.sideTake_kept
      | with_reducible apply State.reset_kept | with_reducible apply Res.ok_ite | with_reducible apply State.kept_ite
      | (intro x; clear_value x) | intro x | split

theorem execSbAlertN_kept {cmds : List Instr} {s : State} (h : s.Kept cmds) (p : Fin 144) (executed : BitVec 16) :
    Res.Ok (State.Kept cmds) (execSbAlertN p executed s) := by
  delta execSbAlertN
  repeat' first
    | with_reducible assumption | lift_lets -underBinder | with_reducible apply Res.ok_next
      | (intro x; refine State.kept_cut cmds x ?_ fun _ => ?_; rotate_left; clear_value x; rotate_left; subst x)
      | with_reducible apply State.modLink_kept | with_reducible apply State.errCount_kept
      | with_reducible apply State.startRetrain_kept | with_reducible apply Res.ok_ite
      | with_reducible apply State.kept_ite | (intro x; clear_value x) | intro x | split

theorem execEpCkLockLost_kept {cmds : List Instr} {s : State} (h : s.Kept cmds) (p : Fin 144) :
    Res.Ok (State.Kept cmds) (execEpCkLockLost p s) := by
  delta execEpCkLockLost
  repeat' first
    | with_reducible assumption | with_reducible apply Res.ok_next | with_reducible apply State.startRetrain_kept
      | intro x

theorem execReadStrobeLost_kept {cmds : List Instr} {s : State} (h : s.Kept cmds) (p : Fin 144) :
    Res.Ok (State.Kept cmds) (execReadStrobeLost p s) := by
  delta execReadStrobeLost
  repeat' first
    | with_reducible assumption | with_reducible apply Res.ok_next | with_reducible apply State.startRetrain_kept
      | intro x

theorem State.newSliceReady_kept {cmds : List Instr} {s : State} (h : s.Kept cmds) (p : Nat) :
    (State.newSliceReady s p).Kept cmds := by
  delta State.newSliceReady
  repeat' first
    | with_reducible assumption | lift_lets -underBinder
      | (intro x; refine State.kept_cut cmds x ?_ fun _ => ?_; rotate_left; clear_value x; rotate_left; subst x)
      | with_reducible apply State.modStk_kept | with_reducible apply State.modScr_kept
      | with_reducible apply State.each_kept | with_reducible apply State.event_kept
      | with_reducible apply State.setRemap_kept | with_reducible apply State.dropScrubs_kept
      | (refine State.Keeps.mk fun _ _ => ?_) | with_reducible apply State.kept_ite | (intro x; clear_value x)
      | intro x | split

theorem State.sendAgain_kept {cmds : List Instr} {s : State} (h : s.Kept cmds) (p : Nat) :
    (State.sendAgain s p).Kept cmds := by
  delta State.sendAgain
  repeat' first
    | with_reducible assumption | lift_lets -underBinder
      | (intro x; refine State.kept_cut cmds x ?_ fun _ => ?_; rotate_left; clear_value x; rotate_left; subst x)
      | with_reducible apply State.modSlice_kept | with_reducible apply State.foldl_kept
      | with_reducible apply List.foldl_kept | with_reducible apply State.kept_ite | (intro x; clear_value x)
      | intro x | split

theorem State.measureAll_kept {cmds : List Instr} {s : State} (h : s.Kept cmds) (p : Nat) (o : TrainOutcome) :
    (State.measureAll s p o).Kept cmds := by
  delta State.measureAll
  repeat' first
    | with_reducible assumption | lift_lets -underBinder
      | (intro x; refine State.kept_cut cmds x ?_ fun _ => ?_; rotate_left; clear_value x; rotate_left; subst x)
      | with_reducible apply State.each_kept | with_reducible apply State.useTrim_kept
      | (refine State.Keeps.mk fun _ _ => ?_) | (intro x; clear_value x) | intro x

theorem execRetrainEnd_kept {cmds : List Instr} {s : State} (h : s.Kept cmds) (p : Fin 144) (o : TrainOutcome) :
    Res.Ok (State.Kept cmds) (execRetrainEnd p o s) := by
  delta execRetrainEnd
  repeat' first
    | with_reducible assumption | lift_lets -underBinder | with_reducible apply Res.ok_next
      | (intro x; refine State.kept_cut cmds x ?_ fun _ => ?_; rotate_left; clear_value x; rotate_left; subst x)
      | (intro x; refine State.kept_cut x.1 ?_ fun _ => ?_; rotate_left; clear_value x; rotate_left; subst x)
      | with_reducible apply State.modLink_kept | with_reducible apply State.nextFree_kept
      | with_reducible apply State.addCand_kept | with_reducible apply State.linkEvent_kept
      | with_reducible apply State.unholdChan_kept | with_reducible apply State.takeTrims_kept
      | with_reducible apply State.calDone_kept | with_reducible apply State.replaceBonds_kept
      | with_reducible apply State.retrainCmd_kept | with_reducible apply State.fenceSlice_kept
      | with_reducible apply State.newSliceReady_kept | with_reducible apply State.sendAgain_kept
      | with_reducible apply State.measureAll_kept | with_reducible apply State.foldl_kept
      | with_reducible apply List.foldl_kept | with_reducible apply Res.ok_ite | with_reducible apply State.kept_ite
      | (intro x; clear_value x) | intro x | split | dsimp only

/-! ### Egress -/

theorem State.driveRsp_kept {cmds : List Instr} {s : State} (h : s.Kept cmds) (k : Nat) (data header : Nat) :
    (State.driveRsp s k data header).Kept cmds := by
  delta State.driveRsp
  repeat' first
    | with_reducible assumption | lift_lets -underBinder
      | (intro x; refine State.kept_cut cmds x ?_ fun _ => ?_; rotate_left; clear_value x; rotate_left; subst x)
      | with_reducible apply State.modPort_kept | with_reducible apply State.kept_ite | (intro x; clear_value x)
      | intro x | split

theorem State.closeDelivered_kept {cmds : List Instr} {s : State} (h : s.Kept cmds) (e : Entry) :
    (State.closeDelivered s e).Kept cmds := by
  delta State.closeDelivered
  repeat' first
    | with_reducible assumption | lift_lets -underBinder
      | (intro x; refine State.kept_cut cmds x ?_ fun _ => ?_; rotate_left; clear_value x; rotate_left; subst x)
      | with_reducible apply State.feedEnd_kept | with_reducible apply State.kept_ite | (intro x; clear_value x)
      | intro x | split

theorem State.rspOver_kept {cmds : List Instr} {s : State} (h : s.Kept cmds) (e : Entry) :
    (State.rspOver s e).Kept cmds := by
  delta State.rspOver
  repeat' first
    | with_reducible assumption | lift_lets -underBinder
      | (intro x; refine State.kept_cut cmds x ?_ fun _ => ?_; rotate_left; clear_value x; rotate_left; subst x)
      | with_reducible apply State.modPort_kept | with_reducible apply State.countLate_kept
      | with_reducible apply State.retire_kept | with_reducible apply State.closeDelivered_kept
      | with_reducible apply State.kept_ite | (intro x; clear_value x) | intro x | split

theorem State.rdBeat_kept {cmds : List Instr} {s : State} (h : s.Kept cmds) (e : Entry) :
    (State.rdBeat s e).Kept cmds := by
  delta State.rdBeat
  repeat' first
    | with_reducible assumption | lift_lets -underBinder
      | (intro x; refine State.kept_cut cmds x ?_ fun _ => ?_; rotate_left; clear_value x; rotate_left; subst x)
      | (intro x; refine State.kept_cut x.1 ?_ fun _ => ?_; rotate_left; clear_value x; rotate_left; subst x)
      | with_reducible apply State.modPort_kept | with_reducible apply State.modEntry_kept
      | with_reducible apply State.feed_kept | with_reducible apply State.countExpand_kept
      | with_reducible apply State.driveRsp_kept | with_reducible apply State.rspOver_kept
      | with_reducible apply State.foldl_kept | with_reducible apply List.foldl_kept
      | with_reducible apply State.kept_ite | (intro x; clear_value x) | intro x | split | dsimp only

theorem execResponseBeat_kept {cmds : List Instr} {s : State} (h : s.Kept cmds) (port : Fin 36) :
    Res.Ok (State.Kept cmds) (execResponseBeat port s) := by
  delta execResponseBeat
  repeat' first
    | with_reducible assumption | lift_lets -underBinder | with_reducible apply Res.ok_next
      | (intro x; refine State.kept_cut cmds x ?_ fun _ => ?_; rotate_left; clear_value x; rotate_left; subst x)
      | with_reducible apply State.driveRsp_kept | with_reducible apply State.rspOver_kept
      | with_reducible apply State.rdBeat_kept | with_reducible apply Res.ok_ite | with_reducible apply State.kept_ite
      | (intro x; clear_value x) | intro x | split

theorem execOutboundBeat_kept {cmds : List Instr} {s : State} (h : s.Kept cmds) (n : Nat) :
    Res.Ok (State.Kept cmds) (execOutboundBeat n s) := by
  delta execOutboundBeat
  repeat' first
    | with_reducible assumption | lift_lets -underBinder | with_reducible apply Res.ok_next
      | (intro x; refine State.kept_cut cmds x ?_ fun _ => ?_; rotate_left; clear_value x; rotate_left; subst x)
      | (intro x; refine State.kept_cut x.1 ?_ fun _ => ?_; rotate_left; clear_value x; rotate_left; subst x)
      | with_reducible apply State.modBlp_kept | with_reducible apply State.icqPass_kept
      | with_reducible apply State.modEntry_kept | with_reducible apply State.feed_kept
      | with_reducible apply Res.ok_ite | with_reducible apply State.kept_ite | (intro x; clear_value x) | intro x
      | split | dsimp only

theorem execBlpCompletionRecord_kept {cmds : List Instr} {s : State} (h : s.Kept cmds) :
    Res.Ok (State.Kept cmds) (execBlpCompletionRecord s) := by
  delta execBlpCompletionRecord
  repeat' first
    | with_reducible assumption | lift_lets -underBinder | with_reducible apply Res.ok_next
      | (intro x; refine State.kept_cut cmds x ?_ fun _ => ?_; rotate_left; clear_value x; rotate_left; subst x)
      | with_reducible apply State.modBlp_kept | with_reducible apply State.icqPass_kept
      | with_reducible apply State.freeEntry_kept | with_reducible apply State.retire_kept
      | with_reducible apply State.closeDelivered_kept | with_reducible apply Res.ok_ite
      | with_reducible apply State.kept_ite | (intro x; clear_value x) | intro x | split

theorem execFenceComplete_kept {cmds : List Instr} {s : State} (h : s.Kept cmds) (port : Fin 36) :
    Res.Ok (State.Kept cmds) (execFenceComplete port s) := by
  delta execFenceComplete
  repeat' first
    | with_reducible assumption | lift_lets -underBinder | with_reducible apply Res.ok_next
      | (intro x; refine State.kept_cut cmds x ?_ fun _ => ?_; rotate_left; clear_value x; rotate_left; subst x)
      | with_reducible apply State.modEntry_kept | with_reducible apply State.digestFence_kept
      | with_reducible apply State.decideEntry_kept | with_reducible apply State.addRecs_kept
      | with_reducible apply Res.ok_ite | with_reducible apply State.kept_ite | (intro x; clear_value x) | intro x
      | split

theorem State.recordOver_kept {cmds : List Instr} {s : State} (h : s.Kept cmds) (r : DgRec) (lost : Bool) :
    (State.recordOver s r lost).Kept cmds := by
  delta State.recordOver
  repeat' first
    | with_reducible assumption | lift_lets -underBinder
      | (intro x; refine State.kept_cut cmds x ?_ fun _ => ?_; rotate_left; clear_value x; rotate_left; subst x)
      | with_reducible apply State.modDet_kept | with_reducible apply State.event_kept
      | with_reducible apply State.decideEntry_kept | with_reducible apply State.finish_kept
      | with_reducible apply State.kept_ite | (intro x; clear_value x) | intro x | split

theorem execDigestRecordDone_kept {cmds : List Instr} {s : State} (h : s.Kept cmds) (lost : Bool) :
    Res.Ok (State.Kept cmds) (execDigestRecordDone lost s) := by
  delta execDigestRecordDone
  repeat' first
    | with_reducible assumption | lift_lets -underBinder | with_reducible apply Res.ok_next
      | (intro x; refine State.kept_cut cmds x ?_ fun _ => ?_; rotate_left; clear_value x; rotate_left; subst x)
      | with_reducible apply State.freeEntry_kept | with_reducible apply State.dropWork_kept
      | with_reducible apply State.addRecs_kept | with_reducible apply State.recordOver_kept
      | with_reducible apply Res.ok_ite | with_reducible apply State.kept_ite | (intro x; clear_value x) | intro x
      | split

/-! ### Migrate -/

theorem State.marchDrop_kept {cmds : List Instr} {s : State} (h : s.Kept cmds) (p : Nat) :
    (State.marchDrop s p).Kept cmds := by
  delta State.marchDrop
  repeat' first
    | with_reducible assumption | lift_lets -underBinder
      | (intro x; refine State.kept_cut cmds x ?_ fun _ => ?_; rotate_left; clear_value x; rotate_left; subst x)
      | with_reducible apply State.modSlice_kept | with_reducible apply State.kept_ite | (intro x; clear_value x)
      | intro x | split

theorem State.wakeSlice_kept {cmds : List Instr} {s : State} (h : s.Kept cmds) (p : Nat) :
    (State.wakeSlice s p).Kept cmds := by
  delta State.wakeSlice
  repeat' first
    | with_reducible assumption | lift_lets -underBinder
      | (intro x; refine State.kept_cut cmds x ?_ fun _ => ?_; rotate_left; clear_value x; rotate_left; subst x)
      | with_reducible apply State.modSlice_kept | with_reducible apply State.srx_kept
      | with_reducible apply State.startAccs_kept | with_reducible apply State.takeTrims_kept
      | with_reducible apply State.startRetrain_kept | with_reducible apply State.kept_ite | (intro x; clear_value x)
      | intro x | split

theorem execMigStart_kept {cmds : List Instr} {s : State} (h : s.Kept cmds) (p : Fin 144) :
    Res.Ok (State.Kept cmds) (execMigStart p s) := by
  delta execMigStart
  repeat' first
    | with_reducible assumption | lift_lets -underBinder | with_reducible apply Res.ok_next
      | (intro x; refine State.kept_cut cmds x ?_ fun _ => ?_; rotate_left; clear_value x; rotate_left; subst x)
      | with_reducible apply State.modStk_kept | with_reducible apply State.event_kept
      | with_reducible apply State.detBreak_kept | with_reducible apply State.endPending_kept
      | with_reducible apply State.phase_kept | with_reducible apply State.wakeSlice_kept
      | with_reducible apply State.reset_kept | with_reducible apply Res.ok_ite | with_reducible apply State.kept_ite
      | (intro x; clear_value x) | intro x | (refine State.Kept.of ?_ ?_ ?_ ?_ ?_ ?_ <;> dsimp only)
      | with_reducible apply State.Kept.mem | with_reducible apply State.Kept.ports
      | with_reducible apply State.Kept.slices | with_reducible apply State.Kept.tlm
      | with_reducible apply State.Kept.recs | with_reducible apply State.Kept.queue | split

theorem State.moveWaiting_kept {cmds : List Instr} {s : State} (h : s.Kept cmds) (c old new row : Nat) :
    (State.moveWaiting s c old new row).Kept cmds := h

theorem State.copyRow_kept {cmds : List Instr} {s : State} (h : s.Kept cmds) (c old new row : Nat) :
    (State.copyRow s c old new row).Kept cmds := by
  delta State.copyRow
  repeat' first
    | with_reducible assumption | lift_lets -underBinder
      | (intro x; refine State.kept_cut cmds x ?_ fun _ => ?_; rotate_left; clear_value x; rotate_left; subst x)
      | (intro x; refine State.kept_cut x.1 ?_ fun _ => ?_; rotate_left; clear_value x; rotate_left; subst x)
      | with_reducible apply State.each_kept | with_reducible apply State.setCode_kept
      | with_reducible apply State.readBit_kept | with_reducible apply State.correct_kept
      | with_reducible apply State.workAct_kept | with_reducible apply State.readRow_kept
      | (refine State.Keeps.mk fun _ _ => ?_) | with_reducible apply State.kept_ite | (intro x; clear_value x)
      | intro x | split | dsimp only

theorem State.migEnd_kept {cmds : List Instr} {s : State} (h : s.Kept cmds) (m : Mig) :
    (State.migEnd s m).Kept cmds := by
  delta State.migEnd
  repeat' first
    | with_reducible assumption | lift_lets -underBinder
      | (intro x; refine State.kept_cut cmds x ?_ fun _ => ?_; rotate_left; clear_value x; rotate_left; subst x)
      | with_reducible apply State.modStk_kept | with_reducible apply State.event_kept
      | with_reducible apply State.setRemap_kept | with_reducible apply State.endPending_kept
      | with_reducible apply State.newScrub_kept | with_reducible apply State.retireSlice_kept
      | with_reducible apply State.kept_ite | (intro x; clear_value x) | intro x | split

theorem execMigRowCopy_kept {cmds : List Instr} {s : State} (h : s.Kept cmds) (c : Fin 128) : Res.Ok (State.Kept cmds) (execMigRowCopy c s) := by
  refine Res.ok_next ?_
  lift_lets -underBinder
  intro c e
  clear_value c e
  split
  · exact h
  · refine State.kept_ite h ?_
    split
    · exact State.kept_ite h (State.evict_kept h ..)
    · refine State.kept_ite h ?_
      split
      · exact State.spendHeld_kept h ..
      · rename_i hs
        lift_lets -underBinder
        intro s2
        have h2 : s2.Kept cmds := State.copyRow_kept (State.modFab_kept (State.spend_kept h hs) _) ..
        clear_value s2
        intro s3
        have h3 : s3.Kept cmds := State.modStk_kept (State.setRemap_kept h2 ..) _
        clear_value s3
        intro s4
        have h4 : s4.Kept cmds := State.moveWaiting_kept (State.detBreak_kept h3 _) ..
        clear_value s4
        exact State.kept_ite (State.migEnd_kept h4 ..) h4

theorem execRebindZeroingDone_kept {cmds : List Instr} {s : State} (h : s.Kept cmds) (c : Fin 128) :
    Res.Ok (State.Kept cmds) (execRebindZeroingDone c s) := by
  delta execRebindZeroingDone
  repeat' first
    | with_reducible assumption | lift_lets -underBinder | with_reducible apply Res.ok_next
      | (intro x; refine State.kept_cut cmds x ?_ fun _ => ?_; rotate_left; clear_value x; rotate_left; subst x)
      | with_reducible apply State.modStk_kept | with_reducible apply State.event_kept
      | with_reducible apply State.setRemap_kept | with_reducible apply State.endPending_kept
      | with_reducible apply State.addCand_kept | with_reducible apply State.newScrub_kept
      | with_reducible apply State.reset_kept | with_reducible apply Res.ok_ite | with_reducible apply State.kept_ite
      | (intro x; clear_value x) | intro x | (refine State.Kept.of ?_ ?_ ?_ ?_ ?_ ?_ <;> dsimp only)
      | with_reducible apply Tab.mapVals_wf | with_reducible apply Memory.wf_drop | with_reducible apply Tab.drop_wf
      | with_reducible apply State.Kept.mem | with_reducible apply State.Kept.ports
      | with_reducible apply State.Kept.slices | with_reducible apply State.Kept.tlm
      | with_reducible apply State.Kept.recs | with_reducible apply State.Kept.queue | split

end Sys2Proof.Machine
end

