-- ==== Sys2Proof/Laws/KeptMailbox.lean ====
section
/-! SUPPORT. Every definition keeps the canonical form and the queue (`State.Kept`): the configuration image, mode changes, mailbox commands, brew programs and power. -/

set_option linter.unusedTactic false
set_option linter.unreachableTactic false

namespace Sys2Proof.Machine

/-! ### ChgOps -/

theorem State.writeBack_kept {cmds : List Instr} {s : State} (h : s.Kept cmds) (p : Nat) (pick : AccLine → Bool) (keep : Bool) :
    (State.writeBack s p pick keep).Kept cmds := by
  delta State.writeBack
  repeat' first
    | with_reducible assumption
      | (intro x; refine State.kept_cut cmds x ?_ fun _ => ?_; rotate_left; clear_value x; rotate_left; subst x)
      | with_reducible apply State.each_kept | with_reducible apply State.writeLine_kept
      | (refine State.Keeps.mk fun _ _ => ?_) | intro x

theorem State.writeBackAll_kept {cmds : List Instr} {s : State} (h : s.Kept cmds) (pick : Nat → AccLine → Bool) (keep : Bool) :
    (State.writeBackAll s pick keep).Kept cmds := by
  delta State.writeBackAll
  repeat' first
    | with_reducible assumption
      | (intro x; refine State.kept_cut cmds x ?_ fun _ => ?_; rotate_left; clear_value x; rotate_left; subst x)
      | with_reducible apply State.each_kept | with_reducible apply State.writeBack_kept
      | (refine State.Keeps.mk fun _ _ => ?_) | with_reducible apply State.kept_ite | intro x | split

theorem State.drainLines_kept {cmds : List Instr} {s : State} (h : s.Kept cmds) (p : Nat) :
    (State.drainLines s p).Kept cmds := by
  delta State.drainLines
  repeat' first
    | with_reducible assumption | lift_lets -underBinder
      | (intro x; refine State.kept_cut cmds x ?_ fun _ => ?_; rotate_left; clear_value x; rotate_left; subst x)
      | with_reducible apply State.modDat_kept | with_reducible apply State.each_kept
      | with_reducible apply State.stat_kept | with_reducible apply State.setCode_kept
      | (refine State.Keeps.mk fun _ _ => ?_) | with_reducible apply State.kept_ite | (intro x; clear_value x)
      | intro x | split

theorem State.shadowRate_kept {cmds : List Instr} {s : State} (h : s.Kept cmds) (rate : Nat) :
    (State.shadowRate s rate).Kept cmds := by
  delta State.shadowRate
  repeat' first
    | with_reducible assumption | lift_lets -underBinder
      | (intro x; refine State.kept_cut cmds x ?_ fun _ => ?_; rotate_left; clear_value x; rotate_left; subst x)
      | with_reducible apply State.each_kept | with_reducible apply State.modBt_kept
      | (refine State.Keeps.mk fun _ _ => ?_) | (intro x; clear_value x) | intro x

theorem State.reband_kept {cmds : List Instr} {s : State} (h : s.Kept cmds) (p : Nat) (reading : BitVec 16) (subst : Bool) :
    (State.reband s p reading subst).Kept cmds := by
  delta State.reband
  repeat' first
    | with_reducible assumption | lift_lets -underBinder
      | (intro x; refine State.kept_cut cmds x ?_ fun _ => ?_; rotate_left; clear_value x; rotate_left; subst x)
      | with_reducible apply State.statSlice_kept | with_reducible apply State.modRf_kept
      | with_reducible apply State.settleRefresh_kept | with_reducible apply State.foldl_kept
      | with_reducible apply List.foldl_kept | with_reducible apply State.kept_ite | (intro x; clear_value x)
      | intro x | split

theorem State.settleBands_kept {cmds : List Instr} {s : State} (h : s.Kept cmds) :
    (State.settleBands s).Kept cmds := by
  delta State.settleBands
  repeat' first
    | with_reducible assumption | with_reducible apply State.each_kept | with_reducible apply State.settleRefresh_kept
      | (refine State.Keeps.mk fun _ _ => ?_) | intro x

theorem State.dropScales_kept {cmds : List Instr} {s : State} (h : s.Kept cmds) :
    (State.dropScales s).Kept cmds := by
  delta State.dropScales
  repeat' first
    | with_reducible assumption | lift_lets -underBinder
      | (intro x; refine State.kept_cut cmds x ?_ fun _ => ?_; rotate_left; clear_value x; rotate_left; subst x)
      | with_reducible apply State.modFab_kept | with_reducible apply State.reset_kept | (intro x; clear_value x)
      | intro x | (refine State.Kept.of ?_ ?_ ?_ ?_ ?_ ?_ <;> dsimp only) | with_reducible apply Tab.mapVals_wf | rfl
      | with_reducible apply State.Kept.mem | with_reducible apply State.Kept.ports
      | with_reducible apply State.Kept.slices | with_reducible apply State.Kept.tlm
      | with_reducible apply State.Kept.recs | with_reducible apply State.Kept.queue

theorem State.newKeys_kept {cmds : List Instr} {s : State} (h : s.Kept cmds) (c : Cfg) :
    (State.newKeys s c).Kept cmds := by
  delta State.newKeys
  repeat' first
    | with_reducible assumption
      | (intro x; refine State.kept_cut cmds x ?_ fun _ => ?_; rotate_left; clear_value x; rotate_left; subst x)
      | with_reducible apply State.each_kept | with_reducible apply State.modStream_kept
      | with_reducible apply State.restart_kept | (refine State.Keeps.mk fun _ _ => ?_)
      | with_reducible apply State.kept_ite | intro x | split

theorem State.applyCfg_kept {cmds : List Instr} {s : State} (h : s.Kept cmds) (c : Cfg) :
    (State.applyCfg s c).Kept cmds := by
  delta State.applyCfg
  repeat' first
    | with_reducible assumption | lift_lets -underBinder
      | (intro x; refine State.kept_cut cmds x ?_ fun _ => ?_; rotate_left; clear_value x; rotate_left; subst x)
      | with_reducible apply State.modDet_kept | with_reducible apply State.modTherm_kept
      | with_reducible apply State.each_kept | with_reducible apply State.reband_kept
      | with_reducible apply State.dropScales_kept | with_reducible apply State.newKeys_kept
      | (refine State.Keeps.mk fun _ _ => ?_) | with_reducible apply State.kept_ite | (intro x; clear_value x)
      | intro x | (refine State.Kept.of ?_ ?_ ?_ ?_ ?_ ?_ <;> dsimp only) | with_reducible apply State.Kept.mem
      | with_reducible apply State.Kept.ports | with_reducible apply State.Kept.slices
      | with_reducible apply State.Kept.tlm | with_reducible apply State.Kept.recs
      | with_reducible apply State.Kept.queue | split

theorem State.changeBack_kept {cmds : List Instr} {s : State} (h : s.Kept cmds) (m : ModeChg) :
    (State.changeBack s m).Kept cmds := by
  delta State.changeBack
  repeat' first
    | with_reducible assumption | lift_lets -underBinder
      | (intro x; refine State.kept_cut cmds x ?_ fun _ => ?_; rotate_left; clear_value x; rotate_left; subst x)
      | with_reducible apply State.writeBackAll_kept | with_reducible apply State.kept_ite | (intro x; clear_value x)
      | intro x | split

theorem State.ackTime_kept {cmds : List Instr} {s : State} (h : s.Kept cmds) :
    (State.ackTime s).Kept cmds := by
  delta State.ackTime
  repeat' first
    | with_reducible assumption | lift_lets -underBinder
      | (intro x; refine State.kept_cut cmds x ?_ fun _ => ?_; rotate_left; clear_value x; rotate_left; subst x)
      | with_reducible apply State.kept_ite | (intro x; clear_value x) | intro x
      | (refine State.Kept.of ?_ ?_ ?_ ?_ ?_ ?_ <;> dsimp only) | with_reducible apply State.Kept.mem
      | with_reducible apply State.Kept.ports | with_reducible apply State.Kept.slices
      | with_reducible apply State.Kept.tlm | with_reducible apply State.Kept.recs
      | with_reducible apply State.Kept.queue | split

theorem State.prepareWords_kept {cmds : List Instr} {s : State} (h : s.Kept cmds) :
    (State.prepareWords s).Kept cmds := by
  delta State.prepareWords
  repeat' first
    | with_reducible assumption
      | (intro x; refine State.kept_cut cmds x ?_ fun _ => ?_; rotate_left; clear_value x; rotate_left; subst x)
      | with_reducible apply State.each_kept | with_reducible apply State.icqPass_kept
      | (refine State.Keeps.mk fun _ _ => ?_) | intro x

theorem State.startChange_kept {cmds : List Instr} {s : State} (h : s.Kept cmds) (m : ModeChg) :
    (State.startChange s m).Kept cmds := by
  delta State.startChange
  repeat' first
    | with_reducible assumption | lift_lets -underBinder
      | (intro x; refine State.kept_cut cmds x ?_ fun _ => ?_; rotate_left; clear_value x; rotate_left; subst x)
      | with_reducible apply State.each_kept | with_reducible apply State.calYield_kept
      | with_reducible apply State.shadowRate_kept | with_reducible apply State.changeBack_kept
      | with_reducible apply State.ackTime_kept | with_reducible apply State.prepareWords_kept
      | (refine State.Keeps.mk fun _ _ => ?_) | with_reducible apply State.kept_ite | (intro x; clear_value x)
      | intro x | (refine State.Kept.of ?_ ?_ ?_ ?_ ?_ ?_ <;> dsimp only) | with_reducible apply State.Kept.mem
      | with_reducible apply State.Kept.ports | with_reducible apply State.Kept.slices
      | with_reducible apply State.Kept.tlm | with_reducible apply State.Kept.recs
      | with_reducible apply State.Kept.queue | split

theorem State.gangGo_kept {cmds : List Instr} {s : State} (h : s.Kept cmds) :
    (State.gangGo s).Kept cmds := by
  delta State.gangGo
  repeat' first
    | with_reducible assumption | lift_lets -underBinder
      | (intro x; refine State.kept_cut cmds x ?_ fun _ => ?_; rotate_left; clear_value x; rotate_left; subst x)
      | with_reducible apply State.ringSend_kept | with_reducible apply State.kept_ite | (intro x; clear_value x)
      | intro x | (refine State.Kept.of ?_ ?_ ?_ ?_ ?_ ?_ <;> dsimp only) | with_reducible apply State.Kept.mem
      | with_reducible apply State.Kept.ports | with_reducible apply State.Kept.slices
      | with_reducible apply State.Kept.tlm | with_reducible apply State.Kept.recs
      | with_reducible apply State.Kept.queue | split

theorem State.changeAnswer_kept {cmds : List Instr} {s : State} (h : s.Kept cmds) (m : ModeChg) (err : BitVec 8) :
    (State.changeAnswer s m err).Kept cmds := by
  delta State.changeAnswer
  repeat' first
    | with_reducible assumption | with_reducible apply State.finish_kept | with_reducible apply State.endPending_kept
      | with_reducible apply State.kept_ite | intro x | split

theorem State.dropShadows_kept {cmds : List Instr} {s : State} (h : s.Kept cmds) :
    (State.dropShadows s).Kept cmds := by
  delta State.dropShadows
  repeat' first
    | with_reducible assumption | lift_lets -underBinder
      | (intro x; refine State.kept_cut cmds x ?_ fun _ => ?_; rotate_left; clear_value x; rotate_left; subst x)
      | with_reducible apply State.each_kept | with_reducible apply State.modBt_kept
      | (refine State.Keeps.mk fun _ _ => ?_) | (intro x; clear_value x) | intro x

theorem State.abortChange_kept {cmds : List Instr} {s : State} (h : s.Kept cmds) (err : BitVec 8) :
    (State.abortChange s err).Kept cmds := by
  delta State.abortChange
  repeat' first
    | with_reducible assumption | lift_lets -underBinder
      | (intro x; refine State.kept_cut cmds x ?_ fun _ => ?_; rotate_left; clear_value x; rotate_left; subst x)
      | with_reducible apply State.ringSend_kept | with_reducible apply State.changeAnswer_kept
      | with_reducible apply State.dropShadows_kept | with_reducible apply State.kept_ite | (intro x; clear_value x)
      | intro x | (refine State.Kept.of ?_ ?_ ?_ ?_ ?_ ?_ <;> dsimp only) | with_reducible apply State.Kept.mem
      | with_reducible apply State.Kept.ports | with_reducible apply State.Kept.slices
      | with_reducible apply State.Kept.tlm | with_reducible apply State.Kept.recs
      | with_reducible apply State.Kept.queue | split

theorem State.undoLive_kept {cmds : List Instr} {s : State} (h : s.Kept cmds) (m : ModeChg) (u : Undo) :
    (State.undoLive s m u).Kept cmds := by
  delta State.undoLive
  repeat' first
    | with_reducible assumption | lift_lets -underBinder
      | (intro x; refine State.kept_cut cmds x ?_ fun _ => ?_; rotate_left; clear_value x; rotate_left; subst x)
      | with_reducible apply State.modFab_kept | with_reducible apply State.modDet_kept
      | with_reducible apply State.each_kept | with_reducible apply State.modStream_kept
      | with_reducible apply State.reset_kept | (refine State.Keeps.mk fun _ _ => ?_)
      | with_reducible apply State.kept_ite | (intro x; clear_value x) | intro x | split

theorem State.abandonChange_kept {cmds : List Instr} {s : State} (h : s.Kept cmds) :
    (State.abandonChange s).Kept cmds := by
  delta State.abandonChange
  repeat' first
    | with_reducible assumption | lift_lets -underBinder
      | (intro x; refine State.kept_cut cmds x ?_ fun _ => ?_; rotate_left; clear_value x; rotate_left; subst x)
      | with_reducible apply State.each_kept | with_reducible apply State.settleAll_kept
      | with_reducible apply State.rebase_kept | with_reducible apply State.unholdChan_kept
      | with_reducible apply State.settleBands_kept | with_reducible apply State.abortChange_kept
      | with_reducible apply State.undoLive_kept | (refine State.Keeps.mk fun _ _ => ?_)
      | with_reducible apply State.kept_ite | (intro x; clear_value x) | intro x
      | (refine State.Kept.of ?_ ?_ ?_ ?_ ?_ ?_ <;> dsimp only) | with_reducible apply State.Kept.mem
      | with_reducible apply State.Kept.ports | with_reducible apply State.Kept.slices
      | with_reducible apply State.Kept.tlm | with_reducible apply State.Kept.recs
      | with_reducible apply State.Kept.queue | split

/-! ### Repair -/

theorem State.scrubRead_kept {cmds : List Instr} {s t : State} (h : s.Kept cmds) {p : Nat} {k : Key} {parent : Nat}
    (e : State.scrubRead s p k parent = some t) : t.Kept cmds := by
  simp only [State.scrubRead] at e
  split at e
  · exact absurd e (by simp)
  · rw [← Option.some.inj e]
    exact State.modEntry_kept (State.addWork_kept h ..) ..

theorem State.scrubNext_kept {cmds : List Instr} {s : State} (h : s.Kept cmds) (p : Nat) :
    (State.scrubNext s p).Kept cmds := by
  delta State.scrubNext
  repeat' first
    | with_reducible assumption | lift_lets -underBinder
      | (intro x; refine State.kept_cut cmds x ?_ fun _ => ?_; rotate_left; clear_value x; rotate_left; subst x)
      | with_reducible apply State.modScr_kept | with_reducible apply State.kept_ite | (intro x; clear_value x)
      | intro x | split

theorem execScrubAccess_kept {cmds : List Instr} {s : State} (h : s.Kept cmds) (p : Fin 144) :
    Res.Ok (State.Kept cmds) (execScrubAccess p s) := by
  delta execScrubAccess
  repeat' first
    | with_reducible assumption | lift_lets -underBinder | with_reducible apply Res.ok_next
      | (intro x; refine State.kept_cut cmds x ?_ fun _ => ?_; rotate_left; clear_value x; rotate_left; subst x)
      | with_reducible apply State.readBit_kept | (refine State.scrubRead_kept ?_ ‹State.scrubRead _ _ _ _ = some _›)
      | with_reducible apply State.scrubNext_kept | with_reducible apply Res.ok_ite
      | with_reducible apply State.kept_ite | (intro x; clear_value x) | intro x | split

theorem execScrubPassLate_kept {cmds : List Instr} {s : State} (h : s.Kept cmds) (p : Fin 144) :
    Res.Ok (State.Kept cmds) (execScrubPassLate p s) := by
  delta execScrubPassLate
  repeat' first
    | with_reducible assumption | lift_lets -underBinder | with_reducible apply Res.ok_next
      | (intro x; refine State.kept_cut cmds x ?_ fun _ => ?_; rotate_left; clear_value x; rotate_left; subst x)
      | with_reducible apply State.modScr_kept | with_reducible apply State.event_kept
      | with_reducible apply Res.ok_ite | with_reducible apply State.kept_ite | (intro x; clear_value x) | intro x
      | split

theorem execScrubCheck_kept {cmds : List Instr} {s : State} (h : s.Kept cmds) (p : Fin 144) :
    Res.Ok (State.Kept cmds) (execScrubCheck p s) := by
  delta execScrubCheck
  repeat' first
    | with_reducible assumption | lift_lets -underBinder | with_reducible apply Res.ok_next
      | (intro x; refine State.kept_cut cmds x ?_ fun _ => ?_; rotate_left; clear_value x; rotate_left; subst x)
      | with_reducible apply State.modScr_kept | with_reducible apply State.readBit_kept
      | with_reducible apply State.detBreak_kept | (refine State.scrubRead_kept ?_ ‹State.scrubRead _ _ _ _ = some _›)
      | with_reducible apply Res.ok_ite | with_reducible apply State.kept_ite | (intro x; clear_value x) | intro x
      | split

theorem State.repairBack_kept {cmds : List Instr} {s : State} (h : s.Kept cmds) (p : Nat) (r : Repair) :
    (State.repairBack s p r).Kept cmds := by
  delta State.repairBack
  repeat' first
    | with_reducible assumption
      | (intro x; refine State.kept_cut cmds x ?_ fun _ => ?_; rotate_left; clear_value x; rotate_left; subst x)
      | with_reducible apply State.modDat_kept | with_reducible apply State.each_kept
      | (refine State.Keeps.mk fun _ _ => ?_) | with_reducible apply State.kept_ite | intro x | split

theorem execRowRepairAck_kept {cmds : List Instr} {s : State} (h : s.Kept cmds) (p : Fin 144) :
    Res.Ok (State.Kept cmds) (execRowRepairAck p s) := by
  delta execRowRepairAck
  repeat' first
    | with_reducible assumption | lift_lets -underBinder | with_reducible apply Res.ok_next
      | (intro x; refine State.kept_cut cmds x ?_ fun _ => ?_; rotate_left; clear_value x; rotate_left; subst x)
      | with_reducible apply State.modRep_kept | with_reducible apply State.report_kept
      | with_reducible apply State.statSlice_kept | with_reducible apply State.repairBack_kept
      | with_reducible apply Res.ok_ite | with_reducible apply State.kept_ite | (intro x; clear_value x) | intro x
      | split

theorem execRowRepairTimeout_kept {cmds : List Instr} {s : State} (h : s.Kept cmds) (p : Fin 144) :
    Res.Ok (State.Kept cmds) (execRowRepairTimeout p s) := by
  delta execRowRepairTimeout
  repeat' first
    | with_reducible assumption | lift_lets -underBinder | with_reducible apply Res.ok_next
      | (intro x; refine State.kept_cut cmds x ?_ fun _ => ?_; rotate_left; clear_value x; rotate_left; subst x)
      | with_reducible apply State.modRep_kept | with_reducible apply State.addCand_kept
      | with_reducible apply Res.ok_ite | with_reducible apply State.kept_ite | (intro x; clear_value x) | intro x
      | split

theorem State.unitFence_kept {cmds : List Instr} {s : State} (h : s.Kept cmds) (p b : Nat) :
    (State.unitFence s p b).Kept cmds := by
  delta State.unitFence
  repeat' first
    | with_reducible assumption | lift_lets -underBinder
      | (intro x; refine State.kept_cut cmds x ?_ fun _ => ?_; rotate_left; clear_value x; rotate_left; subst x)
      | with_reducible apply State.modRep_kept | with_reducible apply State.detBreak_kept
      | with_reducible apply State.addCand_kept | with_reducible apply State.kept_ite | (intro x; clear_value x)
      | intro x | split

theorem State.unitFault_kept {cmds : List Instr} {s : State} (h : s.Kept cmds) (p b : Nat) :
    (State.unitFault s p b).Kept cmds := by
  delta State.unitFault
  repeat' first
    | with_reducible assumption | lift_lets -underBinder
      | (intro x; refine State.kept_cut cmds x ?_ fun _ => ?_; rotate_left; clear_value x; rotate_left; subst x)
      | with_reducible apply State.modRep_kept | with_reducible apply State.unitFence_kept
      | with_reducible apply State.kept_ite | (intro x; clear_value x) | intro x | split

theorem execEpUnitFault_kept {cmds : List Instr} {s : State} (h : s.Kept cmds) (p : Fin 144) (bank : Fin 32) :
    Res.Ok (State.Kept cmds) (execEpUnitFault p bank s) := by
  delta execEpUnitFault
  repeat' first
    | with_reducible assumption | with_reducible apply Res.ok_next | with_reducible apply State.unitFault_kept
      | with_reducible apply Res.ok_ite | with_reducible apply State.kept_ite | intro x | split

theorem execUnitSub_kept {cmds : List Instr} {s : State} (h : s.Kept cmds) (p : Fin 144) (bank : Fin 32) :
    Res.Ok (State.Kept cmds) (execUnitSub p bank s) := by
  delta execUnitSub
  repeat' first
    | with_reducible assumption | lift_lets -underBinder | with_reducible apply Res.ok_next
      | (intro x; refine State.kept_cut cmds x ?_ fun _ => ?_; rotate_left; clear_value x; rotate_left; subst x)
      | with_reducible apply State.modRep_kept | with_reducible apply State.detBreak_kept
      | with_reducible apply State.unitFence_kept | with_reducible apply Res.ok_ite
      | with_reducible apply State.kept_ite | (intro x; clear_value x) | intro x | split

theorem State.unitSubOver_kept {cmds : List Instr} {s : State} (h : s.Kept cmds) (p b : Nat) (used : Bool) :
    (State.unitSubOver s p b used).Kept cmds := by
  delta State.unitSubOver
  repeat' first
    | with_reducible assumption | lift_lets -underBinder
      | (intro x; refine State.kept_cut cmds x ?_ fun _ => ?_; rotate_left; clear_value x; rotate_left; subst x)
      | with_reducible apply State.modRep_kept | with_reducible apply State.report_kept
      | with_reducible apply State.kept_ite | (intro x; clear_value x) | intro x | split

theorem execUnitSubAck_kept {cmds : List Instr} {s : State} (h : s.Kept cmds) (p : Fin 144) (bank : Fin 32) :
    Res.Ok (State.Kept cmds) (execUnitSubAck p bank s) := by
  delta execUnitSubAck
  repeat' first
    | with_reducible assumption | with_reducible apply Res.ok_next
      | (intro x; refine State.kept_cut cmds x ?_ fun _ => ?_; rotate_left; clear_value x; rotate_left; subst x)
      | with_reducible apply State.unitSubOver_kept | with_reducible apply Res.ok_ite
      | with_reducible apply State.kept_ite | intro x | split

theorem execUnitSubTimeout_kept {cmds : List Instr} {s : State} (h : s.Kept cmds) (p : Fin 144) (bank : Fin 32) :
    Res.Ok (State.Kept cmds) (execUnitSubTimeout p bank s) := by
  delta execUnitSubTimeout
  repeat' first
    | with_reducible assumption | with_reducible apply Res.ok_next
      | (intro x; refine State.kept_cut cmds x ?_ fun _ => ?_; rotate_left; clear_value x; rotate_left; subst x)
      | with_reducible apply State.unitSubOver_kept | with_reducible apply Res.ok_ite
      | with_reducible apply State.kept_ite | intro x | split

/-! ### MbxImm -/

theorem execMbxBadOpcode_kept {cmds : List Instr} {s : State} (h : s.Kept cmds) :
    Res.Ok (State.Kept cmds) (execMbxBadOpcode s) := by
  delta execMbxBadOpcode
  repeat' first
    | with_reducible assumption | lift_lets -underBinder | with_reducible apply Res.ok_next
      | (intro x; refine State.kept_cut cmds x ?_ fun _ => ?_; rotate_left; clear_value x; rotate_left; subst x)
      | with_reducible apply State.finish_kept | with_reducible apply State.doorbell_kept
      | (refine State.Keeps.mk fun _ _ => ?_) | with_reducible apply Res.ok_ite | with_reducible apply State.kept_ite
      | (intro x; clear_value x) | intro x | split

theorem State.setRun_kept {cmds : List Instr} {s : State} (h : s.Kept cmds) (r : RunCmd) :
    (State.setRun s r).Kept cmds := h

theorem State.cmdIdent_kept {cmds : List Instr} {s : State} (h : s.Kept cmds) :
    (State.cmdIdent s).Kept cmds := by
  delta State.cmdIdent
  repeat' first
    | with_reducible assumption
      | (intro x; refine State.kept_cut cmds x ?_ fun _ => ?_; rotate_left; clear_value x; rotate_left; subst x)
      | with_reducible apply State.finish_kept | with_reducible apply State.checked_kept
      | (refine State.Keeps.mk fun _ _ => ?_) | intro x

theorem execIdent_kept {cmds : List Instr} {s : State} (h : s.Kept cmds) :
    Res.Ok (State.Kept cmds) (execIdent s) := by
  delta execIdent
  repeat' first
    | with_reducible assumption | with_reducible apply Res.ok_next | with_reducible apply State.doorbell_kept
      | with_reducible apply State.cmdIdent_kept | (refine State.Keeps.mk fun _ _ => ?_) | intro x

theorem State.cmdTlmClear_kept {cmds : List Instr} {s : State} (h : s.Kept cmds) :
    (State.cmdTlmClear s).Kept cmds := by
  delta State.cmdTlmClear
  repeat' first
    | with_reducible assumption | lift_lets -underBinder
      | (intro x; refine State.kept_cut cmds x ?_ fun _ => ?_; rotate_left; clear_value x; rotate_left; subst x)
      | (intro c hc; exact hc) | with_reducible apply State.modCtl_kept | with_reducible apply State.finish_kept
      | with_reducible apply State.checked_kept | with_reducible apply State.reset_kept
      | (refine State.Keeps.mk fun _ _ => ?_) | with_reducible apply State.kept_ite | (intro x; clear_value x)
      | intro x | (refine State.Kept.of ?_ ?_ ?_ ?_ ?_ ?_ <;> dsimp only) | with_reducible apply Tab.mapVals_wf
      | with_reducible apply Memory.wf_drop | with_reducible apply Tab.drop_wf | with_reducible apply State.Kept.mem
      | with_reducible apply State.Kept.ports | with_reducible apply State.Kept.slices
      | with_reducible apply State.Kept.tlm | with_reducible apply State.Kept.recs
      | with_reducible apply State.Kept.queue | split | dsimp only

theorem execTlmClear_kept {cmds : List Instr} {s : State} (h : s.Kept cmds) :
    Res.Ok (State.Kept cmds) (execTlmClear s) := by
  delta execTlmClear
  repeat' first
    | with_reducible assumption | with_reducible apply Res.ok_next | with_reducible apply State.doorbell_kept
      | with_reducible apply State.cmdTlmClear_kept | (refine State.Keeps.mk fun _ _ => ?_) | intro x

theorem State.cmdSensorClear_kept {cmds : List Instr} {s : State} (h : s.Kept cmds) :
    (State.cmdSensorClear s).Kept cmds := by
  delta State.cmdSensorClear
  repeat' first
    | with_reducible assumption | lift_lets -underBinder
      | (intro x; refine State.kept_cut cmds x ?_ fun _ => ?_; rotate_left; clear_value x; rotate_left; subst x)
      | with_reducible apply State.modTherm_kept | with_reducible apply State.finish_kept
      | with_reducible apply State.checked_kept | with_reducible apply State.reset_kept
      | with_reducible apply State.foldl_kept | with_reducible apply List.foldl_kept
      | (refine State.Keeps.mk fun _ _ => ?_) | (intro x; clear_value x) | intro x

theorem execSensorClear_kept {cmds : List Instr} {s : State} (h : s.Kept cmds) :
    Res.Ok (State.Kept cmds) (execSensorClear s) := by
  delta execSensorClear
  repeat' first
    | with_reducible assumption | with_reducible apply Res.ok_next | with_reducible apply State.doorbell_kept
      | with_reducible apply State.cmdSensorClear_kept | (refine State.Keeps.mk fun _ _ => ?_) | intro x

theorem State.cmdCfgStore_kept {cmds : List Instr} {s : State} (h : s.Kept cmds) :
    (State.cmdCfgStore s).Kept cmds := by
  delta State.cmdCfgStore
  repeat' first
    | with_reducible assumption | lift_lets -underBinder
      | (intro x; refine State.kept_cut cmds x ?_ fun _ => ?_; rotate_left; clear_value x; rotate_left; subst x)
      | with_reducible apply State.finish_kept | with_reducible apply State.checked_kept
      | with_reducible apply State.setRun_kept | (refine State.Keeps.mk fun _ _ => ?_)
      | with_reducible apply State.kept_ite | (intro x; clear_value x) | intro x | split

theorem execCfgStore_kept {cmds : List Instr} {s : State} (h : s.Kept cmds) :
    Res.Ok (State.Kept cmds) (execCfgStore s) := by
  delta execCfgStore
  repeat' first
    | with_reducible assumption | with_reducible apply Res.ok_next | with_reducible apply State.doorbell_kept
      | with_reducible apply State.cmdCfgStore_kept | (refine State.Keeps.mk fun _ _ => ?_) | intro x

theorem execCfgStoreDone_kept {cmds : List Instr} {s : State} (h : s.Kept cmds) (good : Bool) :
    Res.Ok (State.Kept cmds) (execCfgStoreDone good s) := by
  delta execCfgStoreDone
  repeat' first
    | with_reducible assumption | lift_lets -underBinder | with_reducible apply Res.ok_next
      | (intro x; refine State.kept_cut cmds x ?_ fun _ => ?_; rotate_left; clear_value x; rotate_left; subst x)
      | (intro c hc; exact hc) | with_reducible apply State.modCtl_kept | with_reducible apply State.finish_kept
      | with_reducible apply Res.ok_ite | with_reducible apply State.kept_ite | (intro x; clear_value x) | intro x
      | split | dsimp only

theorem execCfgStoreTimeout_kept {cmds : List Instr} {s : State} (h : s.Kept cmds) :
    Res.Ok (State.Kept cmds) (execCfgStoreTimeout s) := by
  delta execCfgStoreTimeout
  repeat' first
    | with_reducible assumption | lift_lets -underBinder | with_reducible apply Res.ok_next
      | (intro x; refine State.kept_cut cmds x ?_ fun _ => ?_; rotate_left; clear_value x; rotate_left; subst x)
      | (intro c hc; exact hc) | with_reducible apply State.modCtl_kept | with_reducible apply State.finish_kept
      | with_reducible apply Res.ok_ite | with_reducible apply State.kept_ite | (intro x; clear_value x) | intro x
      | split | dsimp only

theorem State.cmdRegionRead_kept {cmds : List Instr} {s : State} (h : s.Kept cmds) :
    (State.cmdRegionRead s).Kept cmds := by
  delta State.cmdRegionRead
  repeat' first
    | with_reducible assumption | lift_lets -underBinder
      | (intro x; refine State.kept_cut cmds x ?_ fun _ => ?_; rotate_left; clear_value x; rotate_left; subst x)
      | with_reducible apply State.finish_kept | with_reducible apply State.checked_kept
      | (refine State.Keeps.mk fun _ _ => ?_) | (intro x; clear_value x) | intro x

theorem execRegionRead_kept {cmds : List Instr} {s : State} (h : s.Kept cmds) :
    Res.Ok (State.Kept cmds) (execRegionRead s) := by
  delta execRegionRead
  repeat' first
    | with_reducible assumption | with_reducible apply Res.ok_next | with_reducible apply State.doorbell_kept
      | with_reducible apply State.cmdRegionRead_kept | (refine State.Keeps.mk fun _ _ => ?_) | intro x

theorem State.cmdRetrain_kept {cmds : List Instr} {s : State} (h : s.Kept cmds) :
    (State.cmdRetrain s).Kept cmds := by
  delta State.cmdRetrain
  repeat' first
    | with_reducible assumption | lift_lets -underBinder
      | (intro x; refine State.kept_cut cmds x ?_ fun _ => ?_; rotate_left; clear_value x; rotate_left; subst x)
      | with_reducible apply State.checked_kept | with_reducible apply State.startRetrain_kept
      | with_reducible apply State.setRun_kept | (refine State.Keeps.mk fun _ _ => ?_) | (intro x; clear_value x)
      | intro x

theorem execRetrain_kept {cmds : List Instr} {s : State} (h : s.Kept cmds) :
    Res.Ok (State.Kept cmds) (execRetrain s) := by
  delta execRetrain
  repeat' first
    | with_reducible assumption | with_reducible apply Res.ok_next | with_reducible apply State.doorbell_kept
      | with_reducible apply State.cmdRetrain_kept | (refine State.Keeps.mk fun _ _ => ?_) | intro x

theorem State.cmdCalRun_kept {cmds : List Instr} {s : State} (h : s.Kept cmds) :
    (State.cmdCalRun s).Kept cmds := by
  delta State.cmdCalRun
  repeat' first
    | with_reducible assumption | lift_lets -underBinder
      | (intro x; refine State.kept_cut cmds x ?_ fun _ => ?_; rotate_left; clear_value x; rotate_left; subst x)
      | with_reducible apply State.modLink_kept | with_reducible apply State.each_kept
      | with_reducible apply State.icqPass_kept | with_reducible apply State.finishPending_kept
      | with_reducible apply State.endPending_kept | with_reducible apply State.checked_kept
      | (refine State.Keeps.mk fun _ _ => ?_) | with_reducible apply State.kept_ite | (intro x; clear_value x)
      | intro x | split

theorem execCalRun_kept {cmds : List Instr} {s : State} (h : s.Kept cmds) :
    Res.Ok (State.Kept cmds) (execCalRun s) := by
  delta execCalRun
  repeat' first
    | with_reducible assumption | with_reducible apply Res.ok_next | with_reducible apply State.doorbell_kept
      | with_reducible apply State.cmdCalRun_kept | (refine State.Keeps.mk fun _ _ => ?_) | intro x

theorem State.cmdLinkRead_kept {cmds : List Instr} {s : State} (h : s.Kept cmds) :
    (State.cmdLinkRead s).Kept cmds := by
  delta State.cmdLinkRead
  repeat' first
    | with_reducible assumption
      | (intro x; refine State.kept_cut cmds x ?_ fun _ => ?_; rotate_left; clear_value x; rotate_left; subst x)
      | with_reducible apply State.finish_kept | with_reducible apply State.checked_kept
      | (refine State.Keeps.mk fun _ _ => ?_) | intro x

theorem execLinkRead_kept {cmds : List Instr} {s : State} (h : s.Kept cmds) :
    Res.Ok (State.Kept cmds) (execLinkRead s) := by
  delta execLinkRead
  repeat' first
    | with_reducible assumption | with_reducible apply Res.ok_next | with_reducible apply State.doorbell_kept
      | with_reducible apply State.cmdLinkRead_kept | (refine State.Keeps.mk fun _ _ => ?_) | intro x

theorem State.cmdMigrate_kept {cmds : List Instr} {s : State} (h : s.Kept cmds) :
    (State.cmdMigrate s).Kept cmds := by
  delta State.cmdMigrate
  repeat' first
    | with_reducible assumption | lift_lets -underBinder
      | (intro x; refine State.kept_cut cmds x ?_ fun _ => ?_; rotate_left; clear_value x; rotate_left; subst x)
      | with_reducible apply State.modStk_kept | with_reducible apply State.finishPending_kept
      | with_reducible apply State.checked_kept | (refine State.Keeps.mk fun _ _ => ?_) | (intro x; clear_value x)
      | intro x

theorem execMigrate_kept {cmds : List Instr} {s : State} (h : s.Kept cmds) :
    Res.Ok (State.Kept cmds) (execMigrate s) := by
  delta execMigrate
  repeat' first
    | with_reducible assumption | with_reducible apply Res.ok_next | with_reducible apply State.doorbell_kept
      | with_reducible apply State.cmdMigrate_kept | (refine State.Keeps.mk fun _ _ => ?_) | intro x

theorem State.cmdRebind_kept {cmds : List Instr} {s : State} (h : s.Kept cmds) :
    (State.cmdRebind s).Kept cmds := by
  delta State.cmdRebind
  repeat' first
    | with_reducible assumption | lift_lets -underBinder
      | (intro x; refine State.kept_cut cmds x ?_ fun _ => ?_; rotate_left; clear_value x; rotate_left; subst x)
      | with_reducible apply State.modStk_kept | with_reducible apply State.finishPending_kept
      | with_reducible apply State.checked_kept | with_reducible apply State.wakeSlice_kept
      | with_reducible apply State.reset_kept | (refine State.Keeps.mk fun _ _ => ?_)
      | with_reducible apply State.kept_ite | (intro x; clear_value x) | intro x | split

theorem execRebind_kept {cmds : List Instr} {s : State} (h : s.Kept cmds) :
    Res.Ok (State.Kept cmds) (execRebind s) := by
  delta execRebind
  repeat' first
    | with_reducible assumption | with_reducible apply Res.ok_next | with_reducible apply State.doorbell_kept
      | with_reducible apply State.cmdRebind_kept | (refine State.Keeps.mk fun _ _ => ?_) | intro x

theorem State.cmdFirnRead_kept {cmds : List Instr} {s : State} (h : s.Kept cmds) :
    (State.cmdFirnRead s).Kept cmds := by
  delta State.cmdFirnRead
  repeat' first
    | with_reducible assumption | lift_lets -underBinder
      | (intro x; refine State.kept_cut cmds x ?_ fun _ => ?_; rotate_left; clear_value x; rotate_left; subst x)
      | with_reducible apply State.checked_kept | with_reducible apply State.setRun_kept
      | (refine State.Keeps.mk fun _ _ => ?_) | (intro x; clear_value x) | intro x

theorem execFirnRead_kept {cmds : List Instr} {s : State} (h : s.Kept cmds) :
    Res.Ok (State.Kept cmds) (execFirnRead s) := by
  delta execFirnRead
  repeat' first
    | with_reducible assumption | with_reducible apply Res.ok_next | with_reducible apply State.doorbell_kept
      | with_reducible apply State.cmdFirnRead_kept | (refine State.Keeps.mk fun _ _ => ?_) | intro x

theorem execFirnReadAnswer_kept {cmds : List Instr} {s : State} (h : s.Kept cmds) (units : BitVec 16) (rows : List (BitVec 16)) :
    Res.Ok (State.Kept cmds) (execFirnReadAnswer units rows s) := by
  delta execFirnReadAnswer
  repeat' first
    | with_reducible assumption | lift_lets -underBinder | with_reducible apply Res.ok_next
      | (intro x; refine State.kept_cut cmds x ?_ fun _ => ?_; rotate_left; clear_value x; rotate_left; subst x)
      | with_reducible apply State.finish_kept | with_reducible apply Res.ok_ite | with_reducible apply State.kept_ite
      | (intro x; clear_value x) | intro x | split

theorem execFirnReadTimeout_kept {cmds : List Instr} {s : State} (h : s.Kept cmds) :
    Res.Ok (State.Kept cmds) (execFirnReadTimeout s) := by
  delta execFirnReadTimeout
  repeat' first
    | with_reducible assumption | lift_lets -underBinder | with_reducible apply Res.ok_next
      | (intro x; refine State.kept_cut cmds x ?_ fun _ => ?_; rotate_left; clear_value x; rotate_left; subst x)
      | with_reducible apply State.finish_kept | with_reducible apply Res.ok_ite | with_reducible apply State.kept_ite
      | (intro x; clear_value x) | intro x | split

theorem State.cmdDigestFence_kept {cmds : List Instr} {s : State} (h : s.Kept cmds) :
    (State.cmdDigestFence s).Kept cmds := by
  delta State.cmdDigestFence
  repeat' first
    | with_reducible assumption | lift_lets -underBinder
      | (intro x; refine State.kept_cut cmds x ?_ fun _ => ?_; rotate_left; clear_value x; rotate_left; subst x)
      | with_reducible apply State.digestFence_kept | with_reducible apply State.finish_kept
      | with_reducible apply State.checked_kept | with_reducible apply State.setRun_kept
      | (refine State.Keeps.mk fun _ _ => ?_) | with_reducible apply State.kept_ite | (intro x; clear_value x)
      | intro x | split

theorem execDigestFence_kept {cmds : List Instr} {s : State} (h : s.Kept cmds) :
    Res.Ok (State.Kept cmds) (execDigestFence s) := by
  delta execDigestFence
  repeat' first
    | with_reducible assumption | with_reducible apply Res.ok_next | with_reducible apply State.doorbell_kept
      | with_reducible apply State.cmdDigestFence_kept | (refine State.Keeps.mk fun _ _ => ?_) | intro x

theorem State.cmdLockstepRelease_kept {cmds : List Instr} {s : State} (h : s.Kept cmds) :
    (State.cmdLockstepRelease s).Kept cmds := by
  delta State.cmdLockstepRelease
  repeat' first
    | with_reducible assumption | lift_lets -underBinder
      | (intro x; refine State.kept_cut cmds x ?_ fun _ => ?_; rotate_left; clear_value x; rotate_left; subst x)
      | with_reducible apply State.modDet_kept | with_reducible apply State.detBreak_kept
      | with_reducible apply State.finish_kept | with_reducible apply State.checked_kept
      | (refine State.Keeps.mk fun _ _ => ?_) | with_reducible apply State.kept_ite | (intro x; clear_value x)
      | intro x | split

theorem execLockstepRelease_kept {cmds : List Instr} {s : State} (h : s.Kept cmds) :
    Res.Ok (State.Kept cmds) (execLockstepRelease s) := by
  delta execLockstepRelease
  repeat' first
    | with_reducible assumption | with_reducible apply Res.ok_next | with_reducible apply State.doorbell_kept
      | with_reducible apply State.cmdLockstepRelease_kept | (refine State.Keeps.mk fun _ _ => ?_) | intro x

/-! ### Context -/

theorem State.applyCtx_kept {cmds : List Instr} {s : State} (h : s.Kept cmds) (c : List (BitVec 64)) :
    (State.applyCtx s c).Kept cmds := by
  delta State.applyCtx
  repeat' first
    | with_reducible assumption | lift_lets -underBinder
      | (intro x; refine State.kept_cut cmds x ?_ fun _ => ?_; rotate_left; clear_value x; rotate_left; subst x)
      | with_reducible apply State.modFab_kept | with_reducible apply State.modDet_kept
      | with_reducible apply State.each_kept | with_reducible apply State.detBreak_kept
      | with_reducible apply State.modStream_kept | with_reducible apply State.newPd_kept
      | with_reducible apply State.setMeter_kept | with_reducible apply State.setBucket_kept
      | (refine State.Keeps.mk fun _ _ => ?_) | (intro x; clear_value x) | intro x

/-! ### Brew -/

theorem State.sendLaunch_kept {cmds : List Instr} {s : State} (h : s.Kept cmds) (l : Launch) (ps : List Nat) :
    (State.sendLaunch s l ps).Kept cmds := by
  delta State.sendLaunch
  repeat' first
    | with_reducible assumption | lift_lets -underBinder
      | (intro x; refine State.kept_cut cmds x ?_ fun _ => ?_; rotate_left; clear_value x; rotate_left; subst x)
      | with_reducible apply State.modFab_kept | with_reducible apply State.each_kept
      | with_reducible apply State.icqPass_kept | with_reducible apply State.foldl_kept
      | with_reducible apply List.foldl_kept | (refine State.Keeps.mk fun _ _ => ?_)
      | with_reducible apply State.kept_ite | (intro x; clear_value x) | intro x | split

theorem State.opBits_kept {cmds : List Instr} {s : State} (h : s.Kept cmds) (c b : Nat) (o : OpWord) :
    (State.opBits s c b o).Kept cmds := by
  delta State.opBits
  repeat' first
    | with_reducible assumption
      | (intro x; refine State.kept_cut cmds x ?_ fun _ => ?_; rotate_left; clear_value x; rotate_left; subst x)
      | with_reducible apply State.modFab_kept | with_reducible apply State.readBit_kept | intro x

theorem execBrewDispatchOp_kept {cmds : List Instr} {s : State} (h : s.Kept cmds) (n : Nat) :
    Res.Ok (State.Kept cmds) (execBrewDispatchOp n s) := by
  delta execBrewDispatchOp
  repeat' first
    | with_reducible assumption | lift_lets -underBinder | with_reducible apply Res.ok_next
      | (intro x; refine State.kept_cut cmds x ?_ fun _ => ?_; rotate_left; clear_value x; rotate_left; subst x)
      | with_reducible apply State.modFab_kept | with_reducible apply State.modBrew_kept
      | with_reducible apply State.each_kept | with_reducible apply State.icqWrite_kept
      | with_reducible apply State.statSub_kept | with_reducible apply State.takeNumber_kept
      | with_reducible apply State.sendLaunch_kept | with_reducible apply State.opBits_kept
      | (refine State.Keeps.mk fun _ _ => ?_) | with_reducible apply Res.ok_ite | with_reducible apply State.kept_ite
      | (intro x; clear_value x) | intro x | split

theorem execBrewLaunchStart_kept {cmds : List Instr} {s : State} (h : s.Kept cmds) (p : Fin 144) :
    Res.Ok (State.Kept cmds) (execBrewLaunchStart p s) := by
  delta execBrewLaunchStart
  repeat' first
    | with_reducible assumption | lift_lets -underBinder | with_reducible apply Res.ok_next
      | (intro x; refine State.kept_cut cmds x ?_ fun _ => ?_; rotate_left; clear_value x; rotate_left; subst x)
      | with_reducible apply State.modFab_kept | with_reducible apply State.modSch_kept
      | with_reducible apply State.sendRow_kept | with_reducible apply State.modBrew_kept
      | with_reducible apply State.foldl_kept | with_reducible apply List.foldl_kept | with_reducible apply Res.ok_ite
      | with_reducible apply State.kept_ite | (intro x; clear_value x) | intro x | split

theorem State.dropBrew_kept {cmds : List Instr} {s : State} (h : s.Kept cmds) (p : Nat) (o : OpWord) :
    (State.dropBrew s p o).Kept cmds := by
  delta State.dropBrew
  repeat' first
    | with_reducible assumption | lift_lets -underBinder
      | (intro x; refine State.kept_cut cmds x ?_ fun _ => ?_; rotate_left; clear_value x; rotate_left; subst x)
      | with_reducible apply State.modSlice_kept | with_reducible apply State.kept_ite | (intro x; clear_value x)
      | intro x | split

theorem State.startRowOp_kept {cmds : List Instr} {s : State} (h : s.Kept cmds) (p t : Nat) (o : OpWord) (l : Launch) :
    (State.startRowOp s p t o l).Kept cmds := by
  delta State.startRowOp
  repeat' first
    | with_reducible assumption | lift_lets -underBinder
      | (intro x; refine State.kept_cut cmds x ?_ fun _ => ?_; rotate_left; clear_value x; rotate_left; subst x)
      | with_reducible apply State.modSch_kept | with_reducible apply State.sendRow_kept
      | with_reducible apply State.modBrew_kept | with_reducible apply State.modBt_kept
      | with_reducible apply State.brewCount_kept | with_reducible apply State.brewCharge_kept
      | with_reducible apply State.brewHeat_kept | with_reducible apply State.foldl_kept
      | with_reducible apply List.foldl_kept | (intro x; clear_value x) | intro x

theorem execBrewOpStart_kept {cmds : List Instr} {s : State} (h : s.Kept cmds) (p : Fin 144) :
    Res.Ok (State.Kept cmds) (execBrewOpStart p s) := by
  delta execBrewOpStart
  repeat' first
    | with_reducible assumption | lift_lets -underBinder | with_reducible apply Res.ok_next
      | (intro x; refine State.kept_cut cmds x ?_ fun _ => ?_; rotate_left; clear_value x; rotate_left; subst x)
      | with_reducible apply State.modBrew_kept | with_reducible apply State.setLoan_kept
      | with_reducible apply State.dropBrew_kept | with_reducible apply State.startRowOp_kept
      | with_reducible apply Res.ok_ite | with_reducible apply State.kept_ite | (intro x; clear_value x) | intro x
      | (refine State.Kept.of ?_ ?_ ?_ ?_ ?_ ?_ <;> dsimp only) | with_reducible apply State.Kept.mem
      | with_reducible apply State.Kept.ports | with_reducible apply State.Kept.slices
      | with_reducible apply State.Kept.tlm | with_reducible apply State.Kept.recs
      | with_reducible apply State.Kept.queue | split

theorem State.opEffect_kept {cmds : List Instr} {s : State} (h : s.Kept cmds) (p : Nat) (o : OpWord) :
    (State.opEffect s p o).Kept cmds := by
  delta State.opEffect
  repeat' first
    | with_reducible assumption | lift_lets -underBinder
      | (intro x; refine State.kept_cut cmds x ?_ fun _ => ?_; rotate_left; clear_value x; rotate_left; subst x)
      | with_reducible apply State.modBrew_kept | with_reducible apply State.each_kept
      | with_reducible apply State.rowOp_kept | with_reducible apply State.foldl_kept
      | with_reducible apply List.foldl_kept | (refine State.Keeps.mk fun _ _ => ?_)
      | with_reducible apply State.kept_ite | (intro x; clear_value x) | intro x | split

theorem State.brewCommit_kept {cmds : List Instr} {s : State} (h : s.Kept cmds) (p id : Nat) :
    (State.brewCommit s p id).Kept cmds := by
  delta State.brewCommit
  repeat' first
    | with_reducible assumption | lift_lets -underBinder
      | (intro x; refine State.kept_cut cmds x ?_ fun _ => ?_; rotate_left; clear_value x; rotate_left; subst x)
      | with_reducible apply State.brewLeave_kept | with_reducible apply State.tell_kept
      | with_reducible apply State.kept_ite | (intro x; clear_value x) | intro x | split

theorem State.releaseOp_kept {cmds : List Instr} {s : State} (h : s.Kept cmds) (p : Nat) :
    (State.releaseOp s p).Kept cmds := by
  delta State.releaseOp
  repeat' first
    | with_reducible assumption | lift_lets -underBinder
      | (intro x; refine State.kept_cut cmds x ?_ fun _ => ?_; rotate_left; clear_value x; rotate_left; subst x)
      | with_reducible apply State.modBrew_kept | with_reducible apply State.icqRelease_kept
      | with_reducible apply State.kept_ite | (intro x; clear_value x) | intro x | split

theorem State.stopAtEnd_kept {cmds : List Instr} {s : State} (h : s.Kept cmds) (p : Nat) :
    (State.stopAtEnd s p).Kept cmds := by
  delta State.stopAtEnd
  repeat' first
    | with_reducible assumption | lift_lets -underBinder
      | (intro x; refine State.kept_cut cmds x ?_ fun _ => ?_; rotate_left; clear_value x; rotate_left; subst x)
      | with_reducible apply State.modBrew_kept | with_reducible apply State.statSlice_kept
      | with_reducible apply State.kept_ite | (intro x; clear_value x) | intro x | split

theorem execBrewOpEnd_kept {cmds : List Instr} {s : State} (h : s.Kept cmds) (p : Fin 144) :
    Res.Ok (State.Kept cmds) (execBrewOpEnd p s) := by
  delta execBrewOpEnd
  repeat' first
    | with_reducible assumption | lift_lets -underBinder | with_reducible apply Res.ok_next
      | (intro x; refine State.kept_cut cmds x ?_ fun _ => ?_; rotate_left; clear_value x; rotate_left; subst x)
      | with_reducible apply State.modBrew_kept | with_reducible apply State.setLoan_kept
      | with_reducible apply State.brewStopped_kept | with_reducible apply State.dropBrew_kept
      | with_reducible apply State.opEffect_kept | with_reducible apply State.brewCommit_kept
      | with_reducible apply State.releaseOp_kept | with_reducible apply State.stopAtEnd_kept
      | with_reducible apply Res.ok_ite | with_reducible apply State.kept_ite | (intro x; clear_value x) | intro x
      | split

theorem execBrewPreempt_kept {cmds : List Instr} {s : State} (h : s.Kept cmds) (p : Fin 144) :
    Res.Ok (State.Kept cmds) (execBrewPreempt p s) := by
  delta execBrewPreempt
  repeat' first
    | with_reducible assumption | lift_lets -underBinder | with_reducible apply Res.ok_next
      | (intro x; refine State.kept_cut cmds x ?_ fun _ => ?_; rotate_left; clear_value x; rotate_left; subst x)
      | with_reducible apply State.modSch_kept | with_reducible apply State.modBrew_kept
      | with_reducible apply State.statSlice_kept | with_reducible apply State.brewPre_kept
      | with_reducible apply State.setLoan_kept | with_reducible apply State.brewStopped_kept
      | with_reducible apply Res.ok_ite | with_reducible apply State.kept_ite | (intro x; clear_value x) | intro x
      | split

theorem execBrewResume_kept {cmds : List Instr} {s : State} (h : s.Kept cmds) (p : Fin 144) :
    Res.Ok (State.Kept cmds) (execBrewResume p s) := by
  delta execBrewResume
  repeat' first
    | with_reducible assumption | lift_lets -underBinder | with_reducible apply Res.ok_next
      | (intro x; refine State.kept_cut cmds x ?_ fun _ => ?_; rotate_left; clear_value x; rotate_left; subst x)
      | with_reducible apply State.modBrew_kept | with_reducible apply State.setLoan_kept
      | with_reducible apply Res.ok_ite | with_reducible apply State.kept_ite | (intro x; clear_value x) | intro x
      | split

theorem execBrewLaunchCommit_kept {cmds : List Instr} {s : State} (h : s.Kept cmds) (n : Nat) :
    Res.Ok (State.Kept cmds) (execBrewLaunchCommit n s) := by
  delta execBrewLaunchCommit
  repeat' first
    | with_reducible assumption | lift_lets -underBinder | with_reducible apply Res.ok_next
      | (intro x; refine State.kept_cut cmds x ?_ fun _ => ?_; rotate_left; clear_value x; rotate_left; subst x)
      | with_reducible apply State.modFab_kept | with_reducible apply Res.ok_ite | with_reducible apply State.kept_ite
      | (intro x; clear_value x) | intro x | split

theorem execBrewLaunchEnd_kept {cmds : List Instr} {s : State} (h : s.Kept cmds) (n : Nat) :
    Res.Ok (State.Kept cmds) (execBrewLaunchEnd n s) := by
  delta execBrewLaunchEnd
  repeat' first
    | with_reducible assumption | lift_lets -underBinder | with_reducible apply Res.ok_next
      | (intro x; refine State.kept_cut cmds x ?_ fun _ => ?_; rotate_left; clear_value x; rotate_left; subst x)
      | with_reducible apply State.modFab_kept | with_reducible apply State.statSub_kept
      | with_reducible apply State.decideEntry_kept | with_reducible apply Res.ok_ite
      | with_reducible apply State.kept_ite | (intro x; clear_value x) | intro x | split

/-! ### Power -/

theorem State.centralCheck_kept {cmds : List Instr} {s : State} (h : s.Kept cmds) :
    (State.centralCheck s).Kept cmds := by
  delta State.centralCheck
  repeat' first
    | with_reducible assumption | lift_lets -underBinder
      | (intro x; refine State.kept_cut cmds x ?_ fun _ => ?_; rotate_left; clear_value x; rotate_left; subst x)
      | with_reducible apply State.modStk_kept | with_reducible apply State.event_kept
      | with_reducible apply State.kept_ite | (intro x; clear_value x) | intro x | split

theorem State.sendLayerBudgets_kept {cmds : List Instr} {s : State} (h : s.Kept cmds) :
    (State.sendLayerBudgets s).Kept cmds := h

theorem State.powerSet_kept {cmds : List Instr} {s : State} (h : s.Kept cmds) (l st : Nat) :
    (State.powerSet s l st).Kept cmds := h

theorem State.centralRule_kept {cmds : List Instr} {s : State} (h : s.Kept cmds) :
    (State.centralRule s).Kept cmds := by
  delta State.centralRule
  repeat' first
    | with_reducible assumption | lift_lets -underBinder
      | (intro x; refine State.kept_cut cmds x ?_ fun _ => ?_; rotate_left; clear_value x; rotate_left; subst x)
      | with_reducible apply State.powerSet_kept | with_reducible apply State.kept_ite | (intro x; clear_value x)
      | intro x | split

theorem State.evalPower_kept {cmds : List Instr} {s : State} (h : s.Kept cmds) :
    (State.evalPower s).Kept cmds := by
  delta State.evalPower
  repeat' first
    | with_reducible assumption | lift_lets -underBinder
      | (intro x; refine State.kept_cut cmds x ?_ fun _ => ?_; rotate_left; clear_value x; rotate_left; subst x)
      | with_reducible apply State.modStk_kept | with_reducible apply State.modRing_kept
      | with_reducible apply State.sendBudgets_kept | with_reducible apply State.centralCheck_kept
      | with_reducible apply State.sendLayerBudgets_kept | with_reducible apply State.centralRule_kept
      | with_reducible apply State.foldl_kept | with_reducible apply List.foldl_kept
      | with_reducible apply State.kept_ite | (intro x; clear_value x) | intro x | split

theorem execFedBudgetTimer_kept {cmds : List Instr} {s : State} (h : s.Kept cmds) :
    Res.Ok (State.Kept cmds) (execFedBudgetTimer s) := by
  delta execFedBudgetTimer
  repeat' first
    | with_reducible assumption | with_reducible apply Res.ok_next | with_reducible apply State.sendLayerBudgets_kept
      | with_reducible apply Res.ok_ite | with_reducible apply State.kept_ite | intro x | split

theorem execPowerReport_kept {cmds : List Instr} {s : State} (h : s.Kept cmds) (l : Fin 16) (power : BitVec 16) (pstate : BitVec 3) :
    Res.Ok (State.Kept cmds) (execPowerReport l power pstate s) := by
  delta execPowerReport
  repeat' first
    | with_reducible assumption | lift_lets -underBinder | with_reducible apply Res.ok_next
      | (intro x; refine State.kept_cut cmds x ?_ fun _ => ?_; rotate_left; clear_value x; rotate_left; subst x)
      | with_reducible apply State.modStk_kept | with_reducible apply Res.ok_ite | with_reducible apply State.kept_ite
      | (intro x; clear_value x) | intro x | split

theorem execPowerSetAck_kept {cmds : List Instr} {s : State} (h : s.Kept cmds) (l : Fin 16) :
    Res.Ok (State.Kept cmds) (execPowerSetAck l s) := by
  delta execPowerSetAck
  repeat' first
    | with_reducible assumption | lift_lets -underBinder | with_reducible apply Res.ok_next
      | (intro x; refine State.kept_cut cmds x ?_ fun _ => ?_; rotate_left; clear_value x; rotate_left; subst x)
      | with_reducible apply State.modStk_kept | with_reducible apply Res.ok_ite | with_reducible apply State.kept_ite
      | (intro x; clear_value x) | intro x | split

theorem execPowerSetTimeout_kept {cmds : List Instr} {s : State} (h : s.Kept cmds) (l : Fin 16) :
    Res.Ok (State.Kept cmds) (execPowerSetTimeout l s) := by
  delta execPowerSetTimeout
  repeat' first
    | with_reducible assumption | lift_lets -underBinder | with_reducible apply Res.ok_next
      | (intro x; refine State.kept_cut cmds x ?_ fun _ => ?_; rotate_left; clear_value x; rotate_left; subst x)
      | with_reducible apply State.modStk_kept | with_reducible apply Res.ok_ite | with_reducible apply State.kept_ite
      | (intro x; clear_value x) | intro x | split

end Sys2Proof.Machine
end

