-- ==== Sys2Proof/Laws/KeptBlock.lean ====
section
/-! SUPPORT. Every definition keeps the canonical form and the queue (`State.Kept`): start-up, resets, Frost, alignment, the ring, in-service test, thermal protection, the wrapper and the tick. -/

set_option linter.unusedTactic false
set_option linter.unreachableTactic false

namespace Sys2Proof.Machine

/-! ### StartOps -/

theorem State.cleared_kept {cmds : List Instr} {s : State} (h : s.Kept cmds) : (State.cleared s).Kept cmds :=
  .of h.mem rfl rfl rfl (Nat.zero_le _) h.queue

theorem execKxPorNAssert_kept {cmds : List Instr} {s : State} (h : s.Kept cmds) :
    Res.Ok (State.Kept cmds) (execKxPorNAssert s) := by
  delta execKxPorNAssert
  repeat' first
    | with_reducible assumption | with_reducible apply Res.ok_next | with_reducible apply State.cleared_kept | intro x

theorem State.rejectCopy_kept {cmds : List Instr} {s : State} (h : s.Kept cmds) (i : Nat) (r : BitVec 8 ⊕ Cfg) :
    (State.rejectCopy s i r).Kept cmds := by
  delta State.rejectCopy
  repeat' first
    | with_reducible assumption | lift_lets -underBinder
      | (intro x; refine State.kept_cut cmds x ?_ fun _ => ?_; rotate_left; clear_value x; rotate_left; subst x)
      | with_reducible apply State.event_kept | with_reducible apply State.kept_ite | (intro x; clear_value x)
      | intro x | split

theorem State.writeCfg_kept {cmds : List Instr} {s : State} (h : s.Kept cmds) (c : Cfg) :
    (State.writeCfg s c).Kept cmds := h

theorem State.selectBoot_kept {cmds : List Instr} {s : State} (h : s.Kept cmds) (answers : Bool) :
    (State.selectBoot s answers).Kept cmds := by
  delta State.selectBoot
  repeat' first
    | with_reducible assumption | lift_lets -underBinder
      | (intro x; refine State.kept_cut cmds x ?_ fun _ => ?_; rotate_left; clear_value x; rotate_left; subst x)
      | (intro c hc; exact hc) | with_reducible apply State.modFab_kept | with_reducible apply State.modCtl_kept
      | with_reducible apply State.event_kept | with_reducible apply State.rejectCopy_kept
      | with_reducible apply State.writeCfg_kept | with_reducible apply State.kept_ite | (intro x; clear_value x)
      | intro x | split | dsimp only

theorem State.clampStart_kept {cmds : List Instr} {s : State} (h : s.Kept cmds) :
    (State.clampStart s).Kept cmds := by
  delta State.clampStart
  repeat' first
    | with_reducible assumption | lift_lets -underBinder
      | (intro x; refine State.kept_cut cmds x ?_ fun _ => ?_; rotate_left; clear_value x; rotate_left; subst x)
      | with_reducible apply State.modFab_kept | with_reducible apply State.each_kept
      | with_reducible apply State.event_kept | (refine State.Keeps.mk fun _ _ => ?_) | (intro x; clear_value x)
      | intro x | (refine State.Kept.of ?_ ?_ ?_ ?_ ?_ ?_ <;> dsimp only) | with_reducible apply State.Kept.mem
      | with_reducible apply State.Kept.ports | with_reducible apply State.Kept.slices
      | with_reducible apply State.Kept.tlm | with_reducible apply State.Kept.recs
      | with_reducible apply State.Kept.queue

theorem State.negFence_kept {cmds : List Instr} {s : State} (h : s.Kept cmds) (l cause : Nat) :
    (State.negFence s l cause).Kept cmds := by
  delta State.negFence
  repeat' first
    | with_reducible assumption | lift_lets -underBinder
      | (intro x; refine State.kept_cut cmds x ?_ fun _ => ?_; rotate_left; clear_value x; rotate_left; subst x)
      | with_reducible apply State.modStk_kept | with_reducible apply State.event_kept | (intro x; clear_value x)
      | intro x

theorem State.negRates_kept {cmds : List Instr} {s : State} (h : s.Kept cmds) (n : Nat) : (State.negRates n s).Kept cmds := by
  induction n generalizing s with
  | zero => exact h
  | succ n ih =>
    simp only [State.negRates]
    split
    · exact h
    · split
      · exact ih (State.negFence_kept h ..)
      · exact h

theorem State.fuseMap_kept {cmds : List Instr} {s : State} (h : s.Kept cmds) (p : Nat) (ws : List (BitVec 32 × BitVec 32 × BitVec 32)) :
    (State.fuseMap s p ws).Kept cmds := by
  delta State.fuseMap
  repeat' first
    | with_reducible assumption | lift_lets -underBinder
      | (intro x; refine State.kept_cut cmds x ?_ fun _ => ?_; rotate_left; clear_value x; rotate_left; subst x)
      | with_reducible apply State.each_kept | with_reducible apply State.event_kept
      | with_reducible apply State.outOfService_kept | (refine State.Keeps.mk fun _ _ => ?_)
      | with_reducible apply State.kept_ite | (intro x; clear_value x) | intro x | split

theorem State.negotiate_kept {cmds : List Instr} {s : State} (h : s.Kept cmds) (e : StartEnv) :
    (State.negotiate s e).Kept cmds := by
  delta State.negotiate
  repeat' first
    | with_reducible assumption | lift_lets -underBinder
      | (intro x; refine State.kept_cut cmds x ?_ fun _ => ?_; rotate_left; clear_value x; rotate_left; subst x)
      | with_reducible apply State.modStk_kept | with_reducible apply State.modTherm_kept
      | with_reducible apply State.modRep_kept | with_reducible apply State.each_kept
      | with_reducible apply State.outOfService_kept | with_reducible apply State.centralCheck_kept
      | with_reducible apply State.negFence_kept | with_reducible apply State.negRates_kept
      | with_reducible apply State.fuseMap_kept | with_reducible apply State.reset_kept
      | with_reducible apply State.foldl_kept | with_reducible apply List.foldl_kept
      | (refine State.Keeps.mk fun _ _ => ?_) | with_reducible apply State.kept_ite | (intro x; clear_value x)
      | intro x | split

theorem State.phyAt_kept {cmds : List Instr} {s : State} (h : s.Kept cmds) (l : List (BitVec 16)) :
    (State.phyAt s l).Kept cmds := h

theorem State.floorBand_kept {cmds : List Instr} {s : State} (h : s.Kept cmds) (p : Nat) :
    (State.floorBand s p).Kept cmds := by
  delta State.floorBand
  repeat' first
    | with_reducible assumption | lift_lets -underBinder
      | (intro x; refine State.kept_cut cmds x ?_ fun _ => ?_; rotate_left; clear_value x; rotate_left; subst x)
      | with_reducible apply State.statSlice_kept | with_reducible apply State.modRf_kept
      | with_reducible apply State.kept_ite | (intro x; clear_value x) | intro x | split

theorem State.startRefresh_kept {cmds : List Instr} {s : State} (h : s.Kept cmds) (p : Nat) :
    (State.startRefresh s p).Kept cmds := by
  delta State.startRefresh
  repeat' first
    | with_reducible assumption | lift_lets -underBinder
      | (intro x; refine State.kept_cut cmds x ?_ fun _ => ?_; rotate_left; clear_value x; rotate_left; subst x)
      | with_reducible apply State.modRf_kept | with_reducible apply State.startAccs_kept
      | with_reducible apply State.floorBand_kept | (intro x; clear_value x) | intro x

theorem State.trainSlice_kept {cmds : List Instr} {s : State} (h : s.Kept cmds) (p : Nat) (o : TrainOutcome) :
    (State.trainSlice s p o).Kept cmds := by
  delta State.trainSlice
  repeat' first
    | with_reducible assumption | lift_lets -underBinder
      | (intro x; refine State.kept_cut cmds x ?_ fun _ => ?_; rotate_left; clear_value x; rotate_left; subst x)
      | (intro x; refine State.kept_cut x.1 ?_ fun _ => ?_; rotate_left; clear_value x; rotate_left; subst x)
      | with_reducible apply State.modLink_kept | with_reducible apply State.sendRow_kept
      | with_reducible apply State.modBt_kept | with_reducible apply State.linkEvent_kept
      | with_reducible apply State.takeTrims_kept | with_reducible apply State.calDone_kept
      | with_reducible apply State.replaceBonds_kept | with_reducible apply State.outOfService_kept
      | with_reducible apply State.measureAll_kept | with_reducible apply State.startRefresh_kept
      | with_reducible apply State.foldl_kept | with_reducible apply List.foldl_kept
      | with_reducible apply State.kept_ite | (intro x; clear_value x) | intro x | split | dsimp only

theorem State.buildRemap_kept {cmds : List Instr} {s : State} (h : s.Kept cmds) :
    (State.buildRemap s).Kept cmds := by
  delta State.buildRemap
  repeat' first
    | with_reducible assumption | lift_lets -underBinder
      | (intro x; refine State.kept_cut cmds x ?_ fun _ => ?_; rotate_left; clear_value x; rotate_left; subst x)
      | with_reducible apply State.modStk_kept | with_reducible apply State.modLink_kept
      | with_reducible apply State.each_kept | with_reducible apply State.event_kept
      | with_reducible apply State.setRemap_kept | with_reducible apply State.modRf_kept
      | with_reducible apply State.sre_kept | with_reducible apply State.addCand_kept
      | with_reducible apply State.chanFence_kept | (refine State.Keeps.mk fun _ _ => ?_)
      | with_reducible apply State.kept_ite | (intro x; clear_value x) | intro x | split

theorem State.fenceAll_kept {cmds : List Instr} {s : State} (h : s.Kept cmds) :
    (State.fenceAll s).Kept cmds := h

theorem State.startUp_kept {cmds : List Instr} {s : State} (h : s.Kept cmds) (e : StartEnv) : (State.startUp s e).Kept cmds := by
  delta State.startUp
  lift_lets -underBinder
  intro put bad s1
  have h1 : s1.Kept cmds := State.modCtl_kept h fun _ hc => hc
  clear_value s1
  intro s2
  have h2 : s2.Kept cmds := State.modSys_kept (State.initMeters_kept (State.nextFree_kept (State.selectBoot_kept h1 ..)) ..) _
  clear_value s2
  intro s3
  have h3 : s3.Kept cmds := State.negotiate_kept h2 ..
  clear_value s3
  with_reducible apply State.kept_ite
  · exact State.fenceAll_kept (State.newPd_kept h3)
  refine State.modSys_kept (State.buildRemap_kept (State.nextFree_kept ?_)) _
  refine State.each_kept ?_ fun _ => State.Keeps.mk fun _ hs => State.trainSlice_kept hs ..
  exact State.phyAt_kept (State.modSys_kept (State.newPd_kept (State.clampStart_kept h3)) _) _

theorem execKxPorNRelease_kept {cmds : List Instr} {s : State} (h : s.Kept cmds) (e : StartEnv) :
    Res.Ok (State.Kept cmds) (execKxPorNRelease e s) := by
  delta execKxPorNRelease
  repeat' first
    | with_reducible assumption | lift_lets -underBinder | with_reducible apply Res.ok_next
      | (intro x; refine State.kept_cut cmds x ?_ fun _ => ?_; rotate_left; clear_value x; rotate_left; subst x)
      | with_reducible apply State.modSys_kept | with_reducible apply State.modRing_kept
      | with_reducible apply State.startUp_kept | with_reducible apply Res.ok_ite
      | with_reducible apply State.kept_ite | (intro x; clear_value x) | intro x
      | (refine State.Kept.of ?_ ?_ ?_ ?_ ?_ ?_ <;> dsimp only) | with_reducible apply State.Kept.mem
      | with_reducible apply State.Kept.ports | with_reducible apply State.Kept.slices
      | with_reducible apply State.Kept.tlm | with_reducible apply State.Kept.recs
      | with_reducible apply State.Kept.queue | split

theorem State.sendAnnounce_kept {cmds : List Instr} {s : State} (h : s.Kept cmds) :
    (State.sendAnnounce s).Kept cmds := by
  delta State.sendAnnounce
  repeat' first
    | with_reducible assumption | lift_lets -underBinder
      | (intro x; refine State.kept_cut cmds x ?_ fun _ => ?_; rotate_left; clear_value x; rotate_left; subst x)
      | with_reducible apply State.modRing_kept | with_reducible apply State.setMember_kept
      | with_reducible apply State.ringDrive_kept | with_reducible apply State.kept_ite | (intro x; clear_value x)
      | intro x | split

theorem State.openUp_kept {cmds : List Instr} {s : State} (h : s.Kept cmds) :
    (State.openUp s).Kept cmds := by
  delta State.openUp
  repeat' first
    | with_reducible assumption | lift_lets -underBinder
      | (intro x; refine State.kept_cut cmds x ?_ fun _ => ?_; rotate_left; clear_value x; rotate_left; subst x)
      | with_reducible apply State.modSys_kept | with_reducible apply State.modStk_kept
      | with_reducible apply State.each_kept | with_reducible apply State.grantPort_kept
      | with_reducible apply State.grantBlp_kept | with_reducible apply State.phase_kept
      | with_reducible apply State.newScrub_kept | with_reducible apply State.sendLayerBudgets_kept
      | with_reducible apply State.sendAnnounce_kept | (refine State.Keeps.mk fun _ _ => ?_)
      | with_reducible apply State.kept_ite | (intro x; clear_value x) | intro x | split

theorem State.alignOrOpen_kept {cmds : List Instr} {s : State} (h : s.Kept cmds) :
    (State.alignOrOpen s).Kept cmds := by
  delta State.alignOrOpen
  repeat' first
    | with_reducible assumption | lift_lets -underBinder
      | (intro x; refine State.kept_cut cmds x ?_ fun _ => ?_; rotate_left; clear_value x; rotate_left; subst x)
      | with_reducible apply State.modDet_kept | with_reducible apply State.holdAdm_kept
      | with_reducible apply State.openUp_kept | with_reducible apply State.kept_ite | (intro x; clear_value x)
      | intro x | split

theorem execZeroingDone_kept {cmds : List Instr} {s : State} (h : s.Kept cmds) :
    Res.Ok (State.Kept cmds) (execZeroingDone s) := by
  delta execZeroingDone
  repeat' first
    | with_reducible assumption | lift_lets -underBinder | with_reducible apply Res.ok_next
      | (intro x; refine State.kept_cut cmds x ?_ fun _ => ?_; rotate_left; clear_value x; rotate_left; subst x)
      | with_reducible apply State.modFab_kept | with_reducible apply State.phase_kept
      | with_reducible apply State.alignOrOpen_kept | with_reducible apply Res.ok_ite
      | with_reducible apply State.kept_ite | (intro x; clear_value x) | intro x
      | (refine State.Kept.of ?_ ?_ ?_ ?_ ?_ ?_ <;> dsimp only) | rfl | with_reducible apply Memory.wf_drop
      | with_reducible apply Tab.drop_wf | with_reducible apply State.Kept.mem | with_reducible apply State.Kept.ports
      | with_reducible apply State.Kept.slices | with_reducible apply State.Kept.tlm
      | with_reducible apply State.Kept.recs | with_reducible apply State.Kept.queue | split

/-! ### Resets -/

theorem State.endRowOp_kept {cmds : List Instr} {s : State} (h : s.Kept cmds) (p : Nat) :
    (State.endRowOp s p).Kept cmds := by
  delta State.endRowOp
  repeat' first
    | with_reducible assumption | lift_lets -underBinder
      | (intro x; refine State.kept_cut cmds x ?_ fun _ => ?_; rotate_left; clear_value x; rotate_left; subst x)
      | with_reducible apply State.opEffect_kept | with_reducible apply State.kept_ite | (intro x; clear_value x)
      | intro x | split

theorem State.drainWrites_kept {cmds : List Instr} {s : State} (h : s.Kept cmds) (p : Nat) :
    (State.drainWrites s p).Kept cmds := by
  delta State.drainWrites
  repeat' first
    | with_reducible assumption | lift_lets -underBinder
      | (intro x; refine State.kept_cut cmds x ?_ fun _ => ?_; rotate_left; clear_value x; rotate_left; subst x)
      | with_reducible apply State.modDat_kept | with_reducible apply State.each_kept
      | with_reducible apply State.stat_kept | with_reducible apply State.setCode_kept
      | with_reducible apply State.lateCharge_kept | with_reducible apply State.foldl_kept
      | with_reducible apply List.foldl_kept | (refine State.Keeps.mk fun _ _ => ?_) | (intro x; clear_value x)
      | intro x

theorem State.writeNow_kept {cmds : List Instr} {s : State} (h : s.Kept cmds) (e : Entry) (a : Acc) :
    (State.writeNow s e a).Kept cmds := by
  delta State.writeNow
  repeat' first
    | with_reducible assumption | lift_lets -underBinder
      | (intro x; refine State.kept_cut cmds x ?_ fun _ => ?_; rotate_left; clear_value x; rotate_left; subst x)
      | with_reducible apply State.setCode_kept | with_reducible apply State.kept_ite | (intro x; clear_value x)
      | intro x | split

theorem State.maybeWrites_kept {cmds : List Instr} {s : State} (h : s.Kept cmds) :
    (State.maybeWrites s).Kept cmds := by
  delta State.maybeWrites
  repeat' first
    | with_reducible assumption | lift_lets -underBinder
      | (intro x; refine State.kept_cut cmds x ?_ fun _ => ?_; rotate_left; clear_value x; rotate_left; subst x)
      | with_reducible apply State.writeNow_kept | with_reducible apply State.foldl_kept
      | with_reducible apply List.foldl_kept | with_reducible apply State.kept_ite | (intro x; clear_value x)
      | intro x | (refine State.Kept.of ?_ ?_ ?_ ?_ ?_ ?_ <;> dsimp only) | with_reducible apply State.Kept.mem
      | with_reducible apply State.Kept.ports | with_reducible apply State.Kept.slices
      | with_reducible apply State.Kept.tlm | with_reducible apply State.Kept.recs
      | with_reducible apply State.Kept.queue | split

theorem State.warmTherm_kept {cmds : List Instr} {s : State} (h : s.Kept cmds) :
    (State.warmTherm s).Kept cmds := by
  delta State.warmTherm
  repeat' first
    | with_reducible assumption | lift_lets -underBinder
      | (intro x; refine State.kept_cut cmds x ?_ fun _ => ?_; rotate_left; clear_value x; rotate_left; subst x)
      | with_reducible apply State.modTherm_kept | with_reducible apply State.event_kept
      | with_reducible apply State.reset_kept | with_reducible apply State.kept_ite | (intro x; clear_value x)
      | intro x | split

theorem State.warmDet_kept {cmds : List Instr} {s : State} (h : s.Kept cmds) :
    (State.warmDet s).Kept cmds := h

theorem State.warmStack_kept {cmds : List Instr} {s : State} (h : s.Kept cmds) :
    (State.warmStack s).Kept cmds := by
  delta State.warmStack
  repeat' first
    | with_reducible assumption | lift_lets -underBinder
      | (intro x; refine State.kept_cut cmds x ?_ fun _ => ?_; rotate_left; clear_value x; rotate_left; subst x)
      | with_reducible apply State.modSlice_kept | with_reducible apply State.modStk_kept
      | with_reducible apply State.each_kept | (refine State.Keeps.mk fun _ _ => ?_)
      | with_reducible apply State.kept_ite | (intro x; clear_value x) | intro x | split

theorem State.warmCleared_kept {cmds : List Instr} {s : State} (h : s.Kept cmds) :
    (State.warmCleared s).Kept cmds := by
  delta State.warmCleared
  repeat' first
    | with_reducible assumption | lift_lets -underBinder
      | (intro x; refine State.kept_cut cmds x ?_ fun _ => ?_; rotate_left; clear_value x; rotate_left; subst x)
      | (intro c hc; exact hc) | with_reducible apply State.modSys_kept | with_reducible apply State.modRing_kept
      | with_reducible apply State.modCtl_kept | with_reducible apply State.emptyIcqs_kept
      | with_reducible apply State.phase_kept | with_reducible apply State.reset_kept | (intro x; clear_value x)
      | intro x | (refine State.Kept.of ?_ ?_ ?_ ?_ ?_ ?_ <;> dsimp only) | with_reducible apply Tab.mapVals_wf | rfl
      | with_reducible apply State.Kept.mem | with_reducible apply State.Kept.ports
      | with_reducible apply State.Kept.slices | with_reducible apply State.Kept.tlm
      | with_reducible apply State.Kept.recs | with_reducible apply State.Kept.queue | dsimp only

theorem State.warmReset_kept {cmds : List Instr} {s : State} (h : s.Kept cmds) : (State.warmReset s).Kept cmds := by
  have h1 : (s.each (List.range 144) fun s p => ((s.endRowOp p).drainWrites p).calYield p).Kept cmds :=
    State.each_kept h fun _ => State.Keeps.mk fun _ hs =>
      State.calYield_kept (State.drainWrites_kept (State.endRowOp_kept hs ..) ..) ..
  exact State.warmCleared_kept (State.warmStack_kept (State.warmDet_kept (State.warmTherm_kept
    (State.settleBands_kept (State.maybeWrites_kept h1)))))

theorem execKxRstNAssert_kept {cmds : List Instr} {s : State} (h : s.Kept cmds) :
    Res.Ok (State.Kept cmds) (execKxRstNAssert s) := by
  delta execKxRstNAssert
  repeat' first
    | with_reducible assumption | lift_lets -underBinder | with_reducible apply Res.ok_next
      | (intro x; refine State.kept_cut cmds x ?_ fun _ => ?_; rotate_left; clear_value x; rotate_left; subst x)
      | with_reducible apply State.modSys_kept | with_reducible apply State.warmReset_kept
      | with_reducible apply Res.ok_ite | with_reducible apply State.kept_ite | (intro x; clear_value x) | intro x
      | split

theorem State.wakeWarm_kept {cmds : List Instr} {s : State} (h : s.Kept cmds) (p : Nat) :
    (State.wakeWarm s p).Kept cmds := by
  delta State.wakeWarm
  repeat' first
    | with_reducible assumption | lift_lets -underBinder
      | (intro x; refine State.kept_cut cmds x ?_ fun _ => ?_; rotate_left; clear_value x; rotate_left; subst x)
      | with_reducible apply State.modLink_kept | with_reducible apply State.sendRow_kept
      | with_reducible apply State.srxRefresh_kept | with_reducible apply State.newScrub_kept
      | with_reducible apply State.floorBand_kept | (intro x; clear_value x) | intro x

theorem State.againRetrain_kept {cmds : List Instr} {s : State} (h : s.Kept cmds) (p : Nat) :
    (State.againRetrain s p).Kept cmds := by
  delta State.againRetrain
  repeat' first
    | with_reducible assumption | lift_lets -underBinder
      | (intro x; refine State.kept_cut cmds x ?_ fun _ => ?_; rotate_left; clear_value x; rotate_left; subst x)
      | with_reducible apply State.modSlice_kept | with_reducible apply State.startRetrain_kept
      | with_reducible apply State.kept_ite | (intro x; clear_value x) | intro x | split

theorem State.restart_kept {cmds : List Instr} {s : State} (h : s.Kept cmds) :
    (State.restart s).Kept cmds := by
  delta State.restart
  repeat' first
    | with_reducible assumption | lift_lets -underBinder
      | (intro x; refine State.kept_cut cmds x ?_ fun _ => ?_; rotate_left; clear_value x; rotate_left; subst x)
      | with_reducible apply State.cleared_kept | with_reducible apply State.startUp_kept
      | with_reducible apply State.reset_kept | with_reducible apply State.kept_ite | (intro x; clear_value x)
      | intro x | (refine State.Kept.of ?_ ?_ ?_ ?_ ?_ ?_ <;> dsimp only) | with_reducible apply Tab.mapVals_wf
      | with_reducible apply State.Kept.mem | with_reducible apply State.Kept.ports
      | with_reducible apply State.Kept.slices | with_reducible apply State.Kept.tlm
      | with_reducible apply State.Kept.recs | with_reducible apply State.Kept.queue | split

theorem State.warmRelease_kept {cmds : List Instr} {s : State} (h : s.Kept cmds) :
    (State.warmRelease s).Kept cmds := by
  delta State.warmRelease
  repeat' first
    | with_reducible assumption | lift_lets -underBinder
      | (intro x; refine State.kept_cut cmds x ?_ fun _ => ?_; rotate_left; clear_value x; rotate_left; subst x)
      | with_reducible apply State.modSys_kept | with_reducible apply State.modLink_kept
      | with_reducible apply State.each_kept | with_reducible apply State.initMeters_kept
      | with_reducible apply State.writeCfg_kept | with_reducible apply State.alignOrOpen_kept
      | with_reducible apply State.wakeWarm_kept | with_reducible apply State.againRetrain_kept
      | with_reducible apply State.restart_kept | (refine State.Keeps.mk fun _ _ => ?_)
      | with_reducible apply State.kept_ite | (intro x; clear_value x) | intro x | split

theorem execKxRstNRelease_kept {cmds : List Instr} {s : State} (h : s.Kept cmds) :
    Res.Ok (State.Kept cmds) (execKxRstNRelease s) := by
  delta execKxRstNRelease
  repeat' first
    | with_reducible assumption | lift_lets -underBinder | with_reducible apply Res.ok_next
      | (intro x; refine State.kept_cut cmds x ?_ fun _ => ?_; rotate_left; clear_value x; rotate_left; subst x)
      | with_reducible apply State.modSys_kept | with_reducible apply State.warmRelease_kept
      | with_reducible apply Res.ok_ite | with_reducible apply State.kept_ite | (intro x; clear_value x) | intro x
      | split

theorem State.rstAfter_kept {cmds : List Instr} {s : State} (h : s.Kept cmds) :
    (State.rstAfter s).Kept cmds := by
  delta State.rstAfter
  repeat' first
    | with_reducible assumption | lift_lets -underBinder
      | (intro x; refine State.kept_cut cmds x ?_ fun _ => ?_; rotate_left; clear_value x; rotate_left; subst x)
      | with_reducible apply State.warmReset_kept | with_reducible apply State.warmRelease_kept
      | with_reducible apply State.kept_ite | (intro x; clear_value x) | intro x | split

/-! ### ModeChange -/

theorem State.rateGo_kept {cmds : List Instr} {s : State} (h : s.Kept cmds) (p : Nat) :
    (State.rateGo s p).Kept cmds := by
  delta State.rateGo
  repeat' first
    | with_reducible assumption | lift_lets -underBinder
      | (intro x; refine State.kept_cut cmds x ?_ fun _ => ?_; rotate_left; clear_value x; rotate_left; subst x)
      | with_reducible apply State.sendRow_kept | with_reducible apply State.modBt_kept
      | with_reducible apply State.srxRefresh_kept | (intro x; clear_value x) | intro x

theorem State.rateTrims_kept {cmds : List Instr} {s : State} (h : s.Kept cmds) :
    (State.rateTrims s).Kept cmds := by
  delta State.rateTrims
  repeat' first
    | with_reducible assumption
      | (intro x; refine State.kept_cut cmds x ?_ fun _ => ?_; rotate_left; clear_value x; rotate_left; subst x)
      | with_reducible apply State.each_kept | with_reducible apply State.takeTrims_kept
      | with_reducible apply State.dueIfDerived_kept | (refine State.Keeps.mk fun _ _ => ?_) | intro x

theorem State.meetPeriods_kept {cmds : List Instr} {s : State} (h : s.Kept cmds) :
    (State.meetPeriods s).Kept cmds := by
  delta State.meetPeriods
  repeat' first
    | with_reducible assumption | with_reducible apply State.periodStart_kept
      | with_reducible apply State.queueSample_kept | with_reducible apply State.kept_ite | intro x | split

theorem State.commitChange_kept {cmds : List Instr} {s : State} (h : s.Kept cmds) (m : ModeChg) : (State.commitChange s m).Kept cmds := by
  delta State.commitChange
  lift_lets -underBinder
  intro s
  have h : s.Kept cmds := State.meetPeriods_kept h
  clear_value s
  intro u held s0
  have h0 : s0.Kept cmds := State.settleAll_kept h
  clear_value u held s0
  have hd : ∀ {t : State} (c : Cfg), t.Kept cmds → ({ t with cfg := c } : State).Kept cmds := fun _ ht => ht
  intro s1
  have h1 : s1.Kept cmds := by
    simp only [s1]
    split
    · exact State.rebase_kept (State.newPd_kept (State.modCtl_kept (State.modFab_kept (State.applyCfg_kept h0 ..) _) fun _ hc => hc))
    · exact State.applyCtx_kept (State.rebase_kept (State.applyCfg_kept h0 ..)) ..
    · exact h0
    · exact State.rebase_kept (State.modDet_kept (hd _ (State.settleBands_kept h0)) _)
  clear_value s1
  intro s2
  have h2 : s2.Kept cmds := State.each_kept h1 fun _ => State.Keeps.mk fun _ hs => State.noteWord_kept hs ..
  clear_value s2
  exact h2

theorem execModechgCommit_kept {cmds : List Instr} {s : State} (h : s.Kept cmds) :
    Res.Ok (State.Kept cmds) (execModechgCommit s) := by
  delta execModechgCommit
  repeat' first
    | with_reducible assumption | lift_lets -underBinder | with_reducible apply Res.ok_next
      | (intro x; refine State.kept_cut cmds x ?_ fun _ => ?_; rotate_left; clear_value x; rotate_left; subst x)
      | with_reducible apply State.changeBack_kept | with_reducible apply State.commitChange_kept
      | with_reducible apply Res.ok_ite | with_reducible apply State.kept_ite | (intro x; clear_value x) | intro x
      | split

theorem execCommitWindowEnd_kept {cmds : List Instr} {s : State} (h : s.Kept cmds) :
    Res.Ok (State.Kept cmds) (execCommitWindowEnd s) := by
  delta execCommitWindowEnd
  repeat' first
    | with_reducible assumption | lift_lets -underBinder | with_reducible apply Res.ok_next
      | (intro x; refine State.kept_cut cmds x ?_ fun _ => ?_; rotate_left; clear_value x; rotate_left; subst x)
      | with_reducible apply State.modSys_kept | with_reducible apply State.each_kept
      | with_reducible apply State.modBt_kept | with_reducible apply State.unholdChan_kept
      | with_reducible apply State.changeAnswer_kept | with_reducible apply State.rstAfter_kept
      | with_reducible apply State.rateGo_kept | with_reducible apply State.rateTrims_kept
      | (refine State.Keeps.mk fun _ _ => ?_) | with_reducible apply Res.ok_ite | with_reducible apply State.kept_ite
      | (intro x; clear_value x) | intro x | (refine State.Kept.of ?_ ?_ ?_ ?_ ?_ ?_ <;> dsimp only)
      | with_reducible apply State.Kept.mem | with_reducible apply State.Kept.ports
      | with_reducible apply State.Kept.slices | with_reducible apply State.Kept.tlm
      | with_reducible apply State.Kept.recs | with_reducible apply State.Kept.queue | split

theorem execModechgPrepareTimeout_kept {cmds : List Instr} {s : State} (h : s.Kept cmds) :
    Res.Ok (State.Kept cmds) (execModechgPrepareTimeout s) := by
  delta execModechgPrepareTimeout
  repeat' first
    | with_reducible assumption | lift_lets -underBinder | with_reducible apply Res.ok_next
      | (intro x; refine State.kept_cut cmds x ?_ fun _ => ?_; rotate_left; clear_value x; rotate_left; subst x)
      | with_reducible apply State.abortChange_kept | with_reducible apply Res.ok_ite
      | with_reducible apply State.kept_ite | (intro x; clear_value x) | intro x | split

/-! ### MbxChg -/

theorem State.beginChange_kept {cmds : List Instr} {s : State} (h : s.Kept cmds) (m : ModeChg) (op : BitVec 8) (arg crc : Word) (img : List Word) :
    (State.beginChange s m op arg crc img).Kept cmds := by
  delta State.beginChange
  repeat' first
    | with_reducible assumption | lift_lets -underBinder
      | (intro x; refine State.kept_cut cmds x ?_ fun _ => ?_; rotate_left; clear_value x; rotate_left; subst x)
      | with_reducible apply State.modRing_kept | with_reducible apply State.ringSend_kept
      | with_reducible apply State.startChange_kept | with_reducible apply State.kept_ite | (intro x; clear_value x)
      | intro x | split

theorem State.cmdCfgCommit_kept {cmds : List Instr} {s : State} (h : s.Kept cmds) :
    (State.cmdCfgCommit s).Kept cmds := by
  delta State.cmdCfgCommit
  repeat' first
    | with_reducible assumption | lift_lets -underBinder
      | (intro x; refine State.kept_cut cmds x ?_ fun _ => ?_; rotate_left; clear_value x; rotate_left; subst x)
      | with_reducible apply State.finish_kept | with_reducible apply State.checked_kept
      | with_reducible apply State.beginChange_kept | with_reducible apply State.reset_kept
      | (refine State.Keeps.mk fun _ _ => ?_) | with_reducible apply State.kept_ite | (intro x; clear_value x)
      | intro x | split

theorem execCfgCommit_kept {cmds : List Instr} {s : State} (h : s.Kept cmds) :
    Res.Ok (State.Kept cmds) (execCfgCommit s) := by
  delta execCfgCommit
  repeat' first
    | with_reducible assumption | with_reducible apply Res.ok_next | with_reducible apply State.doorbell_kept
      | with_reducible apply State.cmdCfgCommit_kept | (refine State.Keeps.mk fun _ _ => ?_) | intro x

theorem State.startRate_kept {cmds : List Instr} {s : State} (h : s.Kept cmds) (rate : Nat) (pend : Bool) :
    (State.startRate s rate pend).Kept cmds := by
  delta State.startRate
  repeat' first
    | with_reducible assumption | lift_lets -underBinder
      | (intro x; refine State.kept_cut cmds x ?_ fun _ => ?_; rotate_left; clear_value x; rotate_left; subst x)
      | with_reducible apply State.beginChange_kept | with_reducible apply State.reset_kept | (intro x; clear_value x)
      | intro x

theorem State.cmdRateSet_kept {cmds : List Instr} {s : State} (h : s.Kept cmds) :
    (State.cmdRateSet s).Kept cmds := by
  delta State.cmdRateSet
  repeat' first
    | with_reducible assumption | lift_lets -underBinder
      | (intro x; refine State.kept_cut cmds x ?_ fun _ => ?_; rotate_left; clear_value x; rotate_left; subst x)
      | with_reducible apply State.finish_kept | with_reducible apply State.finishPending_kept
      | with_reducible apply State.checked_kept | with_reducible apply State.startRate_kept
      | (refine State.Keeps.mk fun _ _ => ?_) | with_reducible apply State.kept_ite | (intro x; clear_value x)
      | intro x | split

theorem execRateSet_kept {cmds : List Instr} {s : State} (h : s.Kept cmds) :
    Res.Ok (State.Kept cmds) (execRateSet s) := by
  delta execRateSet
  repeat' first
    | with_reducible assumption | with_reducible apply Res.ok_next | with_reducible apply State.doorbell_kept
      | with_reducible apply State.cmdRateSet_kept | (refine State.Keeps.mk fun _ _ => ?_) | intro x

theorem State.pendingRate_kept {cmds : List Instr} {s : State} (h : s.Kept cmds) :
    (State.pendingRate s).Kept cmds := by
  delta State.pendingRate
  repeat' first
    | with_reducible assumption | lift_lets -underBinder
      | (intro x; refine State.kept_cut cmds x ?_ fun _ => ?_; rotate_left; clear_value x; rotate_left; subst x)
      | with_reducible apply State.endPending_kept | with_reducible apply State.startRate_kept
      | with_reducible apply State.kept_ite | (intro x; clear_value x) | intro x | split

theorem State.cmdDetSet_kept {cmds : List Instr} {s : State} (h : s.Kept cmds) :
    (State.cmdDetSet s).Kept cmds := by
  delta State.cmdDetSet
  repeat' first
    | with_reducible assumption | lift_lets -underBinder
      | (intro x; refine State.kept_cut cmds x ?_ fun _ => ?_; rotate_left; clear_value x; rotate_left; subst x)
      | with_reducible apply State.modDet_kept | with_reducible apply State.finish_kept
      | with_reducible apply State.checked_kept | with_reducible apply State.holdAdm_kept
      | with_reducible apply State.setRun_kept | with_reducible apply State.beginChange_kept
      | with_reducible apply State.reset_kept | (refine State.Keeps.mk fun _ _ => ?_)
      | with_reducible apply State.kept_ite | (intro x; clear_value x) | intro x | split

theorem execDetSet_kept {cmds : List Instr} {s : State} (h : s.Kept cmds) :
    Res.Ok (State.Kept cmds) (execDetSet s) := by
  delta execDetSet
  repeat' first
    | with_reducible assumption | with_reducible apply Res.ok_next | with_reducible apply State.doorbell_kept
      | with_reducible apply State.cmdDetSet_kept | (refine State.Keeps.mk fun _ _ => ?_) | intro x

/-! ### MbxMem -/

theorem State.flushCheck_kept {cmds : List Instr} {s : State} (h : s.Kept cmds) :
    (State.flushCheck s).Kept cmds := by
  delta State.flushCheck
  repeat' first
    | with_reducible assumption | lift_lets -underBinder
      | (intro x; refine State.kept_cut cmds x ?_ fun _ => ?_; rotate_left; clear_value x; rotate_left; subst x)
      | with_reducible apply State.finish_kept | with_reducible apply State.kept_ite | (intro x; clear_value x)
      | intro x | split

theorem State.cmdAccFlush_kept {cmds : List Instr} {s : State} (h : s.Kept cmds) :
    (State.cmdAccFlush s).Kept cmds := by
  delta State.cmdAccFlush
  repeat' first
    | with_reducible assumption | lift_lets -underBinder
      | (intro x; refine State.kept_cut cmds x ?_ fun _ => ?_; rotate_left; clear_value x; rotate_left; subst x)
      | with_reducible apply State.checked_kept | with_reducible apply State.writeBackAll_kept
      | with_reducible apply State.setRun_kept | with_reducible apply State.flushCheck_kept
      | (refine State.Keeps.mk fun _ _ => ?_) | (intro x; clear_value x) | intro x

theorem execAccFlush_kept {cmds : List Instr} {s : State} (h : s.Kept cmds) :
    Res.Ok (State.Kept cmds) (execAccFlush s) := by
  delta execAccFlush
  repeat' first
    | with_reducible assumption | with_reducible apply Res.ok_next | with_reducible apply State.doorbell_kept
      | with_reducible apply State.cmdAccFlush_kept | (refine State.Keeps.mk fun _ _ => ?_) | intro x

theorem State.cmdReseal_kept {cmds : List Instr} {s : State} (h : s.Kept cmds) :
    (State.cmdReseal s).Kept cmds := by
  delta State.cmdReseal
  repeat' first
    | with_reducible assumption
      | (intro x; refine State.kept_cut cmds x ?_ fun _ => ?_; rotate_left; clear_value x; rotate_left; subst x)
      | with_reducible apply State.checked_kept | with_reducible apply State.resealCheck_kept
      | with_reducible apply State.setRun_kept | (refine State.Keeps.mk fun _ _ => ?_) | intro x

theorem execReseal_kept {cmds : List Instr} {s : State} (h : s.Kept cmds) :
    Res.Ok (State.Kept cmds) (execReseal s) := by
  delta execReseal
  repeat' first
    | with_reducible assumption | with_reducible apply Res.ok_next | with_reducible apply State.doorbell_kept
      | with_reducible apply State.cmdReseal_kept | (refine State.Keeps.mk fun _ _ => ?_) | intro x

theorem State.readNext_kept {cmds : List Instr} {s : State} (h : s.Kept cmds) (r : RunCmd) :
    (State.readNext s r).Kept cmds := by
  delta State.readNext
  repeat' first
    | with_reducible assumption | lift_lets -underBinder
      | (intro x; refine State.kept_cut cmds x ?_ fun _ => ?_; rotate_left; clear_value x; rotate_left; subst x)
      | with_reducible apply State.addWork_kept | with_reducible apply State.finish_kept
      | with_reducible apply State.kept_ite | (intro x; clear_value x) | intro x | split

theorem State.loadProgram_kept {cmds : List Instr} {s : State} (h : s.Kept cmds) (ws : List Nat) :
    (State.loadProgram s ws).Kept cmds := by
  delta State.loadProgram
  repeat' first
    | with_reducible assumption | lift_lets -underBinder
      | (intro x; refine State.kept_cut cmds x ?_ fun _ => ?_; rotate_left; clear_value x; rotate_left; subst x)
      | with_reducible apply State.modFab_kept | with_reducible apply State.newPd_kept
      | with_reducible apply State.finish_kept | with_reducible apply State.kept_ite | (intro x; clear_value x)
      | intro x | split

theorem State.restoreImage_kept {cmds : List Instr} {s : State} (h : s.Kept cmds) (ws : List Nat) :
    (State.restoreImage s ws).Kept cmds := by
  delta State.restoreImage
  repeat' first
    | with_reducible assumption | lift_lets -underBinder
      | (intro x; refine State.kept_cut cmds x ?_ fun _ => ?_; rotate_left; clear_value x; rotate_left; subst x)
      | with_reducible apply State.modMbx_kept | with_reducible apply State.finish_kept
      | with_reducible apply State.startChange_kept | with_reducible apply State.reset_kept
      | with_reducible apply State.kept_ite | (intro x; clear_value x) | intro x | split

theorem State.readGot_kept {cmds : List Instr} {s : State} (h : s.Kept cmds) (r : RunCmd) (e : Entry) :
    (State.readGot s r e).Kept cmds := by
  delta State.readGot
  repeat' first
    | with_reducible assumption | lift_lets -underBinder
      | (intro x; refine State.kept_cut cmds x ?_ fun _ => ?_; rotate_left; clear_value x; rotate_left; subst x)
      | with_reducible apply State.finish_kept | with_reducible apply State.setRun_kept
      | with_reducible apply State.loadProgram_kept | with_reducible apply State.restoreImage_kept
      | with_reducible apply State.kept_ite | (intro x; clear_value x) | intro x | split

theorem State.cmdBrewLoad_kept {cmds : List Instr} {s : State} (h : s.Kept cmds) :
    (State.cmdBrewLoad s).Kept cmds := by
  delta State.cmdBrewLoad
  repeat' first
    | with_reducible assumption | lift_lets -underBinder
      | (intro x; refine State.kept_cut cmds x ?_ fun _ => ?_; rotate_left; clear_value x; rotate_left; subst x)
      | with_reducible apply State.modFab_kept | with_reducible apply State.newPd_kept
      | with_reducible apply State.finish_kept | with_reducible apply State.checked_kept
      | with_reducible apply State.setRun_kept | (refine State.Keeps.mk fun _ _ => ?_)
      | with_reducible apply State.kept_ite | (intro x; clear_value x) | intro x | split

theorem execBrewLoad_kept {cmds : List Instr} {s : State} (h : s.Kept cmds) :
    Res.Ok (State.Kept cmds) (execBrewLoad s) := by
  delta execBrewLoad
  repeat' first
    | with_reducible assumption | with_reducible apply Res.ok_next | with_reducible apply State.doorbell_kept
      | with_reducible apply State.cmdBrewLoad_kept | (refine State.Keeps.mk fun _ _ => ?_) | intro x

theorem State.cmdRestoreContext_kept {cmds : List Instr} {s : State} (h : s.Kept cmds) :
    (State.cmdRestoreContext s).Kept cmds := by
  delta State.cmdRestoreContext
  repeat' first
    | with_reducible assumption
      | (intro x; refine State.kept_cut cmds x ?_ fun _ => ?_; rotate_left; clear_value x; rotate_left; subst x)
      | with_reducible apply State.checked_kept | with_reducible apply State.setRun_kept
      | (refine State.Keeps.mk fun _ _ => ?_) | intro x

theorem execRestoreContext_kept {cmds : List Instr} {s : State} (h : s.Kept cmds) :
    Res.Ok (State.Kept cmds) (execRestoreContext s) := by
  delta execRestoreContext
  repeat' first
    | with_reducible assumption | with_reducible apply Res.ok_next | with_reducible apply State.doorbell_kept
      | with_reducible apply State.cmdRestoreContext_kept | (refine State.Keeps.mk fun _ _ => ?_) | intro x

theorem State.digestDone_kept {cmds : List Instr} {s : State} (h : s.Kept cmds) (r : RunCmd) :
    (State.digestDone s r).Kept cmds := h

theorem State.digestNext_kept {cmds : List Instr} {s : State} (h : s.Kept cmds) (r : RunCmd) :
    (State.digestNext s r).Kept cmds := by
  delta State.digestNext
  repeat' first
    | with_reducible assumption | lift_lets -underBinder
      | (intro x; refine State.kept_cut cmds x ?_ fun _ => ?_; rotate_left; clear_value x; rotate_left; subst x)
      | with_reducible apply State.addWork_kept | with_reducible apply State.finish_kept
      | with_reducible apply State.digestDone_kept | with_reducible apply State.kept_ite | (intro x; clear_value x)
      | intro x | split

theorem State.digestGot_kept {cmds : List Instr} {s : State} (h : s.Kept cmds) (r : RunCmd) (e : Entry) :
    (State.digestGot s r e).Kept cmds := by
  delta State.digestGot
  repeat' first
    | with_reducible assumption | lift_lets -underBinder
      | (intro x; refine State.kept_cut cmds x ?_ fun _ => ?_; rotate_left; clear_value x; rotate_left; subst x)
      | with_reducible apply State.finish_kept | with_reducible apply State.setRun_kept
      | with_reducible apply State.kept_ite | (intro x; clear_value x) | intro x | split

theorem State.cmdDigestRegion_kept {cmds : List Instr} {s : State} (h : s.Kept cmds) :
    (State.cmdDigestRegion s).Kept cmds := by
  delta State.cmdDigestRegion
  repeat' first
    | with_reducible assumption | lift_lets -underBinder
      | (intro x; refine State.kept_cut cmds x ?_ fun _ => ?_; rotate_left; clear_value x; rotate_left; subst x)
      | with_reducible apply State.checked_kept | with_reducible apply State.setRun_kept
      | (refine State.Keeps.mk fun _ _ => ?_) | (intro x; clear_value x) | intro x

theorem execDigestRegion_kept {cmds : List Instr} {s : State} (h : s.Kept cmds) :
    Res.Ok (State.Kept cmds) (execDigestRegion s) := by
  delta execDigestRegion
  repeat' first
    | with_reducible assumption | with_reducible apply Res.ok_next | with_reducible apply State.doorbell_kept
      | with_reducible apply State.cmdDigestRegion_kept | (refine State.Keeps.mk fun _ _ => ?_) | intro x

theorem State.cmdSaveContext_kept {cmds : List Instr} {s : State} (h : s.Kept cmds) :
    (State.cmdSaveContext s).Kept cmds := by
  delta State.cmdSaveContext
  repeat' first
    | with_reducible assumption | lift_lets -underBinder
      | (intro x; refine State.kept_cut cmds x ?_ fun _ => ?_; rotate_left; clear_value x; rotate_left; subst x)
      | with_reducible apply State.checked_kept | with_reducible apply State.holdAdm_kept
      | with_reducible apply State.setRun_kept | (refine State.Keeps.mk fun _ _ => ?_) | (intro x; clear_value x)
      | intro x

theorem execSaveContext_kept {cmds : List Instr} {s : State} (h : s.Kept cmds) :
    Res.Ok (State.Kept cmds) (execSaveContext s) := by
  delta execSaveContext
  repeat' first
    | with_reducible assumption | with_reducible apply Res.ok_next | with_reducible apply State.doorbell_kept
      | with_reducible apply State.cmdSaveContext_kept | (refine State.Keeps.mk fun _ _ => ?_) | intro x

theorem State.saveEnd_kept {cmds : List Instr} {s : State} (h : s.Kept cmds) (err : BitVec 8) (l : List Word) :
    (State.saveEnd s err l).Kept cmds := by
  delta State.saveEnd
  repeat' first
    | with_reducible assumption | with_reducible apply State.finish_kept | with_reducible apply State.freeAdm_kept
      | intro x

theorem execSaveContextDrained_kept {cmds : List Instr} {s : State} (h : s.Kept cmds) :
    Res.Ok (State.Kept cmds) (execSaveContextDrained s) := by
  delta execSaveContextDrained
  repeat' first
    | with_reducible assumption | lift_lets -underBinder | with_reducible apply Res.ok_next
      | (intro x; refine State.kept_cut cmds x ?_ fun _ => ?_; rotate_left; clear_value x; rotate_left; subst x)
      | with_reducible apply State.writeBackAll_kept | with_reducible apply State.setRun_kept
      | with_reducible apply Res.ok_ite | with_reducible apply State.kept_ite | (intro x; clear_value x) | intro x
      | split

theorem execSaveContextTimeout_kept {cmds : List Instr} {s : State} (h : s.Kept cmds) :
    Res.Ok (State.Kept cmds) (execSaveContextTimeout s) := by
  delta execSaveContextTimeout
  repeat' first
    | with_reducible assumption | lift_lets -underBinder | with_reducible apply Res.ok_next
      | (intro x; refine State.kept_cut cmds x ?_ fun _ => ?_; rotate_left; clear_value x; rotate_left; subst x)
      | with_reducible apply State.saveEnd_kept | with_reducible apply Res.ok_ite
      | with_reducible apply State.kept_ite | (intro x; clear_value x) | intro x | split

theorem State.saveNext_kept {cmds : List Instr} {s : State} (h : s.Kept cmds) (r : RunCmd) :
    (State.saveNext s r).Kept cmds := by
  delta State.saveNext
  repeat' first
    | with_reducible assumption | lift_lets -underBinder
      | (intro x; refine State.kept_cut cmds x ?_ fun _ => ?_; rotate_left; clear_value x; rotate_left; subst x)
      | with_reducible apply State.addWork_kept | with_reducible apply State.saveEnd_kept
      | with_reducible apply State.kept_ite | (intro x; clear_value x) | intro x | split

theorem State.saveGot_kept {cmds : List Instr} {s : State} (h : s.Kept cmds) (r : RunCmd) (e : Entry) :
    (State.saveGot s r e).Kept cmds := by
  delta State.saveGot
  repeat' first
    | with_reducible assumption | lift_lets -underBinder
      | (intro x; refine State.kept_cut cmds x ?_ fun _ => ?_; rotate_left; clear_value x; rotate_left; subst x)
      | with_reducible apply State.setRun_kept | with_reducible apply State.saveEnd_kept
      | with_reducible apply State.kept_ite | (intro x; clear_value x) | intro x | split

theorem State.memStep_kept {cmds : List Instr} {s : State} {got : State → Entry → State} {next : State → State} (h : s.Kept cmds)
    (hg : ∀ e, State.Keeps cmds fun s => got s e) (hn : State.Keeps cmds next) : (State.memStep s got next).Kept cmds := by
  delta State.memStep
  split
  · exact State.kept_ite (hg _ _ (State.freeEntry_kept h _)) h
  · exact hn _ h

theorem State.memWork_kept {cmds : List Instr} {s : State} (h : s.Kept cmds) :
    (State.memWork s).Kept cmds := by
  delta State.memWork
  repeat' first
    | with_reducible assumption | lift_lets -underBinder
      | (intro x; refine State.kept_cut cmds x ?_ fun _ => ?_; rotate_left; clear_value x; rotate_left; subst x)
      | with_reducible apply State.resealCheck_kept | with_reducible apply State.flushCheck_kept
      | with_reducible apply State.readNext_kept | with_reducible apply State.readGot_kept
      | with_reducible apply State.digestNext_kept | with_reducible apply State.digestGot_kept
      | with_reducible apply State.saveNext_kept | with_reducible apply State.saveGot_kept
      | with_reducible apply State.memStep_kept | (refine State.Keeps.mk fun _ _ => ?_)
      | with_reducible apply State.kept_ite | (intro x; clear_value x) | intro x | split

/-! ### Frost -/

theorem State.cmdFrostEnter_kept {cmds : List Instr} {s : State} (h : s.Kept cmds) :
    (State.cmdFrostEnter s).Kept cmds := by
  delta State.cmdFrostEnter
  repeat' first
    | with_reducible assumption | lift_lets -underBinder
      | (intro x; refine State.kept_cut cmds x ?_ fun _ => ?_; rotate_left; clear_value x; rotate_left; subst x)
      | with_reducible apply State.modSys_kept | with_reducible apply State.each_kept
      | with_reducible apply State.checked_kept | with_reducible apply State.holdAdm_kept
      | with_reducible apply State.calYield_kept | with_reducible apply State.setRun_kept
      | (refine State.Keeps.mk fun _ _ => ?_) | (intro x; clear_value x) | intro x

theorem execFrostEnter_kept {cmds : List Instr} {s : State} (h : s.Kept cmds) :
    Res.Ok (State.Kept cmds) (execFrostEnter s) := by
  delta execFrostEnter
  repeat' first
    | with_reducible assumption | with_reducible apply Res.ok_next | with_reducible apply State.doorbell_kept
      | with_reducible apply State.cmdFrostEnter_kept | (refine State.Keeps.mk fun _ _ => ?_) | intro x

theorem State.drainAll_kept {cmds : List Instr} {s : State} (h : s.Kept cmds) (p : Nat) :
    (State.drainAll s p).Kept cmds := by
  delta State.drainAll
  repeat' first
    | with_reducible assumption | lift_lets -underBinder
      | (intro x; refine State.kept_cut cmds x ?_ fun _ => ?_; rotate_left; clear_value x; rotate_left; subst x)
      | with_reducible apply State.modDat_kept | with_reducible apply State.each_kept
      | with_reducible apply State.corrEnter_kept | with_reducible apply State.drainLines_kept
      | with_reducible apply State.drainWrites_kept | (refine State.Keeps.mk fun _ _ => ?_) | (intro x; clear_value x)
      | intro x

theorem State.sleepSlice_kept {cmds : List Instr} {s : State} (h : s.Kept cmds) (p : Nat) :
    (State.sleepSlice s p).Kept cmds := by
  delta State.sleepSlice
  repeat' first
    | with_reducible assumption | lift_lets -underBinder
      | (intro x; refine State.kept_cut cmds x ?_ fun _ => ?_; rotate_left; clear_value x; rotate_left; subst x)
      | with_reducible apply State.modLink_kept | with_reducible apply State.modRf_kept
      | with_reducible apply State.sre_kept | (intro x; clear_value x) | intro x

theorem State.powerPhys_kept {cmds : List Instr} {s : State} (h : s.Kept cmds) (on : Bool) :
    (State.powerPhys s on).Kept cmds := by
  delta State.powerPhys
  repeat' first
    | with_reducible assumption | lift_lets -underBinder
      | (intro x; refine State.kept_cut cmds x ?_ fun _ => ?_; rotate_left; clear_value x; rotate_left; subst x)
      | with_reducible apply State.modLink_kept | with_reducible apply State.each_kept
      | (refine State.Keeps.mk fun _ _ => ?_) | (intro x; clear_value x) | intro x

theorem execFrostDrained_kept {cmds : List Instr} {s : State} (h : s.Kept cmds) :
    Res.Ok (State.Kept cmds) (execFrostDrained s) := by
  delta execFrostDrained
  repeat' first
    | with_reducible assumption | lift_lets -underBinder | with_reducible apply Res.ok_next
      | (intro x; refine State.kept_cut cmds x ?_ fun _ => ?_; rotate_left; clear_value x; rotate_left; subst x)
      | with_reducible apply State.modSys_kept | with_reducible apply State.each_kept
      | with_reducible apply State.detBreak_kept | with_reducible apply State.finish_kept
      | with_reducible apply State.startThaw_kept | with_reducible apply State.phase_kept
      | with_reducible apply State.marchDrop_kept | with_reducible apply State.writeBackAll_kept
      | with_reducible apply State.drainAll_kept | with_reducible apply State.sleepSlice_kept
      | with_reducible apply State.powerPhys_kept | (refine State.Keeps.mk fun _ _ => ?_)
      | with_reducible apply Res.ok_ite | with_reducible apply State.kept_ite | (intro x; clear_value x) | intro x
      | split

theorem execFrostEnterTimeout_kept {cmds : List Instr} {s : State} (h : s.Kept cmds) :
    Res.Ok (State.Kept cmds) (execFrostEnterTimeout s) := by
  delta execFrostEnterTimeout
  repeat' first
    | with_reducible assumption | lift_lets -underBinder | with_reducible apply Res.ok_next
      | (intro x; refine State.kept_cut cmds x ?_ fun _ => ?_; rotate_left; clear_value x; rotate_left; subst x)
      | with_reducible apply State.modSys_kept | with_reducible apply State.finish_kept
      | with_reducible apply State.freeAdm_kept | with_reducible apply Res.ok_ite
      | with_reducible apply State.kept_ite | (intro x; clear_value x) | intro x | split

theorem execKxWake_kept {cmds : List Instr} {s : State} (h : s.Kept cmds) (level : Bool) :
    Res.Ok (State.Kept cmds) (execKxWake level s) := by
  delta execKxWake
  repeat' first
    | with_reducible assumption | lift_lets -underBinder | with_reducible apply Res.ok_next
      | (intro x; refine State.kept_cut cmds x ?_ fun _ => ?_; rotate_left; clear_value x; rotate_left; subst x)
      | with_reducible apply State.modSys_kept | with_reducible apply State.startThaw_kept
      | with_reducible apply State.phase_kept | with_reducible apply Res.ok_ite | with_reducible apply State.kept_ite
      | (intro x; clear_value x) | intro x | split

theorem State.thawTrims_kept {cmds : List Instr} {s : State} (h : s.Kept cmds) (p : Nat) :
    (State.thawTrims s p).Kept cmds := by
  delta State.thawTrims
  repeat' first
    | with_reducible assumption | lift_lets -underBinder
      | (intro x; refine State.kept_cut cmds x ?_ fun _ => ?_; rotate_left; clear_value x; rotate_left; subst x)
      | with_reducible apply State.modLink_kept | with_reducible apply State.takeTrims_kept | (intro x; clear_value x)
      | intro x

theorem State.thawSlice_kept {cmds : List Instr} {s : State} (h : s.Kept cmds) (p : Nat) :
    (State.thawSlice s p).Kept cmds := by
  delta State.thawSlice
  repeat' first
    | with_reducible assumption | lift_lets -underBinder
      | (intro x; refine State.kept_cut cmds x ?_ fun _ => ?_; rotate_left; clear_value x; rotate_left; subst x)
      | with_reducible apply State.modLink_kept | with_reducible apply State.sendRow_kept
      | with_reducible apply State.modBt_kept | with_reducible apply State.srxRefresh_kept | (intro x; clear_value x)
      | intro x

theorem execThawRelease_kept {cmds : List Instr} {s : State} (h : s.Kept cmds) :
    Res.Ok (State.Kept cmds) (execThawRelease s) := by
  delta execThawRelease
  repeat' first
    | with_reducible assumption | lift_lets -underBinder | with_reducible apply Res.ok_next
      | (intro x; refine State.kept_cut cmds x ?_ fun _ => ?_; rotate_left; clear_value x; rotate_left; subst x)
      | with_reducible apply State.modMbx_kept | with_reducible apply State.modSys_kept
      | with_reducible apply State.each_kept | with_reducible apply State.noteWord_kept
      | with_reducible apply State.phase_kept | with_reducible apply State.powerPhys_kept
      | with_reducible apply State.thawTrims_kept | with_reducible apply State.thawSlice_kept
      | (refine State.Keeps.mk fun _ _ => ?_) | with_reducible apply Res.ok_ite | with_reducible apply State.kept_ite
      | (intro x; clear_value x) | intro x | split

/-! ### Align -/

theorem execAlignArmed_kept {cmds : List Instr} {s : State} (h : s.Kept cmds) :
    Res.Ok (State.Kept cmds) (execAlignArmed s) := by
  delta execAlignArmed
  repeat' first
    | with_reducible assumption | lift_lets -underBinder | with_reducible apply Res.ok_next
      | (intro x; refine State.kept_cut cmds x ?_ fun _ => ?_; rotate_left; clear_value x; rotate_left; subst x)
      | with_reducible apply State.modDet_kept | with_reducible apply State.each_kept
      | with_reducible apply State.emptyIcqs_kept | with_reducible apply State.writeBackAll_kept
      | with_reducible apply State.dropScales_kept | with_reducible apply State.drainAll_kept
      | with_reducible apply State.sleepSlice_kept | with_reducible apply State.reset_kept
      | (refine State.Keeps.mk fun _ _ => ?_) | with_reducible apply Res.ok_ite | with_reducible apply State.kept_ite
      | (intro x; clear_value x) | intro x | (refine State.Kept.of ?_ ?_ ?_ ?_ ?_ ?_ <;> dsimp only)
      | with_reducible apply Tab.mapVals_wf | with_reducible apply State.Kept.mem
      | with_reducible apply State.Kept.ports | with_reducible apply State.Kept.slices
      | with_reducible apply State.Kept.tlm | with_reducible apply State.Kept.recs
      | with_reducible apply State.Kept.queue | split

theorem State.alignFree_kept {cmds : List Instr} {s : State} (h : s.Kept cmds) :
    (State.alignFree s).Kept cmds := h

theorem execDetSetDrainTimeout_kept {cmds : List Instr} {s : State} (h : s.Kept cmds) :
    Res.Ok (State.Kept cmds) (execDetSetDrainTimeout s) := by
  delta execDetSetDrainTimeout
  repeat' first
    | with_reducible assumption | with_reducible apply Res.ok_next | with_reducible apply State.finish_kept
      | with_reducible apply State.alignFree_kept | with_reducible apply Res.ok_ite
      | with_reducible apply State.kept_ite | intro x | split

theorem execAlignA0_kept {cmds : List Instr} {s : State} (h : s.Kept cmds) :
    Res.Ok (State.Kept cmds) (execAlignA0 s) := by
  delta execAlignA0
  repeat' first
    | with_reducible assumption | lift_lets -underBinder | with_reducible apply Res.ok_next
      | (intro x; refine State.kept_cut cmds x ?_ fun _ => ?_; rotate_left; clear_value x; rotate_left; subst x)
      | with_reducible apply State.modDet_kept | with_reducible apply Res.ok_ite | with_reducible apply State.kept_ite
      | (intro x; clear_value x) | intro x | split

theorem State.alignSlice_kept {cmds : List Instr} {s : State} (h : s.Kept cmds) (p : Nat) :
    (State.alignSlice s p).Kept cmds := by
  delta State.alignSlice
  repeat' first
    | with_reducible assumption | lift_lets -underBinder
      | (intro x; refine State.kept_cut cmds x ?_ fun _ => ?_; rotate_left; clear_value x; rotate_left; subst x)
      | with_reducible apply State.modSlice_kept | with_reducible apply State.sendRow_kept
      | with_reducible apply State.startAccs_kept | with_reducible apply State.newScrub_kept
      | with_reducible apply State.kept_ite | (intro x; clear_value x) | intro x | split

theorem State.alignRun_kept {cmds : List Instr} {s : State} (h : s.Kept cmds) :
    (State.alignRun s).Kept cmds := by
  delta State.alignRun
  repeat' first
    | with_reducible assumption | with_reducible apply State.each_kept | with_reducible apply State.initMeters_kept
      | with_reducible apply State.takeLines_kept | with_reducible apply State.alignSlice_kept
      | (refine State.Keeps.mk fun _ _ => ?_) | intro x

theorem State.alignEnd_kept {cmds : List Instr} {s : State} (h : s.Kept cmds) (err : BitVec 8) (l : List Word) :
    (State.alignEnd s err l).Kept cmds := by
  delta State.alignEnd
  repeat' first
    | with_reducible assumption | with_reducible apply State.finish_kept | with_reducible apply State.openUp_kept
      | with_reducible apply State.alignFree_kept | with_reducible apply State.kept_ite | intro x | split

theorem State.unitMode_kept {cmds : List Instr} {s : State} (h : s.Kept cmds) (n : Nat) (m : DetMode) :
    (State.unitMode s n m).Kept cmds := by
  delta State.unitMode
  repeat' first
    | with_reducible assumption | lift_lets -underBinder
      | (intro x; refine State.kept_cut cmds x ?_ fun _ => ?_; rotate_left; clear_value x; rotate_left; subst x)
      | with_reducible apply State.each_kept | with_reducible apply State.statSlice_kept
      | with_reducible apply State.settleBands_kept | (refine State.Keeps.mk fun _ _ => ?_)
      | with_reducible apply State.kept_ite | (intro x; clear_value x) | intro x
      | (refine State.Kept.of ?_ ?_ ?_ ?_ ?_ ?_ <;> dsimp only) | with_reducible apply State.Kept.mem
      | with_reducible apply State.Kept.ports | with_reducible apply State.Kept.slices
      | with_reducible apply State.Kept.tlm | with_reducible apply State.Kept.recs
      | with_reducible apply State.Kept.queue | split

theorem execAlignAr_kept {cmds : List Instr} {s : State} (h : s.Kept cmds) :
    Res.Ok (State.Kept cmds) (execAlignAr s) := by
  delta execAlignAr
  repeat' first
    | with_reducible assumption | lift_lets -underBinder | with_reducible apply Res.ok_next
      | (intro x; refine State.kept_cut cmds x ?_ fun _ => ?_; rotate_left; clear_value x; rotate_left; subst x)
      | with_reducible apply State.modSys_kept | with_reducible apply State.modDet_kept
      | with_reducible apply State.event_kept | with_reducible apply State.alignRun_kept
      | with_reducible apply State.alignEnd_kept | with_reducible apply State.unitMode_kept
      | with_reducible apply State.reset_kept | with_reducible apply State.foldl_kept
      | with_reducible apply List.foldl_kept | with_reducible apply Res.ok_ite | with_reducible apply State.kept_ite
      | (intro x; clear_value x) | intro x | (refine State.Kept.of ?_ ?_ ?_ ?_ ?_ ?_ <;> dsimp only)
      | with_reducible apply Tab.foldl_wf | with_reducible apply Tab.upd_wf | with_reducible apply State.Kept.mem
      | with_reducible apply State.Kept.ports | with_reducible apply State.Kept.slices
      | with_reducible apply State.Kept.tlm | with_reducible apply State.Kept.recs
      | with_reducible apply State.Kept.queue | split

theorem execAlignTimeout_kept {cmds : List Instr} {s : State} (h : s.Kept cmds) :
    Res.Ok (State.Kept cmds) (execAlignTimeout s) := by
  delta execAlignTimeout
  repeat' first
    | with_reducible assumption | lift_lets -underBinder | with_reducible apply Res.ok_next
      | (intro x; refine State.kept_cut cmds x ?_ fun _ => ?_; rotate_left; clear_value x; rotate_left; subst x)
      | with_reducible apply State.event_kept | with_reducible apply State.alignRun_kept
      | with_reducible apply State.alignEnd_kept | with_reducible apply State.unitMode_kept
      | with_reducible apply Res.ok_ite | with_reducible apply State.kept_ite | (intro x; clear_value x) | intro x
      | split

/-! ### Control -/

theorem State.writeReg_kept {cmds : List Instr} {s : State} (h : s.Kept cmds) (off : Nat) (v : Word) :
    (State.writeReg s off v).Kept cmds := by
  delta State.writeReg
  repeat' first
    | with_reducible assumption | lift_lets -underBinder
      | (intro x; refine State.kept_cut cmds x ?_ fun _ => ?_; rotate_left; clear_value x; rotate_left; subst x)
      | (intro c hc; exact hc) | with_reducible apply State.modMbx_kept | with_reducible apply State.modCtl_kept
      | with_reducible apply State.kept_ite | (intro x; clear_value x) | intro x
      | (refine State.Kept.of ?_ ?_ ?_ ?_ ?_ ?_ <;> dsimp only) | with_reducible apply Tab.set_wf
      | with_reducible apply State.Kept.mem | with_reducible apply State.Kept.ports
      | with_reducible apply State.Kept.slices | with_reducible apply State.Kept.tlm
      | with_reducible apply State.Kept.recs | with_reducible apply State.Kept.queue | split | dsimp only

theorem execRegWrite_kept {cmds : List Instr} {s : State} (h : s.Kept cmds) (off : BitVec 16) (v : BitVec 32) :
    Res.Ok (State.Kept cmds) (execRegWrite off v s) := by
  delta execRegWrite
  repeat' first
    | with_reducible assumption | with_reducible apply Res.ok_next | with_reducible apply State.writeReg_kept
      | with_reducible apply Res.ok_ite | with_reducible apply State.kept_ite | intro x | split

theorem execLtcLoRead_kept {cmds : List Instr} {s : State} (h : s.Kept cmds) :
    Res.Ok (State.Kept cmds) (execLtcLoRead s) := by
  delta execLtcLoRead
  repeat' first
    | with_reducible assumption | lift_lets -underBinder | with_reducible apply Res.ok_next
      | (intro x; refine State.kept_cut cmds x ?_ fun _ => ?_; rotate_left; clear_value x; rotate_left; subst x)
      | (intro c hc; exact hc) | with_reducible apply State.modCtl_kept | with_reducible apply Res.ok_ite
      | with_reducible apply State.kept_ite | (intro x; clear_value x) | intro x | split | dsimp only

theorem execTlmWord0Read_kept {cmds : List Instr} {s : State} (h : s.Kept cmds) (slot : Fin 128) :
    Res.Ok (State.Kept cmds) (execTlmWord0Read slot s) := by
  delta execTlmWord0Read
  repeat' first
    | with_reducible assumption | lift_lets -underBinder | with_reducible apply Res.ok_next
      | (intro x; refine State.kept_cut cmds x ?_ fun _ => ?_; rotate_left; clear_value x; rotate_left; subst x)
      | (intro c hc; exact hc) | with_reducible apply State.modCtl_kept | with_reducible apply Res.ok_ite
      | with_reducible apply State.kept_ite | (intro x; clear_value x) | intro x | split | dsimp only

theorem execEvtLogNext_kept {cmds : List Instr} {s : State} (h : s.Kept cmds) :
    Res.Ok (State.Kept cmds) (execEvtLogNext s) := by
  delta execEvtLogNext
  repeat' first
    | with_reducible assumption | lift_lets -underBinder | with_reducible apply Res.ok_next
      | (intro x; refine State.kept_cut cmds x ?_ fun _ => ?_; rotate_left; clear_value x; rotate_left; subst x)
      | with_reducible apply State.resetQueue_kept | with_reducible apply Res.ok_ite
      | with_reducible apply State.kept_ite | (intro x; clear_value x) | intro x
      | (refine State.Kept.of ?_ ?_ ?_ ?_ ?_ ?_ <;> dsimp only) | with_reducible apply State.Kept.mem
      | with_reducible apply State.Kept.ports | with_reducible apply State.Kept.slices
      | with_reducible apply State.Kept.tlm | with_reducible apply State.Kept.recs
      | with_reducible apply State.Kept.queue | split

theorem execEvtLogRewind_kept {cmds : List Instr} {s : State} (h : s.Kept cmds) :
    Res.Ok (State.Kept cmds) (execEvtLogRewind s) := by
  delta execEvtLogRewind
  repeat' first
    | with_reducible assumption | lift_lets -underBinder | with_reducible apply Res.ok_next
      | (intro x; refine State.kept_cut cmds x ?_ fun _ => ?_; rotate_left; clear_value x; rotate_left; subst x)
      | with_reducible apply Res.ok_ite | with_reducible apply State.kept_ite | (intro x; clear_value x) | intro x
      | (refine State.Kept.of ?_ ?_ ?_ ?_ ?_ ?_ <;> dsimp only) | with_reducible apply State.Kept.mem
      | with_reducible apply State.Kept.ports | with_reducible apply State.Kept.slices
      | with_reducible apply State.Kept.tlm | with_reducible apply State.Kept.recs
      | with_reducible apply State.Kept.queue | split

theorem execEvtLogAck_kept {cmds : List Instr} {s : State} (h : s.Kept cmds) : Res.Ok (State.Kept cmds) (execEvtLogAck s) := by
  have hl : (s.evt.recs.drop s.evt.rd).length ≤ 256 := by
    have := h.recs
    simp only [List.length_drop]
    omega
  have hd : ∀ (e : Evt), e.recs.length ≤ 256 → ({ s with evt := e } : State).Kept cmds := fun _ he =>
    .of h.mem h.ports h.slices h.tlm he h.queue
  refine Res.ok_next (State.kept_ite h (State.kept_ite (State.event_kept (hd _ hl) ..) (hd _ hl)))

theorem execEvtIrqClear_kept {cmds : List Instr} {s : State} (h : s.Kept cmds) (mask : BitVec 32) :
    Res.Ok (State.Kept cmds) (execEvtIrqClear mask s) := by
  delta execEvtIrqClear
  repeat' first
    | with_reducible assumption | lift_lets -underBinder | with_reducible apply Res.ok_next
      | (intro x; refine State.kept_cut cmds x ?_ fun _ => ?_; rotate_left; clear_value x; rotate_left; subst x)
      | with_reducible apply State.modMbx_kept | with_reducible apply Res.ok_ite | with_reducible apply State.kept_ite
      | (intro x; clear_value x) | intro x | split

/-! ### RingOps -/

theorem State.bypassClose_kept {cmds : List Instr} {s : State} (h : s.Kept cmds) :
    (State.bypassClose s).Kept cmds := by
  delta State.bypassClose
  repeat' first
    | with_reducible assumption | lift_lets -underBinder
      | (intro x; refine State.kept_cut cmds x ?_ fun _ => ?_; rotate_left; clear_value x; rotate_left; subst x)
      | with_reducible apply State.modRing_kept | with_reducible apply State.kept_ite | (intro x; clear_value x)
      | intro x | split

theorem execKxInstPwrokChange_kept {cmds : List Instr} {s : State} (h : s.Kept cmds) (ok : Bool) :
    Res.Ok (State.Kept cmds) (execKxInstPwrokChange ok s) := by
  delta execKxInstPwrokChange
  repeat' first
    | with_reducible assumption | lift_lets -underBinder | with_reducible apply Res.ok_next
      | (intro x; refine State.kept_cut cmds x ?_ fun _ => ?_; rotate_left; clear_value x; rotate_left; subst x)
      | with_reducible apply State.modRing_kept | with_reducible apply State.bypassClose_kept
      | (intro x; clear_value x) | intro x

theorem execKxAonRstN_kept {cmds : List Instr} {s : State} (h : s.Kept cmds) (level : Bool) :
    Res.Ok (State.Kept cmds) (execKxAonRstN level s) := by
  delta execKxAonRstN
  repeat' first
    | with_reducible assumption | lift_lets -underBinder | with_reducible apply Res.ok_next
      | (intro x; refine State.kept_cut cmds x ?_ fun _ => ?_; rotate_left; clear_value x; rotate_left; subst x)
      | with_reducible apply State.modRing_kept | with_reducible apply State.ringDrive_kept
      | with_reducible apply State.bypassClose_kept | with_reducible apply Res.ok_ite
      | with_reducible apply State.kept_ite | (intro x; clear_value x) | intro x | split

theorem execRingBypassOpen_kept {cmds : List Instr} {s : State} (h : s.Kept cmds) :
    Res.Ok (State.Kept cmds) (execRingBypassOpen s) := by
  delta execRingBypassOpen
  repeat' first
    | with_reducible assumption | lift_lets -underBinder | with_reducible apply Res.ok_next
      | (intro x; refine State.kept_cut cmds x ?_ fun _ => ?_; rotate_left; clear_value x; rotate_left; subst x)
      | with_reducible apply State.modRing_kept | with_reducible apply State.sendAnnounce_kept
      | with_reducible apply Res.ok_ite | with_reducible apply State.kept_ite | (intro x; clear_value x) | intro x
      | split

theorem execAnnounceTimer_kept {cmds : List Instr} {s : State} (h : s.Kept cmds) :
    Res.Ok (State.Kept cmds) (execAnnounceTimer s) := by
  delta execAnnounceTimer
  repeat' first
    | with_reducible assumption | with_reducible apply Res.ok_next | with_reducible apply State.sendAnnounce_kept
      | with_reducible apply Res.ok_ite | with_reducible apply State.kept_ite | intro x | split

theorem execAnnounce_kept {cmds : List Instr} {s : State} (h : s.Kept cmds) (src : Fin 8) (cfg : BitVec 16) (agg : BitVec 16) (psum : BitVec 16) :
    Res.Ok (State.Kept cmds) (execAnnounce src cfg agg psum s) := by
  delta execAnnounce
  repeat' first
    | with_reducible assumption | with_reducible apply Res.ok_next
      | (intro x; refine State.kept_cut cmds x ?_ fun _ => ?_; rotate_left; clear_value x; rotate_left; subst x)
      | with_reducible apply State.setMember_kept | with_reducible apply State.onBroadcast_kept
      | (refine State.Keeps.mk fun _ _ => ?_) | intro x

theorem execMemberExpiry_kept {cmds : List Instr} {s : State} (h : s.Kept cmds) (m : Fin 8) :
    Res.Ok (State.Kept cmds) (execMemberExpiry m s) := by
  delta execMemberExpiry
  repeat' first
    | with_reducible assumption | lift_lets -underBinder | with_reducible apply Res.ok_next
      | (intro x; refine State.kept_cut cmds x ?_ fun _ => ?_; rotate_left; clear_value x; rotate_left; subst x)
      | with_reducible apply State.setMember_kept | with_reducible apply Res.ok_ite
      | with_reducible apply State.kept_ite | (intro x; clear_value x) | intro x | split

theorem execBudget_kept {cmds : List Instr} {s : State} (h : s.Kept cmds) (src : Fin 8) (w : BitVec 16) :
    Res.Ok (State.Kept cmds) (execBudget src w s) := by
  delta execBudget
  repeat' first
    | with_reducible assumption | lift_lets -underBinder | with_reducible apply Res.ok_next
      | (intro x; refine State.kept_cut cmds x ?_ fun _ => ?_; rotate_left; clear_value x; rotate_left; subst x)
      | with_reducible apply State.modStk_kept | with_reducible apply State.onUnicast_kept
      | with_reducible apply State.sendLayerBudgets_kept | (refine State.Keeps.mk fun _ _ => ?_)
      | with_reducible apply Res.ok_ite | with_reducible apply State.kept_ite | (intro x; clear_value x) | intro x
      | split

theorem execBudgetTimer_kept {cmds : List Instr} {s : State} (h : s.Kept cmds) :
    Res.Ok (State.Kept cmds) (execBudgetTimer s) := by
  delta execBudgetTimer
  repeat' first
    | with_reducible assumption | with_reducible apply Res.ok_next | with_reducible apply State.renewBudgets_kept
      | with_reducible apply Res.ok_ite | with_reducible apply State.kept_ite | intro x | split

theorem execRingFramePass_kept {cmds : List Instr} {s : State} (h : s.Kept cmds) (f : List (BitVec 16)) :
    Res.Ok (State.Kept cmds) (execRingFramePass f s) := by
  delta execRingFramePass
  repeat' first
    | with_reducible assumption | lift_lets -underBinder | with_reducible apply Res.ok_next
      | (intro x; refine State.kept_cut cmds x ?_ fun _ => ?_; rotate_left; clear_value x; rotate_left; subst x)
      | with_reducible apply State.ringDrive_kept | with_reducible apply Res.ok_ite
      | with_reducible apply State.kept_ite | (intro x; clear_value x) | intro x | split

/-! ### Gang -/

theorem State.sendAck_kept {cmds : List Instr} {s : State} (h : s.Kept cmds) (g : Gang) (err : BitVec 8) :
    (State.sendAck s g err).Kept cmds := by
  delta State.sendAck
  repeat' first
    | with_reducible assumption | with_reducible apply State.ringSend_kept | intro x

theorem State.gangAck_kept {cmds : List Instr} {s : State} (h : s.Kept cmds) :
    (State.gangAck s).Kept cmds := by
  delta State.gangAck
  repeat' first
    | with_reducible assumption | lift_lets -underBinder
      | (intro x; refine State.kept_cut cmds x ?_ fun _ => ?_; rotate_left; clear_value x; rotate_left; subst x)
      | with_reducible apply State.sendAck_kept | with_reducible apply State.kept_ite | (intro x; clear_value x)
      | intro x | (refine State.Kept.of ?_ ?_ ?_ ?_ ?_ ?_ <;> dsimp only) | with_reducible apply State.Kept.mem
      | with_reducible apply State.Kept.ports | with_reducible apply State.Kept.slices
      | with_reducible apply State.Kept.tlm | with_reducible apply State.Kept.recs
      | with_reducible apply State.Kept.queue | split

theorem State.takePrepare_kept {cmds : List Instr} {s : State} (h : s.Kept cmds) (g : Gang) (busy : Bool) :
    (State.takePrepare s g busy).Kept cmds := by
  delta State.takePrepare
  repeat' first
    | with_reducible assumption | lift_lets -underBinder
      | (intro x; refine State.kept_cut cmds x ?_ fun _ => ?_; rotate_left; clear_value x; rotate_left; subst x)
      | with_reducible apply State.modRing_kept | with_reducible apply State.startChange_kept
      | with_reducible apply State.sendAck_kept | with_reducible apply State.gangAck_kept
      | with_reducible apply State.kept_ite | (intro x; clear_value x) | intro x | split

theorem State.heldPrepare_kept {cmds : List Instr} {s : State} (h : s.Kept cmds) :
    (State.heldPrepare s).Kept cmds := by
  delta State.heldPrepare
  repeat' first
    | with_reducible assumption | lift_lets -underBinder
      | (intro x; refine State.kept_cut cmds x ?_ fun _ => ?_; rotate_left; clear_value x; rotate_left; subst x)
      | with_reducible apply State.phase_kept | with_reducible apply State.takePrepare_kept
      | with_reducible apply State.kept_ite | (intro x; clear_value x) | intro x | split

theorem execImage_kept {cmds : List Instr} {s : State} (h : s.Kept cmds) (src : Fin 8) (chunk : BitVec 16) (data : BitVec 512) :
    Res.Ok (State.Kept cmds) (execImage src chunk data s) := by
  delta execImage
  repeat' first
    | with_reducible assumption | lift_lets -underBinder | with_reducible apply Res.ok_next
      | (intro x; refine State.kept_cut cmds x ?_ fun _ => ?_; rotate_left; clear_value x; rotate_left; subst x)
      | with_reducible apply State.modRing_kept | with_reducible apply State.onBroadcast_kept
      | (refine State.Keeps.mk fun _ _ => ?_) | with_reducible apply Res.ok_ite | with_reducible apply State.kept_ite
      | (intro x; clear_value x) | intro x | split

theorem execPrepare_kept {cmds : List Instr} {s : State} (h : s.Kept cmds) (src : Fin 8) (xid : BitVec 16) (op : BitVec 8) (arg : BitVec 32) (crc : BitVec 32) :
    Res.Ok (State.Kept cmds) (execPrepare src xid op arg crc s) := by
  delta execPrepare
  repeat' first
    | with_reducible assumption | lift_lets -underBinder | with_reducible apply Res.ok_next
      | (intro x; refine State.kept_cut cmds x ?_ fun _ => ?_; rotate_left; clear_value x; rotate_left; subst x)
      | with_reducible apply State.modRing_kept | with_reducible apply State.onBroadcast_kept
      | with_reducible apply State.startThaw_kept | with_reducible apply State.phase_kept
      | with_reducible apply State.takePrepare_kept | (refine State.Keeps.mk fun _ _ => ?_)
      | with_reducible apply Res.ok_ite | with_reducible apply State.kept_ite | (intro x; clear_value x) | intro x
      | split

theorem execCommit_kept {cmds : List Instr} {s : State} (h : s.Kept cmds) (src : Fin 8) (xid : BitVec 16) :
    Res.Ok (State.Kept cmds) (execCommit src xid s) := by
  delta execCommit
  repeat' first
    | with_reducible assumption | lift_lets -underBinder | with_reducible apply Res.ok_next
      | (intro x; refine State.kept_cut cmds x ?_ fun _ => ?_; rotate_left; clear_value x; rotate_left; subst x)
      | with_reducible apply State.onBroadcast_kept | (refine State.Keeps.mk fun _ _ => ?_)
      | with_reducible apply Res.ok_ite | with_reducible apply State.kept_ite | (intro x; clear_value x) | intro x
      | (refine State.Kept.of ?_ ?_ ?_ ?_ ?_ ?_ <;> dsimp only) | with_reducible apply State.Kept.mem
      | with_reducible apply State.Kept.ports | with_reducible apply State.Kept.slices
      | with_reducible apply State.Kept.tlm | with_reducible apply State.Kept.recs
      | with_reducible apply State.Kept.queue | split

theorem execAbort_kept {cmds : List Instr} {s : State} (h : s.Kept cmds) (src : Fin 8) (xid : BitVec 16) :
    Res.Ok (State.Kept cmds) (execAbort src xid s) := by
  delta execAbort
  repeat' first
    | with_reducible assumption | lift_lets -underBinder | with_reducible apply Res.ok_next
      | (intro x; refine State.kept_cut cmds x ?_ fun _ => ?_; rotate_left; clear_value x; rotate_left; subst x)
      | with_reducible apply State.modRing_kept | with_reducible apply State.onBroadcast_kept
      | with_reducible apply State.abortChange_kept | (refine State.Keeps.mk fun _ _ => ?_)
      | with_reducible apply Res.ok_ite | with_reducible apply State.kept_ite | (intro x; clear_value x) | intro x
      | split

theorem execAck_kept {cmds : List Instr} {s : State} (h : s.Kept cmds) (src : Fin 8) (xid : BitVec 16) (err : BitVec 8) :
    Res.Ok (State.Kept cmds) (execAck src xid err s) := by
  delta execAck
  repeat' first
    | with_reducible assumption | lift_lets -underBinder | with_reducible apply Res.ok_next
      | (intro x; refine State.kept_cut cmds x ?_ fun _ => ?_; rotate_left; clear_value x; rotate_left; subst x)
      | with_reducible apply State.onUnicast_kept | with_reducible apply State.gangGo_kept
      | with_reducible apply State.abortChange_kept | (refine State.Keeps.mk fun _ _ => ?_)
      | with_reducible apply Res.ok_ite | with_reducible apply State.kept_ite | (intro x; clear_value x) | intro x
      | (refine State.Kept.of ?_ ?_ ?_ ?_ ?_ ?_ <;> dsimp only) | with_reducible apply State.Kept.mem
      | with_reducible apply State.Kept.ports | with_reducible apply State.Kept.slices
      | with_reducible apply State.Kept.tlm | with_reducible apply State.Kept.recs
      | with_reducible apply State.Kept.queue | split

theorem execGangPrepareTimeout_kept {cmds : List Instr} {s : State} (h : s.Kept cmds) :
    Res.Ok (State.Kept cmds) (execGangPrepareTimeout s) := by
  delta execGangPrepareTimeout
  repeat' first
    | with_reducible assumption | lift_lets -underBinder | with_reducible apply Res.ok_next
      | (intro x; refine State.kept_cut cmds x ?_ fun _ => ?_; rotate_left; clear_value x; rotate_left; subst x)
      | with_reducible apply State.abortChange_kept | with_reducible apply Res.ok_ite
      | with_reducible apply State.kept_ite | (intro x; clear_value x) | intro x | split

theorem execDigest_kept {cmds : List Instr} {s : State} (h : s.Kept cmds) (src : Fin 8) (stream : Fin 16) (n : BitVec 32) (d : BitVec 256) :
    Res.Ok (State.Kept cmds) (execDigest src stream n d s) := by
  delta execDigest
  repeat' first
    | with_reducible assumption | with_reducible apply Res.ok_next
      | (intro x; refine State.kept_cut cmds x ?_ fun _ => ?_; rotate_left; clear_value x; rotate_left; subst x)
      | with_reducible apply State.onUnicast_kept | with_reducible apply State.aggAdd_kept
      | (refine State.Keeps.mk fun _ _ => ?_) | with_reducible apply Res.ok_ite | with_reducible apply State.kept_ite
      | intro x | split

theorem execAggTimeout_kept {cmds : List Instr} {s : State} (h : s.Kept cmds) (stream : Fin 16) :
    Res.Ok (State.Kept cmds) (execAggTimeout stream s) := by
  delta execAggTimeout
  repeat' first
    | with_reducible assumption | lift_lets -underBinder | with_reducible apply Res.ok_next
      | (intro x; refine State.kept_cut cmds x ?_ fun _ => ?_; rotate_left; clear_value x; rotate_left; subst x)
      | with_reducible apply State.aggClose_kept | with_reducible apply Res.ok_ite
      | with_reducible apply State.kept_ite | (intro x; clear_value x) | intro x | split

/-! ### Gather -/

theorem execGatherEngineStart_kept {cmds : List Instr} {s : State} (h : s.Kept cmds) :
    Res.Ok (State.Kept cmds) (execGatherEngineStart s) := by
  delta execGatherEngineStart
  repeat' first
    | with_reducible assumption | lift_lets -underBinder | with_reducible apply Res.ok_next
      | (intro x; refine State.kept_cut cmds x ?_ fun _ => ?_; rotate_left; clear_value x; rotate_left; subst x)
      | with_reducible apply State.modFab_kept | with_reducible apply State.freeEntry_kept
      | with_reducible apply State.reset_kept | with_reducible apply Res.ok_ite | with_reducible apply State.kept_ite
      | (intro x; clear_value x) | intro x | split

theorem State.gatherRead_kept {cmds : List Instr} {s : State} (h : s.Kept cmds) (i : Nat) (kind : Kind) (a n rix : Nat) (accs : List Acc) (pos : Nat) :
    (State.gatherRead s i kind a n rix accs pos).Kept cmds := by
  delta State.gatherRead
  repeat' first
    | with_reducible assumption | lift_lets -underBinder
      | (intro x; refine State.kept_cut cmds x ?_ fun _ => ?_; rotate_left; clear_value x; rotate_left; subst x)
      | with_reducible apply State.addEntry_kept | with_reducible apply State.settleGather_kept
      | with_reducible apply State.readStale_kept | with_reducible apply State.enterMeter_kept
      | with_reducible apply State.scaleLookup_kept | with_reducible apply State.reset_kept
      | with_reducible apply State.kept_ite | (intro x; clear_value x) | intro x | split

theorem execGatherListRead_kept {cmds : List Instr} {s : State} (h : s.Kept cmds) (e : Fin 16) :
    Res.Ok (State.Kept cmds) (execGatherListRead e s) := by
  delta execGatherListRead
  repeat' first
    | with_reducible assumption | lift_lets -underBinder | with_reducible apply Res.ok_next
      | (intro x; refine State.kept_cut cmds x ?_ fun _ => ?_; rotate_left; clear_value x; rotate_left; subst x)
      | with_reducible apply State.modFab_kept | with_reducible apply State.settleEngine_kept
      | with_reducible apply State.gatherRead_kept | with_reducible apply Res.ok_ite
      | with_reducible apply State.kept_ite | (intro x; clear_value x) | intro x | split

theorem State.stageZeros_kept {cmds : List Instr} {s : State} (h : s.Kept cmds) (i pos n : Nat) (st : RspStatus) :
    (State.stageZeros s i pos n st).Kept cmds := h

theorem execGatherPageRead_kept {cmds : List Instr} {s : State} (h : s.Kept cmds) (e : Fin 16) :
    Res.Ok (State.Kept cmds) (execGatherPageRead e s) := by
  delta execGatherPageRead
  repeat' first
    | with_reducible assumption | lift_lets -underBinder | with_reducible apply Res.ok_next
      | (intro x; refine State.kept_cut cmds x ?_ fun _ => ?_; rotate_left; clear_value x; rotate_left; subst x)
      | with_reducible apply State.modFab_kept | with_reducible apply State.statSub_kept
      | with_reducible apply State.settleEngine_kept | with_reducible apply State.gatherRead_kept
      | with_reducible apply State.stageZeros_kept | with_reducible apply Res.ok_ite
      | with_reducible apply State.kept_ite | (intro x; clear_value x) | intro x | split

theorem State.countBad_kept {cmds : List Instr} {s : State} (h : s.Kept cmds) (i port : Nat) (us : List (Nat × RspStatus × Line)) :
    (State.countBad s i port us).Kept cmds := by
  delta State.countBad
  repeat' first
    | with_reducible assumption | lift_lets -underBinder
      | (intro x; refine State.kept_cut cmds x ?_ fun _ => ?_; rotate_left; clear_value x; rotate_left; subst x)
      | with_reducible apply State.modFab_kept | with_reducible apply State.each_kept
      | with_reducible apply State.statSub_kept | (refine State.Keeps.mk fun _ _ => ?_)
      | with_reducible apply State.kept_ite | (intro x; clear_value x) | intro x | split

theorem State.freeEngine_kept {cmds : List Instr} {s : State} (h : s.Kept cmds) (i : Nat) :
    (State.freeEngine s i).Kept cmds := h

theorem execGatherBeat_kept {cmds : List Instr} {s : State} (h : s.Kept cmds) (e : Fin 16) :
    Res.Ok (State.Kept cmds) (execGatherBeat e s) := by
  delta execGatherBeat
  repeat' first
    | with_reducible assumption | lift_lets -underBinder | with_reducible apply Res.ok_next
      | (intro x; refine State.kept_cut cmds x ?_ fun _ => ?_; rotate_left; clear_value x; rotate_left; subst x)
      | (intro x; refine State.kept_cut x.1 ?_ fun _ => ?_; rotate_left; clear_value x; rotate_left; subst x)
      | with_reducible apply State.modFab_kept | with_reducible apply State.statSub_kept
      | with_reducible apply State.modEntry_kept | with_reducible apply State.feed_kept
      | with_reducible apply State.settleEngine_kept | with_reducible apply State.driveRsp_kept
      | with_reducible apply State.rspOver_kept | with_reducible apply State.countBad_kept
      | with_reducible apply State.freeEngine_kept | with_reducible apply State.foldl_kept
      | with_reducible apply List.foldl_kept | with_reducible apply Res.ok_ite | with_reducible apply State.kept_ite
      | (intro x; clear_value x) | intro x | split | dsimp only

/-! ### Ist -/

theorem State.marchStart_kept {cmds : List Instr} {s : State} (h : s.Kept cmds) (p : Nat) :
    (State.marchStart s p).Kept cmds := by
  delta State.marchStart
  repeat' first
    | with_reducible assumption | lift_lets -underBinder
      | (intro x; refine State.kept_cut cmds x ?_ fun _ => ?_; rotate_left; clear_value x; rotate_left; subst x)
      | with_reducible apply State.modSlice_kept | with_reducible apply State.sendRow_kept
      | with_reducible apply State.srx_kept | with_reducible apply State.startAccs_kept | (intro x; clear_value x)
      | intro x

theorem execIstCycle_kept {cmds : List Instr} {s : State} (h : s.Kept cmds) (o : IstOutcome) :
    Res.Ok (State.Kept cmds) (execIstCycle o s) := by
  delta execIstCycle
  repeat' first
    | with_reducible assumption | lift_lets -underBinder | with_reducible apply Res.ok_next
      | (intro x; refine State.kept_cut cmds x ?_ fun _ => ?_; rotate_left; clear_value x; rotate_left; subst x)
      | with_reducible apply State.modStk_kept | with_reducible apply State.modRep_kept
      | with_reducible apply State.each_kept | with_reducible apply State.resetQueue_kept
      | with_reducible apply State.failBond_kept | with_reducible apply State.unitFault_kept
      | with_reducible apply State.marchStart_kept | (refine State.Keeps.mk fun _ _ => ?_)
      | with_reducible apply Res.ok_ite | with_reducible apply State.kept_ite | (intro x; clear_value x) | intro x
      | split

theorem execSliceMarchDone_kept {cmds : List Instr} {s : State} (h : s.Kept cmds) (pass : Bool) :
    Res.Ok (State.Kept cmds) (execSliceMarchDone pass s) := by
  have hw : ∀ {t : State} (w : Wrap), t.Kept cmds → ({ t with wrap := w } : State).Kept cmds := fun _ ht => ht
  have hd : ∀ f, ({ s with mem := Tab.drop f s.mem } : State).Kept cmds := fun _ =>
    .of (Tab.drop_wf h.mem) h.ports h.slices h.tlm h.recs h.queue
  refine Res.ok_next ?_
  split
  · exact h
  · refine State.kept_ite h ?_
    lift_lets -underBinder
    intro s0
    have h0 : s0.Kept cmds := hd _
    clear_value s0
    intro s1
    have h1 : s1.Kept cmds := State.modSlice_kept (State.sre_kept h0 ..) ..
    clear_value s1
    intro s2
    have h2 : s2.Kept cmds := State.kept_ite h1 (State.linkEvent_kept (State.retireSlice_kept h1 ..) ..)
    clear_value s2
    intro w
    exact State.kept_ite (hw _ h2) h2

/-! ### LockStep -/

theorem State.dxpTake_kept {cmds : List Instr} {s : State} (h : s.Kept cmds) (f : BitVec 384) : (State.dxpTake s f).1.Kept cmds := by
  simp only [State.dxpTake]
  repeat' first
    | with_reducible assumption | with_reducible apply State.modDet_kept | with_reducible apply State.event_kept
      | with_reducible apply State.errCount_kept | with_reducible apply State.kept_ite | split

theorem execLsRecordFrame_kept {cmds : List Instr} {s : State} (h : s.Kept cmds) (f : BitVec 384) :
    Res.Ok (State.Kept cmds) (execLsRecordFrame f s) := by
  delta execLsRecordFrame
  repeat' first
    | with_reducible assumption | lift_lets -underBinder | with_reducible apply Res.ok_next
      | (intro x; refine State.kept_cut cmds x ?_ fun _ => ?_; rotate_left; clear_value x; rotate_left; subst x)
      | (intro x; refine State.kept_cut x.1 ?_ fun _ => ?_; rotate_left; clear_value x; rotate_left; subst x)
      | with_reducible apply State.lsMatch_kept | with_reducible apply State.dxpTake_kept
      | with_reducible apply Res.ok_ite | with_reducible apply State.kept_ite | (intro x; clear_value x) | intro x
      | split | dsimp only

theorem execLsHeartbeatFrame_kept {cmds : List Instr} {s : State} (h : s.Kept cmds) (f : BitVec 384) :
    Res.Ok (State.Kept cmds) (execLsHeartbeatFrame f s) := by
  delta execLsHeartbeatFrame
  repeat' first
    | with_reducible assumption | with_reducible apply Res.ok_next | with_reducible apply State.dxpTake_kept
      | with_reducible apply Res.ok_ite | with_reducible apply State.kept_ite | intro x | split | dsimp only

theorem execLsHeartbeatTimer_kept {cmds : List Instr} {s : State} (h : s.Kept cmds) :
    Res.Ok (State.Kept cmds) (execLsHeartbeatTimer s) := by
  delta execLsHeartbeatTimer
  repeat' first
    | with_reducible assumption | with_reducible apply Res.ok_next | with_reducible apply State.lsQueue_kept
      | with_reducible apply Res.ok_ite | with_reducible apply State.kept_ite | intro x | split

theorem execLsLinkTimeout_kept {cmds : List Instr} {s : State} (h : s.Kept cmds) :
    Res.Ok (State.Kept cmds) (execLsLinkTimeout s) := by
  delta execLsLinkTimeout
  repeat' first
    | with_reducible assumption | lift_lets -underBinder | with_reducible apply Res.ok_next
      | (intro x; refine State.kept_cut cmds x ?_ fun _ => ?_; rotate_left; clear_value x; rotate_left; subst x)
      | with_reducible apply State.modDet_kept | with_reducible apply State.event_kept
      | with_reducible apply Res.ok_ite | with_reducible apply State.kept_ite | (intro x; clear_value x) | intro x
      | split

theorem execLsFrameSent_kept {cmds : List Instr} {s : State} (h : s.Kept cmds) :
    Res.Ok (State.Kept cmds) (execLsFrameSent s) := by
  delta execLsFrameSent
  repeat' first
    | with_reducible assumption | lift_lets -underBinder | with_reducible apply Res.ok_next
      | (intro x; refine State.kept_cut cmds x ?_ fun _ => ?_; rotate_left; clear_value x; rotate_left; subst x)
      | with_reducible apply State.modDet_kept | with_reducible apply Res.ok_ite | with_reducible apply State.kept_ite
      | (intro x; clear_value x) | intro x | split

/-! ### Shutdown -/

theorem State.spoilRow_kept {cmds : List Instr} {s : State} (h : s.Kept cmds) (p : Nat) :
    (State.spoilRow s p).Kept cmds := by
  delta State.spoilRow
  repeat' first
    | with_reducible assumption | lift_lets -underBinder
      | (intro x; refine State.kept_cut cmds x ?_ fun _ => ?_; rotate_left; clear_value x; rotate_left; subst x)
      | with_reducible apply State.each_kept | with_reducible apply State.nextFree_kept
      | with_reducible apply State.setCode_kept | (refine State.Keeps.mk fun _ _ => ?_)
      | with_reducible apply State.kept_ite | (intro x; clear_value x) | intro x | split

theorem State.releaseAll_kept {cmds : List Instr} {s : State} (h : s.Kept cmds) (p : Nat) :
    (State.releaseAll s p).Kept cmds := by
  delta State.releaseAll
  repeat' first
    | with_reducible assumption | with_reducible apply State.icqRelease_kept | intro x

theorem State.stopIsland_kept {cmds : List Instr} {s : State} (h : s.Kept cmds) (p : Nat) :
    (State.stopIsland s p).Kept cmds := by
  delta State.stopIsland
  repeat' first
    | with_reducible assumption | lift_lets -underBinder
      | (intro x; refine State.kept_cut cmds x ?_ fun _ => ?_; rotate_left; clear_value x; rotate_left; subst x)
      | with_reducible apply State.modSlice_kept | with_reducible apply State.closeAll_kept
      | with_reducible apply State.spoilRow_kept | with_reducible apply State.releaseAll_kept
      | with_reducible apply State.reset_kept | with_reducible apply State.kept_ite | (intro x; clear_value x)
      | intro x | split

theorem State.abortBusy_kept {cmds : List Instr} {s : State} (h : s.Kept cmds) :
    (State.abortBusy s).Kept cmds := by
  delta State.abortBusy
  repeat' first
    | with_reducible assumption | lift_lets -underBinder
      | (intro x; refine State.kept_cut cmds x ?_ fun _ => ?_; rotate_left; clear_value x; rotate_left; subst x)
      | (intro c hc; exact hc) | with_reducible apply State.modFab_kept | with_reducible apply State.modSys_kept
      | with_reducible apply State.modCtl_kept | with_reducible apply State.finish_kept
      | with_reducible apply State.endPending_kept | with_reducible apply State.phase_kept
      | with_reducible apply State.kept_ite | (intro x; clear_value x) | intro x | split | dsimp only

theorem State.shutDown_kept {cmds : List Instr} {s : State} (h : s.Kept cmds) (hot : List (Nat × BitVec 16)) :
    (State.shutDown s hot).Kept cmds := by
  delta State.shutDown
  repeat' first
    | with_reducible assumption | lift_lets -underBinder
      | (intro x; refine State.kept_cut cmds x ?_ fun _ => ?_; rotate_left; clear_value x; rotate_left; subst x)
      | with_reducible apply State.modFab_kept | with_reducible apply State.modMbx_kept
      | with_reducible apply State.modSys_kept | with_reducible apply State.modTherm_kept
      | with_reducible apply State.each_kept | with_reducible apply State.event_kept
      | with_reducible apply State.detBreak_kept | with_reducible apply State.settleAll_kept
      | with_reducible apply State.lateOnce_kept | with_reducible apply State.phase_kept
      | with_reducible apply State.abandonChange_kept | with_reducible apply State.stopIsland_kept
      | with_reducible apply State.abortBusy_kept | (refine State.Keeps.mk fun _ _ => ?_)
      | with_reducible apply State.kept_ite | (intro x; clear_value x) | intro x | split

/-! ### Thermal -/

theorem State.modSensor_kept {cmds : List Instr} {s : State} (h : s.Kept cmds) (i : Nat) (f : Sensor → Sensor) :
    (State.modSensor s i f).Kept cmds := h

theorem execHkRoundStart_kept {cmds : List Instr} {s : State} (h : s.Kept cmds) :
    Res.Ok (State.Kept cmds) (execHkRoundStart s) := by
  delta execHkRoundStart
  repeat' first
    | with_reducible assumption | lift_lets -underBinder | with_reducible apply Res.ok_next
      | (intro x; refine State.kept_cut cmds x ?_ fun _ => ?_; rotate_left; clear_value x; rotate_left; subst x)
      | with_reducible apply State.modTherm_kept | with_reducible apply State.reset_kept
      | with_reducible apply Res.ok_ite | with_reducible apply State.kept_ite | (intro x; clear_value x) | intro x
      | (refine State.Kept.of ?_ ?_ ?_ ?_ ?_ ?_ <;> dsimp only) | with_reducible apply Tab.mapVals_wf
      | with_reducible apply State.Kept.mem | with_reducible apply State.Kept.ports
      | with_reducible apply State.Kept.slices | with_reducible apply State.Kept.tlm
      | with_reducible apply State.Kept.recs | with_reducible apply State.Kept.queue | split

theorem State.crossCheck_kept {cmds : List Instr} {s : State} (h : s.Kept cmds) :
    (State.crossCheck s).Kept cmds := by
  delta State.crossCheck
  repeat' first
    | with_reducible assumption | lift_lets -underBinder
      | (intro x; refine State.kept_cut cmds x ?_ fun _ => ?_; rotate_left; clear_value x; rotate_left; subst x)
      | with_reducible apply State.each_kept | with_reducible apply State.event_kept
      | with_reducible apply State.errCount_kept | with_reducible apply State.cleared_kept
      | with_reducible apply State.modSensor_kept | (refine State.Keeps.mk fun _ _ => ?_)
      | with_reducible apply State.kept_ite | (intro x; clear_value x) | intro x | split

theorem State.substitutes_kept {cmds : List Instr} {s : State} (h : s.Kept cmds) (old : State) : (State.substitutes old s).Kept cmds := by
  simp only [State.substitutes]
  refine State.each_kept (State.nextFree_kept h) fun i => State.Keeps.mk fun t ht => ?_
  repeat' first
    | with_reducible assumption | with_reducible apply State.modSensor_kept | with_reducible apply State.kept_ite | split

theorem State.rateOfRise_kept {cmds : List Instr} {s : State} (h : s.Kept cmds) :
    (State.rateOfRise s).Kept cmds := by
  delta State.rateOfRise
  repeat' first
    | with_reducible assumption | lift_lets -underBinder
      | (intro x; refine State.kept_cut cmds x ?_ fun _ => ?_; rotate_left; clear_value x; rotate_left; subst x)
      | with_reducible apply State.each_kept | with_reducible apply State.event_kept
      | with_reducible apply State.stat_kept | with_reducible apply State.modSensor_kept
      | (refine State.Keeps.mk fun _ _ => ?_) | with_reducible apply State.kept_ite | (intro x; clear_value x)
      | intro x | split

theorem State.converters_kept {cmds : List Instr} {s : State} (h : s.Kept cmds) (n : Nat) (spare : List (BitVec 16)) :
    (State.converters s n spare).Kept cmds := by
  delta State.converters
  repeat' first
    | with_reducible assumption | lift_lets -underBinder
      | (intro x; refine State.kept_cut cmds x ?_ fun _ => ?_; rotate_left; clear_value x; rotate_left; subst x)
      | with_reducible apply State.modTherm_kept | with_reducible apply State.event_kept
      | with_reducible apply State.foldl_kept | with_reducible apply List.foldl_kept
      | with_reducible apply State.kept_ite | (intro x; clear_value x) | intro x | split

theorem State.monitors_kept {cmds : List Instr} {s : State} (h : s.Kept cmds) :
    (State.monitors s).Kept cmds := by
  delta State.monitors
  repeat' first
    | with_reducible assumption | lift_lets -underBinder
      | (intro x; refine State.kept_cut cmds x ?_ fun _ => ?_; rotate_left; clear_value x; rotate_left; subst x)
      | with_reducible apply State.each_kept | with_reducible apply State.event_kept
      | with_reducible apply State.modSensor_kept | (refine State.Keeps.mk fun _ _ => ?_)
      | with_reducible apply State.kept_ite | (intro x; clear_value x) | intro x | split

theorem State.enforceTo_kept {cmds : List Instr} {s : State} (h : s.Kept cmds) (on : Bool) :
    (State.enforceTo s on).Kept cmds := by
  delta State.enforceTo
  repeat' first
    | with_reducible assumption | lift_lets -underBinder
      | (intro x; refine State.kept_cut cmds x ?_ fun _ => ?_; rotate_left; clear_value x; rotate_left; subst x)
      | with_reducible apply State.modTherm_kept | with_reducible apply State.event_kept
      | with_reducible apply State.detBreak_kept | with_reducible apply State.settleAll_kept
      | (intro x; clear_value x) | intro x

theorem State.throttle_kept {cmds : List Instr} {s : State} (h : s.Kept cmds) :
    (State.throttle s).Kept cmds := by
  delta State.throttle
  repeat' first
    | with_reducible assumption | lift_lets -underBinder
      | (intro x; refine State.kept_cut cmds x ?_ fun _ => ?_; rotate_left; clear_value x; rotate_left; subst x)
      | with_reducible apply State.modTherm_kept | with_reducible apply State.stat_kept
      | with_reducible apply State.enforceTo_kept | with_reducible apply State.kept_ite | (intro x; clear_value x)
      | intro x | split

theorem State.takeFraction_kept {cmds : List Instr} {s : State} (h : s.Kept cmds) :
    (State.takeFraction s).Kept cmds := by
  delta State.takeFraction
  repeat' first
    | with_reducible assumption | lift_lets -underBinder
      | (intro x; refine State.kept_cut cmds x ?_ fun _ => ?_; rotate_left; clear_value x; rotate_left; subst x)
      | with_reducible apply State.modTherm_kept | with_reducible apply State.settleAll_kept
      | with_reducible apply State.kept_ite | (intro x; clear_value x) | intro x | split

theorem State.levels_kept {cmds : List Instr} {s : State} (h : s.Kept cmds) :
    (State.levels s).Kept cmds := by
  delta State.levels
  repeat' first
    | with_reducible assumption | lift_lets -underBinder
      | (intro x; refine State.kept_cut cmds x ?_ fun _ => ?_; rotate_left; clear_value x; rotate_left; subst x)
      | with_reducible apply State.modSlice_kept | with_reducible apply State.modTherm_kept
      | with_reducible apply State.each_kept | with_reducible apply State.event_kept
      | with_reducible apply State.shutDown_kept | with_reducible apply State.throttle_kept
      | (refine State.Keeps.mk fun _ _ => ?_) | with_reducible apply State.kept_ite | (intro x; clear_value x)
      | intro x | split

theorem State.evalLane_kept {cmds : List Instr} {s : State} (h : s.Kept cmds) (p b : Nat) :
    (State.evalLane s p b).Kept cmds := by
  delta State.evalLane
  repeat' first
    | with_reducible assumption | lift_lets -underBinder
      | (intro x; refine State.kept_cut cmds x ?_ fun _ => ?_; rotate_left; clear_value x; rotate_left; subst x)
      | with_reducible apply State.modLink_kept | with_reducible apply State.linkEvent_kept
      | with_reducible apply State.failBond_kept | with_reducible apply State.reset_kept
      | with_reducible apply State.kept_ite | (intro x; clear_value x) | intro x
      | (refine State.Kept.of ?_ ?_ ?_ ?_ ?_ ?_ <;> dsimp only) | with_reducible apply State.Kept.mem
      | with_reducible apply State.Kept.ports | with_reducible apply State.Kept.slices
      | with_reducible apply State.Kept.tlm | with_reducible apply State.Kept.recs
      | with_reducible apply State.Kept.queue | split

theorem State.evalLanes_kept {cmds : List Instr} {s : State} (h : s.Kept cmds) (p : Nat) :
    (State.evalLanes s p).Kept cmds := by
  delta State.evalLanes
  repeat' first
    | with_reducible assumption
      | (intro x; refine State.kept_cut cmds x ?_ fun _ => ?_; rotate_left; clear_value x; rotate_left; subst x)
      | with_reducible apply State.each_kept | with_reducible apply State.evalLane_kept
      | (refine State.Keeps.mk fun _ _ => ?_) | with_reducible apply State.kept_ite | intro x | split

theorem State.evalCal_kept {cmds : List Instr} {s : State} (h : s.Kept cmds) (p : Nat) :
    (State.evalCal s p).Kept cmds := by
  delta State.evalCal
  repeat' first
    | with_reducible assumption | lift_lets -underBinder
      | (intro x; refine State.kept_cut cmds x ?_ fun _ => ?_; rotate_left; clear_value x; rotate_left; subst x)
      | with_reducible apply State.modLink_kept | with_reducible apply State.kept_ite | (intro x; clear_value x)
      | intro x | split

theorem State.takeRepair_kept {cmds : List Instr} {s : State} (h : s.Kept cmds) :
    (State.takeRepair s).Kept cmds := by
  delta State.takeRepair
  repeat' first
    | with_reducible assumption | lift_lets -underBinder
      | (intro x; refine State.kept_cut cmds x ?_ fun _ => ?_; rotate_left; clear_value x; rotate_left; subst x)
      | with_reducible apply State.modStk_kept | with_reducible apply State.modScr_kept
      | with_reducible apply State.each_kept | (refine State.Keeps.mk fun _ _ => ?_)
      | with_reducible apply State.kept_ite | (intro x; clear_value x) | intro x | split

theorem State.storeReadings_kept {cmds : List Instr} {s : State} (h : s.Kept cmds) (r : List (BitVec 16)) :
    (State.storeReadings s r).Kept cmds := by
  delta State.storeReadings
  repeat' first
    | with_reducible assumption | lift_lets -underBinder
      | (intro x; refine State.kept_cut cmds x ?_ fun _ => ?_; rotate_left; clear_value x; rotate_left; subst x)
      | with_reducible apply State.modTherm_kept | with_reducible apply State.reset_kept
      | with_reducible apply State.foldl_kept | with_reducible apply List.foldl_kept
      | with_reducible apply State.kept_ite | (intro x; clear_value x) | intro x | split

theorem execHkEvaluation_kept {cmds : List Instr} {s : State} (h : s.Kept cmds) (readings : List (BitVec 16)) (spare : List (BitVec 16)) :
    Res.Ok (State.Kept cmds) (execHkEvaluation readings spare s) := by
  delta execHkEvaluation
  repeat' first
    | with_reducible assumption | lift_lets -underBinder | with_reducible apply Res.ok_next
      | (intro x; refine State.kept_cut cmds x ?_ fun _ => ?_; rotate_left; clear_value x; rotate_left; subst x)
      | with_reducible apply State.modTherm_kept | with_reducible apply State.each_kept
      | with_reducible apply State.icqPass_kept | with_reducible apply State.reband_kept
      | with_reducible apply State.evalPower_kept | with_reducible apply State.rstAfter_kept
      | with_reducible apply State.crossCheck_kept | with_reducible apply State.substitutes_kept
      | with_reducible apply State.rateOfRise_kept | with_reducible apply State.converters_kept
      | with_reducible apply State.monitors_kept | with_reducible apply State.takeFraction_kept
      | with_reducible apply State.levels_kept | with_reducible apply State.evalLanes_kept
      | with_reducible apply State.evalCal_kept | with_reducible apply State.takeRepair_kept
      | with_reducible apply State.storeReadings_kept | (refine State.Keeps.mk fun _ _ => ?_)
      | with_reducible apply Res.ok_ite | with_reducible apply State.kept_ite | (intro x; clear_value x) | intro x
      | split

theorem execThermGraceEnd_kept {cmds : List Instr} {s : State} (h : s.Kept cmds) :
    Res.Ok (State.Kept cmds) (execThermGraceEnd s) := by
  delta execThermGraceEnd
  repeat' first
    | with_reducible assumption | lift_lets -underBinder | with_reducible apply Res.ok_next
      | (intro x; refine State.kept_cut cmds x ?_ fun _ => ?_; rotate_left; clear_value x; rotate_left; subst x)
      | with_reducible apply State.enforceTo_kept | with_reducible apply Res.ok_ite
      | with_reducible apply State.kept_ite | (intro x; clear_value x) | intro x | split

theorem execZqCal_kept {cmds : List Instr} {s : State} (h : s.Kept cmds) (code : BitVec 5) :
    Res.Ok (State.Kept cmds) (execZqCal code s) := by
  delta execZqCal
  repeat' first
    | with_reducible assumption | lift_lets -underBinder | with_reducible apply Res.ok_next
      | (intro x; refine State.kept_cut cmds x ?_ fun _ => ?_; rotate_left; clear_value x; rotate_left; subst x)
      | with_reducible apply State.modTherm_kept | with_reducible apply Res.ok_ite
      | with_reducible apply State.kept_ite | (intro x; clear_value x) | intro x | split

/-! ### Wrapper -/

theorem State.modWrap_kept {cmds : List Instr} {s : State} (h : s.Kept cmds) (f : Wrap → Wrap) :
    (State.modWrap s f).Kept cmds := h

theorem State.wir_kept {cmds : List Instr} {s : State} (h : s.Kept cmds) (i : BitVec 8) :
    (State.wir s i).Kept cmds := h

theorem execWsBypass_kept {cmds : List Instr} {s : State} (h : s.Kept cmds) :
    Res.Ok (State.Kept cmds) (execWsBypass s) := by
  delta execWsBypass
  repeat' first
    | with_reducible assumption | with_reducible apply Res.ok_next | with_reducible apply State.wir_kept | intro x

theorem State.underPor_kept {cmds : List Instr} {s : State} {f : State → State} (h : s.Kept cmds) (hf : State.Keeps cmds f) (i : BitVec 8) :
    (State.underPor s i f).Kept cmds := by
  simp only [State.underPor]
  split
  · exact State.wir_kept h _
  · exact hf _ (State.wir_kept h _)

theorem execWsExtest_kept {cmds : List Instr} {s : State} (h : s.Kept cmds) (v : BitVec 64) :
    Res.Ok (State.Kept cmds) (execWsExtest v s) := by
  delta execWsExtest
  repeat' first
    | with_reducible assumption | lift_lets -underBinder | with_reducible apply Res.ok_next
      | (intro x; refine State.kept_cut cmds x ?_ fun _ => ?_; rotate_left; clear_value x; rotate_left; subst x)
      | with_reducible apply State.modWrap_kept | with_reducible apply State.underPor_kept
      | (refine State.Keeps.mk fun _ _ => ?_) | (intro x; clear_value x) | intro x

theorem execWsIntest_kept {cmds : List Instr} {s : State} (h : s.Kept cmds) (v : BitVec 64) :
    Res.Ok (State.Kept cmds) (execWsIntest v s) := by
  delta execWsIntest
  repeat' first
    | with_reducible assumption | lift_lets -underBinder | with_reducible apply Res.ok_next
      | (intro x; refine State.kept_cut cmds x ?_ fun _ => ?_; rotate_left; clear_value x; rotate_left; subst x)
      | with_reducible apply State.modWrap_kept | with_reducible apply State.underPor_kept
      | (refine State.Keeps.mk fun _ _ => ?_) | (intro x; clear_value x) | intro x

theorem execKxIdcode_kept {cmds : List Instr} {s : State} (h : s.Kept cmds) :
    Res.Ok (State.Kept cmds) (execKxIdcode s) := by
  delta execKxIdcode
  repeat' first
    | with_reducible assumption | lift_lets -underBinder | with_reducible apply Res.ok_next
      | (intro x; refine State.kept_cut cmds x ?_ fun _ => ?_; rotate_left; clear_value x; rotate_left; subst x)
      | with_reducible apply State.modWrap_kept | with_reducible apply State.wir_kept | (intro x; clear_value x)
      | intro x

theorem State.spoilArrays_kept {cmds : List Instr} {s : State} (h : s.Kept cmds) :
    (State.spoilArrays s).Kept cmds := h

theorem execKxMbist_kept {cmds : List Instr} {s : State} (h : s.Kept cmds) :
    Res.Ok (State.Kept cmds) (execKxMbist s) := by
  delta execKxMbist
  repeat' first
    | with_reducible assumption | lift_lets -underBinder | with_reducible apply Res.ok_next
      | (intro x; refine State.kept_cut cmds x ?_ fun _ => ?_; rotate_left; clear_value x; rotate_left; subst x)
      | with_reducible apply State.modWrap_kept | with_reducible apply State.underPor_kept
      | with_reducible apply State.spoilArrays_kept | (refine State.Keeps.mk fun _ _ => ?_) | (intro x; clear_value x)
      | intro x

theorem execMbistDone_kept {cmds : List Instr} {s : State} (h : s.Kept cmds) (groups : BitVec 8) :
    Res.Ok (State.Kept cmds) (execMbistDone groups s) := by
  delta execMbistDone
  repeat' first
    | with_reducible assumption | lift_lets -underBinder | with_reducible apply Res.ok_next
      | (intro x; refine State.kept_cut cmds x ?_ fun _ => ?_; rotate_left; clear_value x; rotate_left; subst x)
      | with_reducible apply State.modWrap_kept | with_reducible apply Res.ok_ite
      | with_reducible apply State.kept_ite | (intro x; clear_value x) | intro x | split

theorem execKxScan_kept {cmds : List Instr} {s : State} (h : s.Kept cmds) :
    Res.Ok (State.Kept cmds) (execKxScan s) := by
  delta execKxScan
  repeat' first
    | with_reducible assumption | with_reducible apply Res.ok_next | with_reducible apply State.underPor_kept
      | with_reducible apply State.spoilArrays_kept | (refine State.Keeps.mk fun _ _ => ?_) | intro x

theorem execKxSliceTest_kept {cmds : List Instr} {s : State} (h : s.Kept cmds) (v : BitVec 16) :
    Res.Ok (State.Kept cmds) (execKxSliceTest v s) := by
  delta execKxSliceTest
  repeat' first
    | with_reducible assumption | lift_lets -underBinder | with_reducible apply Res.ok_next
      | (intro x; refine State.kept_cut cmds x ?_ fun _ => ?_; rotate_left; clear_value x; rotate_left; subst x)
      | with_reducible apply State.marchStart_kept | with_reducible apply State.modWrap_kept
      | with_reducible apply State.wir_kept | with_reducible apply Res.ok_ite | with_reducible apply State.kept_ite
      | (intro x; clear_value x) | intro x | split

/-! ### MbxRun -/

theorem State.runCopied_kept {cmds : List Instr} {s : State} (h : s.Kept cmds) :
    (State.runCopied s).Kept cmds := by
  delta State.runCopied
  repeat' first
    | with_reducible assumption | lift_lets -underBinder
      | (intro x; refine State.kept_cut cmds x ?_ fun _ => ?_; rotate_left; clear_value x; rotate_left; subst x)
      | with_reducible apply State.modMbx_kept | with_reducible apply State.finish_kept
      | with_reducible apply State.cmdIdent_kept | with_reducible apply State.cmdTlmClear_kept
      | with_reducible apply State.cmdSensorClear_kept | with_reducible apply State.cmdCfgStore_kept
      | with_reducible apply State.cmdRegionRead_kept | with_reducible apply State.cmdRetrain_kept
      | with_reducible apply State.cmdCalRun_kept | with_reducible apply State.cmdLinkRead_kept
      | with_reducible apply State.cmdMigrate_kept | with_reducible apply State.cmdRebind_kept
      | with_reducible apply State.cmdFirnRead_kept | with_reducible apply State.cmdDigestFence_kept
      | with_reducible apply State.cmdLockstepRelease_kept | with_reducible apply State.cmdCfgCommit_kept
      | with_reducible apply State.cmdRateSet_kept | with_reducible apply State.cmdDetSet_kept
      | with_reducible apply State.cmdAccFlush_kept | with_reducible apply State.cmdReseal_kept
      | with_reducible apply State.cmdBrewLoad_kept | with_reducible apply State.cmdRestoreContext_kept
      | with_reducible apply State.cmdDigestRegion_kept | with_reducible apply State.cmdSaveContext_kept
      | with_reducible apply State.cmdFrostEnter_kept | with_reducible apply State.kept_ite | (intro x; clear_value x)
      | intro x | split

theorem State.startHeld_kept {cmds : List Instr} {s : State} (h : s.Kept cmds) :
    (State.startHeld s).Kept cmds := by
  delta State.startHeld
  repeat' first
    | with_reducible assumption | lift_lets -underBinder
      | (intro x; refine State.kept_cut cmds x ?_ fun _ => ?_; rotate_left; clear_value x; rotate_left; subst x)
      | with_reducible apply State.runCopied_kept | with_reducible apply State.kept_ite | (intro x; clear_value x)
      | intro x | split

theorem State.preid_kept {cmds : List Instr} {s : State} (h : s.Kept cmds) :
    (State.preid s).Kept cmds := by
  delta State.preid
  repeat' first
    | with_reducible assumption | with_reducible apply State.ackTime_kept | with_reducible apply State.gangGo_kept
      | with_reducible apply State.pendingRate_kept | with_reducible apply State.memWork_kept
      | with_reducible apply State.gangAck_kept | with_reducible apply State.heldPrepare_kept
      | with_reducible apply State.startHeld_kept | with_reducible apply State.kept_ite | intro x | split

/-! ### Tick -/

theorem State.countTick_kept {cmds : List Instr} {s : State} (h : s.Kept cmds) :
    (State.countTick s).Kept cmds := by
  delta State.countTick
  repeat' first
    | with_reducible assumption | lift_lets -underBinder
      | (intro x; refine State.kept_cut cmds x ?_ fun _ => ?_; rotate_left; clear_value x; rotate_left; subst x)
      | with_reducible apply State.modSys_kept | with_reducible apply State.reset_kept
      | with_reducible apply State.foldl_kept | with_reducible apply List.foldl_kept | (intro x; clear_value x)
      | intro x | (refine State.Kept.of ?_ ?_ ?_ ?_ ?_ ?_ <;> dsimp only) | with_reducible apply Tab.foldl_wf
      | with_reducible apply Tab.upd_wf | with_reducible apply State.Kept.mem | with_reducible apply State.Kept.ports
      | with_reducible apply State.Kept.slices | with_reducible apply State.Kept.tlm
      | with_reducible apply State.Kept.recs | with_reducible apply State.Kept.queue

theorem State.sampleAlign_kept {cmds : List Instr} {s : State} (h : s.Kept cmds) :
    (State.sampleAlign s).Kept cmds := by
  delta State.sampleAlign
  repeat' first
    | with_reducible assumption | lift_lets -underBinder
      | (intro x; refine State.kept_cut cmds x ?_ fun _ => ?_; rotate_left; clear_value x; rotate_left; subst x)
      | with_reducible apply State.modDet_kept | with_reducible apply State.kept_ite | (intro x; clear_value x)
      | intro x | split

theorem State.countEnforce_kept {cmds : List Instr} {s : State} (h : s.Kept cmds) :
    (State.countEnforce s).Kept cmds := by
  delta State.countEnforce
  repeat' first
    | with_reducible assumption | with_reducible apply State.stat_kept | with_reducible apply State.kept_ite | intro x
      | split

theorem State.countHolds_kept {cmds : List Instr} {s : State} (h : s.Kept cmds) :
    (State.countHolds s).Kept cmds := by
  delta State.countHolds
  repeat' first
    | with_reducible assumption
      | (intro x; refine State.kept_cut cmds x ?_ fun _ => ?_; rotate_left; clear_value x; rotate_left; subst x)
      | with_reducible apply State.each_kept | with_reducible apply State.statSlice_kept
      | (refine State.Keeps.mk fun _ _ => ?_) | intro x

theorem State.levelTick_kept {cmds : List Instr} {s : State} (h : s.Kept cmds) (seen : Nat) :
    (State.levelTick s seen).Kept cmds := by
  delta State.levelTick
  repeat' first
    | with_reducible assumption | lift_lets -underBinder
      | (intro x; refine State.kept_cut cmds x ?_ fun _ => ?_; rotate_left; clear_value x; rotate_left; subst x)
      | with_reducible apply State.modMbx_kept | with_reducible apply State.kept_ite | (intro x; clear_value x)
      | intro x | split

theorem State.ltcTick_kept {cmds : List Instr} {s : State} (h : s.Kept cmds) :
    (State.ltcTick s).Kept cmds := by
  delta State.ltcTick
  repeat' first
    | with_reducible assumption | with_reducible apply State.readReports_kept
      | with_reducible apply State.reportDrops_kept | with_reducible apply State.readWords_kept
      | with_reducible apply State.preid_kept | with_reducible apply State.countTick_kept
      | with_reducible apply State.sampleAlign_kept | with_reducible apply State.countEnforce_kept
      | with_reducible apply State.countHolds_kept | with_reducible apply State.levelTick_kept
      | with_reducible apply State.kept_ite | intro x | split

end Sys2Proof.Machine
end

