-- ==== Sys2Proof/Laws/Mailbox.lean ====
section
/-! SUPPORT. What a doorbell, a command's checks and its end do, said once (R755, R756, R758, R800, R802, R719). -/

namespace Sys2Proof.Machine

theorem doorbell_ignored (s : State) (op : Nat) (quant : Bool) (run : State → State)
    (h : s.cpLive = false ∨ fld s.mbx.cmd 0 8 ≠ op ∨ s.mbx.st = .busy) : s.doorbell op quant run = s := by
  obtain h | h | h := h <;> simp [State.doorbell, h]

theorem doorbell_wakes (s : State) (op : Nat) (quant : Bool) (run : State → State) (h1 : s.cpLive = true)
    (h2 : s.mbx.st ≠ .busy) (h3 : s.sys.phase = .frost) (h4 : s.therm.latch = false) (h5 : fld s.mbx.cmd 0 8 = op) :
    s.doorbell op quant run =
      State.takeLines { s with mbx := s.busyWith none, sys := { s.sys with phase := .thaw, wakeLtc := s.sys.ltc } } := by
  simp [State.doorbell, h1, h2, h3, h4, h5, State.takeDoorbell, State.startThaw, State.modMbx, State.modSys, State.busyWith]

theorem doorbell_delayed (s : State) (op : Nat) (run : State → State) (h1 : s.cpLive = true) (h2 : s.mbx.st ≠ .busy)
    (h3 : ¬ (s.sys.phase = .frost ∧ s.therm.latch = false)) (h4 : fld s.mbx.cmd 0 8 = op) (h5 : s.det.mode = .timing) :
    s.doorbell op true run = { s with mbx := { s.busyWith none with starts := some (s.quantum s.sys.ltc) } } := by
  simp only [State.doorbell, h1, h4, h5]
  rw [if_neg (by simp [h2]), if_neg (by simpa using h3)]
  rfl

theorem doorbell_runs (s : State) (op : Nat) (quant : Bool) (run : State → State) (h : s.Rings op quant) :
    s.doorbell op quant run = run s.takeDoorbell := by
  obtain ⟨h1, h2, h3, h4, h5⟩ := h
  unfold State.doorbell
  rw [if_neg (by simp [h1, h2, h3]), if_neg (by intro h; simp at h; rcases h4 with h4 | h4 <;> simp [h4] at h)]
  rcases quant with _ | _
  · rfl
  · have hm := h5 rfl
    rcases hd : s.det.mode with _ | _ | _ <;> simp_all

@[simp] theorem finish_takeDoorbell (s : State) (err : BitVec 8) (l : List Word) :
    s.takeDoorbell.finish err l = { s with mbx := s.answer err l } := rfl

@[simp] theorem setRun_takeDoorbell (s : State) (r : RunCmd) :
    s.takeDoorbell.setRun r = { s with mbx := s.busyWith (some r) } := rfl

theorem finish_eq (s : State) (err : BitVec 8) (l : List Word) : s.finish err l = { s with mbx := s.ended err l } := rfl

theorem checked_bad (s : State) (masks : List Nat) (cs : List (Bool × BitVec 8)) (go : State → State)
    (h : s.argsBad masks = true) : s.checked masks cs go = s.finish eBadarg [] := by
  simp [State.checked, firstFail, h]

theorem checked_nil (s : State) (masks : List Nat) (go : State → State) (h : s.argsBad masks = false) :
    s.checked masks [] go = go s := by
  simp [State.checked, firstFail, h]

theorem checked_pass (s : State) (masks : List Nat) (c : Bool × BitVec 8) (cs : List (Bool × BitVec 8)) (go : State → State)
    (h : c.1 = false) : s.checked masks (c :: cs) go = s.checked masks cs go := by
  simp [State.checked, firstFail, h]

theorem checked_fail (s : State) (masks : List Nat) (c : Bool × BitVec 8) (cs : List (Bool × BitVec 8)) (go : State → State)
    (h : s.argsBad masks = false) (hc : c.1 = true) : s.checked masks (c :: cs) go = s.finish c.2 [] := by
  simp [State.checked, firstFail, h, hc]

end Sys2Proof.Machine
end

