-- ==== Sys2Proof/Laws/Ops.lean ====
section
/-! SUPPORT. What an event record and a count can change: the log, the causes and the counter, and no other part. -/

namespace Sys2Proof.Machine

variable (s : State)

/-! ### Event records (R768 to R772) -/

@[simp] theorem State.event_pending (e : Ev) (u d : Nat) : (s.event e u d).pending = s.pending := by
  unfold State.event; split <;> rfl
@[simp] theorem State.event_sys (e : Ev) (u d : Nat) : (s.event e u d).sys = s.sys := by
  unfold State.event; split <;> rfl
@[simp] theorem State.event_cfg (e : Ev) (u d : Nat) : (s.event e u d).cfg = s.cfg := by
  unfold State.event; split <;> rfl
@[simp] theorem State.event_mc (e : Ev) (u d : Nat) : (s.event e u d).mc = s.mc := by
  unfold State.event; split <;> rfl
@[simp] theorem State.event_fab (e : Ev) (u d : Nat) : (s.event e u d).fab = s.fab := by
  unfold State.event; split <;> rfl
@[simp] theorem State.event_ports (e : Ev) (u d : Nat) : (s.event e u d).ports = s.ports := by
  unfold State.event; split <;> rfl
@[simp] theorem State.event_blp (e : Ev) (u d : Nat) : (s.event e u d).blp = s.blp := by
  unfold State.event; split <;> rfl
@[simp] theorem State.event_slices (e : Ev) (u d : Nat) : (s.event e u d).slices = s.slices := by
  unfold State.event; split <;> rfl
@[simp] theorem State.event_therm (e : Ev) (u d : Nat) : (s.event e u d).therm = s.therm := by
  unfold State.event; split <;> rfl
@[simp] theorem State.event_stk (e : Ev) (u d : Nat) : (s.event e u d).stk = s.stk := by
  unfold State.event; split <;> rfl
@[simp] theorem State.event_det (e : Ev) (u d : Nat) : (s.event e u d).det = s.det := by
  unfold State.event; split <;> rfl
@[simp] theorem State.event_ring (e : Ev) (u d : Nat) : (s.event e u d).ring = s.ring := by
  unfold State.event; split <;> rfl
@[simp] theorem State.event_wrap (e : Ev) (u d : Nat) : (s.event e u d).wrap = s.wrap := by
  unfold State.event; split <;> rfl
@[simp] theorem State.event_mem (e : Ev) (u d : Nat) : (s.event e u d).mem = s.mem := by
  unfold State.event; split <;> rfl
@[simp] theorem State.event_ctl (e : Ev) (u d : Nat) : (s.event e u d).ctl = s.ctl := by
  unfold State.event; split <;> rfl

/-- A log with room gets the record behind the others (R768, R771). -/
theorem State.event_recs_room {s : State} (h : s.logFull = false) (e : Ev) (u d : Nat) :
    (s.event e u d).evt.recs = s.evt.recs ++ [mkRec s.evt.seq e u d s.sys.ltc] := by
  simp [State.event, h, Evt.push]

/-- A full log drops the record and counts it (R769). -/
theorem State.event_recs_full {s : State} (h : s.logFull = true) (e : Ev) (u d : Nat) :
    (s.event e u d).evt = { s.evt with drop := min (s.evt.drop + 1) 0xFFFFFFFF } := by
  simp [State.event, h]

/-- The log has no room as soon as it holds 256 records (R768); outside DET_TIMING, with nothing under way, only then (R82). -/
theorem State.logFull_of_len {s : State} (h : 256 ≤ s.evt.recs.length) : s.logFull = true := by
  simp [State.logFull, State.icqFull, icqDeep]; omega

/-- Of the mailbox a record changes the causes alone (R765, R767). -/
theorem State.event_mbx (e : Ev) (u d : Nat) :
    (s.event e u d).mbx = { s.mbx with irq := (s.event e u d).mbx.irq } := by
  unfold State.event; split <;> rfl

/-- The causes of a record are set, whether or not the log has room (R767). -/
theorem State.event_irq (e : Ev) (u d : Nat) (i : Nat) (h : (s.mbx.irq ||| e.causes).getLsbD i = true) :
    (s.event e u d).mbx.irq.getLsbD i = true := by
  unfold State.event
  split
  · exact h
  · dsimp only
    split
    · simp_all [BitVec.getLsbD_or]
    · exact h

/-! ### Counters (R773) -/

@[simp] theorem State.count_pending (top : Nat) (e : Ev) (page slot n : Nat) : (s.count top e page slot n).pending = s.pending := by
  simp only [State.count, apply_ite State.pending, State.event_pending, ite_self]
@[simp] theorem State.count_sys (top : Nat) (e : Ev) (page slot n : Nat) : (s.count top e page slot n).sys = s.sys := by
  simp only [State.count, apply_ite State.sys, State.event_sys, ite_self]
@[simp] theorem State.count_cfg (top : Nat) (e : Ev) (page slot n : Nat) : (s.count top e page slot n).cfg = s.cfg := by
  simp only [State.count, apply_ite State.cfg, State.event_cfg, ite_self]
@[simp] theorem State.count_mc (top : Nat) (e : Ev) (page slot n : Nat) : (s.count top e page slot n).mc = s.mc := by
  simp only [State.count, apply_ite State.mc, State.event_mc, ite_self]
@[simp] theorem State.count_fab (top : Nat) (e : Ev) (page slot n : Nat) : (s.count top e page slot n).fab = s.fab := by
  simp only [State.count, apply_ite State.fab, State.event_fab, ite_self]
@[simp] theorem State.count_ports (top : Nat) (e : Ev) (page slot n : Nat) : (s.count top e page slot n).ports = s.ports := by
  simp only [State.count, apply_ite State.ports, State.event_ports, ite_self]
@[simp] theorem State.count_blp (top : Nat) (e : Ev) (page slot n : Nat) : (s.count top e page slot n).blp = s.blp := by
  simp only [State.count, apply_ite State.blp, State.event_blp, ite_self]
@[simp] theorem State.count_slices (top : Nat) (e : Ev) (page slot n : Nat) : (s.count top e page slot n).slices = s.slices := by
  simp only [State.count, apply_ite State.slices, State.event_slices, ite_self]
@[simp] theorem State.count_therm (top : Nat) (e : Ev) (page slot n : Nat) : (s.count top e page slot n).therm = s.therm := by
  simp only [State.count, apply_ite State.therm, State.event_therm, ite_self]
@[simp] theorem State.count_stk (top : Nat) (e : Ev) (page slot n : Nat) : (s.count top e page slot n).stk = s.stk := by
  simp only [State.count, apply_ite State.stk, State.event_stk, ite_self]
@[simp] theorem State.count_det (top : Nat) (e : Ev) (page slot n : Nat) : (s.count top e page slot n).det = s.det := by
  simp only [State.count, apply_ite State.det, State.event_det, ite_self]
@[simp] theorem State.count_ring (top : Nat) (e : Ev) (page slot n : Nat) : (s.count top e page slot n).ring = s.ring := by
  simp only [State.count, apply_ite State.ring, State.event_ring, ite_self]
@[simp] theorem State.count_wrap (top : Nat) (e : Ev) (page slot n : Nat) : (s.count top e page slot n).wrap = s.wrap := by
  simp only [State.count, apply_ite State.wrap, State.event_wrap, ite_self]
@[simp] theorem State.count_mem (top : Nat) (e : Ev) (page slot n : Nat) : (s.count top e page slot n).mem = s.mem := by
  simp only [State.count, apply_ite State.mem, State.event_mem, ite_self]

@[simp] theorem State.stat_pending (page slot n : Nat) : (s.stat page slot n).pending = s.pending := s.count_pending ..
@[simp] theorem State.stat_sys (page slot n : Nat) : (s.stat page slot n).sys = s.sys := s.count_sys ..
@[simp] theorem State.stat_cfg (page slot n : Nat) : (s.stat page slot n).cfg = s.cfg := s.count_cfg ..
@[simp] theorem State.stat_mc (page slot n : Nat) : (s.stat page slot n).mc = s.mc := s.count_mc ..
@[simp] theorem State.stat_fab (page slot n : Nat) : (s.stat page slot n).fab = s.fab := s.count_fab ..
@[simp] theorem State.stat_ports (page slot n : Nat) : (s.stat page slot n).ports = s.ports := s.count_ports ..
@[simp] theorem State.stat_blp (page slot n : Nat) : (s.stat page slot n).blp = s.blp := s.count_blp ..
@[simp] theorem State.stat_slices (page slot n : Nat) : (s.stat page slot n).slices = s.slices := s.count_slices ..
@[simp] theorem State.stat_therm (page slot n : Nat) : (s.stat page slot n).therm = s.therm := s.count_therm ..
@[simp] theorem State.stat_stk (page slot n : Nat) : (s.stat page slot n).stk = s.stk := s.count_stk ..
@[simp] theorem State.stat_det (page slot n : Nat) : (s.stat page slot n).det = s.det := s.count_det ..
@[simp] theorem State.stat_ring (page slot n : Nat) : (s.stat page slot n).ring = s.ring := s.count_ring ..
@[simp] theorem State.stat_wrap (page slot n : Nat) : (s.stat page slot n).wrap = s.wrap := s.count_wrap ..
@[simp] theorem State.stat_mem (page slot n : Nat) : (s.stat page slot n).mem = s.mem := s.count_mem ..

@[simp] theorem State.errCount_pending (page slot n : Nat) : (s.errCount page slot n).pending = s.pending := s.count_pending ..
@[simp] theorem State.errCount_sys (page slot n : Nat) : (s.errCount page slot n).sys = s.sys := s.count_sys ..
@[simp] theorem State.errCount_cfg (page slot n : Nat) : (s.errCount page slot n).cfg = s.cfg := s.count_cfg ..
@[simp] theorem State.errCount_mc (page slot n : Nat) : (s.errCount page slot n).mc = s.mc := s.count_mc ..
@[simp] theorem State.errCount_fab (page slot n : Nat) : (s.errCount page slot n).fab = s.fab := s.count_fab ..
@[simp] theorem State.errCount_ports (page slot n : Nat) : (s.errCount page slot n).ports = s.ports := s.count_ports ..
@[simp] theorem State.errCount_blp (page slot n : Nat) : (s.errCount page slot n).blp = s.blp := s.count_blp ..
@[simp] theorem State.errCount_slices (page slot n : Nat) : (s.errCount page slot n).slices = s.slices := s.count_slices ..
@[simp] theorem State.errCount_therm (page slot n : Nat) : (s.errCount page slot n).therm = s.therm := s.count_therm ..
@[simp] theorem State.errCount_stk (page slot n : Nat) : (s.errCount page slot n).stk = s.stk := s.count_stk ..
@[simp] theorem State.errCount_det (page slot n : Nat) : (s.errCount page slot n).det = s.det := s.count_det ..
@[simp] theorem State.errCount_ring (page slot n : Nat) : (s.errCount page slot n).ring = s.ring := s.count_ring ..
@[simp] theorem State.errCount_wrap (page slot n : Nat) : (s.errCount page slot n).wrap = s.wrap := s.count_wrap ..
@[simp] theorem State.errCount_mem (page slot n : Nat) : (s.errCount page slot n).mem = s.mem := s.count_mem ..

@[simp] theorem State.statSlice_pending (p slot n : Nat) : (s.statSlice p slot n).pending = s.pending := s.count_pending ..
@[simp] theorem State.statSlice_sys (p slot n : Nat) : (s.statSlice p slot n).sys = s.sys := s.count_sys ..
@[simp] theorem State.statSlice_cfg (p slot n : Nat) : (s.statSlice p slot n).cfg = s.cfg := s.count_cfg ..
@[simp] theorem State.statSlice_mc (p slot n : Nat) : (s.statSlice p slot n).mc = s.mc := s.count_mc ..
@[simp] theorem State.statSlice_fab (p slot n : Nat) : (s.statSlice p slot n).fab = s.fab := s.count_fab ..
@[simp] theorem State.statSlice_ports (p slot n : Nat) : (s.statSlice p slot n).ports = s.ports := s.count_ports ..
@[simp] theorem State.statSlice_blp (p slot n : Nat) : (s.statSlice p slot n).blp = s.blp := s.count_blp ..
@[simp] theorem State.statSlice_slices (p slot n : Nat) : (s.statSlice p slot n).slices = s.slices := s.count_slices ..
@[simp] theorem State.statSlice_therm (p slot n : Nat) : (s.statSlice p slot n).therm = s.therm := s.count_therm ..
@[simp] theorem State.statSlice_stk (p slot n : Nat) : (s.statSlice p slot n).stk = s.stk := s.count_stk ..
@[simp] theorem State.statSlice_det (p slot n : Nat) : (s.statSlice p slot n).det = s.det := s.count_det ..
@[simp] theorem State.statSlice_ring (p slot n : Nat) : (s.statSlice p slot n).ring = s.ring := s.count_ring ..
@[simp] theorem State.statSlice_wrap (p slot n : Nat) : (s.statSlice p slot n).wrap = s.wrap := s.count_wrap ..
@[simp] theorem State.statSlice_mem (p slot n : Nat) : (s.statSlice p slot n).mem = s.mem := s.count_mem ..

@[simp] theorem State.statChan_pending (c slot n : Nat) : (s.statChan c slot n).pending = s.pending := s.count_pending ..
@[simp] theorem State.statChan_sys (c slot n : Nat) : (s.statChan c slot n).sys = s.sys := s.count_sys ..
@[simp] theorem State.statChan_cfg (c slot n : Nat) : (s.statChan c slot n).cfg = s.cfg := s.count_cfg ..
@[simp] theorem State.statChan_mc (c slot n : Nat) : (s.statChan c slot n).mc = s.mc := s.count_mc ..
@[simp] theorem State.statChan_fab (c slot n : Nat) : (s.statChan c slot n).fab = s.fab := s.count_fab ..
@[simp] theorem State.statChan_ports (c slot n : Nat) : (s.statChan c slot n).ports = s.ports := s.count_ports ..
@[simp] theorem State.statChan_blp (c slot n : Nat) : (s.statChan c slot n).blp = s.blp := s.count_blp ..
@[simp] theorem State.statChan_slices (c slot n : Nat) : (s.statChan c slot n).slices = s.slices := s.count_slices ..
@[simp] theorem State.statChan_therm (c slot n : Nat) : (s.statChan c slot n).therm = s.therm := s.count_therm ..
@[simp] theorem State.statChan_stk (c slot n : Nat) : (s.statChan c slot n).stk = s.stk := s.count_stk ..
@[simp] theorem State.statChan_det (c slot n : Nat) : (s.statChan c slot n).det = s.det := s.count_det ..
@[simp] theorem State.statChan_ring (c slot n : Nat) : (s.statChan c slot n).ring = s.ring := s.count_ring ..
@[simp] theorem State.statChan_wrap (c slot n : Nat) : (s.statChan c slot n).wrap = s.wrap := s.count_wrap ..
@[simp] theorem State.statChan_mem (c slot n : Nat) : (s.statChan c slot n).mem = s.mem := s.count_mem ..

@[simp] theorem State.statMeter_pending (m i n : Nat) : (s.statMeter m i n).pending = s.pending := s.count_pending ..
@[simp] theorem State.statMeter_sys (m i n : Nat) : (s.statMeter m i n).sys = s.sys := s.count_sys ..
@[simp] theorem State.statMeter_cfg (m i n : Nat) : (s.statMeter m i n).cfg = s.cfg := s.count_cfg ..
@[simp] theorem State.statMeter_mc (m i n : Nat) : (s.statMeter m i n).mc = s.mc := s.count_mc ..
@[simp] theorem State.statMeter_fab (m i n : Nat) : (s.statMeter m i n).fab = s.fab := s.count_fab ..
@[simp] theorem State.statMeter_ports (m i n : Nat) : (s.statMeter m i n).ports = s.ports := s.count_ports ..
@[simp] theorem State.statMeter_blp (m i n : Nat) : (s.statMeter m i n).blp = s.blp := s.count_blp ..
@[simp] theorem State.statMeter_slices (m i n : Nat) : (s.statMeter m i n).slices = s.slices := s.count_slices ..
@[simp] theorem State.statMeter_therm (m i n : Nat) : (s.statMeter m i n).therm = s.therm := s.count_therm ..
@[simp] theorem State.statMeter_stk (m i n : Nat) : (s.statMeter m i n).stk = s.stk := s.count_stk ..
@[simp] theorem State.statMeter_det (m i n : Nat) : (s.statMeter m i n).det = s.det := s.count_det ..
@[simp] theorem State.statMeter_ring (m i n : Nat) : (s.statMeter m i n).ring = s.ring := s.count_ring ..
@[simp] theorem State.statMeter_wrap (m i n : Nat) : (s.statMeter m i n).wrap = s.wrap := s.count_wrap ..
@[simp] theorem State.statMeter_mem (m i n : Nat) : (s.statMeter m i n).mem = s.mem := s.count_mem ..

@[simp] theorem State.statSub_pending (k slot n : Nat) : (s.statSub k slot n).pending = s.pending := s.count_pending ..
@[simp] theorem State.statSub_sys (k slot n : Nat) : (s.statSub k slot n).sys = s.sys := s.count_sys ..
@[simp] theorem State.statSub_cfg (k slot n : Nat) : (s.statSub k slot n).cfg = s.cfg := s.count_cfg ..
@[simp] theorem State.statSub_mc (k slot n : Nat) : (s.statSub k slot n).mc = s.mc := s.count_mc ..
@[simp] theorem State.statSub_fab (k slot n : Nat) : (s.statSub k slot n).fab = s.fab := s.count_fab ..
@[simp] theorem State.statSub_ports (k slot n : Nat) : (s.statSub k slot n).ports = s.ports := s.count_ports ..
@[simp] theorem State.statSub_blp (k slot n : Nat) : (s.statSub k slot n).blp = s.blp := s.count_blp ..
@[simp] theorem State.statSub_slices (k slot n : Nat) : (s.statSub k slot n).slices = s.slices := s.count_slices ..
@[simp] theorem State.statSub_therm (k slot n : Nat) : (s.statSub k slot n).therm = s.therm := s.count_therm ..
@[simp] theorem State.statSub_stk (k slot n : Nat) : (s.statSub k slot n).stk = s.stk := s.count_stk ..
@[simp] theorem State.statSub_det (k slot n : Nat) : (s.statSub k slot n).det = s.det := s.count_det ..
@[simp] theorem State.statSub_ring (k slot n : Nat) : (s.statSub k slot n).ring = s.ring := s.count_ring ..
@[simp] theorem State.statSub_wrap (k slot n : Nat) : (s.statSub k slot n).wrap = s.wrap := s.count_wrap ..
@[simp] theorem State.statSub_mem (k slot n : Nat) : (s.statSub k slot n).mem = s.mem := s.count_mem ..

/-- Of the mailbox a count changes the causes alone. -/
theorem State.count_mbx (top : Nat) (e : Ev) (page slot n : Nat) :
    (s.count top e page slot n).mbx = { s.mbx with irq := (s.count top e page slot n).mbx.irq } := by
  unfold State.count
  dsimp only
  repeat' split
  all_goals first | rfl | exact State.event_mbx ..

/-- Of the control port a count changes the counters alone. -/
theorem State.count_ctl (top : Nat) (e : Ev) (page slot n : Nat) :
    (s.count top e page slot n).ctl = { s.ctl with tlm := (s.count top e page slot n).ctl.tlm } := by
  unfold State.count
  dsimp only
  repeat' split
  all_goals simp

/-- Below its top the counter rises by the count and nothing else happens (R773). -/
theorem State.count_room {s : State} {top : Nat} {page slot n : Nat} (h : (s.ctr page slot).v + n ≤ top) (e : Ev) :
    s.count top e page slot n = s.modCtl fun c =>
      { c with
        tlm := Tab.set Ctr.reset s.ctl.tlm (page * 128 + slot) { s.ctr page slot with v := (s.ctr page slot).v + n } } := by
  simp [State.count, State.modCtl, h]

/-! ### Frames -/

/-- A frame, part by part: each part is named or as before. -/
theorem Frame.of {ps : List Part} {s t : State} (hq : t.pending = s.pending) (h : ∀ p, p ∈ ps ∨ p.same s t) : Frame ps s t :=
  ⟨hq, fun p hp => (h p).resolve_left hp⟩

/-- A state frames itself. -/
theorem Frame.refl (ps : List Part) (s : State) : Frame ps s s := .of rfl fun p => .inr (by cases p <;> rfl)

/-- Frames compose. -/
theorem Frame.trans {ps : List Part} {s t u : State} (h1 : Frame ps s t) (h2 : Frame ps t u) : Frame ps s u := by
  refine ⟨h2.1.trans h1.1, fun p hp => ?_⟩
  have a := h1.2 p hp
  have b := h2.2 p hp
  cases p <;> exact Eq.trans b a

/-- A frame may name more. -/
theorem Frame.mono {ps qs : List Part} {s t : State} (h : Frame ps s t) (hs : ∀ p, p ∈ ps → p ∈ qs) : Frame qs s t :=
  ⟨h.1, fun p hp => h.2 p fun hq => hp (hs p hq)⟩

/-- A record touches the log and the causes. -/
theorem State.event_frame (e : Ev) (u d : Nat) : Frame [.evt, .mbx] s (s.event e u d) := by
  refine .of (by simp) fun p => ?_
  cases p <;> first | exact .inl (by decide) | exact .inr (by simp [Part.same])

/-- A count touches the counters, the log and the causes. -/
theorem State.count_frame (top : Nat) (e : Ev) (page slot n : Nat) : Frame [.ctl, .evt, .mbx] s (s.count top e page slot n) := by
  refine .of (by simp) fun p => ?_
  cases p <;> first | exact .inl (by decide) | exact .inr (by simp [Part.same])

/-- A loop whose turns keep a frame keeps it. -/
theorem State.each_frame {α : Type} {ps : List Part} {l : List α} {f : State → α → State}
    (h : ∀ s a, Frame ps s (f s a)) : Frame ps s (s.each l f) := by
  unfold State.each
  induction l generalizing s with
  | nil => exact Frame.refl ..
  | cons a l ih => exact (h s a).trans (ih _)

end Sys2Proof.Machine
end

