-- ==== Sys2Proof/WellFormed.lean ====
section
/-! DEFINITION. Which operands a command can carry: what an operand's type does not say and the spec does. Every command runs
on every operand; these bounds say which ones the surroundings of the block can drive. -/

namespace Sys2Proof

/-- Bonds that training can name are the 87 of R590. -/
def TrainOutcome.wf (o : TrainOutcome) : Bool :=
  (o.badBonds.all fun b => decide (b < 87)) && o.trims.all fun x => decide (x.1 < 91) && decide (x.2.toNat < 2 ^ 30)

/-- Slices, bonds, banks and queues that the in-service test can name (R9, R80, R928). -/
def IstOutcome.wf (o : IstOutcome) : Bool :=
  (o.lanes.all fun x => decide (x.1 < 144) && decide (x.2 < 87)) && (o.units.all fun x => decide (x.1 < 144) && decide (x.2 < 32)) &&
    (o.spares.all fun p => decide (p < 144)) && o.queues.all fun x => decide (x.1 < 10) && decide (x.2 < 256)

/-- An upset flips some bit of a copy of a pointer of a queue (R69, R80). -/
def IcqUpset.wf (u : IcqUpset) : Bool := decide (u.qindex.val < 144) && (u.flipA != 0 || u.flipB != 0)

/-- Sixteen layers, nine fuse maps each, one PHY sensor a slice, boot copies of at most 256 KiB (R9, R540, R698, R783). -/
def StartEnv.wf (e : StartEnv) : Bool :=
  e.layers.length == 16 && (e.layers.all fun l => l.fuses.all fun x => decide (x.1 < 9)) &&
    (e.train.all fun x => decide (x.1 < 144) && x.2.wf) && decide (e.phy.length ≤ 144) && (e.bootA.all fun l => decide (l.length ≤ 65536)) &&
    e.bootB.all fun l => decide (l.length ≤ 65536)

/-- Registers whose write is a row of its own: the doorbell, EVT_IRQ_STATUS and EVT_LOG_CMD (R753, R765, R768). -/
def ownRow (off : Nat) : Bool := off == 0x0104 || off == 0x0400 || off == 0x0410

/-- The operands of a command are ones that the surroundings can drive. -/
def Instr.wellFormed : Instr → Bool
  | .rd _ _ => true
  | .wr _ _ => true
  | .wrPartial _ _ => true
  | .acc _ _ => true
  | .fence _ _ => true
  | .gather _ _ => true
  | .brewLaunch _ _ => true
  | .brewAbort _ _ => true
  | .writeBulk _ => true
  | .accBulk _ => true
  | .readBulk _ => true
  | .writeDataBeat port data be => decide (port.val < 32) || (decide (data.toNat < 2 ^ 256) && decide (be.toNat < 2 ^ 32))
  | .inboundDataBeat _ => true
  | .rspCrd _ => true
  | .odataCrd => true
  | .cplCrd => true
  | .requestAdmit _ => true
  | .blpDescAdmit => true
  | .meterTest _ _ => true
  | .meterWheelEvent _ _ => true
  | .subBucketRefill _ => true
  | .channelPeriodStart => true
  | .channelFill _ => true
  | .queueSample => true
  | .channelSchedule _ => true
  | .refreshDue _ _ => true
  | .rdtThrottleEnd _ _ => true
  | .readDataReturn _ _ => true
  | .writeBufferEnter _ => true
  | .accPieceApply _ => true
  | .resealRow _ _ _ => true
  | .responseBeat _ => true
  | .outboundBeat _ => true
  | .blpCompletionRecord => true
  | .fenceComplete _ => true
  | .digestRecordDone _ => true
  | .gatherEngineStart => true
  | .gatherListRead _ => true
  | .gatherPageRead _ => true
  | .gatherBeat _ => true
  | .brewDispatchOp _ => true
  | .brewLaunchStart _ => true
  | .brewOpStart _ => true
  | .brewOpEnd _ => true
  | .brewPreempt _ => true
  | .brewResume _ => true
  | .brewLaunchCommit _ => true
  | .brewLaunchEnd _ => true
  | .scrubAccess _ => true
  | .scrubPassLate _ => true
  | .scrubCheck _ => true
  | .rowRepairAck _ => true
  | .rowRepairTimeout _ => true
  | .epUnitFault _ _ => true
  | .unitSub _ _ => true
  | .unitSubAck _ _ => true
  | .unitSubTimeout _ _ => true
  | .hkRoundStart => true
  | .hkEvaluation readings spare => readings.length == 336 && spare.length == 12
  | .thermGraceEnd => true
  | .zqCal _ => true
  | .fedBudgetTimer => true
  | .powerReport _ _ _ => true
  | .powerSetAck _ => true
  | .powerSetTimeout _ => true
  | .istCycle o => o.wf
  | .sliceMarchDone _ => true
  | .calPassStart _ => true
  | .calLane _ _ _ => true
  | .lsteerSwitch _ => true
  | .sbAlertN _ _ => true
  | .epCkLockLost _ => true
  | .readStrobeLost _ => true
  | .retrainEnd _ o => o.wf
  | .migStart _ => true
  | .migRowCopy _ => true
  | .rebindZeroingDone _ => true
  | .icqPtrUpset u => u.wf
  | .ident => true
  | .tlmClear => true
  | .sensorClear => true
  | .cfgCommit => true
  | .cfgStore => true
  | .cfgStoreTimeout => true
  | .regionRead => true
  | .rateSet => true
  | .detSet => true
  | .accFlush => true
  | .brewLoad => true
  | .reseal => true
  | .retrain => true
  | .calRun => true
  | .linkRead => true
  | .migrate => true
  | .rebind => true
  | .firnRead => true
  | .firnReadTimeout => true
  | .digestFence => true
  | .digestRegion => true
  | .lockstepRelease => true
  | .saveContext => true
  | .saveContextDrained => true
  | .saveContextTimeout => true
  | .restoreContext => true
  | .frostEnter => true
  | .frostDrained => true
  | .frostEnterTimeout => true
  | .mbxBadOpcode => true
  | .modechgCommit => true
  | .commitWindowEnd => true
  | .modechgPrepareTimeout => true
  | .alignArmed => true
  | .detSetDrainTimeout => true
  | .alignA0 => true
  | .alignAr => true
  | .alignTimeout => true
  | .kxPorNAssert => true
  | .kxPorNRelease e => e.wf
  | .zeroingDone => true
  | .kxRstNAssert => true
  | .kxRstNRelease => true
  | .kxWake _ => true
  | .thawRelease => true
  | .kxSubDownSet _ => true
  | .kxSubDownClear _ => true
  | .subDrained _ => true
  | .regWrite off _ => off.toNat % 4 == 0 && decide (off.toNat < 0x8000) && !ownRow off.toNat
  | .ltcLoRead => true
  | .tlmWord0Read _ => true
  | .evtLogNext => true
  | .evtLogRewind => true
  | .evtLogAck => true
  | .evtIrqClear mask => decide (mask.toNat < 32)
  | .kxInstPwrokChange _ => true
  | .kxAonRstN _ => true
  | .ringBypassOpen => true
  | .announceTimer => true
  | .announce _ cfg _ _ => decide (cfg.toNat < 64)
  | .memberExpiry _ => true
  | .image _ chunk _ => decide (chunk.toNat < 4096)
  | .prepare _ _ op _ _ => op == 0x10 || op == 0x20 || op == 0x21
  | .ack _ _ _ => true
  | .commit _ _ => true
  | .abort _ _ => true
  | .gangPrepareTimeout => true
  | .budget _ _ => true
  | .budgetTimer => true
  | .digest _ _ _ _ => true
  | .aggTimeout _ => true
  | .lsRecordFrame f => (f.toNat / 2 ^ 8) % 2 ^ 8 != 1
  | .lsHeartbeatFrame f => (f.toNat / 2 ^ 8) % 2 ^ 8 == 1
  | .lsHeartbeatTimer => true
  | .lsLinkTimeout => true
  | .wsBypass => true
  | .wsExtest _ => true
  | .wsIntest _ => true
  | .kxIdcode => true
  | .kxMbist => true
  | .mbistDone _ => true
  | .kxScan => true
  | .kxSliceTest _ => true
  | .unsupportedTypeRequest port typ _ => decide (8 ≤ typ.toNat) || (decide (32 ≤ port.val) && (typ == 3 || typ == 5 || typ == 6 || typ == 7))
  | .reservedOpDescriptor _ => true
  | .cfgStoreDone _ => true
  | .firnReadAnswer _ rows => rows.length == 32
  | .lsFrameSent => true
  | .ringFramePass f => !f.isEmpty

end Sys2Proof
end

