-- ==== Sys2Proof/Tests/Slice0.lean ====
section
/-! SUPPORT. Tests of the model on small states: operands that the well-formedness check refuses, and for each statement of
Certificates/Slice0/Obligations.lean a witness that meets its hypotheses, clause by clause. The expected values of the
`test_` theorems come from the spec's text and tables. -/

namespace Sys2Proof.Tests

open Sys2Proof Sys2Proof.Machine

set_option Elab.async false

/-! ### States to test on -/

/-- READY and RUNNING, with the LTC at 1,000. -/
def live : State :=
  { State.reset with sys := { Sys.reset with porN := true, phase := .running, ready := true, everReady := true, ltc := 1000 } }

/-- `live` with one port. -/
def onPort (k : Nat) (p : Port) : State := { live with ports := [(k, p)] }

/-- A slice in service, its bundle ACTIVE, out of self-refresh, refreshing. -/
def sliceUp : Slice :=
  { Slice.reset with
    link := { Link.reset with state := .active, cke := true }
    rf := { Refr.reset with selfRef := false, refOn := true } }

/-- `live` with one slice. -/
def onSlice (p : Nat) (x : Slice) : State := { live with slices := [(p, x)] }

/-- `live` with this fabric. -/
def onFab (f : Fab) : State := { live with fab := f }

/-- A read of 64 B at address 0 with the tag given, service RD. -/
def word (tag : Nat) : Request := { Request.zero with tag := BitVec.ofNat 8 tag, service := 1, slack := 0xFFFF }

/-- A doorbell waits with this opcode and these argument words. -/
def rung (op : Nat) (args : Tab Word) (s : State) : State :=
  { s with mbx := { s.mbx with cmd := BitVec.ofNat 32 op, args := args } }

/-! ### Operands that the check refuses -/

theorem test_wf_narrow_data : (Instr.writeDataBeat 35 (2 ^ 256) 0).wellFormed = false ∧
    (Instr.writeDataBeat 35 0 (2 ^ 32)).wellFormed = false ∧ (Instr.writeDataBeat 31 (2 ^ 256) (2 ^ 32)).wellFormed = true := by
  decide +kernel

theorem test_wf_train_bond : (Instr.retrainEnd 0 ⟨[87], false, []⟩).wellFormed = false ∧
    (Instr.retrainEnd 0 ⟨[86], false, []⟩).wellFormed = true := by decide

theorem test_wf_train_trim : (Instr.retrainEnd 0 ⟨[], false, [(91, 0)]⟩).wellFormed = false ∧
    (Instr.retrainEnd 0 ⟨[], false, [(90, 2 ^ 30)]⟩).wellFormed = false ∧
    (Instr.retrainEnd 0 ⟨[], false, [(90, 0x3FFFFFFF)]⟩).wellFormed = true := by decide

theorem test_wf_ist : (Instr.istCycle ⟨[(144, 0)], [], [], []⟩).wellFormed = false ∧
    (Instr.istCycle ⟨[(0, 87)], [], [], []⟩).wellFormed = false ∧ (Instr.istCycle ⟨[], [(0, 32)], [], []⟩).wellFormed = false ∧
    (Instr.istCycle ⟨[], [], [144], []⟩).wellFormed = false ∧ (Instr.istCycle ⟨[], [], [], [(10, 0)]⟩).wellFormed = false ∧
    (Instr.istCycle ⟨[(143, 86)], [(143, 31)], [143], [(9, 0)]⟩).wellFormed = true := by decide

theorem test_wf_icq : (Instr.icqPtrUpset ⟨0, 0, 0, 0, 0, [], 0⟩).wellFormed = false ∧
    (Instr.icqPtrUpset ⟨0, 144, 0, 1, 0, [], 0⟩).wellFormed = false ∧
    (Instr.icqPtrUpset ⟨0, 143, 3, 0x200, 0, [], 0⟩).wellFormed = true := by decide

theorem test_wf_evaluation : (Instr.hkEvaluation [] (List.replicate 12 0)).wellFormed = false ∧
    (Instr.hkEvaluation (List.replicate 336 0) []).wellFormed = false ∧
    (Instr.hkEvaluation (List.replicate 336 0) (List.replicate 12 0)).wellFormed = true := by decide +kernel

theorem test_wf_register : (Instr.regWrite 0x0102 0).wellFormed = false ∧ (Instr.regWrite 0x8000 0).wellFormed = false ∧
    (Instr.regWrite 0x0104 0).wellFormed = false ∧ (Instr.regWrite 0x0400 0).wellFormed = false ∧
    (Instr.regWrite 0x0410 0).wellFormed = false ∧ (Instr.regWrite 0x0404 0).wellFormed = true := by decide

theorem test_wf_irq_clear : (Instr.evtIrqClear 32).wellFormed = false ∧ (Instr.evtIrqClear 31).wellFormed = true := by decide

theorem test_wf_ring : (Instr.announce 0 64 0 0).wellFormed = false ∧ (Instr.image 0 4096 0).wellFormed = false ∧
    (Instr.prepare 0 0 0x11 0 0).wellFormed = false ∧ (Instr.ringFramePass []).wellFormed = false ∧
    (Instr.prepare 0 0 0x21 0 0).wellFormed = true := by decide

theorem test_wf_lockstep : (Instr.lsRecordFrame 0x0100).wellFormed = false ∧ (Instr.lsHeartbeatFrame 0).wellFormed = false ∧
    (Instr.lsHeartbeatFrame 0x0100).wellFormed = true ∧ (Instr.lsRecordFrame 0x0200).wellFormed = true := by decide +kernel

theorem test_wf_unsupported : (Instr.unsupportedTypeRequest 31 7 Request.zero).wellFormed = false ∧
    (Instr.unsupportedTypeRequest 32 4 Request.zero).wellFormed = false ∧
    (Instr.unsupportedTypeRequest 32 3 Request.zero).wellFormed = true ∧
    (Instr.unsupportedTypeRequest 0 8 Request.zero).wellFormed = true := by decide

theorem test_wf_firn : (Instr.firnReadAnswer 0 []).wellFormed = false ∧
    (Instr.firnReadAnswer 0 (List.replicate 32 0)).wellFormed = true := by decide

/-- The surroundings at start-up, with 16 layers that do not answer. -/
def startEnv : StartEnv :=
  ⟨false, none, none, List.replicate 16 ⟨false, 0, []⟩, [], [], 0, 0, true⟩

theorem test_wf_start : (Instr.kxPorNRelease startEnv).wellFormed = true ∧
    (Instr.kxPorNRelease { startEnv with layers := [] }).wellFormed = false ∧
    (Instr.kxPorNRelease { startEnv with layers := List.replicate 16 ⟨false, 0, [(9, [])]⟩ }).wellFormed = false ∧
    (Instr.kxPorNRelease { startEnv with train := [(144, ⟨[], false, []⟩)] }).wellFormed = false ∧
    (Instr.kxPorNRelease { startEnv with train := [(0, ⟨[87], false, []⟩)] }).wellFormed = false ∧
    (Instr.kxPorNRelease { startEnv with phy := List.replicate 145 0 }).wellFormed = false := by decide +kernel

theorem test_wf_boot_copies :
    (Instr.kxPorNRelease { startEnv with bootA := some (List.replicate 65537 0) }).wellFormed = false ∧
    (Instr.kxPorNRelease { startEnv with bootB := some (List.replicate 65537 0) }).wellFormed = false := by decide +kernel

/-! ### The machine as a whole, and the ports -/

theorem live_canon : live.Canon := by unfold State.Canon; decide +kernel

theorem witness_NoCommandStops : State.reset.Canon ∧ ∃ t, step State.reset = .next t :=
  ⟨by unfold State.Canon; decide, _, rfl⟩

theorem witness_IdleStepTicks : State.reset.pending = [] ∧ State.reset.sys.porN = false ∧ live.pending = [] ∧
    live.sys.porN = true ∧ live.mbx.starts = none ∧ live.mbx.run = none ∧ live.mbx.pending = [] ∧ live.mc = none ∧
    live.ring.gang = none ∧ live.Canon ∧ live.det.mode ≠ .timing ∧ 1 ≤ live.sys.fabLag ∧ live.sys.fabLag ≤ 3 ∧ live.sys.fabHeld = false ∧
    ({ live with sys := { live.sys with fabLag := 2, fabHeld := true } } : State).sys.fabHeld = true ∧ 1 ≤ (live.slice 143).lag ∧ (live.slice 143).lag ≤ 3 ∧
    ((onSlice 0 { sliceUp with lagHeld := true }).slice 0).lagHeld = true := by unfold State.Canon; decide +kernel

theorem witness_RequestAccepted : portWord (.rd 0 (word 1)) = some (0, 0, word 1) ∧
    portWord (.unsupportedTypeRequest 35 7 (word 1)) = some (35, 7, word 1) ∧
    (onPort 0 { Port.reset with reqCrd := 1 }).Canon ∧ (onPort 0 { Port.reset with reqCrd := 1 }).portsLive = true ∧
    (onPort 0 { Port.reset with reqCrd := 1 }).isMasked 0 = false ∧
    ((onPort 0 { Port.reset with reqCrd := 1 }).port 0).reqCrd ≠ 0 := by unfold State.Canon; decide +kernel

/-- The request word of an RD of LEN 3 with TAG 0x5A, SERVICE 1, COLOUR 2, SLACK 0x1234 and address 0x0123456789, and the descriptor of
a READ_BULK, by the bit positions of R92 and R144. -/
theorem test_request_word :
    portCommand 35 (BitVec.ofNat 128 (0x5A + 1 * 2 ^ 12 + 2 * 2 ^ 15 + 3 * 2 ^ 21 + 0x1234 * 2 ^ 32 + 0x0123456789 * 2 ^ 48)) =
      .rd 35 { Request.zero with tag := 0x5A, service := 1, colour := 2, len := 3, slack := 0x1234, addr := 0x0123456789 } ∧
    portCommand 35 (BitVec.ofNat 128 (7 * 2 ^ 8)) = .unsupportedTypeRequest 35 7 Request.zero ∧
    portCommand 31 (BitVec.ofNat 128 (7 * 2 ^ 8 + 9 * 2 ^ 88)) = .brewAbort 31 { Request.zero with abortTag := 9 } ∧
    blpCommand (BitVec.ofNat 256 (7 + 1 * 2 ^ 16 + 2 * 2 ^ 32 + 0x40 * 2 ^ 64 + 4096 * 2 ^ 128)) =
      .readBulk { Desc.zero with descId := 7, srcChip := 1, addr := 0x40, len := 4096 } := by decide +kernel

theorem witness_RequestRefused : portWord (.brewAbort 31 (word 1)) = some (31, 7, word 1) ∧ State.reset.portsLive = false ∧
    live.portsLive = true ∧ live.isMasked 31 = false ∧ (live.port 31).reqCrd = 0 ∧
    (onFab { Fab.reset with masked := [31] }).isMasked 31 = true := by decide +kernel

/-- A descriptor of one byte. -/
def desc1 : Desc := ⟨7, 1, false, 0, 0, 0, 0, 0, 1, 0⟩

/-- `live` with BLP credits. -/
def blpLive : State := { live with blp := { Blp.reset with descCrd := 8, idataCrd := 1, odataCrd := 1, cplCrd := 1 } }

theorem witness_DescriptorAccepted : blpWord (.writeBulk desc1) = some (0, desc1) ∧
    blpWord (.reservedOpDescriptor desc1) = some (3, desc1) ∧ blpLive.portsLive = true ∧ blpLive.isMasked 36 = false ∧
    blpLive.blp.descCrd ≠ 0 := by decide +kernel

theorem witness_CreditReturned : live.portsLive = true ∧ live.isMasked 0 = false ∧ live.isMasked 35 = false ∧
    live.isMasked 36 = false := by decide +kernel

theorem witness_DataBeatTaken : let s := onPort 0 { Port.reset with wdCrd := 1 }
    let u := onPort 35 { Port.reset with wdCrd := 1, owed := [⟨0, 2, false⟩] }
    let b := { blpLive with blp := { blpLive.blp with owed := [⟨0, 1, false⟩] } }
    s.Canon ∧ s.portsLive = true ∧ s.isMasked 0 = false ∧ (s.port 0).wdCrd ≠ 0 ∧ (s.port 0).owed = [] ∧
    (s.fab.trk.any fun e => e.sub == 0) = false ∧ s.fab.ghost = [] ∧ u.fab.ghost = [] ∧ b.fab.ghost = [] ∧ u.crossTime 5 = 0 ∧
    ({ b with det := { b.det with mode := .timing } } : State).crossTime 5 ≠ 0 ∧
    u.Canon ∧ u.portsLive = true ∧ u.isMasked 35 = false ∧ (u.port 35).wdCrd ≠ 0 ∧ (u.port 35).early = [] ∧
    (u.port 35).owed = [⟨0, 2, false⟩] ∧ (u.fab.trk.any fun e => e.sub == 35) = false ∧
    b.Canon ∧ b.portsLive = true ∧ b.isMasked 36 = false ∧ b.blp.idataCrd ≠ 0 ∧ b.blp.owed = [⟨0, 1, false⟩] ∧
    (b.fab.trk.any fun e => e.sub == 36) = false := by unfold State.Canon; decide +kernel

/-! ### Admission -/

/-- A PLAIN region of 512 KiB at address 0 on channel 28. -/
def plain : BitVec 256 := 0x0000000000000000000000001000000000008000000000000007000000010001

/-- `live` with one region and the default channel map. -/
def mapped : State := { live with
  cfg := { live.cfg with regions := [plain] }
  stk := { live.stk with remap := (List.range 128).map fun c => ⟨9 * (c / 8) + c % 8, 0, .bound, 0⟩ } }

/-- A word of the TYPE given at the front of port 0. -/
def queued (kind : Nat) (dup : Bool) (r : Request) : State :=
  { mapped with ports := [(0, { Port.reset with inq := [⟨kind, r, 990, 0, dup⟩] })] }

theorem witness_RequestAdmitted_reject : let s := queued 0 false { word 1 with rsvLo := 1 }
    let q : InReq := ⟨0, { word 1 with rsvLo := 1 }, 990, 0, false⟩
    s.Canon ∧ s.portsLive = true ∧ s.isMasked 0 = false ∧ s.admHeld 0 = false ∧ (s.port 0).inq = [q] ∧
    s.fab.freeSlot 0 = some false ∧ (s.port 0).descHere q = true ∧
    s.checkRequest 0 q (((s.port 0).beatsOf q.ord).headD ⟨0, 0⟩).data = .inl ⟨.badreq, eBadarg⟩ ∧
    s.fab.entry s.fab.nextId = none ∧ s.fab.staleBad = [] ∧
    ¬ (q.kind = 5 ∧ isTile 0 = true ∧ 32 ≤ s.fab.fq.length) ∧ ¬ (q.kind = 6 ∧ isTile 0 = true ∧ 64 ≤ s.fab.launches.length) ∧
    (queued 0 true (word 1)).admHeld 0 = false ∧ ((queued 0 true (word 1)).port 0).inq = [⟨0, word 1, 990, 0, true⟩] := by
  unfold State.Canon; decide +kernel

theorem witness_RequestAdmitted_accept : let s := queued 0 false (word 1)
    let q : InReq := ⟨0, word 1, 990, 0, false⟩
    let f := queued 4 false { Request.zero with tag := 1 }
    let p : InReq := ⟨4, { Request.zero with tag := 1 }, 990, 0, false⟩
    s.Canon ∧ s.admHeld 0 = false ∧ s.fab.freeSlot 0 = some false ∧ (s.port 0).descHere q = true ∧
    s.fab.entry s.fab.nextId = none ∧
    (match s.checkRequest 0 q (((s.port 0).beatsOf q.ord).headD ⟨0, 0⟩).data with
      | .inl _ => false
      | .inr x => !x.2.isEmpty && x.2.all fun a => !a.scale && a.st.isNone) = true ∧
    f.fab.freeSlot 0 = some false ∧ (f.port 0).descHere p = true ∧
    (match f.checkRequest 0 p (((f.port 0).beatsOf p.ord).headD ⟨0, 0⟩).data with
      | .inl _ => false
      | .inr _ => true) = true := by unfold State.Canon; decide +kernel

theorem witness_RequestChecks : let l := { mapped with therm := { mapped.therm with latch := true } }
    reqReserved 0 0 { word 1 with rsvLo := 1 } 0 = true ∧ reqReserved 0 8 (word 1) 0 = false ∧ isTile 0 = true ∧
    reqReserved 35 3 (word 1) 0 = false ∧ unsupportedType 35 3 = true ∧ isTile 35 = false ∧
    unsupportedType 0 0 = false ∧ fieldsBad 0 (word 1) = false ∧ l.rangeBad 0 0 (word 1) 0 = false ∧ l.therm.latch = true := by
  decide +kernel

theorem witness_DescriptorAdmitted : let s := { mapped with blp := { Blp.reset with dq := [⟨2, { desc1 with len := 4096 }, 990, 0, 0⟩] } }
    let bad := { mapped with blp := { Blp.reset with dq := [⟨3, desc1, 990, 0, 1000⟩] } }
    s.portsLive = true ∧ s.isMasked 36 = false ∧ s.admHeld 36 = false ∧ s.blp.flight.length < 64 ∧
    s.fab.freeSlot 36 = some false ∧ s.fab.entry s.fab.nextId = none ∧ s.fab.staleBad = [] ∧ 1000 ≤ bad.sys.ltc ∧
    (match s.checkDesc 2 { desc1 with len := 4096 } with | .inl _ => false | .inr _ => true) = true ∧
    (match bad.checkDesc 3 desc1 with | .inl _ => true | .inr _ => false) = true := by decide +kernel

/-! ### Shaping and the channel -/

/-- A piece of a read of port 0 on channel 28, slice 31. -/
def piece : Piece := { Piece.reset with eid := 1, chan := 28, keys := [keyOf 31 0 0 0], write := .read }

/-- A head of meter queue (0, 1), in or out of a hold. -/
def head (charge : Nat) (red held : Bool) : Shaped := ⟨1, 0, 1, .green, charge, 2000, held, red, [piece]⟩

/-- `mapped` with that head queued. -/
def shaped (h : Shaped) : State := { mapped with fab := { Fab.reset with mq := [h] } }

/-- `shaped` with meter 1 as given. -/
def metered (h : Shaped) (x : Meter) : State :=
  { mapped with fab := { Fab.reset with mq := [h], meters := [(1, { x with vt := 1000 })] } }

theorem witness_MeterTested_passed : let s := shaped (head 64 false false)
    let x : Meter := { Meter.reset with cir := 3, pir := 3, cbs := 1, pbs := 1, tp := 64 }
    let g := metered (head 64 false false) { x with tc := 64 }
    let y := metered (head 64 false false) { x with tc := 0 }
    let h (s : State) : Meter := ((s.settleMeter 1).settleBucket 0).fab.meter 1
    let b (s : State) : Bucket := ((s.settleMeter 1).settleBucket 0).fab.bucket 0
    s.portsLive = true ∧ s.fab.mqHead 0 1 = some (head 64 false false) ∧ s.isMasked 0 = false ∧ s.onItsWay 1 = false ∧
    (head 64 false false).charge ≠ 0 ∧ (h s).pir = unlimited ∧ (b s).rate = unlimited ∧
    g.fab.mqHead 0 1 = some (head 64 false false) ∧ (h g).pir ≠ unlimited ∧ (h g).cir ≠ unlimited ∧ (h g).mode = 0 ∧
    ¬ (h g).tp < (min 64 ((h g).pbs * 64) : Nat) ∧ ¬ (h g).tc < (min 64 ((h g).cbs * 64) : Nat) ∧
    ¬ (h y).tp < (min 64 ((h y).pbs * 64) : Nat) ∧ (h y).tc < (min 64 ((h y).cbs * 64) : Nat) := by decide +kernel

theorem witness_MeterTested_held :
    let x : Meter := { Meter.reset with cir := 3, pir := 3, cbs := 1, pbs := 1 }
    let u := metered (head 64 false false) x
    let u1 := (u.settleMeter 1).settleBucket 0
    let v : State := { mapped with fab := { Fab.reset with
      mq := [head 64 false false], buckets := [(0, { Bucket.reset with rate := 1, burst := 1, ts := 0, vt := 1000 })] } }
    let v1 := (v.settleMeter 1).settleBucket 0
    let m : State := { shaped (head 64 true false) with fab := { (shaped (head 64 true false)).fab with masked := [0] } }
    u.fab.mqHead 0 1 = some (head 64 false false) ∧ u.isMasked 0 = false ∧ (u1.fab.meter 1).pir ≠ unlimited ∧
    (u1.fab.meter 1).mode = 0 ∧ (u1.fab.meter 1).tp < (min 64 ((u1.fab.meter 1).pbs * 64) : Nat) ∧
    v.fab.mqHead 0 1 = some (head 64 false false) ∧ (v1.fab.meter 1).pir = unlimited ∧ (v1.fab.bucket 0).rate ≠ unlimited ∧
    (v1.fab.bucket 0).ts < (min 64 ((v1.fab.bucket 0).burst * 64) : Nat) ∧
    m.isMasked 0 = true ∧ m.fab.mqHead 0 1 = some (head 64 true false) ∧ m.onItsWay 1 = false ∧ m.portsLive = true ∧
    (shaped (head 0 false false)).fab.mqHead 0 1 = some (head 0 false false) ∧
    (shaped (head 64 true false)).fab.mqHead 0 1 = some (head 64 true false) ∧
    (shaped (head 64 false true)).fab.mqHead 0 1 = some (head 64 false true) := by decide +kernel

theorem witness_MeterTested_wheel :
    let x : Meter := { Meter.reset with cir := 3, pir := 3, cbs := 1, pbs := 1 }
    let w (charge : Nat) : State := metered (head charge true false) { x with slot := some 900 }
    let late := metered (head 64 true false) { x with slot := some 2000 }
    (w 0).portsLive = true ∧ (w 0).fab.mqHead 0 1 = some (head 0 true false) ∧ ((w 0).fab.meter 1).slot = some 900 ∧
    900 ≤ (w 0).fabView ∧ (w 0).isMasked 0 = false ∧ (w 64).fab.mqHead 0 1 = some (head 64 true false) ∧
    ((w 64).fab.meter 1).slot = some 900 ∧ 900 ≤ (w 64).fabView ∧ (w 64).isMasked 0 = false ∧
    (late.fab.meter 1).slot = some 2000 ∧ late.fabView < 2000 ∧ late.fab.mqHead 0 1 = some (head 64 true false) ∧
    (late.meterChanged 1 (late.fab.meter 1) = false ∨ late.refillsDue 1 (late.fab.meter 1).vt = 0) ∧
    ({ w 64 with fab := { (w 64).fab with masked := [0] } } : State).isMasked 0 = true := by decide +kernel

theorem witness_ShapingPeriods :
    let b (x : Bucket) : State := onFab { Fab.reset with buckets := [(47, x)] }
    let early := b { Bucket.reset with vt := 1000, slot := some 2000 }
    let due := b { Bucket.reset with vt := 1000, slot := some 900 }
    let new := b { Bucket.reset with rate := 1, slot := some 2000 }
    live.portsLive = true ∧ (live.fab.bucket 47).slot = none ∧
    early.portsLive = true ∧ (early.fab.bucket 47).slot = some 2000 ∧ early.fabView < 2000 ∧
    early.refillsDue 47 (early.fab.bucket 47).vt = 0 ∧ due.portsLive = true ∧ (due.fab.bucket 47).slot = some 900 ∧
    900 ≤ due.fabView ∧ (due.fab.bucket 47).frozen = false ∧ due.fab.mq = [] ∧ Tab.wf Bucket.reset due.fab.buckets = true ∧
    (new.fab.bucket 47).slot = some 2000 ∧ new.fabView < 2000 ∧ new.bucketChanged 47 (new.fab.bucket 47) = true ∧
    new.refillsDue 47 (new.fab.bucket 47).vt ≠ 0 ∧ (new.fab.bucket 47).frozen = false ∧ live.periodP ≠ 0 ∧
    live.refillNow / live.periodP * live.periodP ≠ live.fab.period ∧ live.refillNow / 400 * 400 ≠ live.fab.sampled := by
  decide +kernel

/-- `mapped` with the piece at the head of its channel queue, and slice 31 in service. -/
def queuedPiece : State := { mapped with fab := { Fab.reset with cq := [piece] }, slices := [(31, sliceUp)] }

theorem witness_ChannelFilled : let s := queuedPiece
    s.Canon ∧ s.portsLive = true ∧ (s.stk.remapAt 28).st = .bound ∧ (s.slice (s.stk.remapAt 28).ps).sch.waiting = [] ∧
    s.heads 28 = [piece] ∧ (s.slice 31).dat.fcq = [] ∧ (s.slice 31).sch.window ++ (s.slice 31).sch.narrowSlot = [] ∧
    s.resealWaits 31 = none ∧ s.headReady piece = true ∧ s.freeKeys piece = piece.keys ∧ s.icqCredit 0 31 = true ∧ piece.chan = 28 ∧ piece.sub < 32 ∧ piece.write = .read ∧
    (s.fab.thOn.contains 28) = false ∧
    s.underShare 28 piece.sub 8 9 = true ∧ (∀ k ∈ piece.keys, keyPs k = 31) ∧ s.pieceSlot piece = some false := by
  unfold State.Canon; decide +kernel

/-- A window entry that reads access `(0, 5, 0)` of slice 31. -/
def winEnt : WinEnt := { WinEnt.reset with eid := 1, colour := .green, use := .port, keys := [keyOf 31 0 5 0] }

theorem witness_ChannelScheduled_read :
    let x : Slice := { sliceUp with
      sch := { Sched.reset with rowTaken := true, cls := false, window := [winEnt] }
      bt := { BankSet.reset with banks := [(0, { BankT.reset with openRow := some 5 })] } }
    let s := { mapped with slices := [(31, x)] }
    s.Canon ∧ s.islandRuns 31 = true ∧ s.sliceLive 31 = true ∧ 0 < s.wrHi ∧ yields winEnt.sub = false ∧
    s.accReady 31 winEnt (keyOf 31 0 5 0) = true ∧ (x.bt.bank 0).loan = false ∧ (x.bt.bank 0).openRow = some 5 ∧
    x.bt.colOk 0 0 = true ∧ x.bt.okRd ≤ 0 ∧ s.refUrgent 31 0 = false ∧ x.brew.cur = none ∧ x.dat.wb = [] ∧ x.dat.fow = [] ∧
    x.dat.lines = [] ∧ x.scr.cmps = [] ∧ x.dat.fcq = [] ∧ winEnt.word = false ∧ winEnt.colour = .green ∧ x.sch.grant = none ∧ s.returnDue 31 = false ∧ x.sch.held = 0 ∧ x.sch.narrowSlot = [] ∧ x.sch.wrPhase = false ∧
    x.brew.op = none ∧ x.rep.repWait = [] ∧ winEnt.vis ≤ s.sys.ltc ∧ winEnt.use = .port ∧ winEnt.sub ≠ 36 ∧ winEnt.sub ≠ 42 := by unfold State.Canon; decide +kernel

theorem witness_ChannelScheduled_refresh :
    let x : Slice := { sliceUp with
      sch := { Sched.reset with held := 1 }
      rf := { sliceUp.rf with rbanks := [(31, { RefBank.reset with owed := 9, ptr := 8191 })] } }
    let s := { mapped with slices := [(31, x)] }
    s.Canon ∧ s.islandRuns 31 = true ∧ s.sliceLive 31 = true ∧ x.sch.rowTaken = false ∧ x.sch.held ≠ 0 ∧ x.dat.fcq = [] ∧
    x.sch.window ++ x.sch.narrowSlot = [] ∧
    x.rf.order ((List.range 32).filter fun j => s.refUrgent 31 j && !(x.bt.bank j).loan) = some 31 ∧
    (x.bt.bank 31).openRow = none ∧ x.bt.actOk 31 0 = true ∧ s.returnDue 31 = false := by unfold State.Canon; decide +kernel

theorem witness_RefreshFallsDue : let s := onSlice 142 { sliceUp with rf := { sliceUp.rf with
      rbanks := [(31, { RefBank.reset with acc := 25000, t0 := 1000 })] } }
    s.islandRuns 142 = true ∧ (s.slice 142).rf.refOn = true ∧ (s.slice 142).rf.selfRef = false ∧
    ({ sliceUp.rf with selfRef := true } : Refr).selfRef = true ∧ s.dueAcc 142 0 < 25000 ∧ 25000 ≤ s.dueAcc 142 31 ∧
    s.view (s.stk.remapAt 127).ps < 2000 ∧ 500 ≠ 0 ∧ 500 ≤ s.view (s.stk.remapAt 127).ps ∧
    Tab.get 0 (onFab { Fab.reset with thrEnd := [(36 * 128 + 127, 500)] }).fab.thrEnd (36 * 128 + 127) = 500 := by
  decide +kernel

/-- The flight of a read of slice 31. -/
def flightOf (code : Code) (raw : Bool) : Flight := { Flight.reset with eid := 1, use := .port, code := code, raw := raw }

/-- `mapped` with that flight and the entry it is for. -/
def flying (f : Flight) (e : Entry) : State :=
  { mapped with
    fab := { Fab.reset with trk := [e], nextId := 2 }
    slices := [(31, { sliceUp with sch := { Sched.reset with flight := [f] } })] }

/-- Entry 1, a read of port 0. -/
def readEntry : Entry := { Entry.reset with
  id := 1, kind := .rd, rent := plain, accs := [{ Acc.reset with chan := 28, ps := 31 }] }

theorem witness_ReadReturned : let s := flying (flightOf 0 false) readEntry
    let u := flying (flightOf 0 true) readEntry
    let r := rsDecode 0 (s.linkOf 31 (flightOf 0 false)).erasures
    let away : Link := { sliceUp.link with again := [⟨true, 0, 0⟩] }
    s.Canon ∧ s.islandRuns 31 = true ∧ (s.slice 31).link.lacks (flightOf 0 false) = false ∧
    (u.slice 31).link.lacks (flightOf 0 true) = false ∧ away.lacks (flightOf 0 false) = true ∧
    s.fab.entry 1 = some readEntry ∧ r.ue = false ∧ r.changed = [] ∧ r.unknown = [] ∧
    rRounded readEntry.rent = false ∧ ((readEntry.accAt (keyOf 31 0 0 0)).getD Acc.reset).scale = false ∧
    readEntry.kind = .rd ∧ readEntry.fin = none ∧ readEntry.sub < 32 ∧ s.det.mode ≠ .timing ∧
    (s.slice 31).sch.flight = [flightOf 0 false] ∧
    ({ s with det := { s.det with mode := .timing }, slices := [(31, { s.slice 31 with
      sch := { (s.slice 31).sch with cclk := (s.slice 31).bt.rl + 6 } })] } : State).returnDue 31 = true ∧
    u.Canon ∧ u.islandRuns 31 = true ∧ (u.slice 31).sch.flight = [flightOf 0 true] ∧ u.fab.entry 1 = some readEntry := by
  unfold State.Canon; decide +kernel

/-- A write access of slice 31 that waits for the write buffer. -/
def wrItem (acc : Bool) : WrItem := { WrItem.reset with eid := 1, acc := acc, fetched := true }

/-- `mapped` with it read out of the island's queue. -/
def writing (x : WrItem) (ls : List AccLine) : State :=
  { mapped with
    fab := { Fab.reset with trk := [{ readEntry with kind := if x.acc then .acc else .wr }], nextId := 2 }
    slices := [(31, { sliceUp with dat := { ChData.reset with unit := [x], lines := ls } })] }

theorem witness_WriteBufferEntered : let s := writing (wrItem false) []
    s.Canon ∧ s.islandRuns 31 = true ∧ (s.slice 31).sch.held = 0 ∧ s.nextWrite 31 = some (wrItem false) ∧
    (s.slice 31).dat.lines = [] ∧ (s.slice 31).dat.fill = [] := by unfold State.Canon; decide +kernel

theorem witness_AccumulationApplied : let s := writing (wrItem true) []
    let l : AccLine := ⟨0, 0, 0, 0, 0, 0, 0, none, false⟩
    let u := writing (wrItem true) [l]
    s.Canon ∧ s.islandRuns 31 = true ∧ (s.slice 31).sch.held = 0 ∧ s.nextAcc 31 = some (wrItem true, none) ∧
    u.Canon ∧ u.nextAcc 31 = some (wrItem true, some l) ∧
    (u.slice 31).dat.fill = [] ∧ (s.slice 31).sch.waiting = [] := by unfold State.Canon; decide +kernel

theorem witness_RowResealed :
    let s : State := { mapped with
      fab := { Fab.reset with
        trk := [{ readEntry with accs := [{ Acc.reset with chan := 28, ps := 31, row := 5, stale := true }] }]
        stale := [28 * 32 * 16384 + 5] }
      slices := [(31, { sliceUp with sch := { Sched.reset with window := [winEnt] } })] }
    s.Canon ∧ s.mbx.run = none ∧ s.stk.sliceOf 28 5 = some 31 ∧ s.sliceLive 31 = true ∧ (s.slice 31).sch.held = 0 ∧
    s.stk.chanOf 31 = some 28 ∧
    s.fab.isStale 28 0 5 = true ∧ s.resealFor 31 (fun k => keyBank k == 0 && keyRow k == 5) = some winEnt ∧
    s.resealSlot 31 (some winEnt) = true ∧ ((s.slice 31).bt.bank 0).loan = false ∧ s.launchActive 28 0 = false ∧ (s.slice 31).dat.fow = [] ∧
    (s.slice 31).dat.wb.length ≤ 32 ∧ s.rowInRepair (keyOf 31 0 5 0) = false ∧ s.workSpaced 31 0 5 = false ∧
    s.fab.staleBad = [] := by unfold State.Canon; decide +kernel

/-! ### What the controller drives back -/

/-- `mapped` with one tracker entry and a port with a response credit. -/
def answering (k : Nat) (e : Entry) (masked : List Nat) : State := { mapped with
  fab := { Fab.reset with trk := [e], nextId := 2, masked := masked }
  ports := [(k, { Port.reset with rspCrd := 2, rspGrant := 2 })] }

/-- A rejected request. -/
def rejected (k : Nat) : Entry := { readEntry with sub := k, fin := some ⟨.badreq, eBadarg⟩ }

theorem witness_ResponseDriven_header : let s := answering 35 (rejected 35) []
    s.Canon ∧ s.portsLive = true ∧ s.nextRsp 35 = some (rejected 35) ∧ s.isMasked 35 = false ∧ (s.port 35).rspCrd ≠ 0 ∧
    (rejected 35).headerAnswer = some ⟨.badreq, eBadarg⟩ ∧ (answering 0 (rejected 0) [0]).Canon ∧
    (answering 0 (rejected 0) [0]).nextRsp 0 = some (rejected 0) ∧ (answering 0 (rejected 0) [0]).isMasked 0 = true ∧
    (rejected 0).answerable 1000 = true ∧ (rejected 35).sub = 35 ∧ ((rejected 35).takes (s.unitsOf (rejected 35))).isNone = true := by unfold State.Canon; decide +kernel

theorem witness_ResponseDriven_beat :
    let e : Entry := { readEntry with
      req := { word 1 with len := 4 }
      accs := (List.range 5).map fun i => { Acc.reset with chan := 28, ps := 31, view0 := i, view1 := i, col := i, st := some .ok } }
    let s := answering 0 e []
    s.Canon ∧ s.portsLive = true ∧ s.nextRsp 0 = some e ∧ s.isMasked 0 = false ∧ (s.port 0).rspCrd ≠ 0 ∧
    e.headerAnswer = none ∧ e.kind = .rd ∧ e.req.digest = false ∧ (s.port 0).mayStart e.rdBeats = true ∧ e.beats + 1 < e.rdBeats ∧
    (e.takes (s.unitsOf e)).isNone = true ∧ e.beats ≠ ({ e with beats := 1 } : Entry).beats ∧
    (let l : Entry := { e with beats := 1 }
     let u := answering 0 l []
     u.Canon ∧ u.nextRsp 0 = some l ∧ (u.port 0).rspCrd ≠ 0 ∧ l.headerAnswer = none ∧ l.beats ≠ 0 ∧ l.beats + 1 = l.rdBeats) := by
  unfold State.Canon; decide +kernel

theorem witness_BulkAnswered :
    let e : Entry := { readEntry with sub := 36, msub := 36, kind := .readBulk, accs := [{ Acc.reset with st := some .ok }] }
    let d : BDesc := ⟨1, 2, { desc1 with len := 4096 }, 0, none, 0, 0⟩
    let d' : BDesc := ⟨1, 2, { desc1 with len := 4096 }, 0, some ⟨.badreq, eRange⟩, 0, 0⟩
    let s (d : BDesc) : State := { blpLive with
      blp := { blpLive.blp with flight := [d] }
      fab := { Fab.reset with trk := [e], nextId := 2 } }
    let full : State := { s d with
      det := { (s d).det with mode := .timing }, ctl := { (s d).ctl with icqs := [(6 * 256, { Icq.reset with freed := List.replicate 256 2000 })] } }
    full.icqFull 6 0 0 = true ∧ full.portsLive = true ∧ full.isMasked 36 = false ∧ (s d).icqFull 6 0 0 = false ∧
    (s d').icqFull 6 0 0 = false ∧
    (s d).portsLive = true ∧ (s d).isMasked 36 = false ∧ (s d).blp.flight[0]? = some d ∧ (s d).outReady d = true ∧
    (s d).blp.odataCrd ≠ 0 ∧ d.desc.digest = false ∧ (s d').portsLive = true ∧ (s d').blp.cplCrd ≠ 0 ∧
    ((s d').blp.flight.find? fun d => (s d').descDone d &&
      !((s d').blp.flight.any fun x => x.desc.srcChip == d.desc.srcChip && decide (x.ord < d.ord))) = some d' ∧
    (s d').fab.entry 1 = some e ∧ e.req.digest = false ∧ (e.takes ((s d').unitsOf e)).isNone = true := by decide +kernel

theorem witness_FenceCompleted :
    let e : Entry := { Entry.reset with id := 2, ord := 1, kind := .fence }
    let pre := [{ rejected 0 with kind := .fence, fin := some ⟨.ok, eOk⟩ }]
    let s := onFab { Fab.reset with trk := pre ++ e :: [], nextId := 3 }
    s.portsLive = true ∧ s.fab.entry e.id = some e ∧ e.counted = false ∧ e.sub = 0 ∧ e.kind = .fence ∧ e.fin = none ∧ e.beats = 0 ∧ e.req.digest = false ∧
    (∀ x ∈ pre, x.sub = 0 → x.kind = .fence → x.fin ≠ none) ∧
    (∀ x ∈ s.fab.trk, x.sub = 0 → x.ord < e.ord → x.holdsFence s.sys.ltc = false) := by decide +kernel

theorem witness_DigestRecordWritten :
    let r : DgRec := ⟨15, 1, 900, 0, 0, 0, none, false, none⟩
    let e (st : RspStatus) : Entry := { readEntry with sub := 47, kind := .digestRec, accs := [{ Acc.reset with st := some st }] }
    let s (r : DgRec) (latch : Bool) (l : List Entry) : State := { mapped with
      det := { Det.reset with recs := [r] }, slices := [(31, sliceUp)], therm := { Therm.reset with latch := latch }
      fab := { Fab.reset with trk := l, nextId := 2 } }
    let pl := (s r false []).recPlace r
    let w : DgRec := { r with eid := some 1 }
    (s r false []).Canon ∧ (s r false []).portsLive = true ∧ (s r false []).det.recs = [r] ∧ r.fence = none ∧ r.cmd = false ∧
    (s r false []).stk.sliceOf pl.chan pl.row = some 31 ∧ (s r false []).fab.staleBad = [] ∧
    (s r false []).fab.freeSlot 47 = some false ∧ (s r false []).fab.entry 2 = none ∧
    (s r true []).Canon ∧ (s r true []).therm.latch = true ∧
    (s w false [e .ok]).fab.entry 1 = some (e .ok) ∧ (e .ok).fin = none ∧ accsSeen (e .ok).accs 1000 = true ∧
    worstOf ((e .ok).accs.filterMap (·.st)) = .ok ∧ (s w false [e .fault]).fab.entry 1 = some (e .fault) ∧
    worstOf ((e .fault).accs.filterMap (·.st)) ≠ .ok := by
  unfold State.Canon; decide +kernel

/-! ### Gather engines -/

/-- A descriptor of two pages of one unit, with its list at address 0. -/
def gdesc : BitVec 160 := BitVec.ofNat 160 (2 ^ 64)

/-- A GATHER of port 0 whose data beat is that descriptor. -/
def gatherEntry (page : BitVec 160) : Entry :=
  { readEntry with kind := .gather, req := word 1, accs := [], tab := [plain], wdat := [⟨page.setWidth 1024, 0⟩] }

/-- `mapped` with an engine on it. -/
def gathering (e : Entry) (g : Gth) : State := { mapped with
  fab := { Fab.reset with trk := [e], nextId := 2, engines := [(15, g)] }
  ports := [(0, { Port.reset with rspCrd := 1 })] }

theorem witness_GatherReads_start : let s := onFab { Fab.reset with trk := [gatherEntry gdesc], fq := [1] }
    s.portsLive = true ∧ s.fab.entry 1 = some (gatherEntry gdesc) ∧ s.isMasked 0 = false ∧ s.enginesOf 0 < s.portMax ∧
    ((List.range 16).find? fun i => !s.fab.engBusy i) = some 0 := by decide +kernel

theorem witness_GatherReads_list :
    let g : Gth := { Gth.reset with eid := 1, desc := gdesc }
    let s := gathering (gatherEntry gdesc) g
    s.settleEngine 15 = s ∧ s.fab.staleBad = [] ∧ g.flight < 128 ∧ (s.gatherOf 15).tab = [plain] ∧
    s.portsLive = true ∧ s.engRuns 15 = true ∧ (s.fab.freeSlot 42).isSome = true ∧ s.fab.entry s.fab.nextId = none ∧
    g.lissued ≤ gListOf g.desc (gPages g.desc - 1) ∧
    g.lissued ≤ gListOf g.desc (min (g.pos / gPageUnits g.desc) (gPages g.desc - 1)) + 2 ∧
    findRegion [plain] (fld g.desc 0 40) = some 0 ∧ s.readIn [plain] 0 0 1 ≠ [] ∧
    (∀ x ∈ s.readIn [plain] 0 0 1, x.st = none ∧ x.scale = false ∧ (s.stk.remapAt x.chan).st ≠ .fenced) := by decide +kernel

theorem witness_GatherReads_page :
    let g : Gth := { Gth.reset with eid := 1, desc := gdesc, lissued := 1, lgot := [0], ents := [(1, 2 ^ 63)] }
    let s := gathering (gatherEntry gdesc) g
    s.engRuns 15 = true ∧ g.pos < gUnits g.desc ∧ g.lgot.contains (gListOf g.desc 0) = true ∧
    1024 - (g.pos - 4 * (s.gatherOf 15).beats) ≠ 0 ∧ s.settleEngine 15 = s ∧ g.flight < 128 ∧ s.fab.staleBad = [] ∧
    pageCheck [plain] g.desc (Tab.get 0 g.ents 0) (Tab.get .ok g.esta 0) = .inr 0 ∧
    rType (regionAt [plain] 0) ≠ 1 ∧ s.readIn [plain] 0 0 1 ≠ [] ∧
    (∀ x ∈ s.readIn [plain] 0 0 1, x.st = none ∧ x.scale = false ∧ (s.stk.remapAt x.chan).st ≠ .fenced) ∧
    pageCheck [plain] g.desc (Tab.get 0 g.ents 1) (Tab.get .ok g.esta 1) = .inl .ok := by decide +kernel

theorem witness_GatherBeatDriven :
    let d : BitVec 160 := BitVec.ofNat 160 (7 * 2 ^ 64)
    let g : Gth := { Gth.reset with eid := 1, desc := d, pos := 8, units := (List.range 4).map fun i => (i, .ok, 0) }
    let s := gathering (gatherEntry d) g
    s.Canon ∧ s.settleEngine 15 = s ∧ s.portsLive = true ∧ s.fab.engBusy 15 = true ∧ g.drop = false ∧ s.isMasked 0 = false ∧
    (s.gatherOf 15).fin = none ∧ (s.gatherOf 15).req.digest = false ∧ (s.port 0).rspCrd ≠ 0 ∧ (s.port 0).cur = none ∧
    4 < gUnits g.desc ∧ ((List.range 4).filterMap fun j => g.units.find? fun t => t.1 == j).length = 4 := by
  unfold State.Canon; decide +kernel

/-! ### Brew launches -/

/-- ROW_COPY of row 5 from row 6. -/
def copyOp : OpWord := BitVec.ofNat 64 (1 + 5 * 2 ^ 8 + 6 * 2 ^ 24)

/-- A launch of that op on bank 0 of channel 28. -/
def launch : Launch := { Launch.reset with eid := 1, chans := [28], desc := 2 ^ 32, prog := [copyOp] }

/-- `mapped` with a launch, its entry, and the sequencer of slice 31 as given. -/
def brewing (l : Launch) (x : Slice) : State := { mapped with
  fab := { Fab.reset with trk := [{ readEntry with kind := .brewLaunch }], nextId := 2, launches := [l] }
  slices := [(31, x)] }

/-- A slice that runs the launch with these ops waiting. -/
def brewSlice (q : BrewSeq) : Slice := { sliceUp with brew := { q with cur := some 1, mask := 1 } }

theorem witness_BrewOpDispatched : let s := brewing launch (brewSlice BrewSeq.reset)
    let v := brewing launch { brewSlice BrewSeq.reset with rep := { Spare.reset with unitWait := [0] } }
    let u := { s with fab := { s.fab with meters := [(4, { Meter.reset with pir := 1, cir := 1, tp := -1, vt := 1000 })] } }
    s.Canon ∧ s.fab.launches[0]? = some launch ∧ s.portsLive = true ∧ launch.doneDisp = false ∧ launch.why = none ∧
    (launch.chans.map fun c => (s.stk.remapAt c).ps) = [31] ∧ s.brewPaid launch.port = true ∧
    s.dispatchWaits 0 launch = false ∧ v.Canon ∧ v.dispatchWaits 0 launch = true ∧ s.opRoom launch 31 = true ∧ s.fab.staleBad = [] ∧
    launch.prog[launch.past.1]? = some copyOp ∧
    (brewing launch (brewSlice { BrewSeq.reset with q := List.replicate 7 copyOp })).opRoom launch 31 = false ∧
    (brewing launch (brewSlice { BrewSeq.reset with q := List.replicate 7 copyOp })).opRoom { launch with nops := 1 } 31 = true ∧
    u.Canon ∧ u.brewPaid launch.port = false := by unfold State.Canon; decide +kernel

theorem witness_BrewStarted_launch : let l : Launch := { launch with nops := 1 }
    let s := brewing l sliceUp
    s.Canon ∧ s.brewLive 31 = true ∧ s.stk.chanOf 31 = some 28 ∧
    (s.fab.launches.find? fun l => l.chans.contains 28 && !l.endedOn 28) = some l ∧ s.migrating 31 = false ∧
    (s.slice 31).brew.cur = none ∧ l.started.contains 28 = false ∧ (s.slice 31).sch.rowTaken = false ∧ l.nops ≠ 0 ∧
    l.vis ≤ s.sys.ltc ∧ l.why = none ∧ s.urgentBank 31 = none ∧ (s.slice 31).bt.okAny ≤ (s.slice 31).sch.cclk := by
  unfold State.Canon; decide +kernel

theorem witness_BrewStarted_op :
    let s (o : OpWord) : State := brewing launch (brewSlice { BrewSeq.reset with q := [o], qacc := [1], qid := [1] })
    (s copyOp).Canon ∧ (s copyOp).brewLive 31 = true ∧ (s copyOp).launchOn 31 = some launch ∧
    ((s copyOp).slice 31).brew.next = some copyOp ∧ (s copyOp).opFree 31 copyOp = true ∧ (s copyOp).brewCool 31 = true ∧
    isRowOp copyOp = true ∧ (s copyOp).brewClosed 31 = true ∧ (s copyOp).brewActOk 31 0 launch.port (rowsNamed copyOp) = true ∧
    (s copyOp).rowBusy 31 0 copyOp launch = false ∧ ((s copyOp).slice 31).brew.killed = false ∧
    ((s copyOp).slice 31).brew.stopped = false ∧ (s copyOp).brewSeen 31 = true ∧
    (s copyOp).urgentRef 31 = false ∧ (s 7).brewSeen 31 = true ∧ (s 7).urgentRef 31 = false ∧
    (s 7).Canon ∧ (s 7).brewLive 31 = true ∧ (s 7).launchOn 31 = some launch ∧ ((s 7).slice 31).brew.next = some 7 ∧
    isRowOp 7 = false ∧ isMacAcc 7 = true ∧ (s 7).macBehind 31 ((s 7).slice 31).sch.cclk 7 launch = false ∧ ((s copyOp).slice 31).brew.bset ≤ ((s copyOp).slice 31).sch.cclk ∧ (s 7).opFree 31 7 = true ∧ (s 7).brewCool 31 = true := by unfold State.Canon; decide +kernel

theorem witness_BrewOpEnded :
    let s (done : Bool) (o : OpWord) : State :=
      brewing { launch with doneDisp := done } (brewSlice { BrewSeq.reset with
        q := [o], qacc := [1], qid := [1], op := some o, prog := 1, rd := 1 })
    let gone := brewing { launch with doneDisp := true } (brewSlice { BrewSeq.reset with op := some copyOp })
    let m := brewing { launch with doneDisp := true } (brewSlice { BrewSeq.reset with
      q := [10, 10], qacc := [1, 1], qid := [1, 1], op := some 10, prog := 1, rd := 1 })
    (s true copyOp).Canon ∧ (s true copyOp).islandRuns 31 = true ∧
    (s true copyOp).launchOn 31 = some { launch with doneDisp := true } ∧ (s true copyOp).opOver 31 copyOp = true ∧
    ((s true copyOp).slice 31).brew.killed = false ∧ isRowOp copyOp = true ∧ ((s true copyOp).slice 31).link.again = [] ∧
    ((s true copyOp).slice 31).brew.rd ≠ 0 ∧ gone.Canon ∧ (gone.slice 31).brew.rd = 0 ∧ gone.opOver 31 copyOp = true ∧
    gone.launchOn 31 = some { launch with doneDisp := true } ∧ (gone.slice 31).brew.qid.contains 1 = false ∧
    opD0 copyOp < 16384 ∧ opD1 copyOp < 16384 ∧ opD2 copyOp < 16384 ∧ (s true copyOp).stk.chanOf 31 = some 28 ∧
    (s false 10).Canon ∧ (s false 10).launchOn 31 = some launch ∧ (s false 10).opOver 31 10 = true ∧ opOpc 10 = 10 ∧
    ((s true copyOp).slice 31).brew.qid.tail.contains 1 = false ∧ m.Canon ∧ m.launchOn 31 = some { launch with doneDisp := true } ∧
    m.opOver 31 10 = true ∧ (m.slice 31).brew.qid.tail.contains 1 = true := by
  unfold State.Canon; decide +kernel

theorem witness_BrewPreempted :
    let x := brewSlice { BrewSeq.reset with op := some 10, q := [10], qacc := [1], qid := [1] }
    let s := brewing launch { x with sch := { Sched.reset with window := [{ winEnt with real := true }] } }
    let u := brewing launch (brewSlice { BrewSeq.reset with stopped := true, stopWhy := 1 })
    s.Canon ∧ s.urgentRead 31 = true ∧ s.sliceLive 31 = true ∧ s.atPreempt 31 10 = true ∧ s.brewPreOk 31 0 = true ∧
    (s.slice 31).brew.stopped = false ∧ (s.slice 31).brew.killed = false ∧ (s.slice 31).sch.held = 0 ∧ s.urgentBank 31 = none ∧
    (s.slice 31).sch.rowTaken = false ∧ u.Canon ∧ u.brewLive 31 = true ∧ (u.slice 31).brew.stopped = true ∧
    u.urgentRead 31 = false ∧ u.urgentRef 31 = false ∧ u.brewCool 31 = true := by unfold State.Canon; decide +kernel

theorem witness_BrewLaunchEnded :
    let s (l : Launch) : State := brewing l sliceUp
    let c : Launch := { launch with commits := [28] }
    let e : Launch := { launch with stopped := [28], why := some .aborted }
    (s c).fab.launches[0]? = some c ∧ c.why = none ∧ (∀ x ∈ c.chans, c.commits.contains x = true) ∧
    (s launch).fab.launches[0]? = some launch ∧ (∃ x ∈ launch.chans, launch.commits.contains x = false) ∧
    (s e).fab.entry 1 = some { readEntry with kind := .brewLaunch } ∧ readEntry.fin = none ∧ readEntry.counted = false ∧
    (s e).fab.launches[0]? = some e ∧ e.why = some .aborted ∧
    (∀ x ∈ e.chans, e.commits.contains x = true ∨ e.stopped.contains x = true) := by decide +kernel

/-! ### Scrub, repair and in-service test -/

/-- `mapped` with scrub enabled and slice 31 as given. -/
def scrubbing (x : Scrub) : State := { mapped with
  sys := { live.sys with ltc := 10000000 }
  stk := { mapped.stk with scrub := 0x31 }
  slices := [(31, { sliceUp with scr := x })] }

theorem witness_ScrubWalks : let s := scrubbing { Scrub.reset with spos := 1 }
    let late := scrubbing { Scrub.reset with speriod := 0 }
    let chk := scrubbing { Scrub.reset with checks := [⟨0, 5, 0, [3]⟩] }
    let old := { scrubbing { Scrub.reset with checks := [⟨0, 5, 0, []⟩] } with fab := { Fab.reset with stale := [28 * 32 * 16384 + 5] } }
    let last := { scrubbing { Scrub.reset with spos := scrubLen - 1, speriod := 0 } with
      fab := { Fab.reset with stale := [28 * 32 * 16384 + 31 * 16384 + 16383] } }
    let open' (s : State) : Prop := s.sys.entering = false ∧ s.fab.hold.contains 3 = false ∧
      (s.fab.freeSlot 40).isSome = true ∧ s.fab.entry s.fab.nextId = none
    s.Canon ∧ s.scrubs 31 = some 28 ∧ s.sliceLive 31 = true ∧ (s.slice 31).sch.held = 0 ∧ bit s.stk.scrub 0 = true ∧
    s.fab.staleBad = [] ∧ last.fab.staleBad = [] ∧ old.fab.staleBad = [] ∧ chk.fab.staleBad = [] ∧ (s.slice 31).scr.due 1 ≤ s.view 31 ∧ (s.slice 31).scr.spaused = none ∧ s.scrubsOut 31 0 = [] ∧ (∀ y ∈ (s.slice 31).scr.checks, y.syms ≠ []) ∧
    last.scrubsOut 31 0 = [] ∧ ([3] : List Nat) ≠ [] ∧ old.Canon ∧ old.scrubs 31 = some 28 ∧
    (old.slice 31).scr.checks.find? (old.checkReady 31) = some ⟨0, 5, 0, []⟩ ∧ old.fab.isStale 28 0 5 = true ∧ old.sliceLive 31 = true ∧
    (old.slice 31).sch.held = 0 ∧ chk.stk.chanOf 31 = some 28 ∧ chk.fab.isStale 28 0 5 = false ∧ chk.det.mode ≠ .timing ∧ (late.slice 31).scr.spaused = none ∧ open' s ∧ s.fab.isStale 28 0 0 = false ∧ 2 ≠ scrubLen ∧
    last.scrubs 31 = some 28 ∧ (last.slice 31).scr.due (scrubLen - 1) ≤ last.view 31 ∧
    last.fab.isStale 28 (keyBank (scrubKey 31 (scrubLen - 1))) (keyRow (scrubKey 31 (scrubLen - 1))) = true ∧
    late.islandRuns 31 = true ∧ (late.slice 31).scr.slate = false ∧
    (late.slice 31).scr.sstart + (late.slice 31).scr.ticks < late.view 31 ∧
    s.view 31 ≤ (s.slice 31).scr.sstart + (s.slice 31).scr.ticks ∧
    chk.scrubs 31 = some 28 ∧ (chk.slice 31).scr.checks.find? (chk.checkReady 31) = some ⟨0, 5, 0, [3]⟩ ∧
    chk.sliceLive 31 = true ∧ open' chk := by unfold State.Canon; decide +kernel

theorem witness_RowRepaired :
    let r : Repair := ⟨31, 16383, 0, 0, List.replicate 32 0, [31], 0⟩
    let s (ltc : Nat) : State := { onSlice 143 { sliceUp with rep := { Spare.reset with repairs := [r] } } with
      sys := { live.sys with ltc := ltc } }
    (s 8000).Canon ∧ ((s 8000).slice 143).rep.repairs = [r] ∧ r.bank < 32 ∧ r.row < 16384 ∧ r.held.length = 32 ∧
    ((s 8000).slice 143).dat.fow = [] ∧ ((s 8000).slice 143).dat.wb.length ≤ 32 ∧
    (s 8000).sys.porN = true ∧ r.start + 8000 ≤ (s 8000).sys.ltc ∧ (s 7999).sys.ltc < r.start + 8000 ∧
    ({ s 8000 with stk := { Stack.reset with ecc := 0 } } : State).autoMig = false := by unfold State.Canon; decide +kernel

theorem witness_UnitSubstituted :
    let s (r : Spare) : State := { onSlice 143 { sliceUp with rep := r } with stk := { Stack.reset with ecc := 0 } }
    let w : Spare := { Spare.reset with unitsLeft := 1, unitWait := [31] }
    (s { Spare.reset with unitsLeft := 1 }).Canon ∧ (s w).sys.ready = true ∧ Spare.reset.inServ = true ∧
    (s Spare.reset).autoMig = false ∧ ((s Spare.reset).slice 143).rep.unitsLeft = 0 ∧
    ((s w).slice 143).rep.unitWait.contains 31 = true ∧ (w.unitSent.any fun x => x.1 == 31) = false ∧
    (s w).fab.launches = [] ∧ ((s { w with unitSent := [(31, 500)] }).slice 143).rep.unitSent = [(31, 500)] ∧
    ((s { w with unitsLeft := 0 }).slice 143).rep.unitsLeft = 0 ∧ ((s { w with unitsLeft := 0 }).slice 143).rep.unitWait = [31] ∧
    (([(30, 500)] : List (Nat × Nat)).any fun x => x.1 == 31) = false ∧
    ((s { w with unitSent := [(30, 500)] }).slice 143).rep.unitsLeft ≤ ((s { w with unitSent := [(30, 500)] }).slice 143).rep.unitSent.length := by
  unfold State.Canon; decide +kernel

theorem witness_UnitSub_waits :
    let s := brewing { launch with nops := 1 } { sliceUp with rep := { Spare.reset with unitsLeft := 1, unitWait := [0] } }
    s.Canon ∧ ∃ c, s.stk.chanOf 31 = some c ∧ s.launchActive c 0 = true :=
  ⟨by unfold State.Canon; decide +kernel, 28, by decide +kernel⟩

theorem witness_InServiceTest :
    let s : State := { mapped with sys := { live.sys with ltc := 1440000000000 } }
    let t (x : Slice) (p : Nat) : State := { s with slices := [(p, x)] }
    let m : Slice := { sliceUp with rep := { Spare.reset with testing := true } }
    s.Canon ∧ s.istAllowed = true ∧ s.stk.istLast + 1440000000000 ≤ s.sys.ltc ∧ s.marchIdle = true ∧
    s.nextMarch = some 8 ∧ live.sys.ltc < live.stk.istLast + 1440000000000 ∧ State.reset.istAllowed = false ∧
    (t { m with rep := { m.rep with unitsLeft := 1 } } 0).marchIdle = false ∧
    ({ s with stk := { s.stk with feats := 15 } } : State).stk.macClass = true ∧ s.fab.launches = [] ∧
    ((List.range 144).find? fun p => ((t m 143).slice p).rep.testing) = some 143 ∧ (t m 143).istAllowed = true ∧
    (fld (t m 143).wrap.slice 0 8 ≠ 143) := by unfold State.Canon; decide +kernel

/-! ### Temperature, power, bundles, migration, crossing queues -/

/-- `live` with this thermal state and LTC. -/
def thermal (t : Therm) (ltc : Nat) : State := { live with therm := t, sys := { live.sys with ltc := ltc } }

theorem witness_ThermalRounds : let s := thermal { Therm.reset with roundNo := 1 } 400400
    let g := thermal { Therm.reset with graceStart := some 0, thrReq := true } live.cfg.graceTicks
    let e := thermal { Therm.reset with graceStart := some 0, thrReq := true } (live.cfg.graceTicks - 1)
    s.Canon ∧ s.sys.porN = true ∧ s.therm.roundOpen = false ∧ 400 + 400000 * s.therm.roundNo ≤ s.sys.ltc ∧
    (thermal { Therm.reset with roundNo := 1 } 400399).sys.ltc < 400 + 400000 * 1 ∧
    (thermal { Therm.reset with roundOpen := true } 1000).therm.roundOpen = true ∧
    (thermal { Therm.reset with zqRounds := 1023 } 1000).therm.zqRounds < 1024 ∧
    1024 ≤ (thermal { Therm.reset with zqRounds := 1024 } 1000).therm.zqRounds ∧
    g.Canon ∧ g.therm.graceStart = some 0 ∧ g.therm.thrReq = true ∧ g.therm.graceLate = false ∧
    0 + g.cfg.graceTicks ≤ g.sys.ltc ∧ e.sys.ltc < 0 + e.cfg.graceTicks := by unfold State.Canon; decide +kernel

theorem witness_LevelsEvaluated : let s := thermal { Therm.reset with roundOpen := true, roundNo := 1 } 384000
    let r : List (BitVec 16) := List.replicate 336 1600
    s.Canon ∧ s.sys.porN = true ∧ s.therm.roundOpen = true ∧ s.therm.roundStart + 384000 ≤ s.sys.ltc ∧ s.sys.rstEnd = false ∧ s.sys.rstDue = false ∧
    s.therm.latch = false ∧
    (∀ i, i < 288 → (s.sensor i).broken = false ∧ (s.sensor i).devcnt < 2 ∧ -640 ≤ (r.getD i 0x8000).toInt) ∧
    (∀ p, p < 144 → (r.getD p 0x8000).toInt < 16 * (fld s.cfg.therm0 16 8 : Nat) ∧ (s.slice p).level < 3) ∧
    (thermal { Therm.reset with roundOpen := true } 383999).sys.ltc < 0 + 384000 := by unfold State.Canon; decide +kernel

theorem witness_LayerPower :
    let s (n : Nat) (l : Layer) : State := { live with
      ring := { live.ring with pwr0 := 1 }
      stk := { live.stk with fedCnt := n, layers := [(15, l)] } }
    (s 1000 Layer.reset).powerOn = true ∧ (s 1000 Layer.reset).federated = true ∧ 1000 ≤ (s 1000 Layer.reset).stk.fedCnt ∧
    (s 999 Layer.reset).stk.fedCnt < 1000 ∧ State.reset.powerOn = false ∧
    ((s 0 { Layer.reset with fenced := true }).stk.layer 15).fenced = true ∧ ((s 0 Layer.reset).stk.layer 15).fenced = false ∧
    ((s 0 { Layer.reset with setTo := some (2, 500) }).stk.layer 15).setTo = some (2, 500) ∧
    (s 0 Layer.reset).sys.ltc < 500 + 40000 ∧ 500 + 40000 ≤ (thermal Therm.reset 40500).sys.ltc := by decide +kernel

/-- `live` with the bundle of slice 142 as given. -/
def bundled (l : Link) : State := onSlice 142 { sliceUp with link := l }

theorem witness_BundleCalibrated : let l := { sliceUp.link with calCmd := true }
    let c := { sliceUp.link with calAct := true, calList := sliceUp.link.calBonds }
    let n := c.calList.length
    let side (x : Link) (taken : Bool) : State :=
      onSlice 142 { (bundled x).slice 142 with sch := { Sched.reset with cclk := 8, rowTaken := taken } }
    let t : Trims := ⟨0, 0, 72, 0, true, true⟩
    let w := { sliceUp.link with swap := [t] }
    let s := bundled w
    (bundled l).Canon ∧ (bundled l).calStopped = false ∧ ((List.range 144).find? (bundled l).calWants) = some 142 ∧
    l.calPos = 0 ∧ ((List.range 144).find? (bundled { l with calPos := 3 }).calWants) = some 142 ∧
    ((List.range 144).filter fun i => ((bundled l).slice i).link.calAct).length < (bundled l).calPar ∧
    ((List.range 144).find? (bundled c).calWants) ≠ some 142 ∧ c.up = true ∧ c.calList[0]? = some 0 ∧ c.laneOf 0 = some 0 ∧
    c.calList[n - 1]? = some 86 ∧ c.laneOf 86 = none ∧ c.good 86 = true ∧ c.calList[n - 2]? = some 75 ∧ c.laneOf 75 = none ∧
    c.good 75 = true ∧ ({ c with failed := [75] } : Link).good 75 = false ∧ ({ c with failed := [75] } : Link).laneOf 75 = none ∧
    (side { c with calPos := n - 2 } false).Canon ∧ (side { c with calPos := n - 2 } false).islandRuns 142 = true ∧
    (side { c with calPos := n - 2 } false).sideSlot 142 = true ∧ (side { c with calPos := n - 2 } false).calStopped = false ∧
    (side { c with calPos := n - 2 } true).sideSlot 142 = false ∧ (side { c with calPos := n - 2 } true).islandRuns 142 = true ∧
    ({ t with mirrored := false } : Trims).mirrored = false ∧
    s.Canon ∧ s.islandRuns 142 = true ∧ (s.slice 142).link.swap = [t] ∧ (s.slice 142).sch.cclk < t.since + 8 ∧
    ((side w false).slice 142).link.swap = [t] ∧ t.since + 8 ≤ ((side w false).slice 142).sch.cclk ∧
    (side w false).sideSlot 142 = true ∧ (side w true).sideSlot 142 = false ∧ (side w true).islandRuns 142 = true := by
  unfold State.Canon; decide +kernel

theorem witness_CalLane_waits :
    let c := { sliceUp.link with calAct := true, calList := [0], calNext := 2000, failed := [72, 73, 74, 75, 86] }
    let s := bundled c
    s.Canon ∧ s.calStopped = false ∧ c.up = true ∧ c.calList[c.calPos]? = some 0 ∧ c.laneOf 0 ≠ none ∧
    (c.laneOf 0).bind c.spareFor = none ∧ s.sys.ltc < c.calNext := by unfold State.Canon; decide +kernel

theorem witness_BundleRetrained : let r := { sliceUp.link with state := .retrain, cause := 1, alert := true }
    let s := bundled r
    let hot : State := { s with therm := { s.therm with latch := true } }
    let warm : State := { s with sys := { s.sys with rstEnd := true } }
    let first : State := { s with
      stk := { s.stk with migs := [⟨28, 31, 142, 2, 16, false, false, 0, false, 0⟩] }
      fab := { Fab.reset with launches := [{ launch with nops := 1 }] } }
    first.Canon ∧ (first.slice 142).link.state = .retrain ∧ first.launchFirst 142 = true ∧ sliceUp.link.alert = false ∧
    (bundled { sliceUp.link with alert := true }).Canon ∧ ({ sliceUp.link with alert := true } : Link).up = true ∧
    hot.Canon ∧ (hot.slice 142).link.state = .retrain ∧ hot.therm.latch = true ∧ warm.Canon ∧
    (warm.slice 142).link.state = .retrain ∧ warm.sys.rstEnd = true ∧
    (bundled sliceUp.link).Canon ∧ ((bundled sliceUp.link).slice 142).link.up = true ∧ s.Canon ∧
    (s.slice 142).link.state = .retrain ∧ r.cause ≠ 5 ∧ 72 ≤ r.goodDq ∧ (r.endSwaps (s.slice 142).sch.cclk).badLanes = [] ∧ s.therm.latch = false ∧ s.sys.rstEnd = false ∧ r.narrow = false ∧
    (s.stk.migs.find? fun m => m.new == 142 && !m.copying) = none ∧ s.mbx.run = none ∧ s.closedFor 142 = true ∧
    (onSlice 142 { s.slice 142 with bt := { BankSet.reset with banks := [(0, { BankT.reset with openRow := some 5 })] } }).closedFor 142 =
      false := by unfold State.Canon; decide +kernel

theorem witness_MigrationStarted :
    let c : Cand := ⟨28, 2, 0, 0xFF⟩
    let s : State := { mapped with stk := { mapped.stk with cands := [c] } }
    let full : State := { s with slices := (List.range 16).map fun l =>
      (9 * l + 8, { Slice.reset with rep := { Spare.reset with inServ := false } }) }
    s.Canon ∧ s.stk.cands = [c] ∧ s.sys.phase = .running ∧ s.sys.ready = true ∧ s.therm.latch = false ∧
    (s.stk.remapAt 28).st = .bound ∧ (s.stk.remapAt 28).ps = 31 ∧ (s.stk.migs.any fun m => m.chan == 28) = false ∧ (s.slice 31).brew.cur = none ∧
    (s.stk.migs.filter fun m => !m.rebind).length < s.migMax ∧
    s.chanLaunch 28 = false ∧ s.workHeld 31 = false ∧ (s.slice 8).link.state ≠ .retrain ∧ s.pickSpare 31 = some 8 ∧ full.Canon ∧ full.pickSpare 31 = none := by
  unfold State.Canon; decide +kernel

/-- `mapped` with channel 28 in the state given, its migration or REBIND, and slices 8 and 31 up. -/
def moving (st : RemapSt) (m : Mig) (mptr : Nat) : State := { mapped with
  stk := { mapped.stk with
    remap := mapped.stk.remap.set 28 ⟨31, 8, st, mptr⟩
    migs := [m] }
  slices := [(8, sliceUp), (31, sliceUp)] }

theorem witness_MigrationRowCopied : let m : Mig := ⟨28, 31, 8, 2, 16, true, false, 0, false, 0⟩
    let s := moving .migrating m 16382
    let z : Mig := ⟨28, 31, 8, 0, 0, true, true, 0, false, 0⟩
    let u := moving .fenced z 0
    let nar : State := { u with stk := { u.stk with ecc := 2 ^ 27 }, slices := [(8, { sliceUp with link := { sliceUp.link with narrow := true } })] }
    s.Canon ∧ (s.stk.migs.find? fun m => m.chan == 28 && m.copying && !m.rebind) = some m ∧
    (s.stk.remapAt 28).st = .migrating ∧ s.sliceLive m.old = true ∧ s.sliceLive m.new = true ∧
    s.workHeld m.old = false ∧ s.workHeld m.new = false ∧ s.fab.staleBad = [] ∧
    (∀ b, b < 32 → s.workSpaced m.old b 16382 = false ∧ s.workSpaced m.new b 16382 = false) ∧
    ((s.slice m.old).dat.lines.find? fun l => l.row == (s.stk.remapAt 28).mptr) = none ∧
    s.rowBusyIn m.old (s.stk.remapAt 28).mptr = false ∧ s.rowAhead m.old (s.stk.remapAt 28).mptr m.mark = false ∧
    s.copyCapped m = false ∧
    (s.spend 41 5 131072).isSome = true ∧ m.old ≠ m.new ∧ (s.stk.remapAt 28).mptr + 1 < 16384 ∧ 28 < s.stk.remap.length ∧
    u.Canon ∧ (u.stk.migs.find? fun m => m.chan == 28 && m.rebind && m.copying) = some z ∧ u.sliceLive z.new = true ∧
    28 < u.stk.remap.length ∧ nar.Canon ∧ nar.isNarrow 8 = true ∧ nar.autoMig = true ∧ nar.sliceLive 8 = true ∧
    (nar.stk.migs.find? fun m => m.chan == 28 && m.rebind && m.copying) = some z := by unfold State.Canon; decide +kernel

theorem witness_CrossingQueueUpset_open : intact (icqFlips 7 0x201) = true ∧ intact (icqFlips 7 3) = true ∧
    icqFlips 7 0x201 ≠ icqFlips 7 3 ∧ intact (icqFlips 7 1) = false ∧ intact (icqFlips 7 0x200) = false ∧ icqFlips 0 0x201 = 0x201 ∧
    icqFlips 0 3 = 3 := by
  have h (q : Nat) : Config.freeDepth q % 6 < 6 := Nat.mod_lt _ (by decide)
  have h0 := h 0
  have h7 := h 7
  unfold icqFlips icqBits icqDeep
  generalize Config.freeDepth 0 % 6 = c at *
  generalize Config.freeDepth 7 % 6 = d at *
  interval_cases c <;> interval_cases d <;> decide

theorem witness_CrossingQueueUpset :
    let s : State := { mapped with fab := { Fab.reset with trk := [readEntry], nextId := 2 } }
    let w : State := { s with
      fab := { s.fab with trk := [{ readEntry with kind := .wr }] }
      slices := [(31, { sliceUp with dat := { ChData.reset with fcq := [wrItem false] } })]
      ctl := { mapped.ctl with icqs := [(31, { Icq.reset with used := 1, wr := 1 })] } }
    let f (q : Nat) (v : BitVec 10) : Bool := intact (icqFlips q v)
    let e : Entry := { readEntry with kind := .wr }
    s.Canon ∧ Tab.wf Icq.reset s.ctl.icqs = true ∧ s.sys.porN = true ∧ icqExists 0 143 = true ∧ icqExists 9 0 = true ∧
    icqExists 7 1 = true ∧ Tab.wf 0 (s.icq 7 1).dmgA = true ∧ Tab.get 0 (s.icq 7 1).dmgA 3 = 0 ∧ Tab.get 0 (s.icq 7 1).dmgB 3 = 0 ∧
    f 9 0x201 = true ∧ f 9 0x003 = true ∧ f 9 0x001 = false ∧ f 9 0 = true ∧ f 9 0x200 = false ∧ f 9 0x100 = false ∧
    icqFlips 9 0x201 ≠ icqFlips 9 0x003 ∧ icqFlips 2 0x110 = 0x010 ∧ s.icqBound 7 1 = [] ∧ s.icqAway 7 1 = 0 ∧ s.ctl.words = [] ∧
    s.det.mode ≠ .timing ∧ s.logFull = false ∧ (s.ctr 0x320 23).v < 2 ^ 32 - 1 ∧ (s.ctr 0x320 25).v < 2 ^ 32 - 1 ∧
    w.Canon ∧ w.icqBound 0 31 = [1] ∧ w.fab.entry 1 = some e ∧ e.kind = .wr ∧ e.fin = none ∧ Tab.wf Icq.reset w.ctl.icqs = true := by
  unfold State.Canon; decide +kernel

/-! ### The mailbox -/

/-- The doorbell rings for this command, and its argument words are ones the command defines. -/
def good (s : State) (op : Nat) (quant : Bool) (masks : List Nat) : Bool :=
  s.cpLive && fld s.mbx.cmd 0 8 == op && s.mbx.st != .busy && (s.sys.phase != .frost || s.therm.latch) &&
    (!quant || s.det.mode != .timing) && !s.takeDoorbell.argsBad masks

theorem rings_of_good {s : State} {op : Nat} {q : Bool} {l : List Nat} (h : good s op q l = true) :
    s.Rings op q ∧ s.takeDoorbell.argsBad l = false := by
  simp only [good, Bool.and_eq_true, beq_iff_eq, bne_iff_ne, Bool.or_eq_true, Bool.not_eq_true'] at h
  exact ⟨⟨h.1.1.1.1.1, h.1.1.1.1.2, h.1.1.1.2, h.1.1.2, fun e => h.1.2.resolve_left (by simp [e])⟩, h.2⟩

/-- The words of an image with no section (R782, R784). -/
def bareImage : Tab Word :=
  [(0, 0x4743344B), (1, 3), (2, 0x55), (3, 0x24), (8, 0x81D9D3B8)]

/-- A code, or a configuration. -/
def isOk {α β : Type} : α ⊕ β → Bool
  | .inl _ => false
  | .inr _ => true

/-- `mapped` with that image in the staging buffer, on layers that allow its refresh and temperature settings. -/
def staged : State := { mapped with
  ctl := { mapped.ctl with staging := bareImage }
  stk := { mapped.stk with
    fMax := 8
    tdMin := 32768
    layers := (List.range 16).map fun l => (l, { Layer.reset with tmax := 125 }) } }

theorem witness_DoorbellTaken :
    let s := rung 0x30 [] live
    let fr : State := { s with sys := { s.sys with phase := .frost } }
    let tm : State := { s with det := { s.det with mode := .timing } }
    let bad := rung 0x02 [(1, 0x1000)] live
    let none' := rung 0xFF [] live
    mailCmd .accFlush = some (0x30, true, [0x13F]) ∧ mailCmd .tlmClear = some (0x02, false, [0xFFF, 0xFFF]) ∧
    State.reset.cpLive = false ∧ s.cpLive = true ∧ s.mbx.st ≠ .busy ∧ fld s.mbx.cmd 0 8 = 0x30 ∧ s.sys.phase ≠ .frost ∧
    fr.cpLive = true ∧ fr.sys.phase = .frost ∧ fr.therm.latch = false ∧ tm.det.mode = .timing ∧
    bad.Rings 0x02 false ∧ bad.takeDoorbell.argsBad [0xFFF, 0xFFF] = true ∧ none'.cpLive = true ∧
    fld none'.mbx.cmd 0 8 ∉ opcodes ∧ fld s.mbx.cmd 0 8 ∈ opcodes := by unfold State.Rings; decide +kernel

theorem witness_CommandsAnswered :
    good (rung 0x01 [] live) 0x01 false [] = true ∧ good (rung 0x12 [(0, 0x3F)] live) 0x12 false [0x3F] = true ∧
    good (rung 0x42 [(0, 143)] live) 0x42 false [0x3FF, 0x37F] = true ∧ good (rung 0x42 [(0, 144)] live) 0x42 false [0x3FF, 0x37F] = true ∧
    good (rung 0x42 [(0, 0x300), (1, 91)] live) 0x42 false [0x3FF, 0x37F] = true ∧
    (rung 0x42 [(0, 144)] live).takeDoorbell.argf 0 0 8 = 144 ∧
    good (rung 0x02 [(0, 0x401), (1, 0x401)] live) 0x02 false [0xFFF, 0xFFF] = true ∧
    good (rung 0x02 [(0, 1), (1, 0)] live) 0x02 false [0xFFF, 0xFFF] = true := by
  decide +kernel

theorem witness_CommandsAnswered_more :
    let held : State := { rung 0x52 [] live with det := { live.det with mismatch := true } }
    good (rung 0x03 [(0, 287)] live) 0x03 false [0x1FF] = true ∧ good (rung 0x03 [(0, 288)] live) 0x03 false [0x1FF] = true ∧
    good (rung 0x52 [] live) 0x52 false [] = true ∧ live.det.mismatch = false ∧ good held 0x52 false [] = true ∧ held.det.mismatch = true ∧
    good (rung 0x50 [(0, 15)] live) 0x50 true [0xF] = true ∧ live.noChannels = false ∧ live.lsEn = false ∧
    live.masterAgg.testBit 15 = false ∧ live.recEn = false ∧
    ({ live with cfg := { live.cfg with digRec := 0x40 } } : State).recEn = true ∧
    ({ live with therm := { live.therm with latch := true } } : State).noChannels = true := by
  decide +kernel

theorem witness_CommandsAnswered_change :
    let c := rung 0x10 [] staged
    let r (n : Nat) : State := { rung 0x20 [(0, BitVec.ofNat 32 n)] live with stk := { live.stk with rates := 7 } }
    let d (n : Nat) : State := rung 0x21 [(0, BitVec.ofNat 32 n)] live
    let gang (n : Nat) : State := { r n with ring := { Ring.reset with
      pwr0 := 2, present := true, members := [(0, some ⟨3, 0, 0, 0⟩), (7, some ⟨3, 0, 0, 0⟩)] } }
    (gang 0).carries = true ∧ (r 0).carries = false ∧ (d 0).carries = false ∧ (gang 0).Canon ∧ good (gang 0) 0x20 false [3] = true ∧
    (gang 0).modechg = false ∧ (gang 0).rateWaits = false ∧ (gang 0).rateBad = false ∧ (gang 0).stk.rates.testBit 0 = true ∧
    c.Canon ∧ good c 0x10 false [] = true ∧ c.noChannels = false ∧ c.modechg = false ∧ isOk (c.commitCheck c.ctl.staging) = true ∧
    (r 1).Canon ∧ good (r 0) 0x20 false [3] = true ∧ good (r 1) 0x20 false [3] = true ∧ (r 0).rateBad = false ∧
    (r 0).isPending 0x20 = false ∧ (r 0).stk.rates.testBit 0 = true ∧ (r 0).sys.rate = 0 ∧ (r 1).rateBad = false ∧
    (r 1).isPending 0x20 = false ∧ (r 1).stk.rates.testBit 1 = true ∧ (r 1).rateWaits = false ∧ (r 1).modechg = false ∧
    (d 1).Canon ∧ good (d 0) 0x21 false [3] = true ∧ good (d 1) 0x21 false [3] = true ∧ good (d 2) 0x21 false [3] = true ∧
    (d 0).noChannels = false ∧ modeOf 0 = (d 0).det.mode ∧ modeOf 1 ≠ (d 1).det.mode ∧ (d 1).cfg.satEqual = true ∧ (d 1).modechg = false ∧
    (d 2).timingBad = false := by unfold State.Canon; decide +kernel

theorem witness_DeviceCommands :
    let busy (op : BitVec 8) (since ltc : Nat) : State := { live with
      sys := { live.sys with ltc := ltc }
      mbx := { Mbx.reset with st := .busy, since := since, run := some ⟨op, 1, 0, [], []⟩ } }
    let shut : State := { rung 0x45 [(0, 143)] live with stk := { live.stk with layers := [(15, { Layer.reset with fenced := true })] } }
    good (rung 0x11 [(0, 1)] staged) 0x11 false [1] = true ∧
    isOk (checkImage staged.ctl.staging false none staged.stk) = true ∧
    good (rung 0x11 [(0, 1)] { staged with stk := live.stk }) 0x11 false [1] = true ∧ isOk (checkImage bareImage false none live.stk) = false ∧
    good (rung 0x45 [(0, 143)] live) 0x45 false [0xFF] = true ∧ (live.stk.layer (layerOf 143)).fenced = false ∧
    good (rung 0x45 [(0, 144)] live) 0x45 false [0xFF] = true ∧ good shut 0x45 false [0xFF] = true ∧
    (shut.stk.layer (layerOf 143)).fenced = true ∧
    (busy 0x11 0 199999999).sys.ltc < 0 + 200000000 ∧ 0 + 200000000 ≤ (busy 0x11 0 200000000).sys.ltc ∧
    (busy 0x45 0 399999).sys.ltc < 0 + 400000 ∧ 0 + 400000 ≤ (busy 0x45 0 400000).sys.ltc ∧
    (busy 0x45 0 0).mbx.run = some ⟨0x45, 1, 0, [], []⟩ := by decide +kernel

/-! ### Changes of mode -/

/-- A change that every unit has prepared. -/
def change (w : ChgKind) (committed : Bool) : ModeChg := { ModeChg.reset with
  what := w, cfg := live.cfg, rate := 1, ackd := true, committed := committed, opc := 0x20 }

theorem witness_ChangesStarted_commit :
    let s := rung 0x10 [] staged
    let other : State := { s with mc := some (change .det false) }
    let early : State := { rung 0x10 [] staged with sys := { live.sys with phase := .zeroing } }
    s.Canon ∧ good s 0x10 false [] = true ∧ s.noChannels = false ∧ isOk (s.commitCheck s.ctl.staging) = true ∧ s.modechg = false ∧
    (s.isMaster && s.gangOn) = false ∧ isOk (({ staged with stk := live.stk } : State).commitCheck bareImage) = false ∧
    good other 0x10 false [] = true ∧ isOk (other.commitCheck other.ctl.staging) = true ∧ other.modechg = true ∧
    good early 0x10 false [] = true ∧ early.noChannels = true := by unfold State.Canon; decide +kernel

theorem witness_ChangesStarted_rate :
    let s (n : Nat) : State := { rung 0x20 [(0, BitVec.ofNat 32 n)] live with stk := { live.stk with rates := 7 } }
    let wait : State := { s 1 with sys := { live.sys with ready := false } }
    let pend : State := { s 1 with mbx := { (s 1).mbx with pending := [⟨0x20, [], []⟩] } }
    let busy : State := { s 1 with mc := some (change .det false) }
    busy.Canon ∧ good busy 0x20 false [3] = true ∧ busy.rateBad = false ∧ busy.rateWaits = false ∧ busy.modechg = true ∧ (s 0).carries = false ∧
    (s 1).Canon ∧ good (s 0) 0x20 false [3] = true ∧ good (s 1) 0x20 false [3] = true ∧ good (s 2) 0x20 false [3] = true ∧
    good (s 3) 0x20 false [3] = true ∧ (s 1).rateBad = false ∧ (s 1).isPending 0x20 = false ∧
    (s 3).stk.rates.testBit 3 = false ∧ (s 2).stk.rates.testBit 2 = true ∧ (s 0).sys.rate = 0 ∧ (s 1).rateWaits = false ∧
    (s 1).modechg = false ∧ ((s 1).isMaster && (s 1).gangOn) = false ∧ good wait 0x20 false [3] = true ∧ wait.rateBad = false ∧
    wait.rateWaits = true ∧ good pend 0x20 false [3] = true ∧ pend.isPending 0x20 = true ∧
    ({ s 1 with sys := { live.sys with phase := .thaw } } : State).rateBad = true := by
  unfold State.Canon; decide +kernel

theorem witness_ChangesStarted_det :
    let s (n : Nat) : State := rung 0x21 [(0, BitVec.ofNat 32 n)] live
    let cal : State := { s 2 with mbx := { (s 2).mbx with pending := [⟨0x41, [], []⟩] } }
    let odd : State := { s 1 with cfg := { live.cfg with xfu := [(0, 1)] } }
    (s 1).Canon ∧ good (s 0) 0x21 false [3] = true ∧ good (s 1) 0x21 false [3] = true ∧ good (s 2) 0x21 false [3] = true ∧
    good (s 3) 0x21 false [3] = true ∧ (s 2).noChannels = false ∧ (s 2).timingBad = false ∧
    ({ s 2 with mc := some (change .det false) } : State).modechg = true ∧ (s 0).carries = false ∧
    (s 2).modechg = false ∧ modeOf 0 = (s 0).det.mode ∧ modeOf 1 ≠ (s 1).det.mode ∧ (s 1).cfg.satEqual = true ∧
    ((s 1).isMaster && (s 1).gangOn) = false ∧ good cal 0x21 false [3] = true ∧ cal.timingBad = true ∧ good odd 0x21 false [3] = true ∧
    odd.cfg.satEqual = false := by unfold State.Canon; decide +kernel

theorem witness_ChangesCommitted :
    let s (m : ModeChg) (ltc : Nat) : State := { live with mc := some m, sys := { live.sys with ltc := ltc } }
    let late : ModeChg := { change .det false with ackd := false }
    let w : State := { s (change .cfg false) 64 with
      cfg := { live.cfg with regions := [0x0000000000000000000000001000000000008000000000000007000000010005] }
      stk := mapped.stk
      slices := [(31, { sliceUp with dat := { ChData.reset with
        lines := [⟨0, 0, 0, 0, 1, 0, 0, some 0, false⟩]
        fow := [WBuf.reset] } })] }
    (s (change .cfg false) 64).Canon ∧ (s (change .cfg false) 64).changeDue (change .cfg false) = true ∧
    (s (change .rate false) 64).changeDue (change .rate false) = true ∧ (change .rate false).rate ≠ live.sys.rate ∧
    (s (change .det false) 64).changeDue (change .det false) = true ∧
    (s (change .det false) 63).changeDue (change .det false) = false ∧
    ((s (change .cfg false) 64).changeBack (change .cfg false)).backDone (change .cfg false) = true ∧
    ((s (change .rate false) 64).changeBack (change .rate false)).backDone (change .rate false) = true ∧
    ((s (change .det false) 64).changeBack (change .det false)).backDone (change .det false) = true ∧
    w.Canon ∧ w.changeDue (change .cfg false) = true ∧ (w.changeBack (change .cfg false)).backDone (change .cfg false) = false ∧
    (s (change .det true) 64).quiet (change .det true) = true ∧ (s (change .rate true) 64).quiet (change .rate true) = true ∧
    (onSlice 31 sliceUp).quiet { change .rate true with held := [31] } = false ∧ (change .det true).committed = true ∧
    (s (change .det true) 64).sys.rstDue = false ∧ late.ackd = false ∧ late.committed = false ∧
    late.start + 400000 ≤ (s late 400000).sys.ltc ∧ (change .det false).gang = none ∧ (change .det false).pend = false ∧
    (change .det false).opc ≠ 0 := by unfold State.Canon; decide +kernel

/-! ### Commands with memory accesses, and commands on bundles and spares -/

/-- Regions 0 PLAIN, 1 ACCUM and 2 PINNED of 512 KiB each on channels 28, 10 and 11, and region 3 PLAIN of 1 MiB. -/
def typed : State := { mapped with
  cfg := { live.cfg with regions := [plain,
    0x0000000000000000000000000000040000008000000000000007000800010005,
    0x0000000000000000000000000000080000008000000000000007001000010007,
    0x000000000000000000000000000010000000800000000000000f002000010001] } }

theorem witness_regions : rEn (regionAt typed.cfg.regions 1) = true ∧ isAccum (regionAt typed.cfg.regions 1) = true ∧
    isPinned (regionAt typed.cfg.regions 2) = true ∧ 141124 ≤ rS (regionAt typed.cfg.regions 0) := by decide +kernel

theorem witness_MemoryCommands_flush :
    let s (a : Word) : State := rung 0x30 [(0, a)] typed
    (s 1).Canon ∧ good (s 1) 0x30 true [0x13F] = true ∧ (s 1).takeDoorbell.allBad = false ∧ (s 1).noChannels = false ∧
    (s 1).takeDoorbell.namedBad isAccum = false ∧ good (s 0) 0x30 true [0x13F] = true ∧
    (s 0).takeDoorbell.namedBad isAccum = true ∧ good (s 0x101) 0x30 true [0x13F] = true ∧
    (s 0x101).takeDoorbell.allBad = true ∧ good (s 0x100) 0x30 true [0x13F] = true ∧ (s 0x100).takeDoorbell.allBad = false ∧
    (∀ p, p < 144 → ((s 1).slice p).dat.lines = []) := by unfold State.Canon; decide +kernel

theorem witness_MemoryCommands_reseal :
    let s (a : Word) : State := rung 0x32 [(0, a)] typed
    let stale : State := { s 2 with fab := { Fab.reset with stale := [11 * 32 * 16384] } }
    let buf : State := { s 2 with slices := [(143, { sliceUp with dat := { ChData.reset with
      fow := [{ WBuf.reset with sub := 43 }] } })] }
    (s 2).Canon ∧ good (s 2) 0x32 true [0x13F] = true ∧ (s 2).noChannels = false ∧
    (s 2).takeDoorbell.allBad = false ∧ (s 2).takeDoorbell.namedBad isPinned = false ∧ (s 2).fab.stale = [] ∧
    (s 0).takeDoorbell.namedBad isPinned = true ∧ good stale 0x32 true [0x13F] = true ∧
    good buf 0x32 true [0x13F] = true ∧ buf.fab.stale = [] ∧ (∃ w ∈ (buf.slice 143).dat.fow, w.sub = 43 ∧ w.raw = false) ∧
    (∀ p, p < 144 → ((s 2).slice p).dat.fow = []) ∧
    (∃ k ∈ stale.fab.stale, (stale.stk.sliceOf (k / (32 * 16384)) (k % 16384)).isSome = true ∧ ∃ j ∈ (s 2).takeDoorbell.namedRegions isPinned,
      pinnedHolds (regionAt stale.cfg.regions j) (k / (32 * 16384)) (k % 16384) = true) := by unfold State.Canon; decide +kernel

theorem witness_MemoryCommands_load :
    let m := [0x1FF003F, 0xFFFFFFFF, 0x1F, 0xFFFFFFFF]
    let s (a b : Word) : State := rung 0x31 [(0, a), (1, b)] typed
    let used (a : Word) : State := { s a 0 with fab := { Fab.reset with launches := [{ Launch.reset with slot := 63 }] } }
    (s 63 0).Canon ∧ good (s 63 0) 0x31 true m = true ∧ good (s 63 8) 0x31 true m = true ∧ (s 63 8).takeDoorbell.arg 1 ≠ 0 ∧
    (s 63 0).takeDoorbell.argf 0 16 9 = 0 ∧ (s 63 0).fab.slotInUse 63 = false ∧ (used 63).fab.slotInUse 63 = true ∧
    good (s 0x100003F 0) 0x31 true m = true ∧ (s 0x100003F 0).takeDoorbell.argf 0 16 9 = 256 ∧
    (s 0x100003F 0).takeDoorbell.loadAddr % 8 = 0 ∧ findRegion typed.cfg.regions 0 = some 0 ∧
    rType (regionAt typed.cfg.regions 0) = 0 ∧ 0 + 8 * 256 ≤ rLo (regionAt typed.cfg.regions 0) + rS (regionAt typed.cfg.regions 0) ∧
    good (s 0x101003F 0) 0x31 true m = true ∧ (s 0x101003F 0).takeDoorbell.argf 0 16 9 = 257 ∧
    good (used 0x100003F) 0x31 true m = true ∧ good (s 0x1003F 0x10000000) 0x31 true m = true ∧
    findRegion typed.cfg.regions 0x10000000 = none := by unfold State.Canon; decide +kernel

theorem witness_MemoryCommands_context :
    let s (op : Nat) (a : Word) : State := rung op [(0, a)] typed
    let drain (t0 ltc : Nat) (l : List Entry) : State := { live with
      sys := { live.sys with ltc := ltc }
      fab := { Fab.reset with trk := l, hold := [1] }
      mbx := { Mbx.reset with st := .busy, run := some ⟨0x60, 0, 0, [t0], []⟩ } }
    good (s 0x61 0) 0x61 true [0x3F] = true ∧ good (s 0x51 0) 0x51 true [0xF3F] = true ∧
    rEn (regionAt typed.cfg.regions 0) = true ∧ rRounded (regionAt typed.cfg.regions 0) = false ∧
    good (s 0x51 4) 0x51 true [0xF3F] = true ∧ rEn (regionAt typed.cfg.regions 4) = false ∧
    good (s 0x60 0) 0x60 true [0x3F] = true ∧ (s 0x60 0).noChannels = false ∧ (s 0x60 0).anyStale = false ∧
    rType (regionAt typed.cfg.regions 0) = 0 ∧ rWp (regionAt typed.cfg.regions 0) = false ∧
    141124 ≤ rS (regionAt typed.cfg.regions 0) ∧ good (s 0x60 1) 0x60 true [0x3F] = true ∧
    rType (regionAt typed.cfg.regions 1) ≠ 0 ∧ (drain 0 4000000 []).Canon ∧ (drain 0 4000000 []).portsEmpty = true ∧ (drain 0 4000000 []).fab.hold.contains 1 = true ∧ live.fab.hold.contains 1 = false ∧
    (drain 0 4000000 [readEntry]).portsEmpty = false ∧ 0 + 4000000 ≤ (drain 0 4000000 [readEntry]).sys.ltc ∧
    (drain 0 3999999 [readEntry]).sys.ltc < 0 + 4000000 := by unfold State.Canon; decide +kernel

theorem witness_SpareCommands_bundle :
    let s (op : Nat) (a : Word) (l : Link) : State := { rung op [(0, a)] mapped with slices := [(143, { sliceUp with link := l })] }
    let u := sliceUp.link
    (s 0x40 143 u).Canon ∧ good (s 0x40 143 u) 0x40 true [0xFF] = true ∧ (s 0x40 143 u).noChannels = false ∧
    ((s 0x40 143 u).slice 143).link.up = true ∧ good (s 0x40 144 u) 0x40 true [0xFF] = true ∧
    good (s 0x40 143 { u with state := .retrain }) 0x40 true [0xFF] = true ∧
    (({ u with state := .fenced } : Link).up = false ∧ LinkState.fenced ≠ .retrain) ∧
    good (s 0x41 143 u) 0x41 true [0xFF] = true ∧ good (s 0x41 0xFF u) 0x41 true [0xFF] = true ∧
    good (s 0x41 0xFE u) 0x41 true [0xFF] = true ∧ ((s 0x41 143 u).slice 143).rep.inServ = true ∧
    (s 0x41 143 u).isPending 0x41 = false ∧
    ((List.range 144).filter fun q => ((s 0x41 143 u).slice q).rep.inServ && (143 == 0xFF || 143 == q)) ≠ [] := by
  unfold State.Canon; decide +kernel

theorem witness_CalRun_empty :
    let s : State := { rung 0x41 [(0, 0xFF)] mapped with
      slices := (List.range 144).map fun p => (p, { Slice.reset with rep := { Spare.reset with inServ := false } }) }
    s.Canon ∧ good s 0x41 true [0xFF] = true ∧ s.isPending 0x41 = false ∧
    ((List.range 144).filter fun q => (s.slice q).rep.inServ) = [] := by unfold State.Canon; decide +kernel

theorem witness_SpareCommands_move :
    let s (op : Nat) (a : Word) : State := rung op [(0, a)] mapped
    let off : State := { s 0x44 (28 + 0xFF00) with
      stk := { mapped.stk with remap := mapped.stk.remap.set 28 ⟨31, 0, .fenced, 0⟩ } }
    let known : State := { s 0x43 (28 + 0xFF0000) with stk := { mapped.stk with cands := [⟨28, 2, 0, 0xFF⟩] } }
    (s 0x43 (28 + 0xFF0000)).Canon ∧ good (s 0x43 (28 + 0xFF0000)) 0x43 true [0xFFFF7F] = true ∧
    (mapped.stk.remapAt 28).st = .bound ∧ (s 0x43 0).migKnown 28 = false ∧
    (mapped.pickSpare (mapped.stk.remapAt 28).ps).isSome = true ∧ mapped.freeSpare 143 = true ∧ mapped.freeSpare 142 = false ∧
    good (s 0x43 (28 + 143 * 0x10000)) 0x43 true [0xFFFF7F] = true ∧
    good (s 0x43 (28 + 144 * 0x10000)) 0x43 true [0xFFFF7F] = true ∧ good known 0x43 true [0xFFFF7F] = true ∧
    known.migKnown 28 = true ∧ good off 0x44 true [0xFF7F] = true ∧ (off.stk.remapAt 28).st = .fenced ∧
    off.isPending 0x44 = false ∧ (off.pickSpare 31).isSome = true ∧
    good (s 0x44 (28 + 144 * 0x100)) 0x44 true [0xFF7F] = true := by unfold State.Canon; decide +kernel

/-! ### Alignment, Frost, resets and requester-down lines -/

theorem witness_Alignment :
    let s (d : Det) (ltc : Nat) (l : List Entry) : State := { live with
      det := d, fab := { Fab.reset with trk := l, hold := [3] }, sys := { live.sys with ltc := ltc } }
    let a (n : Nat) : Det := { Det.reset with align := n, alignAt := 0, lows := n }
    let dly := 4 * fld live.cfg.det 2 16
    let rep : State := { s (a 1) 4000000 [] with slices := [(143, { sliceUp with rep := { Spare.reset with repairs := [Repair.reset] } })] }
    (s (a 1) 4000000 []).fab.hold.contains 3 = true ∧ (s (a 1) 4000000 []).anyHeld = false ∧ live.fab.hold.contains 3 = false ∧
    (onSlice 143 { sliceUp with sch := { Sched.reset with held := 1 } }).anyHeld = true ∧
    (s (a 1) 4000000 []).Canon ∧ (s (a 1) 4000000 []).repairRuns = false ∧ rep.Canon ∧ rep.trackerEmpty = true ∧ rep.repairRuns = true ∧ (s (a 1) 4000000 []).trackerEmpty = true ∧ (s (a 1) 0 [readEntry]).trackerEmpty = false ∧
    (s (a 1) 3999999 [readEntry]).sys.ltc < (a 1).alignAt + 4000000 ∧
    (a 1).alignAt + 4000000 ≤ (s (a 1) 4000000 [readEntry]).sys.ltc ∧ (a 2).align = 2 ∧ 2 ≤ (a 2).lows ∧
    ({ a 2 with lows := 1 } : Det).lows < 2 ∧ (s (a 3) dly []).det.align = 3 ∧ (a 3).alignAt + dly ≤ (s (a 3) dly []).sys.ltc ∧
    (s (a 3) (dly - 1) []).sys.ltc < (a 3).alignAt + dly ∧ (s (a 2) 400000000 []).Canon ∧
    (a 2).alignAt + 400000000 ≤ (s (a 2) 400000000 []).sys.ltc ∧ (s (a 2) 399999999 []).sys.ltc < (a 2).alignAt + 400000000 ∧
    (∀ k, k < 37 → (s (a 3) dly []).fab.lines.contains k = (s (a 3) dly []).fab.down.contains k) ∧
    ({ a 2 with alignBoot := true } : Det).alignBoot = true := by unfold State.Canon; decide +kernel

theorem witness_Frost :
    let s := rung 0x70 [] mapped
    let e (y : Sys) (l : List Entry) : State := { mapped with sys := y, fab := { Fab.reset with trk := l, hold := [2] } }
    let y : Sys := { live.sys with entering := true, frost := true, frostAt := 0, ltc := 4000000 }
    let z : Sys := { live.sys with phase := .thaw, wakeLtc := 0, ltc := 1000000 }
    let rep : State := { e y [] with slices := [(143, { sliceUp with rep := { Spare.reset with repairs := [Repair.reset] } })] }
    let line : State := { e { y with phase := .frost } [] with fab := { Fab.reset with lines := [36] } }
    let serv : State := { e z [] with slices := [(31, sliceUp)] }
    s.Canon ∧ good s 0x70 false [] = true ∧ s.frostBad = false ∧ s.modechg = false ∧
    ({ s with mc := some (change .det false) } : State).modechg = true ∧ (e y []).fab.hold.contains 2 = true ∧
    (e y []).anyHeld = false ∧ s.fab.hold.contains 2 = false ∧
    ({ s with mbx := { s.mbx with pending := [⟨0x41, [], []⟩] } } : State).frostBad = true ∧
    (e y []).Canon ∧ (e y []).sys.entering = true ∧ (e y []).trackerEmpty = true ∧
    (e y []).repairRuns = false ∧ rep.repairRuns = true ∧ (e y []).sys.wakeSeen = false ∧
    (e { y with wakeSeen := true } []).sys.wakeSeen = true ∧ (e { y with wakeSeen := true } []).Canon ∧
    line.sys.phase = .frost ∧ line.fab.lines.contains 36 ≠ line.fab.down.contains 36 ∧
    serv.Canon ∧ serv.sys.phase = .thaw ∧ (serv.slice 31).rep.inServ = true ∧ (e y [readEntry]).trackerEmpty = false ∧
    (e y [readEntry]).sys.frostAt + 4000000 ≤ (e y [readEntry]).sys.ltc ∧
    (e { y with ltc := 3999999 } [readEntry]).sys.ltc < 0 + 4000000 ∧ (e y []).sys.wake = false ∧
    (e y []).therm.latch = false ∧ (e { y with phase := .frost } []).sys.phase = .frost := by
  unfold State.Canon; decide +kernel

theorem witness_Frost_thaw :
    let e (y : Sys) (l : List Entry) : State := { mapped with sys := y, fab := { Fab.reset with trk := l, hold := [2] } }
    let y : Sys := { live.sys with entering := true, frost := true, frostAt := 0, ltc := 4000000 }
    let z : Sys := { live.sys with phase := .thaw, wakeLtc := 0, ltc := 1000000 }
    let f : State := { e y [] with slices := [(31, { sliceUp with dat := { ChData.reset with
       lines := [⟨0, 0, 0, 0, 1, 0, 0, none, false⟩, ⟨0, 0, 1, 0, 1, 0, 0, none, false⟩] } })] }
    (∀ k, k < 37 → (e z []).fab.lines.contains k = (e z []).fab.down.contains k) ∧
    f.Canon ∧ (f.slice 31).dat.lines.Pairwise (fun x y => (x.bank, x.row, x.col) ≠ (y.bank, y.row, y.col)) ∧
    (∀ l ∈ (f.slice 31).dat.lines, l.out = none ∧ l.stay = false) ∧
    (e z []).Canon ∧ (e z []).sys.phase = .thaw ∧ (e z []).thawAt ≤ (e z []).sys.ltc ∧
    (e { z with ltc := 0 } []).sys.ltc < (e { z with ltc := 0 } []).thawAt := by unfold State.Canon; decide +kernel

theorem witness_ResetLines :
    let z : State := { mapped with sys := { live.sys with phase := .zeroing, ready := false } }
    let t : State := { z with cfg := { z.cfg with det := 0x102 } }
    let hot : State := { z with therm := { z.therm with latch := true } }
    let com : State := { live with mc := some (change .det true) }
    let r : State := { live with sys := { live.sys with rstEnd := true, rstN := false } }
    State.reset.Canon ∧ State.reset.sys.porN = false ∧ z.Canon ∧ z.sys.phase = .zeroing ∧ z.det.align = 0 ∧
    z.sys.rstEnd = false ∧ z.therm.latch = false ∧ hot.Canon ∧ hot.sys.phase = .zeroing ∧ hot.therm.latch = true ∧
    z.cfg.detMode ≠ .timing ∧ t.cfg.detMode = .timing ∧ live.sys.porN = true ∧ live.sys.rstN = true ∧
    (change .det true).committed = true ∧ com.mc = some (change .det true) ∧ live.mc = none ∧ r.Canon ∧ r.sys.porN = true ∧
    r.sys.rstEnd = true ∧ r.sys.everReady = true := by unfold State.Canon; decide +kernel

theorem witness_RequesterDown :
    let d (k : Nat) (l : List Entry) : State := onFab { Fab.reset with down := [k], masked := [k], trk := l }
    let c : State := onFab { Fab.reset with masked := [36] }
    let fr : State := { live with sys := { live.sys with phase := .frost } }
    State.reset.Canon ∧ State.reset.linesHeld = true ∧ live.linesHeld = false ∧ live.portsLive = true ∧ 36 ∉ live.fab.down ∧
    live.subEmpty 36 = true ∧ (d 36 []).Canon ∧ 36 ∈ (d 36 []).fab.down ∧ (d 36 []).isMasked 36 = true ∧
    (d 36 []).subEmpty 36 = true ∧ (d 0 [readEntry]).subEmpty 0 = false ∧ (d 0 [readEntry]).isMasked 0 = true ∧
    c.isMasked 36 = true ∧ 36 ∉ c.fab.down ∧ c.subEmpty 36 = true ∧ fr.linesHeld = false ∧ fr.portsLive = false ∧
    (∀ e ∈ live.fab.ghost, e.sub ≠ 36) := by unfold State.Canon; decide +kernel

/-! ### The control port, the ring, the lock-step link -/

theorem witness_ControlPort :
    let acked (s : State) : State := { s with evt := { s.evt with
      recs := s.evt.recs.drop s.evt.rd
      rd := 0
      mark := 0
      freed := s.logStamps s.evt.freed s.evt.rd } }
    let one : State := { live with evt := { live.evt with recs := [⟨0, 0, 0, 0, 0⟩] } }
    let lost : State := { live with evt := { live.evt with drop := 1 } }
    let full : State := { live with evt := { live.evt with drop := 1, recs := List.replicate 256 ⟨0, 0, 0, 0, 0⟩ } }
    let off (n : Nat) : Bool := n % 4 != 0 || (!([0x0020, 0x0100, 0x0404, 0x0408, 0x0800].contains n) &&
      !(decide (0x0140 ≤ n) && decide (n < 0x0180)) && !(decide (0x1000 ≤ n) && decide (n < 0x2000)))
    (∀ n ∈ [0x001C, 0x0024, 0x013C, 0x0180, 0x0400, 0x040C, 0x0804, 0x0FFC, 0x2000, 0x0022, 0x0FFF, 0xFFFF], off n = true) ∧
    (∀ n ∈ [0x0020, 0x0140, 0x017C, 0x1000, 0x1FFC], off n = false) ∧ 0x0140 + 4 * 15 = 0x017C ∧ 0x1000 + 4 * 1023 = 0x1FFC ∧
    bit ({ live.ctl with win := 0x100 } : Ctl).win 8 = true ∧ bit live.ctl.win 8 = false ∧
    State.reset.sys.porN = false ∧ live.sys.porN = true ∧ live.ctl.tlmSel ≠ 0x400 ∧ live.ctl.tlmSel ≠ 0x401 ∧
    ({ live.ctl with tlmSel := 0x401 } : Ctl).tlmSel = 0x401 ∧ one.evt.rd < one.logSeen ∧ live.logSeen ≤ live.evt.rd ∧
    live.evt.drop = 0 ∧ lost.evt.drop ≠ 0 ∧ (acked lost).logFull = false ∧ (acked full).logFull = true := by decide +kernel

/-- R36: the low word is returned and the high word captured. -/
theorem test_ltc_capture :
    let s : State := { live with sys := { live.sys with ltc := 3 * 2 ^ 32 + 7 } }
    (match exec .ltcLoRead s with
      | .next t => (t.ctl.rdata, ({ t with sys := { t.sys with ltc := 4 * 2 ^ 32 } } : State).readReg 0x0014)
      | _ => (0, 0)) = (7, 3) := by decide +kernel

/-- A stop that is present on the ring. -/
def ringed (r : Ring) (ltc : Nat) : State := { live with ring := { r with present := true }, sys := { live.sys with ltc := ltc } }

theorem witness_RingStop :
    let s := ringed Ring.reset 40000
    let m (seen : Nat) : Ring := { Ring.reset with members := [(7, some ⟨1, 0, 0, seen⟩)] }
    let b (ltc : Nat) : State := ringed { Ring.reset with pwr2 := 100 } ltc
    let f : List (BitVec 16) := ringFrame 1 7 7 [0, 0, 0, 0]
    let g : List (BitVec 16) := ringFrame 4 3 3 [0, 0]
    live.bypassed = false ∧ live.ring.present = false ∧ live.sys.ready = true ∧ State.reset.bypassed = true ∧
    s.ringLive = true ∧ s.ring.lastAnn + 40000 ≤ s.sys.ltc ∧ (ringed Ring.reset 39999).sys.ltc < 0 + 40000 ∧
    s.ring.aonRst = false ∧ live.ringLive = false ∧ 0 = s.ring.id ∧ 7 ≠ s.ring.id ∧
    Tab.get none (m 0).members 7 = some ⟨1, 0, 0, 0⟩ ∧ Tab.get none (m 0).members 6 = none ∧
    0 + 140000 ≤ (ringed (m 0) 140000).sys.ltc ∧ (ringed (m 0) 139999).sys.ltc < 0 + 140000 ∧ s.federated = false ∧
    (b 40000000).isMaster = true ∧ (b 40000000).ring.lastBud + 40000000 ≤ (b 40000000).sys.ltc ∧
    fld (b 40000000).ring.pwr2 0 16 ≠ 0 ∧ (b 39999999).sys.ltc < 0 + 40000000 ∧
    frameGood f = true ∧ frameGood [0] = false ∧ fld (f.headD 0) 9 3 ≠ s.ring.id ∧
    ¬ (fld (f.headD 0) 12 4 = 0 ∨ 8 < fld (f.headD 0) 12 4 ∨
      (fld (f.headD 0) 6 3 ≠ s.ring.id ∧ fld (f.headD 0) 6 3 ≠ fld (f.headD 0) 9 3)) ∧
    frameGood g = true ∧ fld (g.headD 0) 9 3 ≠ s.ring.id ∧ fld (g.headD 0) 6 3 = fld (g.headD 0) 9 3 ∧
    fld (g.headD 0) 12 4 ∈ [4, 7, 8] ∧ fld (f.headD 0) 12 4 ∉ [4, 7, 8] ∧ fld (f.headD 0) 6 3 ≠ s.ring.id ∧
    frameGood (ringFrame 1 7 0 [0]) = true ∧ fld ((ringFrame 1 7 0 [0]).headD 0) 6 3 = s.ring.id ∧
    fld ((ringFrame 1 7 0 [0]).headD 0) 12 4 ∉ [4, 7, 8] ∧ fld ((ringFrame 1 7 0 [0]).headD 0) 9 3 = 7 ∧
    frameGood (ringFrame 4 7 0 [0, 0]) = true ∧ fld ((ringFrame 4 7 0 [0, 0]).headD 0) 12 4 ∈ [4, 7, 8] ∧
    fld ((ringFrame 4 7 0 [0, 0]).headD 0) 9 3 = 7 ∧ fld ((ringFrame 4 7 0 [0, 0]).headD 0) 6 3 = s.ring.id := by decide +kernel

theorem witness_GangFrames :
    let g (aw : List Nat) (master : Nat) : Gang := ⟨5, master, 0x20, 1, 0, aw, 0, 8, false, 0⟩
    let m (x : Gang) (opc : BitVec 8) : ModeChg := { change .rate false with gang := some x, opc := opc }
    let s (x : Gang) (opc : BitVec 8) (ltc : Nat) : State := { ringed { Ring.reset with pwr0 := 2 } ltc with mc := some (m x opc) }
    let mem : State := { ringed { Ring.reset with id := 7, pwr0 := 2, members := [(0, some ⟨3, 0, 0, 0⟩), (7, some ⟨3, 0, 0, 0⟩)] } 0 with
      stk := { live.stk with rates := 3 } }
    (s (g [7] 0) 0x20 0).ringLive = true ∧ (s (g [7] 0) 0x20 0).mc = some (m (g [7] 0) 0x20) ∧ (g [7] 0).master = 0 ∧
    7 ∈ (g [7] 0).awaiting ∧ (g [7] 0).sent = false ∧ (g [7] 0).errId = 8 ∧ (m (g [7] 0) 0x20).pend = false ∧
    (s (g [7] 0) 0x20 0).unitsAcked = true ∧ (g [6, 7] 0).awaiting.filter (fun i => i != 7) ≠ [] ∧
    (g [7] 0).awaiting.filter (fun i => i != 7) = [] ∧ 0 + 400000 ≤ (s (g [7] 0) 0x20 400000).sys.ltc ∧
    (s (g [7] 0) 0x20 399999).sys.ltc < 0 + 400000 ∧ mem.ringLive = true ∧ mem.gangOn = true ∧ 0 = mem.ring.master ∧
    0 ≠ mem.ring.id ∧ mem.sys.phase ≠ .frost ∧ mem.sys.phase ≠ .thaw ∧
    mem.modechg = false ∧ isOk (mem.gangCheck ⟨5, 0, 0x20, 1, 0, [], 0, 8, false, 0⟩ false) = true ∧
    isOk (mem.gangCheck ⟨5, 0, 0x20, 3, 0, [], 0, 8, false, 0⟩ false) = false ∧
    (let r : State := { mem with ring := { mem.ring with gang := some { g [] 0 with sent := true } } }
     r.ringLive = true ∧ r.mc = none ∧ r.ring.gang = some { g [] 0 with sent := true } ∧ r.modechg = true) ∧
    (g [7] 0).xid = 5 ∧ (m (g [0] 0) 0).opc = 0 := by decide +kernel

theorem witness_GangDigest :
    let agg : Aggr := ⟨15, 1, 0, [(7, 0)], 0, 0⟩
    let s (ltc : Nat) (l : List Aggr) : State :=
      ringed { Ring.reset with pwr0 := 2, pwr3 := 0x1FFFF, members := [(0, some ⟨3, 0x8000, 0, 0⟩), (7, some ⟨3, 0x8000, 0, 0⟩)], aggs := l } ltc
    (s 0 []).ringLive = true ∧ (s 0 []).isMaster = true ∧ (s 0 []).masterAgg.testBit 15 = true ∧ 7 ∈ (s 0 []).aggGroup 15 ∧
    Tab.get none (s 0 []).ring.gdone 15 = none ∧ 0 ∈ (s 0 []).aggGroup 15 ∧ (0 : Nat) ≠ 7 ∧
    ((s 4000000 [agg]).ring.aggs.find? fun a => a.stream == 15 && decide (a.first + 4000000 ≤ (s 4000000 [agg]).sys.ltc)) = some agg ∧
    ((s 3999999 [agg]).ring.aggs.find? fun a => a.stream == 15 && decide (a.first + 4000000 ≤ (s 3999999 [agg]).sys.ltc)) = none := by
  decide +kernel

/-- CRC-32C of a list in two parts. -/
theorem crc_append (c d : Nat) (l m : List Nat) (h : crc32cReg c l = d) : crc32cReg c (l ++ m) = crc32cReg d m := by
  rw [← h]; exact List.foldl_append

/-- CRC-32C of the first eleven bytes of a KX_DXP frame, 0x01 to 0x2B, and of the zeros that follow them. -/
theorem crc_dxp (l : List Nat) (a b c d : Nat) (ha : crc32cReg 0xFFFFFFFF l = a) (hb : crc32cReg a (List.replicate 11 0) = b)
    (hc : crc32cReg b (List.replicate 11 0) = c) (hd : crc32cReg c (List.replicate 10 0) = d) :
    crc32c (l ++ (List.replicate 11 0 ++ (List.replicate 11 0 ++ List.replicate 10 0))) = d ^^^ 0xFFFFFFFF := by
  rw [crc32c, crc_append _ _ _ _ ha, crc_append _ _ _ _ hb, crc_append _ _ _ _ hc, hd]

/-- A frame of KX_DXP of the TYPE and the CRC-32C given, sequence number 9 and DEVICE_ID 0 (R736). -/
def dxp (typ crc : Nat) : BitVec 384 := BitVec.ofNat 384 (typ * 2 ^ 8 + 9 * 2 ^ 32 + crc * 2 ^ 352)

theorem dxp_heartbeat_good : dxpCrcOk (dxp 0 3191172111) = true := by
  have h := crc_dxp [0, 0, 0, 9, 0, 0, 0, 0, 0, 0, 0] 1579757818 2939359024 3703630151 1103795184 (by decide +kernel) (by decide +kernel)
    (by decide +kernel) (by decide +kernel)
  have e : (toBytes 44 (dxp 0 3191172111).toNat).drop 1 =
      [0, 0, 0, 9, 0, 0, 0, 0, 0, 0, 0] ++ (List.replicate 11 0 ++ (List.replicate 11 0 ++ List.replicate 10 0)) := by decide +kernel
  rw [dxpCrcOk, e, h]; decide +kernel

theorem dxp_record_good : dxpCrcOk (dxp 1 745424798) = true := by
  have h := crc_dxp [1, 0, 0, 9, 0, 0, 0, 0, 0, 0, 0] 3378038587 4079411588 2264515176 3549542497 (by decide +kernel) (by decide +kernel)
    (by decide +kernel) (by decide +kernel)
  have e : (toBytes 44 (dxp 1 745424798).toNat).drop 1 =
      [1, 0, 0, 9, 0, 0, 0, 0, 0, 0, 0] ++ (List.replicate 11 0 ++ (List.replicate 11 0 ++ List.replicate 10 0)) := by decide +kernel
  rw [dxpCrcOk, e, h]; decide +kernel

theorem dxp_bad : dxpCrcOk (dxp 0 3191172110) = false := by
  have h := crc_dxp [0, 0, 0, 9, 0, 0, 0, 0, 0, 0, 0] 1579757818 2939359024 3703630151 1103795184 (by decide +kernel) (by decide +kernel)
    (by decide +kernel) (by decide +kernel)
  have e : (toBytes 44 (dxp 0 3191172110).toNat).drop 1 =
      [0, 0, 0, 9, 0, 0, 0, 0, 0, 0, 0] ++ (List.replicate 11 0 ++ (List.replicate 11 0 ++ List.replicate 10 0)) := by decide +kernel
  rw [dxpCrcOk, e, h]; decide +kernel

theorem witness_LockStepLink :
    let s (d : Det) (ltc : Nat) : State := { live with
      cfg := { live.cfg with ls := 1, lsPeer := 0 }
      det := d
      sys := { live.sys with ltc := ltc } }
    let mine : LsRec := ⟨0, 0, 1⟩
    (s Det.reset 0).lsLive = true ∧ dxpCrcOk (dxp 0 3191172111) = true ∧ dxpCrcOk (dxp 1 745424798) = true ∧ dxpCrcOk (dxp 0 3191172110) = false ∧
    fld (dxp 0 3191172111) 8 8 = 0 ∧ fld (dxp 1 745424798) 8 8 = 1 ∧ fld (dxp 0 3191172111) 16 16 = (s Det.reset 0).cfg.peerId ∧
    fld (dxp 1 745424798) 16 16 ≠ ({ s Det.reset 0 with cfg := { live.cfg with ls := 1, lsPeer := 1 } } : State).cfg.peerId ∧
    (some (8 : BitVec 16) = some (9 - 1)) ∧ (s Det.reset 0).det.rxSeq = none ∧
    takeFirst (fun x : LsRec => x.stream == 0 && x.n == 0) [mine] = some (mine, []) ∧
    takeFirst (fun x : LsRec => x.stream == 0 && x.n == 0) ([] : List LsRec) = none ∧ mine.d ≠ 0 ∧
    (s Det.reset 4000).det.txq = [] ∧ 0 + 4000 ≤ (s Det.reset 4000).sys.ltc ∧
    (s Det.reset 0).sys.porN = true ∧ (s Det.reset 0).sys.rstEnd = false ∧
    (s { Det.reset with linkUp := true } 40000).det.linkUp = true ∧ 0 + 40000 ≤ (s Det.reset 40000).sys.ltc ∧
    (s { Det.reset with txq := [⟨1, 0, 0, 0, 0⟩] } 192).det.txq = [⟨1, 0, 0, 0, 0⟩] ∧ 0 + 192 ≤ (s Det.reset 192).sys.ltc := by
  refine ⟨by decide +kernel, dxp_heartbeat_good, dxp_record_good, dxp_bad, by decide +kernel⟩

theorem witness_TestWrapper : State.reset.Canon ∧ State.reset.sys.porN = false ∧ mapped.Canon ∧ mapped.sys.porN = true ∧
    ({ State.reset.wrap with bistRun := true } : Wrap).bistRun = true ∧ mapped.sys.ready = true ∧ mapped.det.mode ≠ .timing ∧
    bit (0x100 + 143 : BitVec 16) 8 = true ∧ fld (0x100 + 143 : BitVec 16) 0 8 = 143 ∧ mapped.freeSpare 143 = true ∧
    mapped.freeSpare 142 = false ∧ bit (143 : BitVec 16) 8 = false ∧ mapped.istAllowed = true ∧
    ({ mapped with therm := { mapped.therm with latch := true } } : State).istAllowed = false := by unfold State.Canon; decide +kernel

theorem test_dxp_frame : dxpFrame 0x1234 ⟨1, 0x0102, 3, 4, 5⟩ % 2 ^ 96 = 0x0000000400030102123401BC ∧
    fld (dxpFrame 0x1234 ⟨1, 0x0102, 3, 4, 5⟩) 96 8 = 5 := by decide +kernel

end Sys2Proof.Tests
end

section
/-! ### Sparse tables and queue records -/

namespace Sys2Proof.Machine

/-- Of two writes to one number the later one stands. -/
theorem Tab.set_set {α : Type} [DecidableEq α] {d : α} {n : Option Nat} {t : Tab α} {k : Nat} (v w : α)
    (h : Tab.above d n t = true) : Tab.set d (Tab.set d t k v) k w = Tab.set d t k w := by
  induction t generalizing n with
  | nil => by_cases hv : v = d <;> simp [Tab.set, hv]
  | cons a t ih =>
    obtain ⟨j, x⟩ := a
    have ht : Tab.above d (some j) t = true := by
      simp only [Tab.above, Bool.and_eq_true] at h
      exact h.2
    rcases lt_trichotomy k j with hk | rfl | hk
    · by_cases hv : v = d <;> simp [Tab.set, hv, hk]
    · by_cases hv : v = d
      · cases t with
        | nil => simp [Tab.set, hv]
        | cons b t =>
          have hb : k < b.1 := by simp_all [Tab.above]
          simp [Tab.set, hv, hb]
      · simp [Tab.set, hv]
    · have h1 : ¬ k < j := by omega
      have h2 : k ≠ j := by omega
      simp [Tab.set, h1, h2, ih ht]

/-- A change of every value that keeps the default changes the value at each number. -/
theorem Tab.get_mapVals {α : Type} [DecidableEq α] {d : α} {n : Option Nat} {t : Tab α} {f : Nat → α → α} {k : Nat}
    (h : Tab.above d n t = true) (hd : f k d = d) : Tab.get d (Tab.mapVals d f t) k = f k (Tab.get d t k) := by
  induction t generalizing n with
  | nil => exact hd.symm
  | cons a t ih =>
    obtain ⟨j, x⟩ := a
    have ht : Tab.above d (some j) t = true := by
      simp only [Tab.above, Bool.and_eq_true] at h
      exact h.2
    by_cases hj : j = k
    · subst hj
      by_cases hx : f j x = d
      · simp [Tab.mapVals, Tab.get, hx, Tab.get_of_above (Tab.mapVals_above ht) le_rfl]
      · simp [Tab.mapVals, Tab.get, hx]
    · by_cases hx : f j x = d <;> simp [Tab.mapVals, Tab.get, hx, hj, ih ht]

variable {s : State} {q i : Nat}

/-- The record of a queue reads as changed. -/
theorem State.icq_modIcq (h : Tab.wf Icq.reset s.ctl.icqs = true) (f : Icq → Icq) : (s.modIcq q i f).icq q i = f (s.icq q i) :=
  Tab.get_set_self _ h

/-- Changes of a record that agree on it are one. -/
theorem State.modIcq_congr {f g : Icq → Icq} (h : f (s.icq q i) = g (s.icq q i)) : s.modIcq q i f = s.modIcq q i g := by
  unfold State.icq at h
  simp only [State.modIcq, Tab.upd, h]

/-- Two changes of a record in a row are one. -/
theorem State.modIcq_modIcq (h : Tab.wf Icq.reset s.ctl.icqs = true) (f g : Icq → Icq) :
    (s.modIcq q i f).modIcq q i g = s.modIcq q i fun x => g (f x) := by
  simp only [State.modIcq, Tab.upd, Tab.get_set_self _ h, Tab.set_set _ _ h]

theorem State.modIcq_wf (h : Tab.wf Icq.reset s.ctl.icqs = true) (f : Icq → Icq) :
    Tab.wf Icq.reset (s.modIcq q i f).ctl.icqs = true := Tab.upd_wf h

/-! ### The comparison of the copies (R69 to R72) -/

/-- The state in which the copies of pointer `k` of queue (q, i) differ from it in `a` and `b`. -/
def State.setCopies (s : State) (q i k a b : Nat) : State :=
  s.modIcq q i fun x => { x with dmgA := Tab.set 0 x.dmgA k a, dmgB := Tab.set 0 x.dmgB k b }

/-- Both copies of pointer `k` of queue (q, i) are good (R69). -/
def State.GoodCopies (s : State) (q i k : Nat) : Prop :=
  (Tab.wf 0 (s.icq q i).dmgA = true ∧ Tab.get 0 (s.icq q i).dmgA k = 0) ∧
    Tab.wf 0 (s.icq q i).dmgB = true ∧ Tab.get 0 (s.icq q i).dmgB k = 0

/-- An upset of a pointer whose copies are good leaves its flips in them, and the copies are compared. -/
theorem exec_icqPtrUpset {u : IcqUpset} (hp : s.sys.porN = true) (he : icqExists u.qclass.val u.qindex.val = true)
    (hg : s.GoodCopies u.qclass.val u.qindex.val u.ptr.val) :
    exec (.icqPtrUpset u) s = .next ((s.setCopies u.qclass.val u.qindex.val u.ptr.val (icqFlips u.qclass.val u.flipA)
      (icqFlips u.qclass.val u.flipB)).comparePtr u.qclass.val u.qindex.val u.ptr.val u.words u.bound) := by
  obtain ⟨⟨-, ha⟩, -, hb⟩ := hg
  have hm : s.modIcq u.qclass.val u.qindex.val (fun x =>
      { x with dmgA := Tab.upd 0 x.dmgA u.ptr.val (· ^^^ icqFlips u.qclass.val u.flipA),
               dmgB := Tab.upd 0 x.dmgB u.ptr.val (· ^^^ icqFlips u.qclass.val u.flipB) }) =
      s.setCopies u.qclass.val u.qindex.val u.ptr.val (icqFlips u.qclass.val u.flipA) (icqFlips u.qclass.val u.flipB) :=
    State.modIcq_congr (by simp only [Tab.upd, ha, hb, Nat.zero_xor])
  change execIcqPtrUpset u s = _
  simp [execIcqPtrUpset, hp, he, hm]

variable {k a b words : Nat} {bound : List Nat}

/-- The copies read as they were left. -/
theorem State.get_setCopies (h : Tab.wf Icq.reset s.ctl.icqs = true) (hg : s.GoodCopies q i k) :
    Tab.get 0 ((s.setCopies q i k a b).icq q i).dmgA k = a ∧ Tab.get 0 ((s.setCopies q i k a b).icq q i).dmgB k = b := by
  obtain ⟨⟨hA, -⟩, hB, -⟩ := hg
  rw [State.setCopies, State.icq_modIcq h]
  exact ⟨Tab.get_set_self _ hA, Tab.get_set_self _ hB⟩

/-- Copies written again hold what was written last. -/
theorem State.setCopies_setCopies (h : Tab.wf Icq.reset s.ctl.icqs = true) (hg : s.GoodCopies q i k) (v w : Nat) :
    (s.setCopies q i k a b).setCopies q i k v w = s.setCopies q i k v w := by
  obtain ⟨⟨hA, -⟩, hB, -⟩ := hg
  rw [State.setCopies, State.setCopies, State.modIcq_modIcq h]
  exact State.modIcq_congr (by simp only [Tab.set_set _ _ hA, Tab.set_set _ _ hB])

/-- A reset clears the copies with the pointers, whatever they held (R74). -/
theorem State.clearQueue_setCopies (h : Tab.wf Icq.reset s.ctl.icqs = true) (lost : Nat) :
    (s.setCopies q i k a b).clearQueue q i lost = s.clearQueue q i lost := by
  have hm : (s.setCopies q i k a b).modIcq q i (fun x => { x.emptied with lost := min 255 lost }) =
      s.modIcq q i fun x => { x.emptied with lost := min 255 lost } := by
    rw [State.setCopies, State.modIcq_modIcq h]
    exact State.modIcq_congr rfl
  unfold State.clearQueue
  rw [hm]
  rfl

theorem State.resetQueue_setCopies (h : Tab.wf Icq.reset s.ctl.icqs = true) (cause : Nat) :
    (s.setCopies q i k a b).resetQueue q i cause words bound = s.resetQueue q i cause words bound := by
  simp only [State.resetQueue, State.clearQueue_setCopies h]
  rfl

section
variable (h : Tab.wf Icq.reset s.ctl.icqs = true) (hg : s.GoodCopies q i k)
include h hg

/-- Copies that are intact and equal stay (R71). -/
theorem State.comparePtr_equal (ha : intact a = true) :
    (s.setCopies q i k a a).comparePtr q i k words bound = s.setCopies q i k a a := by
  obtain ⟨eA, eB⟩ := State.get_setCopies (a := a) (b := a) h hg
  simp [State.comparePtr, eA, eB, ha]

/-- The one intact copy is written over the other, and the class's corrections count (R71). -/
theorem State.comparePtr_corrected (hab : intact a ≠ intact b) :
    (s.setCopies q i k a b).comparePtr q i k words bound =
      (s.setCopies q i k (if intact a then a else b) (if intact a then a else b)).stat 0x320 (32 + q) 1 := by
  obtain ⟨eA, eB⟩ := State.get_setCopies (a := a) (b := b) h hg
  simp only [State.comparePtr, eA, eB, bne_iff_ne.2 hab, if_true]
  exact congrArg (State.stat · 0x320 (32 + q) 1) (State.setCopies_setCopies h hg _ _)

/-- Otherwise the queue is reset (R72). -/
theorem State.comparePtr_lost (hab : intact a = intact b) (hne : ¬ (intact a = true ∧ a = b)) :
    (s.setCopies q i k a b).comparePtr q i k words bound = s.resetQueue q i (if intact a then 1 else 2) words bound := by
  obtain ⟨eA, eB⟩ := State.get_setCopies (a := a) (b := b) h hg
  have hc : (intact a && a == b) = false := by simpa using hne
  simp [State.comparePtr, eA, eB, ← hab, hc, State.resetQueue_setCopies h]

end
end Sys2Proof.Machine
end

section
/-! ### What a tracker entry that completes with FAULT can change (R74, R77, R482) -/

namespace Sys2Proof.Machine

/-! #### Entries of the tracker after an update -/

/-- An entry reads as changed. -/
theorem Fab.entry_modEntry {f : Fab} {id : Nat} {g : Entry → Entry} (hg : ∀ e, (g e).id = e.id) :
    (f.modEntry id g).entry id = (f.entry id).map g := by
  unfold Fab.entry Fab.modEntry
  induction f.trk with
  | nil => rfl
  | cons a l ih => by_cases ha : a.id = id <;> simp_all

/-- The other entries stay. -/
theorem Fab.entry_modEntry_ne {f : Fab} {id j : Nat} {g : Entry → Entry} (hg : ∀ e, (g e).id = e.id) (hj : j ≠ id) :
    (f.modEntry id g).entry j = f.entry j := by
  unfold Fab.entry Fab.modEntry
  induction f.trk with
  | nil => rfl
  | cons a l ih =>
    by_cases ha : a.id = id
    · simp_all [Ne.symm hj]
    · by_cases h : a.id = j <;> simp_all

/-- When an entry is freed the others stay. -/
theorem Fab.entry_free_ne {f : Fab} {id j : Nat} (hj : j ≠ id) :
    Fab.entry { f with trk := f.trk.filter fun e => e.id != id } j = f.entry j := by
  have hp (e : Entry) : ((e.id != id) = true ∧ (e.id == j) = true) ↔ (e.id == j) = true := by
    by_cases he : e.id = j <;> simp [he, hj]
  simp only [Fab.entry, List.find?_filter, hp, Bool.decide_eq_true]

/-- Between `s` and `t` work of tracker entry `id` has been ended: no port, access or counted part but those named has changed, no
other entry, and no channel has a word more in its class 0 queue than before. -/
structure State.EndsWork (id : Nat) (s t : State) : Prop where
  frame : Frame [.ctl, .evt, .mbx, .fab, .slices] s t
  entry : ∀ j, j ≠ id → t.fab.entry j = s.fab.entry j
  slices : Tab.wf Slice.reset s.slices = true → Tab.wf Slice.reset t.slices = true ∧ ∀ p,
    (t.slice p).dat = (s.slice p).dat ∧ (t.slice p).sch.window ⊆ (s.slice p).sch.window ∧
      (t.slice p).sch.narrowSlot ⊆ (s.slice p).sch.narrowSlot
  icq0 : ∀ i, i < 256 → t.icq 0 i = s.icq 0 i

namespace State.EndsWork

variable {id : Nat} {s t u : State}

theorem refl (id : Nat) (s : State) : EndsWork id s s :=
  ⟨.refl .., fun _ _ => rfl, fun h => ⟨h, fun _ => ⟨rfl, .refl _, .refl _⟩⟩, fun _ _ => rfl⟩

theorem trans (h1 : EndsWork id s t) (h2 : EndsWork id t u) : EndsWork id s u where
  frame := h1.frame.trans h2.frame
  entry j hj := (h2.entry j hj).trans (h1.entry j hj)
  slices hs := by
    obtain ⟨ht, h1s⟩ := h1.slices hs
    obtain ⟨hu, h2s⟩ := h2.slices ht
    refine ⟨hu, fun p => ?_⟩
    obtain ⟨d1, w1, n1⟩ := h1s p
    obtain ⟨d2, w2, n2⟩ := h2s p
    exact ⟨d2.trans d1, List.Subset.trans w2 w1, List.Subset.trans n2 n1⟩
  icq0 i hi := (h2.icq0 i hi).trans (h1.icq0 i hi)

/-- A loop whose turns end only work of `id` ends only such work. -/
theorem each {α : Type} {f : State → α → State} (h : ∀ s a, EndsWork id s (f s a)) (l : List α) (s : State) :
    EndsWork id s (s.each l f) := by
  unfold State.each
  induction l generalizing s with
  | nil => exact refl ..
  | cons a l ih => exact (h s a).trans (ih _)

theorem ite {c : Prop} [Decidable c] (h1 : EndsWork id s t) (h2 : EndsWork id s u) : EndsWork id s (if c then t else u) := by
  split
  · exact h1
  · exact h2

/-! #### Updates of one part -/

theorem ctl (id : Nat) (s : State) (f : Ctl → Ctl)
    (h : ∀ i, i < 256 → Tab.get Icq.reset (f s.ctl).icqs i = Tab.get Icq.reset s.ctl.icqs i) :
    EndsWork id s (s.modCtl f) where
  frame := .of rfl fun p => by cases p <;> first | exact .inl (by decide) | exact .inr rfl
  entry _ _ := rfl
  slices hs := ⟨hs, fun _ => ⟨rfl, .refl _, .refl _⟩⟩
  icq0 i hi := by simpa [State.icq] using h i hi

theorem fab (s : State) {f : Fab → Fab} (h : ∀ j, j ≠ id → (f s.fab).entry j = s.fab.entry j) : EndsWork id s (s.modFab f) where
  frame := .of rfl fun p => by cases p <;> first | exact .inl (by decide) | exact .inr rfl
  entry := h
  slices hs := ⟨hs, fun _ => ⟨rfl, .refl _, .refl _⟩⟩
  icq0 _ _ := rfl

theorem slice (id : Nat) (s : State) (p : Nat) (f : Slice → Slice) (hd : ∀ x, (f x).dat = x.dat) (hs : ∀ x, (f x).sch = x.sch) :
    EndsWork id s (s.modSlice p f) where
  frame := .of rfl fun p => by cases p <;> first | exact .inl (by decide) | exact .inr rfl
  entry _ _ := rfl
  slices h := by
    refine ⟨Tab.set_wf h, fun p' => ?_⟩
    by_cases hp : p' = p
    · subst hp
      simp [State.slice_modSlice h, hd, hs]
    · simp [State.slice_modSlice_ne s f hp]
  icq0 _ _ := rfl

theorem count (id : Nat) (s : State) (top : Nat) (e : Ev) (page slot n : Nat) : EndsWork id s (s.count top e page slot n) where
  frame := (s.count_frame top e page slot n).mono (by decide)
  entry _ _ := by simp
  slices hs := by simpa [State.slice] using hs
  icq0 i _ := by rw [State.icq, State.count_ctl]; rfl

/-! #### Crossing queues of the classes from 1 on, and op queues -/

theorem modIcq (id : Nat) (s : State) {q : Nat} (hq : 0 < q) (i : Nat) (f : Icq → Icq) : EndsWork id s (s.modIcq q i f) :=
  ctl id s (fun c => { c with icqs := Tab.upd Icq.reset c.icqs (q * 256 + i) f }) fun j hj => Tab.get_set_ne _ (by omega)

theorem icqPass (id : Nat) (s : State) {q : Nat} (hq : 0 < q) (i : Nat) : EndsWork id s (s.icqPass q i) := modIcq id s hq i _

theorem icqRelease (id : Nat) (s : State) {q : Nat} (hq : 0 < q) (i n : Nat) : EndsWork id s (s.icqRelease q i n) :=
  (modIcq id s hq i _).trans (ite (refl ..) (modIcq _ _ hq i _))

theorem modBrew (id : Nat) (s : State) (p : Nat) (f : BrewSeq → BrewSeq) : EndsWork id s (s.modBrew p f) :=
  slice id s p _ (fun _ => rfl) fun _ => rfl

theorem modBt (id : Nat) (s : State) (p : Nat) (f : BankSet → BankSet) : EndsWork id s (s.modBt p f) :=
  slice id s p _ (fun _ => rfl) fun _ => rfl

theorem purgeOps (id : Nat) (s : State) (p : Nat) : EndsWork id s (s.purgeOps p) :=
  (modBrew ..).trans (icqRelease _ _ (by decide) ..)

theorem dropOps (id : Nat) (s : State) (p l : Nat) : EndsWork id s (s.dropOps p l) := (modBrew ..).trans (purgeOps ..)

theorem setLoan (id : Nat) (s : State) (p : Nat) (v : Bool) : EndsWork id s (s.setLoan p v) :=
  each (fun s _ => modBt id s p _) ..

theorem brewLeave (id : Nat) (s : State) (p : Nat) : EndsWork id s (s.brewLeave p) := by
  unfold State.brewLeave
  refine (setLoan id s p false).trans (.trans ?_ (modBrew ..))
  split
  · exact dropOps ..
  · exact refl ..

/-! #### Stopping a launch -/

theorem modLaunch (id : Nat) (s : State) (l : Nat) (g : Launch → Launch) : EndsWork id s (s.modFab fun f => f.modLaunch l g) :=
  fab s fun _ _ => rfl

theorem sendWord (s : State) {q : Nat} (hq : 0 < q) (i : Nat) (w : CtlWord) {take : State → State} (h : ∀ s, EndsWork id s (take s)) :
    EndsWork id s (s.sendWord q i w take) :=
  (icqPass id s hq i).trans (ite (h _) (ctl _ _ _ fun _ _ => rfl))

theorem tellStopped (id : Nat) (s : State) (p l c : Nat) : EndsWork id s (s.tell 1 p (.stopped l c)) :=
  sendWord s (by decide) p _ fun s => modLaunch id s l _

theorem brewStopped (id : Nat) (s : State) (p : Nat) : EndsWork id s (s.brewStopped p) := by
  unfold State.brewStopped
  split
  · exact (tellStopped ..).trans (brewLeave ..)
  · exact brewLeave ..

theorem stopOn (id : Nat) (s : State) (p l c : Nat) : EndsWork id s (s.stopOn p l c) :=
  ite (ite (brewStopped ..) (modBrew ..)) (ite (refl ..) ((dropOps ..).trans (tellStopped ..)))

theorem killLaunch (id : Nat) (s : State) (l : Nat) (st : RspStatus) : EndsWork id s (s.killLaunch l st) := by
  unfold State.killLaunch
  split
  · exact refl ..
  · exact ite (modLaunch ..) ((modLaunch ..).trans (each (fun s c => sendWord s (by decide) _ _ fun s => stopOn ..) ..))

/-! #### The tracker -/

theorem modEntry (s : State) (g : Entry → Entry) (hg : ∀ e, (g e).id = e.id) : EndsWork id s (s.modEntry id g) :=
  fab s fun _ hj => Fab.entry_modEntry_ne hg hj

theorem freeEntry (id : Nat) (s : State) : EndsWork id s (s.freeEntry id) := fab s fun _ hj => Fab.entry_free_ne hj

theorem dropWork (id : Nat) (s : State) : EndsWork id s (s.dropWork id) where
  frame := .of rfl fun p => by cases p <;> first | exact .inl (by decide) | exact .inr rfl
  entry _ _ := rfl
  slices h := by
    refine ⟨Tab.mapVals_wf h, fun p => ?_⟩
    have hp : (s.dropWork id).slice p = _ := Tab.get_mapVals h rfl
    rw [hp]
    exact ⟨rfl, List.filter_subset_self .., List.filter_subset_self ..⟩
  icq0 _ _ := rfl

theorem lateOnce (id : Nat) (s : State) : EndsWork id s (s.lateOnce id) := by
  unfold State.lateOnce
  split
  · exact refl ..
  · exact ite (refl ..) ((ite (count ..) (refl ..)).trans (modEntry _ _ fun _ => rfl))

theorem decideEntry (id : Nat) (s : State) (st : RspStatus) (err : BitVec 8) : EndsWork id s (s.decideEntry id st err) :=
  (modEntry s _ fun e => by split <;> rfl).trans (lateOnce ..)

theorem countExpand (id : Nat) (s : State) (port : Nat) (r : BitVec 256) (sat : Bool) (accs : List Acc) (o n : Nat) :
    EndsWork id s (s.countExpand port r sat accs o n) :=
  ite (refl ..) (((count ..).trans (count ..)).trans (count ..))

theorem settleGather (id : Nat) (s : State) : EndsWork id s (s.settleGather id) := by
  unfold State.settleGather
  split
  · exact refl ..
  · refine ite (refl ..) ?_
    split
    · exact (fab s fun _ _ => rfl).trans (freeEntry ..)
    · exact ((countExpand ..).trans (fab _ fun _ _ => rfl)).trans (freeEntry ..)
    · exact refl ..

/-- The entry that completes with FAULT is the only one that changes. -/
theorem faultEntry (id : Nat) (s : State) : EndsWork id s (s.faultEntry id) := by
  unfold State.faultEntry
  split
  · exact refl ..
  · refine (dropWork id s).trans ?_
    split
    · exact freeEntry ..
    · exact (modEntry _ (fun x => x.stopAll .fault) fun _ => rfl).trans (settleGather ..)
    · exact (modEntry _ (fun x => x.stopAll .fault) fun _ => rfl).trans (settleGather ..)
    · exact killLaunch ..
    all_goals exact (modEntry _ _ fun e => by split <;> rfl).trans (decideEntry ..)

end State.EndsWork

/-! ### An entry that answers FAULT (R74, R77) -/

/-- A read or write of a port or of the landing port: it waits for its own answer. -/
def Kind.IsTransfer (k : Kind) : Prop :=
  k = .rd ∨ k = .wr ∨ k = .wrPartial ∨ k = .acc ∨ k = .readBulk ∨ k = .writeBulk

/-- Entry `id` is a transfer, open or ended by FAULT already. -/
def State.Faultable (id : Nat) (s : State) : Prop :=
  ∃ x, s.fab.entry id = some x ∧ x.kind.IsTransfer ∧ (x.fin = none ∨ x.fin = some ⟨.fault, eOk⟩)

/-- Entry `id` is a transfer that has ended with FAULT. -/
def State.Faulted (id : Nat) (s : State) : Prop :=
  ∃ x, s.fab.entry id = some x ∧ x.kind.IsTransfer ∧ x.fin = some ⟨.fault, eOk⟩

theorem State.Faulted.faultable {id : Nat} {s : State} (h : s.Faulted id) : s.Faultable id := by
  obtain ⟨x, hx, hk, hf⟩ := h
  exact ⟨x, hx, hk, .inr hf⟩

/-- Whether a request has been counted changes nothing else of its entry. -/
theorem State.faulted_lateOnce {id : Nat} {s : State} (h : s.Faulted id) : (s.lateOnce id).Faulted id := by
  obtain ⟨x, hx, hk, hf⟩ := h
  have hc : (s.countLate x).fab = s.fab := by simp only [State.countLate, apply_ite State.fab, State.statMeter_fab, ite_self]
  by_cases hl : x.counted || x.headerAnswer.isNone
  · exact ⟨x, by simp [State.lateOnce, hx, hl], hk, hf⟩
  · refine ⟨{ x with counted := true }, ?_, hk, hf⟩
    simp [State.lateOnce, hx, hl, hc, Fab.entry_modEntry]

/-- Its completion with FAULT gives such a request that answer. -/
theorem State.faulted_faultEntry {id : Nat} {s : State} (h : s.Faultable id) : (s.faultEntry id).Faulted id := by
  obtain ⟨x, hx, hk, hf⟩ := h
  have he : s.faultEntry id = (((s.dropWork id).modEntry id fun x => if x.fin.isSome then x else x.stopAll .fault).decideEntry id
      .fault eOk) := by
    rcases hk with hk | hk | hk | hk | hk | hk <;> simp [State.faultEntry, hx, hk]
  rw [he]
  have hd : (s.dropWork id).fab.entry id = some x := hx
  refine State.faulted_lateOnce ?_
  rcases hf with hf | hf
  · refine ⟨(x.stopAll .fault).done .fault eOk, ?_, hk, rfl⟩
    simp [Fab.entry_modEntry, apply_ite Entry.id, Entry.stopAll, Entry.done, hd, hf]
  · refine ⟨x, ?_, hk, hf⟩
    simp [Fab.entry_modEntry, apply_ite Entry.id, Entry.stopAll, Entry.done, hd, hf]

end Sys2Proof.Machine
end

section
/-! ### The reset of a queue, step by step (R74) -/

namespace Sys2Proof.Machine

variable {s : State} {q i : Nat}

/-! #### Loops -/

/-- What every turn of a loop keeps, the loop keeps. -/
theorem State.each_induct {α : Type} {P : State → Prop} {f : State → α → State} (hf : ∀ s a, P s → P (f s a)) (l : List α)
    {s : State} (h : P s) : P (s.each l f) := by
  unfold State.each
  induction l generalizing s with
  | nil => exact h
  | cons a l ih => exact ih (hf s a h)

/-- A loop with a turn that reaches `Q` ends in `Q`, when every turn keeps what that turn needs, and `Q`. -/
theorem State.each_reaches {α : Type} {P Q : State → Prop} {f : State → α → State} {a : α} (hP : ∀ s b, P s → P (f s b))
    (hQ : ∀ s b, Q s → Q (f s b)) (ha : ∀ s, P s → Q (f s a)) {l : List α} (hl : a ∈ l) {s : State} (h : P s) : Q (s.each l f) := by
  induction l generalizing s with
  | nil => cases hl
  | cons b l ih =>
    rcases List.mem_cons.1 hl with rfl | hl
    · exact State.each_induct hQ l (ha s h)
    · exact ih hl (hP s b h)

/-! #### Clearing the queue (steps 1 to 3 of R74) -/

/-- A reset takes words out of the control port, the log, the landing port and the islands, and out of nothing else. -/
theorem State.clearQueue_frame (s : State) (q i lost : Nat) : Frame [.ctl, .evt, .blp, .slices] s (s.clearQueue q i lost) := by
  refine .of ?_ fun p => ?_
  · unfold State.clearQueue
    dsimp only
    repeat' split
    all_goals rfl
  · cases p
    case ctl | evt | blp | slices => exact .inl (by decide)
    all_goals
      refine .inr ?_
      unfold Part.same State.clearQueue
      dsimp only
      repeat' split
      all_goals rfl

/-- Of the control port only the queue's record and its control words change. -/
theorem State.clearQueue_ctl (s : State) (q i lost : Nat) : (s.clearQueue q i lost).ctl =
    { (s.modIcq q i fun x => { x.emptied with lost := min 255 lost }).ctl with
      words := s.ctl.words.filter fun x => !(x.q == q && x.i == i) } := by
  unfold State.clearQueue
  dsimp only
  repeat' split
  all_goals rfl

/-- The queue is empty, its credits are back, and what it lost is counted. -/
theorem State.icq_clearQueue (h : Tab.wf Icq.reset s.ctl.icqs = true) (lost : Nat) :
    (s.clearQueue q i lost).icq q i = { (s.icq q i).emptied with lost := min 255 lost } := by
  rw [State.icq, State.clearQueue_ctl]
  exact State.icq_modIcq h (fun x => { x.emptied with lost := min 255 lost })

theorem State.clearQueue_icqs_wf (h : Tab.wf Icq.reset s.ctl.icqs = true) (lost : Nat) :
    Tab.wf Icq.reset (s.clearQueue q i lost).ctl.icqs = true := by
  rw [State.clearQueue_ctl]
  exact State.modIcq_wf h (fun x => { x.emptied with lost := min 255 lost })

/-- With no control word in the queue, only the queue's record changes of the control port. -/
theorem State.crossed_clearQueue (h : ∀ x ∈ s.ctl.words, ¬ (x.q = q ∧ x.i = i)) (lost : Nat) : Crossed s (s.clearQueue q i lost) := by
  have hw : (s.ctl.words.filter fun x => !(x.q == q && x.i == i)) = s.ctl.words :=
    List.filter_eq_self.2 fun x hx => by simpa [imp_iff_not_or] using h x hx
  rw [Crossed, State.clearQueue_ctl, hw]
  rfl

/-- Descriptors and beats that have crossed are not lost (R74). -/
theorem Blp.loseWords_of_crossed {b : Blp} {now : Nat} (hd : ∀ d ∈ b.dq, d.vis ≤ now) (hl : ∀ x ∈ b.late, x.2 ≤ now) :
    b.loseWords now = b := by
  have hg : (b.dq.filter fun d => decide (now < d.vis) || b.late.any fun x => x.1 == d.ord && decide (now < x.2)) = [] := by
    refine List.filter_eq_nil_iff.2 fun d hd' => ?_
    have := hd d hd'
    simp only [Bool.or_eq_true, decide_eq_true_eq, List.any_eq_true, Bool.and_eq_true, not_or, not_exists, not_and]
    exact ⟨by omega, fun x hx _ => by have := hl x hx; omega⟩
  have hl' : (b.late.filter fun x => decide (x.2 ≤ now)) = b.late := List.filter_eq_self.2 fun x hx => by simpa using hl x hx
  simp [Blp.loseWords, hg, hl']

/-- A reset changes the islands for class 0 and 2 only. -/
theorem State.clearQueue_slices (h3 : 3 ≤ q) (lost : Nat) : (s.clearQueue q i lost).slices = s.slices := by
  unfold State.clearQueue
  dsimp only
  split
  case h_1 | h_2 => omega
  all_goals repeat' split
  all_goals rfl

/-- With no word on its way, a reset takes nothing from the landing port. -/
theorem State.clearQueue_blp (ha : s.icqAway q i = 0) (lost : Nat) : (s.clearQueue q i lost).blp = s.blp := by
  have hnil {α : Type} {p : α → Nat} {l : List α} (h : (l.filter fun x => decide (s.sys.ltc < p x)).length = 0) :
      ∀ x ∈ l, p x ≤ s.sys.ltc := fun x hx => by
    simpa using List.filter_eq_nil_iff.1 (List.length_eq_zero_iff.1 h) x hx
  by_cases h5 : q = 5
  · subst h5
    obtain ⟨-, h⟩ := Nat.add_eq_zero_iff.1 ha
    obtain ⟨hd, hl⟩ := Nat.add_eq_zero_iff.1 h
    exact Blp.loseWords_of_crossed (hnil hd) (hnil hl)
  by_cases h6 : q = 6
  · subst h6
    obtain ⟨-, h⟩ := Nat.add_eq_zero_iff.1 ha
    obtain ⟨-, hf⟩ := Nat.add_eq_zero_iff.1 h
    have hm : (s.blp.flight.map fun d => if s.sys.ltc < d.vis then { d with fin := some ⟨.fault, eOk⟩, vis := 0 } else d) =
        s.blp.flight :=
      (List.map_congr_left (g := id) fun d hd => if_neg (Nat.not_lt.2 (hnil hf d hd))).trans (List.map_id _)
    exact congrArg (fun l => { s.blp with flight := l }) hm
  unfold State.clearQueue
  dsimp only
  split
  case h_4 | h_5 => contradiction
  all_goals repeat' split
  all_goals rfl

/-- A queue of the classes from 3 on with no word on its way loses nothing that another part of the state holds, but records. -/
theorem State.clearQueue_frame_away (h3 : 3 ≤ q) (ha : s.icqAway q i = 0) (lost : Nat) :
    Frame [.ctl, .evt] s (s.clearQueue q i lost) := by
  have hf := State.clearQueue_frame s q i lost
  refine .of hf.1 fun p => ?_
  cases p
  case ctl | evt => exact .inl (by decide)
  case blp => exact .inr (State.clearQueue_blp ha lost)
  case slices => exact .inr (State.clearQueue_slices h3 lost)
  all_goals exact .inr (hf.2 _ (by decide))

/-- The event log keeps its records and pointers when another queue is reset. -/
theorem State.clearQueue_evt (h9 : q ≠ 9) (lost : Nat) :
    (s.clearQueue q i lost).evt = { s.evt with cross := (s.clearQueue q i lost).evt.cross } := by
  unfold State.clearQueue
  dsimp only
  split
  case h_7 => contradiction
  all_goals repeat' split
  all_goals rfl

/-- A reset event log is empty (R79). -/
theorem State.clearQueue_log (lost : Nat) : (s.clearQueue 9 i lost).evt =
    { s.evt with recs := [], rd := 0, mark := 0, wr := 0, late := [], freed := [] } := rfl

/-- Class 0 of island `i` holds no word (R64). -/
def State.NoWords0 (i : Nat) (s : State) : Prop :=
  Tab.wf Slice.reset s.slices = true ∧ (s.slice i).dat.fcq = [] ∧
    (∀ w ∈ (s.slice i).sch.window ++ (s.slice i).sch.narrowSlot, w.word = false) ∧ (s.icq 0 i).used = 0

theorem State.noWords0_clearQueue (hs : Tab.wf Slice.reset s.slices = true) (h : Tab.wf Icq.reset s.ctl.icqs = true) (lost : Nat) :
    (s.clearQueue 0 i lost).NoWords0 i := by
  refine ⟨Tab.set_wf hs, ?_, fun w hw => ?_, by rw [State.icq_clearQueue h]; rfl⟩
  · simp only [State.clearQueue]
    rw [State.slice_modSlice (by exact hs)]
  · simp only [State.clearQueue] at hw
    rw [State.slice_modSlice (by exact hs), List.mem_append, List.mem_filter, List.mem_filter] at hw
    rcases hw with ⟨-, hw⟩ | ⟨-, hw⟩ <;> simp_all

/-- Work that ends writes no word into class 0. -/
theorem State.NoWords0.of_endsWork {id : Nat} {s t : State} (hi : i < 256) (h : s.NoWords0 i) (ht : State.EndsWork id s t) :
    t.NoWords0 i := by
  obtain ⟨hs, hf, hw, hu⟩ := h
  obtain ⟨hts, hp⟩ := ht.slices hs
  obtain ⟨hd, hwin, hnar⟩ := hp i
  refine ⟨hts, by rw [hd, hf], fun w hw' => hw w ?_, by rw [ht.icq0 i hi, hu]⟩
  rw [List.mem_append] at hw' ⊢
  exact hw'.imp (fun h => hwin h) fun h => hnar h

/-! #### The steps before the entries complete -/

/-- Outside DET_TIMING a crossing takes no time (R81). -/
theorem State.crossTime_of_not_timing (hm : s.det.mode ≠ .timing) (q : Nat) : s.crossTime q = 0 := by
  cases h : s.det.mode with
  | timing => exact absurd h hm
  | off => simp [State.crossTime, h]
  | bits => simp [State.crossTime, h]

/-- Outside DET_TIMING nothing ends repeatability. -/
theorem State.detBreak_of_not_timing (hm : s.det.mode ≠ .timing) (cause : Nat) : s.detBreak cause = s := by
  cases h : s.det.mode with
  | timing => exact absurd h hm
  | off => simp [State.detBreak, h]
  | bits => simp [State.detBreak, h]

theorem State.detBreak_frame (s : State) (cause : Nat) : Frame [.evt, .det, .mbx] s (s.detBreak cause) := by
  unfold State.detBreak
  split
  · split
    · exact .refl ..
    · have hd (f : Det → Det) : Frame [.evt, .det, .mbx] s (s.modDet f) :=
        .of rfl fun p => by cases p <;> first | exact .inl (by decide) | exact .inr rfl
      exact (hd _).trans ((State.event_frame ..).mono (by decide))
  · exact .refl ..

/-- The words that a reset of queue (q, i) discards. -/
def State.resetLost (s : State) (q i words : Nat) : Nat :=
  s.icqOcc q i + (if q = 0 || q = 2 || q = 4 || q = 9 || (q != 8 && s.crossTime q != 0) then 0 else words)

/-- The tracker entries that a reset of queue (q, i) completes with FAULT. -/
def State.resetIds (s : State) (q i : Nat) (bound : List Nat) : List Nat :=
  (s.icqBound q i ++ bound.filter (s.icqMay q i)).eraseDups.filter fun id => s.fab.trk.any fun e => e.id == id

/-- The queue cleared, with its sticky bits (R57, R59). -/
def State.clearSticky (s : State) (q i cause lost : Nat) : State :=
  (s.clearQueue q i lost).modIcq q i fun x => { x with ovr := x.ovr || cause == 3, und := x.und || cause == 4 }

/-- The reset counted (R78). -/
def State.countReset (s : State) (q : Nat) : State := (s.detBreak 1).errCount 0x320 (16 + q) 1

/-- The steps of a reset: the queue is cleared, the reset counts, the entries complete, the record is written (R74). -/
theorem State.resetQueue_eq (s : State) (q i cause words : Nat) (bound : List Nat) : s.resetQueue q i cause words bound =
    ((((s.clearSticky q i cause (s.resetLost q i words)).countReset q).each (s.resetIds q i bound) State.faultEntry).event
      .icqReset 0 (icqDetail cause q i (s.resetLost q i words) (s.resetIds q i bound).length)) := rfl

end Sys2Proof.Machine
end

section
namespace Sys2Proof.Machine

variable {s t : State} {q i : Nat}

/-! #### Counting and recording (R773, R768) -/

/-- The counters after a count are a matter of the counters before it. -/
theorem State.ctr_count_congr (h : t.ctl.tlm = s.ctl.tlm) (top : Nat) (e : Ev) (page slot n page' slot' : Nat) :
    (t.count top e page slot n).ctr page' slot' = (s.count top e page slot n).ctr page' slot' := by
  have hc (s : State) : (s.count top e page slot n).ctl.tlm = Tab.set Ctr.reset s.ctl.tlm (page * 128 + slot)
      (if (s.ctr page slot).v + n ≤ top then { s.ctr page slot with v := (s.ctr page slot).v + n } else { v := top, ovf := true }) := by
    simp only [State.count, apply_ite State.ctl, State.event_ctl, ite_self]
  have hs : t.ctr page slot = s.ctr page slot := by rw [State.ctr, State.ctr, h]
  rw [State.ctr, State.ctr, hc, hc, h, hs]

/-- A count and a record change no more than a count. -/
theorem CountedCrossed.record (hc : Crossed s t) (hm : t.mbx = s.mbx) (top : Nat) (e e' : Ev) (page slot n u d : Nat) :
    CountedCrossed s ((t.count top e page slot n).event e' u d) := by
  constructor
  · rw [State.event_ctl, State.count_ctl, hc]
  · rw [State.event_mbx, State.count_mbx, hm]

/-- Whether the log has room depends on its records and on the room under way (R82). -/
theorem State.logFull_congr (hr : t.evt.recs = s.evt.recs) (hf : t.evt.freed = s.evt.freed) (hs : t.sys = s.sys) :
    t.logFull = s.logFull := by
  simp [State.logFull, State.icqFull, State.icqUnseen, State.ahead, hr, hf, hs]

/-- A log with room gets the record behind the others (R768, R771). -/
theorem State.event_evt_room (h : s.logFull = false) (e : Ev) (u d : Nat) :
    (s.event e u d).evt = { s.evt.push e u d s.sys.ltc with late := s.logStamps s.evt.late 1 } := by
  simp [State.event, h]

/-! #### A reset that no entry is bound to -/

theorem State.modIcq_frame (s : State) (q i : Nat) (f : Icq → Icq) : Frame [.ctl] s (s.modIcq q i f) :=
  .of rfl fun p => by cases p <;> first | exact .inl (by decide) | exact .inr rfl

theorem State.clearSticky_frame {ps : List Part} {cause lost : Nat} (hc : .ctl ∈ ps) (h : Frame ps s (s.clearQueue q i lost)) :
    Frame ps s (s.clearSticky q i cause lost) :=
  h.trans ((State.modIcq_frame ..).mono (by simpa using hc))

/-- The queue is empty, its credits are back, and what it lost is counted (R74). -/
theorem State.icq_clearSticky (h : Tab.wf Icq.reset s.ctl.icqs = true) (cause lost : Nat) :
    ((s.clearSticky q i cause lost).icq q i).wr = 0 ∧ ((s.clearSticky q i cause lost).icq q i).used = 0 ∧
      ((s.clearSticky q i cause lost).icq q i).lost = min 255 lost := by
  rw [State.clearSticky, State.icq_modIcq (State.clearQueue_icqs_wf h lost), State.icq_clearQueue h]
  exact ⟨rfl, rfl, rfl⟩

theorem State.crossed_clearSticky (h : ∀ x ∈ s.ctl.words, ¬ (x.q = q ∧ x.i = i)) (cause lost : Nat) :
    Crossed s (s.clearSticky q i cause lost) := by
  rw [Crossed, State.clearSticky, State.modIcq, State.crossed_clearQueue h lost]

/-- Counts and records leave the record of every queue alone. -/
theorem State.icq_count_event (s : State) (top : Nat) (e e' : Ev) (page slot n u d q i : Nat) :
    ((s.count top e page slot n).event e' u d).icq q i = s.icq q i := by
  rw [State.icq, State.event_ctl, State.count_ctl]
  rfl

/-- The words that a reset of a queue of the classes from 3 on discards outside DET_TIMING. -/
theorem State.resetLost_of_not_timing (hm : s.det.mode ≠ .timing) (h3 : 3 ≤ q) (words : Nat) :
    s.resetLost q i words = s.icqOcc q i + (if q = 4 ∨ q = 9 then 0 else words) := by
  have h0 : q ≠ 0 := by omega
  have h2 : q ≠ 2 := by omega
  simp [State.resetLost, State.crossTime_of_not_timing hm, h0, h2]

section
variable {cause words : Nat} {bound : List Nat} (hm : s.det.mode ≠ .timing) (hids : s.resetIds q i bound = [])
include hm hids

/-- Outside DET_TIMING a reset that no entry is bound to clears the queue, counts and records. -/
theorem State.resetQueue_unbound : s.resetQueue q i cause words bound =
    ((s.clearSticky q i cause (s.resetLost q i words)).errCount 0x320 (16 + q) 1).event .icqReset 0
      (icqDetail cause q i (s.resetLost q i words) 0) := by
  have hd : (s.clearSticky q i cause (s.resetLost q i words)).det = s.det :=
    (State.clearSticky_frame (by decide) (State.clearQueue_frame ..)).2 .det (by decide)
  have hb : (s.clearSticky q i cause (s.resetLost q i words)).detBreak 1 = _ := State.detBreak_of_not_timing (by rw [hd]; exact hm) 1
  rw [State.resetQueue_eq, hids, State.countReset, hb]
  rfl

/-- Such a reset of a queue of the classes 3 to 9 leaves its record, its count and the frame as R74 and R78 say. -/
theorem State.resetQueue_unbound_record (h : Tab.wf Icq.reset s.ctl.icqs = true) (hw : ∀ x ∈ s.ctl.words, ¬ (x.q = q ∧ x.i = i))
    (hf : Frame [.ctl, .evt] s (s.clearQueue q i (s.resetLost q i words))) :
    ((s.resetQueue q i cause words bound).icq q i).wr = 0 ∧ ((s.resetQueue q i cause words bound).icq q i).used = 0 ∧
      ((s.resetQueue q i cause words bound).icq q i).lost = min 255 (s.resetLost q i words) ∧
      (s.resetQueue q i cause words bound).ctr 0x320 (16 + q) = (s.errCount 0x320 (16 + q) 1).ctr 0x320 (16 + q) ∧
      CountedCrossed s (s.resetQueue q i cause words bound) ∧ Frame [.ctl, .evt, .mbx] s (s.resetQueue q i cause words bound) := by
  have hc : Crossed s (s.clearSticky q i cause (s.resetLost q i words)) := State.crossed_clearSticky hw ..
  have hfs : Frame [.ctl, .evt, .mbx] s (s.clearSticky q i cause (s.resetLost q i words)) :=
    State.clearSticky_frame (by decide) (hf.mono (by decide))
  have hmb : (s.clearSticky q i cause (s.resetLost q i words)).mbx = s.mbx :=
    (State.clearSticky_frame (by decide) hf).2 .mbx (by decide)
  obtain ⟨hwr, hused, hlost⟩ := State.icq_clearSticky (q := q) (i := i) h cause (s.resetLost q i words)
  rw [State.resetQueue_unbound hm hids, State.errCount, State.icq_count_event]
  refine ⟨hwr, hused, hlost, ?_, .record hc hmb .., hfs.trans ((State.count_frame ..).trans ((State.event_frame ..).mono (by decide)))⟩
  rw [State.ctr, State.event_ctl]
  exact State.ctr_count_congr (by rw [hc]) ..

/-- While the counter and the log have room, the record of the reset stands behind those that the log keeps (R79). -/
theorem State.resetQueue_unbound_evt (hv : (s.ctr 0x320 (16 + q)).v < 2 ^ 32 - 1)
    (hw : ∀ x ∈ s.ctl.words, ¬ (x.q = q ∧ x.i = i)) (hl : (s.clearQueue q i (s.resetLost q i words)).logFull = false) :
    ∃ late, (s.resetQueue q i cause words bound).evt = { (s.clearQueue q i (s.resetLost q i words)).evt.push .icqReset 0
      (icqDetail cause q i (s.resetLost q i words) 0) s.sys.ltc with late := late } := by
  have hc : Crossed s (s.clearSticky q i cause (s.resetLost q i words)) := State.crossed_clearSticky hw ..
  have hsys : (s.clearSticky q i cause (s.resetLost q i words)).sys = s.sys :=
    (State.clearSticky_frame (by decide) (State.clearQueue_frame ..)).2 .sys (by decide)
  have hr : ((s.clearSticky q i cause (s.resetLost q i words)).ctr 0x320 (16 + q)).v + 1 ≤ 2 ^ 32 - 1 := by
    rw [State.ctr, hc]
    exact hv
  have hcnt := State.count_room hr .errcntSat
  rw [State.resetQueue_unbound hm hids, State.errCount, hcnt, State.event_evt_room (by exact hl)]
  exact ⟨_, by rw [State.modCtl_sys, hsys]; rfl⟩

end
end Sys2Proof.Machine
end

section
namespace Sys2Proof.Machine

variable {s t : State} {q i cause words : Nat} {bound : List Nat}

/-! #### The entries that a reset completes (R73, R74) -/

/-- Before entries complete, a reset has changed neither the tracker nor a port nor an access. -/
theorem State.countReset_clearSticky_frame (s : State) (q i cause lost : Nat) :
    Frame [.ctl, .evt, .blp, .slices, .det, .mbx] s ((s.clearSticky q i cause lost).countReset q) :=
  (State.clearSticky_frame (by decide) ((State.clearQueue_frame s q i lost).mono (by decide))).trans
    (((State.detBreak_frame ..).mono (by decide)).trans ((State.count_frame ..).mono (by decide)))

/-- A reset changes no port and no access. -/
theorem State.resetQueue_frame (s : State) (q i cause words : Nat) (bound : List Nat) :
    Frame [.ctl, .evt, .blp, .slices, .det, .mbx, .fab] s (s.resetQueue q i cause words bound) := by
  rw [State.resetQueue_eq]
  have hloop := State.each_frame ((s.clearSticky q i cause (s.resetLost q i words)).countReset q) (l := s.resetIds q i bound)
    fun s id => (State.EndsWork.faultEntry id s).frame
  exact ((State.countReset_clearSticky_frame ..).mono (by decide)).trans ((hloop.mono (by decide)).trans
    ((State.event_frame ..).mono (by decide)))

/-- An entry in the tracker that is bound to the queue is one of those that complete. -/
theorem State.mem_resetIds {id : Nat} {e : Entry} (hid : id ∈ s.icqBound q i ++ bound.filter (s.icqMay q i))
    (he : s.fab.entry id = some e) : id ∈ s.resetIds q i bound := by
  have hany : (s.fab.trk.any fun e => e.id == id) = true :=
    List.any_eq_true.2 (List.find?_isSome.1 (Option.isSome_of_eq_some he))
  exact List.mem_filter.2 ⟨List.mem_eraseDups.2 hid, hany⟩

/-- The completion of another entry leaves a request as it was. -/
theorem State.faultable_faultEntry {id : Nat} (h : s.Faultable id) (j : Nat) : (s.faultEntry j).Faultable id := by
  by_cases hj : id = j
  · subst hj
    exact (State.faulted_faultEntry h).faultable
  · rw [State.Faultable, (State.EndsWork.faultEntry j s).entry id hj]
    exact h

/-- No completion takes the answer back. -/
theorem State.Faulted.faultEntry {id : Nat} (h : s.Faulted id) (j : Nat) : (s.faultEntry j).Faulted id := by
  by_cases hj : id = j
  · subst hj
    exact State.faulted_faultEntry h.faultable
  · rw [State.Faulted, (State.EndsWork.faultEntry j s).entry id hj]
    exact h

/-- Every request that is bound to the queue has completed with FAULT (R74). -/
theorem State.faulted_resetQueue {id : Nat} (hid : id ∈ s.icqBound q i ++ bound.filter (s.icqMay q i)) (h : s.Faultable id) :
    (s.resetQueue q i cause words bound).Faulted id := by
  have ⟨e, he, _⟩ := h
  have hfab := (State.countReset_clearSticky_frame s q i cause (s.resetLost q i words)).2 .fab (by decide)
  have hstart : ((s.clearSticky q i cause (s.resetLost q i words)).countReset q).Faultable id := by
    rw [State.Faultable, hfab]
    exact h
  have hend := State.each_reaches (P := State.Faultable id) (Q := State.Faulted id) (fun _ j h => State.faultable_faultEntry h j)
    (fun _ j h => h.faultEntry j) (fun _ h => State.faulted_faultEntry h) (State.mem_resetIds hid he) hstart
  rw [State.resetQueue_eq, State.Faulted, State.event_fab]
  exact hend

/-- The count of a reset leaves the record of every queue alone. -/
theorem State.icq_countReset (s : State) (q q' i : Nat) : (s.countReset q).icq q' i = s.icq q' i := by
  have hd : (s.detBreak 1).ctl = s.ctl := by
    unfold State.detBreak
    split
    · split
      · rfl
      · simp
    · rfl
  rw [State.icq, State.countReset, State.errCount, State.count_ctl, hd]
  rfl

/-- After its reset, class 0 of an island holds no word and has spent no credit (R74). -/
theorem State.noWords0_resetQueue (hs : Tab.wf Slice.reset s.slices = true) (h : Tab.wf Icq.reset s.ctl.icqs = true) (hi : i < 256) :
    (s.resetQueue 0 i cause words bound).NoWords0 i := by
  have hcount {t : State} : (t.countReset 0).slices = t.slices :=
    (((State.detBreak_frame t 1).mono (by decide)).trans ((State.count_frame ..).mono (qs := [.ctl, .evt, .det, .mbx]) (by decide))).2
      .slices (by decide)
  obtain ⟨hwf, hf, hw, -⟩ := State.noWords0_clearQueue hs h (s.resetLost 0 i words) (i := i)
  have hstart : ((s.clearSticky 0 i cause (s.resetLost 0 i words)).countReset 0).NoWords0 i := by
    have hslice : ((s.clearSticky 0 i cause (s.resetLost 0 i words)).countReset 0).slice i =
        (s.clearQueue 0 i (s.resetLost 0 i words)).slice i := by rw [State.slice, hcount]; rfl
    refine ⟨by rw [hcount]; exact hwf, by rw [hslice]; exact hf, by rw [hslice]; exact hw, ?_⟩
    rw [State.icq_countReset]
    exact (State.icq_clearSticky h ..).2.1
  have hloop := State.each_induct (fun _ j h => h.of_endsWork hi (State.EndsWork.faultEntry j _)) (s.resetIds 0 i bound) hstart
  rw [State.resetQueue_eq]
  simpa [State.NoWords0, State.slice, State.icq] using hloop

/-! ### The obligation -/

/-- QINDEX fits the byte that the table of queues gives it (R80). -/
theorem icqExists_lt {q i : Nat} (h : icqExists q i = true) : i < 256 := by
  unfold icqExists at h
  split at h
  · have hi := of_decide_eq_true h
    omega
  · split at h
    · have hi := of_decide_eq_true h
      omega
    · have hi := eq_of_beq h
      omega

/-- The reset of a queue of the classes 3 to 8 that no entry is bound to and that holds no word on its way (R74, R78, R79). -/
theorem State.resetQueue_classes (h : Tab.wf Icq.reset s.ctl.icqs = true) (h3 : 3 ≤ q) (h8 : q ≤ 8) (hb : s.icqBound q i = [])
    (hm : s.det.mode ≠ .timing) (ha : s.icqAway q i = 0) (hw : ∀ x ∈ s.ctl.words, ¬ (x.q = q ∧ x.i = i)) :
    let lost := s.icqOcc q i + (if q = 4 then 0 else words)
    let t := s.resetQueue q i cause words []
    (t.icq q i).wr = 0 ∧ (t.icq q i).used = 0 ∧ (t.icq q i).lost = min 255 lost ∧
      t.ctr 0x320 (16 + q) = (s.errCount 0x320 (16 + q) 1).ctr 0x320 (16 + q) ∧ CountedCrossed s t ∧ Frame [.ctl, .evt, .mbx] s t ∧
      (s.logFull = false → (s.ctr 0x320 (16 + q)).v < 2 ^ 32 - 1 → t.evt.recs = s.evt.recs ++ [mkRec s.evt.seq .icqReset 0
        (icqDetail cause q i lost 0) s.sys.ltc]) := by
  intro lost t
  have hids : s.resetIds q i [] = [] := by simp [State.resetIds, hb]
  have hlost : s.resetLost q i words = lost := by
    have h9 : q ≠ 9 := by omega
    simp [State.resetLost_of_not_timing hm h3, lost, h9]
  have hf := State.clearQueue_frame_away h3 ha (s.resetLost q i words)
  obtain ⟨hwr, hused, hl, hctr, hcc, hfr⟩ := State.resetQueue_unbound_record (cause := cause) hm hids h hw hf
  refine ⟨hwr, hused, hlost ▸ hl, hctr, hcc, hfr, fun hfull hv => ?_⟩
  have hevt := State.clearQueue_evt (s := s) (i := i) (show q ≠ 9 by omega) (s.resetLost q i words)
  have hroom : (s.clearQueue q i (s.resetLost q i words)).logFull = false :=
    (State.logFull_congr (by rw [hevt]) (by rw [hevt]) (hf.2 .sys (by decide))).trans hfull
  obtain ⟨late, ht⟩ := State.resetQueue_unbound_evt (cause := cause) hm hids hv hw hroom
  rw [ht, hevt, hlost]
  rfl

/-- A reset event log holds the record of its reset alone (R79). -/
theorem State.resetQueue_log (h : Tab.wf Icq.reset s.ctl.icqs = true) (hm : s.det.mode ≠ .timing) (hw : ∀ x ∈ s.ctl.words, x.q ≠ 9)
    (hv : (s.ctr 0x320 25).v < 2 ^ 32 - 1) :
    let t := s.resetQueue 9 0 cause words bound
    t.evt.rd = 0 ∧ t.evt.mark = 0 ∧
      t.evt.recs = [mkRec s.evt.seq .icqReset 0 (icqDetail cause 9 0 s.evt.recs.length 0) s.sys.ltc] ∧
      CountedCrossed s t ∧ Frame [.ctl, .evt, .mbx] s t := by
  intro t
  have hnone : (s.ctl.words.filter fun x => x.q == 9 && x.i == 0) = [] :=
    List.filter_eq_nil_iff.2 fun x hx => by simp [hw x hx]
  have hmay (id : Nat) : s.icqMay 9 0 id = false := by
    unfold State.icqMay
    split <;> simp
  have hids : s.resetIds 9 0 bound = [] := by simp [State.resetIds, State.icqBound, hnone, hmay]
  have haway : s.icqAway 9 0 = 0 := by
    have : (s.ctl.words.filter fun x => x.q == 9 && x.i == 0 && decide (s.sys.ltc < x.due)) = [] :=
      List.filter_eq_nil_iff.2 fun x hx => by simp [hw x hx]
    simp [State.icqAway, this]
  have hlost : s.resetLost 9 0 words = s.evt.recs.length := by
    simp [State.resetLost_of_not_timing hm, State.icqOcc, haway]
  have hwords : ∀ x ∈ s.ctl.words, ¬ (x.q = 9 ∧ x.i = 0) := fun x hx hq => hw x hx hq.1
  have hf := State.clearQueue_frame_away (q := 9) (by decide) haway (s.resetLost 9 0 words)
  obtain ⟨-, -, -, -, hcc, hfr⟩ := State.resetQueue_unbound_record (cause := cause) hm hids h hwords hf
  have hroom : (s.clearQueue 9 0 (s.resetLost 9 0 words)).logFull = false := by
    simp [State.logFull, State.icqFull, State.icqUnseen, State.ahead, icqDeep, State.clearQueue_log]
  obtain ⟨late, ht⟩ := State.resetQueue_unbound_evt (q := 9) (cause := cause) hm hids hv hwords hroom
  rw [hlost, State.clearQueue_log] at ht
  refine ⟨?_, ?_, ?_, hcc, hfr⟩
  all_goals rw [ht]; rfl

/-- Settles O45: the three outcomes of the comparison of the copies, and what a reset does to each class of queue. -/
theorem crossingQueueUpset : Obligations.CrossingQueueUpset := by
  unfold Obligations.CrossingQueueUpset
  intro u s hcanon hicqs hpor hex q i whole a b copies lost cause words hA hB
  obtain ⟨-, -, hslices, -, -⟩ := hcanon
  have hgood : s.GoodCopies q i u.ptr.val := ⟨hA, hB⟩
  have hexec : exec (.icqPtrUpset u) s = .next ((s.setCopies q i u.ptr.val a b).comparePtr q i u.ptr.val u.words u.bound) :=
    exec_icqPtrUpset hpor hex hgood
  have hreset (hl : lost) : exec (.icqPtrUpset u) s = .next (s.resetQueue q i cause u.words u.bound) := by
    rw [hexec, State.comparePtr_lost hicqs hgood hl.1 hl.2]
  have hframe := State.resetQueue_frame s q i cause u.words u.bound
  refine ⟨fun ha hab => ?_, fun hab => ?_, fun hl h3 h8 hbound hb hm haway hw => ?_, fun id e hl hid he hk hfin => ?_,
    fun hl h0 => ?_, fun hl h9 hm hw hv => ?_⟩
  · rw [hexec, ← hab, State.comparePtr_equal hicqs hgood ha]
    rfl
  · rw [hexec, State.comparePtr_corrected hicqs hgood hab]
    rfl
  · exact ⟨_, by rw [hreset hl, hbound], State.resetQueue_classes hicqs h3 h8 hb hm haway hw⟩
  · obtain ⟨x, hx, -, hxf⟩ := State.faulted_resetQueue (cause := cause) (words := u.words) hid ⟨e, he, hk, .inl hfin⟩
    exact ⟨_, x, hreset hl, hx, hxf, hframe.2 .ports (by decide), hframe.2 .mem (by decide)⟩
  · obtain ⟨-, hfcq, hword, hused⟩ :=
      State.noWords0_resetQueue (i := i) (cause := cause) (words := u.words) (bound := u.bound) hslices hicqs (icqExists_lt hex)
    rw [h0] at hreset hframe ⊢
    exact ⟨_, hreset hl, hfcq, hword, hused, hframe.2 .ports (by decide), hframe.2 .mem (by decide)⟩
  · have hi : i = 0 := by simpa [icqExists, q, i, h9] using hex
    rw [h9, hi] at hreset
    exact ⟨_, hreset hl, State.resetQueue_log hicqs hm hw hv⟩

end Sys2Proof.Machine
end

section
namespace Sys2Proof.Machine

/-! ### What every doorbell has in common (R755, R756, R798, R800, R802) -/

/-- The row `i` is a doorbell for the opcode `op`, delayed by R719 when `quant` holds, whose command checks first the bits of
its arguments that `masks` does not define (R800, check 1). -/
def RingsCommand (i : Instr) (op : Nat) (quant : Bool) (masks : List Nat) : Prop :=
  ∃ run : State → State, (∀ s, exec i s = .next (s.doorbell op quant run)) ∧
    ∀ s, s.argsBad masks = true → run s = s.finish eBadarg []

/-- Each row that `mailCmd` lists rings its own command: by the table's rows, each of which names a command that runs under
`State.checked` with the masks of that row. -/
theorem ringsCommand_of_mailCmd {i : Instr} {op : Nat} {quant : Bool} {masks : List Nat}
    (h : mailCmd i = some (op, quant, masks)) : RingsCommand i op quant masks := by
  unfold mailCmd at h
  split at h
  case h_24 => cases h
  all_goals
    cases h
    refine ⟨_, fun _ => rfl, fun s hbad => ?_⟩
    simp only [State.cmdIdent, State.cmdTlmClear, State.cmdSensorClear, State.cmdCfgCommit, State.cmdCfgStore,
      State.cmdRegionRead, State.cmdRateSet, State.cmdDetSet, State.cmdAccFlush, State.cmdBrewLoad, State.cmdReseal,
      State.cmdRetrain, State.cmdCalRun, State.cmdLinkRead, State.cmdMigrate, State.cmdRebind, State.cmdFirnRead,
      State.cmdDigestFence, State.cmdDigestRegion, State.cmdLockstepRelease, State.cmdSaveContext,
      State.cmdRestoreContext, State.cmdFrostEnter, checked_bad _ _ _ _ hbad]

variable {s : State}

/-- A doorbell that Frost or R719 does not hold back finds its command ready to run. -/
theorem State.rings_of_not_waiting {op : Nat} {quant : Bool} (hlive : s.cpLive = true) (hfree : s.mbx.st ≠ .busy)
    (hawake : ¬ (s.sys.phase = .frost ∧ s.therm.latch = false)) (hop : fld s.mbx.cmd 0 8 = op)
    (hq : quant = true → s.det.mode ≠ .timing) : s.Rings op quant :=
  ⟨hlive, hop, hfree, by simpa [← imp_iff_not_or] using hawake, hq⟩

/-- The row for opcodes without a command passes over those of R798. -/
theorem exec_mbxBadOpcode_of_mem (h : fld s.mbx.cmd 0 8 ∈ opcodes) : exec .mbxBadOpcode s = .next s := by
  change execMbxBadOpcode s = _
  simp [execMbxBadOpcode, h]

/-- For any other opcode it is a doorbell whose command only answers E_BADOP (R798). -/
theorem exec_mbxBadOpcode_of_not_mem (h : fld s.mbx.cmd 0 8 ∉ opcodes) :
    exec .mbxBadOpcode s = .next (s.doorbell (fld s.mbx.cmd 0 8) false fun s => s.finish eBadop []) := by
  change execMbxBadOpcode s = _
  simp [execMbxBadOpcode, h]

/-! ### The obligation -/

/-- Settles O46: every command's row is one doorbell with its own first check, so the four outcomes of the doorbell settle it. -/
theorem doorbellTaken : Obligations.DoorbellTaken := by
  unfold Obligations.DoorbellTaken
  intro s free waits thawing
  refine ⟨fun i op quant masks hi => ?_, fun hidle => ?_, fun ⟨hlive, hfree⟩ hop => ⟨fun ⟨hfrost, hlatch⟩ => ?_, fun hawake => ?_⟩⟩
  · obtain ⟨run, hexec, hbad⟩ := ringsCommand_of_mailCmd hi
    rw [hexec]
    refine ⟨fun hidle => ?_, fun ⟨hlive, hfree⟩ ⟨hfrost, hlatch⟩ hop => ?_, fun ⟨hlive, hfree⟩ hawake hop hquant htiming => ?_,
      fun hrings hargs => ?_⟩
    · rw [doorbell_ignored s op quant run hidle]
    · rw [doorbell_wakes s op quant run hlive hfree hfrost hlatch hop]
    · rw [hquant, doorbell_delayed s op run hlive hfree hawake hop htiming]
    · rw [doorbell_runs s op quant run hrings, hbad _ hargs, finish_takeDoorbell]
  · by_cases hop : fld s.mbx.cmd 0 8 ∈ opcodes
    · exact exec_mbxBadOpcode_of_mem hop
    · have hignored : s.cpLive = false ∨ fld s.mbx.cmd 0 8 ≠ fld s.mbx.cmd 0 8 ∨ s.mbx.st = .busy := by tauto
      rw [exec_mbxBadOpcode_of_not_mem hop, doorbell_ignored s _ false _ hignored]
  · rw [exec_mbxBadOpcode_of_not_mem hop, doorbell_wakes s _ false _ hlive hfree hfrost hlatch rfl]
  · have hrings : s.Rings (fld s.mbx.cmd 0 8) false := State.rings_of_not_waiting hlive hfree hawake rfl nofun
    rw [exec_mbxBadOpcode_of_not_mem hop, doorbell_runs s _ false _ hrings, finish_takeDoorbell]

end Sys2Proof.Machine
end

section
/-! ### What a mailbox command works with: its doorbell, its checks, its answer -/

namespace Sys2Proof.Machine

variable {s : State}

/-! #### Doorbell and checks (R755, R800) -/

/-- A doorbell that rings runs its command on the copy it has taken. -/
theorem exec_of_rings {i : Instr} {op : Nat} {quant : Bool} {run : State → State} (hr : s.Rings op quant)
    (hi : exec i s = .next (s.doorbell op quant run)) : exec i s = .next (run s.takeDoorbell) := by
  rw [hi, doorbell_runs s op quant run hr]

/-- A command runs once none of its checks fails. -/
theorem checked_of_pass {masks : List Nat} {cs : List (Bool × BitVec 8)} {go : State → State} (ha : s.argsBad masks = false)
    (hc : ∀ c ∈ cs, c.1 = false) : s.checked masks cs go = go s := by
  induction cs with
  | nil => exact checked_nil s masks go ha
  | cons c cs ih =>
    rw [checked_pass s masks c cs go (hc c List.mem_cons_self)]
    exact ih fun c h => hc c (List.mem_cons_of_mem _ h)

/-- The first check of a command that fails ends it with its code. -/
theorem takeDoorbell_checked_fail {masks : List Nat} {e : BitVec 8} {b : Bool} {cs : List (Bool × BitVec 8)} {go : State → State}
    (ha : s.takeDoorbell.argsBad masks = false) (hb : b = true) :
    s.takeDoorbell.checked masks ((b, e) :: cs) go = { s with mbx := s.answer e [] } := by
  rw [checked_fail _ _ _ _ _ ha hb, finish_takeDoorbell]

/-! #### What a command reads beside the mailbox is as before the doorbell -/

@[simp] theorem takeDoorbell_sys : s.takeDoorbell.sys = s.sys := rfl
@[simp] theorem takeDoorbell_ctl : s.takeDoorbell.ctl = s.ctl := rfl
@[simp] theorem takeDoorbell_cfg : s.takeDoorbell.cfg = s.cfg := rfl
@[simp] theorem takeDoorbell_det : s.takeDoorbell.det = s.det := rfl
@[simp] theorem takeDoorbell_stk : s.takeDoorbell.stk = s.stk := rfl
@[simp] theorem takeDoorbell_noChannels : s.takeDoorbell.noChannels = s.noChannels := rfl
@[simp] theorem takeDoorbell_modechg : s.takeDoorbell.modechg = s.modechg := rfl
@[simp] theorem takeDoorbell_carries : s.takeDoorbell.carries = s.carries := rfl
@[simp] theorem takeDoorbell_rateBad : s.takeDoorbell.rateBad = s.rateBad := rfl
@[simp] theorem takeDoorbell_rateWaits : s.takeDoorbell.rateWaits = s.rateWaits := rfl
@[simp] theorem takeDoorbell_timingBad : s.takeDoorbell.timingBad = s.timingBad := rfl
@[simp] theorem takeDoorbell_isPending (op : Nat) : s.takeDoorbell.isPending op = s.isPending op := rfl
@[simp] theorem takeDoorbell_commitCheck (t : Tab Word) : s.takeDoorbell.commitCheck t = s.commitCheck t := rfl
@[simp] theorem takeDoorbell_recEn : s.takeDoorbell.recEn = s.recEn := rfl
@[simp] theorem takeDoorbell_lsEn : s.takeDoorbell.lsEn = s.lsEn := rfl
@[simp] theorem takeDoorbell_masterAgg : s.takeDoorbell.masterAgg = s.masterAgg := rfl

/-! #### Response words (R5, R758) -/

/-- A table made from values at listed numbers reads as those values. -/
theorem Tab.get_filter_map {l : List Nat} {g : Nat → Word} {k : Nat} :
    Tab.get 0 ((l.map fun i => (i, g i)).filter fun kv => kv.2 != 0) k = if k ∈ l then g k else 0 := by
  induction l with
  | nil => rfl
  | cons a l ih =>
    by_cases hk : a = k
    · subst hk
      by_cases hg : g a = 0
      · simp_all
      · simp_all [Tab.get]
    · by_cases hg : g a = 0 <;> simp_all [Tab.get, Ne.symm hk]

/-- The response registers hold the words of the answer. -/
theorem get_tabOf (l : List Word) (i : Nat) : Tab.get 0 (tabOf l) i = l.getD i 0 := by
  rw [tabOf, Tab.get_filter_map]
  by_cases hi : i < l.length
  · rw [if_pos (List.mem_range.2 hi)]
  · rw [if_neg (by simpa using hi), List.getD_eq_default l 0 (by omega)]

/-- Bit `i` of a wide word, in the 32-bit words it is answered in. -/
theorem bit_word32 {n : Nat} (w : BitVec n) (i : Nat) :
    bit (BitVec.ofNat 32 (w.toNat / 2 ^ (32 * (i / 32)))) (i % 32) = w.getLsbD i := by
  have hi : i % 32 < 32 := Nat.mod_lt _ (by decide)
  have hsum : 32 * (i / 32) + i % 32 = i := Nat.div_add_mod i 32
  simp only [bit, BitVec.toNat_ofNat, Nat.testBit_mod_two_pow, hi, decide_true, Bool.true_and, Nat.testBit_div_two_pow]
  rw [Nat.add_comm, hsum, BitVec.testBit_toNat]

/-! #### Updates of one part -/

theorem State.modMbx_frame (s : State) (f : Mbx → Mbx) : Frame [.mbx] s (s.modMbx f) :=
  .of rfl fun p => by cases p <;> simp [Part.same]

theorem State.modDet_frame (s : State) (f : Det → Det) : Frame [.det] s (s.modDet f) :=
  .of rfl fun p => by cases p <;> simp [Part.same]

theorem State.modFab_frame (s : State) (f : Fab → Fab) : Frame [.fab] s (s.modFab f) :=
  .of rfl fun p => by cases p <;> simp [Part.same]

theorem State.modCtl_frame (s : State) (f : Ctl → Ctl) : Frame [.ctl] s (s.modCtl f) :=
  .of rfl fun p => by cases p <;> simp [Part.same]

theorem State.modTherm_frame (s : State) (f : Therm → Therm) : Frame [.therm] s (s.modTherm f) :=
  .of rfl fun p => by cases p <;> simp [Part.same]

theorem State.modRing_frame (s : State) (f : Ring → Ring) : Frame [.ring] s (s.modRing f) :=
  .of rfl fun p => by cases p <;> simp [Part.same]

theorem State.modSlice_frame (s : State) (p : Nat) (f : Slice → Slice) : Frame [.slices] s (s.modSlice p f) :=
  .of rfl fun p => by cases p <;> simp [Part.same]

theorem takeDoorbell_frame (s : State) : Frame [.mbx] s s.takeDoorbell := s.modMbx_frame _

theorem finish_frame (s : State) (err : BitVec 8) (l : List Word) : Frame [.mbx] s (s.finish err l) := s.modMbx_frame _

theorem setRun_frame (s : State) (r : RunCmd) : Frame [.mbx] s (s.setRun r) := s.modMbx_frame _

/-! #### Tables -/

/-- A write of another value than the default reads back from any table. -/
theorem Tab.get_set_of_ne {α : Type} [DecidableEq α] {d v : α} (hv : v ≠ d) (t : Tab α) (k : Nat) :
    Tab.get d (Tab.set d t k v) k = v := by
  induction t with
  | nil => simp [Tab.set, Tab.get, hv]
  | cons a t ih =>
    rcases lt_trichotomy k a.1 with hk | hk | hk
    · simp [Tab.set, Tab.get, hv, hk]
    · simp [Tab.set, Tab.get, hv, hk]
    · have h1 : ¬ k < a.1 := by omega
      have h2 : k ≠ a.1 := by omega
      simp [Tab.set, Tab.get, h1, h2, h2.symm, ih]

end Sys2Proof.Machine
end

section
/-! ### The commands that only answer (R812, R813, R815, R819, R831, R832) -/

namespace Sys2Proof.Machine

variable {s : State}

/-! #### IDENT, REGION_READ, LINK_READ -/

theorem exec_ident (hr : s.Rings 0x01 false) (ha : s.takeDoorbell.argsBad [] = false) :
    exec .ident s = .next { s with mbx := s.answer eOk [Config.version, Config.romId, s.stsGlobal, s.cfg.gen] } := by
  rw [exec_of_rings hr rfl, State.cmdIdent, checked_nil _ _ _ ha, finish_takeDoorbell]
  rfl

/-- The words of a region table entry (R819). -/
def entryWords (r : BitVec 256) : List Word := (List.range 8).map fun w => BitVec.ofNat 32 (fld r (32 * w) 32)

theorem bit_entryWords (r : BitVec 256) {i : Nat} (hi : i < 256) :
    bit ((entryWords r).getD (i / 32) 0) (i % 32) = r.getLsbD i := by
  have hw : i / 32 < 8 := by omega
  have hget : (entryWords r).getD (i / 32) 0 = BitVec.ofNat 32 (r.toNat / 2 ^ (32 * (i / 32))) := by
    apply BitVec.eq_of_toNat_eq
    simp [entryWords, hw, fld, Nat.shiftRight_eq_div_pow]
  rw [hget, bit_word32]

theorem exec_regionRead (hr : s.Rings 0x12 false) (ha : s.takeDoorbell.argsBad [0x3F] = false) : exec .regionRead s =
    .next { s with mbx := s.answer eOk (entryWords (regionAt s.cfg.regions (s.takeDoorbell.argf 0 0 6))) } := by
  rw [exec_of_rings hr rfl, State.cmdRegionRead, checked_nil _ _ _ ha]
  rfl

theorem exec_linkRead_range (hr : s.Rings 0x42 false) (ha : s.takeDoorbell.argsBad [0x3FF, 0x37F] = false)
    (hbad : 144 ≤ s.takeDoorbell.argf 0 0 8 ∨ (s.takeDoorbell.argf 0 8 2 = 3 ∧ 91 ≤ s.takeDoorbell.argf 1 0 7)) :
    exec .linkRead s = .next { s with mbx := s.answer eRange [] } := by
  rw [exec_of_rings hr rfl, State.cmdLinkRead, takeDoorbell_checked_fail ha (by simpa using hbad)]

theorem exec_linkRead (hr : s.Rings 0x42 false) (ha : s.takeDoorbell.argsBad [0x3FF, 0x37F] = false)
    (hok : ¬ (144 ≤ s.takeDoorbell.argf 0 0 8 ∨ (s.takeDoorbell.argf 0 8 2 = 3 ∧ 91 ≤ s.takeDoorbell.argf 1 0 7))) :
    exec .linkRead s = .next { s with mbx := s.answer eOk s.takeDoorbell.linkWords } := by
  rw [exec_of_rings hr rfl, State.cmdLinkRead, checked_of_pass ha (by simpa using hok), finish_takeDoorbell]

/-! #### TLM_CLEAR -/

/-- The calibration count of a bundle at 0. -/
def Slice.clearCal (x : Slice) : Slice := { x with link := { x.link with calCnt := 0 } }

/-- What TLM_CLEAR does to the pages `a` to `b` (R813). -/
def State.clearPages (s : State) (a b : Nat) : State :=
  { s with
    ctl := { s.ctl with tlm := Tab.drop (fun k => decide (a ≤ k / 128) && decide (k / 128 ≤ b)) s.ctl.tlm }
    slices := Tab.mapVals Slice.reset (fun p x => if a ≤ p && p ≤ b then x.clearCal else x) s.slices }

theorem State.clearPages_frame (s : State) (a b : Nat) : Frame [.ctl, .slices] s (s.clearPages a b) :=
  .of rfl fun p => by cases p <;> simp [Part.same, State.clearPages]

/-- The counters of the pages read zero, the others as before. -/
theorem State.ctr_clearPages (s : State) (a b page : Nat) {slot : Nat} (h : slot < 128) :
    (s.clearPages a b).ctr page slot = if a ≤ page ∧ page ≤ b then Ctr.reset else s.ctr page slot := by
  have hpage : (page * 128 + slot) / 128 = page := by omega
  simp [State.ctr, State.clearPages, Tab.get_drop, hpage]

/-- The calibration counts of the slices among the pages are 0. -/
theorem State.slice_clearPages (h : Tab.wf Slice.reset s.slices = true) (a b p : Nat) :
    (s.clearPages a b).slice p = if a ≤ p ∧ p ≤ b then (s.slice p).clearCal else s.slice p := by
  have hreset : Slice.reset.clearCal = Slice.reset := rfl
  have hget := Tab.get_mapVals (f := fun p x => if a ≤ p && p ≤ b then x.clearCal else x) (k := p) h (by simp [hreset])
  simpa [State.slice, State.clearPages] using hget

theorem exec_tlmClear_range (hr : s.Rings 0x02 false) (ha : s.takeDoorbell.argsBad [0xFFF, 0xFFF] = false)
    (h : s.takeDoorbell.argf 1 0 12 < s.takeDoorbell.argf 0 0 12 ∨ 0x401 < s.takeDoorbell.argf 1 0 12) :
    exec .tlmClear s = .next { s with mbx := s.answer eRange [] } := by
  rw [exec_of_rings hr rfl, State.cmdTlmClear, takeDoorbell_checked_fail ha (by simpa using h)]

theorem exec_tlmClear (hr : s.Rings 0x02 false) (ha : s.takeDoorbell.argsBad [0xFFF, 0xFFF] = false)
    (hab : s.takeDoorbell.argf 0 0 12 ≤ s.takeDoorbell.argf 1 0 12) (hb : s.takeDoorbell.argf 1 0 12 ≤ 0x401) :
    exec .tlmClear s = .next { s.clearPages (s.takeDoorbell.argf 0 0 12) (s.takeDoorbell.argf 1 0 12) with
      mbx := s.answer eOk [] } := by
  rw [exec_of_rings hr rfl, State.cmdTlmClear, checked_of_pass ha (by simp; omega)]
  rfl

/-! #### SENSOR_CLEAR -/

/-- The sensor marked to be restored at the next evaluation (R555). -/
def Sensor.marked (x : Sensor) : Sensor := { x with clr := true }

/-- The sensors of a list marked. -/
def State.markSensors (s : State) (l : List Nat) : State :=
  s.modTherm fun t => { t with sens := l.foldl (fun m i => Tab.upd Sensor.reset m i Sensor.marked) t.sens }

/-- A marked sensor reads as marked, from any table: no sensor is marked at reset. -/
theorem get_upd_marked (m : Tab Sensor) (j : Nat) :
    Tab.get Sensor.reset (Tab.upd Sensor.reset m j Sensor.marked) j = (Tab.get Sensor.reset m j).marked :=
  Tab.get_set_of_ne (fun h => Bool.noConfusion (congrArg Sensor.clr h)) m j

/-- Marking the sensors of a list marks no other. -/
theorem get_foldl_marked (l : List Nat) (m : Tab Sensor) (i : Nat) :
    Tab.get Sensor.reset (l.foldl (fun m i => Tab.upd Sensor.reset m i Sensor.marked) m) i =
      if i ∈ l then (Tab.get Sensor.reset m i).marked else Tab.get Sensor.reset m i := by
  induction l generalizing m with
  | nil => rfl
  | cons j l ih =>
    rw [List.foldl_cons, ih]
    by_cases hij : i = j
    · subst hij
      simp [get_upd_marked, Sensor.marked]
    · simp [Tab.upd, Tab.get_set_ne _ hij, hij]

/-- The broken sensors among those that `v` names: one, or all of them (R815). -/
def State.brokenNamed (s : State) (v : Nat) : List Nat :=
  (List.range 288).filter fun i => (v == 0x1FF || v == i) && (s.sensor i).broken

theorem State.sensor_markSensors (s : State) (v i : Nat) : (s.markSensors (s.brokenNamed v)).sensor i =
    if i < 288 ∧ ((v == 0x1FF || v == i) && (s.sensor i).broken) = true then (s.sensor i).marked
    else s.sensor i := by
  have hmem : i ∈ s.brokenNamed v ↔ i < 288 ∧ ((v == 0x1FF || v == i) && (s.sensor i).broken) = true := by
    rw [State.brokenNamed, List.mem_filter, List.mem_range]
  simp only [← hmem]
  exact get_foldl_marked (s.brokenNamed v) s.therm.sens i

theorem exec_sensorClear_range (hr : s.Rings 0x03 false) (ha : s.takeDoorbell.argsBad [0x1FF] = false)
    (hv : 288 ≤ s.takeDoorbell.argf 0 0 9) (hall : s.takeDoorbell.argf 0 0 9 ≠ 0x1FF) :
    exec .sensorClear s = .next { s with mbx := s.answer eRange [] } := by
  rw [exec_of_rings hr rfl, State.cmdSensorClear, takeDoorbell_checked_fail ha (by simp [hv, hall])]

theorem exec_sensorClear (hr : s.Rings 0x03 false) (ha : s.takeDoorbell.argsBad [0x1FF] = false)
    (hv : s.takeDoorbell.argf 0 0 9 < 288 ∨ s.takeDoorbell.argf 0 0 9 = 0x1FF) :
    exec .sensorClear s = .next { s.markSensors (s.brokenNamed (s.takeDoorbell.argf 0 0 9)) with
      mbx := s.answer eOk [BitVec.ofNat 32 (s.brokenNamed (s.takeDoorbell.argf 0 0 9)).length] } := by
  rw [exec_of_rings hr rfl, State.cmdSensorClear, checked_of_pass ha (by simp; omega)]
  rfl

end Sys2Proof.Machine
end

section
/-! ### LOCKSTEP_RELEASE and DIGEST_FENCE (R730, R837, R839) -/

namespace Sys2Proof.Machine

variable {s : State}

/-- The latch and the hold of lock-step cleared (R741, R839). -/
def Det.lsReleased (d : Det) : Det := { d with mismatch := false, mStream := 0, mFence := 0, lsHeld := false }

theorem exec_lockstepRelease_idle (hr : s.Rings 0x52 false) (ha : s.takeDoorbell.argsBad [] = false)
    (hm : s.det.mismatch = false) : exec .lockstepRelease s = .next { s with mbx := s.answer eNotActive [] } := by
  rw [exec_of_rings hr rfl, State.cmdLockstepRelease, takeDoorbell_checked_fail ha (by simp [hm])]

theorem exec_lockstepRelease (hr : s.Rings 0x52 false) (ha : s.takeDoorbell.argsBad [] = false)
    (hm : s.det.mismatch = true) : exec .lockstepRelease s =
      .next (((if s.det.lsHeld then s.takeDoorbell.detBreak 6 else s.takeDoorbell).modDet Det.lsReleased).finish eOk
        [s.stsLs, s.det.mFence]) := by
  rw [exec_of_rings hr rfl, State.cmdLockstepRelease, checked_of_pass ha (by simp [hm])]
  rfl

/-- The end of a hold may end repeatability; nothing but that, its record and the latch changes. -/
theorem lockstepRelease_frame (s : State) (l : List Word) : Frame [.mbx, .det, .evt] s
    (((if s.det.lsHeld then s.takeDoorbell.detBreak 6 else s.takeDoorbell).modDet Det.lsReleased).finish eOk l) := by
  have hbreak : Frame [.mbx, .det, .evt] s.takeDoorbell (if s.det.lsHeld then s.takeDoorbell.detBreak 6 else s.takeDoorbell) := by
    split
    · exact (State.detBreak_frame ..).mono (by decide)
    · exact .refl ..
  exact ((takeDoorbell_frame s).mono (by decide)).trans (hbreak.trans
    (((State.modDet_frame ..).mono (by decide)).trans ((finish_frame ..).mono (by decide))))

/-! #### The epoch of a stream -/

/-- Stream `i` at the start of its next epoch: the next fence number, its digest, and no bytes or pieces yet (R728). -/
def Stream.fenced (x : Stream) (pd : BitVec 256) (i : Nat) : Stream :=
  { x with n := x.n + 1, d := fenceDigest x pd i (x.n + 1), s := 0, bytes := 0, pieces := 0 }

/-- The epoch of stream `i` closed, and its fence counted. -/
def State.closeEpoch (s : State) (i : Nat) : State := (s.modStream i fun x => x.fenced s.det.pd i).stat (0x310 + i) 1 1

theorem State.closeEpoch_det (s : State) (i : Nat) : (s.closeEpoch i).det = { s.det with
    streams := Tab.set Stream.reset s.det.streams i ((s.stream i).fenced s.det.pd i) } :=
  State.stat_det ..

theorem State.closeEpoch_frame (s : State) (i : Nat) : Frame [.ctl, .evt, .mbx, .det] s (s.closeEpoch i) :=
  ((s.modDet_frame _).mono (by decide)).trans ((State.count_frame ..).mono (by decide))

/-- The stream reads as fenced: its new number is not the one of reset, or the streams are in canonical form. -/
theorem State.stream_closeEpoch (s : State) (i : Nat)
    (h : (s.stream i).n + 1 ≠ 0 ∨ Tab.wf Stream.reset s.det.streams = true) :
    (s.closeEpoch i).stream i = (s.stream i).fenced s.det.pd i := by
  rw [State.stream, State.closeEpoch_det]
  rcases h with hn | hwf
  · exact Tab.get_set_of_ne (fun he => hn (congrArg Stream.n he)) ..
  · exact Tab.get_set_self _ hwf

theorem State.stream_closeEpoch_ne (s : State) {i j : Nat} (h : j ≠ i) : (s.closeEpoch i).stream j = s.stream j := by
  rw [State.stream, State.closeEpoch_det]
  exact Tab.get_set_ne _ h

/-- The epoch closed and, with REC_EN, its record begun (R730). -/
def State.recordEpoch (s : State) (i : Nat) (fence : Option Nat) (cmd : Bool) : State :=
  if s.recEn then (s.closeEpoch i).modDet fun x => { x with
    recs := x.recs ++ [⟨i, (s.stream i).n + 1, s.sys.ltc, (s.stream i).bytes, (s.stream i).pieces,
      fenceDigest (s.stream i) s.det.pd i ((s.stream i).n + 1), fence, cmd, none⟩] }
  else s.closeEpoch i

theorem State.recordEpoch_frame (s : State) (i : Nat) (fence : Option Nat) (cmd : Bool) :
    Frame [.ctl, .evt, .mbx, .det] s (s.recordEpoch i fence cmd) := by
  unfold State.recordEpoch
  split
  · exact (s.closeEpoch_frame i).trans ((State.modDet_frame ..).mono (by decide))
  · exact s.closeEpoch_frame i

theorem State.stream_recordEpoch (s : State) (i j : Nat) (fence : Option Nat) (cmd : Bool) :
    (s.recordEpoch i fence cmd).stream j = (s.closeEpoch i).stream j := by
  unfold State.recordEpoch
  split <;> rfl

theorem State.recs_recordEpoch (i : Nat) (fence : Option Nat) (cmd : Bool) (hrec : s.recEn = true) :
    (s.recordEpoch i fence cmd).det.recs = s.det.recs ++ [⟨i, (s.stream i).n + 1, s.sys.ltc, (s.stream i).bytes,
      (s.stream i).pieces, fenceDigest (s.stream i) s.det.pd i ((s.stream i).n + 1), fence, cmd, none⟩] := by
  rw [State.recordEpoch, if_pos hrec, State.modDet_det, State.closeEpoch_det]

theorem State.recs_recordEpoch_of_not_recEn (i : Nat) (fence : Option Nat) (cmd : Bool) (hrec : s.recEn = false) :
    (s.recordEpoch i fence cmd).det.recs = s.det.recs := by
  rw [State.recordEpoch, if_neg (by simp [hrec]), State.closeEpoch_det]

/-- Of the mailbox a fence changes the causes alone (R767). -/
theorem State.recordEpoch_mbx (s : State) (i : Nat) (fence : Option Nat) (cmd : Bool) :
    (s.recordEpoch i fence cmd).mbx = { s.mbx with irq := (s.recordEpoch i fence cmd).mbx.irq } := by
  unfold State.recordEpoch
  split
  · exact State.count_mbx ..
  · exact State.count_mbx ..

/-- Which streams are aggregated is a matter of the ring (R876). -/
theorem State.masterAgg_congr {t : State} (h : t.ring = s.ring) : t.masterAgg = s.masterAgg := by
  unfold State.masterAgg State.isMaster State.aggMask
  rw [h]

/-- A digest fence of a stream that neither lock-step nor an aggregate takes part in closes the epoch and begins its record. -/
theorem State.digestFence_local {i : Nat} (hls : s.lsEn = false) (hagg : s.masterAgg.testBit i = false) (fence : Option Nat)
    (cmd : Bool) : s.digestFence i fence cmd = s.recordEpoch i fence cmd := by
  have heq : s.digestFence i fence cmd = (s.recordEpoch i fence cmd).aggFence i ((s.stream i).n + 1)
      (fenceDigest (s.stream i) s.det.pd i ((s.stream i).n + 1)) (s.stream i).bytes (s.stream i).pieces := by
    simp only [State.digestFence, hls]
    rfl
  have hmaster := State.masterAgg_congr ((s.recordEpoch_frame i fence cmd).2 .ring (by decide))
  rw [heq, State.aggFence, if_neg (by simp [hmaster, hagg])]

/-! #### DIGEST_FENCE -/

/-- The words that answer DIGEST_FENCE: the number of the fence, its digest, and zero (R837). -/
def fenceWords (n : BitVec 32) (d : BitVec 256) : List Word :=
  (n :: (List.range 8).map fun w => BitVec.ofNat 32 (d.toNat / 2 ^ (32 * w))) ++ [0]

theorem get_fenceWords_number (n : BitVec 32) (d : BitVec 256) : Tab.get 0 (tabOf (fenceWords n d)) 0 = n := get_tabOf ..

theorem bit_fenceWords (n : BitVec 32) (d : BitVec 256) {i : Nat} (hi : i < 256) :
    bit (Tab.get 0 (tabOf (fenceWords n d)) (1 + i / 32)) (i % 32) = d.getLsbD i := by
  have hw : i / 32 < 8 := by omega
  have hget : (fenceWords n d).getD (1 + i / 32) 0 = BitVec.ofNat 32 (d.toNat / 2 ^ (32 * (i / 32))) := by
    rw [fenceWords, List.getD_append _ _ _ _ (by simp; omega), Nat.add_comm, List.getD_cons_succ]
    simp [hw]
  rw [get_tabOf, hget, bit_word32]

theorem exec_digestFence_state (hr : s.Rings 0x50 true) (ha : s.takeDoorbell.argsBad [0xF] = false)
    (hn : s.noChannels = true) : exec .digestFence s = .next { s with mbx := s.answer eState [] } := by
  rw [exec_of_rings hr rfl, State.cmdDigestFence, takeDoorbell_checked_fail ha (by simp [hn])]

section
variable (hr : s.Rings 0x50 true) (ha : s.takeDoorbell.argsBad [0xF] = false) (hn : s.noChannels = false)
  (hls : s.lsEn = false) (hagg : s.masterAgg.testBit (s.takeDoorbell.argf 0 0 4) = false)
include hr ha hn hls hagg

/-- Without REC_EN the command ends with the fence (R837). -/
theorem exec_digestFence_answers (hrec : s.recEn = false) : exec .digestFence s =
    .next ((s.takeDoorbell.recordEpoch (s.takeDoorbell.argf 0 0 4) none false).finish eOk
      (fenceWords ((s.takeDoorbell.recordEpoch (s.takeDoorbell.argf 0 0 4) none false).stream (s.takeDoorbell.argf 0 0 4)).n
        ((s.takeDoorbell.recordEpoch (s.takeDoorbell.argf 0 0 4) none false).stream (s.takeDoorbell.argf 0 0 4)).d)) := by
  rw [exec_of_rings hr rfl, State.cmdDigestFence, checked_of_pass ha (by simp [hn]), if_neg (by simp [hrec]),
    State.digestFence_local (by simp [hls]) (by simp [hagg])]
  rfl

/-- With REC_EN the command is BUSY until the record is written (R730, R837). -/
theorem exec_digestFence_waits (hrec : s.recEn = true) : exec .digestFence s =
    .next ((s.takeDoorbell.recordEpoch (s.takeDoorbell.argf 0 0 4) none true).setRun
      ⟨0x50, s.takeDoorbell.argf 0 0 4, 0, [], []⟩) := by
  rw [exec_of_rings hr rfl, State.cmdDigestFence, checked_of_pass ha (by simp [hn]), if_pos (by simp [hrec]),
    State.digestFence_local (by simp [hls]) (by simp [hagg])]

end

end Sys2Proof.Machine
end

section
/-! ### The prepare of a two-phase change (R199, R253, R644, R805, R858, R859) -/

namespace Sys2Proof.Machine

variable {s t u : State}

/-- Between `s` and `t` the units have prepared a change: the islands, the crossing queues, counters and records may differ, of
the mailbox the causes alone, and nothing else. -/
structure State.Prepares (s t : State) : Prop where
  frame : Frame [.ctl, .evt, .mbx, .slices] s t
  mbx : t.mbx = { s.mbx with irq := t.mbx.irq }

namespace State.Prepares

theorem refl (s : State) : Prepares s s := ⟨.refl .., rfl⟩

theorem trans (h1 : Prepares s t) (h2 : Prepares t u) : Prepares s u :=
  ⟨h1.frame.trans h2.frame, by rw [h2.mbx, h1.mbx]⟩

theorem ite {c : Prop} [Decidable c] (h1 : Prepares s t) (h2 : Prepares s u) : Prepares s (if c then t else u) := by
  split
  · exact h1
  · exact h2

theorem each {α : Type} {f : State → α → State} (h : ∀ s a, Prepares s (f s a)) (l : List α) (s : State) :
    Prepares s (s.each l f) :=
  State.each_induct (P := Prepares s) (fun t a ht => ht.trans (h t a)) l (refl s)

theorem modSlice (s : State) (p : Nat) (f : Slice → Slice) : Prepares s (s.modSlice p f) :=
  ⟨(s.modSlice_frame p f).mono (by decide), rfl⟩

theorem stat (s : State) (page slot n : Nat) : Prepares s (s.stat page slot n) :=
  ⟨(State.count_frame ..).mono (by decide), State.count_mbx ..⟩

theorem icqPass (s : State) (q i : Nat) : Prepares s (s.icqPass q i) := ⟨(State.modIcq_frame ..).mono (by decide), rfl⟩

/-- A line is written back into the write buffer, not into the arrays (R209, R400, R935). -/
theorem writeLine (s : State) (p : Nat) (l : AccLine) (cause : Nat) (stay : Bool) : Prepares s (s.writeLine p l cause stay) :=
  ite (ite (refl s) (modSlice ..)) (ite (((modSlice ..).trans (modSlice ..)).trans (stat ..)) (modSlice ..))

theorem writeBackAll (s : State) (pick : Nat → AccLine → Bool) (keep : Bool) : Prepares s (s.writeBackAll pick keep) :=
  each (fun s p => ite (refl s) (each (fun s l => writeLine s p l _ keep) _ s)) _ s

theorem changeBack (s : State) (m : ModeChg) : Prepares s (s.changeBack m) := by
  unfold State.changeBack
  split
  · exact writeBackAll ..
  · exact writeBackAll ..
  · exact refl s
  · exact refl s

theorem calYield (s : State) (p : Nat) : Prepares s (s.calYield p) := ite ((modSlice ..).trans (stat ..)) (refl s)

theorem shadowRate (s : State) (rate : Nat) : Prepares s (s.shadowRate rate) := each (fun s p => modSlice s p _) _ s

theorem prepareWords (s : State) : Prepares s s.prepareWords :=
  ((icqPass ..).trans (icqPass ..)).trans (each (fun _ _ => (icqPass ..).trans (icqPass ..)) _ _)

end State.Prepares

/-- Between `s` and `t` the prepare of change `m` has begun, counted from this tick, and, on a master whose gang carries it, with
frames for the other members; of the mailbox the causes alone have changed (R805, R859). -/
structure State.Begins (s t : State) (m : ModeChg) : Prop where
  mc : ∃ acked ackd gang, t.mc = some { m with start := s.sys.ltc, acked := acked, ackd := ackd, gang := gang }
  frame : Frame [.mc, .ring, .ctl, .evt, .mbx, .slices] s t
  mbx : t.mbx = { s.mbx with irq := t.mbx.irq }

theorem State.setMc_frame (s : State) (c : Option ModeChg) : Frame [.mc] s { s with mc := c } :=
  .of rfl fun p => by cases p <;> simp [Part.same]

/-- An acknowledgement notes when it came. -/
theorem State.ackTime_of_mc {m : ModeChg} (h : s.mc = some m) : ∃ acked ackd,
    s.ackTime = { s with mc := some { m with acked := acked, ackd := ackd } } := by
  have hs : s = { s with mc := some { m with acked := m.acked, ackd := m.ackd } } := by rw [← h]
  unfold State.ackTime
  rw [h]
  dsimp only
  split
  · exact ⟨_, _, hs⟩
  · exact ⟨_, _, rfl⟩

/-- Once the units have prepared change `m` of this tick, and an acknowledgement has been noted, the change has begun. -/
theorem State.begins_ackTime {m : ModeChg}
    (h : Prepares { s.prepareWords with mc := some { m with start := s.sys.ltc, acked := s.sys.ltc, ackd := false } } t) :
    s.Begins t.ackTime m := by
  have hwords := Prepares.prepareWords s
  obtain ⟨acked, ackd, hack⟩ := State.ackTime_of_mc (h.frame.2 .mc (by decide))
  rw [hack]
  refine ⟨⟨acked, ackd, m.gang, rfl⟩, ?_, h.mbx.trans (by rw [hwords.mbx])⟩
  exact (hwords.frame.mono (by decide)).trans (((State.setMc_frame ..).mono (by decide)).trans ((h.frame.mono (by decide)).trans
    ((State.setMc_frame ..).mono (by decide))))

/-- The units prepare a change, which counts from this tick (R805). -/
theorem State.begins_startChange (s : State) (m : ModeChg) : s.Begins (s.startChange m) m := by
  refine State.begins_ackTime ?_
  dsimp only
  split
  · exact .changeBack ..
  · exact .changeBack ..
  · exact (Prepares.ite (.refl _) (.each (fun _ _ => .calYield ..) ..)).trans (.shadowRate ..)
  · exact .refl _

theorem State.ringSend_frame (s : State) (fs : List (List (BitVec 16))) : Frame [.ring] s (s.ringSend fs) := by
  unfold State.ringSend
  split
  · exact s.modRing_frame _
  · exact .refl ..

/-- A change begins here, and on a gang master the frames that carry it are driven (R805, R858, R859). -/
theorem State.begins_beginChange (s : State) (m : ModeChg) (op : BitVec 8) (arg crc : Word) (img : List Word) :
    s.Begins (s.beginChange m op arg crc img) m := by
  unfold State.beginChange
  split
  · dsimp only
    obtain ⟨⟨acked, ackd, gang, hmc⟩, hframe, hmbx⟩ := State.begins_startChange
      (s.modRing fun r => { r with xid := s.ring.xid + 1 })
      { m with gang := some ⟨s.ring.xid + 1, s.ring.id, op, arg, crc, s.gangOthers, 0, 8, false, s.sys.ltc⟩ }
    have hsend (t : State) (fs : List (List (BitVec 16))) := t.ringSend_frame fs
    refine ⟨⟨acked, ackd, gang, ?_⟩, ?_, ?_⟩
    · exact ((hsend ..).2 .mc (by decide)).trans hmc
    · exact ((State.modRing_frame ..).mono (by decide)).trans (hframe.trans ((hsend ..).mono (by decide)))
    · rw [(hsend ..).2 .mbx (by decide)]
      exact hmbx
  · exact State.begins_startChange s m

end Sys2Proof.Machine
end

section
/-! ### CFG_COMMIT, RATE_SET, DET_SET (R807, R817, R820, R822 to R824) -/

namespace Sys2Proof.Machine

variable {s t : State}

/-- A command whose change has begun stays BUSY until the change ends (R807). -/
theorem State.Begins.busy {m : ModeChg} (h : s.takeDoorbell.Begins t m) : t.mbx.st = .busy := by
  rw [h.mbx]
  rfl

theorem exec_cfgCommit {c : Cfg} (hr : s.Rings 0x10 false) (ha : s.takeDoorbell.argsBad [] = false)
    (hn : s.noChannels = false) (hm : s.modechg = false) (hc : s.commitCheck s.ctl.staging = .inr c) : exec .cfgCommit s =
      .next (s.takeDoorbell.beginChange { ModeChg.reset with what := .cfg, cfg := c, opc := 0x10 } 0x10 (BitVec.ofNat 32 c.len)
        c.crc (imageWords s.ctl.staging)) := by
  rw [exec_of_rings hr rfl, State.cmdCfgCommit, checked_of_pass ha (by simp [hn, hm]), takeDoorbell_commitCheck,
    takeDoorbell_ctl, hc]

section
variable (hr : s.Rings 0x20 false) (ha : s.takeDoorbell.argsBad [3] = false) (hb : s.rateBad = false)
  (hp : s.isPending 0x20 = false) (hsup : s.stk.rates.testBit (s.takeDoorbell.argf 0 0 2) = true)
include hr ha hb hp hsup

/-- RATE_SET to the rate in force answers at once (R252, R820). -/
theorem exec_rateSet_same (hrate : s.takeDoorbell.argf 0 0 2 = s.sys.rate) (hc : s.carries = false) :
    exec .rateSet s = .next { s with mbx := s.answer eOk [BitVec.ofNat 32 (s.takeDoorbell.argf 0 0 2)] } := by
  rw [exec_of_rings hr rfl, State.cmdRateSet, checked_of_pass ha (by simp [hb, hp, hsup, ← hrate, hc]),
    if_pos (by simp [hrate, hc]), finish_takeDoorbell]

/-- RATE_SET to another rate, or carried to a gang, begins its change (R820, R858). -/
theorem exec_rateSet_begins (hrate : s.takeDoorbell.argf 0 0 2 ≠ s.sys.rate ∨ s.carries = true) (hw : s.rateWaits = false)
    (hm : s.modechg = false) : exec .rateSet s = .next (s.takeDoorbell.startRate (s.takeDoorbell.argf 0 0 2) false) := by
  have hsame : ¬ (s.takeDoorbell.argf 0 0 2 == s.takeDoorbell.sys.rate && !s.takeDoorbell.carries) = true := by
    simpa [imp_iff_not_or] using hrate
  rw [exec_of_rings hr rfl, State.cmdRateSet, checked_of_pass ha (by simp [hb, hp, hsup, hm]), if_neg hsame,
    if_neg (by simp [hw])]

end

section
variable (hr : s.Rings 0x21 false) (ha : s.takeDoorbell.argsBad [3] = false) (hn : s.noChannels = false)
include hr ha hn

/-- DET_SET to the mode in force answers at once (R824). -/
theorem exec_detSet_same (hmode : s.takeDoorbell.argf 0 0 2 < 2) (hdet : modeOf (s.takeDoorbell.argf 0 0 2) = s.det.mode)
    (hc : s.carries = false) :
    exec .detSet s = .next { s with mbx := s.answer eOk [BitVec.ofNat 32 (s.takeDoorbell.argf 0 0 2)] } := by
  have h2 : s.takeDoorbell.argf 0 0 2 ≠ 2 := by omega
  have h3 : s.takeDoorbell.argf 0 0 2 ≠ 3 := by omega
  rw [exec_of_rings hr rfl, State.cmdDetSet, checked_of_pass ha (by simp [hn, h2, h3, hdet, hc]), if_neg h2,
    if_pos (by simp [h2, hdet, hc]), finish_takeDoorbell]

/-- DET_SET to the other mode, or carried to a gang, begins its change (R823, R858). -/
theorem exec_detSet_begins (hmode : s.takeDoorbell.argf 0 0 2 < 2)
    (hdet : modeOf (s.takeDoorbell.argf 0 0 2) ≠ s.det.mode ∨ s.carries = true)
    (hsat : s.takeDoorbell.argf 0 0 2 = 1 → s.cfg.satEqual = true) (hm : s.modechg = false) : exec .detSet s =
      .next (s.takeDoorbell.beginChange { ModeChg.reset with what := .det, det := modeOf (s.takeDoorbell.argf 0 0 2), opc := 0x21 }
        0x21 (BitVec.ofNat 32 (s.takeDoorbell.argf 0 0 2)) 0 []) := by
  have h2 : s.takeDoorbell.argf 0 0 2 ≠ 2 := by omega
  have h3 : s.takeDoorbell.argf 0 0 2 ≠ 3 := by omega
  have hsame : ¬ (s.takeDoorbell.argf 0 0 2 != 2 && modeOf (s.takeDoorbell.argf 0 0 2) == s.takeDoorbell.det.mode &&
      !s.takeDoorbell.carries) = true := by
    simpa [h2, imp_iff_not_or] using hdet
  rw [exec_of_rings hr rfl, State.cmdDetSet, checked_of_pass ha (by simp [hn, h2, h3, hm]), if_neg h2, if_neg hsame,
    if_neg (by simpa using hsat)]

/-- A doorbell taken that has set off an alignment (R713). -/
def State.aligning (s : State) : State :=
  s.takeDoorbell.modDet fun d => { d with align := 1, alignAt := s.sys.ltc, alignBoot := false }

/-- What DET_SET to DET_TIMING begins: the alignment, with admission held (R713, R823). -/
def State.beginAlign (s : State) : State := (s.aligning.holdAdm 3).setRun ⟨0x21, 2, 0, [], []⟩

theorem exec_detSet_timing (hmode : s.takeDoorbell.argf 0 0 2 = 2) (ht : s.timingBad = false) (hsat : s.cfg.satEqual = true)
    (hm : s.modechg = false) : exec .detSet s = .next s.beginAlign := by
  rw [exec_of_rings hr rfl, State.cmdDetSet, checked_of_pass ha (by simp [hn, hm, ht, hmode]), if_pos hmode,
    if_neg (by simp [hsat])]
  rfl

end

/-! #### The hold of admission (R15, R80, R81, R713) -/

theorem mem_insertNat_self (k : Nat) (l : List Nat) : k ∈ insertNat k l := by
  induction l with
  | nil => exact List.mem_cons_self
  | cons a l ih =>
    unfold insertNat
    split
    · exact List.mem_cons_self
    · split
      · next h => exact h ▸ List.mem_cons_self
      · exact List.mem_cons_of_mem _ ih

/-- A word that has crossed at once: its cause stands among those that hold admission. -/
theorem State.holdAdm_of_seen (h : s.icqSeen 7 0 ≤ s.sys.ltc) (c : Nat) :
    s.holdAdm c = (s.icqPass 7 0).modFab fun f => { f with hold := insertNat c f.hold } := if_pos h

/-- A word that has not crossed yet, as in DET_TIMING: it is on its way. -/
theorem State.holdAdm_of_unseen (h : ¬ s.icqSeen 7 0 ≤ s.sys.ltc) (c : Nat) : s.holdAdm c = (s.icqPass 7 0).modCtl fun x =>
    { x with words := x.words ++ [⟨7, 0, s.icqSeen 7 0, .admHold c⟩] } := if_neg h

theorem State.holdAdm_tells (s : State) (c : Nat) :
    s.Tells (s.holdAdm c) 7 0 (.admHold c) (c ∈ (s.holdAdm c).fab.hold) ((s.holdAdm c).fab = s.fab) := by
  unfold State.Tells
  split
  · next h =>
    rw [State.holdAdm_of_seen h]
    exact ⟨rfl, mem_insertNat_self ..⟩
  · next h =>
    rw [State.holdAdm_of_unseen h]
    exact ⟨rfl, rfl⟩

theorem State.holdAdm_frame (s : State) (c : Nat) : Frame [.fab, .ctl] s (s.holdAdm c) := by
  have hpass : Frame [.fab, .ctl] s (s.icqPass 7 0) := (State.modIcq_frame ..).mono (by decide)
  by_cases h : s.icqSeen 7 0 ≤ s.sys.ltc
  · rw [State.holdAdm_of_seen h]
    exact hpass.trans ((State.modFab_frame ..).mono (by decide))
  · rw [State.holdAdm_of_unseen h]
    exact hpass.trans ((State.modCtl_frame ..).mono (by decide))

theorem State.holdAdm_ctl (s : State) (c : Nat) :
    (s.holdAdm c).ctl = { s.ctl with icqs := (s.holdAdm c).ctl.icqs, words := (s.holdAdm c).ctl.words } := by
  by_cases h : s.icqSeen 7 0 ≤ s.sys.ltc
  · rw [State.holdAdm_of_seen h]
    rfl
  · rw [State.holdAdm_of_unseen h]
    rfl

theorem State.beginAlign_frame (s : State) : Frame [.det, .fab, .ctl, .mbx] s s.beginAlign :=
  ((takeDoorbell_frame s).mono (by decide)).trans (((State.modDet_frame ..).mono (by decide)).trans
    (((State.holdAdm_frame ..).mono (by decide)).trans ((setRun_frame ..).mono (by decide))))

theorem State.beginAlign_det (s : State) :
    s.beginAlign.det = { s.det with align := 1, alignAt := s.sys.ltc, alignBoot := false } :=
  (s.aligning.holdAdm_frame 3).2 .det (by decide)

/-- DET_SET stays BUSY until the alignment ends (R824). -/
theorem State.beginAlign_busy (s : State) : s.beginAlign.mbx.st = .busy :=
  congrArg Mbx.st ((s.aligning.holdAdm_frame 3).2 .mbx (by decide))

theorem State.beginAlign_ctl (s : State) :
    s.beginAlign.ctl = { s.ctl with icqs := s.beginAlign.ctl.icqs, words := s.beginAlign.ctl.words } := s.aligning.holdAdm_ctl 3

theorem State.beginAlign_tells (s : State) :
    s.Tells s.beginAlign 7 0 (.admHold 3) (3 ∈ s.beginAlign.fab.hold) (s.beginAlign.fab = s.fab) := s.aligning.holdAdm_tells 3

end Sys2Proof.Machine
end

section
/-! ### The obligation -/

namespace Sys2Proof.Machine

/-- Settles O47: each command's answer, or the change that it begins, from its own lemma. -/
theorem commandsAnswered : Obligations.CommandsAnswered := by
  unfold Obligations.CommandsAnswered
  intro s hcanon r a b v named f rate n d
  obtain ⟨-, -, hslices, -, -⟩ := hcanon
  refine ⟨exec_ident, fun hr ha => ?_, fun hr ha => ?_, fun hr ha => ?_, fun hr ha => ?_, fun hr ha => ?_,
    fun hr ha hn hm c hc => ?_, fun hr ha hb hp hsup => ?_, fun hr ha _ hn => ?_, fun hr ha => ?_⟩
  · exact ⟨_, exec_regionRead hr ha, by simp [entryWords], fun i hi => bit_entryWords _ hi⟩
  · exact ⟨exec_linkRead_range hr ha, exec_linkRead hr ha⟩
  · refine ⟨exec_tlmClear_range hr ha, fun hab hb => ⟨_, exec_tlmClear hr ha hab hb, rfl,
      fun page slot h => ?_, fun p => ?_, rfl, ?_⟩⟩
    · exact s.ctr_clearPages a b page h
    · exact State.slice_clearPages hslices a b p
    · exact ((s.clearPages_frame a b).mono (by decide)).trans ((State.modMbx_frame _ fun _ => s.answer eOk []).mono (by decide))
  · refine ⟨exec_sensorClear_range hr ha, fun hv => ⟨_, exec_sensorClear hr ha hv, rfl, s.sensor_markSensors v, rfl, ?_⟩⟩
    exact ((s.modTherm_frame _).mono (by decide)).trans ((State.modMbx_frame _ fun _ => s.answer eOk _).mono (by decide))
  · exact ⟨exec_lockstepRelease_idle hr ha, fun hm => ⟨_, exec_lockstepRelease hr ha hm,
      rfl, rfl, rfl, rfl, rfl, rfl, lockstepRelease_frame s _⟩⟩
  · have hbegin := s.takeDoorbell.begins_beginChange { ModeChg.reset with what := .cfg, cfg := c, opc := 0x10 } 0x10
      (BitVec.ofNat 32 c.len) c.crc (imageWords s.ctl.staging)
    obtain ⟨acked, ackd, gang, hmc⟩ := hbegin.mc
    exact ⟨_, _, exec_cfgCommit hr ha hn hm hc, hmc, rfl, rfl, rfl, rfl, rfl, hbegin.busy, hbegin.frame.2 .cfg (by decide),
      hbegin.frame.2 .mem (by decide)⟩
  · refine ⟨exec_rateSet_same hr ha hb hp hsup, fun hrate hw hm => ?_⟩
    have hbegin := s.takeDoorbell.begins_beginChange
      { ModeChg.reset with what := .rate, rate := rate, opc := 0x20, pend := false } 0x20 (BitVec.ofNat 32 rate) 0 []
    obtain ⟨acked, ackd, gang, hmc⟩ := hbegin.mc
    exact ⟨_, _, exec_rateSet_begins hr ha hb hp hsup hrate hw hm, hmc, rfl, rfl, rfl, rfl, rfl, hbegin.busy,
      hbegin.frame.2 .sys (by decide)⟩
  · refine ⟨exec_detSet_same hr ha hn, fun hmode hdet hsat hm => ?_, fun hmode ht hsat hm => ?_⟩
    · have hbegin := s.takeDoorbell.begins_beginChange { ModeChg.reset with what := .det, det := modeOf rate, opc := 0x21 } 0x21
        (BitVec.ofNat 32 rate) 0 []
      obtain ⟨acked, ackd, gang, hmc⟩ := hbegin.mc
      exact ⟨_, _, exec_detSet_begins hr ha hn hmode hdet hsat hm, hmc, rfl, rfl, rfl, rfl, rfl, hbegin.busy,
        hbegin.frame.2 .det (by decide)⟩
    · exact ⟨_, exec_detSet_timing hr ha hn hmode ht hsat hm, s.beginAlign_det, s.beginAlign_busy, s.beginAlign_tells,
        s.beginAlign_ctl, s.beginAlign_frame⟩
  · refine ⟨exec_digestFence_state hr ha, fun hn hls hagg hnum => ?_⟩
    have hself (cmd : Bool) := (s.takeDoorbell.stream_recordEpoch f f none cmd).trans (s.takeDoorbell.stream_closeEpoch f hnum)
    have hother (cmd : Bool) (j : Nat) (hj : j ≠ f) :=
      (s.takeDoorbell.stream_recordEpoch f j none cmd).trans (s.takeDoorbell.stream_closeEpoch_ne hj)
    have hframe (cmd : Bool) : Frame [.mbx, .det, .ctl, .evt] s (s.takeDoorbell.recordEpoch f none cmd) :=
      ((takeDoorbell_frame s).mono (by decide)).trans ((State.recordEpoch_frame ..).mono (by decide))
    cases hrec : s.recEn with
    | false =>
      have hexec := exec_digestFence_answers hr ha hn hls hagg hrec
      rw [hself] at hexec
      refine ⟨_, hexec, congrArg Stream.n (hself _), congrArg Stream.d (hself _), congrArg Stream.s (hself _),
        congrArg Stream.bytes (hself _), congrArg Stream.pieces (hself _), hother _,
        (hframe _).trans ((finish_frame ..).mono (by decide)), fun _ => ⟨?_, rfl, rfl, rfl, ?_, fun i hi => ?_⟩, nofun⟩
      · exact State.recs_recordEpoch_of_not_recEn f none false hrec
      · exact get_fenceWords_number n d
      · exact bit_fenceWords n d hi
    | true =>
      exact ⟨_, exec_digestFence_waits hr ha hn hls hagg hrec, congrArg Stream.n (hself _), congrArg Stream.d (hself _),
        congrArg Stream.s (hself _), congrArg Stream.bytes (hself _), congrArg Stream.pieces (hself _), hother _,
        (hframe _).trans ((setRun_frame ..).mono (by decide)), nofun,
        fun _ => ⟨congrArg Mbx.st (s.takeDoorbell.recordEpoch_mbx f none true), State.recs_recordEpoch f none true hrec⟩⟩

end Sys2Proof.Machine
end

section
/-! ### The march of a free spare slice begins (R590, R927, R929) -/

namespace Sys2Proof.Machine

variable {s : State} {p : Nat}

theorem State.modWrap_frame (s : State) (f : Wrap → Wrap) : Frame [.wrap] s (s.modWrap f) :=
  .of rfl fun p => by cases p <;> simp [State.modWrap, Part.same]

/-- A free spare slice is one of the 144 slices. -/
theorem State.lt_of_freeSpare (h : s.freeSpare p = true) : p < 144 := by
  simp only [State.freeSpare, State.spareOk, Bool.and_eq_true, decide_eq_true_eq] at h
  omega

theorem State.modSlice_wf (h : Tab.wf Slice.reset s.slices = true) (f : Slice → Slice) :
    Tab.wf Slice.reset (s.modSlice p f).slices = true := Tab.upd_wf h

theorem State.sendRow_frame (s : State) (p op fields : Nat) : Frame [.slices] s (s.sendRow p op fields) :=
  s.modSlice_frame p _

theorem State.startAccs_frame (s : State) (p : Nat) (fresh : Bool) : Frame [.slices] s (s.startAccs p fresh) :=
  s.modSlice_frame p _

/-- A march that begins touches the slices alone. -/
theorem State.marchStart_frame (s : State) (p : Nat) : Frame [.slices] s (s.marchStart p) :=
  (s.sendRow_frame ..).trans ((State.modSlice_frame ..).trans (State.startAccs_frame ..))

/-- Of the slices it touches the one under test alone. -/
theorem State.slice_marchStart_ne {j : Nat} (h : j ≠ p) : (s.marchStart p).slice j = s.slice j := by
  have hsend : (s.sendRow p 5 0).slice j = s.slice j := State.slice_modSlice_ne _ _ h
  exact (State.slice_modSlice_ne _ _ h).trans ((State.slice_modSlice_ne _ _ h).trans hsend)

/-- The starting values of the accumulators leave the rest of the slice, and its refresh engine's switches, as they are. -/
theorem State.slice_startAccs (h : Tab.wf Slice.reset s.slices = true) (fresh : Bool) : (s.startAccs p fresh).slice p =
    { s.slice p with rf := { (s.slice p).rf with rbanks := ((s.startAccs p fresh).slice p).rf.rbanks } } := by
  rw [State.startAccs, State.modRf, State.slice_modSlice h]

/-- The slice is under test, out of self-refresh, and its refresh engine runs (R929). -/
theorem State.slice_marchStart (h : Tab.wf Slice.reset s.slices = true) :
    ((s.marchStart p).slice p).rep.testing = true ∧ ((s.marchStart p).slice p).rf.selfRef = false ∧
      ((s.marchStart p).slice p).rf.refOn = true := by
  have hsend : Tab.wf Slice.reset (s.sendRow p 5 0).slices = true := State.modSlice_wf h _
  rw [State.marchStart, State.slice_startAccs (State.modSlice_wf hsend _), State.slice_modSlice hsend]
  exact ⟨rfl, rfl, rfl⟩

end Sys2Proof.Machine
end

section
/-! ### The wrapper's instructions (R924 to R927) -/

namespace Sys2Proof.Machine

variable {s : State}

/-! #### Instructions that power-on reset allows (R925) -/

/-- With KX_POR_n released such an instruction acts as WS_BYPASS. -/
theorem State.underPor_released (h : s.sys.porN = true) (i : BitVec 8) (f : State → State) : s.underPor i f = s.wir 0x00 :=
  if_pos h

theorem State.underPor_asserted (h : s.sys.porN = false) (i : BitVec 8) (f : State → State) : s.underPor i f = f (s.wir i) :=
  if_neg (by simp [h])

/-! #### MBIST_DONE (R926) -/

theorem exec_mbistDone_idle (h : s.wrap.bistRun = false ∨ s.sys.porN = true) (groups : BitVec 8) :
    exec (.mbistDone groups) s = .next s :=
  congrArg _ (if_pos (by simpa using h))

theorem exec_mbistDone (hrun : s.wrap.bistRun = true) (hpor : s.sys.porN = false) (groups : BitVec 8) :
    exec (.mbistDone groups) s =
      .next (s.modWrap fun w => { w with bist := 0x8000 ||| groups.setWidth 16, bistRun := false }) :=
  congrArg _ (if_neg (by simp [hrun, hpor]))

/-! #### KX_SLICE_TEST (R925, R927) -/

/-- Outside READY and in DET_TIMING it acts as WS_BYPASS (R925). -/
theorem exec_kxSliceTest_barred (h : s.sys.ready = false ∨ s.det.mode = .timing) (v : BitVec 16) :
    exec (.kxSliceTest v) s = exec .wsBypass s := by
  change execKxSliceTest v s = execWsBypass s
  rcases h with hready | hmode
  · simp [execKxSliceTest, execWsBypass, hready]
  · simp [execKxSliceTest, execWsBypass, hmode]

/-- KX_SLICE_TEST in effect, with slice and START bit `v` in its register. -/
def State.sliceTest (s : State) (v : BitVec 16) : State := s.modWrap fun w => { w with wir := 0x13, slice := v &&& 0x1FF }

/-- Where it is allowed, START and the slice named decide what it does (R927). -/
theorem exec_kxSliceTest_allowed (hready : s.sys.ready = true) (hmode : s.det.mode ≠ .timing) (v : BitVec 16) :
    exec (.kxSliceTest v) s = .next (
      if bit v 8 = false then s.sliceTest v
      else if s.freeSpare (fld v 0 8) = true then
        if s.istAllowed = true then (s.sliceTest v).marchStart (fld v 0 8) else s.sliceTest v
      else (s.sliceTest v).modWrap fun w => { w with slice := (v &&& 0x1FF) ||| 0x200 }) := by
  have hfree : (fld v 0 8 < 144 ∧ s.freeSpare (fld v 0 8) = true) ↔ s.freeSpare (fld v 0 8) = true :=
    and_iff_right_of_imp State.lt_of_freeSpare
  change execKxSliceTest v s = _
  cases hm : s.det.mode with
  | timing => exact absurd hm hmode
  | off | bits => simp [execKxSliceTest, hready, hm, hfree]; rfl

end Sys2Proof.Machine
end

section
/-! ### The obligation -/

namespace Sys2Proof.Machine

/-- Settles O60: the instructions of power-on reset by KX_POR_n, KX_SLICE_TEST by START, the slice named and R931. -/
theorem testWrapper : Obligations.TestWrapper := by
  unfold Obligations.TestWrapper
  intro s hcanon bypass spoilt
  obtain ⟨-, -, hslices, -, -⟩ := hcanon
  refine ⟨rfl, rfl, fun v => ⟨fun hpor => ?_, fun hpor => ?_⟩, fun hpor => ?_, fun hpor => ?_,
    fun groups => ⟨fun h => exec_mbistDone_idle h groups, fun hrun hpor => exec_mbistDone hrun hpor groups⟩,
    fun v => ⟨fun h => exec_kxSliceTest_barred h v, fun hready hmode => ?_⟩⟩
  · exact ⟨congrArg _ (State.underPor_released hpor ..), congrArg _ (State.underPor_released hpor ..)⟩
  · exact ⟨congrArg _ (State.underPor_asserted hpor ..), congrArg _ (State.underPor_asserted hpor ..)⟩
  · exact ⟨congrArg _ (State.underPor_released hpor ..), congrArg _ (State.underPor_released hpor ..)⟩
  · exact ⟨congrArg _ (State.underPor_asserted hpor ..), congrArg _ (State.underPor_asserted hpor ..)⟩
  · intro p w
    have hexec := exec_kxSliceTest_allowed hready hmode v
    refine ⟨fun hstart => ?_, fun hstart hfree => ?_, fun hstart hfree hist => ?_, fun hstart hfree hist => ?_⟩
    · rw [hexec, if_pos hstart]
      rfl
    · rw [hexec, if_neg (by simp [hstart]), if_neg (by simp [p, hfree])]
      rfl
    · rw [hexec, if_neg (by simp [hstart]), if_pos hfree, if_neg (by simp [hist])]
      rfl
    · rw [if_neg (by simp [hstart]), if_pos hfree, if_pos hist] at hexec
      have hmarch := (s.sliceTest v).marchStart_frame p
      obtain ⟨htesting, hself, hon⟩ := State.slice_marchStart (s := s.sliceTest v) (p := p) hslices
      exact ⟨_, hexec, hmarch.2 .wrap (by decide), htesting, hself, hon, fun j hj => State.slice_marchStart_ne hj,
        ((s.modWrap_frame _).mono (by decide)).trans (hmarch.mono (by decide))⟩

end Sys2Proof.Machine
end

section
/-! ### What a step keeps, and that it answers -/

namespace Sys2Proof.Machine

/-- Every command keeps the canonical form and the queue that waits behind it: by the lemma of its row. -/
theorem exec_kept {cmds : List Instr} {s : State} (h : s.Kept cmds) (i : Instr) : Res.Ok (State.Kept cmds) (exec i s) :=
  match i with
  | .rd port r => execRd_kept h port r
  | .wr port r => execWr_kept h port r
  | .wrPartial port r => execWrPartial_kept h port r
  | .acc port r => execAcc_kept h port r
  | .fence port r => execFence_kept h port r
  | .gather port r => execGather_kept h port r
  | .brewLaunch port r => execBrewLaunch_kept h port r
  | .brewAbort port r => execBrewAbort_kept h port r
  | .writeBulk d => execWriteBulk_kept h d
  | .accBulk d => execAccBulk_kept h d
  | .readBulk d => execReadBulk_kept h d
  | .writeDataBeat port data be => execWriteDataBeat_kept h port data be
  | .inboundDataBeat data => execInboundDataBeat_kept h data
  | .rspCrd port => execRspCrd_kept h port
  | .odataCrd => execOdataCrd_kept h
  | .cplCrd => execCplCrd_kept h
  | .requestAdmit port => execRequestAdmit_kept h port
  | .blpDescAdmit => execBlpDescAdmit_kept h
  | .meterTest k svc => execMeterTest_kept h k svc
  | .meterWheelEvent k svc => execMeterWheelEvent_kept h k svc
  | .subBucketRefill k => execSubBucketRefill_kept h k
  | .channelPeriodStart => execChannelPeriodStart_kept h
  | .channelFill c => execChannelFill_kept h c
  | .queueSample => execQueueSample_kept h
  | .channelSchedule p => execChannelSchedule_kept h p
  | .refreshDue p bank => execRefreshDue_kept h p bank
  | .rdtThrottleEnd k c => execRdtThrottleEnd_kept h k c
  | .readDataReturn p err => execReadDataReturn_kept h p err
  | .writeBufferEnter p => execWriteBufferEnter_kept h p
  | .accPieceApply p => execAccPieceApply_kept h p
  | .resealRow c bank row => execResealRow_kept h c bank row
  | .responseBeat port => execResponseBeat_kept h port
  | .outboundBeat n => execOutboundBeat_kept h n
  | .blpCompletionRecord => execBlpCompletionRecord_kept h
  | .fenceComplete port => execFenceComplete_kept h port
  | .digestRecordDone lost => execDigestRecordDone_kept h lost
  | .gatherEngineStart => execGatherEngineStart_kept h
  | .gatherListRead e => execGatherListRead_kept h e
  | .gatherPageRead e => execGatherPageRead_kept h e
  | .gatherBeat e => execGatherBeat_kept h e
  | .brewDispatchOp n => execBrewDispatchOp_kept h n
  | .brewLaunchStart p => execBrewLaunchStart_kept h p
  | .brewOpStart p => execBrewOpStart_kept h p
  | .brewOpEnd p => execBrewOpEnd_kept h p
  | .brewPreempt p => execBrewPreempt_kept h p
  | .brewResume p => execBrewResume_kept h p
  | .brewLaunchCommit n => execBrewLaunchCommit_kept h n
  | .brewLaunchEnd n => execBrewLaunchEnd_kept h n
  | .scrubAccess p => execScrubAccess_kept h p
  | .scrubPassLate p => execScrubPassLate_kept h p
  | .scrubCheck p => execScrubCheck_kept h p
  | .rowRepairAck p => execRowRepairAck_kept h p
  | .rowRepairTimeout p => execRowRepairTimeout_kept h p
  | .epUnitFault p bank => execEpUnitFault_kept h p bank
  | .unitSub p bank => execUnitSub_kept h p bank
  | .unitSubAck p bank => execUnitSubAck_kept h p bank
  | .unitSubTimeout p bank => execUnitSubTimeout_kept h p bank
  | .hkRoundStart => execHkRoundStart_kept h
  | .hkEvaluation readings spare => execHkEvaluation_kept h readings spare
  | .thermGraceEnd => execThermGraceEnd_kept h
  | .zqCal code => execZqCal_kept h code
  | .fedBudgetTimer => execFedBudgetTimer_kept h
  | .powerReport l power pstate => execPowerReport_kept h l power pstate
  | .powerSetAck l => execPowerSetAck_kept h l
  | .powerSetTimeout l => execPowerSetTimeout_kept h l
  | .istCycle o => execIstCycle_kept h o
  | .sliceMarchDone pass => execSliceMarchDone_kept h pass
  | .calPassStart p => execCalPassStart_kept h p
  | .calLane p bondTrim spareTrim => execCalLane_kept h p bondTrim spareTrim
  | .lsteerSwitch p => execLsteerSwitch_kept h p
  | .sbAlertN p executed => execSbAlertN_kept h p executed
  | .epCkLockLost p => execEpCkLockLost_kept h p
  | .readStrobeLost p => execReadStrobeLost_kept h p
  | .retrainEnd p o => execRetrainEnd_kept h p o
  | .migStart p => execMigStart_kept h p
  | .migRowCopy c => execMigRowCopy_kept h c
  | .rebindZeroingDone c => execRebindZeroingDone_kept h c
  | .icqPtrUpset u => execIcqPtrUpset_kept h u
  | .ident => execIdent_kept h
  | .tlmClear => execTlmClear_kept h
  | .sensorClear => execSensorClear_kept h
  | .cfgCommit => execCfgCommit_kept h
  | .cfgStore => execCfgStore_kept h
  | .cfgStoreTimeout => execCfgStoreTimeout_kept h
  | .regionRead => execRegionRead_kept h
  | .rateSet => execRateSet_kept h
  | .detSet => execDetSet_kept h
  | .accFlush => execAccFlush_kept h
  | .brewLoad => execBrewLoad_kept h
  | .reseal => execReseal_kept h
  | .retrain => execRetrain_kept h
  | .calRun => execCalRun_kept h
  | .linkRead => execLinkRead_kept h
  | .migrate => execMigrate_kept h
  | .rebind => execRebind_kept h
  | .firnRead => execFirnRead_kept h
  | .firnReadTimeout => execFirnReadTimeout_kept h
  | .digestFence => execDigestFence_kept h
  | .digestRegion => execDigestRegion_kept h
  | .lockstepRelease => execLockstepRelease_kept h
  | .saveContext => execSaveContext_kept h
  | .saveContextDrained => execSaveContextDrained_kept h
  | .saveContextTimeout => execSaveContextTimeout_kept h
  | .restoreContext => execRestoreContext_kept h
  | .frostEnter => execFrostEnter_kept h
  | .frostDrained => execFrostDrained_kept h
  | .frostEnterTimeout => execFrostEnterTimeout_kept h
  | .mbxBadOpcode => execMbxBadOpcode_kept h
  | .modechgCommit => execModechgCommit_kept h
  | .commitWindowEnd => execCommitWindowEnd_kept h
  | .modechgPrepareTimeout => execModechgPrepareTimeout_kept h
  | .alignArmed => execAlignArmed_kept h
  | .detSetDrainTimeout => execDetSetDrainTimeout_kept h
  | .alignA0 => execAlignA0_kept h
  | .alignAr => execAlignAr_kept h
  | .alignTimeout => execAlignTimeout_kept h
  | .kxPorNAssert => execKxPorNAssert_kept h
  | .kxPorNRelease e => execKxPorNRelease_kept h e
  | .zeroingDone => execZeroingDone_kept h
  | .kxRstNAssert => execKxRstNAssert_kept h
  | .kxRstNRelease => execKxRstNRelease_kept h
  | .kxWake level => execKxWake_kept h level
  | .thawRelease => execThawRelease_kept h
  | .kxSubDownSet k => execKxSubDownSet_kept h k
  | .kxSubDownClear k => execKxSubDownClear_kept h k
  | .subDrained k => execSubDrained_kept h k
  | .regWrite off v => execRegWrite_kept h off v
  | .ltcLoRead => execLtcLoRead_kept h
  | .tlmWord0Read slot => execTlmWord0Read_kept h slot
  | .evtLogNext => execEvtLogNext_kept h
  | .evtLogRewind => execEvtLogRewind_kept h
  | .evtLogAck => execEvtLogAck_kept h
  | .evtIrqClear mask => execEvtIrqClear_kept h mask
  | .kxInstPwrokChange ok => execKxInstPwrokChange_kept h ok
  | .kxAonRstN level => execKxAonRstN_kept h level
  | .ringBypassOpen => execRingBypassOpen_kept h
  | .announceTimer => execAnnounceTimer_kept h
  | .announce src cfg agg psum => execAnnounce_kept h src cfg agg psum
  | .memberExpiry m => execMemberExpiry_kept h m
  | .image src chunk data => execImage_kept h src chunk data
  | .prepare src xid op arg crc => execPrepare_kept h src xid op arg crc
  | .ack src xid err => execAck_kept h src xid err
  | .commit src xid => execCommit_kept h src xid
  | .abort src xid => execAbort_kept h src xid
  | .gangPrepareTimeout => execGangPrepareTimeout_kept h
  | .budget src w => execBudget_kept h src w
  | .budgetTimer => execBudgetTimer_kept h
  | .digest src stream n d => execDigest_kept h src stream n d
  | .aggTimeout stream => execAggTimeout_kept h stream
  | .lsRecordFrame f => execLsRecordFrame_kept h f
  | .lsHeartbeatFrame f => execLsHeartbeatFrame_kept h f
  | .lsHeartbeatTimer => execLsHeartbeatTimer_kept h
  | .lsLinkTimeout => execLsLinkTimeout_kept h
  | .wsBypass => execWsBypass_kept h
  | .wsExtest v => execWsExtest_kept h v
  | .wsIntest v => execWsIntest_kept h v
  | .kxIdcode => execKxIdcode_kept h
  | .kxMbist => execKxMbist_kept h
  | .mbistDone groups => execMbistDone_kept h groups
  | .kxScan => execKxScan_kept h
  | .kxSliceTest v => execKxSliceTest_kept h v
  | .unsupportedTypeRequest port typ r => execUnsupportedTypeRequest_kept h port typ r
  | .reservedOpDescriptor d => execReservedOpDescriptor_kept h d
  | .cfgStoreDone good => execCfgStoreDone_kept h good
  | .firnReadAnswer units rows => execFirnReadAnswer_kept h units rows
  | .lsFrameSent => execLsFrameSent_kept h
  | .ringFramePass f => execRingFramePass_kept h f

/-- A step keeps the canonical form and takes no more than the front of the queue. -/
theorem step_kept {s : State} (h : s.Canon) : Res.Ok (State.Kept s.pending.tail) (step s) := by
  unfold step
  split
  · next hq => exact State.ltcTick_kept ⟨h, by rw [hq]; rfl⟩
  · next c rest hq =>
    have hrest : State.Kept rest { s with pending := rest } := ⟨h, rfl⟩
    rw [hq]
    exact exec_kept hrest c

/-- The state that a step answers. -/
theorem kept_of_step {s t : State} (h : s.Canon) (ht : step s = .next t) : t.Kept s.pending.tail := by
  have hok := step_kept h
  rwa [ht] at hok

/-- Each row of the table is a change of the state: no command ends in a fault or a refusal (log 11). -/
theorem exec_eq_next (i : Instr) (s : State) : ∃ t, exec i s = .next t := by
  cases i <;> exact ⟨_, rfl⟩

/-- Settles O5: a step keeps `State.Kept`, whose first half is the canonical form. -/
theorem canonKept : Obligations.CanonKept := by
  unfold Obligations.CanonKept
  intro s hcanon t ht
  exact (kept_of_step hcanon ht).1

/-- Settles O2: every row answers a next state, and what waits after a step is the tail of the queue. -/
theorem noCommandStops : Obligations.NoCommandStops := by
  unfold Obligations.NoCommandStops
  exact ⟨exec_eq_next, fun s t hcanon ht => (kept_of_step hcanon ht).2⟩

/-- Settles O1: a step is, by its definition, the command at the front on the state with the queue's rest. -/
theorem stepRunsFront : Obligations.StepRunsFront := by
  unfold Obligations.StepRunsFront
  exact fun _ _ _ => rfl

/-- Settles O4: the reset state is in canonical form (`State.reset_kept`), and each value is the one its part resets to. -/
theorem resetState : Obligations.ResetState := by
  unfold Obligations.ResetState
  exact ⟨State.reset_kept.1, State.reset_kept.2, rfl, rfl, rfl, rfl, rfl, rfl, rfl, fun _ _ => rfl, rfl, rfl, fun _ => rfl,
    rfl, rfl, rfl, fun _ => rfl⟩

end Sys2Proof.Machine
end

section
/-! ### Updates of one part, and what frames them -/

namespace Sys2Proof.Machine

variable {s : State}

theorem State.setPort_frame (s : State) (k : Nat) (x : Port) : Frame [.ports] s (s.setPort k x) :=
  .of rfl fun p => by cases p <;> simp [Part.same]

theorem State.modPort_frame (s : State) (k : Nat) (f : Port → Port) : Frame [.ports] s (s.modPort k f) := s.setPort_frame k _

theorem State.modBlp_frame (s : State) (f : Blp → Blp) : Frame [.blp] s (s.modBlp f) :=
  .of rfl fun p => by cases p <;> simp [Part.same]

theorem State.modSys_frame (s : State) (f : Sys → Sys) : Frame [.sys] s (s.modSys f) :=
  .of rfl fun p => by cases p <;> simp [Part.same]

theorem State.modStk_frame (s : State) (f : Stack → Stack) : Frame [.stk] s (s.modStk f) :=
  .of rfl fun p => by cases p <;> simp [Part.same]

theorem State.icqPass_frame (s : State) (q i : Nat) : Frame [.ctl] s (s.icqPass q i) := s.modIcq_frame q i _

/-- A port update keeps the canonical form of the port table. -/
theorem State.modPort_wf (h : Tab.wf Port.reset s.ports = true) (k : Nat) (f : Port → Port) :
    Tab.wf Port.reset (s.modPort k f).ports = true := Tab.set_wf h

/-- What a port holds is a matter of the port table. -/
theorem State.port_congr {t : State} (h : t.ports = s.ports) (k : Nat) : t.port k = s.port k := by rw [State.port, h, State.port]

/-- What an island holds is a matter of the island table. -/
theorem State.slice_congr {t : State} (h : t.slices = s.slices) (p : Nat) : t.slice p = s.slice p := by
  rw [State.slice, h, State.slice]

/-- A loop over nothing does nothing. -/
@[simp] theorem State.each_nil {α : Type} (s : State) (f : State → α → State) : s.each [] f = s := rfl

@[simp] theorem State.each_cons {α : Type} (s : State) (a : α) (l : List α) (f : State → α → State) :
    s.each (a :: l) f = (f s a).each l f := rfl

end Sys2Proof.Machine
end

section
/-! ### Request words at the ports (R84 to R101, R160) -/

namespace Sys2Proof.Machine

variable {s t u : State} {i : Instr} {k ty : Nat} {r : Request}

/-- Every command that hands a word to a port runs the port's acceptance. -/
theorem exec_of_portWord (h : portWord i = some (k, ty, r)) (s : State) : exec i s = .next (s.acceptReq k ty r) := by
  unfold portWord at h
  split at h
  case h_9 p typ r' =>
    split at h
    · next hu =>
      cases h
      exact congrArg Host.Outcome.next (if_pos hu)
    · cases h
  case h_10 => cases h
  all_goals cases h; rfl

/-- The entry that an accepted word makes in the input queue (R39, R93, R97, R101). -/
def State.reqTaken (s : State) (k ty : Nat) (r : Request) : InReq :=
  ⟨ty, r, s.fabView, (s.port k).nextOrd, s.tagInFlight k r.tag⟩

/-- The port with the word taken: a credit and an acceptance number used, and the beats owed (R84, R93, R97). -/
def State.portTaking (s : State) (k ty : Nat) (r : Request) : Port :=
  { s.port k with
    reqCrd := (s.port k).reqCrd - 1, inq := (s.port k).inq ++ [s.reqTaken k ty r], nextOrd := (s.port k).nextOrd + 1
    owed := if writeBeats ty r.len.toNat = 0 then (s.port k).owed
      else (s.port k).owed ++ [⟨(s.port k).nextOrd, writeBeats ty r.len.toNat, s.tagInFlight k r.tag⟩] }

theorem State.acceptReq_barred (h : s.portsLive = false ∨ s.isMasked k = true) : s.acceptReq k ty r = s :=
  if_pos (by simpa using h)

theorem State.acceptReq_of_no_credit (hlive : s.portsLive = true) (hmask : s.isMasked k = false) (hcrd : (s.port k).reqCrd = 0) :
    s.acceptReq k ty r = s.protoError k 1 := by
  simp [State.acceptReq, hlive, hmask, hcrd]

theorem State.acceptReq_of_credit (hlive : s.portsLive = true) (hmask : s.isMasked k = false) (hcrd : (s.port k).reqCrd ≠ 0) :
    s.acceptReq k ty r = (s.setPort k (s.portTaking k ty r)).bindPort k := by
  simp [State.acceptReq, hlive, hmask, hcrd, State.portTaking, State.reqTaken]

/-! #### Binding data beats (R97, R143) -/

/-- Between `s` and `t` data beats have been bound at port `k`: they stand with the port, or with the entries of its requests, and
nothing else has changed. -/
structure State.BeatsBound (k : Nat) (s t : State) : Prop where
  wf : Tab.wf Port.reset t.ports = true
  port : ∃ early owed wdat, t.port k = { s.port k with early := early, owed := owed, wdat := wdat }
  others : ∀ j, j ≠ k → t.port j = s.port j
  trk : t.fab.trk.map (fun e => { e with wdat := [] }) = s.fab.trk.map (fun e => { e with wdat := [] })
  ghost : t.fab.ghost.map (fun e => { e with wdat := [] }) = s.fab.ghost.map (fun e => { e with wdat := [] })
  fab : t.fab = { s.fab with trk := t.fab.trk, ghost := t.fab.ghost }
  frame : Frame [.ports, .fab] s t

theorem State.BeatsBound.trans (h1 : BeatsBound k s t) (h2 : BeatsBound k t u) : BeatsBound k s u where
  wf := h2.wf
  port := by
    obtain ⟨_, _, _, e1⟩ := h1.port
    obtain ⟨a, o, w, e2⟩ := h2.port
    exact ⟨a, o, w, by rw [e2, e1]⟩
  others j hj := (h2.others j hj).trans (h1.others j hj)
  trk := h2.trk.trans h1.trk
  ghost := h2.ghost.trans h1.ghost
  fab := by rw [h2.fab, h1.fab]
  frame := h1.frame.trans h2.frame

theorem State.BeatsBound.refl (h : Tab.wf Port.reset s.ports = true) : BeatsBound k s s :=
  ⟨h, ⟨_, _, _, rfl⟩, fun _ _ => rfl, rfl, rfl, rfl, .refl ..⟩

/-- A beat changes the data of an entry alone. -/
theorem map_giveBeat (k : Nat) (ob : Nat × WBeat) (l : List Entry) :
    (giveBeat k ob l).map (fun e => { e with wdat := [] }) = l.map fun e => { e with wdat := [] } := by
  rw [giveBeat, List.map_map]
  refine List.map_congr_left fun e _ => ?_
  by_cases h : e.sub = k ∧ e.ord = ob.1 <;> simp [h]

theorem State.beatsBound_modPort (h : Tab.wf Port.reset s.ports = true) {f : Port → Port}
    (hf : ∀ p, ∃ early owed wdat, f p = { p with early := early, owed := owed, wdat := wdat }) : BeatsBound k s (s.modPort k f) where
  wf := s.modPort_wf h k f
  port := by
    rw [State.port_modPort h]
    exact hf _
  others _ hj := State.port_modPort_ne _ _ hj
  trk := rfl
  ghost := rfl
  fab := rfl
  frame := (s.modPort_frame k f).mono (by decide)

/-- Each bound beat goes to an entry of the tracker, to a request that has ended, or stays with the port. -/
theorem State.beatsBound_placeBeats (h : Tab.wf Port.reset s.ports = true) (l : List (Nat × WBeat)) :
    BeatsBound k s (s.placeBeats k l) := by
  refine State.each_induct (P := BeatsBound k s) (fun t ob ht => ht.trans ?_) l (.refl h)
  dsimp only
  split
  · exact ⟨ht.wf, ⟨_, _, _, rfl⟩, fun _ _ => rfl, map_giveBeat .., rfl, rfl, (t.modFab_frame _).mono (by decide)⟩
  · split
    · exact ⟨ht.wf, ⟨_, _, _, rfl⟩, fun _ _ => rfl, rfl, map_giveBeat .., rfl, (t.modFab_frame _).mono (by decide)⟩
    · exact State.beatsBound_modPort ht.wf fun p => ⟨_, _, _, rfl⟩

theorem State.beatsBound_bindPort (h : Tab.wf Port.reset s.ports = true) (k : Nat) : BeatsBound k s (s.bindPort k) :=
  (State.beatsBound_modPort h fun _ => ⟨_, _, _, rfl⟩).trans (State.beatsBound_placeBeats (s.modPort_wf h k _) _)

/-! #### Settled -/

/-- Settles O6: the port takes the word, and binding the beats that wait moves nothing but write data. -/
theorem requestAccepted : Obligations.RequestAccepted := by
  unfold Obligations.RequestAccepted
  intro i k ty r s hi ⟨_, hports, _⟩ hlive hmask hcrd
  have hbound := State.beatsBound_bindPort (s := s.setPort k (s.portTaking k ty r)) (Tab.set_wf hports) k
  obtain ⟨early, owed, wdat, hport⟩ := hbound.port
  rw [State.port_setPort hports] at hport
  rw [exec_of_portWord hi, State.acceptReq_of_credit hlive hmask hcrd]
  refine ⟨_, rfl, by rw [hport]; rfl, ?_, by rw [hport]; rfl, fun j hj => ?_, hbound.trk, hbound.ghost, hbound.fab, ?_⟩
  · rw [hport]
    exact Nat.sub_add_cancel (Nat.one_le_iff_ne_zero.2 hcrd)
  · rw [hbound.others j hj, State.port_setPort_ne _ _ hj]
  · exact ((s.setPort_frame ..).mono (by decide)).trans hbound.frame

/-- Settles O7: the first two branches of acceptance. -/
theorem requestRefused : Obligations.RequestRefused := by
  unfold Obligations.RequestRefused
  intro i k ty r s hi
  refine ⟨fun hbar => ?_, fun hlive hmask hcrd => ?_⟩
  · rw [exec_of_portWord hi, State.acceptReq_barred hbar]
  · rw [exec_of_portWord hi, State.acceptReq_of_no_credit hlive hmask hcrd]
    rfl

/-- Settles O9: each credit pulse adds one to its counter. -/
theorem creditReturned : Obligations.CreditReturned := by
  unfold Obligations.CreditReturned
  intro s hlive
  refine ⟨fun k ⟨_, hports, _⟩ hmask => ?_, fun hmask => ?_, fun hmask => ?_⟩
  · have hexec : exec (.rspCrd k) s = .next (s.modPort k.val fun p =>
        { p with rspCrd := p.rspCrd + 1, rspGrant := max p.rspGrant (p.rspCrd + 1) }) :=
      congrArg _ (if_neg (by simp [hlive, hmask]))
    refine ⟨_, hexec, ?_, ?_, fun j hj => State.port_modPort_ne _ _ hj, s.modPort_frame ..⟩ <;> rw [State.port_modPort hports]
  · exact congrArg _ (if_neg (by simp [hlive, hmask]))
  · exact congrArg _ (if_neg (by simp [hlive, hmask]))

end Sys2Proof.Machine
end

section
/-! ### Descriptors and data beats (R97, R144, R148, R149) -/

namespace Sys2Proof.Machine

variable {s : State} {k : Nat}

/-! #### Words and commands -/

/-- The 256-bit descriptor reads back from its OP and fields (R144). -/
theorem Desc.word_ofWord (w : BitVec 256) : Desc.word (Desc.opOf w) (Desc.ofWord w) = w := by
  have hdig : BitVec.ofBool (w.getLsbD 31) = w.extractLsb' 31 1 := by
    ext i hi
    obtain rfl : i = 0 := by omega
    simp
  simp only [Desc.word, Desc.opOf, Desc.ofWord, hdig]
  repeat rw [BitVec.extractLsb'_append_extractLsb'_eq_extractLsb']
  · exact BitVec.extractLsb'_eq_self
  all_goals rfl

/-- OP is one of its four values. -/
theorem BitVec.two_cases (b : BitVec 2) : b = 0 ∨ b = 1 ∨ b = 2 ∨ b = 3 := by
  revert b
  decide

/-- The command of a descriptor carries its OP and fields (R144, R149). -/
theorem descWord_blpCommand (w : BitVec 256) :
    descWord (blpCommand w) = some w ∧ blpWord (blpCommand w) = some ((Desc.opOf w).toNat, Desc.ofWord w) := by
  have hw := Desc.word_ofWord w
  unfold blpCommand
  rcases BitVec.two_cases (Desc.opOf w) with h | h | h | h <;> rw [h] at hw ⊢ <;> exact ⟨congrArg some hw, rfl⟩

/-- Every command that hands a descriptor to the BLP runs the BLP's acceptance. -/
theorem exec_of_blpWord {i : Instr} {op : Nat} {d : Desc} (h : blpWord i = some (op, d)) (s : State) :
    exec i s = .next (s.acceptDesc op d) := by
  unfold blpWord at h
  split at h
  case h_5 => cases h
  all_goals cases h; rfl

/-- A descriptor with LEN 0, or of another OP than 0 and 1, owes no beat (R148). -/
theorem owed_of_desc (op : Nat) (len : BitVec 25) (n : Nat) (l : List Owed) :
    (if (if op < 2 then (len.toNat + 63) / 64 else 0) = 0 then l
      else l ++ [⟨n, if op < 2 then (len.toNat + 63) / 64 else 0, false⟩]) =
    l ++ (if op < 2 ∧ len ≠ 0 then [⟨n, (len.toNat + 63) / 64, false⟩] else []) := by
  have hlen : len = 0 ↔ (len.toNat + 63) / 64 = 0 := by
    have hzero : (0 : BitVec 25).toNat = 0 := rfl
    rw [BitVec.toNat_eq, hzero]
    omega
  by_cases hop : op < 2
  · by_cases h : len = 0
    · simp [hop, h]
    · simp only [hop, if_true, if_neg (mt hlen.2 h), true_and, ne_eq, h, not_false_iff]
  · simp [hop]

/-- Settles O8: the round trip of the descriptor word, and the BLP's acceptance with a credit. -/
theorem descriptorAccepted : Obligations.DescriptorAccepted := by
  unfold Obligations.DescriptorAccepted
  refine ⟨descWord_blpCommand, fun i op d s hi hlive hmask hcrd => ?_⟩
  rw [exec_of_blpWord hi]
  refine ⟨_, rfl, ?_, ?_, ?_⟩
  all_goals rw [State.acceptDesc, if_neg (by simp [hlive, hmask]), if_neg hcrd]
  · simp only [State.modBlp_blp, owed_of_desc]
    rfl
  · rfl
  · exact ((s.icqPass_frame 5 0).mono (by decide)).trans ((State.modBlp_frame ..).mono (by decide))

/-! #### Data beats -/

/-- With no ended request that is owed data, nothing more is hashed (R143). -/
theorem State.feedGhosts_of_none (h : s.fab.ghost = []) : s.feedGhosts = s := by
  simp only [State.feedGhosts, h, List.filterMap_nil, State.each_nil, State.modFab, List.filter_nil]
  exact congrArg (fun g => { s with fab := { s.fab with ghost := g } }) h.symm

@[simp] theorem State.placeBeats_nil (s : State) (k : Nat) : s.placeBeats k [] = s := rfl

/-- Binding, with its outcome named. -/
theorem State.bindPort_of_bindBeats {got : List (Nat × WBeat)} {owed : List Owed} {rest : List WBeat}
    (h : bindBeats (s.port k).owed (s.port k).early = (got, owed, rest)) :
    s.bindPort k = (s.modPort k fun p => { p with owed := owed, early := rest }).placeBeats k got := by
  rw [State.bindPort, h]

/-- The port with one beat more that nothing owes yet. -/
def State.keepBeat (s : State) (k : Nat) (b : WBeat) : State := s.modPort k fun p => { p with early := p.early ++ [b] }

theorem State.port_keepBeat (h : Tab.wf Port.reset s.ports = true) (b : WBeat) :
    (s.keepBeat k b).port k = { s.port k with early := (s.port k).early ++ [b] } := State.port_modPort h _ _

theorem State.port_keepBeat_ne {j : Nat} (b : WBeat) (hj : j ≠ k) : (s.keepBeat k b).port j = s.port j :=
  State.port_modPort_ne _ _ hj

/-- With no entry of subscriber `k` in the tracker, and no ended request, a write-data beat is bound and no more. -/
theorem exec_writeDataBeat {k : Fin 36} (d : BitVec 1024) (be : BitVec 128) (hlive : s.portsLive = true)
    (hmask : s.isMasked k.val = false) (hcrd : (s.port k.val).wdCrd ≠ 0) {t : State}
    (hbind : (s.keepBeat k.val (portBeat k.val d be)).bindPort k.val = t)
    (htrk : (t.fab.trk.any fun e => e.sub == k.val) = false) (hghost : t.fab.ghost = []) :
    exec (.writeDataBeat k d be) s = .next t := by
  have hnone : (t.fab.trk.filter fun e => e.sub == k.val) = [] := by simpa [List.filter_eq_nil_iff] using htrk
  rw [State.keepBeat] at hbind
  change execWriteDataBeat k d be s = _
  simp only [execWriteDataBeat, hbind, hnone, List.map_nil, State.each_nil, State.feedGhosts_of_none hghost]
  rw [if_neg (by simp [hlive, hmask]), if_neg hcrd]

/-- A beat for which no entry of the tracker or ended request of `k` waits stays with the port. -/
theorem State.placeBeats_one (ob : Nat × WBeat) (htrk : (s.fab.trk.any fun e => e.sub == k) = false) (hghost : s.fab.ghost = []) :
    s.placeBeats k [ob] = s.modPort k fun p => { p with wdat := p.wdat ++ [ob] } := by
  have hnone : ¬ (s.fab.trk.any fun e => e.sub == k && e.ord == ob.1) = true := fun hb => by
    obtain ⟨e, he, hb⟩ := List.any_eq_true.1 hb
    exact List.any_eq_false.1 htrk e he (Bool.and_eq_true_iff.1 hb).1
  rw [State.placeBeats, State.each_cons, State.each_nil]
  exact (if_neg hnone).trans (if_neg (by simp [hghost]))

/-- An inbound beat of a descriptor that is owed it and has not been admitted is kept under its number (R148). -/
theorem exec_inboundDataBeat (htrk : (s.fab.trk.any fun e => e.sub == 36) = false) (hghost : s.fab.ghost = [])
    (d : BitVec 512) {o : Owed} {os : List Owed} (hlive : s.portsLive = true)
    (hmask : s.isMasked 36 = false) (hcrd : s.blp.idataCrd ≠ 0) (howed : s.blp.owed = o :: os) (hdrop : o.drop = false) :
    exec (.inboundDataBeat d) s = .next (((((s.modBlp fun b =>
      { b with owed := if o.left ≤ 1 then os else { o with left := o.left - 1 } :: os }).icqPass 5 0).modBlp fun b =>
        { b with idat := b.idat ++ [(o.ord, d)] })).beatLate o.ord (s.icqSeen 5 0)) := by
  have hfind : (s.fab.trk.find? fun e => e.sub == 36 && e.ord == o.ord) = none := by
    rw [List.any_eq_false] at htrk
    exact List.find?_eq_none.2 fun e he hb => htrk e he (Bool.and_eq_true_iff.1 hb).1
  have hnum : (takeOwed s.blp.owed).2 = some o.ord := by simp [howed, takeOwed, hdrop]
  have hrest : (takeOwed s.blp.owed).1 = if o.left ≤ 1 then os else { o with left := o.left - 1 } :: os := by rw [howed, takeOwed]
  change execInboundDataBeat d s = _
  simp only [execInboundDataBeat, hnum, hrest, hfind]
  rw [if_neg (by simp [hlive, hmask]), if_neg hcrd, if_neg (by simp [hghost])]

/-- In DET_TIMING a beat is noted with the LTC at which it is read; otherwise nothing is (R81). -/
theorem State.beatLate_blp (ord t : Nat) : (s.beatLate ord t).blp = { s.blp with
    late := if t ≤ s.sys.ltc then s.blp.late else (s.blp.late.filter fun x => decide (s.sys.ltc < x.2)) ++ [(ord, t)] } := by
  unfold State.beatLate
  split
  · rfl
  · rfl

theorem State.beatLate_frame (s : State) (ord t : Nat) : Frame [.blp] s (s.beatLate ord t) := by
  unfold State.beatLate
  split
  · exact .refl ..
  · exact s.modBlp_frame _

theorem State.beatLate_ctl (ord t : Nat) : (s.beatLate ord t).ctl = s.ctl := (s.beatLate_frame ord t).2 .ctl (by decide)

/-- Settles O10: the beat is bound by `bindBeats` and then stays with the port, or waits for its descriptor at the BLP. -/
theorem dataBeatTaken : Obligations.DataBeatTaken := by
  unfold Obligations.DataBeatTaken
  intro s ⟨_, hports, _⟩ hlive hghost
  have hkept (k : Nat) (b : WBeat) : Tab.wf Port.reset (s.keepBeat k b).ports = true := s.modPort_wf hports k _
  refine ⟨fun k d be hmask hcrd howed htrk => ?_, fun k d be o os hmask hcrd hearly howed hleft hdrop htrk => ?_,
    fun d o os hmask hcrd howed hdrop htrk => ?_⟩
  · have hbind := State.bindPort_of_bindBeats (s := s.keepBeat k.val (portBeat k.val d be)) (k := k.val) (got := []) (owed := [])
      (by rw [State.port_keepBeat hports, howed]; rfl)
    rw [State.placeBeats_nil] at hbind
    refine ⟨_, exec_writeDataBeat d be hlive hmask hcrd hbind htrk hghost, ?_, fun j hj => ?_, ?_⟩
    · refine (State.port_modPort (hkept ..) ..).trans ?_
      rw [State.port_keepBeat hports, ← howed]
    · exact (State.port_modPort_ne _ _ hj).trans (State.port_keepBeat_ne _ hj)
    · exact (s.modPort_frame ..).trans (State.modPort_frame ..)
  · have hbind := State.bindPort_of_bindBeats (s := s.keepBeat k.val (portBeat k.val d be)) (k := k.val)
      (got := [(o.ord, portBeat k.val d be)]) (owed := { o with left := o.left - 1 } :: os) (rest := []) (by
        have hmin : min o.left 1 = 1 := by omega
        simp [State.port_keepBeat hports, howed, hearly, bindBeats, hdrop, hmin, hleft])
    refine ⟨_, exec_writeDataBeat d be hlive hmask hcrd (hbind.trans (State.placeBeats_one _ htrk hghost)) htrk hghost, ?_, fun j hj => ?_, ?_⟩
    · refine (State.port_modPort (State.modPort_wf (hkept ..) ..) ..).trans ?_
      rw [State.port_modPort (hkept ..), State.port_keepBeat hports, ← hearly]
    · exact (State.port_modPort_ne _ _ hj).trans ((State.port_modPort_ne _ _ hj).trans (State.port_keepBeat_ne _ hj))
    · exact (s.modPort_frame ..).trans ((State.modPort_frame ..).trans (State.modPort_frame ..))
  · refine ⟨_, exec_inboundDataBeat htrk hghost d hlive hmask hcrd howed hdrop, State.beatLate_blp .., ?_, ?_⟩
    · rw [Crossed, State.beatLate_ctl]
      rfl
    · exact ((State.modBlp_frame ..).mono (by decide)).trans (((State.icqPass_frame ..).mono (by decide)).trans
        (((State.modBlp_frame ..).mono (by decide)).trans ((State.beatLate_frame ..).mono (by decide))))

end Sys2Proof.Machine
end

section
/-! ### The checks on a request, and its word (R92, R93, R107) -/

namespace Sys2Proof.Machine

/-! #### The word and its command -/

/-- The 128-bit request word reads back from its TYPE and fields (R92). -/
theorem Request.word_ofWord (w : BitVec 128) : Request.word (Request.typeOf w) (Request.ofWord w) = w := by
  have hdig : BitVec.ofBool (w.getLsbD 17) = w.extractLsb' 17 1 := by
    ext i hi
    obtain rfl : i = 0 := by omega
    simp
  simp only [Request.word, Request.typeOf, Request.ofWord, hdig]
  repeat rw [BitVec.extractLsb'_append_extractLsb'_eq_extractLsb']
  · exact BitVec.extractLsb'_eq_self
  all_goals rfl

/-- A word of the TYPE with number `n` reads back from that number and its fields. -/
theorem requestWord_ofWord {w : BitVec 128} {t : BitVec 4} (h : (Request.typeOf w).toNat = t.toNat) :
    some (Request.word t (Request.ofWord w)) = some w := by
  rw [← BitVec.eq_of_toNat_eq h, Request.word_ofWord]

/-- The tile port of a port number. -/
theorem val_of_tile {k : Fin 36} {p : Fin 32} (h : (if h : k.val < 32 then some (⟨k.val, h⟩ : Fin 32) else none) = some p) :
    p.val = k.val := by
  split at h
  · cases h
    rfl
  · cases h

/-- The TYPEs that a port takes have commands of their own: any other one is unsupported (R93, R103). -/
theorem unsupportedType_of_rest {k : Fin 36} {n : Nat} (h0 : n ≠ 0) (h1 : n ≠ 1) (h2 : n ≠ 2) (h4 : n ≠ 4)
    (ht : ∀ p : Fin 32, (if h : k.val < 32 then some (⟨k.val, h⟩ : Fin 32) else none) = some p → n ≠ 3 ∧ n ≠ 5 ∧ n ≠ 6 ∧ n ≠ 7) :
    unsupportedType k.val n = true := by
  by_cases hk : k.val < 32
  · obtain ⟨h3, h5, h6, h7⟩ := ht _ (dif_pos hk)
    have : 8 ≤ n := by omega
    simp [unsupportedType, this]
  · have : 8 ≤ n ∨ n = 3 ∨ n = 5 ∨ n = 6 ∨ n = 7 := by omega
    rcases this with h | rfl | rfl | rfl | rfl <;> simp_all [unsupportedType, isTile]

/-- The command of a request word carries its TYPE and fields (R92, R93). -/
theorem requestWord_portCommand (k : Fin 36) (w : BitVec 128) : requestWord (portCommand k w) = some w ∧
    portWord (portCommand k w) = some (k.val, (Request.typeOf w).toNat, Request.ofWord w) := by
  unfold portCommand
  dsimp only
  split
  case h_1 h => exact ⟨requestWord_ofWord (t := 0) h, by rw [h]; rfl⟩
  case h_2 h => exact ⟨requestWord_ofWord (t := 1) h, by rw [h]; rfl⟩
  case h_3 h => exact ⟨requestWord_ofWord (t := 2) h, by rw [h]; rfl⟩
  case h_4 h => exact ⟨requestWord_ofWord (t := 4) h, by rw [h]; rfl⟩
  case h_5 h ht => exact ⟨requestWord_ofWord (t := 3) h, by rw [h, ← val_of_tile ht]; rfl⟩
  case h_6 h ht => exact ⟨requestWord_ofWord (t := 5) h, by rw [h, ← val_of_tile ht]; rfl⟩
  case h_7 h ht => exact ⟨requestWord_ofWord (t := 6) h, by rw [h, ← val_of_tile ht]; rfl⟩
  case h_8 h ht => exact ⟨requestWord_ofWord (t := 7) h, by rw [h, ← val_of_tile ht]; rfl⟩
  case h_9 h0 h1 h2 h4 h3 h5 h6 h7 =>
    have hu : unsupportedType k.val (Request.typeOf w).toNat = true := unsupportedType_of_rest h0 h1 h2 h4 fun p hp =>
      ⟨fun e => h3 p e hp, fun e => h5 p e hp, fun e => h6 p e hp, fun e => h7 p e hp⟩
    exact ⟨requestWord_ofWord rfl, if_pos hu⟩

/-! #### The checks in their order -/

variable {s : State} {k : Nat} {q : InReq} {beat : BitVec 1024}

theorem State.checkRequest_reserved (h : reqReserved k q.kind q.req beat = true) : s.checkRequest k q beat = .inl ⟨.badreq, eBadarg⟩ := by
  simp [State.checkRequest, firstDone, h]

theorem State.checkRequest_badop (hr : reqReserved k q.kind q.req beat = false) (h8 : 8 ≤ q.kind) (ht : isTile k = true) :
    s.checkRequest k q beat = .inl ⟨.badreq, eBadop⟩ := by
  simp [State.checkRequest, firstDone, hr, h8, ht]

theorem State.checkRequest_unsupported (hr : reqReserved k q.kind q.req beat = false) (hu : unsupportedType k q.kind = true)
    (ht : isTile k = false) : s.checkRequest k q beat = .inl ⟨.badreq, eNotsup⟩ := by
  simp [State.checkRequest, firstDone, hr, hu, ht]

/-- With good words the shut-down latch answers before the address is looked up (R107). -/
theorem State.checkRequest_latched (hr : reqReserved k q.kind q.req beat = false) (hu : unsupportedType k q.kind = false)
    (hbrew : q.kind = 6 → s.stk.rowClass = true ∨ s.stk.macClass = true) (hf : fieldsBad q.kind q.req = false)
    (hrange : s.rangeBad k q.kind q.req beat = false) (hlatch : s.therm.latch = true) :
    s.checkRequest k q beat = .inl ⟨.thermstop, eOk⟩ := by
  have h8 : ¬ 8 ≤ q.kind := fun h => by simp [unsupportedType, h] at hu
  have hclass : (q.kind == 6 && !s.stk.rowClass && !s.stk.macClass) = false := by
    by_cases h6 : q.kind = 6
    · rcases hbrew h6 with h | h <;> simp [h]
    · simp [h6]
  simp [State.checkRequest, firstDone, hr, hu, h8, hclass, hf, hrange, hlatch]

/-- Settles O12: the word and its command, and the first checks that can fail. -/
theorem requestChecks : Obligations.RequestChecks := by
  unfold Obligations.RequestChecks
  exact fun k s q beat => ⟨requestWord_portCommand k, State.checkRequest_reserved, State.checkRequest_badop,
    State.checkRequest_unsupported, State.checkRequest_latched⟩

end Sys2Proof.Machine
end

section
/-! ### Records that cross to the log, and late answers (R81, R90, R141) -/

namespace Sys2Proof.Machine

variable {s t u : State}

theorem CountedCrossed.trans (h1 : CountedCrossed s t) (h2 : CountedCrossed t u) : CountedCrossed s u :=
  ⟨by rw [h2.1, h1.1], by rw [h2.2, h1.2]⟩

theorem State.count_countedCrossed (s : State) (top : Nat) (e : Ev) (page slot n : Nat) :
    CountedCrossed s (s.count top e page slot n) := ⟨by rw [State.count_ctl], State.count_mbx ..⟩

/-- A record passes its crossing queue, and stands in the log or on the way to it. -/
theorem State.reportBy_countedCrossed (s : State) (q i ps : Nat) (e : Ev) (unit detail : Nat) :
    CountedCrossed s (s.reportBy q i ps e unit detail) := by
  unfold State.reportBy
  dsimp only
  split
  · exact ⟨by rw [State.event_ctl]; rfl, by rw [State.event_mbx]; rfl⟩
  · exact ⟨rfl, rfl⟩

theorem State.setEvt_frame (s : State) (e : Evt) : Frame [.evt] s { s with evt := e } :=
  .of rfl fun p => by cases p <;> simp [Part.same]

theorem State.reportBy_frame (s : State) (q i ps : Nat) (e : Ev) (unit detail : Nat) :
    Frame [.ctl, .evt, .mbx] s (s.reportBy q i ps e unit detail) := by
  unfold State.reportBy
  dsimp only
  split
  · exact ((s.icqPass_frame q i).mono (by decide)).trans ((State.event_frame ..).mono (by decide))
  · exact ((s.icqPass_frame q i).mono (by decide)).trans ((State.setEvt_frame ..).mono (by decide))

theorem State.protoError_countedCrossed (s : State) (k d : Nat) : CountedCrossed s (s.protoError k d) :=
  (s.count_countedCrossed ..).trans (State.reportBy_countedCrossed ..)

theorem State.protoError_frame (s : State) (k d : Nat) : Frame [.ctl, .evt, .mbx] s (s.protoError k d) :=
  (s.count_frame ..).trans (State.reportBy_frame ..)

/-! #### Counts alone -/

theorem Counted.refl (s : State) : Counted s s := ⟨rfl, rfl⟩

theorem Counted.trans (h1 : Counted s t) (h2 : Counted t u) : Counted s u := ⟨by rw [h2.1, h1.1], by rw [h2.2, h1.2]⟩

theorem State.count_counted (s : State) (top : Nat) (e : Ev) (page slot n : Nat) : Counted s (s.count top e page slot n) :=
  ⟨State.count_ctl .., State.count_mbx ..⟩

theorem State.event_counted (s : State) (e : Ev) (u d : Nat) : Counted s (s.event e u d) :=
  ⟨by rw [State.event_ctl], State.event_mbx ..⟩

theorem State.countLate_counted (s : State) (e : Entry) : Counted s (s.countLate e) := by
  unfold State.countLate
  split
  · exact s.count_counted ..
  · exact .refl s

theorem State.countLate_frame (s : State) (e : Entry) : Frame [.ctl, .evt, .mbx] s (s.countLate e) := by
  unfold State.countLate
  split
  · exact s.count_frame ..
  · exact .refl ..

@[simp] theorem State.countLate_fab (s : State) (e : Entry) : (s.countLate e).fab = s.fab := (s.countLate_frame e).2 .fab (by decide)

theorem State.lateOnce_counted (s : State) (id : Nat) : Counted s (s.lateOnce id) := by
  unfold State.lateOnce
  split
  · exact .refl s
  · next e _ =>
    split
    · exact .refl s
    · exact (s.countLate_counted e).trans ⟨rfl, rfl⟩

theorem State.lateOnce_frame (s : State) (id : Nat) : Frame [.ctl, .evt, .mbx, .fab] s (s.lateOnce id) := by
  unfold State.lateOnce
  split
  · exact .refl ..
  · next e _ =>
    split
    · exact .refl ..
    · exact ((s.countLate_frame e).mono (by decide)).trans ((State.modFab_frame ..).mono (by decide))

/-- An answered entry that has not been counted is marked as counted (R141). -/
theorem State.lateOnce_fab {id : Nat} {e : Entry} (he : s.fab.entry id = some e) (hc : e.counted = false)
    (hd : e.headerAnswer.isSome = true) : (s.lateOnce id).fab = s.fab.modEntry id fun x => { x with counted := true } := by
  have hopen : (e.counted || e.headerAnswer.isNone) = false := by simpa [hc, Option.isSome_iff_ne_none] using hd
  simp [State.lateOnce, he, hopen, State.modEntry]

/-! #### The newest entry of the tracker -/

/-- An entry put last in the tracker, whose number no other bears, is the one of that number. -/
theorem Fab.entry_append {f : Fab} {e : Entry} (h : f.entry e.id = none) : Fab.entry { f with trk := f.trk ++ [e] } e.id = some e := by
  rw [Fab.entry] at h
  simp [Fab.entry, List.find?_append, h]

/-- A change of an entry put last in the tracker, whose number no other bears, changes it alone. -/
theorem Fab.modEntry_append {f : Fab} {e : Entry} (h : f.entry e.id = none) (g : Entry → Entry) :
    Fab.modEntry { f with trk := f.trk ++ [e] } e.id g = { f with trk := f.trk ++ [g e] } := by
  have hmap : (f.trk.map fun x => if x.id = e.id then g x else x) = f.trk := by
    refine (List.map_congr_left fun x hx => if_neg fun hid => ?_).trans (List.map_id _)
    exact absurd (List.find?_eq_none.1 h x hx) (by simp [hid])
  simp [Fab.modEntry, hmap]

end Sys2Proof.Machine
end

section
/-! ### REQUEST_ADMIT (R88, R101, R107, R261, R263, R469) -/

namespace Sys2Proof.Machine

variable {s : State} {k : Nat} {q : InReq} {rest : List InReq}

/-! #### The word leaves its queue (R88) -/

theorem State.popReq_frame (s : State) (k : Nat) : Frame [.ports] s (s.popReq k) := s.modPort_frame k _

theorem State.port_popReq (h : Tab.wf Port.reset s.ports = true) (hq : (s.port k).inq = q :: rest) :
    (s.popReq k).port k = { s.port k with inq := rest, reqCrd := (s.port k).reqCrd + 1 } := by
  rw [State.popReq, State.port_modPort h, hq]
  rfl

theorem State.port_popReq_ne {j : Nat} (hj : j ≠ k) : (s.popReq k).port j = s.port j := State.port_modPort_ne _ _ hj

theorem State.popReq_wf (h : Tab.wf Port.reset s.ports = true) (k : Nat) : Tab.wf Port.reset (s.popReq k).ports = true :=
  s.modPort_wf h k _

/-! #### What the head of a queue comes to -/

section
variable {k : Fin 36} (hlive : s.portsLive = true) (hmask : s.isMasked k.val = false) (hheld : s.admHeld k.val = false)
  (hq : (s.port k.val).inq = q :: rest)
include hlive hmask hheld hq

/-- A repeated TAG is a protocol error with DETAIL 2 (R101). -/
theorem exec_requestAdmit_dup (hdup : q.dup = true) : exec (.requestAdmit k) s = .next ((s.popReq k.val).protoError k.val 2) := by
  change execRequestAdmit k s = _
  simp only [execRequestAdmit, hq]
  rw [if_neg (by simp [hlive, hmask, hheld]), if_pos hdup]

section
variable {shared : Bool} (hdup : q.dup = false) (hslot : s.fab.freeSlot k.val = some shared)
  (hdesc : (s.port k.val).descHere q = true) (hgather : ¬ (q.kind = 5 ∧ isTile k.val = true ∧ 32 ≤ s.fab.fq.length))
  (hlaunch : ¬ (q.kind = 6 ∧ isTile k.val = true ∧ 64 ≤ s.fab.launches.length))
include hdup hslot hdesc hgather hlaunch

/-- A word that a check of R107 rejects. -/
theorem exec_requestAdmit_reject {d : Done}
    (hcheck : s.checkRequest k.val q (((s.port k.val).beatsOf q.ord).headD ⟨0, 0⟩).data = .inl d) :
    exec (.requestAdmit k) s = .next ((s.popReq k.val).rejectReq k.val q d shared) := by
  change execRequestAdmit k s = _
  simp only [execRequestAdmit, hq, hslot, hcheck]
  rw [if_neg (by simp [hlive, hmask, hheld]), if_neg (by simp [hdup]), if_neg (by simp_all)]

/-- A word that passes them and does not wait for the data of a compressed write. -/
theorem exec_requestAdmit_accept {reg : Option Nat} {accs : List Acc} (hwr : q.kind ≠ 1)
    (hcheck : s.checkRequest k.val q (((s.port k.val).beatsOf q.ord).headD ⟨0, 0⟩).data = .inr (reg, accs)) :
    exec (.requestAdmit k) s = .next ((s.popReq k.val).acceptEntry k.val q reg accs shared) := by
  change execRequestAdmit k s = _
  simp only [execRequestAdmit, hq, hslot, hcheck]
  rw [if_neg (by simp [hlive, hmask, hheld]), if_neg (by simp [hdup]), if_neg (by simp_all), if_neg (by simp [hwr])]

end
end

/-! #### A rejected word takes an entry with its answer (log 13) -/

/-- The entry of a rejected word. -/
def State.rejected (s : State) (k : Nat) (q : InReq) (d : Done) (shared : Bool) : Entry :=
  { Entry.reset with
    id := s.fab.nextId, ord := q.ord, sub := k, msub := k, kind := kindOf q.kind, req := q.req, arrival := q.arrival
    shared := shared, fin := some d }

/-- The state with that entry last in the tracker, and the word's write data dropped. -/
def State.withRejected (s : State) (k : Nat) (q : InReq) (d : Done) (shared : Bool) : State :=
  (s.addEntry (s.rejected k q d shared)).modPort k fun p =>
    { p with owed := p.owed.map fun o => if o.ord = q.ord then { o with drop := true } else o
             wdat := p.wdat.filter fun ob => ob.1 != q.ord }

/-- It is counted in time or late at once (R141). -/
theorem State.rejectReq_eq (s : State) (k : Nat) (q : InReq) (d : Done) (shared : Bool) :
    s.rejectReq k q d shared = (s.withRejected k q d shared).lateOnce s.fab.nextId := rfl

theorem State.rejectReq_fab (hnew : s.fab.entry s.fab.nextId = none) (d : Done) (shared : Bool) :
    (s.rejectReq k q d shared).fab = { s.fab with
      trk := s.fab.trk ++ [{ s.rejected k q d shared with counted := true }], nextId := s.fab.nextId + 1 } := by
  rw [State.rejectReq_eq, State.lateOnce_fab (e := s.rejected k q d shared) (Fab.entry_append (e := s.rejected k q d shared) hnew) rfl rfl]
  exact congrArg (fun f : Fab => { f with nextId := s.fab.nextId + 1 }) (Fab.modEntry_append (e := s.rejected k q d shared) hnew _)

theorem State.rejectReq_counted (s : State) (k : Nat) (q : InReq) (d : Done) (shared : Bool) :
    Counted s (s.rejectReq k q d shared) := (s.withRejected k q d shared).lateOnce_counted _

theorem State.rejectReq_frame (s : State) (k : Nat) (q : InReq) (d : Done) (shared : Bool) :
    Frame [.ports, .fab, .ctl, .evt, .mbx] s (s.rejectReq k q d shared) :=
  ((s.modFab_frame _).mono (by decide)).trans (((State.modPort_frame ..).mono (by decide)).trans
    ((State.lateOnce_frame ..).mono (by decide)))

theorem State.port_rejectReq (s : State) (k : Nat) (q : InReq) (d : Done) (shared : Bool) (j : Nat) :
    (s.rejectReq k q d shared).port j = (s.withRejected k q d shared).port j :=
  State.port_congr ((State.lateOnce_frame ..).2 .ports (by decide)) j

/-- The queue and the credits of the port are not touched. -/
theorem State.port_withRejected (h : Tab.wf Port.reset s.ports = true) (d : Done) (shared : Bool) :
    ((s.withRejected k q d shared).port k).inq = (s.port k).inq ∧
      ((s.withRejected k q d shared).port k).reqCrd = (s.port k).reqCrd := by
  have hport : (s.withRejected k q d shared).port k = _ := State.port_modPort (s := s.addEntry _) h k _
  exact ⟨by rw [hport]; rfl, by rw [hport]; rfl⟩

theorem State.port_withRejected_ne {j : Nat} (hj : j ≠ k) (d : Done) (shared : Bool) :
    (s.withRejected k q d shared).port j = s.port j := State.port_modPort_ne (s.addEntry _) _ hj

/-! #### An accepted word -/

/-- A loop whose turns do nothing does nothing. -/
theorem State.each_fixed {α : Type} {f : State → α → State} {l : List α} (h : ∀ a, f s a = s) : s.each l f = s := by
  induction l with
  | nil => rfl
  | cons a l ih => rw [State.each_cons, h, ih]

/-- The stale bits that admission reads are all that it writes into an access (R469). -/
theorem State.mem_markStale {r : BitVec 256} {accs : List Acc} {a : Acc} (h : a ∈ s.markStale r accs) :
    ∃ b ∈ accs, ∃ v, a = { b with stale := v } := by
  unfold State.markStale at h
  split at h
  · obtain ⟨b, hb, rfl⟩ := List.mem_map.1 h
    exact ⟨b, hb, _, rfl⟩
  · exact ⟨a, h, _, rfl⟩

/-- Where no word of the stale bitmap is upset, reading it changes nothing (R699). -/
theorem State.readStale_of_sound (h : s.fab.staleBad = []) (r : BitVec 256) (accs : List Acc) : s.readStale r accs = s := by
  unfold State.readStale
  split
  · rfl
  · exact State.each_fixed fun a => by simp [State.readBit, h]

/-- The entry of an accepted word, with the accesses as admission finds them. -/
def State.accepted (s : State) (k : Nat) (q : InReq) (reg : Option Nat) (accs : List Acc) (shared : Bool) : Entry :=
  let r := regionAt s.cfg.regions (reg.getD 0)
  { Entry.reset with
    id := s.fab.nextId, ord := q.ord, sub := k, msub := k, kind := kindOf q.kind, req := q.req, arrival := q.arrival, shared := shared
    rent := r, rix := reg.getD 0, pent := pairEntry s.cfg.regions r, accs := s.markStale r accs
    wdat := (s.port k).beatsOf q.ord, sat := bit (Tab.get 0 s.cfg.xfu k) 0, tab := if q.kind = 5 then s.cfg.regions else [] }

/-- The state with that entry last in the tracker. -/
def State.withAccepted (s : State) (k : Nat) (q : InReq) (reg : Option Nat) (accs : List Acc) (shared : Bool) : State :=
  (s.addEntry (s.accepted k q reg accs shared)).modPort k fun p => { p with wdat := p.wdat.filter fun ob => ob.1 != q.ord }

theorem State.withAccepted_frame (s : State) (k : Nat) (q : InReq) (reg : Option Nat) (accs : List Acc) (shared : Bool) :
    Frame [.ports, .fab] s (s.withAccepted k q reg accs shared) :=
  ((s.modFab_frame _).mono (by decide)).trans ((State.modPort_frame ..).mono (by decide))

theorem State.withAccepted_fab (s : State) (k : Nat) (q : InReq) (reg : Option Nat) (accs : List Acc) (shared : Bool) :
    (s.withAccepted k q reg accs shared).fab =
      { s.fab with trk := s.fab.trk ++ [s.accepted k q reg accs shared], nextId := s.fab.nextId + 1 } := rfl

theorem State.port_withAccepted (h : Tab.wf Port.reset s.ports = true) (reg : Option Nat) (accs : List Acc) (shared : Bool) :
    ((s.withAccepted k q reg accs shared).port k).inq = (s.port k).inq ∧
      ((s.withAccepted k q reg accs shared).port k).reqCrd = (s.port k).reqCrd := by
  have hport : (s.withAccepted k q reg accs shared).port k = _ := State.port_modPort (s := s.addEntry _) h k _
  exact ⟨by rw [hport]; rfl, by rw [hport]; rfl⟩

theorem State.port_withAccepted_ne {j : Nat} (hj : j ≠ k) (reg : Option Nat) (accs : List Acc) (shared : Bool) :
    (s.withAccepted k q reg accs shared).port j = s.port j := State.port_modPort_ne (s.addEntry _) _ hj

section
variable (hsound : s.fab.staleBad = []) (reg : Option Nat) (accs : List Acc) (shared : Bool)
include hsound

/-- A FENCE waits in the tracker. -/
theorem State.acceptEntry_fence (hk : q.kind = 4) : s.acceptEntry k q reg accs shared = s.withAccepted k q reg accs shared := by
  simp only [State.acceptEntry, State.readStale_of_sound hsound, hk]
  simp [State.withAccepted, State.accepted, hk]

/-- A GATHER joins the queue of the gather engines as well. -/
theorem State.acceptEntry_gather (hk : q.kind = 5) : s.acceptEntry k q reg accs shared =
    (s.withAccepted k q reg accs shared).modFab fun f => { f with fq := f.fq ++ [s.fab.nextId] } := by
  simp only [State.acceptEntry, State.readStale_of_sound hsound, hk]
  simp [State.withAccepted, State.accepted, hk]

/-- A read of data planes alone joins its meter queue. -/
theorem State.acceptEntry_read (hk : q.kind = 0) (hnew : s.fab.entry s.fab.nextId = none) (hdata : ∀ a ∈ accs, a.scale = false) :
    s.acceptEntry k q reg accs shared =
      (s.withAccepted k q reg accs shared).enterMeter (s.accepted k q reg accs shared) q.req.service.toNat := by
  have hplane : ((s.markStale (regionAt s.cfg.regions (reg.getD 0)) accs).filter (·.scale)) = [] :=
    List.filter_eq_nil_iff.2 fun a ha => by
      obtain ⟨b, hb, v, rfl⟩ := State.mem_markStale ha
      simp [hdata b hb]
  have hentry : (s.withAccepted k q reg accs shared).fab.entry s.fab.nextId = some (s.accepted k q reg accs shared) :=
    Fab.entry_append (e := s.accepted k q reg accs shared) hnew
  obtain ⟨kind, req, arrival, ord, dup⟩ := q
  obtain rfl : kind = 0 := hk
  simp only [State.acceptEntry, State.readStale_of_sound hsound, State.scaleLookup, hplane, State.each_nil]
  change (match (s.withAccepted k ⟨0, req, arrival, ord, dup⟩ reg accs shared).fab.entry s.fab.nextId with
    | some e' => _ | none => _) = _
  rw [hentry]
  rfl

end

/-! #### Its place in the meter queue (R261, R263) -/

/-- A piece is never dropped again. -/
theorem addPiece_ne_nil (base : Piece) (l : List Piece) (a : Acc) : addPiece base l a ≠ [] := by
  unfold addPiece
  split
  · next h =>
    intro hnil
    rw [List.map_eq_nil_iff.1 hnil] at h
    cases h
  · simp

/-- Accesses make pieces. -/
theorem foldl_addPiece_ne_nil (base : Piece) {l : List Acc} (h : l ≠ []) : l.foldl (addPiece base) [] ≠ [] := by
  obtain ⟨b, a, rfl⟩ := (List.eq_nil_or_concat l).resolve_left h
  rw [List.concat_eq_append, List.foldl_append]
  exact addPiece_ne_nil base _ a

/-- A read with open accesses, all on data planes, joins its meter queue with a charge of 64 B for each. -/
theorem State.enterMeter_read {e : Entry} (hkind : e.kind = .rd) (hne : e.accs ≠ []) (hopen : ∀ a ∈ e.accs, a.scale = false ∧ a.st = none)
    (svc : Nat) : ∃ h : Shaped, s.enterMeter e svc = (s.modFab fun f => { f with mq := f.mq ++ [h] }) ∧
      h.eid = e.id ∧ h.sub = e.msub ∧ h.svc = svc ∧ h.charge = 64 * e.accs.length := by
  have hnone : (e.accs.filter fun a => a.st.isNone) = e.accs := List.filter_eq_self.2 fun a ha => by simp [hopen a ha]
  have hdata : (e.accs.filter fun a => !a.scale) = e.accs := List.filter_eq_self.2 fun a ha => by simp [hopen a ha]
  have hpieces : cutPieces (e.basePiece svc) e.accs ≠ [] := by
    have hread : (e.basePiece svc).write = .read := by rw [Entry.basePiece, hkind]; rfl
    simp only [cutPieces, hread, hnone, hdata]
    exact List.append_ne_nil_of_left_ne_nil (foldl_addPiece_ne_nil _ hne) _
  have henter : s.enterMeter e svc = _ := if_neg (by simpa using hpieces)
  exact ⟨_, henter, rfl, rfl, rfl, by simp only [chargeOf, hnone, hdata]⟩

/-- The accesses of an accepted word are those that admission found, with their stale bits. -/
theorem State.accs_accepted {accs : List Acc} (reg : Option Nat) (shared : Bool) (hne : accs ≠ [])
    (hopen : ∀ a ∈ accs, a.scale = false ∧ a.st = none) :
    (s.accepted k q reg accs shared).accs.length = accs.length ∧ (s.accepted k q reg accs shared).accs ≠ [] ∧
      ∀ a ∈ (s.accepted k q reg accs shared).accs, a.scale = false ∧ a.st = none := by
  have hlen (r : BitVec 256) : (s.markStale r accs).length = accs.length := by
    unfold State.markStale
    split <;> simp
  refine ⟨hlen _, fun h => hne ?_, fun a ha => ?_⟩
  · exact List.length_eq_zero_iff.1 ((hlen _).symm.trans (congrArg List.length h))
  · obtain ⟨b, hb, v, rfl⟩ := State.mem_markStale ha
    exact hopen b hb

/-- Settles O11: the head of the queue is discarded, rejected or accepted by the branches of admission. -/
theorem requestAdmitted : Obligations.RequestAdmitted := by
  unfold Obligations.RequestAdmitted
  intro k s q rest ⟨_, hports, _⟩ hlive hmask hheld hq hnew hsound
  have hpop := State.popReq_frame s k.val
  have hport := State.port_popReq hports hq
  have hwf := State.popReq_wf hports k.val
  refine ⟨fun hdup => ?_, fun shared hdup hslot hdesc hgather hlaunch => ⟨fun d hcheck => ?_, fun reg accs hkind hcheck => ?_,
    fun reg accs hkind hne hopen hcheck => ?_⟩⟩
  · have herr := (s.popReq k.val).protoError_frame k.val 2
    have hpp : ((s.popReq k.val).protoError k.val 2).ports = _ := herr.2 .ports (by decide)
    refine ⟨_, exec_requestAdmit_dup hlive hmask hheld hq hdup, ?_, fun j hj => ?_, State.protoError_countedCrossed .., ?_⟩
    · rw [State.port, hpp]
      exact hport
    · rw [State.port, hpp]
      exact State.port_popReq_ne hj
    · exact (hpop.mono (by decide)).trans (herr.mono (by decide))
  · obtain ⟨hinq, hcrd⟩ := State.port_withRejected (q := q) hwf d shared
    refine ⟨_, exec_requestAdmit_reject hlive hmask hheld hq hdup hslot hdesc hgather hlaunch hcheck, State.rejectReq_fab (s := s.popReq k.val) hnew d shared,
      ?_, ?_, fun j hj => ?_, State.rejectReq_counted .., (hpop.mono (by decide)).trans (State.rejectReq_frame ..)⟩
    · rw [State.port_rejectReq, hinq, hport]
    · rw [State.port_rejectReq, hcrd, hport]
    · rw [State.port_rejectReq, State.port_withRejected_ne hj, State.port_popReq_ne hj]
  · have hexec := exec_requestAdmit_accept hlive hmask hheld hq hdup hslot hdesc hgather hlaunch (by omega) hcheck
    obtain ⟨hinq, hcrd⟩ := State.port_withAccepted (q := q) hwf reg accs shared
    have hothers (j : Nat) (hj : j ≠ k.val) : ((s.popReq k.val).withAccepted k.val q reg accs shared).port j = s.port j := by
      rw [State.port_withAccepted_ne hj, State.port_popReq_ne hj]
    have hframe := (hpop.mono (by decide)).trans ((s.popReq k.val).withAccepted_frame k.val q reg accs shared)
    rw [hport] at hinq hcrd
    rcases hkind with h4 | h5
    · rw [State.acceptEntry_fence (s := s.popReq k.val) hsound _ _ _ h4] at hexec
      exact ⟨_, _, hexec, rfl, rfl, rfl, rfl, rfl, rfl, rfl, (if_neg (by omega)).symm, rfl, hinq, hcrd, hothers, hframe⟩
    · rw [State.acceptEntry_gather (s := s.popReq k.val) hsound _ _ _ h5] at hexec
      exact ⟨_, _, hexec, rfl, rfl, rfl, rfl, rfl, rfl, rfl, (if_pos h5).symm, rfl, hinq, hcrd, hothers,
        hframe.trans ((State.modFab_frame ..).mono (by decide))⟩
  · have hexec := exec_requestAdmit_accept hlive hmask hheld hq hdup hslot hdesc hgather hlaunch (by omega) hcheck
    obtain ⟨hinq, -⟩ := State.port_withAccepted (q := q) hwf reg accs shared
    obtain ⟨hlen, hne', hopen'⟩ := State.accs_accepted (s := s.popReq k.val) (k := k.val) (q := q) reg shared hne hopen
    obtain ⟨h, henter, heid, hsub, hsvc, hcharge⟩ := State.enterMeter_read (s := (s.popReq k.val).withAccepted k.val q reg accs shared)
      (e := (s.popReq k.val).accepted k.val q reg accs shared) (congrArg kindOf hkind) hne' hopen' q.req.service.toNat
    rw [State.acceptEntry_read (s := s.popReq k.val) hsound _ _ _ hkind hnew fun a ha => (hopen a ha).1, henter] at hexec
    rw [hport] at hinq
    rw [hlen] at hcharge
    refine ⟨_, _, h, hexec, rfl, rfl, rfl, congrArg kindOf hkind, rfl, rfl, rfl, heid, hsub, hsvc, hcharge, rfl, hinq, fun j hj => ?_, ?_⟩
    · exact (State.port_withAccepted_ne hj ..).trans (State.port_popReq_ne hj)
    · exact (hpop.mono (by decide)).trans (((s.popReq k.val).withAccepted_frame ..).trans ((State.modFab_frame ..).mono (by decide)))

end Sys2Proof.Machine
end

section
/-! ### One LTC tick (R31, R32, R37, R81) -/

namespace Sys2Proof.Machine

variable {s t u : State}

/-! #### The views follow the counter (R37) -/

/-- A view lags by 1 to 3 ticks. -/
theorem State.nextLag_bounds (s : State) (i old : Nat) (held : Bool) : 1 ≤ s.nextLag i old held ∧ s.nextLag i old held ≤ 3 := by
  unfold State.nextLag
  dsimp only
  repeat' split
  all_goals omega

/-- Outside DET_TIMING a view advances by one tick, by two, or holds its value, which it does not at two ticks running. -/
theorem State.nextLag_step (hmode : s.det.mode ≠ .timing) {old : Nat} (h1 : 1 ≤ old) (h3 : old ≤ 3) (i : Nat) (held : Bool) :
    s.nextLag i old held ≤ old + 1 ∧ old ≤ s.nextLag i old held + 1 ∧ (held = true → s.nextLag i old held ≤ old) := by
  have ho : max 1 (min 3 old) = old := by omega
  unfold State.nextLag
  rw [ho]
  cases held with
  | true =>
    simp only [if_true]
    repeat' split
    all_goals first | contradiction | exact ⟨by omega, by omega, fun _ => by omega⟩
  | false =>
    simp only [Bool.false_eq_true, if_false]
    repeat' split
    all_goals first | contradiction | exact ⟨by omega, by omega, nofun⟩

/-- A loop that changes each of the first `n` numbers of a table changes each of them once. -/
theorem Tab.get_foldl_upd {α : Type} [DecidableEq α] {d : α} (f : Nat → α → α) {t : Tab α} (h : Tab.wf d t = true) (n k : Nat) :
    Tab.get d ((List.range n).foldl (fun t i => Tab.upd d t i (f i)) t) k =
      if k < n then f k (Tab.get d t k) else Tab.get d t k := by
  induction n with
  | zero => rfl
  | succ n ih =>
    rw [List.range_succ, List.foldl_append, List.foldl_cons, List.foldl_nil]
    by_cases hk : k = n
    · subst hk
      have hwf := Tab.foldl_wf (g := fun t i => Tab.upd d t i (f i)) (fun t i ht => Tab.upd_wf ht) (List.range k) h
      rw [Tab.upd, Tab.get_set_self _ hwf, ih]
      simp
    · have hlt : k < n + 1 ↔ k < n := by omega
      rw [Tab.upd, Tab.get_set_ne _ hk, ih]
      simp [hlt]

/-- The view of island `p` after a tick (R37). -/
def State.lagTick (s : State) (p : Nat) (x : Slice) : Slice :=
  { x with lag := s.nextLag p x.lag x.lagHeld, lagHeld := decide (x.lag < s.nextLag p x.lag x.lagHeld) }

theorem State.countTick_slices (s : State) : s.countTick.slices =
    (List.range 144).foldl (fun t p => Tab.upd Slice.reset t p (s.lagTick p)) s.slices := by
  simp only [State.countTick, State.modSys_slices]
  congr 1

/-- The lag of an island after the count. -/
theorem State.lag_countTick (h : Tab.wf Slice.reset s.slices = true) {p : Nat} (hp : p < 144) :
    (s.countTick.slice p).lag = s.nextLag p (s.slice p).lag (s.slice p).lagHeld := by
  rw [State.slice, State.countTick_slices, Tab.get_foldl_upd _ h, if_pos hp]
  rfl

theorem State.countTick_wf (h : Tab.wf Slice.reset s.slices = true) : Tab.wf Slice.reset s.countTick.slices = true := by
  rw [State.countTick_slices]
  exact Tab.foldl_wf (fun t p ht => Tab.upd_wf ht) _ h

theorem State.countTick_frame (s : State) : Frame [.sys, .slices] s s.countTick :=
  .of rfl fun p => by cases p <;> simp [Part.same, State.countTick]

/-! #### What else a tick does: words and records that have crossed are read (R81) -/

/-- Between `s` and `t` what crossed was read or counted: no lag has changed, and of the mailbox the causes alone. -/
structure State.TickReads (s t : State) : Prop where
  frame : Frame [.slices, .det, .ctl, .evt, .mbx, .fab] s t
  mbx : t.mbx = { s.mbx with irq := t.mbx.irq }
  slices : Tab.wf Slice.reset s.slices = true → Tab.wf Slice.reset t.slices = true ∧ ∀ p, (t.slice p).lag = (s.slice p).lag

namespace State.TickReads

theorem refl (s : State) : TickReads s s := ⟨.refl .., rfl, fun h => ⟨h, fun _ => rfl⟩⟩

theorem trans (h1 : TickReads s t) (h2 : TickReads t u) : TickReads s u where
  frame := h1.frame.trans h2.frame
  mbx := by rw [h2.mbx, h1.mbx]
  slices h := by
    obtain ⟨ht, h1s⟩ := h1.slices h
    obtain ⟨hu, h2s⟩ := h2.slices ht
    exact ⟨hu, fun p => (h2s p).trans (h1s p)⟩

theorem ite {c : Prop} [Decidable c] (h1 : TickReads s t) (h2 : TickReads s u) : TickReads s (if c then t else u) := by
  split
  · exact h1
  · exact h2

theorem each {α : Type} {f : State → α → State} (h : ∀ s a, TickReads s (f s a)) (l : List α) (s : State) : TickReads s (s.each l f) :=
  State.each_induct (P := TickReads s) (fun t a ht => ht.trans (h t a)) l (refl s)

/-- A step that leaves the islands and the mailbox alone. -/
theorem of_frame {ps : List Part} (h : Frame ps s t) (hps : ∀ p ∈ ps, p ∈ [Part.det, .ctl, .evt, .fab]) : TickReads s t where
  frame := h.mono fun p hp => by
    have := hps p hp
    simp at this ⊢
    tauto
  mbx := by rw [h.2 .mbx fun hm => by simpa using hps _ hm]
  slices hs := by
    have hsl : t.slices = s.slices := h.2 .slices fun hm => by simpa using hps _ hm
    exact ⟨hsl ▸ hs, fun p => by rw [State.slice_congr hsl]⟩

theorem modSlice (s : State) (p : Nat) {f : Slice → Slice} (hf : ∀ x, (f x).lag = x.lag) : TickReads s (s.modSlice p f) where
  frame := (s.modSlice_frame p f).mono (by decide)
  mbx := rfl
  slices h := by
    refine ⟨Tab.set_wf h, fun j => ?_⟩
    by_cases hj : j = p
    · subst hj
      rw [State.slice_modSlice h, hf]
    · rw [State.slice_modSlice_ne _ _ hj]

theorem event (s : State) (e : Ev) (u d : Nat) : TickReads s (s.event e u d) where
  frame := (s.event_frame e u d).mono (by decide)
  mbx := State.event_mbx ..
  slices h := by simpa [State.slice] using h

theorem count (s : State) (top : Nat) (e : Ev) (page slot n : Nat) : TickReads s (s.count top e page slot n) where
  frame := (s.count_frame top e page slot n).mono (by decide)
  mbx := State.count_mbx ..
  slices h := by simpa [State.slice] using h

theorem modFab (s : State) (f : Fab → Fab) : TickReads s (s.modFab f) := of_frame (s.modFab_frame f) (by decide)
theorem modCtl (s : State) (f : Ctl → Ctl) : TickReads s (s.modCtl f) := of_frame (s.modCtl_frame f) (by decide)
theorem modDet (s : State) (f : Det → Det) : TickReads s (s.modDet f) := of_frame (s.modDet_frame f) (by decide)
theorem modIcq (s : State) (q i : Nat) (f : Icq → Icq) : TickReads s (s.modIcq q i f) := of_frame (s.modIcq_frame q i f) (by decide)
theorem modBrew (s : State) (p : Nat) (f : BrewSeq → BrewSeq) : TickReads s (s.modBrew p f) := modSlice s p fun _ => rfl
theorem modSch (s : State) (p : Nat) (f : Sched → Sched) : TickReads s (s.modSch p f) := modSlice s p fun _ => rfl
theorem modBt (s : State) (p : Nat) (f : BankSet → BankSet) : TickReads s (s.modBt p f) := modSlice s p fun _ => rfl

/-! #### Control words (R15, R81) -/

theorem noteWord (s : State) (w : CtlWord) : TickReads s (s.noteWord w) := by
  cases w with
  | hold p | free p =>
    dsimp only [State.noteWord]
    exact modSch ..
  | admHold c | admFree c | commit l c | stopped l c =>
    dsimp only [State.noteWord]
    exact modFab ..
  | stop l c => exact refl s

theorem tell (s : State) (q i : Nat) (w : CtlWord) : TickReads s (s.tell q i w) :=
  (modIcq ..).trans (ite (noteWord ..) (modCtl ..))

theorem icqRelease (s : State) (q i n : Nat) : TickReads s (s.icqRelease q i n) :=
  (modIcq ..).trans (ite (refl _) (modIcq ..))

theorem dropOps (s : State) (p l : Nat) : TickReads s (s.dropOps p l) := (modBrew ..).trans ((modBrew ..).trans (icqRelease ..))

theorem setLoan (s : State) (p : Nat) (v : Bool) : TickReads s (s.setLoan p v) := each (fun s _ => modBt s p _) _ s

theorem brewLeave (s : State) (p : Nat) : TickReads s (s.brewLeave p) := by
  unfold State.brewLeave
  refine (setLoan s p false).trans (.trans ?_ (modBrew ..))
  split
  · exact dropOps ..
  · exact refl _

theorem brewStopped (s : State) (p : Nat) : TickReads s (s.brewStopped p) := by
  unfold State.brewStopped
  split
  · exact (tell ..).trans (brewLeave ..)
  · exact brewLeave ..

theorem stopOn (s : State) (p l c : Nat) : TickReads s (s.stopOn p l c) :=
  ite (ite (brewStopped ..) (modBrew ..)) (ite (refl s) ((dropOps ..).trans (tell ..)))

theorem takeWord (s : State) (i : Nat) (w : CtlWord) : TickReads s (s.takeWord i w) := by
  cases w with
  | stop l c => exact stopOn ..
  | hold p => exact noteWord s (.hold p)
  | free p => exact noteWord s (.free p)
  | admHold c => exact noteWord s (.admHold c)
  | admFree c => exact noteWord s (.admFree c)
  | commit l c => exact noteWord s (.commit l c)
  | stopped l c => exact noteWord s (.stopped l c)

theorem readWords (s : State) : TickReads s s.readWords := (modCtl ..).trans (each (fun s _ => takeWord s _ _) _ _)

/-! #### Records -/

theorem setEvt (s : State) (e : Evt) : TickReads s { s with evt := e } := of_frame (s.setEvt_frame e) (by decide)

theorem readReports (s : State) : TickReads s s.readReports := (setEvt ..).trans (each (fun s _ => event s _ _ _) _ _)

theorem reportDrops (s : State) : TickReads s s.reportDrops := ite ((setEvt ..).trans (event ..)) (refl s)

theorem levelTick (s : State) (seen : Nat) : TickReads s (s.levelTick seen) :=
  ite ⟨(s.modMbx_frame _).mono (by decide), rfl, fun h => ⟨h, fun _ => rfl⟩⟩ (refl s)

theorem countHolds (s : State) : TickReads s s.countHolds := each (fun s p => count s _ _ p 8 1) _ s

/-- All that a tick does between the count and Preid. -/
theorem tick (s : State) (seen : Nat) :
    TickReads s (((s.levelTick seen).sampleAlign.countEnforce.countHolds.readReports.readWords).reportDrops) :=
  (levelTick ..).trans ((ite (modDet ..) (refl _)).trans ((ite (count ..) (refl _)).trans
    ((countHolds _).trans ((readReports _).trans ((readWords _).trans (reportDrops _))))))

end State.TickReads

/-! #### Preid between doorbells -/

/-- With no command to start or to go on with, no change and no gang, Preid does nothing. -/
theorem State.preid_idle (hstarts : s.mbx.starts = none) (hrun : s.mbx.run = none) (hpend : s.mbx.pending = []) (hmc : s.mc = none)
    (hgang : s.ring.gang = none) : s.preid = s := by
  have h1 : s.startHeld = s := by simp [State.startHeld, hstarts]
  have h2 : s.memWork = s := by simp [State.memWork, hrun]
  have h3 : s.pendingRate = s := by simp [State.pendingRate, hpend]
  have h4 : s.ackTime = s := by simp [State.ackTime, hmc]
  have h5 : s.gangGo = s := by simp [State.gangGo, hmc]
  have h6 : s.gangAck = s := by simp [State.gangAck, hmc]
  have h7 : s.heldPrepare = s := by simp [State.heldPrepare, hgang]
  simp [State.preid, h1, h2, h3, h4, h5, h6, h7]

/-- Settles O3: the counter and the views move, what crossed is read, and an idle Preid does nothing. -/
theorem idleStepTicks : Obligations.IdleStepTicks := by
  unfold Obligations.IdleStepTicks
  intro s hq
  have hstep : step s = .next s.ltcTick := by rw [step, hq]
  refine ⟨fun hpor => ?_, fun hpor ⟨_, _, hslices, _⟩ hstarts hrun hpend hmc hgang => ?_⟩
  · rw [hstep, State.ltcTick, if_neg (by simp [hpor])]
  · have htick := State.TickReads.tick s.countTick s.logSeen
    have hcount := s.countTick_frame
    obtain ⟨-, hlag⟩ := htick.slices (State.countTick_wf hslices)
    rw [State.ltcTick, if_pos hpor, State.preid_idle (by rw [htick.mbx]; exact hstarts) (by rw [htick.mbx]; exact hrun)
      (by rw [htick.mbx]; exact hpend) ((htick.frame.2 .mc (by decide)).trans hmc)
      ((congrArg Ring.gang (htick.frame.2 .ring (by decide))).trans hgang)] at hstep
    have hsys := htick.frame.2 .sys (by decide)
    have hfab : _ = s.nextLag 144 s.sys.fabLag s.sys.fabHeld := congrArg Sys.fabLag hsys
    have hview (p : Nat) (hp : p < 144) := (hlag p).trans (State.lag_countTick hslices hp)
    refine ⟨_, hstep, congrArg Sys.ltc hsys, ?_, ?_, fun p hp => ?_, fun hmode h1 h3 => ?_, fun p hp hmode h1 h3 => ?_,
      (hcount.mono (by decide)).trans (htick.frame.mono (by decide))⟩
    · rw [hfab]
      exact (s.nextLag_bounds ..).1
    · rw [hfab]
      exact (s.nextLag_bounds ..).2
    · rw [hview p hp]
      exact s.nextLag_bounds ..
    · rw [hfab]
      exact State.nextLag_step hmode h1 h3 ..
    · rw [hview p hp]
      exact State.nextLag_step hmode h1 h3 ..

end Sys2Proof.Machine
end

section
/-! ### Meters and buckets (R259 to R292) -/

namespace Sys2Proof.Machine

variable {s t : State} {k svc : Nat} {q : Shaped}

/-- What leaves the control port and the mailbox alone counts nothing. -/
theorem Counted.of_frame {ps : List Part} (h : Frame ps s t) (hctl : .ctl ∉ ps) (hmbx : .mbx ∉ ps) : Counted s t :=
  ⟨by rw [h.2 .ctl hctl], by rw [h.2 .mbx hmbx]⟩

/-! #### The test of one head (R269 to R271, R290) -/

/-- The colour that the meter's mode lets a head come with (R271). -/
def Meter.colourIn (x : Meter) (trusted : Bool) (ci : Colour) : Colour :=
  if x.mode = 0 ∨ (x.mode = 2 ∧ trusted = false) then .green else ci

/-- The meter holds a head of charge `c` red (R270). -/
abbrev Meter.Holds (x : Meter) (trusted : Bool) (ci : Colour) (c : Nat) : Prop :=
  x.pir ≠ unlimited ∧ x.tp < ((if x.colourIn trusted ci = .red then x.pbs * 64 else min c (x.pbs * 64) : Nat) : Int)

/-- The meter passes it yellow. -/
abbrev Meter.Yellows (x : Meter) (trusted : Bool) (ci : Colour) (c : Nat) : Prop :=
  x.pir ≠ unlimited ∧ (x.colourIn trusted ci ≠ .green ∨ (x.cir ≠ unlimited ∧ x.tc < (min c (x.cbs * 64) : Nat)))

/-- The meter charged for a head that passes with colour `col` (R270). -/
def Meter.charged (x : Meter) (col : Colour) (c : Nat) : Meter :=
  { x with
    tp := if x.pir = unlimited then x.tp else x.tp - (c : Nat)
    tc := if x.pir = unlimited ∨ x.cir = unlimited ∨ col = .yellow then x.tc else x.tc - (c : Nat) }

theorem Meter.test_of_holds {x : Meter} {trusted : Bool} {ci : Colour} {c : Nat} (h : x.Holds trusted ci c) :
    x.test trusted ci c = (.red, x) := by
  obtain ⟨hpir, htp⟩ := h
  have hci : (if x.mode = 0 || (x.mode = 2 && !trusted) then Colour.green else ci) = x.colourIn trusted ci := by
    simp [Meter.colourIn]
  rw [Meter.test, if_neg hpir]
  simp only [hci]
  exact if_pos htp

theorem Meter.test_of_not_holds {x : Meter} {trusted : Bool} {ci : Colour} {c : Nat} (h : ¬ x.Holds trusted ci c) :
    x.test trusted ci c =
      (if x.Yellows trusted ci c then .yellow else .green, x.charged (if x.Yellows trusted ci c then .yellow else .green) c) := by
  have hci : (if x.mode = 0 || (x.mode = 2 && !trusted) then Colour.green else ci) = x.colourIn trusted ci := by
    simp [Meter.colourIn]
  by_cases hpir : x.pir = unlimited
  · have htest : x.test trusted ci c = (.green, x) := if_pos hpir
    have hgreen : ¬ x.Yellows trusted ci c := fun h => h.1 hpir
    rw [htest, if_neg hgreen, Meter.charged, if_pos hpir, if_pos (.inl hpir)]
  · have htp : ¬ x.tp < ((if x.colourIn trusted ci = .red then x.pbs * 64 else min c (x.pbs * 64) : Nat) : Int) :=
      fun h' => h ⟨hpir, h'⟩
    rw [Meter.test, if_neg hpir]
    simp only [hci]
    rw [if_neg htp]
    by_cases hy : x.Yellows trusted ci c
    · rw [if_pos hy, if_pos (by simpa [hpir] using hy.2)]
      simp [Meter.charged, hpir]
    · have hy' : ¬ (x.colourIn trusted ci ≠ .green ∨ (x.cir ≠ unlimited ∧ x.tc < (min c (x.cbs * 64) : Nat))) :=
        fun h' => hy ⟨hpir, h'⟩
      rw [if_neg hy, if_neg (by simpa using hy')]
      simp [Meter.charged, hpir]

/-- The bucket holds a head of charge `c` at level 1 (R290). -/
abbrev Bucket.Holds (b : Bucket) (c : Nat) : Prop := b.rate ≠ unlimited ∧ b.ts < (min c (b.burst * 64) : Nat)

/-- The bucket charged for a head that passes. -/
def Bucket.charged (b : Bucket) (c : Nat) : Bucket := if b.rate = unlimited then b else { b with ts := b.ts - (c : Nat) }

theorem Bucket.test_of_holds {b : Bucket} {c : Nat} (h : b.Holds c) : b.test c = none := by
  rw [Bucket.test, if_neg h.1, if_pos h.2]

theorem Bucket.test_of_not_holds {b : Bucket} {c : Nat} (h : ¬ b.Holds c) : b.test c = some (b.charged c) := by
  by_cases hr : b.rate = unlimited
  · simp [Bucket.test, Bucket.charged, hr]
  · have hts : ¬ b.ts < (min c (b.burst * 64) : Nat) := fun h' => h ⟨hr, h'⟩
    rw [Bucket.test, if_neg hr, if_neg hts, Bucket.charged, if_neg hr]

/-! #### The head of a meter queue (R262, R280, R282) -/

/-- Meter and bucket after the refills due (R280). -/
def State.settled (s : State) (k svc : Nat) : State := (s.settleMeter (6 * k + svc)).settleBucket k

theorem State.setMeter_frame (s : State) (m : Nat) (x : Meter) : Frame [.fab] s (s.setMeter m x) := s.modFab_frame _

theorem State.setBucket_frame (s : State) (k : Nat) (x : Bucket) : Frame [.fab] s (s.setBucket k x) := s.modFab_frame _

theorem State.settled_frame (s : State) (k svc : Nat) : Frame [.fab] s (s.settled k svc) :=
  (s.setMeter_frame ..).trans (State.setBucket_frame ..)

theorem State.testHead_uncharged (hq : s.fab.mqHead k svc = some q) (h : s.isMasked k = true ∨ q.charge = 0) :
    s.testHead k svc = s.passHead q .green := by
  simp only [State.testHead, hq]
  exact if_pos (by simpa using h)

section
variable (hq : s.fab.mqHead k svc = some q) (hmask : s.isMasked k = false) (hcharge : q.charge ≠ 0)
include hq hmask hcharge

theorem State.testHead_red (h : ((s.settled k svc).fab.meter (6 * k + svc)).Holds (s.trusted k) q.ci q.charge) :
    s.testHead k svc = (((s.settled k svc).setMeter (6 * k + svc) { (s.settled k svc).fab.meter (6 * k + svc) with
      slot := some ((s.settled k svc).wheelSlot (6 * k + svc) ((s.settled k svc).fab.meter (6 * k + svc)) (s.trusted k) q.ci q.charge) }).modFab
        fun f => f.modHead k svc fun q => { q with red := true, held1 := false }).statMeter (6 * k + svc) 2 1 := by
  rw [State.settled] at h ⊢
  simp only [State.testHead, hq, Meter.test_of_holds h]
  rw [if_neg (by simp [hmask, hcharge])]
  exact if_pos trivial

section
variable (h : ¬ ((s.settled k svc).fab.meter (6 * k + svc)).Holds (s.trusted k) q.ci q.charge)
include h

theorem State.testHead_held (hb : ((s.settled k svc).fab.bucket k).Holds q.charge) :
    s.testHead k svc = ((((s.settled k svc).setMeter (6 * k + svc) { (s.settled k svc).fab.meter (6 * k + svc) with slot := none }).modFab
        fun f => f.modHead k svc fun q => { q with red := false, held1 := true }).placeBucket k).statSub k 0 1 := by
  rw [State.settled] at h hb ⊢
  simp only [State.testHead, hq, Meter.test_of_not_holds h, Bucket.test_of_holds hb]
  rw [if_neg (by simp [hmask, hcharge]), if_neg (by split <;> decide)]

theorem State.testHead_passes (hb : ¬ ((s.settled k svc).fab.bucket k).Holds q.charge) {col : Colour}
    (hcol : col = if ((s.settled k svc).fab.meter (6 * k + svc)).Yellows (s.trusted k) q.ci q.charge then .yellow else .green) :
    s.testHead k svc = ((((s.settled k svc).setMeter (6 * k + svc)
      { ((s.settled k svc).fab.meter (6 * k + svc)).charged col q.charge with slot := none }).setBucket k
        (((s.settled k svc).fab.bucket k).charged q.charge)).passHead q col).statMeter (6 * k + svc)
          (if col = .green then 0 else 1) q.charge := by
  subst hcol
  rw [State.settled] at h hb ⊢
  simp only [State.testHead, hq, Meter.test_of_not_holds h, Bucket.test_of_not_holds hb]
  rw [if_neg (by simp [hmask, hcharge]), if_neg (by split <;> decide)]

end

/-- A charged head is held red, held at level 1, or passed (R262, R269 to R271, R279, R290). -/
theorem State.headTested_testHead : s.HeadTested (s.testHead k svc) k svc q := by
  refine ⟨fun hred => ?_, fun hred hheld => ?_, fun hred hheld col hcol => ?_⟩
  · rw [State.testHead_red hq hmask hcharge hred, State.statMeter_fab]
    rfl
  · rw [State.testHead_held hq hmask hcharge hred hheld, State.statSub_fab]
    rfl
  · rw [State.testHead_passes hq hmask hcharge hred hheld hcol, State.statMeter_fab]
    rfl

/-- The test changes the fabric, and then counts. -/
theorem State.testHead_count : ∃ u page slot n, Frame [.fab] s u ∧ s.testHead k svc = u.stat page slot n := by
  by_cases hred : ((s.settled k svc).fab.meter (6 * k + svc)).Holds (s.trusted k) q.ci q.charge
  · rw [State.testHead_red hq hmask hcharge hred]
    exact ⟨_, _, _, _, (s.settled_frame k svc).trans ((State.setMeter_frame ..).trans (State.modFab_frame ..)), rfl⟩
  · by_cases hheld : ((s.settled k svc).fab.bucket k).Holds q.charge
    · rw [State.testHead_held hq hmask hcharge hred hheld]
      exact ⟨_, _, _, _, (s.settled_frame k svc).trans ((State.setMeter_frame ..).trans ((State.modFab_frame ..).trans
        (State.setBucket_frame ..))), rfl⟩
    · rw [State.testHead_passes hq hmask hcharge hred hheld rfl]
      exact ⟨_, _, _, _, (s.settled_frame k svc).trans ((State.setMeter_frame ..).trans ((State.setBucket_frame ..).trans
        (State.modFab_frame ..))), rfl⟩

theorem State.testHead_counted : Counted s (s.testHead k svc) ∧ Frame [.fab, .ctl, .evt, .mbx] s (s.testHead k svc) := by
  obtain ⟨u, page, slot, n, hframe, heq⟩ := State.testHead_count hq hmask hcharge
  rw [heq]
  exact ⟨(Counted.of_frame hframe (by decide) (by decide)).trans (State.count_counted ..),
    (hframe.mono (by decide)).trans ((State.count_frame ..).mono (by decide))⟩

end

/-! #### METER_TEST and METER_WHEEL_EVENT -/

theorem exec_meterTest {k : Fin 48} {svc : Fin 6} (hlive : s.portsLive = true) (hq : s.fab.mqHead k.val svc.val = some q)
    (hrecs : k.val = 47 → svc.val = 5 → s.det.recs = []) (hway : s.onItsWay q.eid = false) : exec (.meterTest k svc) s =
      .next (if (q.red = true ∨ q.held1 = true) ∧ s.isMasked k.val = false then s else s.testHead k.val svc.val) := by
  have hnone : (if k.val = 47 && svc.val = 5 then s.addRecs else s) = s := by
    split
    · next h =>
      simp only [Bool.and_eq_true, decide_eq_true_eq] at h
      rw [State.addRecs, hrecs h.1 h.2, State.each_nil]
    · rfl
  change execMeterTest k svc s = _
  simp only [execMeterTest, hnone, hq]
  rw [if_neg (by simp [State.fabLive, hlive])]
  simp [hway]

/-- The state in which the refills due of a meter have been applied and its slot on the wheel is given up. -/
def State.unslot (s : State) (m : Nat) : State := (s.settleMeter m).setMeter m { (s.settleMeter m).fab.meter m with slot := none }

theorem State.unslot_frame (s : State) (m : Nat) : Frame [.fab] s (s.unslot m) := (s.setMeter_frame ..).trans (State.setMeter_frame ..)

theorem exec_meterWheelEvent {k : Fin 48} {svc : Fin 6} {w : Nat} (hlive : s.portsLive = true)
    (hslot : (s.fab.meter (6 * k.val + svc.val)).slot = some w) : exec (.meterWheelEvent k svc) s =
      .next (if s.isMasked k.val = true ∨ s.fabView < w ∧ (s.meterChanged (6 * k.val + svc.val) (s.fab.meter (6 * k.val + svc.val)) = false ∨
          s.refillsDue (6 * k.val + svc.val) (s.fab.meter (6 * k.val + svc.val)).vt = 0) then s
        else (s.unslot (6 * k.val + svc.val)).testHead k.val svc.val) := by
  change execMeterWheelEvent k svc s = _
  simp only [execMeterWheelEvent, hslot, State.unslot]
  congr 1
  refine if_congr ?_ rfl rfl
  simp [State.fabLive, hlive]

/-- Settles O14: both rows come to the test of the head, or to none. -/
theorem meterTested : Obligations.MeterTested := by
  unfold Obligations.MeterTested
  intro k svc s q hlive hq m green s1 s2
  refine ⟨fun hrecs hway => ?_, fun w hslot => ?_⟩
  · have hexec := exec_meterTest hlive hq hrecs hway
    refine ⟨fun hmask => ?_, fun hmask hwait => ?_, fun hmask hred hheld hcharge => ?_, fun hmask hred hheld hcharge => ?_⟩
    · rw [hexec, if_neg (by simp [hmask]), State.testHead_uncharged hq (.inl hmask)]
      rfl
    · rw [hexec, if_pos ⟨hwait, hmask⟩]
    · rw [hexec, if_neg (by simp [hred, hheld]), State.testHead_uncharged hq (.inr hcharge)]
      rfl
    · rw [hexec, if_neg (by simp [hred, hheld])]
      obtain ⟨hcounted, hframe⟩ := State.testHead_counted hq hmask hcharge
      exact ⟨_, rfl, State.headTested_testHead hq hmask hcharge, hcounted, hframe⟩
  · have hexec := exec_meterWheelEvent hlive hslot
    have hq2 : (s.unslot m).fab.mqHead k.val svc.val = some q := hq
    refine ⟨fun hmask => ?_, fun hw hsame => ?_, fun hw hmask hcharge => ?_, fun hw hmask hcharge => ?_⟩
    · rw [hexec, if_pos (.inl hmask)]
    · rw [hexec, if_pos (.inr ⟨hw, hsame⟩)]
    · rw [hexec, if_neg (by simp [hmask]; omega), State.testHead_uncharged hq2 (.inr hcharge)]
      rfl
    · rw [hexec, if_neg (by simp [hmask]; omega)]
      obtain ⟨hcounted, hframe⟩ := State.testHead_counted hq2 hmask hcharge
      have hunslot := s.unslot_frame m
      exact ⟨_, rfl, State.headTested_testHead hq2 hmask hcharge,
        (Counted.of_frame hunslot (by decide) (by decide)).trans hcounted, (hunslot.mono (by decide)).trans hframe⟩

end Sys2Proof.Machine
end

section
/-! ### The periods of shaping (R281, R285, R288, R292, R293, R303, R312, R315) -/

namespace Sys2Proof.Machine

variable {s t : State}

/-! #### SUB_BUCKET_REFILL -/

theorem exec_subBucketRefill_none {k : Fin 48} (h : (s.fab.bucket k.val).slot = none) : exec (.subBucketRefill k) s = .next s := by
  change execSubBucketRefill k s = _
  simp only [execSubBucketRefill, h]

/-- The state in which the refills due of a bucket have been applied and its slot on the wheel is given up. -/
def State.unslotBucket (s : State) (k : Nat) : State :=
  (s.settleBucket k).setBucket k { (s.settleBucket k).fab.bucket k with slot := none }

theorem exec_subBucketRefill {k : Fin 48} {w : Nat} (hlive : s.portsLive = true) (h : (s.fab.bucket k.val).slot = some w) :
    exec (.subBucketRefill k) s = .next (if (s.fab.bucket k.val).frozen = true ∨ s.fabView < w ∧
        ¬ (s.bucketChanged k.val (s.fab.bucket k.val) = true ∧ s.refillsDue k.val (s.fab.bucket k.val).vt ≠ 0) then s
      else ((s.unslotBucket k.val).testHeld k.val ((s.unslotBucket k.val).heldHeads k.val)).placeBucket k.val) := by
  change execSubBucketRefill k s = _
  simp only [execSubBucketRefill, h, State.unslotBucket]
  congr 1
  refine if_congr ?_ rfl rfl
  simp [State.fabLive, hlive, imp_iff_not_or]

/-- With no head held at level 1 none is tested again. -/
theorem State.heldHeads_of_none (h : ∀ q ∈ s.fab.mq, q.held1 = false) (k : Nat) : s.heldHeads k = [] := by
  have hnone : ∀ l : List (Nat × Nat), l = [] → ∀ le, (l.mergeSort le).map (·.2) = [] := by rintro _ rfl le; simp
  refine hnone _ (List.filterMap_eq_nil_iff.2 fun i _ => ?_) _
  split
  · next q hq => rw [if_neg (by simp [h q (List.mem_of_find?_eq_some hq)])]
  · rfl

/-- What the refill does to the bucket when no head is held: the refills due are applied and it leaves the wheel. -/
def State.refilled (s : State) (k : Nat) : State :=
  (s.unslotBucket k).setBucket k { (s.unslotBucket k).fab.bucket k with slot := none }

theorem State.placeBucket_of_none (h : ∀ q ∈ s.fab.mq, q.held1 = false) (k : Nat) :
    s.placeBucket k = s.setBucket k { s.fab.bucket k with slot := none } := by
  rw [State.placeBucket, State.heldHeads_of_none h]
  rfl

theorem State.bucket_refilled (h : Tab.wf Bucket.reset s.fab.buckets = true) (k : Nat) :
    (s.refilled k).fab.bucket k = { s.settledBucket k (s.fab.bucket k) with slot := none } := by
  have h1 : Tab.wf Bucket.reset (s.settleBucket k).fab.buckets = true := Tab.set_wf h
  have h2 : Tab.wf Bucket.reset (s.unslotBucket k).fab.buckets = true := Tab.set_wf h1
  have e1 : (s.settleBucket k).fab.bucket k = s.settledBucket k (s.fab.bucket k) := Tab.get_set_self _ h
  have e2 : (s.unslotBucket k).fab.bucket k = { (s.settleBucket k).fab.bucket k with slot := none } := Tab.get_set_self _ h1
  have e3 : (s.refilled k).fab.bucket k = { (s.unslotBucket k).fab.bucket k with slot := none } := Tab.get_set_self _ h2
  rw [e3, e2, e1]

theorem State.bucket_refilled_ne {j k : Nat} (hj : j ≠ k) : (s.refilled k).fab.bucket j = s.fab.bucket j :=
  (Tab.get_set_ne _ hj).trans ((Tab.get_set_ne _ hj).trans (Tab.get_set_ne _ hj))

theorem State.refilled_frame (s : State) (k : Nat) : Frame [.fab] s (s.refilled k) :=
  (s.setBucket_frame ..).trans ((State.setBucket_frame ..).trans (State.setBucket_frame ..))

/-! #### QUEUE_SAMPLE -/

/-- Between `s` and `t` counters alone have moved, with the records that their saturation makes. -/
structure State.CountsOnly (s t : State) : Prop where
  counted : Counted s t
  frame : Frame [.ctl, .evt, .mbx] s t

namespace State.CountsOnly

theorem refl (s : State) : CountsOnly s s := ⟨.refl s, .refl ..⟩

theorem trans {u : State} (h1 : CountsOnly s t) (h2 : CountsOnly t u) : CountsOnly s u :=
  ⟨h1.counted.trans h2.counted, h1.frame.trans h2.frame⟩

theorem ite {c : Prop} [Decidable c] {u : State} (h1 : CountsOnly s t) (h2 : CountsOnly s u) : CountsOnly s (if c then t else u) := by
  split
  · exact h1
  · exact h2

theorem each {α : Type} {f : State → α → State} (h : ∀ s a, CountsOnly s (f s a)) (l : List α) (s : State) : CountsOnly s (s.each l f) :=
  State.each_induct (P := CountsOnly s) (fun t a ht => ht.trans (h t a)) l (refl s)

theorem count (s : State) (top : Nat) (e : Ev) (page slot n : Nat) : CountsOnly s (s.count top e page slot n) :=
  ⟨s.count_counted .., s.count_frame ..⟩

theorem addSamples (s : State) (page dBase hBase idle : Nat) (qs : List (Nat × Option Nat)) :
    CountsOnly s (s.addSamples page dBase hBase idle qs) := by
  refine (ite (refl s) (count ..)).trans (each (fun s d => ?_) qs _)
  dsimp only
  split
  · exact (count ..).trans (count ..)
  · exact count ..

end State.CountsOnly

/-- A sample of the queues sets the interval and counts. -/
theorem State.queueSample_counts (h : s.refillNow / 400 * 400 ≠ s.fab.sampled) :
    State.CountsOnly (s.modFab fun f => { f with sampled := s.refillNow / 400 * 400 }) s.queueSample := by
  unfold State.queueSample
  dsimp only
  rw [if_neg h]
  refine (State.CountsOnly.each (fun s m => .addSamples ..) _ _).trans ((State.CountsOnly.each (fun s c => .addSamples ..) _ _).trans
    (State.CountsOnly.each (fun s j => ?_) _ _))
  exact .ite (.addSamples ..) (.refl _)

/-- Settles O15: the three rows that a period makes due. -/
theorem shapingPeriods : Obligations.ShapingPeriods := by
  unfold Obligations.ShapingPeriods
  intro s hlive
  refine ⟨?_, fun hp hnew => ?_, fun hnew => ?_⟩
  · intro k b changed
    refine ⟨exec_subBucketRefill_none, fun w hslot => ⟨fun hw hsame => ?_, fun hfrozen hdue hheld => ?_⟩⟩
    · rw [exec_subBucketRefill hlive hslot, if_pos (.inr ⟨hw, hsame⟩)]
    have hexec := exec_subBucketRefill hlive hslot
    have hgo : ¬ (b.frozen = true ∨ s.fabView < w ∧ ¬ changed) := fun h => h.elim (by simp [hfrozen]) fun ⟨hw, hsame⟩ =>
      hdue.elim (by omega) hsame
    rw [if_neg hgo,
      State.heldHeads_of_none (s := s.unslotBucket k.val) hheld, State.testHeld,
      State.placeBucket_of_none (s := s.unslotBucket k.val) hheld] at hexec
    exact ⟨_, hexec, fun hwf => State.bucket_refilled hwf k.val, fun j hj => State.bucket_refilled_ne hj, rfl, s.refilled_frame k.val⟩
  · have hlive' : s.fabLive = true := hlive
    change execChannelPeriodStart s = _
    simp only [execChannelPeriodStart, hlive', if_true, State.periodStart, if_neg hp, if_neg hnew]
    rfl
  · have hcounts := State.queueSample_counts hnew
    refine ⟨_, congrArg Host.Outcome.next (if_pos hlive), hcounts.frame.2 .fab (by decide), ?_, ?_⟩
    · exact (Counted.of_frame (s.modFab_frame _) (by decide) (by decide)).trans hcounts.counted
    · exact ((s.modFab_frame _).mono (by decide)).trans (hcounts.frame.mono (by decide))

end Sys2Proof.Machine
end

section
/-! ### One island of the state, and counting -/

namespace Sys2Proof.Machine

variable {s t u : State} {p : Nat} {x : Slice}

/-- Between `s` and `t` island `p` has come to hold `x`, and no other island has changed. -/
structure State.Island (p : Nat) (x : Slice) (s t : State) : Prop where
  wf : Tab.wf Slice.reset t.slices = true
  here : t.slice p = x
  there : ∀ j, j ≠ p → t.slice j = s.slice j

namespace State.Island

theorem refl (h : Tab.wf Slice.reset s.slices = true) (p : Nat) : Island p (s.slice p) s s := ⟨h, rfl, fun _ _ => rfl⟩

theorem of_slices (h : Tab.wf Slice.reset s.slices = true) (p : Nat) (hs : t.slices = s.slices) : Island p (s.slice p) s t :=
  ⟨by rw [hs]; exact h, State.slice_congr hs p, fun j _ => State.slice_congr hs j⟩

theorem modSlice (h : Island p x s t) (f : Slice → Slice) : Island p (f x) s (t.modSlice p f) :=
  ⟨modSlice_wf h.wf _, by rw [State.slice_modSlice h.wf, h.here],
    fun j hj => (State.slice_modSlice_ne _ _ hj).trans (h.there j hj)⟩

theorem modSch (h : Island p x s t) (f : Sched → Sched) : Island p { x with sch := f x.sch } s (t.modSch p f) :=
  h.modSlice fun x => { x with sch := f x.sch }

theorem modDat (h : Island p x s t) (f : ChData → ChData) : Island p { x with dat := f x.dat } s (t.modDat p f) :=
  h.modSlice fun x => { x with dat := f x.dat }

theorem insertWin (h : Island p x s t) (w : WinEnt) : Island p { x with sch := { x.sch with
    window := x.sch.window ++ [{ w with seq := x.sch.nextSeq }], nextSeq := x.sch.nextSeq + 1 } } s (t.insertWin p w) :=
  h.modSch fun x => { x with window := x.window ++ [{ w with seq := x.nextSeq }], nextSeq := x.nextSeq + 1 }

theorem congr (h : Island p x s t) (hu : u.slices = t.slices) : Island p x s u :=
  ⟨by rw [hu]; exact h.wf, (State.slice_congr hu p).trans h.here, fun j hj => (State.slice_congr hu j).trans (h.there j hj)⟩

theorem start {s' : State} (h : Island p x s t) (hs : s.slices = s'.slices) : Island p x s' t :=
  ⟨h.wf, h.here, fun j hj => (h.there j hj).trans (State.slice_congr hs j)⟩

end State.Island

theorem Counted.crossed (h : Counted s t) : CountedCrossed s t := by
  obtain ⟨hctl, hmbx⟩ := h
  refine ⟨?_, hmbx⟩
  rw [hctl]

theorem Crossed.counted (h : Crossed s t) (hmbx : t.mbx = s.mbx) : CountedCrossed s t := by
  refine ⟨?_, by rw [hmbx]⟩
  rw [show t.ctl = _ from h]

/-- The state with other counters, records and interrupt causes. -/
abbrev State.counting (s : State) (tlm : Tab Ctr) (evt : Evt) (irq : BitVec 5) : State :=
  { s with ctl := { s.ctl with tlm := tlm }, evt := evt, mbx := { s.mbx with irq := irq } }

/-- Where counters alone have moved, the state is as before but for them. -/
theorem State.CountsOnly.eq_counting (h : State.CountsOnly s t) : ∃ tlm evt irq, t = s.counting tlm evt irq := by
  obtain ⟨⟨hctl, hmbx⟩, hpend, hpart⟩ := h
  refine ⟨t.ctl.tlm, t.evt, t.mbx.irq, ?_⟩
  have hsys : t.sys = s.sys := hpart .sys (by decide)
  have hcfg : t.cfg = s.cfg := hpart .cfg (by decide)
  have hmc : t.mc = s.mc := hpart .mc (by decide)
  have hfab : t.fab = s.fab := hpart .fab (by decide)
  have hports : t.ports = s.ports := hpart .ports (by decide)
  have hblp : t.blp = s.blp := hpart .blp (by decide)
  have hslices : t.slices = s.slices := hpart .slices (by decide)
  have htherm : t.therm = s.therm := hpart .therm (by decide)
  have hstk : t.stk = s.stk := hpart .stk (by decide)
  have hdet : t.det = s.det := hpart .det (by decide)
  have hring : t.ring = s.ring := hpart .ring (by decide)
  have hwrap : t.wrap = s.wrap := hpart .wrap (by decide)
  have hmem : t.mem = s.mem := hpart .mem (by decide)
  cases t
  subst hpend hsys hcfg hmc hfab hports hblp hslices htherm hstk hdet hring hwrap hmem
  simp only [State.counting, ← hctl, ← hmbx]

/-- What holds whatever the counters are holds where counters alone have moved. -/
theorem State.CountsOnly.induct {P : State → Prop} (h : State.CountsOnly s t) (hP : ∀ tlm evt irq, P (s.counting tlm evt irq)) : P t := by
  obtain ⟨tlm, evt, irq, rfl⟩ := h.eq_counting
  exact hP ..

end Sys2Proof.Machine
end

section
/-! ### A channel's window is filled (R47, R64, R81, R204, R237, R294) -/

namespace Sys2Proof.Machine

variable {s : State} {c ps : Nat} {p : Piece} {rsv : Bool}

theorem State.countsOnly_countExcluded (s : State) (c : Nat) (heads : List Piece) : State.CountsOnly s (s.countExcluded c heads) := by
  unfold State.countExcluded
  dsimp only
  have hcapped (b : Prop) [Decidable b] : State.CountsOnly s (if b then s.statChan c 0 1 else s) := .ite (.count ..) (.refl s)
  split
  · exact (hcapped _).trans (.count ..)
  · exact hcapped _

/-- The word that a read piece puts into the crossing queue of its channel (R204, R237). -/
def State.readWord (s : State) (p : Piece) (ps : Nat) (rsv : Bool) : WinEnt :=
  { p.winEnt (s.readUse p) p.keys with
    word := true, vis := s.sys.ltc + s.crossTime 0, qix := (s.slice ps).dat.nextIx, rsv := rsv }

/-- The fabric has taken a read piece off its channel queue, counted in A, and written its word (R47, R293). -/
def State.readTaken (s : State) (p : Piece) (ps : Nat) (rsv : Bool) : State :=
  ((((s.modFab fun f => { f with
      chCnt := Tab.upd 0 f.chCnt (p.sub * 128 + p.chan) (· + p.keys.length)
      cq := dropFirst (fun q => q == p) f.cq }).insertWin ps (s.readWord p ps rsv)).modDat ps fun d =>
    { d with nextIx := d.nextIx + 1 }).icqWrite 0 ps)

theorem State.goKeys_of_read (hfree : s.freeKeys p = p.keys) (hread : p.write = .read) (hall : ∀ k ∈ p.keys, keyPs k = s.pieceSlice p) :
    s.goKeys p = p.keys := by
  simp only [State.goKeys, hread, hfree]
  exact List.filter_eq_self.2 fun k hk => by simpa using hall k hk

theorem State.modFab_countPiece {k svc n : Nat} {cq : Fab → List Piece} (h : s.fab.thOn.contains c = false) :
    (s.modFab fun f => { f.countPiece k svc c n with cq := cq f }) =
      s.modFab fun f => { f with chCnt := Tab.upd 0 f.chCnt (k * 128 + c) (· + n), cq := cq f } := by
  have hcount : s.fab.countPiece k svc c n = { s.fab with chCnt := Tab.upd 0 s.fab.chCnt (k * 128 + c) (· + n) } :=
    if_neg (by rw [h]; simp)
  simp only [State.modFab, hcount]

theorem State.takeHead_read (hfree : s.freeKeys p = p.keys) (hread : p.write = .read) (hps : s.pieceSlice p = ps)
    (hall : ∀ k ∈ p.keys, keyPs k = ps)    (hsub : p.sub < 32) (hth : s.fab.thOn.contains p.chan = false) (hslot : s.pieceSlot p = some rsv) :
    s.takeHead p = (s.readTaken p ps rsv).readQueue ps := by
  subst hps
  have hrest : (p.keys.filter fun k => !p.keys.contains k) = [] := List.filter_eq_nil_iff.2 fun k hk => by simp [hk]
  have hwide : (decide (32 ≤ p.sub) && decide (p.sub ≤ 35)) = false := by simp; omega
  have hslot1 (f : Fab → Fab) : (s.modFab f).pieceSlot p = some rsv := hslot
  simp only [State.takeHead, State.goKeys_of_read hfree hread hall, hrest, hread, hwide, hslot1, List.isEmpty_nil, if_true,
    Bool.false_eq_true, if_false, State.modFab_countPiece hth, Option.getD_some]
  rfl

/-! #### The island reads its crossing queue (R64, R81) -/

theorem State.icqWrite_frame (s : State) (q i : Nat) : Frame [.ctl] s (s.icqWrite q i) := by
  unfold State.icqWrite State.icqDelay
  dsimp only
  split
  · exact s.modIcq_frame ..
  · exact (s.modIcq_frame ..).trans (State.modIcq_frame ..)

theorem State.icqWrite_crossed (s : State) (q i : Nat) : Crossed s (s.icqWrite q i) := by
  unfold State.icqWrite State.icqDelay
  dsimp only
  split <;> rfl

theorem State.icqRelease_frame (s : State) (q i n : Nat) : Frame [.ctl] s (s.icqRelease q i n) := by
  unfold State.icqRelease State.icqFree
  dsimp only
  split
  · exact s.modIcq_frame ..
  · exact (s.modIcq_frame ..).trans (State.modIcq_frame ..)

theorem State.icqRelease_crossed (s : State) (q i n : Nat) : Crossed s (s.icqRelease q i n) := by
  unfold State.icqRelease State.icqFree
  dsimp only
  split <;> rfl

/-- A read word that has crossed and has not been read. -/
def WinEnt.due (now : Nat) (w : WinEnt) : Bool := w.word && decide (w.vis ≤ now)

/-- The entry once the island has read what has crossed. -/
def WinEnt.seen (now : Nat) (w : WinEnt) : WinEnt := if w.due now then { w with word := false } else w

/-- The island once it has read every read word that has crossed. -/
def Slice.seen (now : Nat) (x : Slice) : Slice :=
  { x with sch := { x.sch with window := x.sch.window.map (·.seen now), narrowSlot := x.sch.narrowSlot.map (·.seen now) } }

theorem WinEnt.due_of_read {w : WinEnt} (h : w.word = false) (now : Nat) : w.due now = false := by rw [WinEnt.due, h]; rfl

theorem WinEnt.seen_of_not_due {w : WinEnt} {now : Nat} (h : w.due now = false) : w.seen now = w := if_neg (by simp [h])

theorem map_seen_of_not_due {l : List WinEnt} {now : Nat} (h : ∀ w ∈ l, w.due now = false) : l.map (·.seen now) = l :=
  (List.map_congr_left fun w hw => WinEnt.seen_of_not_due (h w hw)).trans (List.map_id _)

/-- With no write word in the queue the island reads the read words that have crossed. -/
theorem State.readQueue_of_reads (hfcq : (s.slice ps).dat.fcq = []) {n : Nat}
    (hn : n = (((s.slice ps).sch.window ++ (s.slice ps).sch.narrowSlot).filter (·.due s.sys.ltc)).length) :
    s.readQueue ps = if n = 0 then s else (s.modSlice ps (·.seen s.sys.ltc)).icqRelease 0 ps n := by
  have hdat : ({ (s.slice ps).dat with fcq := [] } : ChData) = (s.slice ps).dat := by rw [← hfcq]
  subst hn
  simp only [State.readQueue, hfcq, ChData.readWords, hdat, List.all_nil, Bool.and_true, List.length_nil, Nat.sub_self, Nat.zero_add]
  rfl

/-- With no write word in the queue, and no read word that has crossed, the island reads nothing. -/
theorem State.readQueue_of_none (hfcq : (s.slice ps).dat.fcq = [])
    (h : ∀ w ∈ (s.slice ps).sch.window ++ (s.slice ps).sch.narrowSlot, w.due s.sys.ltc = false) : s.readQueue ps = s := by
  rw [State.readQueue_of_reads hfcq rfl, List.filter_eq_nil_iff.2 fun w hw => by simp [h w hw]]
  rfl

/-- With no write word in the queue, and its newest word the only one, which has crossed, the island reads that one. -/
theorem State.readQueue_of_last {x : Slice} {l : List WinEnt} {w : WinEnt} (hwf : Tab.wf Slice.reset s.slices = true)
    (hx : s.slice ps = x) (hfcq : x.dat.fcq = []) (hwin : x.sch.window = l ++ [w])
    (hl : ∀ v ∈ l ++ x.sch.narrowSlot, v.word = false) (hw : w.due s.sys.ltc = true) :
    State.Island ps { x with sch := { x.sch with window := l ++ [{ w with word := false }] } } s (s.readQueue ps) ∧
      Crossed s (s.readQueue ps) ∧ Frame [.slices, .ctl] s (s.readQueue ps) := by
  subst hx
  have hdue (v : WinEnt) (hv : v ∈ l ++ (s.slice ps).sch.narrowSlot) : v.due s.sys.ltc = false := WinEnt.due_of_read (hl v hv) _
  have hlast : (((s.slice ps).sch.window ++ (s.slice ps).sch.narrowSlot).filter (·.due s.sys.ltc)).length = 1 := by
    have hleft : l.filter (·.due s.sys.ltc) = [] := List.filter_eq_nil_iff.2 fun v hv => by simp [hdue v (List.mem_append_left _ hv)]
    have hright : (s.slice ps).sch.narrowSlot.filter (·.due s.sys.ltc) = [] :=
      List.filter_eq_nil_iff.2 fun v hv => by simp [hdue v (List.mem_append_right _ hv)]
    rw [hwin, List.filter_append, List.filter_append, hleft, hright]
    simp [hw]
  have hseen : (s.slice ps).seen s.sys.ltc =
      { s.slice ps with sch := { (s.slice ps).sch with window := l ++ [{ w with word := false }] } } := by
    rw [Slice.seen, hwin, List.map_append, map_seen_of_not_due fun v hv => hdue v (List.mem_append_left _ hv),
      map_seen_of_not_due fun v hv => hdue v (List.mem_append_right _ hv), List.map_singleton, WinEnt.seen, if_pos hw]
  rw [State.readQueue_of_reads hfcq hlast.symm, if_neg (by decide), ← hseen]
  exact ⟨((State.Island.refl hwf ps).modSlice _).congr ((State.icqRelease_frame ..).2 .slices (by decide)),
    State.icqRelease_crossed .., ((State.modSlice_frame ..).mono (by decide)).trans ((State.icqRelease_frame ..).mono (by decide))⟩

/-! #### CHANNEL_FILL -/

theorem State.island_readTaken (hwf : Tab.wf Slice.reset s.slices = true) (p : Piece) (ps : Nat) (rsv : Bool) :
    State.Island ps { s.slice ps with
        sch := { (s.slice ps).sch with
          window := (s.slice ps).sch.window ++ [{ s.readWord p ps rsv with seq := (s.slice ps).sch.nextSeq }]
          nextSeq := (s.slice ps).sch.nextSeq + 1 }
        dat := { (s.slice ps).dat with nextIx := (s.slice ps).dat.nextIx + 1 } } s (s.readTaken p ps rsv) :=
  (((State.Island.of_slices hwf ps (t := s.modFab _) rfl).insertWin (s.readWord p ps rsv)).modDat fun d =>
    { d with nextIx := d.nextIx + 1 }).congr
    ((State.icqWrite_frame ..).2 .slices (by decide))

theorem State.readTaken_frame (s : State) (p : Piece) (ps : Nat) (rsv : Bool) : Frame [.fab, .slices, .ctl] s (s.readTaken p ps rsv) :=
  ((s.modFab_frame _).mono (by decide)).trans (((State.modSlice_frame ..).mono (by decide)).trans
    (((State.modSlice_frame ..).mono (by decide)).trans ((State.icqWrite_frame ..).mono (by decide))))

/-- The word of a read piece is read at once, or, in DET_TIMING, once it has crossed (R64, R81). -/
theorem State.readQueue_readTaken (hwf : Tab.wf Slice.reset s.slices = true)
    (hfcq : (s.slice ps).dat.fcq = []) (hwords : ∀ w ∈ (s.slice ps).sch.window ++ (s.slice ps).sch.narrowSlot, w.word = false) :
    State.Island ps { s.slice ps with
        sch := { (s.slice ps).sch with
          window := (s.slice ps).sch.window ++ [{ s.readWord p ps rsv with
            seq := (s.slice ps).sch.nextSeq, word := s.crossTime 0 != 0 }]
          nextSeq := (s.slice ps).sch.nextSeq + 1 }
        dat := { (s.slice ps).dat with nextIx := (s.slice ps).dat.nextIx + 1 } } s ((s.readTaken p ps rsv).readQueue ps) ∧
      Crossed (s.readTaken p ps rsv) ((s.readTaken p ps rsv).readQueue ps) ∧
      Frame [.slices, .ctl] (s.readTaken p ps rsv) ((s.readTaken p ps rsv).readQueue ps) := by
  have hisland := s.island_readTaken hwf p ps rsv
  have hsys : (s.readTaken p ps rsv).sys = s.sys := (s.readTaken_frame p ps rsv).2 .sys (by decide)
  by_cases hcross : s.crossTime 0 = 0
  · have hlast := State.readQueue_of_last hisland.wf hisland.here hfcq rfl hwords
      (w := { s.readWord p ps rsv with seq := (s.slice ps).sch.nextSeq }) (by simp [WinEnt.due, State.readWord, hcross, hsys])
    obtain ⟨hlast, hcrossed, hframe⟩ := hlast
    refine ⟨⟨hlast.wf, ?_, fun j hj => (hlast.there j hj).trans (hisland.there j hj)⟩, hcrossed, hframe⟩
    rw [hlast.here, hcross]
    rfl
  · have hnone : (s.readTaken p ps rsv).readQueue ps = s.readTaken p ps rsv := by
      refine State.readQueue_of_none (by rw [hisland.here]; exact hfcq) fun w hw => ?_
      rw [hisland.here] at hw
      rcases List.mem_append.1 hw with hw | hw
      · rcases List.mem_append.1 hw with hw | hw
        · exact WinEnt.due_of_read (hwords w (List.mem_append_left _ hw)) _
        · obtain rfl := List.mem_singleton.1 hw
          simpa [WinEnt.due, State.readWord, hsys] using hcross
      · exact WinEnt.due_of_read (hwords w (List.mem_append_right _ hw)) _
    rw [hnone]
    refine ⟨⟨hisland.wf, ?_, hisland.there⟩, rfl, .refl ..⟩
    rw [hisland.here, bne_iff_ne.2 hcross]
    rfl

/-- A fill in which one head alone is ready, and is taken. -/
theorem exec_channelFill {c : Fin 128} (hlive : s.portsLive = true) (hbound : (s.stk.remapAt c.val).st = .bound)
    (hwait : (s.slice (s.stk.remapAt c.val).ps).sch.waiting = []) (hheads : s.heads c.val = [p]) (hready : s.headReady p = true)
    (hsub : p.sub < 32) (htake : (s.countExcluded c.val [p]).mayTake c.val p = true) :
    exec (.channelFill c) s = .next ((s.countExcluded c.val [p]).takeHead p) := by
  have hfill : s.fillWaiting (s.stk.remapAt c.val).ps = s := by rw [State.fillWaiting, hwait]; rfl
  have hwide : (decide (32 ≤ p.sub) && decide (p.sub ≤ 35)) = false := by simp; omega
  have hlive' : s.fabLive = true := hlive
  change execChannelFill c s = _
  simp only [execChannelFill, hlive', hfill, hbound, hheads, List.filter_cons, hready, List.filter_nil, hwide, htake, if_true,
    Bool.not_true, Bool.false_eq_true, if_false, State.each_nil, Bool.not_false, Bool.true_and]
  by_cases hrsv : (s.countExcluded c.val [p]).underShare c.val p.sub 0 8 = true <;> simp [hrsv, least]

/-- Settles O16: the head is the only one ready, and its word is the only one in the crossing queue. -/
theorem channelFilled : Obligations.ChannelFilled := by
  unfold Obligations.ChannelFilled
  intro c s p rsv hcanon hlive hbound hwait hheads hready hfree hchan hsub hread ps x hfcq hwords hreseal hcredit hcold hall hshare hslot
  have hps : s.pieceSlice p = ps := by rw [State.pieceSlice, hfree]
  have hps : s.pieceSlice p = ps := by rw [State.pieceSlice, hfree]
  have hwide : (decide (32 ≤ p.sub) && decide (p.sub ≤ 35)) = false := by simp; omega
  have htherm : s.thermAdmits p.sub p.svc c.val = true := if_neg (by rw [hcold]; simp)
  have hshareOk : s.shareOk c.val p = true := by rw [State.shareOk, hshare, htherm]; simp
  have hentry : s.headEntry p = true := by simp only [State.headEntry, hslot, State.leavesEntry, hps, hreseal]
  have hfits : s.headFits p = true := by
    simp only [State.headFits, hps, hcredit, hwide, hread, hentry]
    rfl
  have htake : s.mayTake c.val p = true := by rw [State.mayTake, hshareOk, hfits]; rfl
  have hcounts := s.countsOnly_countExcluded c.val [p]
  have hexec := exec_channelFill hlive hbound hwait hheads hready hsub (hcounts.induct (P := fun t => t.mayTake c.val p = true) fun _ _ _ => htake)
  rw [State.takeHead_read (rsv := rsv) (by exact hcounts.induct (P := fun t => t.freeKeys p = p.keys) fun _ _ _ => hfree) hread
    (by exact hcounts.induct (P := fun t => t.pieceSlice p = ps) fun _ _ _ => hps) hall hsub
    (by rw [hcounts.frame.2 .fab (by decide), hchan]; exact hcold)
    (by exact hcounts.induct (P := fun t => t.pieceSlot p = some rsv) fun _ _ _ => hslot)] at hexec
  refine ⟨_, hexec, ?_⟩
  obtain ⟨tlm, evt, irq, heq⟩ := hcounts.eq_counting
  rw [heq] at hcounts ⊢
  obtain ⟨-, -, hwf, -⟩ := hcanon
  obtain ⟨hisland, hcrossed, hframe⟩ := State.readQueue_readTaken (s := s.counting tlm evt irq) (p := p) (rsv := rsv) hwf hfcq hwords
  have htaken := (s.counting tlm evt irq).readTaken_frame p ps rsv
  have hwrote : Crossed (s.counting tlm evt irq) ((s.counting tlm evt irq).readTaken p ps rsv) := State.icqWrite_crossed ..
  refine ⟨?_, hisland.here, hisland.there, ?_, ?_⟩
  · rw [hframe.2 .fab (by decide), State.readTaken, (State.icqWrite_frame ..).2 .fab (by decide), hchan]
    rfl
  · exact hcounts.counted.crossed.trans ((hwrote.counted (htaken.2 .mbx (by decide))).trans (hcrossed.counted (hframe.2 .mbx (by decide))))
  · exact (hcounts.frame.mono (by decide)).trans ((htaken.mono (by decide)).trans (hframe.mono (by decide)))

end Sys2Proof.Machine
end

section
/-! ### REFRESH_DUE and RDT_THROTTLE_END (R307, R494, R511) -/

namespace Sys2Proof.Machine

variable {s : State} {p : Fin 144} {b : Fin 32}

theorem exec_refreshDue_idle (h : s.dueAcc p.val b.val < 25000 ∨ (s.slice p.val).rf.selfRef = true) :
    exec (.refreshDue p b) s = .next s :=
  congrArg _ (if_pos (by rcases h with h | h <;> simp [h]))

theorem exec_refreshDue (hlive : s.islandRuns p.val = true) (hon : (s.slice p.val).rf.refOn = true)
    (hself : (s.slice p.val).rf.selfRef = false) (hdue : 25000 ≤ s.dueAcc p.val b.val) :
    exec (.refreshDue p b) s = .next (s.modRf p.val fun r => r.modRb b.val fun x =>
      if 0 < x.pulled then { x with acc := s.dueAcc p.val b.val - 25000, t0 := s.view p.val, pulled := x.pulled - 1 }
      else { x with acc := s.dueAcc p.val b.val - 25000, t0 := s.view p.val, owed := x.owed + 1 }) :=
  congrArg _ (if_neg (by simp [hlive, hon, hself, hdue]))

/-- Settles O18: each of the two rows is one test. -/
theorem refreshFallsDue : Obligations.RefreshFallsDue := by
  unfold Obligations.RefreshFallsDue
  refine fun s => ⟨?_, ?_⟩
  · intro p b hlive hon a
    exact ⟨exec_refreshDue_idle, fun hdue hself => exec_refreshDue hlive hon hself hdue⟩
  · intro k c e
    refine ⟨fun hearly => congrArg _ (if_pos ?_), fun hset hend => congrArg _ (if_neg ?_)⟩
    · simp only [e] at hearly
      simp [hearly]
    · simp only [e] at hset hend
      simp [hset, hend]

end Sys2Proof.Machine
end

section
/-! ### The end of an access (R81, R115, R141) -/

namespace Sys2Proof.Machine

variable {s : State} {id : Nat} {e : Entry} {k : Key} {st : RspStatus} {d : Line}

/-- The entry with the access at `k` ended, as the fabric reads it (R81). -/
def State.endedEntry (s : State) (k : Key) (st : RspStatus) (d : Line) (e : Entry) : Entry :=
  { e with accs := seeAcc (endAcc e.accs k st d) k (s.icqSeen 1 (keyPs k)) }

/-- The state with the access at `k` of an entry ended, before its lateness is counted. -/
def State.accessEnded (s : State) (id : Nat) (k : Key) (st : RspStatus) (d : Line) : State :=
  (s.modEntry id (s.endedEntry k st d)).icqPass 1 (keyPs k)

theorem State.endAccess_eq (s : State) (id : Nat) (k : Key) (st : RspStatus) (d : Line) :
    s.endAccess id k st d = (s.accessEnded id k st d).lateOnce id := rfl

theorem State.accessEnded_frame (s : State) (id : Nat) (k : Key) (st : RspStatus) (d : Line) :
    Frame [.fab, .ctl] s (s.accessEnded id k st d) :=
  ((s.modFab_frame _).mono (by decide)).trans ((State.icqPass_frame ..).mono (by decide))

theorem State.accessEnded_crossed (s : State) (id : Nat) (k : Key) (st : RspStatus) (d : Line) : Crossed s (s.accessEnded id k st d) := rfl

/-- An entry without a header answer is not counted. -/
theorem State.lateOnce_of_open (he : s.fab.entry id = some e) (hopen : e.headerAnswer = none) : s.lateOnce id = s := by
  simp [State.lateOnce, he, hopen]

theorem State.entry_accessEnded (he : s.fab.entry id = some e) :
    (s.accessEnded id k st d).fab.entry id = some (s.endedEntry k st d e) := by
  change (s.fab.modEntry id (s.endedEntry k st d)).entry id = _
  rw [Fab.entry_modEntry (g := s.endedEntry k st d) fun _ => rfl, he]
  rfl

/-- The end of an access of a read is not counted: its beats answer it. -/
theorem State.endAccess_of_read (he : s.fab.entry id = some e) (hkind : e.kind = .rd) (hfin : e.fin = none) :
    s.endAccess id k st d = s.accessEnded id k st d :=
  State.lateOnce_of_open (State.entry_accessEnded he) (by simp [Entry.headerAnswer, State.endedEntry, hfin, hkind])

theorem State.settleGather_of_read (he : s.fab.entry id = some e) (hkind : e.kind = .rd) : s.settleGather id = s := by
  simp only [State.settleGather, he, hkind, ite_self]

/-- An entry but for its mark that it has been counted in time or late. -/
def Entry.uncounted (e : Entry) : Entry := { e with counted := false }

/-- Counting an answer in time or late marks its entry, and changes nothing else of the fabric. -/
theorem State.uncounted_lateOnce (s : State) (id : Nat) :
    (s.lateOnce id).fab.trk.map Entry.uncounted = s.fab.trk.map Entry.uncounted ∧
      (s.lateOnce id).fab = { s.fab with trk := (s.lateOnce id).fab.trk } := by
  unfold State.lateOnce
  split
  · exact ⟨rfl, rfl⟩
  · next e he =>
    split
    · exact ⟨rfl, rfl⟩
    · have hfab : ((s.countLate e).modEntry id fun x => { x with counted := true }).fab =
          s.fab.modEntry id fun x => { x with counted := true } :=
        congrArg (Fab.modEntry · id fun x => { x with counted := true }) (s.countLate_fab e)
      rw [hfab]
      refine ⟨?_, rfl⟩
      rw [Fab.modEntry, List.map_map]
      refine List.map_congr_left fun e _ => ?_
      simp only [Function.comp]
      split <;> rfl

end Sys2Proof.Machine
end

section
/-! ### A read that returns (R471, R599, R656, R658, R718) -/

namespace Sys2Proof.Machine

variable {s : State} {p : Nat} {f : Flight} {e : Entry} {d : Line}

/-- The end of a raw read for a port, but for the counter of stale reads. -/
theorem State.endPortRead_stale (he : s.fab.entry f.eid = some e) (hkind : e.kind = .rd) (hfin : e.fin = none) :
    ∃ t, State.CountsOnly s t ∧ s.endPortRead p f .stale d = t.accessEnded f.eid (keyOf p f.bank f.row f.col) .stale d := by
  refine ⟨if rRounded e.rent then s.stat p 16 (e.windowsAt (keyOf p f.bank f.row f.col) .stale d) else s.stat p 34 1,
    .ite (.count ..) (.count ..), ?_⟩
  have hfab (n : Nat) : (if rRounded e.rent then s.stat p 16 n else s.stat p 34 1).fab = s.fab := by
    split <;> exact State.stat_fab ..
  have het (n : Nat) : (if rRounded e.rent then s.stat p 16 n else s.stat p 34 1).fab.entry f.eid = some e := by rw [hfab]; exact he
  simp only [State.endPortRead, he, reduceCtorEq, decide_false, Bool.false_and, Bool.false_eq_true, if_false, Option.bind_none,
    Option.isSome_none, if_true, State.installScale, Bool.and_false]
  rw [State.endAccess_of_read (het _) hkind hfin, State.settleGather_of_read (State.entry_accessEnded (het _)) hkind]

/-- The end of a read of data planes for a tile port that decodes. -/
theorem State.endPortRead_ok (he : s.fab.entry f.eid = some e) (hkind : e.kind = .rd) (hfin : e.fin = none)
    (hround : rRounded e.rent = false) (hsub : e.sub < 32 ∨ 35 < e.sub)
    (hdata : ((e.accAt (keyOf p f.bank f.row f.col)).getD Acc.reset).scale = false) :
    s.endPortRead p f .ok d = s.accessEnded f.eid (keyOf p f.bank f.row f.col) .ok d := by
  have hwide : (decide (32 ≤ e.sub) && decide (e.sub ≤ 35)) = false := by simp; omega
  have hwin : windowBad e.rent d = false := by rw [windowBad, hround]; rfl
  simp only [State.endPortRead, he, reduceCtorEq, decide_false, Bool.false_and, Bool.false_eq_true, if_false, Option.bind_none,
    Option.isSome_none, hwin, hround, Bool.and_false, State.installScale, hdata, decide_true, Bool.true_and, hwide]
  rw [State.endAccess_of_read he hkind hfin, State.settleGather_of_read (State.entry_accessEnded he) hkind]

/-- The state with the oldest read out of flight. -/
def State.readLanded (s : State) (p : Nat) (rest : List Flight) : State := s.modSch p fun x => { x with flight := rest }

theorem State.island_readLanded (hwf : Tab.wf Slice.reset s.slices = true) (p : Nat) (rest : List Flight) :
    State.Island p { s.slice p with sch := { (s.slice p).sch with flight := rest } } s (s.readLanded p rest) :=
  (State.Island.refl hwf p).modSch fun x => { x with flight := rest }

theorem State.readLanded_frame (s : State) (p : Nat) (rest : List Flight) : Frame [.slices] s (s.readLanded p rest) := s.modSlice_frame ..

section
variable {p : Fin 144} {err : BitVec 576} {rest : List Flight} (hflight : (s.slice p.val).sch.flight = f :: rest)
include hflight

theorem exec_readDataReturn_lacking (h : (s.slice p.val).link.lacks f = true) : exec (.readDataReturn p err) s = .next s := by
  change execReadDataReturn p err s = _
  simp [execReadDataReturn, hflight, h]

variable (hlive : s.islandRuns p.val = true) (hlacks : (s.slice p.val).link.lacks f = false) (huse : f.use = .port)
  (hdue : s.det.mode = .timing → (s.slice p.val).link.lacks f = false → s.returnDue p.val = true)
include hlive hlacks huse hdue

theorem exec_readDataReturn_raw (hraw : f.raw = true) :
    exec (.readDataReturn p err) s = .next ((s.readLanded p.val rest).endPortRead p.val f .stale (dataOf (f.code ^^^ err))) := by
  have hnow : (s.det.mode == .timing && !s.returnDue p.val) = false := by
    cases hm : s.det.mode <;> simp_all
  change execReadDataReturn p err s = _
  simp only [execReadDataReturn, hflight, hlive, hlacks, hnow, huse, hraw, Bool.not_true, Bool.or_self, Bool.false_eq_true, if_false, if_true]
  simp only [State.endRead, huse]
  rfl

theorem exec_readDataReturn_ok (hraw : f.raw = false)
    {r : Decoded} (hr : r = rsDecode (f.code ^^^ err) (s.linkOf p.val f).erasures) (hue : r.ue = false) (hchanged : r.changed = [])
    (hunknown : r.unknown = []) (hwf : Tab.wf Slice.reset s.slices = true) :
    exec (.readDataReturn p err) s = .next ((s.readLanded p.val rest).endPortRead p.val f .ok (dataOf r.code)) := by
  have hnow : (s.det.mode == .timing && !s.returnDue p.val) = false := by
    cases hm : s.det.mode <;> simp_all
  have hlink : (s.readLanded p.val rest).linkOf p.val f = s.linkOf p.val f := by
    rw [State.linkOf, (s.island_readLanded hwf p.val rest).here]
    rfl
  have hdecode (src : Nat) : (s.readLanded p.val rest).decodeBy ((s.readLanded p.val rest).linkOf p.val f) p.val
      (keyOf p.val f.bank f.row f.col) (f.code ^^^ err) src = (r, s.readLanded p.val rest) := by
    simp only [State.decodeBy, hlink, ← hr, hue, hchanged]
    rfl
  change execReadDataReturn p err s = _
  rw [State.readLanded] at hdecode
  simp only [execReadDataReturn, hflight, hlive, hlacks, hnow, huse, hraw, Bool.not_true, Bool.or_self, Bool.false_eq_true, if_false, hdecode,
    hue, hunknown, List.isEmpty_nil, if_true]
  simp only [State.endRead, huse]
  rfl

end

/-- Settles O19: the oldest read leaves the flight and ends its access. -/
theorem readReturned : Obligations.ReadReturned := by
  unfold Obligations.ReadReturned
  intro p err s f rest e hcanon hlive hflight huse he hkind hfin hdue k v r
  obtain ⟨-, -, hwf, -⟩ := hcanon
  have hisland := s.island_readLanded hwf p.val rest
  have hlanded := s.readLanded_frame p.val rest
  refine ⟨exec_readDataReturn_lacking hflight, fun hlacks hraw => ?_,
    fun hlacks hraw hue hchanged hunknown hround hsub hdata => ?_⟩
  · have hexec := exec_readDataReturn_raw (err := err) hflight hlive hlacks huse hdue hraw
    obtain ⟨t, hcounts, heq⟩ := State.endPortRead_stale (s := s.readLanded p.val rest) (p := p.val) (d := dataOf (f.code ^^^ err)) he hkind hfin
    rw [heq] at hexec
    have hends := t.accessEnded_frame f.eid k .stale (dataOf (f.code ^^^ err))
    have hall := hisland.congr ((hends.2 .slices (by decide)).trans (hcounts.frame.2 .slices (by decide)))
    refine ⟨_, hexec, by rw [hall.here], ?_, hall.there, ?_, ?_⟩
    · obtain ⟨tlm, evt, irq, rfl⟩ := hcounts.eq_counting
      rfl
    · exact (Counted.of_frame hlanded (by decide) (by decide)).crossed.trans (hcounts.counted.crossed.trans
        ((t.accessEnded_crossed ..).counted rfl))
    · exact (hlanded.mono (by decide)).trans ((hcounts.frame.mono (by decide)).trans (hends.mono (by decide)))
  · have hexec := exec_readDataReturn_ok (err := err) hflight hlive hlacks huse hdue hraw rfl hue hchanged hunknown hwf
    rw [State.endPortRead_ok (s := s.readLanded p.val rest) he hkind hfin hround hsub hdata] at hexec
    have hends := (s.readLanded p.val rest).accessEnded_frame f.eid k .ok (dataOf r.code)
    have hall := hisland.congr (hends.2 .slices (by decide))
    exact ⟨_, hexec, hall.here, rfl, hall.there, rfl, (hlanded.mono (by decide)).trans (hends.mono (by decide))⟩

end Sys2Proof.Machine
end

section
/-! ### Late charges and the end of writes (R263, R267, R340) -/

namespace Sys2Proof.Machine

variable {s t : State} {id p : Nat} {k : Key} {st : RspStatus} {d : Line}

theorem State.icqSeen_congr (hctl : t.ctl.icqs = s.ctl.icqs) (hsys : t.sys = s.sys) (hdet : t.det = s.det) (q i : Nat) :
    t.icqSeen q i = s.icqSeen q i := by
  simp only [State.icqSeen, State.icqAt, State.ahead, State.icq, State.crossTime, hctl, hsys, hdet]

/-- Between `s` and `t` meters and buckets have been charged: the tracker stays, and counters have moved. -/
structure State.Charged (s t : State) : Prop where
  counted : Counted s t
  frame : Frame [.fab, .ctl, .evt, .mbx] s t
  trk : t.fab.trk = s.fab.trk

theorem State.Charged.refl (s : State) : State.Charged s s := ⟨.refl s, .refl .., rfl⟩

theorem State.charged_lateCharge (s : State) (m svc c : Nat) : State.Charged s (s.lateCharge m svc c) := by
  obtain ⟨x, b, heq⟩ : ∃ x b, s.lateCharge m svc c =
      (((s.settled m svc).setMeter (6 * m + svc) x).setBucket m b).statMeter (6 * m + svc) 3 c := ⟨_, _, rfl⟩
  have hframe : Frame [.fab] s (((s.settled m svc).setMeter (6 * m + svc) x).setBucket m b) :=
    (s.settled_frame m svc).trans ((State.setMeter_frame ..).trans (State.setBucket_frame ..))
  rw [heq]
  exact ⟨(Counted.of_frame hframe (by decide) (by decide)).trans (State.count_counted ..),
    (hframe.mono (by decide)).trans ((State.count_frame ..).mono (by decide)), (congrArg Fab.trk (State.statMeter_fab ..)).trans rfl⟩

theorem State.charged_chargeScale (s : State) (id : Nat) (k : Key) : State.Charged s (s.chargeScale id k) := by
  unfold State.chargeScale
  split
  · exact .refl s
  · split
    · split
      · exact s.charged_lateCharge ..
      · exact .refl s
    · exact .refl s

/-- What the end of an access leaves: the entry's access, a passed word of class 1, and a count. -/
theorem State.endAccess_counted (s : State) (id : Nat) (k : Key) (st : RspStatus) (d : Line) :
    CountedCrossed s (s.endAccess id k st d) :=
  ((s.accessEnded_crossed id k st d).counted rfl).trans (State.lateOnce_counted ..).crossed

theorem State.endAccess_frame (s : State) (id : Nat) (k : Key) (st : RspStatus) (d : Line) :
    Frame [.fab, .ctl, .evt, .mbx] s (s.endAccess id k st d) :=
  ((s.accessEnded_frame ..).mono (by decide)).trans ((State.lateOnce_frame ..).mono (by decide))

/-- But for the marks of lateness the tracker has the access ended, and the rest of the fabric stays. -/
theorem State.endAccess_fab (s : State) (id : Nat) (k : Key) (st : RspStatus) (d : Line) :
    (s.endAccess id k st d).fab.trk.map Entry.uncounted = (s.fab.modEntry id (s.endedEntry k st d)).trk.map Entry.uncounted ∧
      (s.endAccess id k st d).fab = { s.fab with trk := (s.endAccess id k st d).fab.trk } := by
  obtain ⟨htrk, hfab⟩ := (s.accessEnded id k st d).uncounted_lateOnce id
  exact ⟨htrk, hfab⟩

/-- The same from a state that counters, slices, meters and buckets tell apart. -/
theorem State.uncounted_endAccess (htrk : t.fab.trk = s.fab.trk) (hctl : t.ctl.icqs = s.ctl.icqs) (hsys : t.sys = s.sys)
    (hdet : t.det = s.det) (id : Nat) (k : Key) (st : RspStatus) (d : Line) :
    (t.endAccess id k st d).fab.trk.map Entry.uncounted = (s.fab.modEntry id (s.endedEntry k st d)).trk.map Entry.uncounted := by
  rw [(t.endAccess_fab ..).1, Fab.modEntry, htrk]
  simp only [State.endedEntry, State.icqSeen_congr hctl hsys hdet]
  rfl

/-- The end of an access passes no word of class 0. -/
theorem State.icq0_endAccess (s : State) (id : Nat) (k : Key) (st : RspStatus) (d : Line) {i : Nat} (hi : i < 256) :
    (s.endAccess id k st d).icq 0 i = s.icq 0 i := by
  have hctl := (State.lateOnce_counted (s.accessEnded id k st d) id).1
  have hicqs : (s.endAccess id k st d).ctl.icqs = (s.accessEnded id k st d).ctl.icqs := by rw [State.endAccess_eq, hctl]
  rw [State.icq, hicqs]
  exact Tab.get_set_ne _ (by omega)

end Sys2Proof.Machine
end

section
/-! ### WRITE_BUFFER_ENTER (R121, R127, R655) -/

namespace Sys2Proof.Machine

variable {s : State}

/-- The entry of the write buffer that a write makes: its merged bytes under fresh check symbols (R121, R655). -/
abbrev WrItem.buffered (x : WrItem) : WBuf :=
  ⟨x.bank, x.row, x.col, rsEncode (mergeLine (x.merged.getD 0) x.data x.mask), false, x.sub, x.eid⟩

/-- The state with a write moved from the unit to the write buffer. -/
def State.buffer (s : State) (p : Nat) (x : WrItem) : State :=
  s.modDat p fun d => { d with unit := dropFirst (fun y => y == x) d.unit }.wbAdd x.buffered

theorem ChData.fill_wbAdd (d : ChData) (w : WBuf) : (d.wbAdd w).fill = d.fill := by
  unfold ChData.wbAdd
  dsimp only
  split
  · rfl
  · split <;> rfl

theorem exec_writeBufferEnter {p : Fin 144} {x : WrItem} (hlive : s.islandRuns p.val = true) (hheld : (s.slice p.val).sch.held = 0)
    (hnext : s.nextWrite p.val = some x) (hlines : (s.slice p.val).dat.lines = []) :
    exec (.writeBufferEnter p) s = .next ((((s.buffer p.val x).chargeScale x.eid (keyOf p.val x.bank x.row x.col)).endAccess x.eid
      (keyOf p.val x.bank x.row x.col) .ok 0).runFill p.val) := by
  have hline : (s.slice p.val).dat.lineAt x.bank x.row x.col = none := by rw [ChData.lineAt, hlines]; rfl
  have henter : (s.slice p.val).dat.mayEnter x = true := by
    have := List.find?_some hnext
    simp only [Bool.and_eq_true] at this
    exact this.2
  change execWriteBufferEnter p s = _
  simp only [execWriteBufferEnter, hlive, hheld, hnext, hline, henter]
  rfl

/-- Settles O20: the write moves to the write buffer, and its access ends. -/
theorem writeBufferEntered : Obligations.WriteBufferEntered := by
  unfold Obligations.WriteBufferEntered
  intro p s x hcanon hlive hheld hnext hlines hfill k d
  obtain ⟨-, -, hwf, -⟩ := hcanon
  have hisland : State.Island p.val _ s (s.buffer p.val x) := (State.Island.refl hwf p.val).modDat _
  have hcharged := (s.buffer p.val x).charged_chargeScale x.eid k
  have hframe := ((s.buffer p.val x).chargeScale x.eid k).endAccess_frame x.eid k .ok 0
  have hall := hisland.congr ((hframe.2 .slices (by decide)).trans (hcharged.frame.2 .slices (by decide)))
  have hexec := exec_writeBufferEnter hlive hheld hnext hlines
  have hnofill : (((s.buffer p.val x).chargeScale x.eid k).endAccess x.eid k .ok 0).runFill p.val =
      ((s.buffer p.val x).chargeScale x.eid k).endAccess x.eid k .ok 0 := by
    rw [State.runFill, hall.here, ChData.fill_wbAdd]
    exact congrArg (fun l => State.each _ l _) hfill
  rw [hnofill] at hexec
  have hbuffer : Frame [.slices] s (s.buffer p.val x) := s.modSlice_frame ..
  have hcounted : CountedCrossed s ((s.buffer p.val x).chargeScale x.eid k) :=
    (Counted.of_frame hbuffer (by decide) (by decide)).crossed.trans hcharged.counted.crossed
  refine ⟨_, hexec, by rw [hall.here], ?_, ?_, hall.there, hcounted.trans (State.endAccess_counted ..),
    (hbuffer.mono (by decide)).trans ((hcharged.frame.mono (by decide)).trans (hframe.mono (by decide)))⟩
  · exact State.uncounted_endAccess hcharged.trk (by rw [hcharged.counted.1]) (hcharged.frame.2 .sys (by decide))
      (hcharged.frame.2 .det (by decide)) ..
  · rw [State.icq0_endAccess _ _ _ _ _ (by omega), State.icq, hcharged.counted.1]
    rfl

end Sys2Proof.Machine
end

section
/-! ### ACC_PIECE_APPLY (R382, R392 to R399, R936) -/

namespace Sys2Proof.Machine

variable {s t : State} {p : Nat} {x : WrItem} {l : AccLine}

/-- A line once the addends of an access are in it. -/
def AccLine.apply (l : AccLine) (x : WrItem) : AccLine := { l with data := (x.applyLine l.data).1, sub := x.sub, rix := x.rix }

/-- The state with the addends of an access in its line, the most recently used one, and the access off the unit. -/
def State.applied (s : State) (p : Nat) (x : WrItem) (l : AccLine) : State := s.modDat p fun d =>
  { d with lines := (d.dropLine x.bank x.row x.col).lines ++ [l.apply x], unit := dropFirst (fun y => y == x) d.unit }

theorem State.countsOnly_statSlice (s : State) (p slot n : Nat) : State.CountsOnly s (s.statSlice p slot n) := .count ..

/-- What R418 counts of an applied access. -/
def State.countApplied (s : State) (p : Nat) (x : WrItem) (l : AccLine) : State :=
  let r := x.applyLine l.data
  ((((s.statSlice p 9 r.2.1).statSlice p 10 (b2n (x.fetched && s.pieceApplied p x.eid))).statSlice p 13 r.2.2.1).statSlice p 14
    r.2.2.2.1).statSlice p 15 r.2.2.2.2

theorem State.countsOnly_countApplied (s : State) (p : Nat) (x : WrItem) (l : AccLine) : State.CountsOnly s (s.countApplied p x l) :=
  (State.countsOnly_statSlice ..).trans ((State.countsOnly_statSlice ..).trans ((State.countsOnly_statSlice ..).trans
    ((State.countsOnly_statSlice ..).trans (State.countsOnly_statSlice ..))))

theorem exec_accPieceApply_hit {p : Fin 144} (hlive : s.islandRuns p.val = true) (hheld : (s.slice p.val).sch.held = 0)
    (hnext : s.nextAcc p.val = some (x, some l)) : exec (.accPieceApply p) s =
      .next ((((s.applied p.val x l).countApplied p.val x l).endAccess x.eid (keyOf p.val x.bank x.row x.col) .ok 0).runFill p.val) := by
  change execAccPieceApply p s = _
  simp only [execAccPieceApply, hlive, hheld, hnext]
  rfl

/-- The miss read of an access (R393, R936). -/
def WrItem.missRead (x : WrItem) (p : Nat) : WinEnt :=
  { WinEnt.reset with
    eid := x.eid, sub := x.sub, svc := 3, arrival := x.arrival, dl := x.dl, real := x.real, adm := x.eid, use := .accMiss,
    keys := [keyOf p x.bank x.row x.col] }

/-- The state with the access marked as one that waits for a miss read. -/
def State.missed (s : State) (p : Nat) (x : WrItem) : State := s.modDat p fun d =>
  { d with
    miss := d.miss ++ [keyOf p x.bank x.row x.col]
    unit := updFirst (fun y => y == x) (fun y => { y with fetched := false }) d.unit }

/-- The state with a follow-on read that waits for a window entry. -/
def State.addWaiting (s : State) (p : Nat) (w : WinEnt) : State := s.modSch p fun y => { y with waiting := y.waiting ++ [w] }

theorem exec_accPieceApply_miss {p : Fin 144} (hlive : s.islandRuns p.val = true) (hheld : (s.slice p.val).sch.held = 0)
    (hnext : s.nextAcc p.val = some (x, none)) : exec (.accPieceApply p) s =
      .next ((((s.missed p.val x).statSlice p.val 11 1).addWaiting p.val (x.missRead p.val)).fillWaiting p.val) := by
  change execAccPieceApply p s = _
  simp only [execAccPieceApply, hlive, hheld, hnext]
  rfl

theorem filter_singleton_cases {α : Type} (f : α → Bool) (w : α) : [w].filter f = [] ∨ [w].filter f = [w] := by
  cases h : f w <;> simp [h]

theorem State.fillOneWaiting_of_single {w : WinEnt} (h : (s.slice p).sch.waiting = [w]) :
    s.fillOneWaiting p = s ∨ s.fillOneWaiting p = s.enterWaiting p w := by
  have hfit (f : WinEnt → Bool) (lt : WinEnt → WinEnt → Bool) :
      least lt ([w].filter f) = none ∨ least lt ([w].filter f) = some w :=
    (filter_singleton_cases f w).imp (fun h => by rw [h]; rfl) fun h => by rw [h]; rfl
  unfold State.fillOneWaiting
  simp only [h]
  split
  · exact .inl rfl
  · next v hv =>
    rcases hfit _ _ with hnone | hsome
    · rw [hnone] at hv
      cases hv
    · rw [hsome] at hv
      cases hv
      exact .inr rfl

/-- A follow-on read of the island's own takes a window entry. -/
theorem State.enterWaiting_own {w : WinEnt} (hown : w.use ≠ .replica) : ∃ r, s.enterWaiting p w =
    (s.modSch p fun x => { x with waiting := dropFirst (fun y => y == w) x.waiting }).insertWin p { w with rsv := r } :=
  ⟨_, if_neg (by simpa using hown)⟩

theorem State.runFill_of_none (h : (s.slice p).dat.fill = []) : s.runFill p = s := by
  rw [State.runFill, h]
  rfl

/-- Settles O21: a hit is applied to its line, a miss makes its read, which takes a window entry or waits for one. -/
theorem accumulationApplied : Obligations.AccumulationApplied := by
  unfold Obligations.AccumulationApplied
  intro p s x hcanon hlive hheld k d
  obtain ⟨-, -, hwf, -⟩ := hcanon
  refine ⟨?_, fun hnext hwait => ?_⟩
  · intro l hnext hfill r
    have hisland : State.Island p.val _ s (s.applied p.val x l) := (State.Island.refl hwf p.val).modDat _
    have happlied : Frame [.slices] s (s.applied p.val x l) := s.modSlice_frame ..
    have hcounts := (s.applied p.val x l).countsOnly_countApplied p.val x l
    have hends := ((s.applied p.val x l).countApplied p.val x l).endAccess_frame x.eid k .ok 0
    have hall := hisland.congr ((hends.2 .slices (by decide)).trans (hcounts.frame.2 .slices (by decide)))
    have hexec := exec_accPieceApply_hit hlive hheld hnext
    rw [State.runFill_of_none (by rw [hall.here]; exact hfill)] at hexec
    have hfab : ((s.applied p.val x l).countApplied p.val x l).fab = s.fab := hcounts.frame.2 .fab (by decide)
    refine ⟨_, hexec, by rw [hall.here]; rfl, bne_iff_ne, ?_, ?_, hall.there,
      (Counted.of_frame happlied (by decide) (by decide)).crossed.trans (hcounts.counted.crossed.trans (State.endAccess_counted ..)),
      (happlied.mono (by decide)).trans ((hcounts.frame.mono (by decide)).trans (hends.mono (by decide)))⟩
    · exact State.uncounted_endAccess (congrArg Fab.trk hfab) (by rw [hcounts.counted.1]; rfl) (hcounts.frame.2 .sys (by decide))
        (hcounts.frame.2 .det (by decide)) ..
    · have := (((s.applied p.val x l).countApplied p.val x l).endAccess_fab x.eid k .ok 0).2
      rw [hfab] at this
      exact this
  · have hmissed : Frame [.slices] s (s.missed p.val x) := s.modSlice_frame ..
    have hcounts := (s.missed p.val x).countsOnly_statSlice p.val 11 1
    have hwaits : Frame [.slices] _ (((s.missed p.val x).statSlice p.val 11 1).addWaiting p.val (x.missRead p.val)) := State.modSlice_frame ..
    have hisland : State.Island p.val _ s (((s.missed p.val x).statSlice p.val 11 1).addWaiting p.val (x.missRead p.val)) :=
      (((State.Island.refl hwf p.val).modDat fun d => { d with
        miss := d.miss ++ [k], unit := updFirst (fun y => y == x) (fun y => { y with fetched := false }) d.unit }).congr
          (hcounts.frame.2 .slices (by decide))).modSch fun y => { y with waiting := y.waiting ++ [x.missRead p.val] }
    have hcounted : Counted s (((s.missed p.val x).statSlice p.val 11 1).addWaiting p.val (x.missRead p.val)) :=
      (Counted.of_frame hmissed (by decide) (by decide)).trans (hcounts.counted.trans (Counted.of_frame hwaits (by decide) (by decide)))
    have hframe : Frame [.slices, .ctl, .evt, .mbx] s (((s.missed p.val x).statSlice p.val 11 1).addWaiting p.val (x.missRead p.val)) :=
      (hmissed.mono (by decide)).trans ((hcounts.frame.mono (by decide)).trans (hwaits.mono (by decide)))
    have hexec := exec_accPieceApply_miss hlive hheld hnext
    generalize ((s.missed p.val x).statSlice p.val 11 1).addWaiting p.val (x.missRead p.val) = u at *
    have hwaiting : (u.slice p.val).sch.waiting = [x.missRead p.val] := by rw [hisland.here, hwait]; rfl
    rw [State.fillWaiting, hwaiting, State.each_cons, State.each_nil] at hexec
    rcases u.fillOneWaiting_of_single hwaiting with hstays | henters
    · rw [hstays] at hexec
      exact ⟨u, x.missRead p.val, hexec, by rw [hisland.here], rfl, rfl, rfl, rfl, rfl, rfl, rfl,
        .inl ⟨hwaiting, by rw [hisland.here]⟩, hisland.there, hcounted, hframe⟩
    · obtain ⟨r, hr⟩ := State.enterWaiting_own (s := u) (p := p.val) (w := x.missRead p.val) (by simp [WrItem.missRead])
      rw [henters, hr] at hexec
      have hall := (hisland.modSch fun y => { y with waiting := dropFirst (fun y => y == x.missRead p.val) y.waiting }).insertWin
        { x.missRead p.val with rsv := r }
      have hmore : Frame [.slices] u ((u.modSch p.val fun y =>
          { y with waiting := dropFirst (fun y => y == x.missRead p.val) y.waiting }).insertWin p.val { x.missRead p.val with rsv := r }) :=
        (State.modSlice_frame ..).trans (State.modSlice_frame ..)
      refine ⟨_, { x.missRead p.val with rsv := r, seq := (s.slice p.val).sch.nextSeq }, hexec, by rw [hall.here], rfl, rfl, rfl, rfl,
        rfl, rfl, rfl, .inr ⟨?_, by rw [hall.here]⟩, hall.there,
        hcounted.trans (Counted.of_frame hmore (by decide) (by decide)), hframe.trans (hmore.mono (by decide))⟩
      rw [hall.here, hwait]
      simp [dropFirst]

end Sys2Proof.Machine
end

section
/-! ### The write buffer (R121, R127, R935) -/

namespace Sys2Proof.Machine

variable {α : Type} {p q : α → Bool} {g : α → α}

theorem find?_updFirst_self (hg : ∀ x, p x = true → p (g x) = true) (l : List α) :
    (updFirst p g l).find? p = (l.find? p).map g := by
  induction l with
  | nil => rfl
  | cons a l ih =>
    by_cases ha : p a = true
    · simp [updFirst, ha, hg a ha]
    · simp [updFirst, ha, ih]

theorem find?_updFirst_ne (hq : ∀ x, p x = true → q x = false) (hg : ∀ x, p x = true → q (g x) = false) (l : List α) :
    (updFirst p g l).find? q = l.find? q := by
  induction l with
  | nil => rfl
  | cons a l ih =>
    by_cases ha : p a = true
    · simp [updFirst, ha, hq a ha, hg a ha]
    · simp [updFirst, ha, List.find?_cons, ih]

theorem length_updFirst (l : List α) : (updFirst p g l).length = l.length := by
  induction l with
  | nil => rfl
  | cons a l ih =>
    by_cases ha : p a = true
    · simp [updFirst, ha]
    · simp [updFirst, ha, ih]

variable {d : ChData} {w : WBuf}

theorem WBuf.isAt_iff {x : WBuf} {b r c : Nat} : x.isAt b r c = true ↔ x.bank = b ∧ x.row = r ∧ x.col = c := by
  simp [WBuf.isAt, and_assoc]

/-- With no write that waits for an entry, a write merges into the entry of its access, or takes one of its own. -/
theorem ChData.wb_wbAdd (hfow : d.fow = []) :
    (d.wbAdd w).wb = if d.wb.any fun x => x.isAt w.bank w.row w.col then wbMerge d.wb w else d.wb ++ [w] := by
  unfold ChData.wbAdd
  dsimp only
  rw [hfow]
  by_cases h : (d.wb.any fun x => x.isAt w.bank w.row w.col) = true
  · rw [if_pos h, if_pos h]
  · rw [if_neg h, if_neg h]
    rfl

theorem ChData.fow_wbAdd (hfow : d.fow = []) : (d.wbAdd w).fow = [] := by
  unfold ChData.wbAdd
  dsimp only
  rw [hfow]
  split <;> exact hfow

@[simp] theorem ChData.lines_wbAdd : (d.wbAdd w).lines = d.lines := by
  unfold ChData.wbAdd
  dsimp only
  split
  · rfl
  · split <;> rfl

theorem ChData.length_wbAdd (hfow : d.fow = []) : (d.wbAdd w).wb.length ≤ d.wb.length + 1 := by
  rw [ChData.wb_wbAdd hfow]
  split
  · rw [wbMerge, length_updFirst]
    omega
  · simp

/-- The buffer holds the write at its place. -/
theorem ChData.find?_wbAdd_self (hfow : d.fow = []) :
    ∃ x, (d.wbAdd w).wb.find? (fun x => x.isAt w.bank w.row w.col) = some x ∧ x.code = w.code ∧ x.raw = w.raw := by
  have hw : w.isAt w.bank w.row w.col = true := by simp [WBuf.isAt]
  rw [ChData.wb_wbAdd hfow]
  split
  · next hany =>
    obtain ⟨y, hy, hat⟩ := List.any_eq_true.1 hany
    obtain ⟨z, hz⟩ := Option.isSome_iff_exists.1
      (List.find?_isSome (p := fun x : WBuf => x.isAt w.bank w.row w.col) |>.2 ⟨y, hy, hat⟩)
    rw [wbMerge, find?_updFirst_self (p := fun x : WBuf => x.isAt w.bank w.row w.col)
      (g := fun x => { w with ix := min x.ix w.ix }) fun x _ => hw, hz]
    exact ⟨_, rfl, rfl, rfl⟩
  · next hany =>
    rw [List.find?_append, List.find?_eq_none.2 fun x hx hat => hany (List.any_eq_true.2 ⟨x, hx, hat⟩)]
    exact ⟨w, by simp [hw], rfl, rfl⟩

/-- Elsewhere it holds what it held. -/
theorem ChData.find?_wbAdd_ne {b r c : Nat} (hfow : d.fow = []) (hne : w.isAt b r c = false) :
    (d.wbAdd w).wb.find? (fun x => x.isAt b r c) = d.wb.find? fun x => x.isAt b r c := by
  have hother (x : WBuf) (hx : x.isAt w.bank w.row w.col = true) : x.isAt b r c = false := by
    obtain ⟨hb, hr, hc⟩ := WBuf.isAt_iff.1 hx
    rw [WBuf.isAt, hb, hr, hc]
    exact hne
  rw [ChData.wb_wbAdd hfow]
  split
  · exact find?_updFirst_ne (g := fun x => { w with ix := min x.ix w.ix }) hother (fun _ _ => hne) _
  · rw [List.find?_append]
    simp [hne]

/-- A follow-on write that finds room enters at once. -/
theorem ChData.wbFollow_of_room (hfow : d.fow = []) (hroom : d.wb.length < 64) : d.wbFollow w = d.wbAdd w :=
  if_pos (by simp [ChData.wbRoom, hroom, hfow])

theorem ChData.heldAt_wbAdd_ne {b r c : Nat} (hfow : d.fow = []) (hne : w.isAt b r c = false) :
    (d.wbAdd w).heldAt b r c = d.heldAt b r c := by
  have hbuf : (d.wbAdd w).bufferedAt b r c = d.bufferedAt b r c := by
    rw [ChData.bufferedAt, ChData.fow_wbAdd hfow, ChData.bufferedAt, hfow]
    exact congrArg _ (ChData.find?_wbAdd_ne hfow hne)
  rw [ChData.heldAt, hbuf, ChData.lineAt, ChData.lines_wbAdd]
  rfl

end Sys2Proof.Machine
end

section
/-! ### The hot-row tracker (R518 to R529) -/

namespace Sys2Proof.Machine

variable {s t u : State} {p : Nat}

theorem State.Island.with_rf (h : State.Island p (s.slice p) s t) : State.Island p { s.slice p with rf := (t.slice p).rf } s t :=
  ⟨h.wf, by rw [h.here], h.there⟩

/-- Between `s` and `t` activations of slice `p` have counted in its tracker, which may throttle (R518, R522, R529). -/
structure State.Tracked (p : Nat) (s t : State) : Prop where
  island : Tab.wf Slice.reset s.slices = true → State.Island p { s.slice p with rf := (t.slice p).rf } s t
  fab : t.fab = { s.fab with thrEnd := t.fab.thrEnd }
  sys : t.sys = { s.sys with free := t.sys.free }
  counted : CountedCrossed s t
  frame : Frame [.sys, .slices, .fab, .ctl, .evt, .mbx] s t

namespace State.Tracked

theorem refl (p : Nat) (s : State) : Tracked p s s := ⟨fun h => .refl h p, rfl, rfl, ⟨rfl, rfl⟩, .refl ..⟩

theorem trans (h1 : Tracked p s t) (h2 : Tracked p t u) : Tracked p s u where
  island h := by
    have i1 := h1.island h
    have i2 := h2.island i1.wf
    refine ⟨i2.wf, ?_, fun j hj => (i2.there j hj).trans (i1.there j hj)⟩
    rw [i2.here, i1.here]
  fab := by rw [h2.fab, h1.fab]
  sys := by rw [h2.sys, h1.sys]
  counted := h1.counted.trans h2.counted
  frame := h1.frame.trans h2.frame

theorem of_frame (hf : Frame [.ctl, .evt, .mbx] s t) (hc : CountedCrossed s t) : Tracked p s t :=
  ⟨fun h => (State.Island.of_slices h p (hf.2 .slices (by decide))).with_rf, by rw [hf.2 .fab (by decide)], by rw [hf.2 .sys (by decide)],
    hc, hf.mono (by decide)⟩

theorem of_counts (h : State.CountsOnly s t) : Tracked p s t := of_frame h.frame h.counted.crossed

theorem modRf (s : State) (p : Nat) (f : Refr → Refr) : Tracked p s (s.modRf p f) where
  island h := by
    have := (State.Island.refl h p).modSlice fun x => { x with rf := f x.rf }
    exact ⟨this.wf, by rw [State.modRf, this.here], this.there⟩
  fab := rfl
  sys := rfl
  counted := ⟨rfl, rfl⟩
  frame := (s.modSlice_frame ..).mono (by decide)

theorem nextFree (s : State) (p : Nat) : Tracked p s s.nextFree where
  island h := (State.Island.of_slices (t := s.nextFree) h p rfl).with_rf
  fab := rfl
  sys := rfl
  counted := ⟨rfl, rfl⟩
  frame := (s.modSys_frame fun y => { y with free := y.free + 1 } : Frame _ s s.nextFree).mono (by decide)

theorem throttle (s : State) (p : Nat) (thr : Tab Nat) : Tracked p s (s.modFab fun f => { f with thrEnd := thr }) where
  island h := (State.Island.of_slices (t := s.modFab fun f => { f with thrEnd := thr }) h p rfl).with_rf
  fab := rfl
  sys := rfl
  counted := ⟨rfl, rfl⟩
  frame := (s.modFab_frame _).mono (by decide)

theorem report (s : State) (p : Nat) (e : Ev) (unit detail : Nat) : Tracked p s (s.report p e unit detail) :=
  of_frame (State.reportBy_frame ..) (State.reportBy_countedCrossed ..)

theorem ite {c : Prop} [Decidable c] (h1 : Tracked p s t) (h2 : Tracked p s u) : Tracked p s (if c then t else u) := by
  split
  · exact h1
  · exact h2

theorem becomeHot (s : State) (p i : Nat) (x : HotRow) : Tracked p s (s.becomeHot p i x) := by
  unfold State.becomeHot
  refine (nextFree s p).trans ((modRf ..).trans ((of_counts (State.countsOnly_statSlice ..)).trans (.trans (.ite ?_ (.refl ..)) (.report ..))))
  exact (throttle ..).trans (of_counts (State.countsOnly_statSlice ..))

theorem track (s : State) (p i row k : Nat) : Tracked p s (s.track p i row k) := by
  unfold State.track
  dsimp only
  split
  · exact .ite ((modRf ..).trans (.becomeHot ..)) (.modRf ..)
  · exact .modRf ..

theorem workAct (s : State) (p i row k : Nat) : Tracked p s (s.workAct p i row k) :=
  .ite (.refl ..) ((of_counts (State.countsOnly_statSlice ..)).trans (.track ..))

end State.Tracked

end Sys2Proof.Machine
end

section
/-! ### RESEAL_ROW (R470 to R473, R485) -/

namespace Sys2Proof.Machine

variable {s t : State} {p b r n : Nat} {cause : Nat}

/-- The symbols of an access as the island holds them, or else as the arrays do. -/
def State.held (s : State) (p b r i : Nat) : Code :=
  match (s.slice p).dat.heldAt b r i with
  | some x => x.1
  | none => s.code (keyOf p b r i)

/-- The write by which a reseal puts an access back under fresh check symbols (R472). -/
def State.resealed (s : State) (p b r cause i : Nat) : WBuf := ⟨b, r, i, rsEncode (dataOf (s.held p b r i)), false, 43, cause⟩

/-- One access of a reseal: into the write buffer, or after the writes that wait for it. -/
def State.resealOne (s : State) (p b r cause i : Nat) : State := s.modDat p fun d => d.wbFollow (s.resealed p b r cause i)

/-- Between `s` and `t` the accesses of a row below `n` have been resealed into the write buffer. -/
structure State.Resealed (p b r n : Nat) (s t : State) : Prop where
  island : State.Island p { s.slice p with dat := (t.slice p).dat } s t
  frame : Frame [.slices] s t
  fow : (t.slice p).dat.fow = []
  room : (t.slice p).dat.wb.length ≤ (s.slice p).dat.wb.length + n
  done : ∀ i, i < n → ∃ w, (t.slice p).dat.wb.find? (fun x => x.isAt b r i) = some w ∧
    w.code = rsEncode (dataOf (s.held p b r i)) ∧ w.raw = false
  todo : ∀ i, n ≤ i → t.held p b r i = s.held p b r i

theorem State.Resealed.step (h : State.Resealed p b r n s t) (hroom : (s.slice p).dat.wb.length + n < 64) :
    State.Resealed p b r (n + 1) s (t.resealOne p b r cause n) := by
  have hadd : (t.slice p).dat.wbFollow (t.resealed p b r cause n) = (t.slice p).dat.wbAdd (t.resealed p b r cause n) :=
    ChData.wbFollow_of_room h.fow (by have := h.room; omega)
  have hisland : State.Island p _ s (t.resealOne p b r cause n) := h.island.modDat fun d => d.wbFollow (t.resealed p b r cause n)
  have hdat : ((t.resealOne p b r cause n).slice p).dat = (t.slice p).dat.wbAdd (t.resealed p b r cause n) := by
    rw [hisland.here]
    exact hadd
  have hne (i : Nat) (hi : i ≠ n) : (t.resealed p b r cause n).isAt b r i = false := by
    simp [State.resealed, WBuf.isAt, Ne.symm hi]
  have hcode (k : Key) : (t.resealOne p b r cause n).code k = t.code k := rfl
  refine ⟨⟨hisland.wf, by rw [hisland.here], hisland.there⟩, h.frame.trans (State.modSlice_frame ..), ?_, ?_, ?_, ?_⟩
  · rw [hdat]
    exact ChData.fow_wbAdd h.fow
  · rw [hdat]
    have := ChData.length_wbAdd (w := t.resealed p b r cause n) h.fow
    have := h.room
    omega
  · intro i hi
    rw [hdat]
    by_cases hin : i = n
    · subst hin
      have := ChData.find?_wbAdd_self (w := t.resealed p b r cause i) h.fow
      rw [State.resealed, h.todo i (le_refl i)] at this
      rw [State.resealed, h.todo i (le_refl i)]
      exact this
    · rw [ChData.find?_wbAdd_ne h.fow (hne i hin)]
      exact h.done i (by omega)
  · intro i hi
    rw [← h.todo i (by omega), State.held, hdat, ChData.heldAt_wbAdd_ne h.fow (hne i (by omega)), hcode]
    rfl

/-- All accesses of a reseal find room in a write buffer of which half is free. -/
theorem State.resealed_each (hwf : Tab.wf Slice.reset s.slices = true) (hfow : (s.slice p).dat.fow = [])
    (hroom : (s.slice p).dat.wb.length ≤ 32) (n : Nat) (hn : n ≤ 32) :
    State.Resealed p b r n s (s.each (List.range n) fun s i => s.resealOne p b r cause i) := by
  induction n with
  | zero => exact ⟨.refl hwf p, .refl .., hfow, le_refl _, fun i hi => absurd hi (Nat.not_lt_zero i), fun _ _ => rfl⟩
  | succ n ih =>
    rw [List.range_succ, State.each, List.foldl_append]
    exact (ih (by omega)).step (by omega)

theorem State.resealRow_eq (s : State) (p b r cause : Nat) : s.resealRow p b r cause =
    ((((s.each (List.range 32) fun s i => s.resealOne p b r cause i).statSlice p 33 1).workAct p b r 43).resealDone p b r) := rfl

/-- With no write that waits for an entry and no launch active on the bank, the row's stale bit clears (R470, R473). -/
theorem State.resealDone_clears {c : Nat} (hchan : s.stk.chanOf p = some c) (hstale : s.fab.isStale c b r = true)
    (hfow : (s.slice p).dat.fow = []) (hidle : s.launchActive c b = false) :
    s.resealDone p b r = s.modFab fun f => f.clearStale c b r := by
  have hseal : (s.slice p).dat.sealing b r = false := by rw [ChData.sealing, hfow]; rfl
  simp only [State.resealDone, hchan, hstale, hseal, hidle]
  rfl

theorem State.resealCheck_idle (h : s.mbx.run = none) : s.resealCheck = s := by simp only [State.resealCheck, h]

theorem State.readBit_of_sound (h : s.fab.staleBad = []) (c b r : Nat) : s.readBit c b r = s := if_neg (by simp [h])

theorem exec_resealRow {c : Fin 128} {b : Fin 32} {r : Fin 16384} {x : WinEnt} (hrun : s.mbx.run = none)
    (hslice : s.stk.sliceOf c.val r.val = some p) (hlive : s.sliceLive p = true) (hheld : (s.slice p).sch.held = 0)
    (hstale : s.fab.isStale c.val b.val r.val = true)
    (hneed : s.resealFor p (fun k => keyBank k == b.val && keyRow k == r.val) = some x) (hslot : s.resealSlot p (some x) = true)
    (hloan : ((s.slice p).bt.bank b.val).loan = false) (hfow : (s.slice p).dat.fow = [])
    (hrep : s.rowInRepair (keyOf p b.val r.val 0) = false) (hspaced : s.workSpaced p b.val r.val = false) (hbad : s.fab.staleBad = []) :
    exec (.resealRow c b r) s = .next ((s.resealRow p b.val r.val x.eid).resealCheck) := by
  have hseal : (s.slice p).dat.sealing b.val r.val = false := by rw [ChData.sealing, hfow]; rfl
  have hnext : s.resealNext = none := by simp only [State.resealNext, hrun]
  change execResealRow c b r s = _
  simp only [execResealRow, hslice, State.readBit_of_sound hbad, hnext, hlive, hheld, hstale, hneed, hslot, hloan, hrep, hspaced, hseal,
    Bool.not_true, Bool.or_false, ne_eq, not_true_eq_false, decide_false, Option.none_beq_some, Bool.false_and, Bool.false_eq_true,
    if_false]

/-- Settles O22: the row's accesses go through the write buffer, its activation counts, and its stale bit clears. -/
theorem rowResealed : Obligations.RowResealed := by
  unfold Obligations.RowResealed
  intro c b r s p x hcanon hrun hslice hchan hlive hheld hstale hneed hslot hloan hidle hfow hroom hrep hspaced hbad
  obtain ⟨-, -, hwf, -⟩ := hcanon
  have hexec := exec_resealRow hrun hslice hlive hheld hstale hneed hslot hloan hfow hrep hspaced hbad
  have hseal := State.resealed_each (p := p) (b := b.val) (r := r.val) (cause := x.eid) hwf hfow hroom 32 (le_refl _)
  rw [State.resealRow_eq] at hexec
  generalize (s.each (List.range 32) fun s i => s.resealOne p b.val r.val x.eid i) = u at *
  have htrack : State.Tracked p u ((u.statSlice p 33 1).workAct p b.val r.val 43) :=
    (State.Tracked.of_counts (State.countsOnly_statSlice ..)).trans (.workAct ..)
  generalize (u.statSlice p 33 1).workAct p b.val r.val 43 = v at *
  have hisland := htrack.island hseal.island.wf
  have hdat : (v.slice p).dat = (u.slice p).dat := by rw [hisland.here]
  have hfab : v.fab = { s.fab with thrEnd := v.fab.thrEnd } := by rw [htrack.fab, hseal.frame.2 .fab (by decide)]
  have hstk : v.stk = s.stk := (htrack.frame.2 .stk (by decide)).trans (hseal.frame.2 .stk (by decide))
  have hdone : v.resealDone p b.val r.val = v.modFab fun f => f.clearStale c.val b.val r.val :=
    State.resealDone_clears (by rw [hstk]; exact hchan) (by rw [hfab]; exact hstale) (by rw [hdat]; exact hseal.fow)
      (by rw [State.launchActive, hfab]; exact hidle)
  have hmbx : (v.modFab fun f => f.clearStale c.val b.val r.val).mbx.run = none := by
    change v.mbx.run = none
    rw [htrack.counted.2, hseal.frame.2 .mbx (by decide)]
    exact hrun
  rw [hdone, State.resealCheck_idle hmbx] at hexec
  have hclear := v.modFab_frame fun f => f.clearStale c.val b.val r.val
  refine ⟨_, hexec, ?_, ?_, ?_, ?_, ?_, ?_⟩
  · change v.fab.clearStale _ _ _ = _
    rw [hfab]
    rfl
  · change v.sys = _
    rw [htrack.sys, hseal.frame.2 .sys (by decide)]
    rfl
  · intro i hi
    obtain ⟨w, hfind, hcode, hraw⟩ := hseal.done i hi
    rw [show ((v.modFab fun f => f.clearStale c.val b.val r.val).slice p).dat = (u.slice p).dat from hdat]
    exact ⟨w, List.mem_of_find?_eq_some hfind, List.find?_some (p := fun w : WBuf => w.isAt b.val r.val i) hfind, hraw, hcode⟩
  · exact fun j hj => (hisland.there j hj).trans (hseal.island.there j hj)
  · exact (Counted.of_frame hseal.frame (by decide) (by decide)).crossed.trans (htrack.counted.trans
      (Counted.of_frame hclear (by decide) (by decide)).crossed)
  · exact (hseal.frame.mono (by decide)).trans (htrack.frame.trans (hclear.mono (by decide)))

end Sys2Proof.Machine
end

section
/-! ### Responses (R87, R91, R108 to R116, R160) -/

namespace Sys2Proof.Machine

variable {s t : State} {e : Entry} {k : Nat}

/-- A part that is as before leaves the parts that may differ. -/
theorem Frame.without {ps qs : List Part} (h : Frame ps s t) (p : Part) (hp : p.same s t) (hqs : ∀ q, q ∉ qs → q ≠ p → q ∉ ps) :
    Frame qs s t :=
  ⟨h.1, fun q hq => if hqp : q = p then hqp ▸ hp else h.2 q (hqs q hq hqp)⟩

/-- Between `s` and `t` port `k` has come to hold `x`, and no other port has changed. -/
structure State.AtPort (k : Nat) (x : Port) (s t : State) : Prop where
  wf : Tab.wf Port.reset t.ports = true
  here : t.port k = x
  there : ∀ j, j ≠ k → t.port j = s.port j

namespace State.AtPort

variable {u : State} {x : Port}

theorem of_ports (h : Tab.wf Port.reset s.ports = true) (k : Nat) (hs : t.ports = s.ports) : AtPort k (s.port k) s t :=
  ⟨by rw [hs]; exact h, State.port_congr hs k, fun j _ => State.port_congr hs j⟩

theorem modPort (h : AtPort k x s t) (f : Port → Port) : AtPort k (f x) s (t.modPort k f) :=
  ⟨t.modPort_wf h.wf .., by rw [State.port_modPort h.wf, h.here], fun j hj => (State.port_modPort_ne _ _ hj).trans (h.there j hj)⟩

theorem congr (h : AtPort k x s t) (hu : u.ports = t.ports) : AtPort k x s u :=
  ⟨by rw [hu]; exact h.wf, (State.port_congr hu k).trans h.here, fun j hj => (State.port_congr hu j).trans (h.there j hj)⟩

theorem driveRsp (h : AtPort k x s t) (data header : Nat) : AtPort k { x with
    rsp := BitVec.ofNat 2096 (data + header * (if isTile k then 2 ^ 2048 else 2 ^ 256))
    rspValid := true
    rspCrd := x.rspCrd - 1 } s (t.driveRsp k data header) :=
  h.modPort fun p => { p with
    rsp := BitVec.ofNat 2096 (data + header * (if isTile k then 2 ^ 2048 else 2 ^ 256)), rspValid := true, rspCrd := p.rspCrd - 1 }

end State.AtPort

/-- The requests that take write data have all of it, or have no access to make. -/
abbrev State.Paid (s : State) (e : Entry) : Prop := ∀ x, e.takes (s.unitsOf e) = some x → x.2 ≤ e.wdat.length ∨ e.accs = []

theorem State.Paid.congr (h : s.Paid e) (hblp : t.blp = s.blp) : t.Paid e := by
  rw [State.Paid, State.unitsOf, hblp]
  exact h

/-- An entry that is owed no more write data leaves the tracker, and nothing else happens (R91). -/
theorem State.retire_of_paid (h : s.Paid e) : s.retire e = s.freeEntry e.id := by
  unfold State.retire
  dsimp only
  split
  · rfl
  · next d beats htakes =>
    exact if_pos (by simpa using h _ htakes)

theorem State.feed_plain (s : State) (k d : Nat) (a : DgAcc) (addr v n : Nat) : s.feed k false d a addr v n = (s, a) := rfl

theorem State.feedEnd_plain (s : State) (k d : Nat) (a : DgAcc) : s.feedEnd k false d a = s := by
  cases h : a.block <;> simp [State.feedEnd, h]

/-- Between `s` and `t` bytes have joined digest streams, with the counts of that (R723). -/
structure State.Digested (s t : State) : Prop where
  counted : Counted s t
  frame : Frame [.det, .ctl, .evt, .mbx] s t

theorem State.Digested.refl (s : State) : State.Digested s s := ⟨.refl s, .refl ..⟩

theorem State.digested_contribute (s : State) (i d : Nat) (x : Nat × BitVec 64 × Nat) : State.Digested s (s.contribute i d x) := by
  unfold State.contribute
  exact ⟨(Counted.of_frame (s.modDet_frame _) (by decide) (by decide)).trans (State.count_counted ..),
    ((s.modDet_frame _).mono (by decide)).trans ((State.count_frame ..).mono (by decide))⟩

theorem State.digested_feedEnd (s : State) (k : Nat) (dig : Bool) (d : Nat) (a : DgAcc) : State.Digested s (s.feedEnd k dig d a) := by
  unfold State.feedEnd
  split
  · exact s.digested_contribute ..
  · exact .refl s

theorem State.digested_closeDelivered (s : State) (e : Entry) : State.Digested s (s.closeDelivered e) := by
  unfold State.closeDelivered
  split
  · exact s.digested_feedEnd ..
  · exact s.digested_feedEnd ..
  · exact s.digested_feedEnd ..
  all_goals exact .refl s

theorem State.closeDelivered_plain (h : e.req.digest = false) : s.closeDelivered e = s := by
  unfold State.closeDelivered
  rw [h]
  simp only [State.feedEnd_plain]
  split <;> rfl

/-- A response is over: its entry is free, its port drives another one next. -/
structure State.Over (e : Entry) (s t : State) : Prop where
  port : Tab.wf Port.reset s.ports = true → t.port e.sub = { s.port e.sub with cur := none }
  others : ∀ j, j ≠ e.sub → t.port j = s.port j
  fab : t.fab = { s.fab with trk := s.fab.trk.filter fun x => x.id != e.id }
  plain : e.req.digest = false → t.det = s.det
  counted : Counted s t
  frame : Frame [.ports, .fab, .det, .ctl, .evt, .mbx] s t

theorem State.over_rspOver (h : s.Paid e) : State.Over e s (s.rspOver e) := by
  have hlate : Counted s (if e.counted then s else s.countLate e) ∧ Frame [.ctl, .evt, .mbx] s (if e.counted then s else s.countLate e) := by
    split
    · exact ⟨.refl s, .refl ..⟩
    · exact ⟨s.countLate_counted e, s.countLate_frame e⟩
  have hrsp : s.rspOver e = (((if e.counted then s else s.countLate e).closeDelivered e).retire e).modPort e.sub
    fun p => { p with cur := none } := rfl
  obtain ⟨hcounted, hframe⟩ := hlate
  generalize (if e.counted then s else s.countLate e) = u at *
  have hdig := u.digested_closeDelivered e
  have hpaid : (u.closeDelivered e).Paid e := h.congr ((hdig.frame.2 .blp (by decide)).trans (hframe.2 .blp (by decide)))
  have hplain : e.req.digest = false → (u.closeDelivered e).det = s.det := fun hd => by
    rw [State.closeDelivered_plain hd]
    exact hframe.2 .det (by decide)
  generalize u.closeDelivered e = v at *
  have hports : v.ports = s.ports := (hdig.frame.2 .ports (by decide)).trans (hframe.2 .ports (by decide))
  have hfab : v.fab = s.fab := (hdig.frame.2 .fab (by decide)).trans (hframe.2 .fab (by decide))
  have hfree : Frame [.fab] v (v.freeEntry e.id) := v.modFab_frame _
  rw [State.retire_of_paid hpaid] at hrsp
  have hcur := (v.freeEntry e.id).modPort_frame e.sub fun p => { p with cur := none }
  rw [hrsp]
  refine ⟨fun hwf => ?_, fun j hj => ?_, ?_, hplain, ?_, ?_⟩
  · rw [State.port_modPort (by rw [← hports] at hwf; exact hwf), State.port_congr (hfree.2 .ports (by decide)), State.port_congr hports]
  · rw [State.port_modPort_ne _ _ hj, State.port_congr (hfree.2 .ports (by decide)), State.port_congr hports]
  · change { v.fab with trk := v.fab.trk.filter fun x => x.id != e.id } = _
    rw [hfab]
  · exact hcounted.trans (hdig.counted.trans (Counted.of_frame ((hfree.mono (by decide)).trans (hcur.mono (by decide)) : Frame [.fab, .ports] ..)
      (by decide) (by decide)))
  · exact (hframe.mono (by decide)).trans ((hdig.frame.mono (by decide)).trans ((hfree.mono (by decide)).trans (hcur.mono (by decide))))

/-! #### RESPONSE_BEAT -/

theorem State.driveRsp_frame (s : State) (k data header : Nat) : Frame [.ports] s (s.driveRsp k data header) := s.modPort_frame ..

/-- The counters of expand-on-read (R352). -/
theorem State.countsOnly_countExpand (s : State) (port : Nat) (r : BitVec 256) (sat : Bool) (accs : List Acc) (o n : Nat) :
    State.CountsOnly s (s.countExpand port r sat accs o n) :=
  .ite (.refl s) (.trans (.count ..) (.trans (.count ..) (.count ..)))

/-- The header of a data beat of an RD. -/
abbrev Entry.rdHeader (e : Entry) (last : Bool) : Nat := rspHeader (tagOf e.sub e.req.tag) (e.beatStatus e.beats) eOk true last e.beats

/-- The data of the next data beat of an RD. -/
abbrev Entry.rdData (e : Entry) : Nat :=
  (e.beatUnits e.beats).foldl (fun d u => d + e.rdUnit u * 2 ^ (512 * (u - 4 * e.beats))) 0

/-- A data beat of an RD without DIGEST: driven after the counts of expand-on-read. -/
theorem State.rdBeat_plain (hdig : e.req.digest = false) : ∃ u, State.CountsOnly s u ∧ s.rdBeat e =
    if e.beats + 1 = e.rdBeats then (u.driveRsp e.sub e.rdData (e.rdHeader true)).rspOver e
    else ((u.driveRsp e.sub e.rdData (e.rdHeader false)).modEntry e.id fun x =>
      { x with beats := e.beats + 1, dg := e.dg }).modPort e.sub fun p => { p with cur := some e.id } := by
  refine ⟨if e.beats = 0 && e.sub < 32 then s.countExpand e.sub e.rent e.sat e.accs e.off e.units else s,
    .ite (s.countsOnly_countExpand ..) (.refl s), ?_⟩
  have hfeed (l : List Nat) (u : State) (w : Nat) : l.foldl (fun (x : State × DgAcc) v =>
      x.1.feed e.sub false 0 x.2 (e.req.addr.toNat + 64 * v) (e.rdUnit v) w) (u, e.dg) = (u, e.dg) := by
    induction l with
    | nil => rfl
    | cons a l ih => exact ih
  simp only [State.rdBeat, hdig, hfeed]
  split
  · next hlast => simp only [hlast, decide_true]
  · next hlast => simp only [hlast, decide_false]

section
variable {port : Fin 36} (hlive : s.portsLive = true) (hnext : s.nextRsp port.val = some e)
include hlive hnext

theorem exec_responseBeat_masked (hmask : s.isMasked port.val = true) (hready : e.answerable s.sys.ltc = true) :
    exec (.responseBeat port) s = .next (s.rspOver e) := by
  change execResponseBeat port s = _
  simp only [execResponseBeat, hlive, hnext, hmask, hready, Bool.not_true, Bool.false_eq_true, if_false, if_true]

variable (hmask : s.isMasked port.val = false) (hcrd : (s.port port.val).rspCrd ≠ 0)
include hmask hcrd

theorem exec_responseBeat_header {d : Done} (hd : e.headerAnswer = some d) : exec (.responseBeat port) s =
    .next ((s.driveRsp port.val 0 (rspHeader (tagOf port.val e.req.tag) d.st d.err false true e.headerSeq)).rspOver e) := by
  change execResponseBeat port s = _
  simp only [execResponseBeat, hlive, hnext, hmask, hd, hcrd, Bool.not_true, Bool.false_eq_true, if_false]

theorem exec_responseBeat_data (hd : e.headerAnswer = none) (hkind : e.kind = .rd)
    (hstart : e.beats ≠ 0 ∨ (s.port port.val).mayStart e.rdBeats = true) : exec (.responseBeat port) s = .next (s.rdBeat e) := by
  have hgo : (e.beats = 0 && !(s.port port.val).mayStart e.rdBeats) = false := by
    rcases hstart with h | h <;> simp [h]
  change execResponseBeat port s = _
  simp only [execResponseBeat, hlive, hnext, hmask, hd, hcrd, hkind, hgo, Bool.not_true, Bool.false_eq_true, if_false, bne_self_eq_false,
    decide_false, Bool.or_self]

end

theorem Entry.takes_of_rd (h : e.kind = .rd) (n : Nat) : e.takes n = none := by simp only [Entry.takes, h]

/-- Settles O23: a header or last beat ends the response, another beat goes on with it. -/
theorem responseDriven : Obligations.ResponseDriven := by
  unfold Obligations.ResponseDriven
  intro port s e hcanon hlive hnext hsub hpaid k unit freed data
  obtain ⟨-, hwf, -⟩ := hcanon
  obtain ⟨k, hk⟩ := port
  change e.sub = k at hsub
  subst hsub
  refine ⟨fun d hmask hcrd hd => ?_, fun hmask hcrd hd hkind hdig hstart hmore => ?_,
    fun hmask hcrd hd hkind hdig hstart hlast => ?_, fun hmask hready => ?_⟩
  · have hexec := exec_responseBeat_header hlive hnext hmask hcrd hd
    have hport := (State.AtPort.of_ports hwf e.sub (t := s) rfl).driveRsp 0 (rspHeader (tagOf e.sub e.req.tag) d.st d.err false true e.headerSeq)
    have hdrive := s.driveRsp_frame e.sub 0 (rspHeader (tagOf e.sub e.req.tag) d.st d.err false true e.headerSeq)
    have hover := State.over_rspOver (State.Paid.congr hpaid (hdrive.2 .blp (by decide)))
    refine ⟨_, hexec, ?_, hover.fab, hover.plain, fun j hj => (hover.others j hj).trans (hport.there j hj),
      (Counted.of_frame hdrive (by decide) (by decide)).trans hover.counted, (hdrive.mono (by decide)).trans hover.frame⟩
    rw [hover.port hport.wf, hport.here, Nat.zero_add]
  · have hexec := exec_responseBeat_data hlive hnext hmask hcrd hd hkind hstart
    obtain ⟨u, hcounts, heq⟩ := State.rdBeat_plain (s := s) hdig
    rw [if_neg (by omega)] at heq
    rw [heq] at hexec
    have hport := (((State.AtPort.of_ports hwf e.sub (hcounts.frame.2 .ports (by decide))).driveRsp e.rdData (e.rdHeader false)).congr
      (u := (u.driveRsp e.sub e.rdData (e.rdHeader false)).modEntry e.id fun x => { x with beats := e.beats + 1, dg := e.dg })
      rfl).modPort fun p => { p with cur := some e.id }
    have hbeat : Frame [.ports, .fab] u (((u.driveRsp e.sub e.rdData (e.rdHeader false)).modEntry e.id fun x =>
        { x with beats := e.beats + 1, dg := e.dg }).modPort e.sub fun p => { p with cur := some e.id }) :=
      ((u.driveRsp_frame ..).mono (by decide)).trans (((State.modFab_frame ..).mono (by decide)).trans
        ((State.modPort_frame ..).mono (by decide)))
    refine ⟨_, hexec, hport.here, ?_, hport.there, hcounts.counted.trans (Counted.of_frame hbeat (by decide) (by decide)),
      (hcounts.frame.mono (by decide)).trans (hbeat.mono (by decide))⟩
    exact congrArg (Fab.modEntry · e.id fun x => { x with beats := e.beats + 1, dg := e.dg }) (hcounts.frame.2 .fab (by decide))
  · have hexec := exec_responseBeat_data hlive hnext hmask hcrd hd hkind hstart
    obtain ⟨u, hcounts, heq⟩ := State.rdBeat_plain (s := s) hdig
    rw [if_pos hlast] at heq
    rw [heq] at hexec
    have hport := (State.AtPort.of_ports hwf e.sub (hcounts.frame.2 .ports (by decide))).driveRsp e.rdData (e.rdHeader true)
    have hdrive := u.driveRsp_frame e.sub e.rdData (e.rdHeader true)
    have hover := State.over_rspOver (s := u.driveRsp e.sub e.rdData (e.rdHeader true)) (e := e) fun x hx => by
      rw [Entry.takes_of_rd hkind] at hx
      cases hx
    have hfab : (u.driveRsp e.sub e.rdData (e.rdHeader true)).fab = s.fab := (hdrive.2 .fab (by decide)).trans (hcounts.frame.2 .fab (by decide))
    have hparts : Frame [.ports, .fab, .ctl, .evt, .mbx] (u.driveRsp e.sub e.rdData (e.rdHeader true))
        ((u.driveRsp e.sub e.rdData (e.rdHeader true)).rspOver e) :=
      hover.frame.without .det (hover.plain hdig) fun q => by cases q <;> decide
    refine ⟨_, hexec, ?_, ?_, fun j hj => (hover.others j hj).trans (hport.there j hj),
      hcounts.counted.trans ((Counted.of_frame hdrive (by decide) (by decide)).trans hover.counted),
      (hcounts.frame.mono (by decide)).trans ((hdrive.mono (by decide)).trans hparts)⟩
    · rw [hover.port hport.wf, hport.here]
    · rw [hover.fab, hfab]
  · have hover := State.over_rspOver hpaid
    exact ⟨_, exec_responseBeat_masked hlive hnext hmask hready, hover.port hwf, hover.fab, hover.plain, hover.others, hover.counted,
      hover.frame⟩

end Sys2Proof.Machine
end

section
/-! ### Outbound data and completion records (R50, R82, R152 to R158) -/

namespace Sys2Proof.Machine

variable {s : State}

theorem exec_outboundBeat_full (hfull : s.icqFull 6 0 0 = true) (n : Nat) : exec (.outboundBeat n) s = .next s := by
  change execOutboundBeat n s = _
  unfold execOutboundBeat
  cases s.blp.flight[n]? with
  | none => rfl
  | some d => simp [hfull]

theorem exec_blpCompletionRecord_full (hfull : s.icqFull 6 0 0 = true) : exec .blpCompletionRecord s = .next s := by
  change execBlpCompletionRecord s = _
  unfold execBlpCompletionRecord
  dsimp only
  split
  · rfl
  · simp [hfull]

/-- The word with which the landing port drives unit `d.obeats` of a descriptor (R156). -/
def State.outWord (s : State) (d : BDesc) : BitVec 544 :=
  let e := s.descOf d
  BitVec.ofNat 544 ((unitData e.rent e.sat e.accs e.off d.obeats).toNat +
    (d.desc.descId.toNat + (unitStatus e.accs d.obeats).code * 2 ^ 16 + b2n (decide (d.obeats + 1 = d.units)) * 2 ^ 20) * 2 ^ 512)

theorem exec_outboundBeat {n : Nat} {d : BDesc} (hlive : s.portsLive = true) (hmask : s.isMasked 36 = false)
    (hroom : s.icqFull 6 0 0 = false) (hd : s.blp.flight[n]? = some d) (hready : s.outReady d = true) (hcrd : s.blp.odataCrd ≠ 0)
    (hdig : d.desc.digest = false) : exec (.outboundBeat n) s = .next ((((s.modBlp fun b => { b with
      flight := b.flight.map fun y => if y.eid = d.eid then { y with obeats := d.obeats + 1 } else y }).icqPass 6 0).modBlp fun b =>
        { b with odata := s.outWord d, odataValid := true, odataCrd := b.odataCrd - 1 }).modEntry d.eid fun y =>
          { y with dg := (s.descOf d).dg }) := by
  change execOutboundBeat n s = _
  simp only [execOutboundBeat, hd, hlive, hmask, hroom, hready, hcrd, hdig, State.feed_plain, Bool.not_true, Bool.not_false, decide_false,
    Bool.and_false, Bool.or_self, Bool.false_eq_true, if_false]
  rfl

/-- The state in which a descriptor has left the flight with its record. -/
def State.recorded (s : State) (d : BDesc) : State := { s with
  blp := { s.blp with
    flight := s.blp.flight.filter fun x => x.eid != d.eid
    cpl := s.cplRecord d
    cplValid := true
    cplCrd := s.blp.cplCrd - 1 }
  fab := { s.fab with trk := s.fab.trk.filter fun e => e.id != d.eid }
  ctl := (s.icqPass 6 0).ctl }

theorem exec_blpCompletionRecord {d : BDesc} {e : Entry} (hlive : s.portsLive = true) (hmask : s.isMasked 36 = false)
    (hroom : s.icqFull 6 0 0 = false) (hcrd : s.blp.cplCrd ≠ 0) (hd : (s.blp.flight.find? fun d => s.descDone d &&
      !(s.blp.flight.any fun x => x.desc.srcChip == d.desc.srcChip && decide (x.ord < d.ord))) = some d)
    (he : s.fab.entry d.eid = some e) (hdig : e.req.digest = false) (hpaid : s.Paid e) :
    exec .blpCompletionRecord s = .next (s.recorded d) := by
  have hdesc : s.descOf d = e := by rw [State.descOf, he]; rfl
  have hid : e.id = d.eid := by simpa using List.find?_some he
  change execBlpCompletionRecord s = _
  simp only [execBlpCompletionRecord, hd, hlive, hmask, hroom, hcrd, hdesc, State.closeDelivered_plain hdig, State.retire_of_paid hpaid, hid,
    Bool.not_true, Bool.not_false, decide_false, Bool.and_false, Bool.or_self, Bool.false_eq_true, if_false, Bool.or_true]
  have htwice : (s.fab.trk.filter fun x : Entry => x.id != d.eid).filter (fun x : Entry => x.id != d.eid) =
      s.fab.trk.filter fun x => x.id != d.eid := by
    simp [List.filter_filter]
  rw [State.freeEntry, State.modFab]
  change Host.Outcome.next { s.recorded d with fab := { s.fab with
    trk := (s.fab.trk.filter fun x : Entry => x.id != d.eid).filter fun x : Entry => x.id != d.eid } } = _
  rw [htwice]
  rfl

/-- Settles O24: the two rows of the landing port, with a slot in the crossing queue and without. -/
theorem bulkAnswered : Obligations.BulkAnswered := by
  unfold Obligations.BulkAnswered
  refine fun s hlive hmask => ⟨fun hfull => ⟨exec_outboundBeat_full hfull, exec_blpCompletionRecord_full hfull⟩, ?_,
    fun d e hroom hcrd hd he hdig hpaid => exec_blpCompletionRecord hlive hmask hroom hcrd hd he hdig hpaid⟩
  intro n d hroom hd hready hcrd hdig e last
  refine ⟨_, exec_outboundBeat hlive hmask hroom hd hready hcrd hdig, rfl, rfl, rfl, ?_⟩
  exact ((s.modBlp_frame _).mono (by decide)).trans (((State.icqPass_frame ..).mono (by decide)).trans
    (((State.modBlp_frame ..).mono (by decide)).trans ((State.modFab_frame ..).mono (by decide))))

end Sys2Proof.Machine
end

section
/-! ### FENCE_COMPLETE (R129, R130, R141) -/

namespace Sys2Proof.Machine

variable {s : State} {e : Entry}

/-- The other entries of the tracker stay as they are. -/
theorem Fab.filter_modEntry (f : Fab) (id : Nat) {g : Entry → Entry} (hg : ∀ x, (g x).id = x.id) :
    (f.modEntry id g).trk.filter (fun x => x.id != id) = f.trk.filter fun x => x.id != id := by
  unfold Fab.modEntry
  induction f.trk with
  | nil => rfl
  | cons a l ih =>
    by_cases ha : a.id = id
    · simp [ha, hg, ih]
    · simp [ha, ih]

theorem exec_fenceComplete {port : Fin 36} {pre post : List Entry} (hlive : s.portsLive = true) (htrk : s.fab.trk = pre ++ e :: post)
    (hsub : e.sub = port.val) (hkind : e.kind = .fence) (hfin : e.fin = none) (hbeats : e.beats = 0) (hdig : e.req.digest = false)
    (hpre : ∀ x ∈ pre, x.sub = port.val → x.kind = .fence → x.fin ≠ none)
    (hmet : ∀ x ∈ s.fab.trk, x.sub = port.val → x.ord < e.ord → x.holdsFence s.sys.ltc = false) :
    exec (.fenceComplete port) s = .next (s.decideEntry e.id .ok eOk) := by
  have hmet' : (s.fab.trk.any fun x => x.sub == port.val && decide (x.ord < e.ord) && x.holdsFence s.sys.ltc) = false :=
    List.any_eq_false.2 fun x hx => by
      simp only [Bool.and_eq_true, beq_iff_eq, decide_eq_true_eq]
      exact fun ⟨⟨h1, h2⟩, h3⟩ => by simp [hmet x hx h1 h2] at h3
  have hfind (met : Entry → Bool) (h : met e = true) : s.fab.trk.find? (fun x =>
      (x.sub == port.val && x.kind == .fence && x.fin.isNone && x.beats == 0) && met x) = some e := by
    rw [htrk, List.find?_append, List.find?_eq_none.2, Option.none_or, List.find?_cons_of_pos]
    · simp [hsub, hkind, hfin, hbeats, h]
    · intro x hx
      simp only [Bool.and_eq_true, beq_iff_eq, Option.isNone_iff_eq_none]
      exact fun ⟨⟨⟨⟨h1, h2⟩, h3⟩, _⟩, _⟩ => hpre x hx h1 h2 h3
  change execFenceComplete port s = _
  simp only [execFenceComplete]
  rw [hfind _ (by simp only [hdig, Bool.false_and, Bool.or_false, hmet', Bool.not_false])]
  simp only [hlive, hdig, Bool.not_true, Bool.false_and, Bool.false_eq_true, if_false]

/-- The end of an open entry is counted at that moment (R141). -/
theorem State.fab_decideEntry {st : RspStatus} {err : BitVec 8} (he : s.fab.entry e.id = some e) (hfin : e.fin = none)
    (hcounted : e.counted = false) : (s.decideEntry e.id st err).fab = (s.fab.modEntry e.id fun e =>
      if e.fin.isSome then e else e.done st err).modEntry e.id fun x => { x with counted := true } := by
  have hid (x : Entry) : (if x.fin.isSome then x else x.done st err).id = x.id := by split <;> rfl
  refine State.lateOnce_fab (e := e.done st err) ?_ hcounted rfl
  change (s.fab.modEntry e.id fun e => if e.fin.isSome then e else e.done st err).entry e.id = _
  rw [Fab.entry_modEntry hid, he]
  simp [hfin]

theorem State.decideEntry_counted (s : State) (id : Nat) (st : RspStatus) (err : BitVec 8) : Counted s (s.decideEntry id st err) :=
  (Counted.of_frame (s.modFab_frame _) (by decide) (by decide)).trans (State.lateOnce_counted ..)

theorem State.decideEntry_frame (s : State) (id : Nat) (st : RspStatus) (err : BitVec 8) :
    Frame [.fab, .ctl, .evt, .mbx] s (s.decideEntry id st err) :=
  ((s.modFab_frame _).mono (by decide)).trans ((State.lateOnce_frame ..).mono (by decide))

/-- Settles O25: the port's earliest open FENCE is the one found, and it is decided. -/
theorem fenceCompleted : Obligations.FenceCompleted := by
  unfold Obligations.FenceCompleted
  intro port s pre post e hlive htrk he hsub hkind hfin hbeats hdig hcounted hpre hmet
  have hfab := State.fab_decideEntry (st := .ok) (err := eOk) he hfin hcounted
  have hid (x : Entry) : (if x.fin.isSome then x else x.done .ok eOk).id = x.id := by split <;> rfl
  have hmark (x : Entry) : ({ x with counted := true } : Entry).id = x.id := rfl
  refine ⟨_, exec_fenceComplete hlive htrk hsub hkind hfin hbeats hdig hpre hmet, ?_, ?_, ?_, s.decideEntry_counted ..,
    s.decideEntry_frame ..⟩
  · rw [hfab, Fab.entry_modEntry hmark, Fab.entry_modEntry hid, he]
    simp [hfin, Entry.done]
  · rw [hfab, Fab.filter_modEntry _ _ hmark, Fab.filter_modEntry _ _ hid]
  · rw [hfab]
    rfl

end Sys2Proof.Machine
end

section
/-! ### Work of internal subscribers (R30, R263, R469) -/

namespace Sys2Proof.Machine

variable {s : State} {e : Entry}

/-- The accesses keep all but their stale bits, as admission reads them. -/
theorem State.length_markStale (s : State) (r : BitVec 256) (accs : List Acc) : (s.markStale r accs).length = accs.length := by
  unfold State.markStale
  split <;> simp

theorem State.markStale_ne_nil {r : BitVec 256} {accs : List Acc} (h : accs ≠ []) : s.markStale r accs ≠ [] := fun hnil =>
  h (List.length_eq_zero_iff.1 ((s.length_markStale r accs).symm.trans (congrArg List.length hnil)))

theorem State.open_markStale {r : BitVec 256} {accs : List Acc} (h : ∀ a ∈ accs, a.scale = false ∧ a.st = none) :
    ∀ a ∈ s.markStale r accs, a.scale = false ∧ a.st = none := fun a ha => by
  obtain ⟨b, hb, v, rfl⟩ := State.mem_markStale ha
  exact h b hb

/-- The head of a meter queue that an entry becomes, with a charge of 64 B for each access (R261, R263). -/
def State.meterHead (s : State) (e : Entry) (svc : Nat) : Shaped :=
  ⟨e.id, e.msub, svc, e.colourIn, 64 * e.accs.length,
    e.arrival + (if e.req.slack = 0xFFFF then s.nodlAge else e.req.slack.toNat), false, false, cutPieces (e.basePiece svc) e.accs⟩

/-- An entry with open accesses, all on data planes, joins its meter queue. -/
theorem State.enterMeter_eq (hne : e.accs ≠ []) (hopen : ∀ a ∈ e.accs, a.scale = false ∧ a.st = none) (svc : Nat) :
    s.enterMeter e svc = s.modFab fun f => { f with mq := f.mq ++ [s.meterHead e svc] } := by
  have hnone : (e.accs.filter fun a => a.st.isNone) = e.accs := List.filter_eq_self.2 fun a ha => by simp [hopen a ha]
  have hdata : (e.accs.filter fun a => !a.scale) = e.accs := List.filter_eq_self.2 fun a ha => by simp [hopen a ha]
  have hpieces : cutPieces (e.basePiece svc) e.accs ≠ [] := by
    unfold cutPieces
    dsimp only
    rw [hnone, hdata]
    split
    · exact List.append_ne_nil_of_left_ne_nil (foldl_addPiece_ne_nil _ hne) _
    · exact foldl_addPiece_ne_nil _ hne
    · exact foldl_addPiece_ne_nil _ hne
  have hcharge : chargeOf (e.accs.filter fun a => a.st.isNone) = 64 * e.accs.length := by simp only [chargeOf, hnone, hdata]
  have henter : s.enterMeter e svc = _ := if_neg (by simpa using hpieces)
  rw [henter, State.meterHead, hcharge]

theorem State.enterMeter_data (hne : e.accs ≠ []) (hopen : ∀ a ∈ e.accs, a.scale = false ∧ a.st = none) (svc : Nat) :
    ∃ h : Shaped, s.enterMeter e svc = (s.modFab fun f => { f with mq := f.mq ++ [h] }) ∧
      h.eid = e.id ∧ h.sub = e.msub ∧ h.svc = svc ∧ h.charge = 64 * e.accs.length :=
  ⟨_, State.enterMeter_eq hne hopen svc, rfl, rfl, rfl, rfl⟩

end Sys2Proof.Machine
end

section
/-! ### Digest records (R730, R731, R749) -/

namespace Sys2Proof.Machine

variable {s : State} {r : DgRec} {rest : List DgRec}

theorem State.each_stays {α : Type} {f : State → α → State} {l : List α} (h : ∀ a ∈ l, f s a = s) : s.each l f = s := by
  induction l with
  | nil => rfl
  | cons a l ih => rw [State.each_cons, h a (List.mem_cons_self ..), ih fun b hb => h b (List.mem_cons_of_mem _ hb)]

theorem State.addRec_of_written (h : r.eid.isSome = true) : s.addRec r = s := if_pos (by simp [h])

theorem State.addRec_of_barred (h : s.recBarred r = true) : s.addRec r = s := if_pos (by
  rw [State.recBarred] at h
  rcases Bool.or_eq_true_iff.1 h with h | h <;> simp [h])

/-- With no record that can get a write, none does. -/
theorem State.addRecs_idle (hrecs : s.det.recs = r :: rest) (hrest : ∀ y ∈ rest, y.eid.isSome = true)
    (h : r.eid.isSome = true ∨ s.recBarred r = true) : s.addRecs = s := by
  rw [State.addRecs, hrecs]
  refine State.each_stays fun y hy => ?_
  rcases List.mem_cons.1 hy with rfl | hy
  · exact h.elim State.addRec_of_written State.addRec_of_barred
  · exact State.addRec_of_written (hrest y hy)

/-- The state without its first record. -/
def State.recGone (s : State) (rest : List DgRec) : State := { s with det := { s.det with recs := rest } }

/-- The state without its first record, which is reported as lost. -/
def State.recLost (s : State) (r : DgRec) (rest : List DgRec) : State :=
  (s.recGone rest).event .digRecLost 0 (r.stream % 16 + r.n.toNat % 2 ^ 24 * 2 ^ 8)

theorem State.recordOver_eq (hrecs : s.det.recs = r :: rest) (hfence : r.fence = none) (hcmd : r.cmd = false) (lost : Bool) :
    s.recordOver r lost = if lost then s.recLost r rest else s.recGone rest := by
  have hgone : (s.modDet fun d => { d with recs := d.recs.tail }) = s.recGone rest := by
    rw [State.recGone, State.modDet, hrecs]
    rfl
  simp only [State.recordOver, hfence, hcmd, hgone, Bool.false_eq_true, if_false]
  rfl

/-- The entry by which a record's write is admitted. -/
def State.recWrite (s : State) (r : DgRec) (shared : Bool) : Entry := { Entry.reset with
  id := s.fab.nextId, sub := 47, msub := 47, kind := .digestRec
  req := { Request.zero with service := 5, slack := 0xFFFF, addr := BitVec.ofNat 40 (rLo s.recEntry) }
  arrival := s.fabView, shared := shared, rent := s.recEntry, pent := pairEntry s.cfg.regions s.recEntry
  accs := s.markStale s.recEntry [mkAcc s.stk (s.recPlace r) 0 false]
  wdat := [⟨r.line.setWidth 1024, BitVec.allOnes 128⟩] }

/-- The state in which a record's write has been admitted, with head `h` in its meter queue. -/
def State.recWritten (s : State) (r : DgRec) (shared : Bool) (h : Shaped) : State := { s with
  fab := { s.fab with
    trk := s.fab.trk ++ [s.recWrite r shared]
    nextId := s.fab.nextId + 1
    mq := s.fab.mq ++ [h] }
  det := { s.det with recs := [{ r with eid := some s.fab.nextId }] } }

/-- The only record gets its write. -/
theorem State.addRecs_writes {shared : Bool} (hrecs : s.det.recs = [r]) (hnew : r.eid = none) (hlatch : s.therm.latch = false)
    (hslice : (s.stk.sliceOf (s.recPlace r).chan (s.recPlace r).row).isSome = true) (hsound : s.fab.staleBad = [])
    (hslot : s.fab.freeSlot 47 = some shared) : ∃ h : Shaped, s.addRecs = s.recWritten r shared h ∧
      h.eid = s.fab.nextId ∧ h.sub = 47 ∧ h.svc = 5 ∧ h.charge = 64 := by
  have hopen : ∀ a ∈ (s.recWrite r shared).accs, a.scale = false ∧ a.st = none := State.open_markStale (by simp [mkAcc, Acc.reset])
  obtain ⟨h, henter, heid, hsub, hsvc, hcharge⟩ := State.enterMeter_data (s := s.addEntry (s.recWrite r shared)) (e := s.recWrite r shared)
    (State.markStale_ne_nil (by simp)) hopen 5
  refine ⟨h, ?_, heid, hsub, hsvc, hcharge.trans (congrArg (64 * ·) (s.length_markStale ..))⟩
  have hgo : (r.eid.isSome || s.therm.latch || (s.stk.sliceOf (s.recPlace r).chan (s.recPlace r).row).isNone ||
      (s.fab.freeSlot 47).isNone) = false := by
    simp [hnew, hlatch, hslot, hslice]
  have hwork : s.addWork 47 .digestRec s.recEntry (rLo s.recEntry) [mkAcc s.stk (s.recPlace r) 0 false]
      [⟨r.line.setWidth 1024, BitVec.allOnes 128⟩] = (s.addEntry (s.recWrite r shared)).enterMeter (s.recWrite r shared) 5 := by
    simp only [State.addWork, hslot, State.readStale_of_sound hsound]
    rfl
  have hrec : s.addRec r = ((s.addEntry (s.recWrite r shared)).enterMeter (s.recWrite r shared) 5).modDet fun d =>
      { d with recs := updFirst (fun y => y == r) (fun y => { y with eid := some s.fab.nextId }) d.recs } := by
    rw [← hwork]
    exact if_neg (by rw [hgo]; decide)
  have hupd : updFirst (fun y => y == r) (fun y => { y with eid := some s.fab.nextId }) s.det.recs = [{ r with eid := some s.fab.nextId }] := by
    rw [hrecs]
    simp [updFirst]
  rw [State.addRecs, hrecs, State.each_cons, State.each_nil, hrec, henter, State.recWritten, ← hupd]
  rfl

theorem exec_digestRecordDone_barred (hlive : s.portsLive = true) (hrecs : s.det.recs = r :: rest)
    (hrest : ∀ y ∈ rest, y.eid.isSome = true) (hfence : r.fence = none) (hcmd : r.cmd = false) (hnew : r.eid = none)
    (hbarred : s.recBarred r = true) (b : Bool) : exec (.digestRecordDone b) s = .next (s.recLost r rest) := by
  change execDigestRecordDone b s = _
  simp only [execDigestRecordDone, hlive, State.addRecs_idle hrecs hrest (.inr hbarred), hrecs, hnew, hbarred, Bool.not_true, Bool.or_true,
    Bool.false_eq_true, if_false, if_true, State.recordOver_eq hrecs hfence hcmd]

theorem exec_digestRecordDone_writes {shared : Bool} (hlive : s.portsLive = true) (hrecs : s.det.recs = [r])
    (hnew : r.eid = none) (hlatch : s.therm.latch = false)
    (hslice : (s.stk.sliceOf (s.recPlace r).chan (s.recPlace r).row).isSome = true) (hsound : s.fab.staleBad = [])
    (hslot : s.fab.freeSlot 47 = some shared) (hfree : s.fab.entry s.fab.nextId = none) :
    ∃ h : Shaped, exec (.digestRecordDone false) s = .next (s.recWritten r shared h) ∧
      h.eid = s.fab.nextId ∧ h.sub = 47 ∧ h.svc = 5 ∧ h.charge = 64 := by
  obtain ⟨h, hadd, hh⟩ := State.addRecs_writes hrecs hnew hlatch hslice hsound hslot
  refine ⟨h, ?_, hh⟩
  have hentry : (s.recWritten r shared h).fab.entry s.fab.nextId = some (s.recWrite r shared) := Fab.entry_append (e := s.recWrite r shared) hfree
  have hopen : ∀ a ∈ (s.recWrite r shared).accs, a.scale = false ∧ a.st = none := State.open_markStale (by simp [mkAcc, Acc.reset])
  have hunseen : accsSeen (s.recWrite r shared).accs s.sys.ltc = false := by
    obtain ⟨a, ha⟩ := List.exists_mem_of_ne_nil (s.recWrite r shared).accs (State.markStale_ne_nil (by simp))
    exact List.all_eq_false.2 ⟨a, ha, by simp [hopen a ha]⟩
  have hrun : (match (s.recWritten r shared h).fab.entry s.fab.nextId with
      | none => (s.recWritten r shared h).recordOver { r with eid := some s.fab.nextId } true
      | some e =>
        if e.fin.isSome then ((s.recWritten r shared h).freeEntry s.fab.nextId).recordOver { r with eid := some s.fab.nextId } true
        else if accsSeen e.accs s.sys.ltc then ((s.recWritten r shared h).freeEntry s.fab.nextId).recordOver
          { r with eid := some s.fab.nextId } (worstOf (e.accs.filterMap (·.st)) != .ok)
        else s.recWritten r shared h) = s.recWritten r shared h := by
    rw [hentry]
    exact (if_neg (by simp [State.recWrite, Entry.reset])).trans (if_neg (by rw [hunseen]; decide))
  change execDigestRecordDone false s = _
  simp only [execDigestRecordDone, hlive, hadd, Bool.not_true, Bool.false_eq_true, if_false]
  exact congrArg Host.Outcome.next hrun

theorem exec_digestRecordDone_seen {id : Nat} {e : Entry} (hlive : s.portsLive = true) (hrecs : s.det.recs = r :: rest)
    (hrest : ∀ y ∈ rest, y.eid.isSome = true) (hfence : r.fence = none) (hcmd : r.cmd = false) (heid : r.eid = some id)
    (he : s.fab.entry id = some e) (hfin : e.fin = none) (hseen : accsSeen e.accs s.sys.ltc = true) :
    exec (.digestRecordDone false) s = .next (if worstOf (e.accs.filterMap (·.st)) = .ok then (s.freeEntry id).recGone rest
      else (s.freeEntry id).recLost r rest) := by
  have hrecs' : (s.freeEntry id).det.recs = r :: rest := hrecs
  change execDigestRecordDone false s = _
  simp only [execDigestRecordDone, hlive, State.addRecs_idle hrecs hrest (.inl (by rw [heid]; rfl)), hrecs, heid, he, hfin, hseen,
    Bool.not_true, Option.isSome_none, Bool.false_eq_true, if_false, if_true, State.recordOver_eq hrecs' hfence hcmd]
  by_cases hok : worstOf (e.accs.filterMap (·.st)) = .ok <;> simp [hok]

/-- Settles O26: the first record is barred, gets its write, or has had it. -/
theorem digestRecordWritten : Obligations.DigestRecordWritten := by
  unfold Obligations.DigestRecordWritten
  intro s r rest hcanon hlive hrecs hrest hfence hcmd pl gone lost
  refine ⟨fun hnew hbarred b => ?_, fun shared hnew hlatch hslice hsound hnil hslot hfree => ?_,
    fun id e heid he hfin hseen => exec_digestRecordDone_seen hlive hrecs hrest hfence hcmd heid he hfin hseen⟩
  · refine exec_digestRecordDone_barred hlive hrecs hrest hfence hcmd hnew ?_ b
    rw [State.recBarred, Bool.or_eq_true_iff]
    exact hbarred.symm.imp_right fun h => by rw [h]; rfl
  · subst hnil
    obtain ⟨h, hexec, heid, hsub, hsvc, hcharge⟩ := exec_digestRecordDone_writes hlive hrecs hnew hlatch hslice hsound hslot hfree
    exact ⟨_, s.recWrite r shared, h, hexec, rfl, rfl, rfl, rfl, rfl, rfl, rfl, rfl, heid, hsub, hsvc, hcharge, rfl, rfl,
      .of rfl fun p => by cases p <;> simp [Part.same, State.recWritten]⟩

end Sys2Proof.Machine
end

section
/-! ### The reads of a gather engine (R126, R198, R261, R362 to R370, R469) -/

namespace Sys2Proof.Machine

variable {α : Type} [DecidableEq α] {d : α} {s : State} {i : Nat}

/-- A write of anything but the default reads as written, whatever the form of the table. -/
theorem Tab.get_set_of_ne_default {v : α} (hv : v ≠ d) (t : Tab α) (k : Nat) : Tab.get d (Tab.set d t k v) k = v := by
  induction t with
  | nil => simp [Tab.set, Tab.get, hv]
  | cons a t ih =>
    by_cases hlt : k < a.1
    · simp [Tab.set, Tab.get, hv, hlt]
    · by_cases heq : k = a.1
      · simp [Tab.set, Tab.get, hv, heq]
      · simp [Tab.set, Tab.get, hlt, heq, Ne.symm heq, ih]

/-- The engine with its place in the list and the stream, and its reads in flight, moved on. -/
theorem Fab.engine_modEngine {f : Fab} {g : Gth → Gth} (hbusy : (g (f.engine i)).eid ≠ 0) :
    (f.modEngine i g).engine i = g (f.engine i) :=
  Tab.get_set_of_ne_default (fun h => hbusy (by rw [show g (f.engine i) = Gth.reset from h]; rfl)) ..

/-- An engine that keeps its GATHER works for the same one. -/
theorem State.gatherOf_modEngine {g : Gth → Gth} (hg : (g (s.fab.engine i)).eid = (s.fab.engine i).eid)
    (hbusy : s.fab.engBusy i = true) : (s.modFab fun f => f.modEngine i g).gatherOf i = s.gatherOf i := by
  have hne : (g (s.fab.engine i)).eid ≠ 0 := by
    rw [hg]
    simpa [Fab.engBusy] using hbusy
  have hengine : (s.modFab fun f => f.modEngine i g).fab.engine i = g (s.fab.engine i) := Fab.engine_modEngine hne
  rw [State.gatherOf, hengine, hg]
  rfl

/-- A gather read that has not ended stays in flight. -/
theorem State.settleGather_unseen {id : Nat} {e : Entry} (he : s.fab.entry id = some e) (hunseen : accsSeen e.accs s.sys.ltc = false) :
    s.settleGather id = s := by
  simp only [State.settleGather, he, hunseen, Bool.not_false, if_true]

/-- The entry of a gather read. -/
def State.gatherRd (s : State) (i : Nat) (kind : Kind) (a n rix : Nat) (accs : List Acc) (pos : Nat) : Entry :=
  let g := s.gatherOf i
  { Entry.reset with
    id := s.fab.nextId, ord := g.ord, sub := 42, msub := g.sub, kind := kind
    req := { g.req with tag := 0, addr := BitVec.ofNat 40 a, len := BitVec.ofNat 5 (n - 1), digest := false, rsvLo := 0 }
    arrival := s.fabView, shared := (s.fab.freeSlot 42).getD true, rent := regionAt g.tab rix, rix := rix
    pent := pairEntry g.tab (regionAt g.tab rix), accs := s.markStale (regionAt g.tab rix) accs, beats := pos, parent := i
    sat := bit (Tab.get 0 s.cfg.xfu g.sub) 0 }

/-- A gather read whose accesses are all open, on data planes and on channels in service, waits in its meter queue. -/
theorem State.gatherRead_open {kind : Kind} {a n rix pos : Nat} {accs : List Acc} (hnew : s.fab.entry s.fab.nextId = none)
    (hsound : s.fab.staleBad = []) (hne : accs ≠ [])
    (hopen : ∀ x ∈ accs, x.st = none ∧ x.scale = false ∧ (s.stk.remapAt x.chan).st ≠ .fenced) :
    ∃ h : Shaped, s.gatherRead i kind a n rix accs pos = (s.modFab fun f => { f with
        trk := f.trk ++ [s.gatherRd i kind a n rix accs pos]
        nextId := f.nextId + 1
        mq := f.mq ++ [h] }) ∧
      h.eid = s.fab.nextId ∧ h.sub = (s.gatherOf i).sub ∧ h.svc = (s.gatherOf i).req.service.toNat ∧ h.charge = 64 * accs.length := by
  have hserved : (accs.map fun x => if (s.stk.remapAt x.chan).st = .fenced then { x with st := some .fenced, data := 0 } else x) = accs :=
    (List.map_congr_left fun x hx => if_neg (hopen x hx).2.2).trans (List.map_id _)
  have hplain : accs.filter (·.scale) = [] := List.filter_eq_nil_iff.2 fun x hx => by simp [hopen x hx]
  have hmarked : ∀ x ∈ (s.gatherRd i kind a n rix accs pos).accs, x.scale = false ∧ x.st = none :=
    State.open_markStale fun x hx => ⟨(hopen x hx).2.1, (hopen x hx).1⟩
  have hnil : (s.gatherRd i kind a n rix accs pos).accs ≠ [] := State.markStale_ne_nil hne
  obtain ⟨h, henter, heid, hsub, hsvc, hcharge⟩ := State.enterMeter_data (s := s.addEntry (s.gatherRd i kind a n rix accs pos)) hnil hmarked
    (s.gatherOf i).req.service.toNat
  refine ⟨h, ?_, heid, hsub, hsvc, hcharge.trans (congrArg (64 * ·) (s.length_markStale ..))⟩
  have hentry : (s.addEntry (s.gatherRd i kind a n rix accs pos)).fab.entry s.fab.nextId = some (s.gatherRd i kind a n rix accs pos) :=
    Fab.entry_append (e := s.gatherRd i kind a n rix accs pos) hnew
  have hunseen : accsSeen (s.gatherRd i kind a n rix accs pos).accs s.sys.ltc = false := by
    obtain ⟨x, hx⟩ := List.exists_mem_of_ne_nil _ hnil
    exact List.all_eq_false.2 ⟨x, hx, by simp [hmarked x hx]⟩
  simp only [State.gatherRead, State.readStale_of_sound hsound, hserved, State.scaleLookup, hplain, State.each_nil]
  change (match (s.addEntry (s.gatherRd i kind a n rix accs pos)).fab.entry s.fab.nextId with
    | some e' => ((s.addEntry (s.gatherRd i kind a n rix accs pos)).enterMeter e' _).settleGather s.fab.nextId
    | none => _) = _
  rw [hentry]
  dsimp only
  rw [henter]
  exact State.settleGather_unseen (e := s.gatherRd i kind a n rix accs pos) hentry hunseen

/-- Issuing a read from an engine that keeps its GATHER. -/
theorem State.gatherReads_gatherRead {kind : Kind} {a n rix pos : Nat} {accs : List Acc} {g : Gth → Gth}
    (hg : (g (s.fab.engine i)).eid = (s.fab.engine i).eid) (hbusy : s.fab.engBusy i = true) (hnew : s.fab.entry s.fab.nextId = none)
    (hsound : s.fab.staleBad = []) (hne : accs ≠ [])
    (hopen : ∀ x ∈ accs, x.st = none ∧ x.scale = false ∧ (s.stk.remapAt x.chan).st ≠ .fenced) :
    s.GatherReads ((s.modFab fun f => f.modEngine i g).gatherRead i kind a n rix accs pos) i kind a n
        (s.markStale (regionAt (s.gatherOf i).tab rix) accs) ∧
      ((s.modFab fun f => f.modEngine i g).gatherRead i kind a n rix accs pos).fab.engines =
        Tab.set Gth.reset s.fab.engines i (g (s.fab.engine i)) ∧
      Frame [.fab] s ((s.modFab fun f => f.modEngine i g).gatherRead i kind a n rix accs pos) := by
  have hgather := State.gatherOf_modEngine hg hbusy
  obtain ⟨h, heq, heid, hsub, hsvc, hcharge⟩ := State.gatherRead_open (s := s.modFab fun f => f.modEngine i g) (i := i) (kind := kind)
    (a := a) (n := n) (rix := rix) (pos := pos) hnew hsound hne hopen
  rw [hgather] at hsub hsvc
  rw [heq]
  refine ⟨⟨_, h, rfl, rfl, rfl, ?_, rfl, rfl, rfl, rfl, ?_, rfl, rfl, heid, hsub, hsvc,
      hcharge.trans (congrArg (64 * ·) (s.length_markStale ..).symm), rfl⟩, rfl,
    (s.modFab_frame _).trans (State.modFab_frame ..)⟩
  · rw [State.gatherRd, hgather]
  · rw [State.gatherRd, hgather]
    rfl

/-! #### GATHER_ENGINE_START, GATHER_LIST_READ, GATHER_PAGE_READ -/

theorem exec_gatherEngineStart {id : Nat} {rest : List Nat} {e : Entry} (hlive : s.portsLive = true) (hfq : s.fab.fq = id :: rest)
    (he : s.fab.entry id = some e) (hmask : s.isMasked e.sub = false) (hmax : s.enginesOf e.sub < s.portMax)
    (hfree : ((List.range 16).find? fun i => !s.fab.engBusy i) = some i) :
    exec .gatherEngineStart s = .next ((s.modFab fun f => { f with fq := f.fq.filter fun x => x != id }).modFab fun f =>
      f.modEngine i fun _ => { Gth.reset with eid := id, desc := ((e.wdat.headD ⟨0, 0⟩).data).setWidth 160 }) := by
  have hfirst : s.fab.fq.find? (fun id => s.isMasked (((s.fab.entry id).map (·.sub)).getD 0) ||
      decide (s.enginesOf (((s.fab.entry id).map (·.sub)).getD 0) < s.portMax)) = some id := by
    rw [hfq, List.find?_cons_of_pos]
    simp [he, hmax]
  change execGatherEngineStart s = _
  simp only [execGatherEngineStart, hlive, hfirst, he, hfree, Option.map_some, Option.getD_some, hmask, Bool.not_true, Bool.false_eq_true,
    if_false]

theorem exec_gatherListRead {i : Fin 16} {r : Nat} (hsettled : s.settleEngine i.val = s) (hruns : s.engRuns i.val = true)
    (hslot : (s.fab.freeSlot 42).isSome = true) (hflight : (s.fab.engine i.val).flight < 128)
    (hend : (s.fab.engine i.val).lissued ≤ gListOf (s.fab.engine i.val).desc (gPages (s.fab.engine i.val).desc - 1))
    (hahead : (s.fab.engine i.val).lissued ≤ gListOf (s.fab.engine i.val).desc (min ((s.fab.engine i.val).pos /
      gPageUnits (s.fab.engine i.val).desc) (gPages (s.fab.engine i.val).desc - 1)) + 2)
    (hregion : findRegion (s.gatherOf i.val).tab (fld (s.fab.engine i.val).desc 0 40) = some r) :
    exec (.gatherListRead i) s = .next ((s.modFab fun f => f.modEngine i.val fun g =>
      { g with lissued := g.lissued + 1, flight := g.flight + 1 }).gatherRead i.val .gatherList
        ((fld (s.fab.engine i.val).desc 0 40 / 64 + (s.fab.engine i.val).lissued) * 64) 1 r
        (s.readIn (s.gatherOf i.val).tab r ((fld (s.fab.engine i.val).desc 0 40 / 64 + (s.fab.engine i.val).lissued) * 64 -
          rLo (regionAt (s.gatherOf i.val).tab r)) 1) 0) := by
  have hgo : (!s.engRuns i.val || (s.fab.freeSlot 42).isNone ||
      decide (gListOf (s.fab.engine i.val).desc (gPages (s.fab.engine i.val).desc - 1) < (s.fab.engine i.val).lissued) ||
      decide (gListOf (s.fab.engine i.val).desc (min ((s.fab.engine i.val).pos / gPageUnits (s.fab.engine i.val).desc)
        (gPages (s.fab.engine i.val).desc - 1)) + 2 < (s.fab.engine i.val).lissued) ||
      decide (128 ≤ (s.fab.engine i.val).flight)) = false := by
    simp [hruns, hslot, hflight, hend, hahead]
  change execGatherListRead i s = _
  simp only [execGatherListRead, hsettled, hgo, hregion, Bool.false_eq_true, if_false]

section
variable {i : Fin 16} (hsettled : s.settleEngine i.val = s) (hruns : s.engRuns i.val = true)
  (hmore : (s.fab.engine i.val).pos < gUnits (s.fab.engine i.val).desc)
  (hgot : (s.fab.engine i.val).lgot.contains (gListOf (s.fab.engine i.val).desc
    ((s.fab.engine i.val).pos / gPageUnits (s.fab.engine i.val).desc)) = true)
  (hroom : 1024 - ((s.fab.engine i.val).pos - 4 * (s.gatherOf i.val).beats) ≠ 0)
include hsettled hruns hmore hgot hroom

/-- A page that is not read is staged as zeros, and counted where it is skipped. -/
theorem exec_gatherPageRead_zeros {st : RspStatus} (hpage : pageCheck (s.gatherOf i.val).tab (s.fab.engine i.val).desc
      (Tab.get 0 (s.fab.engine i.val).ents ((s.fab.engine i.val).pos / gPageUnits (s.fab.engine i.val).desc))
      (Tab.get .ok (s.fab.engine i.val).esta ((s.fab.engine i.val).pos / gPageUnits (s.fab.engine i.val).desc)) = .inl st) :
    ∃ t, State.CountsOnly s t ∧ exec (.gatherPageRead i) s = .next (t.stageZeros i.val (s.fab.engine i.val).pos
      (min (1024 - ((s.fab.engine i.val).pos - 4 * (s.gatherOf i.val).beats)) (gPageUnits (s.fab.engine i.val).desc -
        (s.fab.engine i.val).pos % gPageUnits (s.fab.engine i.val).desc)) st) := by
  have hcount : State.CountsOnly s (if st = .ok && (s.fab.engine i.val).pos % gPageUnits (s.fab.engine i.val).desc = 0 then
    s.statSub (s.gatherOf i.val).sub 10 1 else s) := .ite (.count ..) (.refl s)
  refine ⟨_, hcount, ?_⟩
  change execGatherPageRead i s = _
  simp only [execGatherPageRead, hsettled, hruns, hgot, hroom, Nat.not_le.2 hmore, hpage, Bool.not_true, decide_false, Bool.or_self,
    Bool.false_eq_true, if_false]

/-- A page that is read makes one read, counted where it is the page's first. -/
theorem exec_gatherPageRead_read {r n : Nat} (hpage : pageCheck (s.gatherOf i.val).tab (s.fab.engine i.val).desc
      (Tab.get 0 (s.fab.engine i.val).ents ((s.fab.engine i.val).pos / gPageUnits (s.fab.engine i.val).desc))
      (Tab.get .ok (s.fab.engine i.val).esta ((s.fab.engine i.val).pos / gPageUnits (s.fab.engine i.val).desc)) = .inr r)
    (hplain : rType (regionAt (s.gatherOf i.val).tab r) ≠ 1) (hflight : (s.fab.engine i.val).flight < 128)
    (hslot : (s.fab.freeSlot 42).isSome = true) {off a : Nat}
    (hoff : off = (s.fab.engine i.val).pos % gPageUnits (s.fab.engine i.val).desc % gChunk (s.fab.engine i.val).desc)
    (ha : a = gPageAddr (s.fab.engine i.val).desc (Tab.get 0 (s.fab.engine i.val).ents
        ((s.fab.engine i.val).pos / gPageUnits (s.fab.engine i.val).desc)) +
      64 * (fld (s.fab.engine i.val).desc 96 10 + (s.fab.engine i.val).pos % gPageUnits (s.fab.engine i.val).desc /
        gChunk (s.fab.engine i.val).desc * fld (s.fab.engine i.val).desc 128 10 + off))
    (hn : n = min (min (gChunk (s.fab.engine i.val).desc - off) (32 - a / 64 % 32))
      (1024 - ((s.fab.engine i.val).pos - 4 * (s.gatherOf i.val).beats))) (hpos : n ≠ 0) :
    ∃ t, State.CountsOnly s t ∧ exec (.gatherPageRead i) s = .next ((t.modFab fun f => f.modEngine i.val fun g =>
      { g with pos := g.pos + n, flight := g.flight + 1 }).gatherRead i.val .gatherPage a n r
        (s.readIn (s.gatherOf i.val).tab r (a - rLo (regionAt (s.gatherOf i.val).tab r)) n) (s.fab.engine i.val).pos) := by
  have hcount : State.CountsOnly s (if (s.fab.engine i.val).pos % gPageUnits (s.fab.engine i.val).desc = 0 then
    s.statSub (s.gatherOf i.val).sub 9 1 else s) := .ite (.count ..) (.refl s)
  refine ⟨_, hcount, ?_⟩
  have hfull : (s.fab.freeSlot 42).isNone = false := by simpa using hslot
  change execGatherPageRead i s = _
  simp only [execGatherPageRead, hsettled, hruns, hgot, hroom, Nat.not_le.2 hmore, hpage, Bool.not_true, decide_false, Bool.or_self,
    Bool.false_eq_true, if_false, hplain, Nat.div_one, Nat.mul_one, ← hoff, ← ha, ← hn, hpos, hfull, Nat.not_le.2 hflight]

end

/-- Settles O27: an engine starts, reads its list, and reads or fills its pages. -/
theorem gatherReads : Obligations.GatherReads := by
  unfold Obligations.GatherReads
  refine fun s hlive => ⟨fun id i rest e hfq he hmask hmax hfree => exec_gatherEngineStart hlive hfq he hmask hmax hfree, ?_, ?_⟩
  · intro i r hsettled hruns hslot hnew hsound g tab a accs hflight hend hahead hregion hne hopen
    have hbusy : s.fab.engBusy i.val = true := by
      simp only [State.engRuns, Bool.and_eq_true] at hruns
      exact hruns.1.1.1.2
    exact ⟨_, exec_gatherListRead hsettled hruns hslot hflight hend hahead hregion,
      State.gatherReads_gatherRead (g := fun g => { g with lissued := g.lissued + 1, flight := g.flight + 1 }) rfl hbusy hnew hsound hne hopen⟩
  · intro i hsettled hruns g tab page room hmore hgot hroom
    have hbusy : s.fab.engBusy i.val = true := by
      simp only [State.engRuns, Bool.and_eq_true] at hruns
      exact hruns.1.1.1.2
    refine ⟨?_, ?_⟩
    · intro st hpage n
      obtain ⟨t, hcounts, hexec⟩ := exec_gatherPageRead_zeros hsettled hruns hmore hgot hroom hpage
      have hstage := t.modFab_frame fun f => f.modEngine i.val fun g' =>
        { g' with units := g'.units ++ (List.range n).map (fun u => (g.pos + u, st, (0 : Line))), pos := g.pos + n }
      refine ⟨_, hexec, ?_, hcounts.counted.trans (Counted.of_frame hstage (by decide) (by decide)),
        (hcounts.frame.mono (by decide)).trans (hstage.mono (by decide))⟩
      change t.fab.modEngine _ _ = _
      rw [hcounts.frame.2 .fab (by decide)]
      rfl
    · intro r hpage hplain hflight hsound hslot hnew inPage off a n accs hpos hne hopen
      obtain ⟨t, hcounts, hexec⟩ := exec_gatherPageRead_read hsettled hruns hmore hgot hroom hpage hplain hflight hslot rfl rfl rfl hpos
      refine ⟨_, hexec, ?_⟩
      obtain ⟨tlm, evt, irq, rfl⟩ := hcounts.eq_counting
      obtain ⟨hreads, hengines, hframe⟩ := State.gatherReads_gatherRead (s := s.counting tlm evt irq) (i := i.val) (kind := .gatherPage)
        (a := a) (n := n) (rix := r) (pos := g.pos) (g := fun g => { g with pos := g.pos + n, flight := g.flight + 1 }) rfl hbusy hnew hsound
        hne hopen
      exact ⟨hreads, hengines, hcounts.counted.trans (Counted.of_frame hframe (by decide) (by decide)),
        (hcounts.frame.mono (by decide)).trans (hframe.mono (by decide))⟩

end Sys2Proof.Machine
end

section
/-! ### The beats of a gather engine (R368, R369, R376) -/

namespace Sys2Proof.Machine

variable {s t u : State} {i : Nat}

/-- Between `s` and `t` bad pages of engine `i` have been counted. -/
structure State.BadCounted (i : Nat) (s t : State) : Prop where
  trk : t.fab.trk = s.fab.trk
  engine : ∃ b, t.fab.engine i = { s.fab.engine i with bad := b }
  counted : Counted s t
  frame : Frame [.fab, .ctl, .evt, .mbx] s t

namespace State.BadCounted

theorem of_counts (h : State.CountsOnly s t) : BadCounted i s t :=
  have hfab : t.fab = s.fab := h.frame.2 .fab (by decide)
  ⟨by rw [hfab], ⟨_, by rw [hfab]⟩, h.counted, h.frame.mono (by decide)⟩

theorem trans (h1 : BadCounted i s t) (h2 : BadCounted i t u) : BadCounted i s u := by
  obtain ⟨b, hb⟩ := h1.engine
  obtain ⟨b', hb'⟩ := h2.engine
  exact ⟨h2.trk.trans h1.trk, ⟨b', by rw [hb', hb]⟩, h1.counted.trans h2.counted, h1.frame.trans h2.frame⟩

theorem engBusy (h : BadCounted i s t) : t.fab.engBusy i = s.fab.engBusy i := by
  obtain ⟨b, hb⟩ := h.engine
  rw [Fab.engBusy, hb, Fab.engBusy]

theorem mark (hbusy : s.fab.engBusy i = true) (b : Nat) : BadCounted i s (s.modFab fun f => f.modEngine i fun g => { g with bad := b }) :=
  ⟨rfl, ⟨b, Fab.engine_modEngine (by simpa [Fab.engBusy] using hbusy)⟩, ⟨rfl, rfl⟩, (s.modFab_frame _).mono (by decide)⟩

theorem countBad (hbusy : s.fab.engBusy i = true) (port : Nat) (us : List (Nat × RspStatus × Line)) :
    BadCounted i s (s.countBad i port us) := by
  refine State.each_induct (P := BadCounted i s) (fun t a ht => ?_) us (of_counts (.refl s))
  dsimp only
  split
  · exact ht.trans ((mark (by rw [ht.engBusy]; exact hbusy) _).trans (of_counts (.count ..)))
  · exact ht

end State.BadCounted

/-- The units of the next stream beat. -/
def State.gatherUnits (s : State) (i : Nat) : List (Nat × RspStatus × Line) :=
  (List.range 4).filterMap fun j => (s.fab.engine i).units.find? fun t => t.1 == 4 * (s.gatherOf i).beats + j

/-- The state in which a stream beat before the last one has been driven. -/
def State.gatherDriven (s : State) (i : Nat) : State :=
  let x := s.gatherOf i
  let us := s.gatherUnits i
  s.driveRsp x.sub (us.foldl (fun a u => a + u.2.2.toNat * 2 ^ (512 * (u.1 % 4))) 0)
    (rspHeader x.req.tag (gatherStatus (us.map (·.2.1))) eOk true false x.beats)

theorem State.atPort_gatherDriven (hwf : Tab.wf Port.reset s.ports = true) (i : Nat) : State.AtPort (s.gatherOf i).sub
    { s.port (s.gatherOf i).sub with
      rsp := BitVec.ofNat 2096 ((s.gatherUnits i).foldl (fun a u => a + u.2.2.toNat * 2 ^ (512 * (u.1 % 4))) 0 +
        rspHeader (s.gatherOf i).req.tag (gatherStatus ((s.gatherUnits i).map (·.2.1))) eOk true false (s.gatherOf i).beats *
          (if isTile (s.gatherOf i).sub then 2 ^ 2048 else 2 ^ 256))
      rspValid := true
      rspCrd := (s.port (s.gatherOf i).sub).rspCrd - 1 } s (s.gatherDriven i) :=
  (State.AtPort.of_ports hwf (s.gatherOf i).sub (t := s) rfl).driveRsp ..

/-- The counts of a stream beat (R376). -/
def State.gatherCounted (s : State) (i port : Nat) (us : List (Nat × RspStatus × Line)) : State :=
  (s.countBad i port us).statSub port 12 (64 * us.length)

theorem State.badCounted_gatherCounted (hbusy : s.fab.engBusy i = true) (port : Nat) (us : List (Nat × RspStatus × Line)) :
    State.BadCounted i s (s.gatherCounted i port us) := (State.BadCounted.countBad hbusy port us).trans (.of_counts (.count ..))

theorem feed_plain_foldl {α : Type} (s : State) (k d : Nat) (a : DgAcc) (addr v n : α → Nat) (l : List α) :
    l.foldl (fun (y : State × DgAcc) u => y.1.feed k false d y.2 (addr u) (v u) (n u)) (s, a) = (s, a) := by
  induction l with
  | nil => rfl
  | cons b l ih => exact ih

theorem exec_gatherBeat {i : Fin 16} (hsettled : s.settleEngine i.val = s) (hlive : s.portsLive = true)
    (hbusy : s.fab.engBusy i.val = true) (hdrop : (s.fab.engine i.val).drop = false) (hmask : s.isMasked (s.gatherOf i.val).sub = false)
    (hfin : (s.gatherOf i.val).fin = none) (hdig : (s.gatherOf i.val).req.digest = false)
    (hcrd : (s.port (s.gatherOf i.val).sub).rspCrd ≠ 0) (hcur : (s.port (s.gatherOf i.val).sub).cur = none)
    (hmore : 4 * (s.gatherOf i.val).beats + 4 < gUnits (s.fab.engine i.val).desc) (hunits : (s.gatherUnits i.val).length = 4) :
    exec (.gatherBeat i) s = .next ((((s.gatherDriven i.val).gatherCounted i.val (s.gatherOf i.val).sub (s.gatherUnits i.val)).modEntry
      (s.gatherOf i.val).id fun y => { y with beats := (s.gatherOf i.val).beats + 1, dg := (s.gatherOf i.val).dg }).modFab fun f =>
        f.modEngine i.val fun g => { g with units := g.units.filter fun t => decide (4 * (s.gatherOf i.val).beats + 4 ≤ t.1) }) := by
  have hwant : ((List.range 4).filterMap fun j => if 4 * (s.gatherOf i.val).beats + j < gUnits (s.fab.engine i.val).desc then
      some (4 * (s.gatherOf i.val).beats + j) else none) = (List.range 4).map fun j => 4 * (s.gatherOf i.val).beats + j := by
    rw [← List.filterMap_eq_map]
    refine List.filterMap_congr fun j hj => ?_
    have := List.mem_range.1 hj
    exact if_pos (by omega)
  have hus : ((List.range 4).map fun j => 4 * (s.gatherOf i.val).beats + j).filterMap (fun u =>
      (s.fab.engine i.val).units.find? fun t => t.1 == u) = s.gatherUnits i.val := by
    rw [List.filterMap_map]
    rfl
  change execGatherBeat i s = _
  simp only [execGatherBeat, hsettled, hlive, hbusy, hdrop, hmask, hfin, hdig, hwant, hus, hunits, hcrd, hcur, Nat.not_le.2 hmore,
    feed_plain_foldl, List.length_map, List.length_range, Nat.lt_irrefl, Bool.not_true, Option.isSome_none, decide_false, Bool.or_self,
    Bool.false_eq_true, if_false]
  rw [State.gatherCounted, hunits]
  rfl

/-- Settles O28: a whole beat is driven, its units leave staging. -/
theorem gatherBeatDriven : Obligations.GatherBeatDriven := by
  unfold Obligations.GatherBeatDriven
  intro i s hcanon hsettled hlive hbusy g x us hdrop hmask hfin hdig hcrd hcur hmore hunits
  obtain ⟨-, hwf, -⟩ := hcanon
  have hus : us = s.gatherUnits i.val := rfl
  clear_value us
  subst hus
  have hdrive : Frame [.ports] s (s.gatherDriven i.val) := s.driveRsp_frame ..
  have hbusy' : (s.gatherDriven i.val).fab.engBusy i.val = true := hbusy
  have hcounts := State.badCounted_gatherCounted hbusy' x.sub (s.gatherUnits i.val)
  have hlast : Frame [.fab] _ ((((s.gatherDriven i.val).gatherCounted i.val x.sub (s.gatherUnits i.val)).modEntry x.id fun y =>
      { y with beats := x.beats + 1, dg := x.dg }).modFab fun f => f.modEngine i.val fun g =>
        { g with units := g.units.filter fun t => decide (4 * x.beats + 4 ≤ t.1) }) := (State.modFab_frame ..).trans (State.modFab_frame ..)
  have hport := (State.atPort_gatherDriven hwf i.val).congr ((hlast.2 .ports (by decide)).trans (hcounts.frame.2 .ports (by decide)))
  refine ⟨_, exec_gatherBeat hsettled hlive hbusy hdrop hmask hfin hdig hcrd hcur hmore hunits, hport.here, ?_, ?_, hport.there, ?_, ?_⟩
  · exact congrArg (List.map _) hcounts.trk
  · obtain ⟨b, hb⟩ := hcounts.engine
    have hbusy2 := hcounts.engBusy.trans hbusy'
    have hne : (((s.gatherDriven i.val).gatherCounted i.val x.sub (s.gatherUnits i.val)).fab.engine i.val).eid ≠ 0 := by
      simpa [Fab.engBusy] using hbusy2
    refine (congrArg Gth.units (Fab.engine_modEngine hne)).trans ?_
    exact congrArg (fun g : Gth => g.units.filter fun t => decide (4 * x.beats + 4 ≤ t.1)) hb
  · exact (Counted.of_frame hdrive (by decide) (by decide)).trans (hcounts.counted.trans (Counted.of_frame hlast (by decide) (by decide)))
  · exact (hdrive.mono (by decide)).trans ((hcounts.frame.mono (by decide)).trans (hlast.mono (by decide)))

end Sys2Proof.Machine
end

section
/-! ### The end of a launch (R141, R448, R478, R482) -/

namespace Sys2Proof.Machine

variable {s : State} {n : Nat} {l : Launch}

theorem State.filter_lateOnce (s : State) (id : Nat) :
    (s.lateOnce id).fab.trk.filter (fun x => x.id != id) = s.fab.trk.filter fun x => x.id != id := by
  unfold State.lateOnce
  split
  · rfl
  · next e he =>
    split
    · rfl
    · change ((s.countLate e).fab.modEntry id fun x => { x with counted := true }).trk.filter _ = _
      rw [State.countLate_fab]
      exact Fab.filter_modEntry _ _ fun _ => rfl

/-- A decided entry leaves the rest of the tracker, and of the fabric, as it was. -/
theorem State.filter_decideEntry (s : State) (id : Nat) (st : RspStatus) (err : BitVec 8) :
    (s.decideEntry id st err).fab.trk.filter (fun x => x.id != id) = s.fab.trk.filter (fun x => x.id != id) ∧
      (s.decideEntry id st err).fab = { s.fab with trk := (s.decideEntry id st err).fab.trk } := by
  have hid (x : Entry) : (if x.fin.isSome then x else x.done st err).id = x.id := by split <;> rfl
  have hfab := (State.uncounted_lateOnce (s.modEntry id fun e => if e.fin.isSome then e else e.done st err) id).2
  exact ⟨(State.filter_lateOnce _ id).trans (Fab.filter_modEntry _ _ hid), hfab⟩

theorem State.entry_decideEntry {e : Entry} {st : RspStatus} {err : BitVec 8} (he : s.fab.entry e.id = some e) (hfin : e.fin = none)
    (hcounted : e.counted = false) :
    (s.decideEntry e.id st err).fab.entry e.id = some { e with fin := some ⟨st, err⟩, counted := true } := by
  have hid (x : Entry) : (if x.fin.isSome then x else x.done st err).id = x.id := by split <;> rfl
  have hmark (x : Entry) : ({ x with counted := true } : Entry).id = x.id := rfl
  rw [State.fab_decideEntry he hfin hcounted, Fab.entry_modEntry hmark, Fab.entry_modEntry hid, he]
  simp [hfin, Entry.done]

theorem exec_brewLaunchCommit (hl : s.fab.launches[n]? = some l) : exec (.brewLaunchCommit n) s =
    .next (if l.why.isSome || !(l.chans.all fun c => l.commits.contains c) then s
      else s.modFab fun f => f.modLaunch l.eid fun l => { l with why := some .ok }) := by
  change execBrewLaunchCommit n s = _
  simp only [execBrewLaunchCommit, hl]

/-- The state without a launch. -/
def State.launchGone (s : State) (l : Launch) : State := s.modFab fun f => { f with launches := f.launches.filter fun x => x.eid != l.eid }

theorem exec_brewLaunchEnd {st : RspStatus} (hl : s.fab.launches[n]? = some l) (hwhy : l.why = some st)
    (hended : ∀ c ∈ l.chans, l.commits.contains c = true ∨ l.stopped.contains c = true) :
    ∃ t, State.CountsOnly ((s.launchGone l).decideEntry l.eid st eOk) t ∧ exec (.brewLaunchEnd n) s = .next t := by
  have hall : l.chans.all l.endedOn = true := List.all_eq_true.2 fun c hc => by
    rw [Launch.endedOn, hwhy]
    simpa using hended c hc
  have hcounts : State.CountsOnly ((s.launchGone l).decideEntry l.eid st eOk)
      (if st = .aborted then ((s.launchGone l).decideEntry l.eid st eOk).statSub l.port 14 1
        else (s.launchGone l).decideEntry l.eid st eOk) := .ite (.count ..) (.refl _)
  refine ⟨_, hcounts, ?_⟩
  change execBrewLaunchEnd n s = _
  simp only [execBrewLaunchEnd, hl, hwhy, hall]
  rfl

/-- Settles O33: the commit of every channel decides the status, and the end of every channel ends the launch. -/
theorem brewLaunchEnded : Obligations.BrewLaunchEnded := by
  unfold Obligations.BrewLaunchEnded
  refine fun n s l hl => ⟨fun hwhy hall => ?_, fun hwhy ⟨c, hc, hopen⟩ => ?_, fun st hwhy hended => ?_⟩
  · rw [exec_brewLaunchCommit hl, if_neg (by simp [hwhy]; simpa using hall)]
    rfl
  · rw [exec_brewLaunchCommit hl, if_pos (by simp [hwhy]; exact ⟨c, hc, by simpa using hopen⟩)]
  · obtain ⟨t, hcounts, hexec⟩ := exec_brewLaunchEnd hl hwhy hended
    have hfab : t.fab = ((s.launchGone l).decideEntry l.eid st eOk).fab := hcounts.frame.2 .fab (by decide)
    obtain ⟨htrk, hrest⟩ := (s.launchGone l).filter_decideEntry l.eid st eOk
    have hgone : Frame [.fab] s (s.launchGone l) := s.modFab_frame _
    refine ⟨t, hexec, ?_, ?_, fun e he hfin hcounted => ?_, ?_, ?_⟩
    · rw [hfab, hrest]
      rfl
    · rw [hfab, htrk]
      rfl
    · have hid : e.id = l.eid := by simpa using List.find?_some he
      rw [hfab, ← hid]
      exact State.entry_decideEntry (s := s.launchGone l) (hid ▸ he) hfin hcounted
    · exact (Counted.of_frame hgone (by decide) (by decide)).trans ((State.decideEntry_counted ..).trans hcounts.counted)
    · exact (hgone.mono (by decide)).trans ((State.decideEntry_frame ..).trans (hcounts.frame.mono (by decide)))

end Sys2Proof.Machine
end

section
/-! ### A channel alone moves (R459, R594) -/

namespace Sys2Proof.Machine

variable {s t u : State} {p : Nat} {x : Slice}

/-- Between `s` and `t` island `p` has come to hold `x`, and nothing else of the state has changed. -/
structure State.Alone (p : Nat) (x : Slice) (s t : State) : Prop where
  island : State.Island p x s t
  frame : Frame [.slices] s t

namespace State.Alone

theorem refl (h : Tab.wf Slice.reset s.slices = true) (p : Nat) : Alone p (s.slice p) s s := ⟨.refl h p, .refl ..⟩

theorem here (h : Alone p x s t) : t.slice p = x := h.island.here

theorem modSlice (h : Alone p x s t) (f : Slice → Slice) : Alone p (f x) s (t.modSlice p f) :=
  ⟨h.island.modSlice f, h.frame.trans (State.modSlice_frame ..)⟩

theorem modBrew (h : Alone p x s t) (f : BrewSeq → BrewSeq) : Alone p { x with brew := f x.brew } s (t.modBrew p f) :=
  h.modSlice fun x => { x with brew := f x.brew }

theorem modSch (h : Alone p x s t) (f : Sched → Sched) : Alone p { x with sch := f x.sch } s (t.modSch p f) :=
  h.modSlice fun x => { x with sch := f x.sch }

theorem modBt (h : Alone p x s t) (f : BankSet → BankSet) : Alone p { x with bt := f x.bt } s (t.modBt p f) :=
  h.modSlice fun x => { x with bt := f x.bt }

theorem modLink (h : Alone p x s t) (f : Link → Link) : Alone p { x with link := f x.link } s (t.modLink p f) :=
  h.modSlice fun x => { x with link := f x.link }

theorem sendRow (h : Alone p x s t) (op fields : Nat) :
    Alone p { x with link := x.link.send x.sch.cclk false (rowHalf op fields) } s (t.sendRow p op fields) := by
  rw [State.sendRow, h.here]
  exact h.modLink fun l => l.send x.sch.cclk false (rowHalf op fields)

/-- A loop over banks that changes their timing alone. -/
theorem eachBt {g : State → Nat → State} {f : BankSet → Nat → BankSet}
    (hg : ∀ (t : State) (x : Slice) (i : Nat), Alone p x s t → Alone p { x with bt := f x.bt i } s (g t i)) (h : Alone p x s t)
    (banks : List Nat) : Alone p { x with bt := banks.foldl f x.bt } s (t.each banks g) := by
  unfold State.each
  induction banks generalizing t x with
  | nil => exact h
  | cons i l ih => exact ih (hg t x i h)

end State.Alone

/-- The loan bit of each of these banks set to `v` (R459). -/
def BankSet.loaned (b : BankSet) (banks : List Nat) (v : Bool) : BankSet :=
  banks.foldl (fun b i => b.modBank i fun y => { y with loan := v }) b

/-- The open ones of these banks precharged at CCLK `t`. -/
def BankSet.closed (b : BankSet) (banks : List Nat) (t : Nat) : BankSet :=
  banks.foldl (fun b i => if (b.bank i).openRow.isSome then b.pre i t else b) b

theorem State.Alone.setLoan (h : Alone p x s t) (v : Bool) :
    Alone p { x with bt := x.bt.loaned x.brew.banks v } s (t.setLoan p v) := by
  rw [State.setLoan, h.here]
  exact .eachBt (f := fun b i => b.modBank i fun y => { y with loan := v }) (fun _ _ i h => h.modBt fun b => b.modBank i _) h _

theorem State.Alone.brewPre (h : Alone p x s t) (n : Nat) :
    Alone p { x with bt := x.bt.closed x.brew.banks n, link := x.link.send x.sch.cclk false (rowHalf 2 bcBit) } s (t.brewPre p n) := by
  rw [State.brewPre, h.here]
  refine State.Alone.sendRow (.eachBt (f := fun b i => if (b.bank i).openRow.isSome then b.pre i n else b) (fun t x i h => ?_) h _) _ _
  rw [h.here]
  split
  · exact h.modBt fun b => b.pre i n
  · exact h

end Sys2Proof.Machine
end

section
/-! ### Preemption (R461 to R464) -/

namespace Sys2Proof.Machine

variable {s : State} {p : Fin 144} {o : OpWord}

/-- The launch on island `p` has stopped at a preemption point for an urgent read. -/
def State.preempted (s : State) (p : Nat) : State :=
  (((s.brewPre p (s.slice p).sch.cclk).setLoan p false).modSch p fun x => { x with rowTaken := true }).modBrew p fun q =>
    { q with stopped := true, stopWhy := 1, rd := 0 }

theorem exec_brewPreempt (hop : (s.slice p.val).brew.op = some o) (hurgent : s.urgentRead p.val = true)
    (hlive : s.sliceLive p.val = true) (hstopped : (s.slice p.val).brew.stopped = false)
    (hkilled : (s.slice p.val).brew.killed = false) (hat : s.atPreempt p.val o = true)
    (hpre : s.brewPreOk p.val (s.slice p.val).sch.cclk = true) (hrow : (s.slice p.val).sch.rowTaken = false)
    (hheld : (s.slice p.val).sch.held = 0) (hbank : s.urgentBank p.val = none) :
    exec (.brewPreempt p) s = .next ((s.preempted p.val).statSlice p.val 5 1) := by
  change execBrewPreempt p s = _
  simp only [execBrewPreempt, hop, hurgent, hlive, hstopped, hkilled, hat, hpre, hrow, hheld, hbank, if_true, Bool.not_true,
    Bool.or_self, Bool.false_eq_true, if_false, Option.isSome_none, State.preempted]
  rfl

/-- The launch on island `p` goes on. -/
def State.resumed (s : State) (p : Nat) : State :=
  let s1 := s.modBrew p fun q =>
    { q with stopped := false, stopWhy := 0, seg := 0, stopOpen := false, rd := if (s.slice p).brew.op.isSome then 1 else 0 }
  if (s.slice p).brew.op.isSome then s1.setLoan p true else s1

theorem exec_brewResume (hlive : s.brewLive p.val = true) (hstopped : (s.slice p.val).brew.stopped = true)
    (hurgent : s.urgentRead p.val = false) (href : s.urgentRef p.val = false) (hcool : s.brewCool p.val = true) :
    exec (.brewResume p) s = .next (s.resumed p.val) := by
  change execBrewResume p s = _
  simp only [execBrewResume, hlive, hstopped, hurgent, href, hcool, Bool.not_true, Bool.or_self, Bool.false_eq_true, if_false,
    State.resumed]
  rfl

theorem State.alone_preempted (hwf : Tab.wf Slice.reset s.slices = true) (p : Nat) :
    State.Alone p { s.slice p with
      brew := { (s.slice p).brew with stopped := true, stopWhy := 1, rd := 0 }
      bt := ((s.slice p).bt.closed (s.slice p).brew.banks (s.slice p).sch.cclk).loaned (s.slice p).brew.banks false
      sch := { (s.slice p).sch with rowTaken := true }
      link := (s.slice p).link.send (s.slice p).sch.cclk false (rowHalf 2 bcBit) } s (s.preempted p) :=
  ((((State.Alone.refl hwf p).brewPre (s.slice p).sch.cclk).setLoan false).modSch
    fun x => { x with rowTaken := true }).modBrew fun q => { q with stopped := true, stopWhy := 1, rd := 0 }

theorem State.alone_resumed (hwf : Tab.wf Slice.reset s.slices = true) (p : Nat) :
    State.Alone p { s.slice p with
      brew := { (s.slice p).brew with
        stopped := false, stopWhy := 0, seg := 0, stopOpen := false, rd := if (s.slice p).brew.op.isSome then 1 else 0 }
      bt := if (s.slice p).brew.op.isSome then (s.slice p).bt.loaned (s.slice p).brew.banks true else (s.slice p).bt }
      s (s.resumed p) := by
  have hgo := (State.Alone.refl hwf p).modBrew fun q =>
    { q with stopped := false, stopWhy := 0, seg := 0, stopOpen := false, rd := if (s.slice p).brew.op.isSome then 1 else 0 }
  unfold State.resumed
  cases hop : (s.slice p).brew.op.isSome
  · simp only [hop, Bool.false_eq_true, if_false] at hgo ⊢
    exact hgo
  · simp only [hop, if_true] at hgo ⊢
    exact hgo.setLoan true

/-- Settles O32: a stopped launch has its banks precharged and returned, and one that goes on takes them again within an op. -/
theorem brewPreempted : Obligations.BrewPreempted := by
  unfold Obligations.BrewPreempted
  intro p s ⟨_, _, hwf, _⟩
  refine ⟨fun o hop hurgent hlive hstopped hkilled hat hpre hrow hheld hbank => ?_, fun hlive hstopped hurgent href hcool => ?_⟩
  · have halone := State.alone_preempted hwf p.val
    have hcounts : State.CountsOnly (s.preempted p.val) ((s.preempted p.val).statSlice p.val 5 1) := .count ..
    have hisland := halone.island.congr (hcounts.frame.2 .slices (by decide))
    exact ⟨_, exec_brewPreempt hop hurgent hlive hstopped hkilled hat hpre hrow hheld hbank, hisland.here, hisland.there,
      (Counted.of_frame halone.frame (by decide) (by decide)).trans hcounts.counted,
      (halone.frame.mono (by decide)).trans (hcounts.frame.mono (by decide))⟩
  · have halone := State.alone_resumed hwf p.val
    exact ⟨_, exec_brewResume hlive hstopped hurgent href hcool, halone.here, halone.island.there, halone.frame⟩

end Sys2Proof.Machine
end

section
/-! ### A channel starts the launch and the op that wait for it (R445, R450, R459, R460) -/

namespace Sys2Proof.Machine

variable {s t u : State} {p : Nat} {x y : Slice} {o : OpWord} {l : Launch} {c : Nat}

theorem State.Island.trans (h1 : State.Island p x s t) (h2 : State.Island p y t u) : State.Island p y s u :=
  ⟨h2.wf, h2.here, fun j hj => (h2.there j hj).trans (h1.there j hj)⟩

/-- A step that leaves the slices alone leaves the island as it was. -/
theorem State.Island.framed {ps : List Part} (h : State.Island p x s t) (hf : Frame ps t u) (hs : Part.slices ∉ ps := by decide) :
    State.Island p x s u := h.congr (hf.2 .slices hs)

theorem State.Island.sendRow (h : State.Island p x s t) (op fields : Nat) :
    State.Island p { x with link := x.link.send x.sch.cclk false (rowHalf op fields) } s (t.sendRow p op fields) := by
  have hsend := h.trans ((State.Alone.refl h.wf p).sendRow op fields).island
  rw [h.here] at hsend
  exact hsend

/-- The launch has started on channel `c`, and its BSET is sent (R445, R450). -/
def State.launchStarted (s : State) (p c : Nat) (l : Launch) : State :=
  let m := BitVec.ofNat 32 (fld l.desc 32 32)
  let s1 := s.modBrew p fun q =>
    (setBits m).foldl (fun q b => q.clearRegs b 255) { q with cur := some l.eid, mask := m, bset := (s.slice p).sch.cclk + 1 }
  ((s1.modFab fun f => f.modLaunch l.eid fun l => { l with started := insertNat c l.started }).modSch p fun x =>
    { x with rowTaken := true }).sendRow p 6 (m.toNat * 2 ^ 4 + 2 ^ 36)

theorem State.launchStarted_island (hwf : Tab.wf Slice.reset s.slices = true) :
    State.Island p { s.slice p with
      brew := (setBits (BitVec.ofNat 32 (fld l.desc 32 32))).foldl (fun q b => q.clearRegs b 255) { (s.slice p).brew with
        cur := some l.eid, mask := BitVec.ofNat 32 (fld l.desc 32 32), bset := (s.slice p).sch.cclk + 1 }
      sch := { (s.slice p).sch with rowTaken := true }
      link := (s.slice p).link.send (s.slice p).sch.cclk false
        (rowHalf 6 ((BitVec.ofNat 32 (fld l.desc 32 32)).toNat * 2 ^ 4 + 2 ^ 36)) } s (s.launchStarted p c l) := by
  have hbset := (State.Alone.refl hwf p).modBrew fun q =>
    (setBits (BitVec.ofNat 32 (fld l.desc 32 32))).foldl (fun q b => q.clearRegs b 255) { q with
      cur := some l.eid, mask := BitVec.ofNat 32 (fld l.desc 32 32), bset := (s.slice p).sch.cclk + 1 }
  have hfab := hbset.island.framed (State.modFab_frame _ fun f => f.modLaunch l.eid fun l => { l with started := insertNat c l.started })
  exact (hfab.modSch fun x => { x with rowTaken := true }).sendRow 6 _

theorem State.launchStarted_frame (s : State) (p c : Nat) (l : Launch) : Frame [.slices, .fab] s (s.launchStarted p c l) :=
  ((s.modSlice_frame ..).mono (by decide)).trans (((State.modFab_frame ..).mono (by decide)).trans
    (((State.modSlice_frame ..).mono (by decide)).trans ((State.sendRow_frame ..).mono (by decide))))

theorem exec_brewLaunchStart {p : Fin 144} (hlive : s.brewLive p.val = true) (hc : s.stk.chanOf p.val = some c)
    (hl : (s.fab.launches.find? fun l => l.chans.contains c && !l.endedOn c) = some l) (hmig : s.migrating p.val = false)
    (hcur : (s.slice p.val).brew.cur = none) (hstarted : l.started.contains c = false) (hwhy : l.why = none)
    (hnops : l.nops ≠ 0) (hvis : l.vis ≤ s.sys.ltc) (hrow : (s.slice p.val).sch.rowTaken = false)
    (hbank : s.urgentBank p.val = none) (hok : (s.slice p.val).bt.okAny ≤ (s.slice p.val).sch.cclk) :
    exec (.brewLaunchStart p) s = .next (s.launchStarted p.val c l) := by
  change execBrewLaunchStart p s = _
  simp only [execBrewLaunchStart, hc, hl, hlive, hmig, hcur, hstarted, hwhy, hnops, hrow, hbank, Nat.not_lt.2 hvis, Nat.not_lt.2 hok,
    Bool.not_true, decide_false, Bool.or_self, Bool.false_eq_true, if_false, Option.isSome_none, State.launchStarted]

/-- The op is in progress, its banks are on loan, and the narrow lines that it will overwrite are gone (R105, R459). -/
def State.opBegun (s : State) (p : Nat) (o : OpWord) : State :=
  ((s.modBrew p fun q => { q with op := some o, rd := 1, prog := 0, seg := 0 }).dropBrew p o).setLoan p true

/-- The narrow lines without those that an op will overwrite. -/
def ChData.spared (d : ChData) (banks : List Nat) (o : OpWord) : ChData :=
  { d with nrb := d.nrb.filter fun kv => !opWrites banks o (keyBank kv.1) (keyRow kv.1) (keyCol kv.1) }

/-- The reads in flight, of which those that an op will overwrite bring no line back. -/
def Sched.spared (x : Sched) (banks : List Nat) (o : OpWord) : Sched :=
  { x with flight := x.flight.map fun f => if opWrites banks o f.bank f.row f.col then { f with nobuf := true } else f }

theorem State.Alone.dropBrew (h : State.Alone p x s t) (o : OpWord) :
    State.Alone p { x with dat := x.dat.spared x.brew.banks o, sch := x.sch.spared x.brew.banks o } s (t.dropBrew p o) := by
  rw [State.dropBrew, h.here]
  exact h.modSlice fun y => { y with dat := y.dat.spared x.brew.banks o, sch := y.sch.spared x.brew.banks o }

theorem State.opBegun_alone (hwf : Tab.wf Slice.reset s.slices = true) (p : Nat) (o : OpWord) :
    State.Alone p { s.slice p with
      brew := { (s.slice p).brew with op := some o, rd := 1, prog := 0, seg := 0 }
      dat := (s.slice p).dat.spared (s.slice p).brew.banks o
      sch := (s.slice p).sch.spared (s.slice p).brew.banks o
      bt := (s.slice p).bt.loaned (s.slice p).brew.banks true } s (s.opBegun p o) :=
  (((State.Alone.refl hwf p).modBrew fun q => { q with op := some o, rd := 1, prog := 0, seg := 0 }).dropBrew o).setLoan true

theorem BankSet.loan_modBank {b : BankSet} {i j : Nat} (h : i = j ∨ (b.bank j).loan = true) :
    ((b.modBank i fun y => { y with loan := true }).bank j).loan = true := by
  by_cases hij : j = i
  · subst hij
    exact congrArg BankT.loan (Tab.get_set_of_ne_default (fun h => absurd (congrArg BankT.loan h) (by simp [BankT.reset])) ..)
  · refine (congrArg BankT.loan (Tab.get_set_ne _ hij)).trans (h.resolve_left (Ne.symm hij))

theorem BankSet.loan_loaned {b : BankSet} {banks : List Nat} {j : Nat} (h : j ∈ banks ∨ (b.bank j).loan = true) :
    ((b.loaned banks true).bank j).loan = true := by
  unfold BankSet.loaned
  induction banks generalizing b with
  | nil => simpa using h
  | cons i l ih =>
    refine ih ?_
    rcases h with hj | hloan
    · rcases List.mem_cons.1 hj with rfl | hj
      · exact .inr (loan_modBank (.inl rfl))
      · exact .inl hj
    · exact .inr (loan_modBank (.inr hloan))

/-! #### Row ops (R453 to R458) -/

theorem State.Tracked.each {α : Type} {f : State → α → State} (h : ∀ s a, State.Tracked p s (f s a)) (l : List α) :
    State.Tracked p s (s.each l f) :=
  State.each_induct (P := State.Tracked p s) (fun t a ht => ht.trans (h t a)) l (.refl p s)

theorem State.countActs_frame (s : State) (p k n : Nat) : Frame [.fab] s (s.countActs p k n) := by
  unfold State.countActs
  split
  · split
    · exact s.modFab_frame _
    · exact .refl ..
  · exact .refl ..

theorem State.brewHeat_frame (s : State) (p n : Nat) : Frame [.fab] s (s.brewHeat p n) := by
  unfold State.brewHeat
  split
  · split
    · exact s.modFab_frame _
    · exact .refl ..
  · exact .refl ..

theorem State.lateCharge_frame (s : State) (m svc n : Nat) : Frame [.fab, .ctl, .evt, .mbx] s (s.lateCharge m svc n) :=
  (s.charged_lateCharge m svc n).frame

/-- What the start of a row op may touch. -/
abbrev rowOpParts : List Part := [.sys, .slices, .fab, .ctl, .evt, .mbx]

theorem State.brewCount_island (hwf : Tab.wf Slice.reset s.slices = true) (p n k : Nat) (rows : List Nat) :
    (∃ bt rf, State.Island p { s.slice p with bt := bt, rf := rf } s (s.brewCount p n k rows)) ∧
      Frame rowOpParts s (s.brewCount p n k rows) := by
  have hbt := (State.Alone.refl hwf p).modBt fun b => b.didAct (fawWeight (s.slice p).brew.banks.length) n
  have hcnt := State.countActs_frame (s.modBt p fun b => b.didAct (fawWeight (s.slice p).brew.banks.length) n) p k
    (s.slice p).brew.banks.length
  have hisland := hbt.island.congr (hcnt.2 .slices (by decide))
  have htrack : State.Tracked p _ (s.brewCount p n k rows) :=
    .each (fun s i => .each (fun s r => .track s p i r k) rows) (s.slice p).brew.banks
  have h := hisland.trans (htrack.island hisland.wf)
  rw [hisland.here] at h
  exact ⟨⟨_, _, h⟩, (hbt.frame.mono (by decide)).trans ((hcnt.mono (by decide)).trans htrack.frame)⟩

theorem State.startRowOp_island (hwf : Tab.wf Slice.reset s.slices = true) (p n : Nat) (o : OpWord) (l : Launch) :
    (∃ bt rf link, State.Island p { s.slice p with
      bt := bt, rf := rf, link := link
      brew := { (s.slice p).brew with endAt := n + s.rowOpTime p o }
      sch := { (s.slice p).sch with rowTaken := true } } s (s.startRowOp p n o l)) ∧
      Frame rowOpParts s (s.startRowOp p n o l) := by
  obtain ⟨⟨bt, rf, hcount⟩, hframe⟩ := s.brewCount_island hwf p n l.port (rowsNamed o)
  have hrow := (((hcount.modSlice fun x => { x with bt := (s.slice p).brew.banks.foldl (fun b i =>
      b.modBank i fun y => { y with okAct := max y.okAct (n + s.rowOpTime p o) }) x.bt }).modSlice
    fun x => { x with brew := { x.brew with endAt := n + s.rowOpTime p o } }).modSch fun x => { x with rowTaken := true }).sendRow 7
      (opOpc o * 2 ^ 4 + opD0 o * 2 ^ 7 + opD1 o * 2 ^ 21 + opD2 o * 2 ^ 35)
  have hmod (t : State) (f : Slice → Slice) : Frame rowOpParts t (t.modSlice p f) := (t.modSlice_frame p f).mono (by decide)
  exact ⟨⟨_, _, _, (hrow.framed (State.lateCharge_frame ..)).framed (State.brewHeat_frame ..)⟩,
    hframe.trans ((hmod ..).trans ((hmod ..).trans ((hmod ..).trans ((hmod ..).trans
      (((State.lateCharge_frame ..).mono (by decide)).trans ((State.brewHeat_frame ..).mono (by decide)))))))⟩

theorem exec_brewOpStart {p : Fin 144} (hlive : s.brewLive p.val = true) (hl : s.launchOn p.val = some l)
    (hnext : (s.slice p.val).brew.next = some o) (hkilled : (s.slice p.val).brew.killed = false)
    (hstopped : (s.slice p.val).brew.stopped = false) (hseen : s.brewSeen p.val = true) (hfree : s.opFree p.val o = true)
    (hcool : s.brewCool p.val = true) (href : s.urgentRef p.val = false) :
    exec (.brewOpStart p) s = .next (
      if isRowOp o then
        if !s.brewClosed p.val || !s.brewActOk p.val (s.slice p.val).sch.cclk l.port (rowsNamed o) ||
            s.rowBusy p.val (s.slice p.val).sch.cclk o l || (s.slice p.val).sch.cclk < (s.slice p.val).brew.bset then s
        else (s.startRowOp p.val (s.slice p.val).sch.cclk o l).opBegun p.val o
      else if isMacAcc o && s.macBehind p.val (s.slice p.val).sch.cclk o l then s
      else (s.modBrew p.val fun q => { q with endAt := (s.slice p.val).sch.cclk + 1 }).opBegun p.val o) := by
  change execBrewOpStart p s = _
  simp only [execBrewOpStart, hl, hnext, hlive, hkilled, hstopped, hseen, hfree, hcool, href, Bool.not_true, Bool.or_self,
    Bool.false_eq_true, if_false, State.opBegun]

/-- Settles O30: the launch's BSET and the op's start, on the channel's own state. -/
theorem brewStarted : Obligations.BrewStarted := by
  unfold Obligations.BrewStarted
  intro p s ⟨_, _, hwf, _⟩ hlive
  refine ⟨fun c l hc hl hmig hcur hstarted hwhy hnops hvis hrow hbank hok => ?_,
    fun l o hl hnext hkilled hstopped hseen hfree hcool href => ⟨fun hrow hmac => ?_, fun hrow hclosed hbset hact hbusy => ?_⟩⟩
  · have hisland := State.launchStarted_island (c := c) (l := l) (p := p.val) hwf
    exact ⟨_, exec_brewLaunchStart hlive hc hl hmig hcur hstarted hwhy hnops hvis hrow hbank hok, hisland.here, rfl, hisland.there,
      s.launchStarted_frame ..⟩
  · have hend := (State.Alone.refl hwf p.val).modBrew fun q => { q with endAt := (s.slice p.val).sch.cclk + 1 }
    have hbegun := State.opBegun_alone hend.island.wf p.val o
    have hisland := hend.island.trans hbegun.island
    rw [hend.here] at hisland
    refine ⟨_, ?_, congrArg Slice.brew hisland.here, fun b hb => ?_, congrArg Slice.sch hisland.here, congrArg Slice.dat hisland.here,
      hisland.there, hend.frame.trans hbegun.frame⟩
    · rw [exec_brewOpStart hlive hl hnext hkilled hstopped hseen hfree hcool href, if_neg (by simp [hrow]),
        if_neg (by simpa using hmac)]
    · rw [hisland.here]
      exact BankSet.loan_loaned (.inl hb)
  · obtain ⟨⟨bt, rf, link, hstart⟩, hframe⟩ := s.startRowOp_island hwf p.val (s.slice p.val).sch.cclk o l
    have hbegun := State.opBegun_alone hstart.wf p.val o
    have hisland := hstart.trans hbegun.island
    rw [hstart.here] at hisland
    have hall : Frame rowOpParts s _ := hframe.trans (hbegun.frame.mono (by decide))
    refine ⟨_, ?_, congrArg Slice.brew hisland.here, fun b hb => ?_, congrArg Slice.sch hisland.here, congrArg Slice.dat hisland.here,
      hisland.there, hall.2 .mem (by decide), hall.2 .ports (by decide)⟩
    · rw [exec_brewOpStart hlive hl hnext hkilled hstopped hseen hfree hcool href, if_pos hrow, if_neg]
      simp [hclosed, hact, hbusy, hbset]
    · rw [hisland.here]
      exact BankSet.loan_loaned (.inl hb)

end Sys2Proof.Machine
end

section
/-! ### The row op on the arrays (R422, R433) -/

namespace Sys2Proof.Machine

variable {s t : State} {p : Nat} {o : OpWord}

theorem keyOf_inj {b b' r r' c c' : Nat} (hr : r < 16384) (hr' : r' < 16384) (hc : c < 32) (hc' : c' < 32)
    (h : keyOf p b r c = keyOf p b' r' c') : b = b' ∧ r = r' ∧ c = c' := by
  have h : ((p * 32 + b) * 16384 + r) * 32 + c = ((p * 32 + b') * 16384 + r') * 32 + c' := h
  omega

/-- One access of a row op in one bank. -/
def State.rowStep (s : State) (p : Nat) (o : OpWord) (x : Nat × Nat) : State :=
  s.setCode (keyOf p x.1 (opD0 o) x.2)
    (rowFun (opOpc o) (s.code (keyOf p x.1 (opD1 o) x.2)) (s.code (keyOf p x.1 (opD2 o) x.2)))

/-- A row op on every bank is one loop over the accesses of all banks. -/
theorem State.each_rowOp (s : State) (p : Nat) (o : OpWord) (banks : List Nat) :
    (s.each banks fun s b => s.rowOp p b o) = s.each (banks ×ˢ List.range 32) fun s x => s.rowStep p o x := by
  simp only [State.each, State.rowOp, SProd.sprod, List.product, List.foldl_flatMap, List.foldl_map]
  rfl

theorem State.rowStep_frame (s : State) (p : Nat) (o : OpWord) (x : Nat × Nat) : Frame [.mem] s (s.rowStep p o x) :=
  .of rfl fun p => by cases p <;> simp [Part.same, State.rowStep, State.setCode]

/-- Each access holds the result of its sources as they were, since no other access of the op lies on them; every other place of
memory is as it was. -/
theorem State.code_each_rowStep {ps : List (Nat × Nat)} (hwf : Memory.wf s.mem = true) (hnodup : ps.Nodup)
    (hcol : ∀ x ∈ ps, x.2 < 32) (h0 : opD0 o < 16384) (h1 : opD1 o < 16384) (h2 : opD2 o < 16384) :
    (∀ x ∈ ps, (s.each ps fun s x => s.rowStep p o x).code (keyOf p x.1 (opD0 o) x.2) =
      rowFun (opOpc o) (s.code (keyOf p x.1 (opD1 o) x.2)) (s.code (keyOf p x.1 (opD2 o) x.2))) ∧
    (∀ k, (∀ x ∈ ps, k ≠ keyOf p x.1 (opD0 o) x.2) → (s.each ps fun s x => s.rowStep p o x).code k = s.code k) := by
  induction ps generalizing s with
  | nil => exact ⟨fun _ h => absurd h List.not_mem_nil, fun _ _ => rfl⟩
  | cons a ps ih =>
    obtain ⟨hnot, hnodup⟩ := List.nodup_cons.1 hnodup
    have ha : a.2 < 32 := hcol a List.mem_cons_self
    have hne (x : Nat × Nat) (hx : x ∈ ps) {r : Nat} (hr : r < 16384) : keyOf p x.1 r x.2 ≠ keyOf p a.1 (opD0 o) a.2 := fun h => by
      obtain ⟨hbank, -, hc⟩ := keyOf_inj hr h0 (hcol x (List.mem_cons_of_mem _ hx)) ha h
      exact hnot (Prod.ext hbank hc ▸ hx)
    obtain ⟨hwritten, hkept⟩ := ih (s := s.rowStep p o a) (Memory.wf_setCode hwf ..) hnodup fun x hx => hcol x (List.mem_cons_of_mem _ hx)
    have hstep (x : Nat × Nat) (hx : x ∈ ps) {r : Nat} (hr : r < 16384) :
        (s.rowStep p o a).code (keyOf p x.1 r x.2) = s.code (keyOf p x.1 r x.2) := State.code_setCode_ne (s := s) _ (hne x hx hr)
    refine ⟨fun x hx => ?_, fun k hk => ?_⟩
    · rcases List.mem_cons.1 hx with rfl | hx
      · exact (hkept _ fun y hy h => hne y hy h0 h.symm).trans (State.code_setCode hwf ..)
      · rw [← hstep x hx h1, ← hstep x hx h2]
        exact hwritten x hx
    · exact (hkept k fun x hx => hk x (List.mem_cons_of_mem _ hx)).trans (State.code_setCode_ne (s := s) _ (hk a List.mem_cons_self))

theorem nodup_setBits {n : Nat} (w : BitVec n) : (setBits w).Nodup := List.nodup_range.filter _

/-- What a row op, or a WAIT, leaves in memory. -/
theorem State.opEffect_mem (hwf : Memory.wf s.mem = true) (hop : isRowOp o = true ∨ opOpc o = 10)
    (h0 : opD0 o < 16384) (h1 : opD1 o < 16384) (h2 : opD2 o < 16384) :
    (isRowOp o = true → ∀ b ∈ (s.slice p).brew.banks, ∀ c, c < 32 → (s.opEffect p o).code (keyOf p b (opD0 o) c) =
      rowFun (opOpc o) (s.code (keyOf p b (opD1 o) c)) (s.code (keyOf p b (opD2 o) c))) ∧
    (∀ k, (isRowOp o = true → ∀ b ∈ (s.slice p).brew.banks, ∀ c, c < 32 → k ≠ keyOf p b (opD0 o) c) →
      (s.opEffect p o).code k = s.code k) ∧ Frame [.mem] s (s.opEffect p o) := by
  unfold State.opEffect
  dsimp only
  by_cases hrow : isRowOp o = true
  · rw [if_pos hrow, State.each_rowOp]
    obtain ⟨hwritten, hkept⟩ := State.code_each_rowStep (p := p) (ps := (s.slice p).brew.banks ×ˢ List.range 32) hwf
      ((nodup_setBits _).product List.nodup_range) (fun x hx => List.mem_range.1 (List.mem_product.1 hx).2) h0 h1 h2
    exact ⟨fun _ b hb c hc => hwritten (b, c) (List.mem_product.2 ⟨hb, List.mem_range.2 hc⟩),
      fun k hk => hkept k fun x hx => hk hrow x.1 (List.mem_product.1 hx).1 x.2 (List.mem_range.1 (List.mem_product.1 hx).2),
      State.each_frame s fun t x => State.rowStep_frame t p o x⟩
  · have hopc : opOpc o = 10 := hop.resolve_left hrow
    rw [if_neg hrow, if_neg (by omega)]
    exact ⟨fun h => absurd h hrow, fun _ _ => rfl, .refl ..⟩

end Sys2Proof.Machine
end

section
/-! ### Urgent work for a launch (R463, R465) -/

namespace Sys2Proof.Machine

variable {s t : State} {p : Nat} {o : OpWord} {q : BrewSeq} {bt : BankSet} {banks : List Nat}

/-- Between `s` and `t` an op of island `p` has gone over to or come back from its banks: of the island the sequencer, the banks'
timing and the narrow lines alone have changed. -/
structure State.OpMoves (p : Nat) (s t : State) : Prop where
  frame : Frame [.slices, .mem, .ctl] s t
  here : ∃ q bt banks o, q.mask = (s.slice p).brew.mask ∧ t.slice p = { s.slice p with
    brew := q, bt := bt, dat := (s.slice p).dat.spared banks o, sch := (s.slice p).sch.spared banks o }

namespace State.OpMoves

theorem checkWaits (h : OpMoves p s t) : t.checkWaits p = s.checkWaits p := by
  obtain ⟨q, bt, banks, o, -, hx⟩ := h.here
  unfold State.checkWaits
  rw [hx]
  dsimp only [Sched.spared]
  congr 1
  funext y
  rw [List.any_map]
  congr 3
  funext f
  dsimp only [Function.comp]
  split <;> rfl

theorem accReady (h : OpMoves p s t) (w : WinEnt) (k : Key) : t.accReady p w k = s.accReady p w k := by
  have hfab : t.fab = s.fab := h.frame.2 .fab (by decide)
  have hstk : t.stk = s.stk := h.frame.2 .stk (by decide)
  have hcheck := h.checkWaits
  obtain ⟨q, bt, banks, o, -, hx⟩ := h.here
  simp only [State.accReady, State.ownWriteAhead, State.rmwBehind, State.scrubReady, State.metStale, State.staleRaw, State.accStale,
    hfab, hstk, hcheck, hx, ChData.spared]

theorem inIsland (h : OpMoves p s t) (w : WinEnt) : t.inIsland p w = s.inIsland p w := by
  have hsys : t.sys = s.sys := h.frame.2 .sys (by decide)
  obtain ⟨q, bt, banks, o, -, hx⟩ := h.here
  simp only [State.inIsland, hsys, hx, ChData.spared]

theorem view (h : OpMoves p s t) : t.view p = s.view p := by
  have hsys : t.sys = s.sys := h.frame.2 .sys (by decide)
  obtain ⟨q, bt, banks, o, -, hx⟩ := h.here
  simp only [State.view, hsys, hx]

theorem oldGreen (h : OpMoves p s t) : t.oldGreen p = s.oldGreen p := by
  have hcfg : t.cfg = s.cfg := h.frame.2 .cfg (by decide)
  have hview := h.view
  have hin := h.inIsland
  obtain ⟨q, bt, banks, o, -, hx⟩ := h.here
  simp only [State.oldGreen, State.yelAge, hcfg, hview, hin]
  rw [hx]
  rfl

theorem slack (h : OpMoves p s t) (w : WinEnt) : t.slack p w = s.slack p w := by
  have hcfg : t.cfg = s.cfg := h.frame.2 .cfg (by decide)
  simp only [State.slack, State.effDl, State.nodlAge, hcfg, h.view]

theorem urgentRead (h : OpMoves p s t) : t.urgentRead p = s.urgentRead p := by
  have hcfg : t.cfg = s.cfg := h.frame.2 .cfg (by decide)
  have hbanks : (t.slice p).brew.banks = (s.slice p).brew.banks := by
    obtain ⟨q, bt, banks, o, hmask, hx⟩ := h.here
    rw [hx, BrewSeq.banks, hmask, BrewSeq.banks]
  have hsch : (t.slice p).sch.window = (s.slice p).sch.window ∧ (t.slice p).sch.narrowSlot = (s.slice p).sch.narrowSlot := by
    obtain ⟨q, bt, banks, o, -, hx⟩ := h.here
    rw [hx]
    exact ⟨rfl, rfl⟩
  simp only [State.urgentRead, State.preemptThr, hcfg, hsch.1, hsch.2, hbanks, h.inIsland, h.oldGreen, h.slack, h.accReady]
  rfl

theorem urgentRef (h : OpMoves p s t) : t.urgentRef p = s.urgentRef p := by
  have hdet : t.det = s.det := h.frame.2 .det (by decide)
  obtain ⟨q, bt, banks, o, hmask, hx⟩ := h.here
  have hband : t.bandK p = s.bandK p := by simp only [State.bandK, State.bandOf, hdet, hx]
  simp only [State.urgentRef, State.refUrgent, State.refLimit, hdet, hband, hx, BrewSeq.banks, hmask]
  rfl

end State.OpMoves

end Sys2Proof.Machine
end

section
/-! ### Control words that a channel sends (R15, R80, R81) -/

namespace Sys2Proof.Machine

variable {s t : State} {q i : Nat} {w : CtlWord}

/-- A word that has crossed at once. -/
theorem State.tell_of_seen (h : s.icqSeen q i ≤ s.sys.ltc) (w : CtlWord) : s.tell q i w = (s.icqPass q i).noteWord w := if_pos h

/-- A word that has not crossed yet, as in DET_TIMING. -/
theorem State.tell_of_unseen (h : ¬ s.icqSeen q i ≤ s.sys.ltc) (w : CtlWord) : s.tell q i w = (s.icqPass q i).modCtl fun c =>
    { c with words := c.words ++ [⟨q, i, s.icqSeen q i, w⟩] } := if_neg h

theorem State.noteWord_frame (s : State) (w : CtlWord) : Frame [.slices, .fab] s (s.noteWord w) := by
  cases w with
  | hold p => exact (s.modSlice_frame ..).mono (by decide)
  | free p => exact (s.modSlice_frame ..).mono (by decide)
  | admHold c => exact (s.modFab_frame _).mono (by decide)
  | admFree c => exact (s.modFab_frame _).mono (by decide)
  | commit id c => exact (s.modFab_frame _).mono (by decide)
  | stopped id c => exact (s.modFab_frame _).mono (by decide)
  | stop id c => exact .refl ..

theorem State.tell_frame (s : State) (q i : Nat) (w : CtlWord) : Frame [.slices, .fab, .ctl] s (s.tell q i w) := by
  have hpass : Frame [.slices, .fab, .ctl] s (s.icqPass q i) := (s.icqPass_frame q i).mono (by decide)
  by_cases h : s.icqSeen q i ≤ s.sys.ltc
  · rw [State.tell_of_seen h]
    exact hpass.trans ((State.noteWord_frame ..).mono (by decide))
  · rw [State.tell_of_unseen h]
    exact hpass.trans ((State.modCtl_frame ..).mono (by decide))

/-- Between `s` and `t` crossing queues and the words on their way have changed in the control port, and nothing else. -/
def Told (s t : State) : Prop := t.ctl = { s.ctl with icqs := t.ctl.icqs, words := t.ctl.words }

theorem State.tell_told (s : State) (q i : Nat) (w : CtlWord) : Told s (s.tell q i w) := by
  by_cases h : s.icqSeen q i ≤ s.sys.ltc
  · rw [State.tell_of_seen h, Told, (State.noteWord_frame ..).2 .ctl (by decide)]
    rfl
  · rw [State.tell_of_unseen h]
    rfl

theorem Told.counted (h : Told s t) (hmbx : t.mbx = s.mbx) : CountedTold s t :=
  ⟨by rw [show t.ctl = _ from h], by rw [hmbx]⟩

theorem Crossed.told (h : Crossed s t) : Told s t := by
  rw [Told, show t.ctl = _ from h]

theorem Told.trans {u : State} (h1 : Told s t) (h2 : Told t u) : Told s u := by
  rw [Told, show u.ctl = _ from h2, show t.ctl = _ from h1]

theorem State.tell_tells (s : State) (q i : Nat) (w : CtlWord) :
    s.Tells (s.tell q i w) q i w ((s.tell q i w).fab = (s.noteWord w).fab) ((s.tell q i w).fab = s.fab) := by
  unfold State.Tells
  split
  · next h =>
    rw [State.tell_of_seen h]
    have hctl : ((s.icqPass q i).noteWord w).ctl = (s.icqPass q i).ctl := (State.noteWord_frame ..).2 .ctl (by decide)
    refine ⟨by rw [hctl]; rfl, ?_⟩
    cases w <;> rfl
  · next h =>
    rw [State.tell_of_unseen h]
    exact ⟨rfl, rfl⟩

end Sys2Proof.Machine
end

section
/-! ### The end of an op on a channel (R422, R433, R463, R477) -/

namespace Sys2Proof.Machine

variable {s t : State} {p : Nat} {o : OpWord} {l : Launch}

/-- The sequencer once the words of the op in progress are released, unless a reset of the queue has taken them (R64, R74). -/
def BrewSeq.released (q : BrewSeq) : BrewSeq :=
  if q.rd = 0 then q else { q with q := q.q.tail, qacc := q.qacc.tail, qid := q.qid.tail, rd := 0 }

theorem BrewSeq.released_eq (q : BrewSeq) : q.released = { q with
    q := if q.rd = 0 then q.q else q.q.tail
    qacc := if q.rd = 0 then q.qacc else q.qacc.tail
    qid := if q.rd = 0 then q.qid else q.qid.tail
    rd := 0 } := by
  unfold BrewSeq.released
  by_cases h : q.rd = 0
  · rw [if_pos h, if_pos h, if_pos h, if_pos h, ← h]
  · simp only [if_neg h]

/-- The op in progress has ended: its effect stands, its banks are back and its words are released. -/
def State.opDone (s : State) (p : Nat) (o : OpWord) : State :=
  ((((s.opEffect p o).dropBrew p o).setLoan p false).releaseOp p).modBrew p fun q =>
    { q with op := none, ops := q.ops + 1, prog := 0, seg := 0, stopped := false }

theorem State.Island.releaseOp {x : Slice} (h : State.Island p x s t) :
    State.Island p { x with brew := x.brew.released } s (t.releaseOp p) := by
  unfold State.releaseOp BrewSeq.released
  rw [h.here]
  split
  · exact h
  · exact (h.modSlice fun x => { x with brew := { x.brew with
      q := x.brew.q.tail, qacc := x.brew.qacc.tail, qid := x.brew.qid.tail, rd := 0 } }).framed (State.icqRelease_frame ..)

theorem State.releaseOp_frame (s : State) (p : Nat) : Frame [.slices, .ctl] s (s.releaseOp p) := by
  unfold State.releaseOp
  split
  · exact .refl ..
  · exact ((State.modSlice_frame ..).mono (by decide)).trans ((State.icqRelease_frame ..).mono (by decide))

theorem State.releaseOp_crossed (s : State) (p : Nat) : Crossed s (s.releaseOp p) := by
  unfold State.releaseOp
  split
  · exact rfl
  · exact State.icqRelease_crossed ..

/-- What the end of an op leaves on its channel, and of the rest but memory. -/
theorem State.opDone_island (hwf : Tab.wf Slice.reset s.slices = true) (heff : Frame [.mem] s (s.opEffect p o)) :
    State.Island p { s.slice p with
      brew := { (s.slice p).brew.released with
        op := none, ops := (s.slice p).brew.ops + 1, prog := 0, seg := 0, stopped := false }
      dat := (s.slice p).dat.spared (s.slice p).brew.banks o
      sch := (s.slice p).sch.spared (s.slice p).brew.banks o
      bt := (s.slice p).bt.loaned (s.slice p).brew.banks false } s (s.opDone p o) ∧
      Frame [.slices, .ctl] (s.opEffect p o) (s.opDone p o) ∧ Crossed s (s.opDone p o) := by
  have heffs : (s.opEffect p o).slices = s.slices := heff.2 .slices (by decide)
  have hback := ((State.Alone.refl (heffs ▸ hwf) p).dropBrew o).setLoan false
  have hdone := hback.island.releaseOp.modSlice fun x => { x with brew := { x.brew with
    op := none, ops := x.brew.ops + 1, prog := 0, seg := 0, stopped := false } }
  rw [State.slice_congr heffs p] at hdone
  have hops : (s.slice p).brew.released.ops = (s.slice p).brew.ops := by
    unfold BrewSeq.released
    split <;> rfl
  rw [← hops]
  refine ⟨hdone.start heffs, ?_, ?_⟩
  · exact (hback.frame.mono (by decide)).trans ((State.releaseOp_frame ..).trans ((State.modSlice_frame ..).mono (by decide)))
  · have hctl : (((s.opEffect p o).dropBrew p o).setLoan p false).ctl = s.ctl :=
      (hback.frame.2 .ctl (by decide)).trans (heff.2 .ctl (by decide))
    have hrel := State.releaseOp_crossed (((s.opEffect p o).dropBrew p o).setLoan p false) p
    rw [Crossed, hctl] at hrel
    exact hrel

/-! #### The channel goes free (R449, R450, R480) -/

/-- Between `s` and `t` a channel has gone on with its launches: its sequencer and banks, and its words, have changed. -/
structure State.Leaves (p : Nat) (s t : State) : Prop where
  island : ∃ x, State.Island p x s t
  frame : Frame [.slices, .ctl] s t
  crossed : Crossed s t

namespace State.Leaves

theorem refl (h : Tab.wf Slice.reset s.slices = true) (p : Nat) : Leaves p s s := ⟨⟨_, .refl h p⟩, .refl .., rfl⟩

theorem modBrew (h : Leaves p s t) (f : BrewSeq → BrewSeq) : Leaves p s (t.modBrew p f) := by
  obtain ⟨x, hx⟩ := h.island
  exact ⟨⟨_, hx.modSlice fun x => { x with brew := f x.brew }⟩, h.frame.trans ((State.modSlice_frame ..).mono (by decide)), h.crossed⟩

theorem setLoan (h : Leaves p s t) (v : Bool) : Leaves p s (t.setLoan p v) := by
  obtain ⟨x, hx⟩ := h.island
  have hloan := (State.Alone.refl hx.wf p).setLoan v
  refine ⟨⟨_, hx.trans hloan.island⟩, h.frame.trans (hloan.frame.mono (by decide)), ?_⟩
  rw [Crossed, hloan.frame.2 .ctl (by decide)]
  exact h.crossed

theorem icqRelease (h : Leaves p s t) (q i n : Nat) : Leaves p s (t.icqRelease q i n) := by
  obtain ⟨x, hx⟩ := h.island
  refine ⟨⟨_, hx.framed (State.icqRelease_frame ..)⟩, h.frame.trans ((State.icqRelease_frame ..).mono (by decide)), ?_⟩
  rw [Crossed, show (t.icqRelease q i n).ctl = _ from State.icqRelease_crossed .., show t.ctl = _ from h.crossed]

theorem dropOps (h : Leaves p s t) (id : Nat) : Leaves p s (t.dropOps p id) := ((h.modBrew _).modBrew _).icqRelease ..

theorem cur_modBrew (h : Leaves p s t) (f : BrewSeq → BrewSeq) :
    ((t.modBrew p f).slice p).brew = f (t.slice p).brew := by
  obtain ⟨x, hx⟩ := h.island
  have hmod : State.Island p _ s (t.modBrew p f) := hx.modSlice fun x => { x with brew := f x.brew }
  rw [hmod.here, hx.here]

/-- The channel is free for the next launch. -/
theorem brewLeave (h : Tab.wf Slice.reset s.slices = true) (p : Nat) :
    Leaves p s (s.brewLeave p) ∧ ((s.brewLeave p).slice p).brew.cur = none := by
  have hback := (refl h p).setLoan false
  unfold State.brewLeave
  dsimp only
  split
  · exact ⟨(hback.dropOps _).modBrew _, congrArg BrewSeq.cur ((hback.dropOps _).cur_modBrew _)⟩
  · exact ⟨hback.modBrew _, congrArg BrewSeq.cur (hback.cur_modBrew _)⟩

end State.Leaves

/-! #### The command -/

theorem exec_brewOpEnd {p : Fin 144} (hruns : s.islandRuns p.val = true) (hl : s.launchOn p.val = some l)
    (hop : (s.slice p.val).brew.op = some o) (hover : s.opOver p.val o = true) (hagain : (s.slice p.val).link.again = [])
    (hkilled : ((s.opDone p.val o).slice p.val).brew.killed = false) :
    exec (.brewOpEnd p) s = .next (
      if l.doneDisp && !((s.opDone p.val o).slice p.val).brew.qid.contains l.eid then (s.opDone p.val o).brewCommit p.val l.eid
      else (s.opDone p.val o).stopAtEnd p.val) := by
  change execBrewOpEnd p s = _
  simp only [execBrewOpEnd, hl, hop, hruns, hover, hagain, List.isEmpty_nil, Bool.not_true, Bool.or_self, Bool.false_eq_true, if_false]
  exact congrArg Host.Outcome.next (if_neg (by rw [Bool.not_eq_true]; exact hkilled))

/-- Why a launch that goes on stops at the end of an op: an urgent read, or else an urgent refresh (R463, R465). -/
def State.stopWhy (s : State) (p : Nat) : Nat := if s.urgentRead p then 1 else if s.urgentRef p then 2 else 0

/-- The sequencer of a launch that stops at the end of an op, if it does. -/
def BrewSeq.stopFor (q : BrewSeq) (why : Nat) : BrewSeq :=
  if why = 0 then q else { q with stopped := true, stopWhy := why, rd := 0, stopOpen := true }

theorem BrewSeq.stopFor_eq {q : BrewSeq} {op : Option OpWord} {ops : Nat} {w : List OpWord} {a i : List Nat} (why : Nat) :
    BrewSeq.stopFor { q with q := w, qacc := a, qid := i, rd := 0, op := op, ops := ops, prog := 0, seg := 0, stopped := false } why =
    { q with op := op, q := w, qacc := a, qid := i, rd := 0, ops := ops, prog := 0, seg := 0, stopped := why != 0
             stopWhy := if why = 0 then q.stopWhy else why, stopOpen := if why = 0 then q.stopOpen else true } := by
  unfold BrewSeq.stopFor
  by_cases h : why = 0
  · simp [h]
  · simp [h]

/-- The launch on island `p` has stopped at the end of an op. -/
def State.stoppedFor (s : State) (p why : Nat) : State :=
  s.modBrew p fun q => { q with stopped := true, stopWhy := why, rd := 0, stopOpen := true }

theorem State.stopAtEnd_eq (s : State) (p : Nat) : s.stopAtEnd p = if s.stopWhy p = 0 then s
    else if s.stopWhy p = 1 then (s.stoppedFor p (s.stopWhy p)).statSlice p 5 1 else s.stoppedFor p (s.stopWhy p) := rfl

theorem State.stopAtEnd_island (hwf : Tab.wf Slice.reset s.slices = true) (p : Nat) :
    State.Island p { s.slice p with brew := (s.slice p).brew.stopFor (s.stopWhy p) } s (s.stopAtEnd p) ∧
      CountedCrossed s (s.stopAtEnd p) ∧ Frame [.slices, .ctl, .evt, .mbx] s (s.stopAtEnd p) := by
  rw [State.stopAtEnd_eq]
  unfold BrewSeq.stopFor
  by_cases h : s.stopWhy p = 0
  · rw [if_pos h, if_pos h]
    exact ⟨.refl hwf p, ⟨rfl, rfl⟩, .refl ..⟩
  · rw [if_neg h, if_neg h]
    have hstop : State.Alone p _ s (s.stoppedFor p (s.stopWhy p)) := (State.Alone.refl hwf p).modBrew fun q =>
      { q with stopped := true, stopWhy := s.stopWhy p, rd := 0, stopOpen := true }
    have hcounts : State.CountsOnly (s.stoppedFor p (s.stopWhy p)) (if s.stopWhy p = 1
      then (s.stoppedFor p (s.stopWhy p)).statSlice p 5 1 else s.stoppedFor p (s.stopWhy p)) := .ite (.count ..) (.refl _)
    exact ⟨hstop.island.framed hcounts.frame, ((Counted.of_frame hstop.frame (by decide) (by decide)).trans hcounts.counted).crossed,
      (hstop.frame.mono (by decide)).trans (hcounts.frame.mono (by decide))⟩

theorem State.tell_commit_frame (s : State) (q i id c : Nat) : Frame [.fab, .ctl] s (s.tell q i (.commit id c)) := by
  have hpass : Frame [.fab, .ctl] s (s.icqPass q i) := (s.icqPass_frame q i).mono (by decide)
  by_cases h : s.icqSeen q i ≤ s.sys.ltc
  · rw [State.tell_of_seen h]
    exact hpass.trans ((State.modFab_frame ..).mono (by decide))
  · rw [State.tell_of_unseen h]
    exact hpass.trans ((State.modCtl_frame ..).mono (by decide))

/-- The channel has told the dispatcher of its commit, where it serves a channel, and is free. -/
theorem State.brewCommit_leaves (hwf : Tab.wf Slice.reset s.slices = true) (id : Nat) :
    (∃ x, State.Island p x s (s.brewCommit p id)) ∧ Frame [.slices, .fab, .ctl] s (s.brewCommit p id) ∧
      ∀ c, s.stk.chanOf p = some c → ((s.brewCommit p id).slice p).brew.cur = none ∧ Told s (s.brewCommit p id) ∧
        s.Tells (s.brewCommit p id) 1 p (.commit id c)
          ((s.brewCommit p id).fab = s.fab.modLaunch id fun l => { l with commits := insertNat c l.commits })
          ((s.brewCommit p id).fab = s.fab) := by
  unfold State.brewCommit
  split
  · next c hc =>
    have htells := s.tell_tells 1 p (.commit id c)
    have hframe := s.tell_commit_frame 1 p id c
    have hslices : (s.tell 1 p (.commit id c)).slices = s.slices := hframe.2 .slices (by decide)
    obtain ⟨hleave, hcur⟩ := State.Leaves.brewLeave (s := s.tell 1 p (.commit id c)) (hslices ▸ hwf) p
    obtain ⟨x, hx⟩ := hleave.island
    refine ⟨⟨x, hx.start hslices⟩, (hframe.mono (by decide)).trans (hleave.frame.mono (by decide)), fun c' hc' => ?_⟩
    obtain rfl : c = c' := Option.some.inj (hc.symm.trans hc')
    refine ⟨hcur, (s.tell_told 1 p _).trans hleave.crossed.told, ?_⟩
    have hwords : ((s.tell 1 p (.commit id c)).brewLeave p).ctl.words = (s.tell 1 p (.commit id c)).ctl.words := by
      rw [show ((s.tell 1 p (.commit id c)).brewLeave p).ctl = _ from hleave.crossed]
    rw [State.Tells, hwords, hleave.frame.2 .fab (by decide)]
    exact htells
  · next hc =>
    obtain ⟨hleave, -⟩ := State.Leaves.brewLeave hwf p
    exact ⟨hleave.island, hleave.frame.mono (by decide), fun c hc' => absurd (hc.symm.trans hc') (by simp)⟩

theorem State.icq_modIcq_ne {q i q' i' : Nat} (h : q' * 256 + i' ≠ q * 256 + i) (f : Icq → Icq) :
    (s.modIcq q i f).icq q' i' = s.icq q' i' := Tab.get_set_ne _ h

theorem State.icq_icqRelease_ne {q i q' i' : Nat} (h : q' * 256 + i' ≠ q * 256 + i) (n : Nat) :
    (s.icqRelease q i n).icq q' i' = s.icq q' i' := by
  unfold State.icqRelease State.icqFree
  dsimp only
  split
  · exact State.icq_modIcq_ne h _
  · exact (State.icq_modIcq_ne h _).trans (State.icq_modIcq_ne h _)

theorem State.icq_releaseOp {q i : Nat} (h : q * 256 + i ≠ 512 + p) : (s.releaseOp p).icq q i = s.icq q i := by
  unfold State.releaseOp
  split
  · rfl
  · exact State.icq_icqRelease_ne h _

theorem State.icqSeen_of_icq {q i : Nat} (hicq : t.icq q i = s.icq q i) (hsys : t.sys = s.sys) (hdet : t.det = s.det) :
    t.icqSeen q i = s.icqSeen q i := by
  simp only [State.icqSeen, State.icqAt, State.crossTime, State.ahead, hicq, hsys, hdet]

/-- The words that an op releases are none of class 1. -/
theorem State.opDone_seen (hwf : Tab.wf Slice.reset s.slices = true) (heff : Frame [.mem] s (s.opEffect p o)) :
    (s.opDone p o).icqSeen 1 p = s.icqSeen 1 p := by
  obtain ⟨-, hrest, -⟩ := State.opDone_island (p := p) hwf heff
  have hback := ((State.Alone.refl (s := s.opEffect p o) (heff.2 .slices (by decide) ▸ hwf) p).dropBrew o).setLoan false
  have hctl : (((s.opEffect p o).dropBrew p o).setLoan p false).ctl = s.ctl :=
    (hback.frame.2 .ctl (by decide)).trans (heff.2 .ctl (by decide))
  have hicq : (s.opDone p o).icq 1 p = s.icq 1 p := (State.icq_releaseOp (by omega)).trans (congrArg (fun c : Ctl => Tab.get _ c.icqs _) hctl)
  exact State.icqSeen_of_icq hicq ((hrest.2 .sys (by decide)).trans (heff.2 .sys (by decide)))
    ((hrest.2 .det (by decide)).trans (heff.2 .det (by decide)))

/-- What the end of an op leaves does not make a read or a refresh urgent, nor less so. -/
theorem State.opDone_moves (hwf : Tab.wf Slice.reset s.slices = true) (heff : Frame [.mem] s (s.opEffect p o)) :
    State.OpMoves p s (s.opDone p o) := by
  obtain ⟨hdone, hrest, -⟩ := State.opDone_island (p := p) hwf heff
  refine ⟨(heff.mono (by decide)).trans (hrest.mono (by decide)), _, _, _, _, ?_, hdone.here⟩
  rw [BrewSeq.released_eq]

/-- The end of an op, whichever way the launch goes on: what it leaves in memory stands, and no other island moves. -/
theorem State.opDone_ends (hwf : Tab.wf Slice.reset s.slices = true) (heff : Frame [.mem] s (s.opEffect p o)) {x : Slice}
    (hisland : State.Island p x (s.opDone p o) t) (hframe : Frame [.slices, .fab, .ctl, .evt, .mbx] (s.opDone p o) t) :
    t.mem = (s.opEffect p o).mem ∧ (∀ j, j ≠ p → t.slice j = s.slice j) ∧ Frame [.slices, .fab, .mem, .ctl, .evt, .mbx] s t := by
  obtain ⟨hdone, hrest, -⟩ := State.opDone_island (p := p) hwf heff
  exact ⟨(hframe.2 .mem (by decide)).trans (hrest.2 .mem (by decide)), fun j hj => (hisland.there j hj).trans (hdone.there j hj),
    (heff.mono (by decide)).trans ((hrest.mono (by decide)).trans (hframe.mono (by decide)))⟩

/-- Settles O31: the effect on memory is that of the op, and the launch goes on, stops or commits on its channel. -/
theorem brewOpEnded : Obligations.BrewOpEnded := by
  unfold Obligations.BrewOpEnded
  intro p s l o ⟨hmem, _, hwf, _⟩ hruns hl hop hover hkilled hagain hopc h0 h1 h2
  dsimp only
  obtain ⟨hwritten, hkept, heff⟩ := State.opEffect_mem (p := p.val) hmem hopc h0 h1 h2
  obtain ⟨hdone, hrest, hcrossed⟩ := State.opDone_island (p := p.val) hwf heff
  rw [BrewSeq.released_eq] at hdone
  have hmoves := State.opDone_moves (p := p.val) hwf heff
  have hexec := exec_brewOpEnd hruns hl hop hover hagain (by rw [hdone.here]; exact hkilled)
  have hfab : (s.opDone p.val o).fab = s.fab := (hrest.2 .fab (by decide)).trans (heff.2 .fab (by decide))
  have hmbx : (s.opDone p.val o).mbx = s.mbx := (hrest.2 .mbx (by decide)).trans (heff.2 .mbx (by decide))
  have hwhy : (s.opDone p.val o).stopWhy p.val = if s.urgentRead p.val then 1 else if s.urgentRef p.val then 2 else 0 := by
    rw [State.stopWhy, hmoves.urgentRead, hmoves.urgentRef]
  have hmemory {t : State} (h : t.mem = (s.opEffect p.val o).mem) (k : Key) : t.code k = (s.opEffect p.val o).code k := by
    rw [State.code, h, State.code]
  have hgo : (l.doneDisp && !((s.opDone p.val o).slice p.val).brew.qid.contains l.eid) =
      (l.doneDisp && !(if (s.slice p.val).brew.rd = 0 then (s.slice p.val).brew.qid else (s.slice p.val).brew.qid.tail).contains l.eid) := by
    rw [hdone.here]
  rw [hgo] at hexec
  by_cases hlast : (l.doneDisp && !(if (s.slice p.val).brew.rd = 0 then (s.slice p.val).brew.qid
      else (s.slice p.val).brew.qid.tail).contains l.eid) = true
  · rw [if_pos hlast] at hexec
    obtain ⟨hend, hempty⟩ : l.doneDisp = true ∧ (if (s.slice p.val).brew.rd = 0 then (s.slice p.val).brew.qid
        else (s.slice p.val).brew.qid.tail).contains l.eid = false := by
      rwa [Bool.and_eq_true, Bool.not_eq_true'] at hlast
    have hgoes : ¬ (l.doneDisp = false ∨ (if (s.slice p.val).brew.rd = 0 then (s.slice p.val).brew.qid
        else (s.slice p.val).brew.qid.tail).contains l.eid = true) := by
      rw [hend, hempty]
      simp
    have hstk : (s.opDone p.val o).stk = s.stk := (hrest.2 .stk (by decide)).trans (heff.2 .stk (by decide))
    obtain ⟨⟨x, hleft⟩, hframe, htold⟩ := State.brewCommit_leaves (s := s.opDone p.val o) (p := p.val) hdone.wf l.eid
    obtain ⟨hmem', hthere, hall⟩ := State.opDone_ends hwf heff hleft (hframe.mono (by decide))
    refine ⟨_, hexec, fun hrow b hb c hc => (hmemory hmem' _).trans (hwritten hrow b hb c hc),
      fun k hk => (hmemory hmem' k).trans (hkept k hk), fun h => absurd h hgoes, fun c _ _ hc => ?_, hthere, hall⟩
    obtain ⟨hcur, hcounted, htells⟩ := htold c (hstk ▸ hc)
    refine ⟨hcur, (hcrossed.told.trans hcounted).counted ((hframe.2 .mbx (by decide)).trans hmbx), ?_⟩
    rw [State.Tells, hrest.2 .sys (by decide), heff.2 .sys (by decide), hfab, State.opDone_seen hwf heff,
      show (s.opDone p.val o).ctl.words = s.ctl.words by rw [show (s.opDone p.val o).ctl = _ from hcrossed]] at htells
    exact htells
  · rw [if_neg hlast] at hexec
    obtain ⟨hstop, hstopped, hframe⟩ := State.stopAtEnd_island hdone.wf p.val
    obtain ⟨hmem', hthere, hall⟩ := State.opDone_ends hwf heff hstop (hframe.mono (by decide))
    refine ⟨_, hexec, fun hrow b hb c hc => (hmemory hmem' _).trans (hwritten hrow b hb c hc),
      fun k hk => (hmemory hmem' k).trans (hkept k hk), fun _ => ⟨?_, ?_, ?_⟩, fun c hend hempty => ?_, hthere, hall⟩
    · rw [hstop.here, hdone.here, hwhy]
      exact BrewSeq.stopFor_eq ..
    · exact (hframe.2 .fab (by decide)).trans hfab
    · exact (hcrossed.counted hmbx).trans hstopped
    · exact absurd (by rw [hend, hempty]; rfl) hlast

end Sys2Proof.Machine
end

section
/-! ### The dispatch of an op (R438, R439, R451, R466) -/

namespace Sys2Proof.Machine

variable {s t u : State} {o : OpWord} {l : Launch} {n : Nat} {w : OpWord}

/-- Between `s` and `t` stale bits have changed, and nothing else. -/
def State.StaleOnly (s t : State) : Prop := ∃ b, t = { s with fab := { s.fab with stale := b } }

theorem Fab.opStale_eq (f : Fab) (c b : Nat) (o : OpWord) : ∃ y, f.opStale c b o = { f with stale := y } := by
  unfold Fab.opStale
  dsimp only
  split_ifs
  · exact ⟨_, rfl⟩
  · exact ⟨f.stale, rfl⟩

theorem State.staleOnly_opBits (hbad : s.fab.staleBad = []) (c b : Nat) (o : OpWord) : s.StaleOnly (s.opBits c b o) := by
  rw [State.opBits, State.readBit_of_sound hbad, State.readBit_of_sound hbad, State.readBit_of_sound hbad]
  obtain ⟨y, hy⟩ := s.fab.opStale_eq c b o
  exact ⟨y, by rw [State.modFab, hy]⟩

theorem State.staleOnly_each (hbad : s.fab.staleBad = []) (c : Nat) (o : OpWord) (banks : List Nat) :
    s.StaleOnly (s.each banks fun s b => s.opBits c b o) := by
  refine State.each_induct (P := s.StaleOnly) (fun t b ht => ?_) banks ⟨s.fab.stale, rfl⟩
  obtain ⟨y, rfl⟩ := ht
  obtain ⟨z, hz⟩ := State.staleOnly_opBits (s := { s with fab := { s.fab with stale := y } }) hbad c b o
  exact ⟨z, hz⟩

/-- The slice with an op at the end of its queue, under its number and its launch (R451, R460). -/
def Slice.queued (x : Slice) (o : OpWord) (mark id : Nat) : Slice :=
  { x with brew := { x.brew with q := x.brew.q ++ [o], qacc := x.brew.qacc ++ [mark], qid := x.brew.qid ++ [id] } }

/-- An op goes to channel `cp.1`, on slice `cp.2`: its two words, and the stale bits of its rows. -/
def State.queueOp (s : State) (l : Launch) (o : OpWord) (mark : Nat) (cp : Nat × Nat) : State :=
  (((s.modBrew cp.2 fun q =>
    { q with q := q.q ++ [o], qacc := q.qacc ++ [mark], qid := q.qid ++ [l.eid] }).icqWrite 2 cp.2).icqWrite 2 cp.2).each
    (setBits (BitVec.ofNat 32 (fld l.desc 32 32))) fun s b => s.opBits cp.1 b o

/-- Between `s` and `t` ops have gone to the slices of `ps`. -/
structure State.Queued (f : Slice → Slice) (ps : List Nat) (s t : State) : Prop where
  wf : Tab.wf Slice.reset t.slices = true
  here : ∀ p ∈ ps, t.slice p = f (s.slice p)
  there : ∀ p, p ∉ ps → t.slice p = s.slice p
  fab : t.fab = { s.fab with stale := t.fab.stale }
  crossed : Crossed s t
  frame : Frame [.slices, .fab, .ctl] s t

theorem State.queued_queueOp (hwf : Tab.wf Slice.reset s.slices = true) (hbad : s.fab.staleBad = []) (l : Launch) (o : OpWord)
    (mark : Nat) (cp : Nat × Nat) : State.Queued (·.queued o mark l.eid) [cp.2] s (s.queueOp l o mark cp) := by
  have hbrew : State.Alone cp.2 ((s.slice cp.2).queued o mark l.eid) s (s.modBrew cp.2 fun q =>
      { q with q := q.q ++ [o], qacc := q.qacc ++ [mark], qid := q.qid ++ [l.eid] }) :=
    (State.Alone.refl hwf cp.2).modSlice (·.queued o mark l.eid)
  have hwords := (State.icqWrite_frame _ 2 cp.2).trans (State.icqWrite_frame ((s.modBrew cp.2 fun q =>
      { q with q := q.q ++ [o], qacc := q.qacc ++ [mark], qid := q.qid ++ [l.eid] }).icqWrite 2 cp.2) 2 cp.2)
  have hcrossed : Crossed s (((s.modBrew cp.2 fun q =>
      { q with q := q.q ++ [o], qacc := q.qacc ++ [mark], qid := q.qid ++ [l.eid] }).icqWrite 2 cp.2).icqWrite 2 cp.2) := by
    rw [Crossed, show (State.icqWrite _ _ _).ctl = _ from State.icqWrite_crossed .., show (State.icqWrite _ _ _).ctl = _ from
      State.icqWrite_crossed ..]
    rfl
  have hisland := hbrew.island.framed hwords
  have hframe : Frame [.slices, .ctl] s _ := (hbrew.frame.mono (by decide)).trans (hwords.mono (by decide))
  have hfab : _ = s.fab := hframe.2 .fab (by decide)
  unfold State.queueOp
  generalize ((s.modBrew cp.2 fun q => { q with q := q.q ++ [o], qacc := q.qacc ++ [mark], qid := q.qid ++ [l.eid] }).icqWrite 2
    cp.2).icqWrite 2 cp.2 = t at *
  obtain ⟨y, hy⟩ := State.staleOnly_each (s := t) (hfab ▸ hbad) cp.1 o (setBits (BitVec.ofNat 32 (fld l.desc 32 32)))
  rw [hy]
  refine ⟨hisland.wf, fun p hp => ?_, fun p hp => hisland.there p (by simpa using hp), congrArg (fun f : Fab => { f with stale := y }) hfab,
    hcrossed, (hframe.mono (by decide)).trans ((t.modFab_frame fun f => { f with stale := y }).mono (by decide))⟩
  obtain rfl : p = cp.2 := by simpa using hp
  exact hisland.here

theorem State.queued_each {mark : Nat} {cps : List (Nat × Nat)} (hnodup : (cps.map (·.2)).Nodup) (hwf : Tab.wf Slice.reset s.slices = true)
    (hbad : s.fab.staleBad = []) :
    State.Queued (·.queued o mark l.eid) (cps.map (·.2)) s (s.each cps fun s cp => s.queueOp l o mark cp) := by
  induction cps generalizing s with
  | nil => exact ⟨hwf, fun p hp => absurd hp List.not_mem_nil, fun p _ => rfl, rfl, rfl, .refl ..⟩
  | cons cp cps ih =>
    obtain ⟨hnot, hnodup⟩ := List.nodup_cons.1 hnodup
    have h1 := State.queued_queueOp hwf hbad l o mark cp
    have h2 := ih (s := s.queueOp l o mark cp) hnodup h1.wf (by rw [h1.fab]; exact hbad)
    rw [State.each_cons]
    generalize (s.queueOp l o mark cp).each cps (fun s cp => s.queueOp l o mark cp) = u at *
    generalize s.queueOp l o mark cp = t at *
    refine ⟨h2.wf, fun p hp => ?_, fun p hp => ?_, ?_, ?_, h1.frame.trans h2.frame⟩
    · rcases List.mem_cons.1 hp with rfl | hp
      · exact (h2.there _ hnot).trans (h1.here _ (List.mem_singleton.2 rfl))
      · have hne : p ∉ [cp.2] := fun h => by
          rw [List.mem_singleton.1 h] at hp
          exact hnot hp
        rw [h2.here p hp, h1.there p hne]
    · have hne : p ∉ [cp.2] := fun h => hp (List.mem_cons.2 (.inl (List.mem_singleton.1 h)))
      exact (h2.there p fun h => hp (List.mem_cons_of_mem _ h)).trans (h1.there p hne)
    · rw [h2.fab, h1.fab]
    · rw [Crossed, show u.ctl = _ from h2.crossed, show t.ctl = _ from h1.crossed]

/-! #### The word of a launch (R80, R449, R450) -/

/-- What the word of a launch leaves in the dispatcher's list: when its channels read it. -/
theorem Fab.modLaunch_modLaunch {f : Fab} {id : Nat} {g h : Launch → Launch} (hg : ∀ x, (g x).eid = x.eid) :
    (f.modLaunch id g).modLaunch id h = f.modLaunch id fun x => h (g x) := by
  simp only [Fab.modLaunch, List.map_map]
  congr 1
  refine List.map_congr_left fun x _ => ?_
  by_cases hx : x.eid = id
  · simp [hx, hg]
  · simp [hx]

/-- When the channels of a launch read its word, if it goes out ahead of this op. -/
def State.launchVis (s : State) (l : Launch) (ps : List Nat) (x : Launch) : Launch :=
  { x with vis := if l.nops = 0 then (ps.map fun p => s.icqSeen 2 p).foldl max s.sys.ltc else x.vis }

theorem Crossed.trans (h1 : Crossed s t) (h2 : Crossed t u) : Crossed s u := by
  rw [Crossed, show u.ctl = _ from h2, show t.ctl = _ from h1]

theorem State.sendLaunch_fab (s : State) (l : Launch) (ps : List Nat) :
    (s.sendLaunch l ps).fab = s.fab.modLaunch l.eid (s.launchVis l ps) ∧ Crossed s (s.sendLaunch l ps) ∧
      Frame [.fab, .ctl] s (s.sendLaunch l ps) := by
  unfold State.sendLaunch State.launchVis
  by_cases h : l.nops = 0
  · rw [if_neg (by simpa using h)]
    simp only [if_pos h]
    have hpass : Frame [.ctl] s (s.each ps fun s p => s.icqPass 2 p) := State.each_frame s fun t p => t.icqPass_frame 2 p
    have hcrossed : Crossed s (s.each ps fun s p => s.icqPass 2 p) :=
      State.each_induct (P := Crossed s) (fun t p ht => ht.trans (rfl : Crossed t (t.icqPass 2 p))) ps rfl
    have hfab : (s.each ps fun s p => s.icqPass 2 p).fab = s.fab := hpass.2 .fab (by decide)
    exact ⟨by rw [State.modFab, hfab], hcrossed.trans rfl,
      (hpass.mono (by decide)).trans ((State.modFab_frame ..).mono (by decide))⟩
  · rw [if_pos h]
    simp only [if_neg h]
    refine ⟨?_, rfl, .refl ..⟩
    simp [Fab.modLaunch]

/-- The state once the op has gone to its channels, and the launch has moved on (R438, R451, R460). -/
def State.dispatched (s : State) (l : Launch) (o : OpWord) (cps : List (Nat × Nat)) : State :=
  (((s.sendLaunch l (cps.map (·.2))).each cps fun t cp => t.queueOp l o (s.fab.nextId + 1) cp).modFab fun f =>
    f.modLaunch l.eid fun x => { x with
      pc := l.past.1 + 1, iter := l.past.2, nops := x.nops + 1, doneDisp := l.past.1 + 1 = x.prog.length }).takeNumber

theorem State.dispatched_spec {cps : List (Nat × Nat)} (hnodup : (cps.map (·.2)).Nodup) (hwf : Tab.wf Slice.reset s.slices = true)
    (hbad : s.fab.staleBad = []) :
    (∀ p ∈ cps.map (·.2), (s.dispatched l o cps).slice p = (s.slice p).queued o (s.fab.nextId + 1) l.eid) ∧
      (∀ p, p ∉ cps.map (·.2) → (s.dispatched l o cps).slice p = s.slice p) ∧
      (s.dispatched l o cps).fab.launches = (s.fab.modLaunch l.eid fun x => { s.launchVis l (cps.map (·.2)) x with
        pc := l.past.1 + 1, iter := l.past.2, nops := x.nops + 1, doneDisp := l.past.1 + 1 = x.prog.length }).launches ∧
      (s.dispatched l o cps).fab = { s.fab with
        launches := (s.dispatched l o cps).fab.launches
        stale := (s.dispatched l o cps).fab.stale
        nextId := s.fab.nextId + 1 } ∧ CountedCrossed s (s.dispatched l o cps) ∧
      Frame [.slices, .fab, .ctl, .evt, .mbx] s (s.dispatched l o cps) := by
  obtain ⟨hfab, hcrossed, hframe⟩ := s.sendLaunch_fab l (cps.map (·.2))
  have hslices : (s.sendLaunch l (cps.map (·.2))).slices = s.slices := hframe.2 .slices (by decide)
  obtain ⟨-, hhere, hthere, hfab', hcrossed', hframe'⟩ := State.queued_each (o := o) (l := l) (mark := s.fab.nextId + 1) hnodup
    (hslices ▸ hwf) (by rw [hfab]; exact hbad)
  have hall : Frame [.slices, .fab, .ctl] s (s.dispatched l o cps) := (hframe.mono (by decide)).trans
    ((hframe'.mono (by decide)).trans (((State.modFab_frame ..).mono (by decide)).trans ((State.modFab_frame ..).mono (by decide))))
  refine ⟨fun p hp => (hhere p hp).trans (congrArg (Slice.queued · ..) (State.slice_congr hslices p)),
    fun p hp => (hthere p hp).trans (State.slice_congr hslices p), ?_, ?_, (hcrossed.trans hcrossed').counted (hall.2 .mbx (by decide)),
    hall.mono (by decide)⟩
  · have htwice := congrArg Fab.launches (Fab.modLaunch_modLaunch (f := s.fab) (id := l.eid) (g := s.launchVis l (cps.map (·.2)))
      (h := fun x => { x with
        pc := l.past.1 + 1, iter := l.past.2, nops := x.nops + 1, doneDisp := l.past.1 + 1 = x.prog.length }) fun _ => rfl)
    change (Fab.modLaunch (State.each _ cps _).fab l.eid _).launches = _
    rw [hfab', hfab]
    exact htwice
  · have hdisp : (s.dispatched l o cps).fab =
        { ((s.sendLaunch l (cps.map (·.2))).each cps fun t cp => t.queueOp l o (s.fab.nextId + 1) cp).fab with
          launches := (s.dispatched l o cps).fab.launches
          nextId := ((s.sendLaunch l (cps.map (·.2))).each cps fun t cp => t.queueOp l o (s.fab.nextId + 1) cp).fab.nextId + 1 } := rfl
    rw [hfab', hfab] at hdisp
    exact hdisp

theorem exec_brewDispatchOp_stays (hl : s.fab.launches[n]? = some l)
    (h : s.brewPaid l.port = false ∨ s.dispatchWaits n l = true ∨ ∃ p ∈ l.chans.map fun c => (s.stk.remapAt c).ps, s.opRoom l p = false) :
    exec (.brewDispatchOp n) s = .next s := by
  change execBrewDispatchOp n s = _
  simp only [execBrewDispatchOp, hl]
  rw [if_pos]
  rcases h with hpaid | hwait | ⟨p, hp, hroom⟩
  · simp [hpaid]
  · simp [hwait]
  · obtain ⟨c, hc, rfl⟩ := List.mem_map.1 hp
    have : (l.chans.map fun c => (c, (s.stk.remapAt c).ps)).all (fun cp => s.opRoom l cp.2) = false := by
      rw [List.all_eq_false]
      exact ⟨_, List.mem_map_of_mem hc, by simp [hroom]⟩
    simp [this]

theorem exec_brewDispatchOp (hl : s.fab.launches[n]? = some l) (hlive : s.portsLive = true) (hdisp : l.doneDisp = false)
    (hwhy : l.why = none) (hpaid : s.brewPaid l.port = true) (hwait : s.dispatchWaits n l = false)
    (hroom : ∀ p ∈ l.chans.map fun c => (s.stk.remapAt c).ps, s.opRoom l p = true) (hw : l.prog[l.past.1]? = some w) :
    exec (.brewDispatchOp n) s = .next ((s.dispatched l (resolveOp (rRowbase l.rent) l.desc l.past.2 w)
      (l.chans.map fun c => (c, (s.stk.remapAt c).ps))).statSub l.port 15 (l.chans.map fun c => (c, (s.stk.remapAt c).ps)).length) := by
  have hall : (l.chans.map fun c => (c, (s.stk.remapAt c).ps)).all (fun cp => s.opRoom l cp.2) = true :=
    List.all_eq_true.2 fun cp hcp => by
      obtain ⟨c, hc, rfl⟩ := List.mem_map.1 hcp
      exact hroom _ (List.mem_map_of_mem hc)
  change execBrewDispatchOp n s = _
  simp only [execBrewDispatchOp, hl, hlive, hdisp, hwhy, hpaid, hwait, hall, hw, Bool.not_true, Option.isSome_none, Bool.or_self,
    Bool.false_eq_true, if_false, State.dispatched]
  rfl

/-- Settles O29: the op joins the queue of each of its channels, and the launch moves on. -/
theorem brewOpDispatched : Obligations.BrewOpDispatched := by
  unfold Obligations.BrewOpDispatched
  intro n s l ⟨_, _, hwf, _⟩ hl
  refine ⟨exec_brewDispatchOp_stays hl, fun w hlive hdisp hwhy hnodup hpaid hwait hroom hbad hw => ?_⟩
  have hdone := State.dispatched_spec (l := l) (o := resolveOp (rRowbase l.rent) l.desc l.past.2 w)
    (cps := l.chans.map fun c => (c, (s.stk.remapAt c).ps)) (by simpa [List.map_map, Function.comp_def] using hnodup) hwf hbad
  obtain ⟨hhere, hthere, hlaunches, hfab, hcrossed, hframe⟩ := hdone
  have hexec := exec_brewDispatchOp hl hlive hdisp hwhy hpaid hwait hroom hw
  rw [List.map_map] at hhere hthere hlaunches
  generalize s.dispatched l (resolveOp (rRowbase l.rent) l.desc l.past.2 w) (l.chans.map fun c => (c, (s.stk.remapAt c).ps)) = u at *
  have hcounts : State.CountsOnly u (u.statSub l.port 15 (l.chans.map fun c => (c, (s.stk.remapAt c).ps)).length) := .count ..
  have hslices := hcounts.frame.2 .slices (by decide)
  have hfabs := hcounts.frame.2 .fab (by decide)
  refine ⟨_, hexec, fun p hp => (State.slice_congr hslices p).trans (hhere p hp),
    fun p hp => (State.slice_congr hslices p).trans (hthere p hp), (congrArg Fab.launches hfabs).trans hlaunches, ?_, ?_,
    hframe.trans (hcounts.frame.mono (by decide))⟩
  · rw [hfabs]
    exact hfab
  · exact hcrossed.trans hcounts.counted.crossed

end Sys2Proof.Machine
end

section
/-! ### Scrub (R673 to R678) -/

namespace Sys2Proof.Machine

variable {s : State} {p : Nat} {c : Nat} {k : Key} {y : ScrubChk} {shared : Bool}

theorem State.chanOf_of_scrubs (h : s.scrubs p = some c) : s.stk.chanOf p = some c := by
  unfold State.scrubs at h
  split at h
  · cases h
  · exact (Option.filter_eq_some_iff.1 h).1

/-- The access that a scrub read makes. -/
def State.scrubAcc (s : State) (p : Nat) (k : Key) : Acc :=
  { Acc.reset with ps := p, bank := keyBank k, row := keyRow k, col := keyCol k, chan := (s.stk.chanOf p).getD 0 }

/-- The entry of a scrub read, before it is known what it is for. -/
def State.scrubEntry (s : State) (p : Nat) (k : Key) (shared : Bool) : Entry := { Entry.reset with
  id := s.fab.nextId, sub := 40, msub := 40, kind := .scrub
  req := { Request.zero with service := 5, slack := 0xFFFF, addr := 0, len := 0 }
  arrival := s.fabView, shared := shared, pent := pairEntry s.cfg.regions 0, accs := [s.scrubAcc p k], vis := s.icqSeen 7 0 }

/-- The state in which a scrub read has been admitted: its word has crossed class 7, and it waits at its meter. -/
def State.scrubAdmitted (s : State) (p : Nat) (k : Key) (parent : Nat) (shared : Bool) : State :=
  (s.icqPass 7 0).modFab fun f => { f with
    trk := f.trk ++ [{ s.scrubEntry p k shared with parent := parent }]
    nextId := f.nextId + 1
    mq := f.mq ++ [s.meterHead (s.scrubEntry p k shared) 5] }

theorem State.scrubRead_eq (hentering : s.sys.entering = false) (hhold : s.fab.hold.contains 3 = false)
    (hslot : s.fab.freeSlot 40 = some shared) (hfree : s.fab.entry s.fab.nextId = none) (k : Key) (parent : Nat) :
    s.scrubRead p k parent = some (s.scrubAdmitted p k parent shared) := by
  have hwork : s.addWork 40 .scrub 0 0 [s.scrubAcc p k] [] =
      ((s.icqPass 7 0).addEntry (s.scrubEntry p k shared)).enterMeter (s.scrubEntry p k shared) 5 := by
    simp only [State.addWork, hslot]
    rfl
  have henter := State.enterMeter_eq (s := (s.icqPass 7 0).addEntry (s.scrubEntry p k shared)) (e := s.scrubEntry p k shared)
    (List.cons_ne_nil _ _) (by simp [State.scrubEntry, State.scrubAcc, Acc.reset]) 5
  have hlast := Fab.modEntry_append (f := s.fab) (e := s.scrubEntry p k shared) hfree fun e => { e with parent := parent }
  have hgo : (s.sys.entering || s.fab.hold.contains 3 || (s.fab.freeSlot 40).isNone) = false := by rw [hentering, hhold, hslot]; rfl
  have hread : s.scrubRead p k parent = some ((s.addWork 40 .scrub 0 0 [s.scrubAcc p k] []).modEntry s.fab.nextId fun e =>
      { e with parent := parent }) := if_neg (by rw [hgo]; decide)
  rw [hread, hwork, henter]
  exact congrArg (fun g : Fab => some { s.icqPass 7 0 with fab := { g with
    nextId := s.fab.nextId + 1, mq := s.fab.mq ++ [s.meterHead (s.scrubEntry p k shared) 5] } }) hlast

theorem State.scrubAdmitted_frame (s : State) (p : Nat) (k : Key) (parent : Nat) (shared : Bool) :
    Frame [.fab, .ctl] s (s.scrubAdmitted p k parent shared) :=
  ((s.icqPass_frame ..).mono (by decide)).trans ((State.modFab_frame ..).mono (by decide))

theorem exec_scrubAccess {p : Fin 144} (hc : s.scrubs p.val = some c) (hlive : s.sliceLive p.val = true)
    (hheld : (s.slice p.val).sch.held = 0) (hon : bit s.stk.scrub 0 = true) (hgo : (s.slice p.val).scr.spaused = none)
    (hbad : s.fab.staleBad = []) (hdue : (s.slice p.val).scr.due (s.slice p.val).scr.spos ≤ s.view p.val)
    (hout : s.scrubsOut p.val 0 = []) (hchecks : ∀ y ∈ (s.slice p.val).scr.checks, y.syms ≠ []) :
    exec (.scrubAccess p) s = .next (
      if s.fab.isStale c (keyBank (scrubKey p.val (s.slice p.val).scr.spos)) (keyRow (scrubKey p.val (s.slice p.val).scr.spos)) then
        s.scrubNext p.val
      else match s.scrubRead p.val (scrubKey p.val (s.slice p.val).scr.spos) 0 with
        | none => s
        | some s1 => s1.scrubNext p.val) := by
  have hnone : ((s.slice p.val).scr.checks.any fun y => y.syms.isEmpty) = false :=
    List.any_eq_false.2 fun y hy => by simpa using hchecks y hy
  change execScrubAccess p s = _
  simp only [execScrubAccess, hc, hlive, hheld, hon, hgo, State.readBit_of_sound hbad, Nat.not_lt.2 hdue, hout, hnone, Bool.not_true,
    ne_eq, not_true_eq_false, decide_false, Option.isSome_none, List.isEmpty_nil, Bool.or_self, Bool.false_eq_true, if_false] <;> rfl

theorem exec_scrubCheck {p : Fin 144} (hc : s.scrubs p.val = some c)
    (hy : (s.slice p.val).scr.checks.find? (s.checkReady p.val) = some y) (hlive : s.sliceLive p.val = true)
    (hheld : (s.slice p.val).sch.held = 0) (hbad : s.fab.staleBad = []) :
    exec (.scrubCheck p) s = .next (
      if s.fab.isStale c y.bank y.row then s.modScr p.val fun x => { x with checks := dropFirst (fun z => z == y) x.checks }
      else match s.scrubRead p.val (keyOf p.val y.bank y.row y.col) 1 with
        | some s1 => if y.syms.isEmpty then s1.detBreak 3 else s1
        | none => s) := by
  change execScrubCheck p s = _
  simp only [execScrubCheck, hc, hy, hlive, hheld, State.readBit_of_sound hbad, Bool.not_true, ne_eq, not_true_eq_false, decide_false,
    Bool.or_self, Bool.false_eq_true, if_false] <;> rfl

/-- Settles O34: a scrub read is admitted with its word and its charge, or a stale row is passed over. -/
theorem scrubWalks : Obligations.ScrubWalks := by
  unfold Obligations.ScrubWalks
  intro p s c ⟨_, _, hwf, _⟩ hc
  have hchan : (s.stk.chanOf p.val).getD 0 = c := by rw [State.chanOf_of_scrubs hc, Option.getD_some]
  refine ⟨fun hlive hheld hon hgo hbad hdue hout hchecks => ?_, fun hruns hlate hgo => ?_, fun y hy hlive hheld hbad => ?_⟩
  · have hexec := exec_scrubAccess hc hlive hheld hon hgo hbad hdue hout hchecks
    refine ⟨fun hstale => hexec.trans (congrArg _ (if_pos hstale)), fun hstale ⟨hentering, hhold, hslot, hfree⟩ hlast => ?_⟩
    obtain ⟨shared, hslot⟩ := Option.isSome_iff_exists.1 hslot
    rw [if_neg (by rw [hstale]; decide), State.scrubRead_eq hentering hhold hslot hfree] at hexec
    have hframe := s.scrubAdmitted_frame p.val (scrubKey p.val (s.slice p.val).scr.spos) 0 shared
    have hscr := (State.Island.of_slices hwf p.val (hframe.2 .slices (by decide))).modSlice fun x => { x with scr :=
      if x.scr.spos + 1 = scrubLen then { x.scr with
        spos := 0, sstart := (s.scrubAdmitted p.val (scrubKey p.val (s.slice p.val).scr.spos) 0 shared).view p.val
        speriod := fld (s.scrubAdmitted p.val (scrubKey p.val (s.slice p.val).scr.spos) 0 shared).stk.scrub 1 8
        slate := false, spass := (x.scr.spass + 1) % 2 ^ 16 }
      else { x.scr with spos := x.scr.spos + 1 } }
    rw [if_neg hlast] at hscr
    exact ⟨_, hexec, ⟨_, _, _, rfl, rfl, rfl, rfl, rfl, rfl, rfl, rfl, rfl, hchan, rfl, rfl, rfl, rfl, rfl, rfl, rfl, rfl, rfl, rfl, rfl, rfl⟩,
      hscr.here, hscr.there, (hframe.mono (by decide)).trans ((State.modSlice_frame ..).mono (by decide))⟩
  · have hexec : exec (.scrubPassLate p) s = .next (if s.view p.val ≤ (s.slice p.val).scr.sstart + (s.slice p.val).scr.ticks then s
        else (s.modScr p.val fun x => { x with slate := true }).event .scrubLate p.val (repairDetail c 0xFF 0 0)) := by
      change execScrubPassLate p s = _
      simp only [execScrubPassLate, hc, hruns, hlate, hgo, Bool.not_true, Option.isSome_none, Bool.or_self, Bool.false_or,
        decide_eq_true_eq]
    exact ⟨fun h => hexec.trans (congrArg _ (if_pos h)), fun h => hexec.trans (congrArg _ (if_neg (Nat.not_le.2 h)))⟩
  · have hexec := exec_scrubCheck hc hy hlive hheld hbad
    rw [hchan]
    refine ⟨fun hstale => hexec.trans (congrArg _ (if_pos hstale)), fun hstale ⟨hentering, hhold, hslot, hfree⟩ hsyms => ?_⟩
    obtain ⟨shared, hslot⟩ := Option.isSome_iff_exists.1 hslot
    rw [if_neg (by rw [hstale]; decide), State.scrubRead_eq hentering hhold hslot hfree] at hexec
    have hframe := s.scrubAdmitted_frame p.val (keyOf p.val y.bank y.row y.col) 1 shared
    have hquiet : (if y.syms.isEmpty then (s.scrubAdmitted p.val (keyOf p.val y.bank y.row y.col) 1 shared).detBreak 3
        else s.scrubAdmitted p.val (keyOf p.val y.bank y.row y.col) 1 shared) =
        s.scrubAdmitted p.val (keyOf p.val y.bank y.row y.col) 1 shared := by
      rcases hsyms with hsyms | hmode
      · exact if_neg (by simpa using hsyms)
      · rw [State.detBreak_of_not_timing (s := s.scrubAdmitted p.val (keyOf p.val y.bank y.row y.col) 1 shared) hmode, ite_self]
    exact ⟨_, hexec.trans (congrArg _ hquiet),
      ⟨_, _, _, rfl, rfl, rfl, rfl, rfl, rfl, rfl, rfl, rfl, hchan, rfl, rfl, rfl, rfl, rfl, rfl, rfl, rfl, rfl, rfl, rfl, rfl⟩, hframe⟩

end Sys2Proof.Machine
end

section
/-! ### Substitution of a bank unit (R682, R683) -/

namespace Sys2Proof.Machine

variable {s : State} {p : Nat}

theorem State.addCand_of_off (h : s.autoMig = false) (c cause : Nat) : s.addCand c cause = s := by
  unfold State.addCand
  rw [h]
  rfl

/-- The unit of a bank is out of service, and the wait for it is over. -/
def State.unitOut (s : State) (p b : Nat) : State :=
  (s.detBreak 5).modRep p fun x => { x with unitWait := x.unitWait.filter fun y => y != b, unitBad := insertNat b x.unitBad }

theorem State.autoMig_unitOut (s : State) (p b : Nat) : (s.unitOut p b).autoMig = s.autoMig :=
  congrArg (fun k : Stack => bit k.ecc 27) ((s.detBreak_frame 5).2 .stk (by decide))

theorem State.unitFence_eq (h : s.autoMig = false) (p b : Nat) : s.unitFence p b = s.unitOut p b := by
  change (match s.stk.chanOf p with | some c => (s.unitOut p b).addCand c 3 | none => s.unitOut p b) = _
  split
  · exact State.addCand_of_off ((s.autoMig_unitOut p b).trans h) ..
  · rfl

/-- A fault of a unit that serves: its substitution is due, or it is fenced. -/
theorem State.unitFault_eq {b : Nat} (hserv : (s.slice p).rep.inServ = true) (hbad : (s.slice p).rep.unitBad.contains b = false)
    (hwait : (s.slice p).rep.unitWait.contains b = false) : s.unitFault p b =
      if (s.slice p).rep.unitsLeft = 0 then s.unitFence p b else s.modRep p fun x => { x with unitWait := insertNat b x.unitWait } := by
  simp only [State.unitFault, hserv, hbad, hwait, Bool.not_true, Bool.or_self, Bool.false_eq_true, if_false]

/-- A launch is active on a bank of the slice (R682). -/
def State.unitActive (s : State) (p b : Nat) : Bool :=
  match s.stk.chanOf p with
  | some c => s.launchActive c b
  | none => false

theorem State.unitActive_eq_false {b : Nat} (h : ∀ c, s.stk.chanOf p = some c → s.launchActive c b = false) :
    s.unitActive p b = false := by
  unfold State.unitActive
  split
  · next c hc => exact h c hc
  · rfl

theorem exec_unitSub {p : Fin 144} {b : Fin 32} (hwait : (s.slice p.val).rep.unitWait.contains b.val = true)
    (hsent : ((s.slice p.val).rep.unitSent.any fun x => x.1 == b.val) = false) :
    exec (.unitSub p b) s = .next (
      if s.unitActive p.val b.val then s
      else if (s.slice p.val).rep.unitsLeft = 0 then s.unitFence p.val b.val
      else if (s.slice p.val).rep.unitsLeft ≤ (s.slice p.val).rep.unitSent.length then s
      else (s.detBreak 5).modRep p.val fun x => { x with unitSent := x.unitSent ++ [(b.val, s.sys.ltc)] }) := by
  change execUnitSub p b s = _
  simp only [execUnitSub, hwait, hsent, Bool.not_true, Bool.or_self, Bool.false_or]
  rfl

/-- Settles O36: each command of a substitution by the branch that its unit stands in. -/
theorem unitSubstituted : Obligations.UnitSubstituted := by
  unfold Obligations.UnitSubstituted
  intro p b s _
  dsimp only
  refine ⟨fun hready hserv hbad hwait => ?_, fun hwait hsent => ?_, fun hsent => ?_, fun l hsent => ?_⟩
  · have hexec : exec (.epUnitFault p b) s = .next (if s.sys.ready then s.unitFault p.val b.val else s) := rfl
    rw [if_pos hready, State.unitFault_eq hserv hbad hwait] at hexec
    exact ⟨fun hleft => hexec.trans (congrArg _ (if_neg hleft)),
      fun hleft hmig => hexec.trans (congrArg _ ((if_pos hleft).trans (State.unitFence_eq hmig ..)))⟩
  · have hexec := exec_unitSub hwait hsent
    refine ⟨fun ⟨c, hc, hact⟩ => ?_, fun hidle hleft hall => ?_, fun hidle hleft hmig => ?_, fun hidle hroom => ?_⟩
    · have hact : s.unitActive p.val b.val = true := by
        rw [State.unitActive, hc]
        exact hact
      exact hexec.trans (congrArg _ (if_pos hact))
    · rw [State.unitActive_eq_false hidle, if_neg Bool.false_ne_true, if_neg hleft, if_pos hall] at hexec
      exact hexec
    · rw [State.unitActive_eq_false hidle, if_neg Bool.false_ne_true, if_pos hleft, State.unitFence_eq hmig] at hexec
      exact hexec
    · rw [State.unitActive_eq_false hidle, if_neg Bool.false_ne_true, if_neg (by omega), if_neg (by omega)] at hexec
      exact hexec
  · have hexec : exec (.unitSubAck p b) s = .next (if (s.slice p.val).rep.unitSent.any fun x => x.1 == b.val then
      s.unitSubOver p.val b.val true else s) := rfl
    exact hexec.trans (congrArg _ (if_pos hsent))
  · have hexec : exec (.unitSubTimeout p b) s = .next (if (s.slice p.val).rep.unitSent.any fun x =>
      x.1 == b.val && decide (x.2 + us 20 ≤ s.sys.ltc) then s.unitSubOver p.val b.val false else s) := rfl
    have hdue : ((s.slice p.val).rep.unitSent.any fun x => x.1 == b.val && decide (x.2 + us 20 ≤ s.sys.ltc)) =
        decide (l + 8000 ≤ s.sys.ltc) := by
      rw [hsent]
      simp [us]
      rfl
    rw [hdue] at hexec
    exact ⟨fun hearly => hexec.trans (congrArg _ (if_neg (by simpa using hearly))),
      fun hlate => hexec.trans (congrArg _ (if_pos (by simpa using hlate)))⟩

end Sys2Proof.Machine
end

section
/-! ### The march of a spare slice (R928, R929)

`State.Canon` says nothing of the tables that lie inside a slice. A table of banks that lists a bank twice is not in the form that
`Tab.set` keeps: a write of the reset value takes out the first of the two entries, and the second one comes to light. -/

namespace Sys2Proof.Machine

/-- A bank table that lists bank 0 twice, each time with a row open, under a tRP of 0. -/
def doubledBanks : BankSet := { BankSet.reset with
  banks := [(0, { BankT.reset with openRow := some 0 }), (0, { BankT.reset with openRow := some 1 })]
  tim := { Timing.reset with tim0 := 0 } }

/-- A device in service whose slice 0 is under test, with such a table. -/
def doubledMarch : State := { State.reset with
  sys := { State.reset.sys with ready := true, phase := .running, rstEnd := false }
  slices := [(0, { Slice.reset with bt := doubledBanks, rep := { Slice.reset.rep with testing := true } })] }

theorem doubledMarch_canon : doubledMarch.Canon := by
  unfold State.Canon
  decide +kernel

/-- The march of slice 0 may end. -/
theorem doubledMarch_tested : doubledMarch.istAllowed = true ∧
    ((List.range 144).find? fun p => (doubledMarch.slice p).rep.testing) = some 0 ∧ bit doubledMarch.wrap.slice 8 = false := by
  decide +kernel

/-- With every open bank of slice 0 precharged, bank 0 shows the row of its second entry. -/
theorem doubledMarch_open : (((doubledMarch.closeAll 0).slice 0).bt.bank 0).openRow = some 1 := by decide +kernel

/-- Refutes O37: the precharge of bank 0 writes the reset value over the first of its two entries, and the second one has a row
open, so that a bank of the slice is open once all are precharged. -/
theorem not_inServiceTest : ¬ Obligations.InServiceTest := by
  unfold Obligations.InServiceTest
  intro h
  obtain ⟨hallowed, htesting, hoff⟩ := doubledMarch_tested
  obtain ⟨-, -, -, hmarch⟩ := h doubledMarch doubledMarch_canon
  obtain ⟨t, -, -, hclosed, -⟩ := hmarch 0 hallowed htesting (.inr hoff)
  exact absurd ((hclosed 0 (by decide)).symm.trans doubledMarch_open) (by decide)

end Sys2Proof.Machine
end

section
/-! ### Housekeeping rounds (R542, R624, R666) and the end of grace (R568, R569) -/

namespace Sys2Proof.Machine

variable {s : State}

theorem State.detBreak_counted (s : State) (cause : Nat) : Counted s (s.detBreak cause) := by
  have hframe := s.detBreak_frame cause
  refine ⟨by rw [hframe.2 .ctl (by decide)], ?_⟩
  unfold State.detBreak
  split
  · split
    · rfl
    · exact State.event_mbx ..
  · rfl

/-- The counts that a slice keeps by round begin again (R666). -/
def Slice.roundBegun (x : Slice) : Slice := { x with scr := { x.scr with ceRec := false, ueRecs := 0 } }

/-- A round has started: it is open and numbered, and counts for the impedance engine. -/
def State.roundStarted (s : State) : State :=
  let s1 := s.modTherm fun h => { h with
    roundOpen := true, roundStart := 400 + 400000 * s.therm.roundNo, roundNo := h.roundNo + 1, zqRounds := min 1024 (h.zqRounds + 1) }
  { s1 with slices := Tab.mapVals Slice.reset (fun _ x => x.roundBegun) s1.slices }

theorem exec_hkRoundStart (hpor : s.sys.porN = true) : exec .hkRoundStart s = .next (
    if s.therm.roundOpen || decide (s.sys.ltc < 400 + 400000 * s.therm.roundNo) then s else s.roundStarted) := by
  change execHkRoundStart s = _
  simp only [execHkRoundStart, hpor, Bool.not_true, Bool.false_or]
  rfl

theorem State.slice_roundStarted (hwf : Tab.wf Slice.reset s.slices = true) (p : Nat) :
    s.roundStarted.slice p = (s.slice p).roundBegun := Tab.get_mapVals hwf rfl

theorem State.settleAll_frame (s : State) : Frame [.fab] s s.settleAll := by
  unfold State.settleAll
  exact (State.each_frame s fun t m => t.setMeter_frame ..).trans (State.each_frame _ fun t k => t.setBucket_frame ..)

/-- Enforcement has started or ended, and is not recorded yet. -/
def State.enforced (s : State) (on : Bool) : State :=
  (s.settleAll.detBreak 2).modTherm fun t => { t with enforce := on, graceStart := none, graceLate := false }

theorem State.enforceTo_eq (s : State) (on : Bool) : s.enforceTo on = (s.enforced on).event .thermEnforce 0 (thermDetail 0 (b2n on) 0) := rfl

theorem State.enforced_counted (s : State) (on : Bool) : Counted s (s.enforced on) :=
  (Counted.of_frame s.settleAll_frame (by decide) (by decide)).trans ((State.detBreak_counted ..).trans
    (Counted.of_frame (State.modTherm_frame ..) (by decide) (by decide)))

theorem State.enforced_frame (s : State) (on : Bool) : Frame [.therm, .fab, .det, .evt, .mbx] s (s.enforced on) :=
  (s.settleAll_frame.mono (by decide)).trans (((State.detBreak_frame ..).mono (by decide)).trans
    ((State.modTherm_frame ..).mono (by decide)))

theorem State.enforced_therm (s : State) (on : Bool) :
    (s.enforced on).therm = { s.therm with enforce := on, graceStart := none, graceLate := false } := by
  have htherm : (s.settleAll.detBreak 2).therm = s.therm :=
    ((State.detBreak_frame ..).2 .therm (by decide)).trans (s.settleAll_frame.2 .therm (by decide))
  rw [State.enforced, State.modTherm, htherm]

theorem exec_thermGraceEnd {g : Nat} (hg : s.therm.graceStart = some g) (hreq : s.therm.thrReq = true)
    (hlate : s.therm.graceLate = false) :
    exec .thermGraceEnd s = .next (if g + s.cfg.graceTicks ≤ s.sys.ltc then s.enforceTo true else s) := by
  change execThermGraceEnd s = _
  simp only [execThermGraceEnd, hg, hreq, hlate, Bool.not_false, Bool.true_and, decide_eq_true_eq]

/-- Settles O38: each of the three commands at its time, and not before. -/
theorem thermalRounds : Obligations.ThermalRounds := by
  unfold Obligations.ThermalRounds
  intro s ⟨_, _, hwf, _⟩ hpor
  have hround := exec_hkRoundStart hpor
  refine ⟨fun h => ?_, fun hopen hdue => ?_, fun code => ?_, fun g hg hreq hlate => ?_⟩
  · exact hround.trans (congrArg _ (if_pos (by simpa using h)))
  · rw [if_neg (by simp [hopen, hdue])] at hround
    refine ⟨_, hround, rfl, State.slice_roundStarted hwf, ?_⟩
    exact .of rfl fun p => by cases p <;> simp [Part.same, State.roundStarted, State.modTherm]
  · have hexec : exec (.zqCal code) s = .next (if s.therm.zqRounds < 1024 then s
        else s.modTherm fun t => { t with zqRounds := 0, zqCode := code.toNat }) := by
      change execZqCal code s = _
      simp only [execZqCal, hpor, Bool.not_true, Bool.false_or, decide_eq_true_eq]
    exact ⟨fun h => hexec.trans (congrArg _ (if_pos h)), fun h => hexec.trans (congrArg _ (if_neg (Nat.not_lt.2 h)))⟩
  · have hexec := exec_thermGraceEnd hg hreq hlate
    refine ⟨fun h => hexec.trans (congrArg _ (if_neg (Nat.not_le.2 h))), fun h => ?_⟩
    rw [if_pos h, State.enforceTo_eq] at hexec
    refine ⟨_, hexec, ?_, State.event_irq _ _ _ _ 2 ?_, (s.enforced_counted true).trans (State.event_counted ..), ?_⟩
    · rw [State.event_therm, State.enforced_therm]
      exact congrArg (fun b => { s.therm with enforce := true, graceStart := none, graceLate := b }) hlate.symm
    · rw [BitVec.getLsbD_or]
      simp [Ev.causes]
    · exact ((s.enforced_frame true).mono (by decide)).trans ((State.event_frame ..).mono (by decide))

end Sys2Proof.Machine
end

section
/-! ### What an evaluation does besides the levels (R640, R668 to R672, R701, R865 to R870)

Repair settings, refresh bands, lane health, calibration and the layers' power touch neither the level nor the reading of a slice. -/

namespace Sys2Proof.Machine

variable {s t u : State} {p : Nat}

/-- What the work beside the levels may touch. -/
abbrev evalParts : List Part := [.sys, .ctl, .mbx, .evt, .fab, .slices, .stk, .det, .ring]

/-- Between `s` and `t` no slice has changed its level or its reading. -/
structure State.SameHeat (s t : State) : Prop where
  slices : Tab.wf Slice.reset s.slices = true → Tab.wf Slice.reset t.slices = true ∧
    ∀ p, (t.slice p).level = (s.slice p).level ∧ (t.slice p).temp = (s.slice p).temp
  sys : t.sys = { s.sys with free := t.sys.free }
  frame : Frame evalParts s t

namespace State.SameHeat

theorem refl (s : State) : SameHeat s s := ⟨fun h => ⟨h, fun _ => ⟨rfl, rfl⟩⟩, rfl, .refl ..⟩

theorem trans (h1 : SameHeat s t) (h2 : SameHeat t u) : SameHeat s u where
  slices h := by
    obtain ⟨hwf, hs⟩ := h1.slices h
    obtain ⟨hwf', ht⟩ := h2.slices hwf
    exact ⟨hwf', fun p => ⟨(ht p).1.trans (hs p).1, (ht p).2.trans (hs p).2⟩⟩
  sys := by rw [h2.sys, h1.sys]
  frame := h1.frame.trans h2.frame

theorem of_frame {ps : List Part} (h : Frame ps s t) (hps : ∀ p ∈ ps, p ∈ [.ctl, .mbx, .evt, .fab, .stk, .det, .ring] := by decide) :
    SameHeat s t := by
  have hframe := h.mono hps
  have hslices : t.slices = s.slices := hframe.2 .slices (by decide)
  exact ⟨fun hwf => ⟨hslices ▸ hwf, fun p => by rw [State.slice_congr hslices]; exact ⟨rfl, rfl⟩⟩, by rw [hframe.2 .sys (by decide)],
    hframe.mono (by decide)⟩

theorem ite {c : Prop} [Decidable c] (h1 : SameHeat s t) (h2 : SameHeat s u) : SameHeat s (if c then t else u) := by
  split
  · exact h1
  · exact h2

theorem each {α : Type} {f : State → α → State} (h : ∀ s a, SameHeat s (f s a)) (l : List α) (s : State) : SameHeat s (s.each l f) :=
  State.each_induct (P := SameHeat s) (fun t a ht => ht.trans (h t a)) l (refl s)

theorem nextFree (s : State) : SameHeat s s.nextFree :=
  ⟨fun h => ⟨h, fun _ => ⟨rfl, rfl⟩⟩, rfl,
    (s.modSys_frame fun y => { y with free := y.free + 1 } : Frame _ s s.nextFree).mono (by decide)⟩

theorem modSlice (s : State) (p : Nat) {f : Slice → Slice} (hf : ∀ x, (f x).level = x.level ∧ (f x).temp = x.temp) :
    SameHeat s (s.modSlice p f) where
  slices h := by
    refine ⟨State.modSlice_wf h f, fun j => ?_⟩
    by_cases hj : j = p
    · rw [hj, State.slice_modSlice h]
      exact hf _
    · rw [State.slice_modSlice_ne _ _ hj]
      exact ⟨rfl, rfl⟩
  sys := rfl
  frame := (s.modSlice_frame p f).mono (by decide)

theorem modLink (s : State) (p : Nat) (f : Link → Link) : SameHeat s (s.modLink p f) := modSlice s p fun _ => ⟨rfl, rfl⟩

theorem modSch (s : State) (p : Nat) (f : Sched → Sched) : SameHeat s (s.modSch p f) := modSlice s p fun _ => ⟨rfl, rfl⟩

theorem modRf (s : State) (p : Nat) (f : Refr → Refr) : SameHeat s (s.modRf p f) := modSlice s p fun _ => ⟨rfl, rfl⟩

theorem modScr (s : State) (p : Nat) (f : Scrub → Scrub) : SameHeat s (s.modScr p f) := modSlice s p fun _ => ⟨rfl, rfl⟩

theorem modStk (s : State) (f : Stack → Stack) : SameHeat s (s.modStk f) := of_frame (s.modStk_frame f)

theorem modRing (s : State) (f : Ring → Ring) : SameHeat s (s.modRing f) := of_frame (s.modRing_frame f)

theorem stat (s : State) (page slot n : Nat) : SameHeat s (s.stat page slot n) := of_frame (State.count_frame ..)

theorem linkEvent (s : State) (e : Ev) (p bond cause : Nat) : SameHeat s (s.linkEvent e p bond cause) :=
  of_frame (State.reportBy_frame ..)

/-- A hold that reaches its channel, or is on its way. -/
theorem holdChan (s : State) (p : Nat) : SameHeat s (s.holdChan p) := by
  have hpass : SameHeat s (s.icqPass 3 p) := of_frame (s.icqPass_frame 3 p)
  unfold State.holdChan
  by_cases h : s.icqSeen 3 p ≤ s.sys.ltc
  · rw [State.tell_of_seen h]
    exact hpass.trans (modSch _ p fun x => { x with held := x.held + 1 })
  · rw [State.tell_of_unseen h]
    exact hpass.trans (of_frame (State.modCtl_frame ..))

/-! #### Bundles -/

theorem calYield (s : State) (p : Nat) : SameHeat s (s.calYield p) := .ite ((modLink ..).trans (stat ..)) (refl s)

theorem startRetrain (s : State) (p cause : Nat) : SameHeat s (s.startRetrain p cause) := by
  unfold State.startRetrain
  have hgo := (((of_frame (s.detBreak_frame 4)).trans (calYield _ p)).trans (stat _ p 30 1)).trans
    (modLink _ p fun l => { l with state := .retrain, cause := cause })
  exact .ite (refl s) (.ite hgo (hgo.trans (holdChan ..)))

theorem failBond (s : State) (p b : Nat) : SameHeat s (s.failBond p b) := by
  unfold State.failBond
  dsimp only
  split
  · exact refl s
  · have hfail := (modLink s p fun l => { l with failed := insertNat b l.failed }).trans (linkEvent _ .laneFail p b 0)
    split
    · exact hfail.trans (modLink ..)
    · split
      · exact hfail.trans (startRetrain ..)
      · exact ((hfail.trans (modSch ..)).trans (modLink ..)).trans (linkEvent ..)

theorem evalLane (s : State) (p b : Nat) : SameHeat s (s.evalLane p b) := by
  unfold State.evalLane
  dsimp only
  refine .ite (modLink ..) (.ite ?_ (.ite ?_ ?_))
  · exact .ite (modLink ..) (.ite ((modLink ..).trans (failBond ..)) (((modLink ..).trans (modLink ..)).trans (linkEvent ..)))
  · exact .ite ((modLink ..).trans (linkEvent ..)) (modLink ..)
  · exact .ite ((modLink ..).trans (failBond ..)) (modLink ..)

theorem evalLanes (s : State) (p : Nat) : SameHeat s (s.evalLanes p) :=
  .each (fun s b => .ite (evalLane s p b) (refl s)) _ s

theorem evalCal (s : State) (p : Nat) : SameHeat s (s.evalCal p) := by
  unfold State.evalCal
  exact .ite (modLink ..) (refl s)

/-! #### Repair settings and refresh bands -/

theorem takeRepair (s : State) : SameHeat s s.takeRepair := by
  unfold State.takeRepair
  exact .ite (modStk ..) ((modStk ..).trans (.each (fun s p => modScr s p _) _ _))

theorem reband (s : State) (p : Nat) (reading : BitVec 16) (subst : Bool) : SameHeat s (s.reband p reading subst) := by
  unfold State.reband
  have hband (new : Nat) : SameHeat s ((s.settleRefresh p).modRf p fun r => { r with band := new, subst := subst, read := reading }) :=
    SameHeat.trans (.each (fun s i => modRf s p _) _ s) (modRf ..)
  exact .ite (modRf ..) (.ite (hband _) ((hband _).trans ((modRf ..).trans (stat ..))))

/-! #### Power -/

theorem ringSend (s : State) (fs : List (List (BitVec 16))) : SameHeat s (s.ringSend fs) := of_frame (s.ringSend_frame fs)

theorem sendBudgets (s : State) : SameHeat s s.sendBudgets := by
  unfold State.sendBudgets
  exact .ite (((nextFree s).trans (modStk ..)).trans ((modRing ..).trans (ringSend ..))) (refl s)

theorem centralCheck (s : State) : SameHeat s s.centralCheck := by
  unfold State.centralCheck
  exact .ite ((modStk ..).trans (of_frame (State.event_frame ..))) (modStk ..)

theorem centralRule (s : State) : SameHeat s s.centralRule := by
  unfold State.centralRule
  refine .ite ?_ (.ite ?_ (refl s))
  · split
    · exact modStk ..
    · exact refl s
  · split
    · exact .ite (refl s) (modStk ..)
    · exact refl s

theorem sendLayerBudgets (s : State) : SameHeat s s.sendLayerBudgets := (modStk ..).trans (nextFree _)

theorem evalPower (s : State) : SameHeat s s.evalPower := by
  unfold State.evalPower
  extract_lets c die s1 s2 s3 s4 n
  have h2 : SameHeat s s2 := .ite ((modRing s _).trans (sendBudgets s1)) (modRing s _)
  have h4 : SameHeat s s4 := h2.trans ((centralCheck s2).trans (modStk s3 _))
  exact .ite h2 (.ite (h4.trans (centralRule s4)) (.ite ((h4.trans (sendLayerBudgets s4)).trans (modStk ..)) h4))

end State.SameHeat

end Sys2Proof.Machine
end

section
/-! ### The sensors of a sound round (R547 to R563) -/

namespace Sys2Proof.Machine

variable {s t u : State} {i : Nat} {rd : Nat → BitVec 16}

/-- What the sensors' tests may touch. -/
abbrev sensorParts : List Part := [.sys, .therm, .ctl, .mbx, .evt]

/-- Every temperature sensor is sound and shows its reading. -/
def State.Sound (s : State) (rd : Nat → BitVec 16) : Prop := ∀ i, i < 288 → (s.sensor i).broken = false ∧ (s.sensor i).value = rd i

/-- Between `s` and `t` the sensors have been read and tested: the temperature sensors are sound, and of the round nothing has
changed but sensors and converters. -/
structure State.Sensed (rd : Nat → BitVec 16) (s t : State) : Prop where
  sound : t.Sound rd
  therm : t.therm = { s.therm with sens := t.therm.sens, adcMis := t.therm.adcMis, adcFail := t.therm.adcFail }
  sys : t.sys = { s.sys with free := t.sys.free }
  frame : Frame sensorParts s t

/-- A sensor that shows a reading other than that of reset reads as it was written, whatever the form of its table. -/
theorem State.sensor_modSensor {f : Sensor → Sensor} (h : (f (s.sensor i)).value ≠ 0x8000) :
    (s.modSensor i f).sensor i = f (s.sensor i) :=
  Tab.get_set_of_ne_default (fun heq => h (congrArg Sensor.value heq)) ..

theorem State.sensor_modSensor_ne {j : Nat} (f : Sensor → Sensor) (h : j ≠ i) : (s.modSensor i f).sensor j = s.sensor j :=
  Tab.get_set_ne _ h

namespace State.Sensed

variable (hrd : ∀ i, i < 288 → rd i ≠ 0x8000)

include hrd in
/-- A test that leaves a sound temperature sensor sound. -/
theorem modSensor (h : Sensed rd s t) (i : Nat) {f : Sensor → Sensor}
    (hf : ∀ x : Sensor, x = t.sensor i → i < 288 → (f x).broken = false ∧ (f x).value = x.value) : Sensed rd s (t.modSensor i f) where
  sound j hj := by
    by_cases hji : j = i
    · subst hji
      obtain ⟨hbroken, hvalue⟩ := hf _ rfl hj
      have hval : (f (t.sensor j)).value = rd j := hvalue.trans (h.sound j hj).2
      rw [State.sensor_modSensor (by rw [hval]; exact hrd j hj)]
      exact ⟨hbroken, hval⟩
    · rw [State.sensor_modSensor_ne _ hji]
      exact h.sound j hj
  therm := by
    have hmod : (t.modSensor i f).therm = { t.therm with sens := Tab.upd Sensor.reset t.therm.sens i f } := rfl
    rw [hmod, h.therm]
  sys := h.sys
  frame := h.frame.trans ((State.modTherm_frame ..).mono (by decide))

theorem of_frame (h : Sensed rd s t) (hf : Frame [.ctl, .mbx, .evt] t u) : Sensed rd s u := by
  have htherm : u.therm = t.therm := hf.2 .therm (by decide)
  refine ⟨fun j hj => ?_, ?_, ?_, h.frame.trans (hf.mono (by decide))⟩
  · rw [State.sensor, htherm]
    exact h.sound j hj
  · rw [htherm]
    exact h.therm
  · rw [hf.2 .sys (by decide)]
    exact h.sys

theorem event (h : Sensed rd s t) (e : Ev) (unit detail : Nat) : Sensed rd s (t.event e unit detail) :=
  h.of_frame ((State.event_frame ..).mono (by decide))

theorem stat (h : Sensed rd s t) (page slot n : Nat) : Sensed rd s (t.stat page slot n) := h.of_frame ((State.count_frame ..).mono (by decide))

theorem count (h : Sensed rd s t) (top : Nat) (e : Ev) (page slot n : Nat) : Sensed rd s (t.count top e page slot n) :=
  h.of_frame ((State.count_frame ..).mono (by decide))

theorem ite {c : Prop} [Decidable c] (h1 : Sensed rd s t) (h2 : Sensed rd s u) : Sensed rd s (if c then t else u) := by
  split
  · exact h1
  · exact h2

theorem each {α : Type} {f : State → α → State} (l : List α) (hf : ∀ t, Sensed rd s t → ∀ a, Sensed rd s (f t a)) (h : Sensed rd s t) :
    Sensed rd s (t.each l f) := State.each_induct (P := Sensed rd s) (fun t a ht => hf t ht a) l h

end State.Sensed

/-! #### The tests in their order -/

/-- A loop that changes each of the first `n` numbers changes one of them once, when it may not become the default there, whatever
the form of the table. -/
theorem Tab.get_foldl_upd_of_ne_default {α : Type} [DecidableEq α] {d : α} (f : Nat → α → α) {k : Nat} (hf : ∀ x, f k x ≠ d) (t : Tab α)
    (n : Nat) : Tab.get d ((List.range n).foldl (fun t i => Tab.upd d t i (f i)) t) k =
      if k < n then f k (Tab.get d t k) else Tab.get d t k := by
  induction n with
  | zero => rfl
  | succ n ih =>
    rw [List.range_succ, List.foldl_append, List.foldl_cons, List.foldl_nil]
    by_cases hk : k = n
    · subst hk
      rw [if_neg (Nat.lt_irrefl k)] at ih
      rw [if_pos (Nat.lt_succ_self k), Tab.upd, Tab.get_set_of_ne_default (hf _), ih]
    · have hiff : k < n + 1 ↔ k < n := by omega
      rw [Tab.upd, Tab.get_set_ne _ hk, ih]
      simp only [hiff]

/-- A sensor with its reading of a round (R547). -/
def storedReading (readings : List (BitVec 16)) (i : Nat) (x : Sensor) : Sensor :=
  let v := readings.getD i (if i < 288 then 0x8000 else 0xFFFF)
  { x with value := if i < 288 then v else v ^^^ 0x7FFF }

/-- The sensors with the readings of a round. -/
def storedReadings (readings : List (BitVec 16)) (m : Tab Sensor) : Tab Sensor :=
  (List.range 336).foldl (fun m i => Tab.upd Sensor.reset m i (storedReading readings i)) m

theorem State.storeReadings_eq (s : State) (readings : List (BitVec 16)) :
    s.storeReadings readings = s.modTherm fun t => { t with sens := storedReadings readings t.sens } := by
  unfold State.storeReadings storedReadings
  rfl

theorem State.sens_modTherm (s : State) (f : Tab Sensor → Tab Sensor) : (s.modTherm fun t => { t with sens := f t.sens }).therm =
    { s.therm with
      sens := (s.modTherm fun t => { t with sens := f t.sens }).therm.sens
      adcMis := (s.modTherm fun t => { t with sens := f t.sens }).therm.adcMis
      adcFail := (s.modTherm fun t => { t with sens := f t.sens }).therm.adcFail } := rfl

theorem State.sensor_modTherm (s : State) (f : Tab Sensor → Tab Sensor) (i : Nat) :
    (s.modTherm fun t => { t with sens := f t.sens }).sensor i = Tab.get Sensor.reset (f s.therm.sens) i := rfl

theorem State.storeReadings_frame (s : State) (readings : List (BitVec 16)) : Frame [.therm] s (s.storeReadings readings) := by
  rw [State.storeReadings_eq]
  exact s.modTherm_frame _

/-- A stored reading stands at each temperature sensor, sound as it was. -/
theorem State.sensor_storeReadings {readings : List (BitVec 16)} (hi : i < 288) (hrd : readings.getD i 0x8000 ≠ 0x8000) :
    (s.storeReadings readings).sensor i = { s.sensor i with value := readings.getD i 0x8000 } := by
  have hstored (x : Sensor) : storedReading readings i x = { x with value := readings.getD i 0x8000 } := by
    simp only [storedReading, if_pos hi]
  have hget := Tab.get_foldl_upd_of_ne_default (d := Sensor.reset) (storedReading readings) (k := i)
    (fun x h => hrd (congrArg Sensor.value ((hstored x).symm.trans h))) s.therm.sens 336
  rw [if_pos (by omega), hstored] at hget
  have hsens : (s.storeReadings readings).sensor i = Tab.get Sensor.reset (storedReadings readings s.therm.sens) i := by
    rw [State.storeReadings_eq]
    exact s.sensor_modTherm (storedReadings readings) i
  rw [hsens, storedReadings]
  exact hget

theorem State.sensed_storeReadings {readings : List (BitVec 16)} (hrd : ∀ i, i < 288 → readings.getD i 0x8000 ≠ 0x8000)
    (hsound : ∀ i, i < 288 → (s.sensor i).broken = false) :
    State.Sensed (readings.getD · 0x8000) s (s.storeReadings readings) where
  sound i hi := by
    rw [State.sensor_storeReadings hi (hrd i hi)]
    exact ⟨hsound i hi, rfl⟩
  therm := by
    rw [State.storeReadings_eq]
    exact State.sens_modTherm s (storedReadings readings)
  sys := by
    have hsys : (s.storeReadings readings).sys = s.sys := (s.storeReadings_frame readings).2 .sys (by decide)
    rw [hsys]
  frame := (s.storeReadings_frame readings).mono (by decide)

namespace State.Sensed

variable (hrd : ∀ i, i < 288 → rd i ≠ 0x8000)

theorem modConverters (h : Sensed rd s t) (f : Therm → Therm)
    (hf : f t.therm = { t.therm with adcMis := (f t.therm).adcMis, adcFail := (f t.therm).adcFail }) : Sensed rd s (t.modTherm f) where
  sound j hj := by
    have hsens : (t.modTherm f).sensor j = t.sensor j := by
      rw [State.sensor, show (t.modTherm f).therm = f t.therm from rfl, hf]
      rfl
    rw [hsens]
    exact h.sound j hj
  therm := by
    have hmod : (t.modTherm f).therm = f t.therm := rfl
    rw [hmod, hf, h.therm]
  sys := h.sys
  frame := h.frame.trans ((State.modTherm_frame ..).mono (by decide))

include hrd in
theorem crossCheck (h : Sensed rd s t) (hdev : ∀ i, i < 288 → (t.sensor i).devcnt < 2) : Sensed rd s t.crossCheck := by
  unfold State.crossCheck
  refine .each _ (fun u hu i => ?_) h
  by_cases hbroken : (t.sensor i).broken = true
  · rw [if_pos hbroken]
    exact hu.modSensor hrd i fun x _ hi => absurd hbroken (by simp [(h.sound i hi).1])
  · rw [if_neg hbroken]
    have hset := hu.modSensor hrd i (f := fun x => { x with
        dev := deviates t i, devcnt := if deviates t i then (t.sensor i).devcnt + 1 else 0
        broken := (if deviates t i then (t.sensor i).devcnt + 1 else 0) == 3 }) fun x _ hi => by
      have := hdev i hi
      refine ⟨?_, rfl⟩
      rw [beq_eq_false_iff_ne]
      split <;> omega
    exact .ite ((hset.count ..).event ..) hset

theorem substitutes (h : Sensed rd s t) (old : State) : Sensed rd s (State.substitutes old t) := by
  have hnone : ((List.range 288).filter fun i => (t.sensor i).broken) = [] :=
    List.filter_eq_nil_iff.2 fun i hi => by simp [(h.sound i (List.mem_range.1 hi)).1]
  rw [State.substitutes, hnone, State.each_nil]
  exact ⟨h.sound, h.therm, by rw [show t.nextFree.sys = { t.sys with free := t.sys.free + 1 } from rfl, h.sys],
    h.frame.trans ((t.modSys_frame fun y => { y with free := y.free + 1 } : Frame _ t t.nextFree).mono (by decide))⟩

theorem converters (h : Sensed rd s t) (n : Nat) (spare : List (BitVec 16)) : Sensed rd s (t.converters n spare) := by
  unfold State.converters
  extract_lets b off bad s1
  have h1 : Sensed rd s s1 := h.modConverters _ rfl
  refine .ite h ?_
  split
  · next a _ => exact (h1.modConverters (fun x => { x with adcFail := BitVec.ofNat 5 (2 ^ a + 16) }) rfl).event ..
  · exact h1

include hrd in
theorem rateOfRise (h : Sensed rd s t) : Sensed rd s t.rateOfRise := by
  unfold State.rateOfRise
  refine .each _ (fun u hu i => ?_) h
  extract_lets x r fire s1
  have h1 : Sensed rd s s1 := hu.modSensor hrd i fun x hx hi => ⟨by rw [hx]; exact (hu.sound i hi).1, rfl⟩
  exact .ite (hu.modSensor hrd i fun x hx hi => ⟨by rw [hx]; exact (hu.sound i hi).1, rfl⟩) (.ite ((h1.stat ..).event ..) h1)

include hrd in
theorem monitors (h : Sensed rd s t) : Sensed rd s t.monitors := by
  unfold State.monitors
  refine .each _ (fun u hu v => ?_) h
  extract_lets i x r w low high next lo hi s1 s2
  have h1 : Sensed rd s s1 := hu.modSensor hrd i fun _ _ hlt => absurd hlt (by omega)
  have h2 : Sensed rd s s2 := .ite (h1.event ..) h1
  exact .ite (h2.event ..) h2

end State.Sensed

end Sys2Proof.Machine
end

section
/-! ### The levels of a sound round (R543, R545, R564 to R586) -/

namespace Sys2Proof.Machine

variable {s t u : State} {p : Nat} {rd : Nat → BitVec 16}

/-- What an evaluation that shuts nothing down may touch. -/
abbrev roundParts : List Part := [.sys, .therm, .ctl, .mbx, .evt, .fab, .slices, .stk, .det, .ring]

/-- What the levels may touch. -/
abbrev levelParts : List Part := [.therm, .ctl, .mbx, .evt, .fab, .slices, .det]

theorem nextLevel_ne_three {c : Cfg} {old : Nat} {r : Int} (hold : old < 3) (hr : r < 16 * (fld c.therm0 16 8 : Nat)) :
    nextLevel c old r ≠ 3 := by
  unfold nextLevel
  dsimp only
  rw [if_neg (by simp only [Bool.or_eq_true, decide_eq_true_eq]; omega)]
  split
  · decide
  · split <;> decide

/-- The level that the reading of slice `p` gives it (R564). -/
def State.newLevel (s : State) (p : Nat) : Nat := nextLevel s.cfg (s.slice p).level (s.sensorNow p).toInt

/-- Slice `p` takes its level and its reading, with a record where the level changes (R564, R565). -/
def State.setLevel (s t : State) (p : Nat) : State :=
  let t1 := t.modSlice p fun x => { x with level := s.newLevel p, temp := s.sensorNow p }
  if s.newLevel p = (s.slice p).level then t1 else t1.event .thermLevel p (thermDetail p (s.newLevel p) (s.reading p))

theorem State.setLevel_island (hwf : Tab.wf Slice.reset t.slices = true) :
    State.Island p { t.slice p with level := s.newLevel p, temp := s.sensorNow p } t (s.setLevel t p) ∧
      Frame [.slices, .evt, .mbx] t (s.setLevel t p) := by
  have hset := (State.Alone.refl hwf p).modSlice fun x => { x with level := s.newLevel p, temp := s.sensorNow p }
  unfold State.setLevel
  dsimp only
  split
  · exact ⟨hset.island, hset.frame.mono (by decide)⟩
  · exact ⟨hset.island.framed (State.event_frame ..), (hset.frame.mono (by decide)).trans ((State.event_frame ..).mono (by decide))⟩

/-- Every slice has its level and its reading. -/
theorem State.each_setLevel (hwf : Tab.wf Slice.reset t.slices = true) :
    Tab.wf Slice.reset (t.each (List.range 144) s.setLevel).slices = true ∧
    Frame [.slices, .evt, .mbx] t (t.each (List.range 144) s.setLevel) ∧
    ∀ p, p < 144 → ((t.each (List.range 144) s.setLevel).slice p).level = s.newLevel p ∧
      ((t.each (List.range 144) s.setLevel).slice p).temp = s.sensorNow p := by
  have hall := State.each_induct (P := fun v => Tab.wf Slice.reset v.slices = true ∧ Frame [.slices, .evt, .mbx] t v)
    (fun v q hv => ⟨(State.setLevel_island hv.1).1.wf, hv.2.trans (State.setLevel_island (s := s) (p := q) hv.1).2⟩)
    (List.range 144) ⟨hwf, .refl ..⟩
  refine ⟨hall.1, hall.2, fun p hp => ?_⟩
  have hreach := State.each_reaches (f := s.setLevel) (a := p) (P := fun v => Tab.wf Slice.reset v.slices = true)
    (Q := fun v => Tab.wf Slice.reset v.slices = true ∧ (v.slice p).level = s.newLevel p ∧ (v.slice p).temp = s.sensorNow p)
    (fun v q hv => (State.setLevel_island hv).1.wf) (fun v q ⟨hv, hlevel, htemp⟩ => ?_) (fun v hv => ?_) (List.mem_range.2 hp) hwf
  · exact hreach.2
  · have hq := (State.setLevel_island (s := s) (p := q) hv).1
    refine ⟨hq.wf, ?_⟩
    by_cases hpq : p = q
    · subst hpq
      rw [hq.here]
      exact ⟨rfl, rfl⟩
    · rw [hq.there p hpq]
      exact ⟨hlevel, htemp⟩
  · have hp := (State.setLevel_island (s := s) (p := p) hv).1
    refine ⟨hp.wf, ?_⟩
    rw [hp.here]
    exact ⟨rfl, rfl⟩

/-- Of the round and the latch nothing has changed. -/
def Therm.SameRound (h h' : Therm) : Prop :=
  h'.roundOpen = h.roundOpen ∧ h'.round = h.round ∧ h'.roundLtc = h.roundLtc ∧ h'.latch = h.latch

/-- Between `s` and `t` the round and the latch have stayed, and the slices and sensors. -/
structure State.Throttles (s t : State) : Prop where
  round : s.therm.SameRound t.therm
  sens : t.therm.sens = s.therm.sens
  frame : Frame [.therm, .ctl, .mbx, .evt, .fab, .det] s t

namespace State.Throttles

theorem refl (s : State) : Throttles s s := ⟨⟨rfl, rfl, rfl, rfl⟩, rfl, .refl ..⟩

theorem trans (h1 : Throttles s t) (h2 : Throttles t u) : Throttles s u := by
  obtain ⟨⟨a1, b1, c1, d1⟩, e1, f1⟩ := h1
  obtain ⟨⟨a2, b2, c2, d2⟩, e2, f2⟩ := h2
  exact ⟨⟨a2.trans a1, b2.trans b1, c2.trans c1, d2.trans d1⟩, e2.trans e1, f1.trans f2⟩

theorem ite {c : Prop} [Decidable c] (h1 : Throttles s t) (h2 : Throttles s u) : Throttles s (if c then t else u) := by
  split
  · exact h1
  · exact h2

theorem modTherm (s : State) {f : Therm → Therm} (hf : s.therm.SameRound (f s.therm) ∧ (f s.therm).sens = s.therm.sens) :
    Throttles s (s.modTherm f) := ⟨hf.1, hf.2, (s.modTherm_frame f).mono (by decide)⟩

theorem of_frame {ps : List Part} (h : Frame ps s t) (hps : ∀ p ∈ ps, p ∈ [.ctl, .mbx, .evt, .fab, .det] := by decide) :
    Throttles s t := by
  have htherm : t.therm = s.therm := (h.mono hps).2 .therm (by decide)
  refine ⟨?_, by rw [htherm], (h.mono hps).mono (by decide)⟩
  rw [htherm]
  exact ⟨rfl, rfl, rfl, rfl⟩

theorem enforceTo (s : State) (on : Bool) : Throttles s (s.enforceTo on) := by
  have hframe : Frame [.therm, .ctl, .mbx, .evt, .fab, .det] s (s.enforceTo on) :=
    ((s.enforced_frame on).mono (by decide)).trans ((State.event_frame ..).mono (by decide))
  refine ⟨?_, ?_, hframe⟩
  · rw [State.enforceTo_eq, State.event_therm, State.enforced_therm]
    exact ⟨rfl, rfl, rfl, rfl⟩
  · rw [State.enforceTo_eq, State.event_therm, State.enforced_therm]

theorem takeFraction (s : State) : Throttles s s.takeFraction := by
  unfold State.takeFraction
  have hset (t : State) : Throttles t (t.modTherm fun h => { h with thrFrac := BitVec.ofNat 8 (fld s.cfg.therm0 24 8) }) :=
    modTherm t ⟨⟨rfl, rfl, rfl, rfl⟩, rfl⟩
  exact .ite (refl s) (trans (.ite (of_frame s.settleAll_frame) (refl s)) (hset _))

theorem throttle (s : State) : Throttles s s.throttle := by
  unfold State.throttle
  extract_lets req s1
  have h1 : Throttles s s1 := modTherm s ⟨⟨rfl, rfl, rfl, rfl⟩, rfl⟩
  have hon : Throttles s (s.modTherm fun t => { t with thrReq := true, graceStart := some s.sys.ltc, graceLate := false }) :=
    modTherm s ⟨⟨rfl, rfl, rfl, rfl⟩, rfl⟩
  refine .ite (hon.trans (of_frame (State.count_frame ..))) (.ite (.ite (h1.trans (enforceTo ..)) h1) ?_)
  split
  · exact .ite (enforceTo ..) (refl s)
  · exact refl s

end State.Throttles

/-- Where no sensor has broken and no slice reaches SHUTDOWN, the slices take their levels, and nothing shuts down. -/
theorem State.levels_eq (hsound : (s.sensor 0).broken = false) (hcool : ∀ p, p < 144 → s.newLevel p ≠ 3) :
    ∃ top, s.levels = ((s.each (List.range 144) s.setLevel).modTherm fun t => { t with hotSlice := top }).throttle := by
  have hnone : ((List.range 144).all fun p => (s.sensor p).broken) = false :=
    List.all_eq_false.2 ⟨0, List.mem_range.2 (by decide), by simp [hsound]⟩
  have hhot : ((List.range 144).filter fun p => nextLevel s.cfg (s.slice p).level (s.sensorNow p).toInt == 3) = [] :=
    List.filter_eq_nil_iff.2 fun p hp => by simpa [State.newLevel] using hcool p (List.mem_range.1 hp)
  refine ⟨(least (fun a b => decide ((s.sensorNow b).toInt < (s.sensorNow a).toInt)) (List.range 144)).getD 0, ?_⟩
  unfold State.levels
  simp only [hnone, hhot, List.isEmpty_nil, Bool.not_true, Bool.or_self, Bool.and_false, Bool.false_eq_true, if_false, Bool.false_or,
    decide_eq_true_eq]
  rfl


/-- What the levels of a sound round leave. -/
theorem State.levels_sound (hwf : Tab.wf Slice.reset s.slices = true) (hsound : (s.sensor 0).broken = false)
    (hcool : ∀ p, p < 144 → s.newLevel p ≠ 3) :
    s.therm.SameRound s.levels.therm ∧ Frame levelParts s s.levels ∧ Tab.wf Slice.reset s.levels.slices = true ∧
      ∀ p, p < 144 → (s.levels.slice p).level = s.newLevel p ∧ (s.levels.slice p).temp = s.sensorNow p := by
  obtain ⟨top, heq⟩ := State.levels_eq hsound hcool
  obtain ⟨hwf', hframe, hlevel⟩ := State.each_setLevel (s := s) hwf
  have hhot : State.Throttles _ ((s.each (List.range 144) s.setLevel).modTherm fun t => { t with hotSlice := top }) :=
    .modTherm _ ⟨⟨rfl, rfl, rfl, rfl⟩, rfl⟩
  have hthr := hhot.trans (.throttle _)
  rw [← heq] at hthr
  have hslices : s.levels.slices = _ := hthr.frame.2 .slices (by decide)
  have htherm : (s.each (List.range 144) s.setLevel).therm = s.therm := hframe.2 .therm (by decide)
  refine ⟨htherm ▸ hthr.round, (hframe.mono (by decide)).trans (hthr.frame.mono (by decide)), hslices ▸ hwf', fun p hp => ?_⟩
  rw [State.slice_congr hslices]
  exact hlevel p hp

/-! #### The evaluation -/

/-- The readings of a round are there, and it is closed (R543). -/
def State.roundRead (s : State) : State :=
  (s.modTherm fun t => { t with roundOpen := false, round := (s.therm.roundNo - 1) % 2 ^ 32, roundLtc := s.sys.ltc }).icqPass 8 0

/-- The sensors have been read and tested. -/
def State.roundSensed (s : State) (readings spare : List (BitVec 16)) : State :=
  (((State.substitutes s (s.roundRead.storeReadings readings).crossCheck).converters (s.therm.roundNo - 1) spare).rateOfRise).monitors

/-- The repair settings and the refresh bands have been taken. -/
def State.roundSettled (s : State) (readings spare : List (BitVec 16)) : State :=
  (s.roundSensed readings spare).takeRepair.each (List.range 144) fun s p => s.reband p (s.sensorNow p) (s.sensor p).broken

/-- The evaluation but for a warm reset that it may end with. -/
def State.roundDone (s : State) (readings spare : List (BitVec 16)) : State :=
  ((s.roundSettled readings spare).takeFraction.levels.each (List.range 144) fun s p =>
    (if s.therm.latch then s else s.evalLanes p).evalCal p).evalPower

theorem exec_hkEvaluation {readings spare : List (BitVec 16)} (hpor : s.sys.porN = true) (hopen : s.therm.roundOpen = true)
    (hdue : s.therm.roundStart + 384000 ≤ s.sys.ltc) (hrst : (s.roundSettled readings spare).sys.rstEnd = false) :
    exec (.hkEvaluation readings spare) s = .next (s.roundDone readings spare).rstAfter := by
  change execHkEvaluation readings spare s = _
  have hlt : ¬ s.sys.ltc < s.therm.roundStart + readingsAt := Nat.not_lt.2 hdue
  unfold State.roundDone
  unfold State.roundSettled State.roundSensed State.roundRead at hrst ⊢
  simp only [execHkEvaluation, hpor, hopen, hlt, hrst, Bool.not_true, decide_false, Bool.or_self, Bool.false_eq_true, if_false]

end Sys2Proof.Machine
end

section
/-! ### The evaluation of a sound round (R543, R545, R564) -/

namespace Sys2Proof.Machine

variable {s t u : State} {readings spare : List (BitVec 16)}

theorem State.roundRead_frame (s : State) : Frame [.therm, .ctl] s s.roundRead :=
  ((s.modTherm_frame _).mono (by decide)).trans ((State.icqPass_frame ..).mono (by decide))

/-- A reading in the range of R549 is not the one that reset leaves. -/
theorem ne_reset_of_range {v : BitVec 16} (h : -640 ≤ v.toInt) : v ≠ 0x8000 := fun heq => by
  rw [heq] at h
  exact absurd h (by decide)

/-- Sound sensors with readings in their range are sound after the tests of the round. -/
theorem State.roundSensed_sound
    (hgood : ∀ i, i < 288 → (s.sensor i).broken = false ∧ (s.sensor i).devcnt < 2 ∧ -640 ≤ (readings.getD i 0x8000).toInt) :
    State.Sensed (readings.getD · 0x8000) s.roundRead (s.roundSensed readings spare) := by
  have hrd : ∀ i, i < 288 → readings.getD i 0x8000 ≠ 0x8000 := fun i hi => ne_reset_of_range (hgood i hi).2.2
  have hstored := State.sensed_storeReadings (s := s.roundRead) hrd fun i hi => (hgood i hi).1
  have hchecked := hstored.crossCheck hrd fun i hi => by
    rw [State.sensor_storeReadings hi (hrd i hi)]
    exact (hgood i hi).2.1
  have hsub := hchecked.substitutes s
  unfold State.roundSensed
  generalize State.substitutes s (s.roundRead.storeReadings readings).crossCheck = t at hsub ⊢
  exact ((hsub.converters _ spare).rateOfRise hrd).monitors hrd

/-- What sensors that have been tested, and settings that have been taken, leave of the state at the start. -/
theorem State.Sensed.settled {rd : Nat → BitVec 16} {r : State} (hread : Frame [.therm, .ctl] s r) (hsensed : State.Sensed rd r t)
    (hsame : State.SameHeat t u) : u.Sound rd ∧ Frame roundParts s u ∧ u.sys = { s.sys with free := u.sys.free } ∧
      r.therm.SameRound u.therm ∧ t.slices = s.slices := by
  have htherm : u.therm = t.therm := hsame.frame.2 .therm (by decide)
  have hsys : r.sys = s.sys := hread.2 .sys (by decide)
  refine ⟨fun i hi => ?_, ?_, ?_, ?_, (hsensed.frame.2 .slices (by decide)).trans (hread.2 .slices (by decide))⟩
  · rw [State.sensor, htherm]
    exact hsensed.sound i hi
  · exact (hread.mono (by decide)).trans ((hsensed.frame.mono (by decide)).trans (hsame.frame.mono (by decide)))
  · rw [hsame.sys, hsensed.sys, hsys]
  · rw [htherm, hsensed.therm]
    exact ⟨rfl, rfl, rfl, rfl⟩

theorem State.roundSettled_same (s : State) (readings spare : List (BitVec 16)) :
    State.SameHeat (s.roundSensed readings spare) (s.roundSettled readings spare) :=
  (State.SameHeat.takeRepair _).trans (.each (fun s p => .reband s p _ _) _ _)

theorem State.rstAfter_stays (h : s.sys.rstDue = false ∨ s.mc ≠ none) : s.rstAfter = s := by
  refine if_pos ?_
  rcases h with h | h
  · simp [h]
  · simp [Option.isSome_iff_ne_none.2 h]

/-- What the levels of a sound round leave, after the settings of the round. -/
theorem State.levels_settled {rd : Nat → BitVec 16} (hwf : Tab.wf Slice.reset t.slices = true) (hsound : t.Sound rd) (hcfg : t.cfg = s.cfg)
    (hlevel : ∀ p, (t.slice p).level = (s.slice p).level)
    (hcool : ∀ p, p < 144 → (rd p).toInt < 16 * (fld s.cfg.therm0 16 8 : Nat) ∧ (s.slice p).level < 3) :
    t.therm.SameRound t.takeFraction.levels.therm ∧ Frame levelParts t t.takeFraction.levels ∧
      Tab.wf Slice.reset t.takeFraction.levels.slices = true ∧
      ∀ p, p < 144 → (t.takeFraction.levels.slice p).level = nextLevel s.cfg (s.slice p).level (rd p).toInt ∧
        (t.takeFraction.levels.slice p).temp = rd p := by
  have hfrac := State.Throttles.takeFraction t
  have hslices : t.takeFraction.slices = t.slices := hfrac.frame.2 .slices (by decide)
  have hcfg' : t.takeFraction.cfg = s.cfg := (hfrac.frame.2 .cfg (by decide)).trans hcfg
  have hsensor (i : Nat) : t.takeFraction.sensor i = t.sensor i := congrArg (Tab.get Sensor.reset · i) hfrac.sens
  have hnow (p : Nat) (hp : p < 144) : t.takeFraction.sensorNow p = rd p := by
    obtain ⟨hbroken, hvalue⟩ := hsound p (by omega)
    change (if (t.takeFraction.sensor p).broken then (t.takeFraction.sensor p).sub else (t.takeFraction.sensor p).value) = _
    rw [hsensor, hbroken]
    exact hvalue
  have hnew (p : Nat) (hp : p < 144) : t.takeFraction.newLevel p = nextLevel s.cfg (s.slice p).level (rd p).toInt := by
    rw [State.newLevel, hcfg', hnow p hp, State.slice_congr hslices, hlevel]
  obtain ⟨hround, hframe, hwf', hlevels⟩ := State.levels_sound (s := t.takeFraction) (hslices ▸ hwf)
    (by rw [hsensor]; exact (hsound 0 (by decide)).1) fun p hp => by
      rw [hnew p hp]
      exact nextLevel_ne_three (hcool p hp).2 (hcool p hp).1
  obtain ⟨a1, b1, c1, d1⟩ := hfrac.round
  obtain ⟨a2, b2, c2, d2⟩ := hround
  refine ⟨⟨a2.trans a1, b2.trans b1, c2.trans c1, d2.trans d1⟩, (hfrac.frame.mono (by decide)).trans hframe, hwf', fun p hp => ?_⟩
  rw [← hnew p hp, ← hnow p hp]
  exact hlevels p hp

/-- Settles O39: the sensors of the round stay sound, so that the slices take their levels from their own readings, and what the
evaluation does besides leaves level and reading alone. -/
theorem levelsEvaluated : Obligations.LevelsEvaluated := by
  unfold Obligations.LevelsEvaluated
  intro readings spare s ⟨_, _, hwf, _⟩ hpor hopen
  refine ⟨fun hearly => ?_, fun hdue hrst hlatch hreset hgood hcool => ?_⟩
  · change execHkEvaluation readings spare s = _
    have hlt : s.sys.ltc < s.therm.roundStart + readingsAt := hearly
    simp only [execHkEvaluation, hpor, hopen, hlt, Bool.not_true, decide_true, Bool.or_true, if_true]
  · have hsame := s.roundSettled_same readings spare
    obtain ⟨hsound, hframe, hsys, hround, hslices⟩ := (State.roundSensed_sound (spare := spare) hgood).settled s.roundRead_frame hsame
    have hexec := exec_hkEvaluation (spare := spare) hpor hopen hdue (by rw [hsys]; exact hrst)
    have hrest : State.SameHeat (s.roundSettled readings spare).takeFraction.levels (s.roundDone readings spare) :=
      (State.SameHeat.each (fun s p => (State.SameHeat.ite (.refl s) (.evalLanes s p)).trans (.evalCal ..)) _ _).trans (.evalPower _)
    obtain ⟨hwf5, hheat5⟩ := hsame.slices (hslices ▸ hwf)
    have hheat5 (p : Nat) : ((s.roundSettled readings spare).slice p).level = (s.slice p).level := by
      rw [(hheat5 p).1, State.slice_congr hslices]
    generalize s.roundDone readings spare = t at hexec hrest
    clear hsame
    generalize s.roundSettled readings spare = v at *
    obtain ⟨hround6, hframe6, hwf6, hlevels⟩ := State.levels_settled hwf5 hsound (hframe.2 .cfg (by decide)) hheat5 hcool
    obtain ⟨-, hheat7⟩ := hrest.slices hwf6
    have hlast : Frame roundParts s t := hframe.trans ((hframe6.mono (by decide)).trans (hrest.frame.mono (by decide)))
    have hdue' : t.sys.rstDue = s.sys.rstDue := by
      have hsys6 : v.takeFraction.levels.sys = v.sys := hframe6.2 .sys (by decide)
      rw [hrest.sys, hsys6, hsys]
    have hmc : t.mc = s.mc := hlast.2 .mc (by decide)
    have htherm : t.therm = v.takeFraction.levels.therm := hrest.frame.2 .therm (by decide)
    rw [State.rstAfter_stays (by rw [hdue', hmc]; exact hreset)] at hexec
    obtain ⟨hopen5, hnum5, htime5, hlatch5⟩ := hround
    obtain ⟨hopen6, hnum6, htime6, hlatch6⟩ := hround6
    rw [← htherm] at hopen6 hnum6 htime6 hlatch6
    refine ⟨t, hexec, hopen6.trans hopen5, hnum6.trans hnum5, htime6.trans htime5, hlatch6.trans (hlatch5.trans hlatch), fun p hp => ?_,
      hlast.2 .ports (by decide), hlast.2 .mem (by decide), hlast.2 .cfg (by decide)⟩
    exact ⟨(hheat7 p).1.trans (hlevels p hp).1, (hheat7 p).2.trans (hlevels p hp).2⟩

end Sys2Proof.Machine
end

section
/-! ### Power of the layers (R866 to R872) -/

namespace Sys2Proof.Machine

variable {s : State}

theorem State.sendLayerBudgets_frame (s : State) : Frame [.stk, .sys] s s.sendLayerBudgets :=
  ((s.modStk_frame _).mono (by decide)).trans ((State.modSys_frame _ fun y => { y with free := y.free + 1 }).mono (by decide))

theorem exec_fedBudgetTimer (hon : s.powerOn = true) (hfed : s.federated = true) :
    exec .fedBudgetTimer s = .next (if 1000 ≤ s.stk.fedCnt then s.sendLayerBudgets else s) := by
  change execFedBudgetTimer s = _
  simp only [execFedBudgetTimer, hon, hfed, Bool.true_and, decide_eq_true_eq]

theorem exec_powerReport (l : Fin 16) (power : BitVec 16) (st : BitVec 3) : exec (.powerReport l power st) s = .next (
    if !s.powerOn || (s.stk.layer l.val).fenced then s
    else s.modStk fun k => k.modLayer l.val fun x => { x with power := power.toNat, pstate := st.toNat, missed := 0, got := true }) := rfl

theorem exec_powerSetTimeout {l : Fin 16} {n t0 : Nat} (h : (s.stk.layer l.val).setTo = some (n, t0)) :
    exec (.powerSetTimeout l) s = .next (if s.sys.ltc < t0 + 40000 then s
      else s.modStk fun k => k.modLayer l.val fun x => { x with setTo := none }) := by
  change execPowerSetTimeout l s = _
  simp only [execPowerSetTimeout, h]
  rfl

/-- Settles O40: each command by the one test that it makes. -/
theorem layerPower : Obligations.LayerPower := by
  unfold Obligations.LayerPower
  intro s
  refine ⟨fun hon hfed => ?_, fun l power st => ?_, fun l n t0 hset => ⟨?_, ?_⟩⟩
  · have hexec := exec_fedBudgetTimer hon hfed
    exact ⟨fun h => hexec.trans (congrArg _ (if_neg (Nat.not_le.2 h))),
      fun h => ⟨_, hexec.trans (congrArg _ (if_pos h)), rfl, s.sendLayerBudgets_frame⟩⟩
  · refine ⟨fun h => (exec_powerReport l power st).trans (congrArg _ (if_pos ?_)),
      fun hon hfenced => (exec_powerReport l power st).trans (congrArg _ (if_neg ?_))⟩
    · rcases h with h | h <;> simp [h]
    · simp [hon, hfenced]
  · change execPowerSetAck l s = _
    simp only [execPowerSetAck, hset]
  · have hexec := exec_powerSetTimeout hset
    exact ⟨fun h => hexec.trans (congrArg _ (if_pos h)), fun h => hexec.trans (congrArg _ (if_neg (Nat.not_lt.2 h)))⟩

end Sys2Proof.Machine
end

section
/-! ### Stored trims (R637, R639) -/

namespace Sys2Proof.Machine

variable {l l' m m' : Link} {b r : Nat}

/-- The trim of a bond at one temperature point, filled from the nearest measured one. -/
def Link.fillTrim (m : Link) (b r : Nat) (l : Link) (j : Nat) : Link :=
  if trimMeas (l.trimAt b r j) then l
  else match m.nearestMeas b r j with
    | some i => { l with trim := Tab.set 0 l.trim (trimKey b r j) (m.trimAt b r i &&& 0x7FFFFFFF) }
    | none => l

/-- It looks at the trims of the bundle alone, and changes nothing else of it. -/
theorem Link.fillTrim_spec (hm : m'.trim = m.trim) (hl : l'.trim = l.trim) (j : Nat) :
    (m'.fillTrim b r l' j).trim = (m.fillTrim b r l j).trim ∧ m.fillTrim b r l j = { l with trim := (m.fillTrim b r l j).trim } := by
  have hat (i : Nat) : m'.trimAt b r i = m.trimAt b r i := by rw [Link.trimAt, hm, Link.trimAt]
  have hnear : m'.nearestMeas b r j = m.nearestMeas b r j := by simp only [Link.nearestMeas, hat]
  have hfill : l'.trimAt b r j = l.trimAt b r j := by rw [Link.trimAt, hl, Link.trimAt]
  unfold Link.fillTrim
  rw [hfill, hnear, hl]
  by_cases hmeas : trimMeas (l.trimAt b r j) = true
  · rw [if_pos hmeas, if_pos hmeas]
    exact ⟨hl, rfl⟩
  · rw [if_neg hmeas, if_neg hmeas]
    split
    · next i _ =>
      rw [hat]
      exact ⟨rfl, rfl⟩
    · exact ⟨hl, rfl⟩

theorem Link.foldl_fillTrim (hm : m'.trim = m.trim) (hl : l'.trim = l.trim) (js : List Nat) :
    (js.foldl (m'.fillTrim b r) l').trim = (js.foldl (m.fillTrim b r) l).trim ∧
      js.foldl (m.fillTrim b r) l = { l with trim := (js.foldl (m.fillTrim b r) l).trim } := by
  induction js generalizing l l' with
  | nil => exact ⟨hl, rfl⟩
  | cons j js ih =>
    obtain ⟨htrim, heq⟩ := Link.fillTrim_spec (b := b) (r := r) hm hl j
    obtain ⟨htrims, heqs⟩ := ih htrim
    exact ⟨htrims, heqs.trans (congrArg (fun x : Link =>
      { x with trim := (js.foldl (m.fillTrim b r) (m.fillTrim b r l j)).trim }) heq)⟩

/-- A measured trim is stored by the bundle's trims alone, and changes nothing else of it. -/
theorem Link.storeTrim_spec (hl : l'.trim = l.trim) (tc : Int) (w : BitVec 32) :
    (l'.storeTrim b r tc w).trim = (l.storeTrim b r tc w).trim ∧
      l.storeTrim b r tc w = { l with trim := (l.storeTrim b r tc w).trim } := by
  have hset : Tab.set 0 l'.trim (trimKey b r (nearestPoint tc)) (measWord w) = Tab.set 0 l.trim (trimKey b r (nearestPoint tc)) (measWord w) := by
    rw [hl]
  exact Link.foldl_fillTrim (l' := { l' with trim := Tab.set 0 l'.trim (trimKey b r (nearestPoint tc)) (measWord w) })
    (l := { l with trim := Tab.set 0 l.trim (trimKey b r (nearestPoint tc)) (measWord w) })
    (m' := { l' with trim := Tab.set 0 l'.trim (trimKey b r (nearestPoint tc)) (measWord w) })
    (m := { l with trim := Tab.set 0 l.trim (trimKey b r (nearestPoint tc)) (measWord w) }) hset hset (List.range 5)

end Sys2Proof.Machine
end

section
/-! ### Rolling calibration (R597 to R604, R641 to R649) -/

namespace Sys2Proof.Machine

variable {s t : State} {p : Nat} {x : Slice}

theorem endPending_frame (s : State) (op : Nat) (err : BitVec 8) : Frame [.evt, .mbx] s (s.endPending op err) := by
  unfold State.endPending
  split
  · exact ((State.modMbx_frame ..).mono (by decide)).trans ((State.event_frame ..).mono (by decide))
  · exact .refl ..

theorem calRunDrop_frame (s : State) (p : Nat) : Frame [.evt, .mbx] s (s.calRunDrop p) := by
  unfold State.calRunDrop
  extract_lets s1
  have h1 : Frame [.evt, .mbx] s s1 := (State.modMbx_frame ..).mono (by decide)
  split
  · exact h1.trans (endPending_frame ..)
  · exact h1

theorem State.tcOf_congr (h : t.therm = s.therm) (p : Nat) : t.tcOf p = s.tcOf p := by
  unfold State.tcOf State.sensorNow
  rw [h]

namespace State.Alone

theorem sideTake (h : Alone p x s t) :
    Alone p { x with
      link := { x.link with frame := 0 }
      sch := { x.sch with rowTaken := true, sideAt := if (t.slice p).link.mirrorWaits then some x.sch.cclk else none } } s
      (t.sideTake p) :=
  (h.modLink fun l => { l with frame := 0 }).modSch fun x =>
    { x with rowTaken := true, sideAt := if (t.slice p).link.mirrorWaits then some x.cclk else none }

end State.Alone

/-- Island `p` once an ETRIM or CALP has its row slot, where the island runs. -/
def State.sideTaken (s : State) (p : Nat) : State := if s.islandRuns p then s.sideTake p else s

theorem State.alone_sideTaken (hwf : Tab.wf Slice.reset s.slices = true) (p : Nat) :
    ∃ x, State.Alone p x s (s.sideTaken p) ∧ x.link.trim = (s.slice p).link.trim ∧ x.link.calCnt = (s.slice p).link.calCnt := by
  unfold State.sideTaken
  split
  · exact ⟨_, (State.Alone.refl hwf p).sideTake, rfl, rfl⟩
  · exact ⟨_, .refl hwf p, rfl, rfl⟩

/-- The pass of bundle `p` is over at rate point `rate`. -/
def State.calOver (s : State) (p kind rate : Nat) : State :=
  (s.calDone p kind).modLink p fun l => { l with calAct := false, calCmd := false, derived := l.isDerived rate }

theorem State.alone_calOver (h : State.Alone p x s t) (b kind : Nat) (w : BitVec 32) :
    ∃ y, State.Alone p y s ((t.useTrim p b w).calOver p kind s.sys.rate) ∧
      y.link.calAct = false ∧ y.link.calPos = 0 ∧ y.link.calDue = false ∧ y.link.tlast = s.tcOf p ∧
      y.link.calLtc = s.sys.ltc ∧ y.link.calCnt = min (x.link.calCnt + 1) (2 ^ 32 - 1) ∧
      y.link.trim = (x.link.storeTrim b s.sys.rate (s.tcOf p).toInt w).trim := by
  have hsys : t.sys = s.sys := h.frame.2 .sys (by decide)
  have htherm : t.therm = s.therm := h.frame.2 .therm (by decide)
  have huse := h.modLink fun l =>
    { l.storeTrim b t.sys.rate (t.tcOf p).toInt w with
      inuse := Tab.set 0 l.inuse b (measWord w), finger := t.therm.zqCode
      halves := fld (Config.freeWord (l.halves + 65536 * t.sys.ltc) (65536 + 256 * p + b)) 0 16 }
  change State.Alone p _ s (t.useTrim p b w) at huse
  have hsys' : (t.useTrim p b w).sys = s.sys := hsys
  have htherm' : (t.useTrim p b w).therm = s.therm := htherm
  rw [hsys, State.tcOf_congr htherm] at huse
  generalize t.useTrim p b w = u at huse hsys' htherm'
  have hdone := (huse.modLink fun l =>
    { l with tlast := u.tcOf p, trained := true, calDue := false, calPos := 0, calHold := false,
             calCnt := min (l.calCnt + 1) (2 ^ 32 - 1), calLtc := u.sys.ltc,
             calTemp := BitVec.ofNat 32 ((u.tcOf p).toNat + kind * 2 ^ 16 + u.sys.rate * 2 ^ 18) }).modLink fun l =>
    { l with calAct := false, calCmd := false, derived := l.isDerived s.sys.rate }
  change State.Alone p _ s (u.calOver p kind s.sys.rate) at hdone
  refine ⟨_, hdone, rfl, rfl, rfl, State.tcOf_congr htherm' p, congrArg Sys.ltc hsys', ?_, rfl⟩
  have hcnt := congrArg Link.calCnt (Link.storeTrim_spec (b := b) (r := s.sys.rate) (rfl : x.link.trim = x.link.trim) (s.tcOf p).toInt w).2
  exact congrArg (fun n => min (n + 1) (2 ^ 32 - 1)) hcnt

section
variable {p : Fin 144} {w w2 : BitVec 32} {b : Nat}

theorem exec_calPassStart (hstop : s.calStopped = false) (hfind : (List.range 144).find? s.calWants = some p.val)
    (hpar : ((List.range 144).filter fun i => (s.slice i).link.calAct).length < s.calPar) :
    exec (.calPassStart p) s = .next ((s.detBreak 4).modLink p.val fun l =>
      { l with calAct := true, calList := if l.calPos = 0 then l.calBonds else l.calList }) := by
  change execCalPassStart p s = _
  simp only [execCalPassStart, hstop, hfind, Nat.not_le.mpr hpar, decide_false, Bool.or_self, ne_eq, not_true_eq_false,
    Bool.false_eq_true, if_false]

/-- A bond without a lane is calibrated in a row slot. -/
theorem exec_calLane (hstop : s.calStopped = false) (hact : (s.slice p.val).link.calAct = true)
    (hup : (s.slice p.val).link.up = true) (hb : (s.slice p.val).link.calList[(s.slice p.val).link.calPos]? = some b)
    (hlane : (s.slice p.val).link.laneOf b = none) :
    exec (.calLane p w w2) s =
      if s.islandRuns p.val && !s.sideSlot p.val then .next (s.sideWait p.val)
      else
        let s3 := if (s.slice p.val).link.good b then (s.sideTaken p.val).useTrim p.val b w else s.sideTaken p.val
        if (s.slice p.val).link.calPos + 1 < (s.slice p.val).link.calList.length then
          .next (s3.modLink p.val fun l => { l with calPos := l.calPos + 1 })
        else .next ((s3.calOver p.val (if (s3.slice p.val).link.calHold then 2 else 1) s.sys.rate).calRunDrop p.val) := by
  change execCalLane p w w2 s = _
  simp only [execCalLane, hstop, hact, hup, hb, hlane, Option.bind_none, Option.isSome_none, Option.isNone_none, Bool.false_and,
    Bool.not_true, Bool.not_false, Bool.and_true, Bool.or_self, Bool.false_eq_true, if_false, State.sideTaken, State.calOver]
  split_ifs <;> rfl

theorem exec_calLane_early (hlane : (s.slice p.val).link.laneOf b ≠ none)
    (hb : (s.slice p.val).link.calList[(s.slice p.val).link.calPos]? = some b)
    (hspare : ((s.slice p.val).link.laneOf b).bind (s.slice p.val).link.spareFor = none)
    (hearly : s.sys.ltc < (s.slice p.val).link.calNext) : exec (.calLane p w w2) s = .next s := by
  change execCalLane p w w2 s = _
  have hsome : ((s.slice p.val).link.laneOf b).isSome = true := Option.isSome_iff_ne_none.mpr hlane
  simp only [execCalLane, hb, hspare, hsome, hearly, Option.isNone_none, decide_true, Bool.and_self, if_true, ite_self]

end

section
variable {p : Fin 144} {m : Trims} {rest : List Trims}

theorem exec_lsteerSwitch (hrun : s.islandRuns p.val = true) (hswap : (s.slice p.val).link.swap = m :: rest) :
    exec (.lsteerSwitch p) s =
      if m.mirrored = false ∨ (s.slice p.val).sch.cclk < m.since + 8 then .next s
      else if s.sideSlot p.val = false then .next (s.sideWait p.val)
      else .next (((s.sideTake p.val).sendRow p.val 8 (m.lane * 2 ^ 4 + m.dst * 2 ^ 11 + 2 ^ 18)).modLink p.val fun l =>
        { l.steerTo m.lane m.dst with
          swap := rest, lanes := if m.perm then Tab.set Lane.reset l.lanes m.src Lane.reset else l.lanes }) := by
  change execLsteerSwitch p s = _
  simp only [execLsteerSwitch, hswap, hrun, Bool.not_true, Bool.false_or, Bool.or_eq_true, Bool.not_eq_true', decide_eq_true_eq]
  split_ifs <;> rfl

end

/-- Settles O41: a pass takes one bond after the other in the row slots it is left, and its last one leaves the bundle's
trims, time and temperature as measured. -/
theorem bundleCalibrated : Obligations.BundleCalibrated := by
  unfold Obligations.BundleCalibrated
  refine ⟨fun p s ⟨_, _, hwf, _⟩ hstop => ⟨fun hfind hpar => ?_, fun hfind => ?_, fun w w2 b hact hup hb => ?_⟩,
    fun p s m rest hrun hswap => ⟨fun hearly => ?_, fun hmirr hlate hslot => ?_, fun hmirr hlate hslot => ?_⟩⟩
  · have hbreak := s.detBreak_frame 4
    have hisland := ((State.Island.refl hwf p.val).framed hbreak).modSlice fun x => { x with link := { x.link with
      calAct := true, calList := if x.link.calPos = 0 then x.link.calBonds else x.link.calList } }
    exact ⟨_, exec_calPassStart hstop hfind hpar, hisland.here, hisland.there,
      (hbreak.mono (by decide)).trans ((State.modSlice_frame ..).mono (by decide))⟩
  · change execCalPassStart p s = _
    simp only [execCalPassStart, hfind, ne_eq, not_false_eq_true, decide_true, Bool.or_true, if_true]
  · have hexec (hlane : (s.slice p.val).link.laneOf b = none) :=
      exec_calLane (w := w) (w2 := w2) hstop hact hup hb hlane
    refine ⟨fun hlane hrun hslot => ?_, fun hlane hslot hmore => ?_, fun hlane hgood hslot hlast => ?_, fun hlane hspare hearly =>
      exec_calLane_early hlane hb hspare hearly⟩
    · rw [hexec hlane, hrun, hslot]
      rfl
    · have hgo : ¬ (s.islandRuns p.val && !s.sideSlot p.val) = true := by grind
      exact ((hexec hlane).trans (if_neg hgo)).trans (if_pos hmore)
    · have hgo : ¬ (s.islandRuns p.val && !s.sideSlot p.val) = true := by grind
      have hrest : ¬ (s.slice p.val).link.calPos + 1 < (s.slice p.val).link.calList.length := by omega
      have hover := ((hexec hlane).trans (if_neg hgo)).trans (if_neg hrest)
      rw [if_pos hgood] at hover
      generalize (if ((s.sideTaken p.val).useTrim p.val b w |>.slice p.val).link.calHold = true then 2 else 1) = kind at hover
      obtain ⟨x, hside, htrim, hcnt⟩ := State.alone_sideTaken hwf p.val
      obtain ⟨y, hcal, hact', hpos, hdue, htlast, hltc, hcnt', htrim'⟩ := State.alone_calOver hside b kind w
      have hdrop := calRunDrop_frame (((s.sideTaken p.val).useTrim p.val b w).calOver p.val kind s.sys.rate) p.val
      have hisland := hcal.island.framed hdrop
      have hhere := congrArg Slice.link hisland.here
      refine ⟨_, hover, ?_, ?_, ?_, ?_, ?_, ?_, ?_, hisland.there, (hcal.frame.mono (by decide)).trans (hdrop.mono (by decide))⟩
      · rw [hhere, hact']
      · rw [hhere, hpos]
      · rw [hhere, hdue]
      · rw [hhere, htlast]
      · rw [hhere, hltc]
      · rw [hhere, hcnt', hcnt]
      · rw [hhere, htrim']
        exact (Link.storeTrim_spec htrim ..).1
  · rw [exec_lsteerSwitch hrun hswap, if_pos hearly]
  · have hgo : ¬ (m.mirrored = false ∨ (s.slice p.val).sch.cclk < m.since + 8) := by simp [hmirr, hlate]
    rw [exec_lsteerSwitch hrun hswap, if_neg hgo, if_pos hslot]
  · have hgo : ¬ (m.mirrored = false ∨ (s.slice p.val).sch.cclk < m.since + 8) := by simp [hmirr, hlate]
    have htake : ¬ s.sideSlot p.val = false := by simp [hslot]
    exact ((exec_lsteerSwitch hrun hswap).trans (if_neg hgo)).trans (if_neg htake)

end Sys2Proof.Machine
end

section
/-! ### Holds that cross to a channel (R15, R80, R81) -/

namespace Sys2Proof.Machine

variable {s t u : State} {p q i : Nat} {w : CtlWord} {x : Slice} {read unread : Prop}

theorem State.detBreak_mode (s : State) (cause : Nat) : (s.detBreak cause).det.mode = s.det.mode := by
  unfold State.detBreak
  split
  · split
    · rfl
    · rw [State.event_det]
      rfl
  · rfl

/-- When a word is read depends on its queue, the time and the mode. -/
theorem State.icqSeen_of_mode (hicq : t.icq q i = s.icq q i) (hsys : t.sys = s.sys) (hmode : t.det.mode = s.det.mode) :
    t.icqSeen q i = s.icqSeen q i := by
  simp only [State.icqSeen, State.icqAt, State.crossTime, State.ahead, hicq, hsys, hmode]

/-- A word that passes its queue later in a command passes it as from the start. -/
theorem State.Tells.start (h : State.Tells s t q i w read unread) (hicq : s.icq q i = u.icq q i) (hsys : s.sys = u.sys)
    (hmode : s.det.mode = u.det.mode) (hwords : s.ctl.words = u.ctl.words) : State.Tells u t q i w read unread := by
  unfold State.Tells at h ⊢
  rw [State.icqSeen_of_mode hicq hsys hmode, hsys, hwords] at h
  exact h

theorem State.Tells.congr (h : State.Tells s t q i w read unread) (hwords : u.ctl.words = t.ctl.words) :
    State.Tells s u q i w read unread := by
  unfold State.Tells at h ⊢
  rw [hwords]
  exact h

/-- A word that holds a channel, or frees it, does so at once or is on its way. -/
theorem State.tell_held {g : Nat → Nat} (hwf : Tab.wf Slice.reset s.slices = true)
    (hw : ∀ u : State, u.noteWord w = u.modSch p fun y => { y with held := g y.held }) :
    ∃ n, State.Island p { s.slice p with sch := { (s.slice p).sch with held := n } } s (s.tell q i w) ∧
      Frame [.slices, .ctl] s (s.tell q i w) ∧ Told s (s.tell q i w) ∧
      s.Tells (s.tell q i w) q i w (n = g (s.slice p).sch.held) (n = (s.slice p).sch.held) := by
  have hpass := s.icqPass_frame q i
  have hisland : State.Island p (s.slice p) s (s.icqPass q i) := (State.Island.refl hwf p).framed hpass
  have htold := s.tell_told q i w
  by_cases h : s.icqSeen q i ≤ s.sys.ltc
  · have hall (a b c : Prop) (ha : a) (hb : b) : (if s.icqSeen q i ≤ s.sys.ltc then a ∧ b else c) := by
      rw [if_pos h]
      exact ⟨ha, hb⟩
    rw [State.tell_of_seen h, hw] at htold ⊢
    exact ⟨_, hisland.modSch fun y => { y with held := g y.held }, (hpass.mono (by decide)).trans ((State.modSlice_frame ..).mono (by decide)),
      htold, hall _ _ _ rfl rfl⟩
  · have hall (a b c : Prop) (hb : b) (hc : c) : (if s.icqSeen q i ≤ s.sys.ltc then a else b ∧ c) := by
      rw [if_neg h]
      exact ⟨hb, hc⟩
    rw [State.tell_of_unseen h] at htold ⊢
    exact ⟨_, hisland.framed (State.modCtl_frame ..), (hpass.mono (by decide)).trans ((State.modCtl_frame ..).mono (by decide)),
      htold, hall _ _ _ rfl rfl⟩

end Sys2Proof.Machine
end

section
/-! ### A full retrain starts (R600, R629 to R632, R644) -/

namespace Sys2Proof.Machine

variable {s t u : State} {p : Nat} {x : Slice} {cause : Nat}

/-- What ends a calibration that runs and marks the retrain, ahead of the hold. -/
def State.retrainMarked (s : State) (p cause : Nat) : State :=
  (((s.detBreak 4).calYield p).statSlice p 30 1).modLink p fun l => { l with state := .retrain, cause := cause }

theorem State.startRetrain_marked (hidle : (s.slice p).link.state ≠ .retrain) (hup : (s.slice p).link.up = true ∨ cause = 5) :
    s.startRetrain p cause = if cause = 5 then s.retrainMarked p cause else (s.retrainMarked p cause).holdChan p := by
  have hgo : ¬ ((s.slice p).link.state == .retrain || !((s.slice p).link.up || decide (cause = 5))) = true := by
    rcases hup with hup | hup <;> simp [hup, hidle]
  exact if_neg hgo

theorem State.startRetrain_of_retrain (h : (s.slice p).link.state = .retrain) (cause : Nat) : s.startRetrain p cause = s := by
  have hno : ((s.slice p).link.state == .retrain || !((s.slice p).link.up || decide (cause = 5))) = true := by simp [h]
  exact if_pos hno

theorem Link.idle_of_up {l : Link} (h : l.up = true) : l.state ≠ .retrain := fun hstate => by
  rw [Link.up, hstate] at h
  exact absurd h (by decide)

theorem State.Island.calYield (h : State.Island p x s t) :
    State.Island p { x with link := { x.link with calAct := false } } s (t.calYield p) := by
  unfold State.calYield
  rw [h.here]
  by_cases hact : x.link.calAct = true
  · rw [if_pos hact]
    exact (h.modSlice fun x => { x with link := { x.link with calAct := false } }).framed (State.count_frame ..)
  · rw [if_neg hact]
    have hoff : x.link.calAct = false := by simpa using hact
    have : x = { x with link := { x.link with calAct := false } } := by rw [← hoff]
    exact this ▸ h

theorem State.calYield_frame (s : State) (p : Nat) : Frame [.slices, .ctl, .evt, .mbx] s (s.calYield p) := by
  unfold State.calYield
  split
  · exact ((State.modSlice_frame ..).mono (by decide)).trans ((State.count_frame ..).mono (by decide))
  · exact .refl ..

theorem State.calYield_counted (s : State) (p : Nat) : Counted s (s.calYield p) := by
  unfold State.calYield
  split
  · exact (Counted.of_frame (State.modSlice_frame s p _) (by decide) (by decide)).trans (State.count_counted ..)
  · exact .refl s

/-- A retrain is marked on the bundle, and counted. -/
theorem State.Island.retrainMarked (h : State.Island p x s t) (cause : Nat) :
    State.Island p { x with link := { x.link with calAct := false, state := .retrain, cause := cause } } s (t.retrainMarked p cause) :=
  ((h.framed (State.detBreak_frame ..)).calYield.framed (State.count_frame ..)).modSlice fun x =>
    { x with link := { x.link with state := .retrain, cause := cause } }

theorem State.retrainMarked_frame (s : State) (p cause : Nat) :
    Frame [.slices, .det, .ctl, .evt, .mbx] s (s.retrainMarked p cause) :=
  ((s.detBreak_frame 4).mono (by decide)).trans (((State.calYield_frame ..).mono (by decide)).trans
    (((State.count_frame ..).mono (by decide)).trans ((State.modSlice_frame ..).mono (by decide))))

theorem State.retrainMarked_counted (s : State) (p cause : Nat) : Counted s (s.retrainMarked p cause) :=
  (s.detBreak_counted 4).trans ((State.calYield_counted ..).trans ((State.count_counted ..).trans
    (Counted.of_frame (State.modSlice_frame _ p _) (by decide) (by decide))))

theorem State.retrainMarked_mode (s : State) (p cause : Nat) : (s.retrainMarked p cause).det.mode = s.det.mode := by
  have hyield := (s.detBreak 4).calYield_frame p
  have hstat : Frame _ _ (((s.detBreak 4).calYield p).statSlice p 30 1) := State.count_frame ..
  have hmark : (s.retrainMarked p cause).det = (((s.detBreak 4).calYield p).statSlice p 30 1).det := rfl
  rw [hmark, hstat.2 .det (by decide), hyield.2 .det (by decide), s.detBreak_mode 4]

theorem State.icq_counted (h : Counted s t) (q i : Nat) : t.icq q i = s.icq q i := by
  rw [State.icq, h.1, State.icq]

/-- A retrain that holds its channel has started on island `p`, which stands as `x` otherwise. -/
theorem State.startRetrain_starts (h : State.Island p x s t) (hcounted : Counted s t)
    (hframe : Frame [.slices, .det, .ctl, .evt, .mbx] s t) (hmode : t.det.mode = s.det.mode) (hup : x.link.up = true)
    (hcause : cause ≠ 5) :
    ∃ n, State.Island p { x with
        link := { x.link with calAct := false, state := .retrain, cause := cause }
        sch := { x.sch with held := n } } s (t.startRetrain p cause) ∧
      CountedTold s (t.startRetrain p cause) ∧
      s.Tells (t.startRetrain p cause) 3 p (.hold p) (n = x.sch.held + 1) (n = x.sch.held) ∧
      Frame [.slices, .det, .ctl, .evt, .mbx] s (t.startRetrain p cause) := by
  have hup' : (t.slice p).link.up = true := by rw [h.here, hup]
  rw [State.startRetrain_marked (Link.idle_of_up hup') (.inl hup'), if_neg hcause, State.holdChan]
  have hmarked := h.retrainMarked cause
  have hall := hcounted.trans (t.retrainMarked_counted p cause)
  have hparts := hframe.trans (t.retrainMarked_frame p cause)
  have hmode' := (t.retrainMarked_mode p cause).trans hmode
  generalize t.retrainMarked p cause = u at hmarked hall hparts hmode'
  obtain ⟨n, hisland, hframe', htold, htells⟩ := State.tell_held (q := 3) (i := p) (w := .hold p) (p := p) (g := (· + 1)) hmarked.wf fun _ => rfl
  rw [hmarked.here] at hisland htells
  have hctl : (u.tell 3 p (.hold p)).ctl = _ := htold
  refine ⟨n, hmarked.trans hisland, ⟨?_, ?_⟩, htells.start (State.icq_counted hall 3 p) (hparts.2 .sys (by decide)) hmode' (by rw [hall.1]),
    hparts.trans (hframe'.mono (by decide))⟩
  · rw [hctl, hall.1]
  · rw [hframe'.2 .mbx (by decide), hall.2]

end Sys2Proof.Machine
end

section
/-! ### Bonds at the end of a full retrain (R604, R606, R630) -/

namespace Sys2Proof.Machine

variable {s t u : State} {p : Nat} {x : Slice} {a b l : Link}

/-- Two bundles that have the same lanes: the same bonds carry them, and the same bonds have failed. -/
def Link.SameLanes (a b : Link) : Prop := a.steer = b.steer ∧ a.failed = b.failed ∧ a.narrow = b.narrow

theorem Link.SameLanes.badLanes (h : Link.SameLanes a b) : a.badLanes = b.badLanes := by
  obtain ⟨hsteer, hfailed, hnarrow⟩ := h
  have hgood : a.good = b.good := by
    funext k
    rw [Link.good, hfailed, Link.good]
  have hbond : a.bondOf = b.bondOf := by
    funext k
    rw [Link.bondOf, hsteer, Link.bondOf]
  simp only [Link.badLanes, Link.lanesUsed, Link.dqLanes, hgood, hbond, hnarrow]

theorem Link.goodDq_congr (h : a.failed = b.failed) : a.goodDq = b.goodDq := by
  have hgood : a.good = b.good := by
    funext k
    rw [Link.good, h, Link.good]
  rw [Link.goodDq, hgood, Link.goodDq]

/-- The end of one takeover. -/
def Link.endSwap (t : Nat) (l : Link) (m : Trims) : Link :=
  if m.perm && l.good m.dst then (l.sendSteer t m.lane m.dst).steerTo m.lane m.dst else l

theorem Link.SameLanes.endSwap (h : Link.SameLanes a b) (t : Nat) (m : Trims) :
    Link.SameLanes (a.endSwap t m) (b.endSwap t m) := by
  obtain ⟨hsteer, hfailed, hnarrow⟩ := h
  have hgood : a.good m.dst = b.good m.dst := by rw [Link.good, hfailed, Link.good]
  unfold Link.endSwap
  rw [hgood]
  split
  · have hset := congrArg (fun t => Tab.set 0 t m.lane (if m.dst = (if m.lane < 72 then m.lane else m.lane + 4) then 0 else m.dst + 1)) hsteer
    exact ⟨hset, hfailed, hnarrow⟩
  · exact ⟨hsteer, hfailed, hnarrow⟩

theorem Link.SameLanes.endSwaps (h : Link.SameLanes a b) (hswap : a.swap = b.swap) (t : Nat) :
    Link.SameLanes (a.endSwaps t) (b.endSwaps t) := by
  have hfold (l : List Trims) : ∀ a b, Link.SameLanes a b → Link.SameLanes (l.foldl (Link.endSwap t) a) (l.foldl (Link.endSwap t) b) := by
    induction l with
    | nil => exact fun a b h => h
    | cons m l ih => exact fun a b h => ih _ _ (h.endSwap t m)
  change Link.SameLanes { (a.swap.foldl (Link.endSwap t) a) with swap := [] } { (b.swap.foldl (Link.endSwap t) b) with swap := [] }
  rw [hswap]
  exact hfold b.swap a b h

theorem Link.endSwap_keeps (l : Link) (t : Nat) (m : Trims) :
    (l.endSwap t m).failed = l.failed ∧ (l.endSwap t m).narrow = l.narrow ∧ (l.endSwap t m).alert = l.alert := by
  unfold Link.endSwap
  split <;> exact ⟨rfl, rfl, rfl⟩

/-- The end of the takeovers leaves no bond failed that was not, and neither the width nor the alert changes. -/
theorem Link.endSwaps_keeps (l : Link) (t : Nat) :
    (l.endSwaps t).failed = l.failed ∧ (l.endSwaps t).narrow = l.narrow ∧ (l.endSwaps t).alert = l.alert ∧ (l.endSwaps t).swap = [] := by
  have hfold (ms : List Trims) : ∀ l : Link, (ms.foldl (Link.endSwap t) l).failed = l.failed ∧
      (ms.foldl (Link.endSwap t) l).narrow = l.narrow ∧ (ms.foldl (Link.endSwap t) l).alert = l.alert := by
    induction ms with
    | nil => exact fun l => ⟨rfl, rfl, rfl⟩
    | cons m ms ih =>
      intro l
      obtain ⟨hfailed, hnarrow, halert⟩ := ih (l.endSwap t m)
      obtain ⟨hfailed', hnarrow', halert'⟩ := l.endSwap_keeps t m
      exact ⟨hfailed.trans hfailed', hnarrow.trans hnarrow', halert.trans halert'⟩
  obtain ⟨hfailed, hnarrow, halert⟩ := hfold l.swap l
  exact ⟨hfailed, hnarrow, halert, rfl⟩

theorem Link.clearAlert_keeps (l : Link) :
    l.clearAlert.alert = false ∧ l.clearAlert.swap = l.swap ∧ Link.SameLanes l.clearAlert l := by
  unfold Link.clearAlert
  by_cases h : l.alert = true
  · rw [if_pos h]
    exact ⟨rfl, rfl, rfl, rfl, rfl⟩
  · rw [if_neg h]
    exact ⟨by simpa using h, rfl, rfl, rfl, rfl⟩

/-- Island `p` once the takeovers of its bundle have ended and its failed bonds no longer count for lanes. -/
def State.swapsEnded (s : State) (p : Nat) : State :=
  ((s.modLink p fun l => l.endSwaps (s.slice p).sch.cclk).modSch p fun x => { x with sideAt := none }).modLink p fun l =>
    { l with lanes := l.failed.foldl (fun t b => Tab.set Lane.reset t b Lane.reset) l.lanes }

/-- With a good bond on every lane nothing else is replaced, and the slice can go on. -/
theorem State.replaceBonds_good (hwf : Tab.wf Slice.reset s.slices = true) (hgood : 72 ≤ (s.slice p).link.goodDq)
    (hlanes : ((s.slice p).link.endSwaps (s.slice p).sch.cclk).badLanes = []) :
    s.replaceBonds p = (s.swapsEnded p, false) := by
  have hswaps := ((State.Island.refl hwf p).modSlice fun x => { x with link := x.link.endSwaps (s.slice p).sch.cclk }).modSlice fun x =>
    { x with sch := { x.sch with sideAt := none } }
  have hlink : (((s.modLink p fun l => l.endSwaps (s.slice p).sch.cclk).modSch p fun x => { x with sideAt := none }).slice p).link =
      (s.slice p).link.endSwaps (s.slice p).sch.cclk := congrArg Slice.link hswaps.here
  have hdq : ¬ (!((s.slice p).link.endSwaps (s.slice p).sch.cclk).narrow &&
      decide (((s.slice p).link.endSwaps (s.slice p).sch.cclk).goodDq < 72)) = true := by
    have hkeeps : ((s.slice p).link.endSwaps (s.slice p).sch.cclk).goodDq = (s.slice p).link.goodDq :=
      Link.goodDq_congr ((s.slice p).link.endSwaps_keeps _).1
    simp [hkeeps, hgood]
  have hended := hswaps.modSlice fun x =>
    { x with link := { x.link with lanes := x.link.failed.foldl (fun t b => Tab.set Lane.reset t b Lane.reset) x.link.lanes } }
  change State.Island p _ s (s.swapsEnded p) at hended
  have hbad : ((s.swapsEnded p).slice p).link.badLanes = [] := by
    rw [hended.here]
    exact hlanes
  unfold State.replaceBonds
  dsimp only
  rw [hlink, hlanes, if_neg hdq]
  simp only [List.filter_nil, State.each_nil, hlink, hlanes]
  exact Prod.ext rfl (by rw [← State.swapsEnded, hbad]; rfl)

end Sys2Proof.Machine
end

section
/-! ### A full retrain ends (R600, R630, R640) -/

namespace Sys2Proof.Machine

variable {s t u : State} {p : Nat} {x : Slice}

/-- A bundle of full width with no alert and no takeover. -/
def Link.Plain (l : Link) : Prop := l.narrow = false ∧ l.alert = false ∧ l.swap = []

/-- Between `s` and `t` the bundle of island `p` has been put in order: it is plain now, its channel is held as it was, and of
the rest a free value alone has been taken. -/
structure State.Mends (p : Nat) (s t : State) : Prop where
  island : ∃ x, State.Island p x s t ∧ x.link.Plain ∧ x.sch.held = (s.slice p).sch.held
  sys : t.sys = { s.sys with free := t.sys.free }
  frame : Frame [.sys, .slices] s t

namespace State.Mends

theorem modLink (h : Mends p s t) {f : Link → Link} (hf : ∀ l : Link, l.Plain → (f l).Plain) : Mends p s (t.modLink p f) := by
  obtain ⟨x, hx, hplain, hheld⟩ := h.island
  exact ⟨⟨_, hx.modSlice fun x => { x with link := f x.link }, hf _ hplain, hheld⟩, h.sys,
    h.frame.trans ((State.modSlice_frame ..).mono (by decide))⟩

theorem nextFree (h : Mends p s t) : Mends p s t.nextFree :=
  ⟨by
    obtain ⟨x, hx, hrest⟩ := h.island
    exact ⟨x, hx.congr rfl, hrest⟩, congrArg (fun y : Sys => { y with free := t.sys.free + 1 }) h.sys, h.frame.trans ((t.modSys_frame fun y => { y with free := y.free + 1 } : Frame _ t t.nextFree).mono (by decide))⟩

theorem measured (h : Mends p s t) (o : TrainOutcome) : Mends p s ((t.takeTrims p).measureAll p o) := by
  have htake : Mends p s (t.takeTrims p) := h.modLink (f := fun l => { l with
    inuse := (List.range 91).foldl (fun x b => Tab.set 0 x b (l.interp b t.sys.rate (t.tcOf p).toInt)) l.inuse
    derived := l.isDerived t.sys.rate }) fun _ hl => hl
  unfold State.measureAll
  dsimp only
  generalize (t.takeTrims p).sys.free = n
  refine State.each_induct (P := Mends p s) (f := fun v b => v.useTrim p b (trimOf o n p b)) (fun u b hu => ?_) _ htake
  refine hu.modLink (f := fun l => { l.storeTrim b u.sys.rate (u.tcOf p).toInt (trimOf o n p b) with
    inuse := Tab.set 0 l.inuse b (measWord (trimOf o n p b)), finger := u.therm.zqCode
    halves := fld (Config.freeWord (l.halves + 65536 * u.sys.ltc) (65536 + 256 * p + b)) 0 16 }) fun l ⟨hnarrow, halert, hswap⟩ => ?_
  have hstore := (Link.storeTrim_spec (b := b) (r := u.sys.rate) (rfl : l.trim = l.trim) (u.tcOf p).toInt (trimOf o n p b)).2
  refine ⟨?_, ?_, ?_⟩
  · exact (congrArg Link.narrow hstore).trans hnarrow
  · exact (congrArg Link.alert hstore).trans halert
  · exact (congrArg Link.swap hstore).trans hswap

/-- The takeovers end on a bundle whose alert is clear. -/
theorem swapsEnded (hwf : Tab.wf Slice.reset s.slices = true) (hnarrow : (s.slice p).link.narrow = false)
    (halert : (s.slice p).link.alert = false) : Mends p s (s.swapsEnded p) := by
  obtain ⟨-, hnarrow', halert', hswap⟩ := (s.slice p).link.endSwaps_keeps (s.slice p).sch.cclk
  have hisland := (((State.Island.refl hwf p).modSlice fun x => { x with link := x.link.endSwaps (s.slice p).sch.cclk }).modSlice fun x =>
    { x with sch := { x.sch with sideAt := none } }).modSlice fun x =>
    { x with link := { x.link with lanes := x.link.failed.foldl (fun t b => Tab.set Lane.reset t b Lane.reset) x.link.lanes } }
  refine ⟨⟨_, hisland, ⟨hnarrow'.trans hnarrow, halert'.trans halert, hswap⟩, rfl⟩, rfl, ?_⟩
  exact ((State.modSlice_frame ..).trans ((State.modSlice_frame ..).trans (State.modSlice_frame ..))).mono (by decide)

end State.Mends

theorem Link.Plain.send {l : Link} (h : l.Plain) (t : Nat) (col : Bool) (w : BitVec 50) :
    (l.send t col w).Plain ∧ (l.send t col w).again = l.again := by
  obtain ⟨hnarrow, halert, hswap⟩ := h
  refine ⟨⟨hnarrow, halert, hswap⟩, ?_⟩
  unfold Link.send
  rw [halert]
  rfl

theorem Link.Plain.resend {l : Link} (h : l.Plain) (hs : List Half) (d : Nat) :
    (hs.foldl (fun (l : Link) x => l.send (x.sent + d) x.col x.w) l).Plain ∧
      (hs.foldl (fun (l : Link) x => l.send (x.sent + d) x.col x.w) l).again = l.again := by
  induction hs generalizing l with
  | nil => exact ⟨h, rfl⟩
  | cons y ys ih =>
    obtain ⟨hplain, hagain⟩ := h.send (y.sent + d) y.col y.w
    obtain ⟨hplain', hagain'⟩ := ih hplain
    exact ⟨hplain', hagain'.trans hagain⟩

theorem Link.Plain.clearAlert {l : Link} (h : l.Plain) : l.clearAlert = l := by
  unfold Link.clearAlert
  rw [h.2.1]
  rfl

/-- Once the halves to resend have been sent there are none left. -/
theorem State.Mends.sendAgain (h : State.Mends p s t) :
    State.Mends p s (t.sendAgain p) ∧ ((t.sendAgain p).slice p).link.again = [] := by
  obtain ⟨x, hx, hplain, hheld⟩ := h.island
  unfold State.sendAgain
  rw [hx.here]
  dsimp only
  split
  · next hagain => exact ⟨h, by rw [hx.here, hagain]⟩
  · next y ys hagain =>
    rw [hplain.clearAlert]
    obtain ⟨hplain', hagain'⟩ := Link.Plain.resend (l := { x.link with again := [] }) hplain (y :: ys) (x.sch.cclk - y.sent)
    have hsent := hx.modSlice fun x' =>
      let z := x'.later y.sent (x.sch.cclk - y.sent)
      { z with
        link := (y :: ys).foldl (fun (l : Link) x' => l.send (x'.sent + (x.sch.cclk - y.sent)) x'.col x'.w) { x.link with again := [] }
        sch := { z.sch with cclk := ((y :: ys).foldl (fun m z => max m (z.sent + (x.sch.cclk - y.sent))) x.sch.cclk) + 1 } }
    rw [hagain]
    exact ⟨⟨⟨_, hsent, hplain', hheld⟩, h.sys, h.frame.trans ((State.modSlice_frame ..).mono (by decide))⟩,
      by rw [hsent.here]; exact hagain'⟩

/-- What the end of the retrain sets on the bundle at rate point `rate` with finger code `zq`, ahead of its record. -/
def State.retrained (s : State) (p rate : Nat) (zq : Nat) : State :=
  ((s.sendAgain p).modLink p fun l =>
    { l with state := if l.narrow then .narrow else .active, resend := 0, derived := l.isDerived rate, finger := zq }).calDone p 3

theorem State.Mends.retrained (h : State.Mends p s t) (rate : Nat) (zq : Nat) :
    ∃ x, State.Island p x s (t.retrained p rate zq) ∧ x.link.state = .active ∧ x.link.narrow = false ∧ x.link.alert = false ∧
      x.link.resend = 0 ∧ x.link.again = [] ∧ x.link.swap = [] ∧ x.link.tlast = s.tcOf p ∧ x.sch.held = (s.slice p).sch.held ∧
      (t.retrained p rate zq).sys = { s.sys with free := (t.retrained p rate zq).sys.free } ∧
      Frame [.sys, .slices] s (t.retrained p rate zq) := by
  obtain ⟨⟨⟨x, hx, ⟨hnarrow, halert, hswap⟩, hheld⟩, hsys, hframe⟩, hagain⟩ := h.sendAgain
  rw [hx.here] at hagain
  unfold State.retrained
  generalize t.sendAgain p = u at hx hsys hframe
  have hset := hx.modSlice fun x => { x with link := { x.link with
    state := if x.link.narrow then .narrow else .active, resend := 0, derived := x.link.isDerived rate, finger := zq } }
  have htc : (u.modLink p fun l =>
      { l with state := if l.narrow then .narrow else .active, resend := 0, derived := l.isDerived rate, finger := zq }).tcOf p = s.tcOf p :=
    State.tcOf_congr (hframe.2 .therm (by decide)) p
  have hdone := hset.modSlice fun x => { x with link := { x.link with
    tlast := s.tcOf p, trained := true, calDue := false, calPos := 0, calHold := false, calCnt := min (x.link.calCnt + 1) (2 ^ 32 - 1),
    calLtc := u.sys.ltc, calTemp := BitVec.ofNat 32 ((s.tcOf p).toNat + 3 * 2 ^ 16 + u.sys.rate * 2 ^ 18) } }
  unfold State.calDone
  dsimp only
  rw [htc]
  refine ⟨_, hdone, ?_, hnarrow, halert, rfl, hagain, hswap, rfl, hheld, hsys, hframe.trans ?_⟩
  · dsimp only
    rw [hnarrow]
    rfl
  · exact ((State.modSlice_frame ..).trans (State.modSlice_frame ..)).mono (by decide)

end Sys2Proof.Machine
end

section
/-! ### The commands on a bundle's retrain (R600, R629 to R632, R640) -/

namespace Sys2Proof.Machine

variable {s t u r : State} {x : Slice} {p : Fin 144} {o : TrainOutcome}

/-- Bundle `p` with its alert cleared and no further bond failed. -/
def State.alertCleared (s : State) (p : Nat) : State := s.modLink p fun l => { l.clearAlert with failed := l.failed }

/-- What `r`, the state with its bonds in order, comes to with the record of the retrain and the end of its hold. -/
def State.retrainOver (s r : State) (p : Nat) (o : TrainOutcome) : State :=
  (((((r.takeTrims p).measureAll p o).nextFree.retrained p s.sys.rate s.therm.zqCode).linkEvent .linkRetrain p 0x7F
    (s.slice p).link.cause).unholdChan p)

theorem exec_retrainEnd_waits (h : s.closedFor p.val = false ∨ s.therm.latch = true ∨ s.sys.rstEnd = true ∨ s.launchFirst p.val = true) :
    exec (.retrainEnd p o) s = .next s := by
  have hno : ((s.slice p.val).link.state != .retrain || !s.closedFor p.val || s.therm.latch || s.sys.rstEnd || s.launchFirst p.val) = true := by
    rcases h with h | h | h | h <;> simp [h]
  exact congrArg (fun t : State => (.next t : Res)) (if_pos hno)

theorem exec_retrainEnd {trims : List (Nat × BitVec 32)} (hstate : (s.slice p.val).link.state = .retrain)
    (hclosed : s.closedFor p.val = true) (hlatch : s.therm.latch = false) (hrst : s.sys.rstEnd = false)
    (hlaunch : s.launchFirst p.val = false) (hcause : (s.slice p.val).link.cause ≠ 5)
    (hbonds : (s.alertCleared p.val).replaceBonds p.val = (r, false))
    (hmig : ((s.retrainOver r p.val ⟨[], false, trims⟩).stk.migs.find? fun m => m.new == p.val && !m.copying) = none)
    (hnarrow : ((s.retrainOver r p.val ⟨[], false, trims⟩).slice p.val).link.narrow = false)
    (hrun : (s.retrainOver r p.val ⟨[], false, trims⟩).mbx.run = none) :
    exec (.retrainEnd p ⟨[], false, trims⟩) s = .next (s.retrainOver r p.val ⟨[], false, trims⟩) := by
  have hgo : ¬ ((s.slice p.val).link.state != .retrain || !s.closedFor p.val || s.therm.latch || s.sys.rstEnd || s.launchFirst p.val) =
      true := by simp [hstate, hclosed, hlatch, hrst, hlaunch]
  have hready : (s.retrainOver r p.val ⟨[], false, trims⟩).newSliceReady p.val = s.retrainOver r p.val ⟨[], false, trims⟩ := by
    unfold State.newSliceReady
    rw [hmig]
  refine congrArg (fun t : State => (.next t : Res)) ((if_neg hgo).trans ?_)
  have hfailed : (s.modLink p.val fun l => { l.clearAlert with
      failed := (([] : List Nat).filter fun b => b < 87).foldl (fun f b => insertNat b f) l.failed }) = s.alertCleared p.val := rfl
  dsimp only
  rw [hfailed, hbonds, if_neg hcause]
  change (if (false || false) = true then _ else _ : State).retrainCmd p.val = _
  rw [if_neg (by decide)]
  change (if (!(s.slice p.val).link.narrow && ((s.retrainOver r p.val ⟨[], false, trims⟩).slice p.val).link.narrow) = true then _
    else (s.retrainOver r p.val ⟨[], false, trims⟩).newSliceReady p.val : State).retrainCmd p.val = _
  rw [hnarrow, Bool.and_false, if_neg (by decide), hready, State.retrainCmd, hrun]

/-- A record of a bundle passes the queue of its island, and no other one. -/
theorem State.icq_linkEvent (s : State) (e : Ev) (p bond cause : Nat) (hp : p < 256) :
    (s.linkEvent e p bond cause).icq 3 p = s.icq 3 p := by
  have hpass : (s.icqPass 4 p).icq 3 p = s.icq 3 p := State.icq_modIcq_ne (by omega) _
  unfold State.linkEvent State.report State.reportBy
  dsimp only
  split
  · rw [← hpass, State.icq, State.event_ctl, State.icq]
  · exact hpass

/-- Of the parts that the end of a retrain touches the record and the hold come last. -/
theorem State.Mends.over (h : State.Mends p.val s r) (hrun : s.mbx.run = none)
    (hmig : (s.stk.migs.find? fun m => m.new == p.val && !m.copying) = none) (o : TrainOutcome) :
    ∃ x, State.Island p.val x s (s.retrainOver r p.val o) ∧ x.link.state = .active ∧ x.link.narrow = false ∧ x.link.alert = false ∧
      x.link.resend = 0 ∧ x.link.again = [] ∧ x.link.swap = [] ∧ x.link.tlast = s.tcOf p.val ∧
      (s.retrainOver r p.val o).sys = { s.sys with free := (s.retrainOver r p.val o).sys.free } ∧
      CountedTold s (s.retrainOver r p.val o) ∧
      s.Tells (s.retrainOver r p.val o) 3 p.val (.free p.val) (x.sch.held = (s.slice p.val).sch.held - 1)
        (x.sch.held = (s.slice p.val).sch.held) ∧
      Frame [.sys, .slices, .ctl, .evt, .mbx] s (s.retrainOver r p.val o) ∧ (s.retrainOver r p.val o).mbx.run = none ∧
      ((s.retrainOver r p.val o).stk.migs.find? fun m => m.new == p.val && !m.copying) = none := by
  obtain ⟨x, hx, hstate, hnarrow, halert, hresend, hagain, hswap, htlast, hheld, hsys, hframe⟩ :=
    (h.measured o).nextFree.retrained s.sys.rate s.therm.zqCode
  unfold State.retrainOver
  generalize ((r.takeTrims p.val).measureAll p.val o).nextFree.retrained p.val s.sys.rate s.therm.zqCode = u at *
  have hicq := u.icq_linkEvent .linkRetrain p.val 0x7F (s.slice p.val).link.cause (by omega)
  have hevent : Frame [.ctl, .evt, .mbx] u (u.linkEvent .linkRetrain p.val 0x7F (s.slice p.val).link.cause) := State.reportBy_frame ..
  have hcounted : CountedCrossed u (u.linkEvent .linkRetrain p.val 0x7F (s.slice p.val).link.cause) := State.reportBy_countedCrossed ..
  generalize u.linkEvent .linkRetrain p.val 0x7F (s.slice p.val).link.cause = v at *
  have hv := hx.framed hevent
  have hctl : u.ctl = s.ctl := hframe.2 .ctl (by decide)
  have hmbx : u.mbx = s.mbx := hframe.2 .mbx (by decide)
  have hv_sys : v.sys = u.sys := hevent.2 .sys (by decide)
  have hdet : v.det = s.det := (hevent.2 .det (by decide)).trans (hframe.2 .det (by decide))
  obtain ⟨n, hisland, hframe', htold, htells⟩ := State.tell_held (q := 3) (i := p.val) (w := .free p.val) (p := p.val)
    (g := (· - 1)) hv.wf fun _ => rfl
  rw [hv.here, hheld] at htells
  rw [hv.here] at hisland
  change State.Island _ _ v (v.unholdChan p.val) at hisland
  change Frame _ v (v.unholdChan p.val) at hframe'
  change Told v (v.unholdChan p.val) at htold
  have hall : Frame [.sys, .slices, .ctl, .evt, .mbx] s (v.unholdChan p.val) :=
    (hframe.mono (by decide)).trans ((hevent.mono (by decide)).trans (hframe'.mono (by decide)))
  have hseen : v.icqSeen 3 p.val = s.icqSeen 3 p.val := by
    have hicq' : v.icq 3 p.val = s.icq 3 p.val := by rw [hicq, State.icq, hctl, State.icq]
    have hltc : v.sys.ltc = s.sys.ltc := by rw [hv_sys, hsys]
    simp only [State.icqSeen, State.icqAt, State.crossTime, State.ahead, hicq', hltc, hdet]
  have hwords : v.ctl.words = s.ctl.words := by rw [hcounted.1, hctl]
  have hmbx' : (v.unholdChan p.val).mbx = { s.mbx with irq := v.mbx.irq } := by
    rw [hframe'.2 .mbx (by decide), hcounted.2, hmbx]
  refine ⟨_, hv.trans hisland, hstate, hnarrow, halert, hresend, hagain, hswap, htlast, ?_, ⟨?_, ?_⟩, ?_, hall, ?_, ?_⟩
  · rw [hframe'.2 .sys (by decide), hv_sys]
    exact hsys
  · rw [show (v.unholdChan p.val).ctl = _ from htold, hcounted.1, hctl]
  · rw [hmbx']
  · have hltc : v.sys.ltc = s.sys.ltc := by rw [hv_sys, hsys]
    unfold State.Tells at htells ⊢
    rw [hseen, hltc, hwords] at htells
    exact htells
  · rw [hmbx']
    exact hrun
  · rw [hall.2 .stk (by decide)]
    exact hmig

/-- With the bonds of a working width the retrain ends with its bundle in order. -/
theorem State.mends_alertCleared (hwf : Tab.wf Slice.reset s.slices = true) {q : Nat} (hgood : 72 ≤ (s.slice q).link.goodDq)
    (hlanes : ((s.slice q).link.endSwaps (s.slice q).sch.cclk).badLanes = []) (hnarrow : (s.slice q).link.narrow = false) :
    ∃ r, (s.alertCleared q).replaceBonds q = (r, false) ∧ State.Mends q s r := by
  have hclear := (State.Island.refl hwf q).modSlice fun x =>
    { x with link := { x.link.clearAlert with failed := x.link.failed } }
  change State.Island q _ s (s.alertCleared q) at hclear
  obtain ⟨halert, hswap, hsame⟩ := (s.slice q).link.clearAlert_keeps
  have hlink := congrArg Slice.link hclear.here
  have hcclk := congrArg (fun x : Slice => x.sch.cclk) hclear.here
  have hheld := congrArg (fun x : Slice => x.sch.held) hclear.here
  dsimp only at hlink hcclk hheld
  have hsame' : Link.SameLanes ((s.alertCleared q).slice q).link (s.slice q).link := by
    rw [hlink]
    exact ⟨hsame.1, rfl, hsame.2.2⟩
  have hswap' : ((s.alertCleared q).slice q).link.swap = (s.slice q).link.swap := by
    rw [hlink]
    exact hswap
  have hbonds := State.replaceBonds_good hclear.wf (p := q) (by rw [Link.goodDq_congr hsame'.2.1]; exact hgood) (by
    rw [(hsame'.endSwaps hswap' _).badLanes, hcclk]
    exact hlanes)
  have hmends := State.Mends.swapsEnded hclear.wf (p := q) (hsame'.2.2.trans hnarrow) (by rw [hlink]; exact halert)
  obtain ⟨⟨x, hx, hplain, hheld'⟩, hsys, hframe⟩ := hmends
  exact ⟨_, hbonds, ⟨x, hclear.trans hx, hplain, hheld'.trans hheld⟩, hsys,
    ((s.modSlice_frame q _ : Frame [.slices] s (s.alertCleared q)).mono (by decide)).trans hframe⟩

/-- The counted alert, ahead of its retrain. -/
def State.alerted (s : State) (p n : Nat) : State := (s.errCount p 29 1).modLink p fun l =>
  { l with alert := true, resend := n, again := l.again ++ l.hist.drop (l.hist.length - n) }

theorem exec_sbAlertN (hup : (s.slice p.val).link.up = true) (halert : (s.slice p.val).link.alert = false) (n : BitVec 16) :
    exec (.sbAlertN p n) s = .next ((s.alerted p.val (((s.slice p.val).link.halves + 2 ^ 16 - n.toNat) % 2 ^ 16)).startRetrain p.val 1) := by
  have hgo : ¬ (!((s.slice p.val).link.up || (s.slice p.val).link.state == .retrain) || (s.slice p.val).link.alert) = true := by
    simp [hup, halert]
  exact congrArg (fun t : State => (.next t : Res)) (if_neg hgo)

/-- What a retrain that has started leaves on its bundle, its channel and the rest. -/
theorem State.startRetrain_started {q cause : Nat} (h : State.Island q x s t) (hcounted : Counted s t)
    (hframe : Frame [.slices, .ctl, .evt, .mbx] s t) (hup : x.link.up = true) (hcause : cause ≠ 5) :
    (((t.startRetrain q cause).slice q).link.state = .retrain ∧ ((t.startRetrain q cause).slice q).link.cause = cause ∧
      ((t.startRetrain q cause).slice q).link.calAct = false ∧ CountedTold s (t.startRetrain q cause) ∧
      s.Tells (t.startRetrain q cause) 3 q (.hold q) (((t.startRetrain q cause).slice q).sch.held = x.sch.held + 1)
        (((t.startRetrain q cause).slice q).sch.held = x.sch.held) ∧
      ((t.startRetrain q cause).slice q).bt = x.bt ∧ (∀ j, j ≠ q → (t.startRetrain q cause).slice j = s.slice j) ∧
      Frame [.slices, .det, .ctl, .evt, .mbx] s (t.startRetrain q cause)) ∧
    ((t.startRetrain q cause).slice q).link = { x.link with calAct := false, state := .retrain, cause := cause } := by
  obtain ⟨n, hstart, htold, htells, hparts⟩ := State.startRetrain_starts h hcounted (hframe.mono (by decide))
    (congrArg Det.mode (hframe.2 .det (by decide))) hup hcause
  rw [hstart.here]
  exact ⟨⟨rfl, rfl, rfl, htold, htells, rfl, hstart.there, hparts⟩, rfl⟩

/-- Settles O42: each cause marks the retrain and holds the channel, and its end leaves a bundle in order and frees it. -/
theorem bundleRetrained : Obligations.BundleRetrained := by
  unfold Obligations.BundleRetrained
  intro p s ⟨_, _, hwf, _⟩
  have hstart (cause : Nat) (hup : (s.slice p.val).link.up = true) (hcause : cause ≠ 5) :=
    (State.startRetrain_started (.refl hwf p.val) (.refl s) (.refl ..) hup hcause).1
  refine ⟨fun hup => ⟨fun halert n => ?_, fun halert n => ?_, ⟨_, rfl, hstart 2 hup (by decide)⟩, ⟨_, rfl, hstart 4 hup (by decide)⟩⟩,
    fun hstate => ⟨congrArg (fun t : State => (.next t : Res)) (State.startRetrain_of_retrain hstate 2),
      congrArg (fun t : State => (.next t : Res)) (State.startRetrain_of_retrain hstate 4), fun o => exec_retrainEnd_waits,
      fun trims hlatch hrst hcause hclosed hgood hlanes hnarrow hmig hrun => ?_⟩⟩
  · have hno : (!((s.slice p.val).link.up || (s.slice p.val).link.state == .retrain) || (s.slice p.val).link.alert) = true := by
      simp [halert]
    exact congrArg (fun t : State => (.next t : Res)) (if_pos hno)
  · have hexec := exec_sbAlertN hup halert n
    generalize ((s.slice p.val).link.halves + 2 ^ 16 - n.toNat) % 2 ^ 16 = m at hexec ⊢
    have hframe : Frame [.ctl, .evt, .mbx] s (s.errCount p.val 29 1) := State.count_frame ..
    have hisland := ((State.Island.refl hwf p.val).framed hframe).modSlice fun x => { x with link := { x.link with
      alert := true, resend := m, again := x.link.again ++ x.link.hist.drop (x.link.hist.length - m) } }
    change State.Island _ _ s (s.alerted p.val m) at hisland
    obtain ⟨hstarted, hlink⟩ := State.startRetrain_started (cause := 1) hisland
      ((State.count_counted ..).trans (Counted.of_frame (State.modSlice_frame _ p.val _) (by decide) (by decide)))
      ((hframe.mono (by decide)).trans ((State.modSlice_frame ..).mono (by decide))) hup (by decide)
    exact ⟨_, hexec, hstarted, by rw [hlink], by rw [hlink], by rw [hlink]⟩
  · have hlaunch : s.launchFirst p.val = false := by
      have hnone := List.find?_eq_none.1 hmig
      refine List.any_eq_false.2 fun m hm => ?_
      have := hnone m hm
      grind
    obtain ⟨r, hbonds, hmends⟩ := State.mends_alertCleared hwf hgood hlanes hnarrow
    obtain ⟨x, hx, hactive, hwide, halert, hresend, hagain, hswap, htlast, hsys, htold, htells, hframe, hrun', hmig'⟩ :=
      hmends.over hrun hmig ⟨[], false, trims⟩
    have hexec := exec_retrainEnd hstate hclosed hlatch hrst hlaunch hcause hbonds hmig' (by rw [hx.here, hwide]) hrun'
    refine ⟨_, hexec, ?_⟩
    rw [hx.here]
    exact ⟨hactive, halert, hresend, hagain, hswap, hsys, htlast, htold, htells, hx.there, hframe⟩

end Sys2Proof.Machine
end

section
/-! ### A slice is woken for a migration or REBIND (R497, R629, R632, R688, R696) -/

namespace Sys2Proof.Machine

variable {s t : State} {p : Nat} {x : Slice}

/-- The new slice once it has left self-refresh. -/
def Slice.woken (x : Slice) : Slice :=
  { x with
    rep := { x.rep with testing := false }
    rf := { x.rf with selfRef := false, refOn := true }
    bt := x.bt.srx x.sch.cclk
    link := { x.link.send x.sch.cclk false (rowHalf 5 0) with
      cke := true, rstN := true, phy := true
      state := if x.link.state == .retrain then .retrain else if x.link.narrow then .narrow else .active } }

/-- The state whose slice `p` has left self-refresh and uses the trims of the rate point. -/
def State.awake (s : State) (p : Nat) : State := ((s.modSlice p Slice.woken).startAccs p true).takeTrims p

theorem State.wakeSlice_eq (s : State) (p : Nat) : s.wakeSlice p = (s.awake p).startRetrain p 5 := rfl

theorem State.awake_frame (s : State) (p : Nat) : Frame [.slices] s (s.awake p) :=
  (State.modSlice_frame ..).trans ((State.startAccs_frame ..).trans (State.modSlice_frame ..))

theorem State.Island.awake (h : State.Island p x s t) : ∃ y, State.Island p y s (t.awake p) ∧ y.link.state = x.woken.link.state ∧
    y.link.cause = x.link.cause ∧ y.rf.selfRef = false ∧ y.rf.refOn = true ∧ y.link.cke = true ∧ y.link.phy = true := by
  have hwoken := h.modSlice Slice.woken
  unfold State.awake
  generalize t.modSlice p Slice.woken = u at hwoken
  have haccs := hwoken.modSlice fun x => { x with rf := { x.rf with rbanks := ((u.startAccs p true).slice p).rf.rbanks } }
  have hslice : (u.startAccs p true).slice p = _ := State.slice_startAccs hwoken.wf true
  have hstart : State.Island p { x.woken with rf := { x.woken.rf with rbanks := ((u.startAccs p true).slice p).rf.rbanks } } s (u.startAccs p true) :=
    ⟨State.modSlice_wf hwoken.wf _, by rw [hslice, hwoken.here], fun j hj => (State.slice_modSlice_ne _ _ hj).trans (hwoken.there j hj)⟩
  generalize u.startAccs p true = v at hstart
  exact ⟨_, hstart.modSlice fun x => { x with link := { x.link with
    inuse := (List.range 91).foldl (fun l b => Tab.set 0 l b (x.link.interp b v.sys.rate (v.tcOf p).toInt)) x.link.inuse
    derived := x.link.isDerived v.sys.rate } }, rfl, rfl, rfl, rfl, rfl, rfl⟩

/-- The slice is out of self-refresh and its bundle retrains, with cause 5 unless it did already. -/
theorem State.Island.wakeSlice (h : State.Island p x s t) :
    ∃ y, State.Island p y s (t.wakeSlice p) ∧ y.link.state = .retrain ∧
      y.link.cause = (if x.link.state = .retrain then x.link.cause else 5) ∧ y.rf.selfRef = false ∧ y.rf.refOn = true ∧
      y.link.cke = true ∧ y.link.phy = true := by
  obtain ⟨y, hy, hstate, hcause, hself, hon, hcke, hphy⟩ := h.awake
  rw [State.wakeSlice_eq]
  by_cases hretrain : x.link.state = .retrain
  · have hwas : y.link.state = .retrain := by
      rw [hstate]
      simp [Slice.woken, hretrain]
    rw [State.startRetrain_of_retrain (by rw [hy.here, hwas]), if_pos hretrain]
    exact ⟨y, hy, hwas, hcause, hself, hon, hcke, hphy⟩
  · have hidle : y.link.state ≠ .retrain := by
      rw [hstate]
      simp only [Slice.woken, beq_iff_eq, hretrain, if_false]
      split <;> simp
    rw [State.startRetrain_marked (by rw [hy.here]; exact hidle) (.inr rfl), if_pos rfl, if_neg hretrain]
    exact ⟨_, hy.retrainMarked 5, rfl, rfl, hself, hon, hcke, hphy⟩

theorem State.wakeSlice_frame (s : State) (p : Nat) : Frame [.slices, .det, .ctl, .evt, .mbx] s (s.wakeSlice p) := by
  have hawake : Frame [.slices, .det, .ctl, .evt, .mbx] s (s.awake p) := (s.awake_frame p).mono (by decide)
  rw [State.wakeSlice_eq]
  unfold State.startRetrain
  dsimp only
  split
  · exact hawake
  · rw [if_pos rfl]
    exact hawake.trans (State.retrainMarked_frame (s.awake p) p 5)

theorem State.wakeSlice_counted (s : State) (p : Nat) : Counted s (s.wakeSlice p) := by
  have hawake : Counted s (s.awake p) := .of_frame (s.awake_frame p) (by decide) (by decide)
  rw [State.wakeSlice_eq]
  unfold State.startRetrain
  dsimp only
  split
  · exact hawake
  · rw [if_pos rfl]
    exact hawake.trans (State.retrainMarked_counted (s.awake p) p 5)

end Sys2Proof.Machine
end

section
/-! ### MIG_START (R684 to R688) -/

namespace Sys2Proof.Machine

variable {s : State} {p : Fin 144} {c : Cand} {rest : List Cand}

/-- The state once the migration of candidate `c` onto slice `n` is on the list, with the copy share it runs under. -/
def State.migListed (s : State) (c : Cand) (rest : List Cand) (n : Nat) : State :=
  ((s.modStk fun k => { k with cands := rest }).detBreak 5).modStk fun k =>
    { k with migs := k.migs ++ [{ Mig.reset with
      chan := c.chan, old := (s.stk.remapAt c.chan).ps, new := n, cause := c.cause
      share := if c.share = 0 then s.copyShare else c.share, cmd := decide (c.cause = 4) }] }

theorem exec_migStart (hcands : s.stk.cands = c :: rest) (htarget : c.target = 0xFF) (hcause : c.cause ≠ 4)
    (hphase : s.sys.phase = .running) (hready : s.sys.ready = true) (hlatch : s.therm.latch = false)
    (hbound : (s.stk.remapAt c.chan).st = .bound) (hps : (s.stk.remapAt c.chan).ps = p.val)
    (hmigs : (s.stk.migs.any fun m => m.chan == c.chan) = false) (hmax : (s.stk.migs.filter fun m => !m.rebind).length < s.migMax)
    (hlaunch : s.chanLaunch c.chan = false) (hheld : s.workHeld p.val = false) :
    exec (.migStart p) s = match s.pickSpare (s.stk.remapAt c.chan).ps with
      | none => .next ((s.modStk fun k => { k with cands := rest }).event .firnEmpty (s.stk.remapAt c.chan).ps
          (repairDetail c.chan 0xFF 0 c.cause))
      | some n => .next ((s.migListed c rest n).wakeSlice n) := by
  change execMigStart p s = _
  have hmax' := Nat.not_le.mpr hmax
  simp only [execMigStart, hcands, hphase, hready, hlatch, hheld, hbound, hps, hmigs, hmax', hlaunch, htarget, hcause, bne_self_eq_false,
    Bool.not_true, Bool.or_self, Bool.false_eq_true, if_false, reduceCtorEq, ne_eq, not_true_eq_false, decide_false, if_true]
  cases s.pickSpare p.val with
  | none => rfl
  | some n =>
    unfold State.migListed
    simp only [hps, hcause]
    rfl

/-- Settles O43: the slice that R686 picks is woken for the first candidate, or the candidate goes. -/
theorem migrationStarted : Obligations.MigrationStarted := by
  unfold Obligations.MigrationStarted
  intro p s c rest ⟨_, _, hwf, _⟩ hcands htarget hcause hphase hready hlatch hbound hps hmigs hmax hlaunch hheld
  have hexec := exec_migStart hcands htarget hcause hphase hready hlatch hbound hps hmigs hmax hlaunch hheld
  rw [hps] at hexec
  refine ⟨fun hnone => ?_, fun n hsome => ?_⟩
  · rw [hexec, hnone]
    rfl
  · rw [hsome] at hexec
    have hdrop : Frame [.stk] s (s.modStk fun k => { k with cands := rest }) := s.modStk_frame _
    have hbreak := (s.modStk fun k => { k with cands := rest }).detBreak_frame 5
    have hlist : Frame [.stk, .det, .evt, .mbx] s (s.migListed c rest n) :=
      (hdrop.mono (by decide)).trans ((hbreak.mono (by decide)).trans ((State.modStk_frame ..).mono (by decide)))
    have hcounted : Counted s (s.migListed c rest n) := (Counted.of_frame hdrop (by decide) (by decide)).trans
      ((State.detBreak_counted _ 5).trans (Counted.of_frame (State.modStk_frame ..) (by decide) (by decide)))
    have hstk : (s.migListed c rest n).stk = { s.stk with
        cands := rest
        migs := s.stk.migs ++ [{ Mig.reset with
          chan := c.chan, old := p.val, new := n, cause := c.cause, share := if c.share = 0 then s.copyShare else c.share }] } := by
      unfold State.migListed
      rw [hps, decide_eq_false hcause]
      exact congrArg (fun k : Stack => { k with migs := k.migs ++ [{ Mig.reset with
        chan := c.chan, old := p.val, new := n, cause := c.cause
        share := if c.share = 0 then s.copyShare else c.share, cmd := false }] }) (hbreak.2 .stk (by decide))
    obtain ⟨y, hy, hstate, hcause', hself, hon, hcke, hphy⟩ := ((State.Island.refl hwf n).framed hlist).wakeSlice
    have hwake := (s.migListed c rest n).wakeSlice_frame n
    refine ⟨_, hexec, (hwake.2 .stk (by decide)).trans hstk, ?_, ?_, ?_, ?_, ?_, ?_, hy.there,
      hcounted.trans (State.wakeSlice_counted ..), (hlist.mono (by decide)).trans (hwake.mono (by decide))⟩
    all_goals rw [hy.here]
    · exact hstate
    · exact hcause'
    · exact hself
    · exact hon
    · exact hcke
    · exact hphy

end Sys2Proof.Machine
end

section
/-! ### Reads for a copy (R655, R658, R662, R668, R689) -/

namespace Sys2Proof.Machine

variable {s t u : State} {p q old new : Nat} {l m : Link}

/-- A count of a lane's corrections leaves its mark as it was. -/
theorem Link.erasures_countLane (l : Link) (b : Nat) :
    (l.modLane b fun x => { x with corr := x.corr + 1 }).erasures = l.erasures := by
  have hlane (i : Nat) : ((l.modLane b fun x => { x with corr := x.corr + 1 }).lane i).marked = (l.lane i).marked := by
    unfold Link.lane Link.modLane Tab.upd
    by_cases hi : i = b
    · rw [hi, Tab.get_set_of_ne_default fun h => absurd (congrArg Lane.corr h) (Nat.succ_ne_zero _)]
    · rw [Tab.get_set_ne _ hi]
  unfold Link.erasures
  simp only [hlane]
  rfl

/-- Between `s` and `t` work for a copy from slice `old` to slice `new` has been counted, charged and recorded: the erasures of
the old slice, the stale bits and the state of their words, and every other slice stand. -/
structure State.Copies (old new : Nat) (s t : State) : Prop where
  slices : Tab.wf Slice.reset s.slices = true → Tab.wf Slice.reset t.slices = true ∧
    (∀ j, j ≠ old → j ≠ new → t.slice j = s.slice j) ∧ (t.slice old).link.erasures = (s.slice old).link.erasures
  stale : t.fab.stale = s.fab.stale ∧ t.fab.staleBad = s.fab.staleBad
  sys : t.sys = { s.sys with free := t.sys.free }
  counted : CountedCrossed s t
  frame : Frame [.sys, .slices, .fab, .mem, .det, .ctl, .evt, .mbx] s t

namespace State.Copies

theorem refl (old new : Nat) (s : State) : Copies old new s s :=
  ⟨fun h => ⟨h, fun _ _ _ => rfl, rfl⟩, ⟨rfl, rfl⟩, rfl, ⟨rfl, rfl⟩, .refl ..⟩

theorem trans (h1 : Copies old new s t) (h2 : Copies old new t u) : Copies old new s u where
  slices h := by
    obtain ⟨hwf, hother, hera⟩ := h1.slices h
    obtain ⟨hwf', hother', hera'⟩ := h2.slices hwf
    exact ⟨hwf', fun j ho hn => (hother' j ho hn).trans (hother j ho hn), hera'.trans hera⟩
  stale := ⟨h2.stale.1.trans h1.stale.1, h2.stale.2.trans h1.stale.2⟩
  sys := by rw [h2.sys, h1.sys]
  counted := h1.counted.trans h2.counted
  frame := h1.frame.trans h2.frame

theorem ite {c : Prop} [Decidable c] (h1 : Copies old new s t) (h2 : Copies old new s u) : Copies old new s (if c then t else u) := by
  split
  · exact h1
  · exact h2

theorem each {α : Type} {f : State → α → State} (h : ∀ s a, Copies old new s (f s a)) (l : List α) (s : State) :
    Copies old new s (s.each l f) :=
  State.each_induct (P := Copies old new s) (fun t a ht => ht.trans (h t a)) l (refl old new s)

theorem of_frame {ps : List Part} (hf : Frame ps s t) (hc : CountedCrossed s t)
    (hps : ∀ p ∈ ps, p ∈ [.mem, .det, .ctl, .evt, .mbx] := by decide) : Copies old new s t := by
  have hframe := hf.mono hps
  have hslices : t.slices = s.slices := hframe.2 .slices (by decide)
  have hfab : t.fab = s.fab := hframe.2 .fab (by decide)
  exact ⟨fun h => ⟨hslices ▸ h, fun j _ _ => State.slice_congr hslices j, by rw [State.slice_congr hslices]⟩, by rw [hfab]; exact ⟨rfl, rfl⟩,
    by rw [hframe.2 .sys (by decide)], hc, hframe.mono (by decide)⟩

theorem of_counts (h : State.CountsOnly s t) : Copies old new s t := of_frame h.frame h.counted.crossed

theorem report (s : State) (p : Nat) (e : Ev) (unit detail : Nat) : Copies old new s (s.report p e unit detail) :=
  of_frame (State.reportBy_frame ..) (State.reportBy_countedCrossed ..)

/-- A change of one of the two slices that keeps its erasures. -/
theorem modSlice (s : State) (hp : p = old ∨ p = new) {f : Slice → Slice} (hf : ∀ x, (f x).link.erasures = x.link.erasures) :
    Copies old new s (s.modSlice p f) where
  slices h := by
    refine ⟨State.modSlice_wf h f, fun j ho hn => State.slice_modSlice_ne _ _ (by rcases hp with rfl | rfl <;> assumption), ?_⟩
    by_cases hold : old = p
    · rw [hold, State.slice_modSlice h, hf]
    · rw [State.slice_modSlice_ne _ _ hold]
  stale := ⟨rfl, rfl⟩
  sys := rfl
  counted := ⟨rfl, rfl⟩
  frame := (s.modSlice_frame p f).mono (by decide)

theorem of_tracked (h : State.Tracked p s t) (hp : p = old ∨ p = new) : Copies old new s t where
  slices hwf := by
    obtain ⟨hwf', hhere, hthere⟩ := h.island hwf
    refine ⟨hwf', fun j ho hn => hthere j (by rcases hp with rfl | rfl <;> assumption), ?_⟩
    by_cases hold : old = p
    · rw [hold, hhere]
    · rw [hthere old hold]
  stale := by rw [h.fab]; exact ⟨rfl, rfl⟩
  sys := h.sys
  counted := h.counted
  frame := h.frame.mono (by decide)

theorem workAct (s : State) (hp : p = old ∨ p = new) (i row k : Nat) : Copies old new s (s.workAct p i row k) :=
  of_tracked (State.Tracked.workAct s p i row k) hp

/-- What a decode counts and records. -/
theorem decode (s : State) (hp : p = old ∨ p = new) (k : Key) (c : Code) (src : Nat) : Copies old new s (s.decode p k c src).2 := by
  have herr (s : State) (slot : Nat) : Copies old new s (s.errCount p slot 1) := of_counts (.count ..)
  have hscr (s : State) (f : Scrub → Scrub) : Copies old new s (s.modScr p f) := modSlice s hp fun _ => rfl
  have hlane (s : State) (b : Nat) : Copies old new s (s.modLink p fun y => y.modLane b fun x => { x with corr := x.corr + 1 }) :=
    modSlice s hp fun x => x.link.erasures_countLane b
  unfold State.decode State.decodeBy
  dsimp only
  split
  · split
    · dsimp only
      exact ((herr s 25).trans (report ..)).trans (hscr ..)
    · exact herr s 25
  · split
    · exact refl ..
    · have hcount := (herr s 24).trans (.each (fun t i => (herr t (40 + i)).trans (hlane _ ((s.slice p).link.bondOfSym i)))
        (rsDecode c (s.slice p).link.erasures).changed (s.errCount p 24 1))
      split
      · exact hcount
      · dsimp only
        exact (hcount.trans (report ..)).trans (hscr ..)

theorem lateCharge (s : State) (m svc c : Nat) : Copies old new s (s.lateCharge m svc c) := by
  have hcharged := s.charged_lateCharge m svc c
  have hslices : (s.lateCharge m svc c).slices = s.slices := hcharged.frame.2 .slices (by decide)
  have hstale : (s.lateCharge m svc c).fab.stale = s.fab.stale ∧ (s.lateCharge m svc c).fab.staleBad = s.fab.staleBad := by
    unfold State.lateCharge
    dsimp only
    rw [State.statMeter_fab]
    exact ⟨rfl, rfl⟩
  exact ⟨fun h => ⟨hslices ▸ h, fun j _ _ => State.slice_congr hslices j, by rw [State.slice_congr hslices]⟩, hstale,
    by rw [hcharged.frame.2 .sys (by decide)], hcharged.counted.crossed, hcharged.frame.mono (by decide)⟩

/-- A correction write that enters the write buffer or waits for it. -/
theorem correct (s : State) (hp : p = old ∨ p = new) (k : Key) (c c' : Code) (cause : Nat) :
    Copies old new s (s.correct p k c c' cause) := by
  have hbreak : Copies old new s (s.detBreak 3) := of_frame (s.detBreak_frame 3) (s.detBreak_counted 3).crossed
  have hdat (s : State) (f : ChData → ChData) : Copies old new s (s.modDat p f) := modSlice s hp fun _ => rfl
  have henter (s : State) (w : WBuf) : Copies old new s (s.corrEnter p w) :=
    ((hdat ..).trans (of_counts (.count ..))).trans (lateCharge ..)
  exact .ite (refl ..) (.ite (hbreak.trans (henter ..)) (.ite (hbreak.trans (hdat ..)) (refl ..)))

theorem setCode (s : State) (k : Key) (v : Code) : Copies old new s (s.setCode k v) :=
  of_frame (ps := [.mem]) (.of rfl fun p => by cases p <;> simp [Part.same, State.setCode]) ⟨rfl, rfl⟩

end State.Copies

theorem Frame.ite {ps : List Part} {c : Prop} [Decidable c] (h1 : Frame ps s t) (h2 : Frame ps s u) : Frame ps s (if c then t else u) := by
  split
  · exact h1
  · exact h2

/-- What touches no codeword. -/
abbrev quietParts : List Part := [.sys, .slices, .fab, .det, .ctl, .evt, .mbx]

theorem State.decode_quiet (s : State) (p : Nat) (k : Key) (c : Code) (src : Nat) : Frame quietParts s (s.decode p k c src).2 := by
  have herr (t : State) (slot : Nat) : Frame quietParts t (t.errCount p slot 1) := (State.count_frame ..).mono (by decide)
  have hslice (t : State) (f : Slice → Slice) : Frame quietParts t (t.modSlice p f) := (State.modSlice_frame ..).mono (by decide)
  have hrep (s : State) (e : Ev) (unit detail : Nat) : Frame quietParts s (s.report p e unit detail) := (State.reportBy_frame ..).mono (by decide)
  unfold State.decode State.decodeBy
  dsimp only
  split
  · split
    · dsimp only
      exact ((herr s 25).trans (hrep ..)).trans (hslice ..)
    · exact herr s 25
  · split
    · exact .refl ..
    · have hlane (t : State) (i : Nat) := (herr t (40 + i)).trans (hslice _ fun x =>
        { x with link := x.link.modLane ((s.slice p).link.bondOfSym i) (fun y => { y with corr := y.corr + 1 }) })
      have hcount := (herr s 24).trans (State.each_frame (l := (rsDecode c (s.slice p).link.erasures).changed) _ hlane)
      split
      · exact hcount
      · dsimp only
        exact (hcount.trans (hrep ..)).trans (hslice ..)

theorem State.correct_quiet (s : State) (p : Nat) (k : Key) (c c' : Code) (cause : Nat) :
    Frame quietParts s (s.correct p k c c' cause) := by
  have hdat (s : State) (f : ChData → ChData) : Frame quietParts s (s.modDat p f) := (State.modSlice_frame ..).mono (by decide)
  have hbreak : Frame quietParts s (s.detBreak 3) := (s.detBreak_frame 3).mono (by decide)
  have hstat (s : State) : Frame quietParts s (s.stat p 26 1) := (State.count_frame ..).mono (by decide)
  have hcharge (s : State) : Frame quietParts s (s.lateCharge 40 5 64) := (s.charged_lateCharge 40 5 64).frame.mono (by decide)
  exact .ite (.refl ..) (.ite (hbreak.trans ((hdat ..).trans ((hstat _).trans (hcharge _)))) (.ite (hbreak.trans (hdat ..)) (.refl ..)))

end Sys2Proof.Machine
end

section
/-! ### The copy of a row on the arrays (R655, R689) -/

namespace Sys2Proof.Machine

variable {s t u : State} {c old new b row : Nat} {stale : Bool}

theorem keyOf_ps_ne {b b' row row' i i' : Nat} (hne : old ≠ new) (hb : b < 32) (hb' : b' < 32) (hrow : row < 16384) (hrow' : row' < 16384)
    (hi : i < 32) (hi' : i' < 32) : keyOf old b row i ≠ keyOf new b' row' i' := by
  intro h
  have h : ((old * 32 + b) * 16384 + row) * 32 + i = ((new * 32 + b') * 16384 + row') * 32 + i' := h
  omega

/-- Writes to places of their own, each with its value. -/
theorem State.code_each_writes {α : Type} {f : State → α → State} {K : α → Key} {V : α → Code}
    (hf : ∀ u a, (f u a).mem = (u.setCode (K a) (V a)).mem) {l : List α} (hl : l.Nodup)
    (hK : ∀ a ∈ l, ∀ b ∈ l, K a = K b → a = b) (hwf : Memory.wf s.mem = true) :
    Memory.wf (s.each l f).mem = true ∧ (∀ a ∈ l, (s.each l f).code (K a) = V a) ∧
      ∀ k, (∀ a ∈ l, k ≠ K a) → (s.each l f).code k = s.code k := by
  induction l generalizing s with
  | nil => exact ⟨hwf, fun _ h => absurd h List.not_mem_nil, fun _ _ => rfl⟩
  | cons a l ih =>
    obtain ⟨hnot, hnodup⟩ := List.nodup_cons.1 hl
    have hmem := hf s a
    have hcode (k : Key) : (f s a).code k = (s.setCode (K a) (V a)).code k := by rw [State.code, hmem, State.code]
    obtain ⟨hwf', hwritten, hkept⟩ := ih (s := f s a) hnodup
      (fun b hb b' hb' => hK b (List.mem_cons_of_mem _ hb) b' (List.mem_cons_of_mem _ hb')) (hmem ▸ Memory.wf_setCode hwf ..)
    refine ⟨hwf', fun b hb => ?_, fun k hk => ?_⟩
    · rcases List.mem_cons.1 hb with rfl | hb
      · refine (hkept _ fun b' hb' h => ?_).trans ((hcode _).trans (State.code_setCode hwf ..))
        exact hnot (hK b List.mem_cons_self b' (List.mem_cons_of_mem _ hb') h ▸ hb')
      · exact hwritten b hb
    · exact (hkept k fun b hb => hk b (List.mem_cons_of_mem _ hb)).trans
        ((hcode k).trans (State.code_setCode_ne (s := s) _ (hk a List.mem_cons_self)))

/-- What a copy finds in an access of a row: the symbols to write, and whether they are raw. -/
def State.copied (s : State) (old b row : Nat) (stale : Bool) (i : Nat) : Code × Bool :=
  if stale then (s.code (keyOf old b row i), true)
  else if (rsDecode (s.code (keyOf old b row i)) (s.slice old).link.erasures).ue then (s.code (keyOf old b row i), true)
  else (rsEncode (dataOf (rsDecode (s.code (keyOf old b row i)) (s.slice old).link.erasures).code), false)

theorem State.copied_congr {i : Nat} (hcode : t.code (keyOf old b row i) = s.code (keyOf old b row i))
    (hera : (t.slice old).link.erasures = (s.slice old).link.erasures) : t.copied old b row stale i = s.copied old b row stale i := by
  unfold State.copied
  rw [hcode, hera]

theorem State.code_copied (s : State) (old b row : Nat) (stale : Bool) (i : Nat) :
    (s.copied old b row stale i).1 =
      if stale = true ∨ (rsDecode (s.code (keyOf old b row i)) (s.slice old).link.erasures).ue = true then s.code (keyOf old b row i)
      else rsEncode (dataOf (rsDecode (s.code (keyOf old b row i)) (s.slice old).link.erasures).code) := by
  unfold State.copied
  cases stale
  · by_cases hue : (rsDecode (s.code (keyOf old b row i)) (s.slice old).link.erasures).ue = true
    · rw [if_neg (by decide), if_pos hue, if_pos (.inr hue)]
    · rw [if_neg (by decide), if_neg hue, if_neg (by simp [hue])]
  · rw [if_pos rfl, if_pos (.inl rfl)]

/-- The read of one access of a row. -/
def State.readStep (p bank row src : Nat) (stale : Bool) (acc : List (Code × Bool) × State) (c : Nat) : List (Code × Bool) × State :=
  let k := keyOf p bank row c
  let v := acc.2.code k
  if stale then (acc.1 ++ [(v, true)], acc.2)
  else
    let d := acc.2.decode p k v src
    (acc.1 ++ [if d.1.ue then (v, true) else (rsEncode (dataOf d.1.code), false)], d.2)

theorem State.decode_fst (s : State) (p : Nat) (k : Key) (v : Code) (src : Nat) :
    (s.decode p k v src).1 = rsDecode v (s.slice p).link.erasures := by
  unfold State.decode State.decodeBy
  dsimp only
  split
  · split <;> rfl
  · split
    · rfl
    · split <;> rfl

theorem State.readStep_spec (hwf : Tab.wf Slice.reset s.slices = true) (hu : State.Copies old new s u) (hq : Frame quietParts s u)
    (xs : List (Code × Bool)) (src i : Nat) :
    ∃ t, State.readStep old b row src stale (xs, u) i = (xs ++ [s.copied old b row stale i], t) ∧ State.Copies old new s t ∧
      Frame quietParts s t := by
  have hcode : u.code (keyOf old b row i) = s.code (keyOf old b row i) := by rw [State.code, hq.2 .mem (by decide), State.code]
  obtain ⟨-, -, hera⟩ := hu.slices hwf
  rw [← State.copied_congr (stale := stale) hcode hera]
  unfold State.readStep State.copied
  cases stale
  · refine ⟨(u.decode old (keyOf old b row i) (u.code (keyOf old b row i)) src).2, ?_,
      hu.trans (State.Copies.decode u (.inl rfl) _ _ src), hq.trans (u.decode_quiet ..)⟩
    simp only [Bool.false_eq_true, if_false, State.decode_fst]
  · exact ⟨u, rfl, hu, hq⟩

/-- A row is read as a copy finds it, and nothing in the arrays changes. -/
theorem State.readRow_spec (hwf : Tab.wf Slice.reset s.slices = true) (src : Nat) :
    (s.readRow old b row src stale).1 = (List.range 32).map (s.copied old b row stale) ∧
      State.Copies old new s (s.readRow old b row src stale).2 ∧ Frame quietParts s (s.readRow old b row src stale).2 := by
  have hfold (l : List Nat) : ∀ (xs : List (Code × Bool)) (u : State), State.Copies old new s u → Frame quietParts s u →
      ∃ t, l.foldl (State.readStep old b row src stale) (xs, u) = (xs ++ l.map (s.copied old b row stale), t) ∧
        State.Copies old new s t ∧ Frame quietParts s t := by
    induction l with
    | nil => exact fun xs u hu hq => ⟨u, by rw [List.map_nil, List.append_nil]; rfl, hu, hq⟩
    | cons i l ih =>
      intro xs u hu hq
      obtain ⟨t, hstep, ht, hqt⟩ := State.readStep_spec (b := b) (row := row) (stale := stale) hwf hu hq xs src i
      obtain ⟨v, hrest, hv, hqv⟩ := ih (xs ++ [s.copied old b row stale i]) t ht hqt
      refine ⟨v, ?_, hv, hqv⟩
      rw [List.foldl_cons, hstep, hrest, List.append_assoc]
      rfl
  obtain ⟨t, heq, ht, hq⟩ := hfold (List.range 32) [] s (.refl ..) (.refl ..)
  have hread : s.readRow old b row src stale = ([] ++ (List.range 32).map (s.copied old b row stale), t) := heq
  rw [hread]
  exact ⟨rfl, ht, hq⟩

/-- The write of one access, with the correction of an unknown error on the old slice. -/
def State.copyOne (s : State) (old new b row i : Nat) (v : Code × Bool) : State :=
  let k := keyOf old b row i
  let s1 := s.setCode (keyOf new b row i) v.1
  if v.2 || !s.hasUnknown old k then s1 else s1.correct old k (s.code k) v.1 s.fab.nextId

theorem State.Copies.copyOne (s : State) (b row i : Nat) (v : Code × Bool) : State.Copies old new s (s.copyOne old new b row i v) :=
  .ite (.setCode ..) ((State.Copies.setCode ..).trans (.correct _ (.inl rfl) ..))

theorem State.copyOne_mem (s : State) (old new b row i : Nat) (v : Code × Bool) :
    (s.copyOne old new b row i v).mem = (s.setCode (keyOf new b row i) v.1).mem := by
  unfold State.copyOne
  dsimp only
  split
  · rfl
  · exact (State.correct_quiet ..).2 .mem (by decide)

/-- The copy of a row in one bank. -/
def State.copyBank (s : State) (c old new row b : Nat) : State :=
  let s := s.readBit c b row
  let r := s.readRow old b row 3 (s.fab.isStale c b row)
  ((r.2.workAct old b row 41).workAct new b row 41).each (List.range 32) fun s i => s.copyOne old new b row i (r.1.getD i (0, false))

theorem State.copyRow_eq (s : State) (c old new row : Nat) : s.copyRow c old new row = s.each (List.range 32) fun s b => s.copyBank c old new row b := rfl

theorem State.copyBank_spec (hwf : Tab.wf Slice.reset s.slices = true) (hmem : Memory.wf s.mem = true) (hbad : s.fab.staleBad = [])
    (hrow : row < 16384) :
    State.Copies old new s (s.copyBank c old new row b) ∧ Memory.wf (s.copyBank c old new row b).mem = true ∧
      (∀ i, i < 32 → (s.copyBank c old new row b).code (keyOf new b row i) = (s.copied old b row (s.fab.isStale c b row) i).1) ∧
      ∀ k, (∀ i, i < 32 → k ≠ keyOf new b row i) → (s.copyBank c old new row b).code k = s.code k := by
  have hbit : s.readBit c b row = s := by simp [State.readBit, hbad]
  obtain ⟨hread, hcopies, hquiet⟩ := State.readRow_spec (old := old) (new := new) (b := b) (row := row) (stale := s.fab.isStale c b row) hwf 3
  unfold State.copyBank
  dsimp only
  rw [hbit, hread]
  generalize (s.readRow old b row 3 (s.fab.isStale c b row)).2 = u at hcopies hquiet
  have hacts := hcopies.trans ((State.Copies.workAct u (.inl rfl) b row 41).trans (State.Copies.workAct (u.workAct old b row 41) (.inr rfl) b row 41))
  have hquiet' : Frame quietParts s ((u.workAct old b row 41).workAct new b row 41) :=
    hquiet.trans (((State.Tracked.workAct u old b row 41).frame.mono (by decide)).trans ((State.Tracked.workAct _ new b row 41).frame.mono (by decide)))
  generalize (u.workAct old b row 41).workAct new b row 41 = v at hacts hquiet'
  have hvmem : v.mem = s.mem := hquiet'.2 .mem (by decide)
  obtain ⟨hwf', hwritten, hkept⟩ := State.code_each_writes (s := v) (l := List.range 32)
    (f := fun w i => w.copyOne old new b row i (((List.range 32).map (s.copied old b row (s.fab.isStale c b row))).getD i (0, false)))
    (K := fun i => keyOf new b row i)
    (V := fun i => (((List.range 32).map (s.copied old b row (s.fab.isStale c b row))).getD i (0, false)).1)
    (fun w i => w.copyOne_mem old new b row i _) List.nodup_range
    (fun i hi j hj h => (keyOf_inj hrow hrow (List.mem_range.1 hi) (List.mem_range.1 hj) h).2.2) (hvmem ▸ hmem)
  refine ⟨hacts.trans (.each (fun w i => .copyOne w b row i _) _ v), hwf', fun i hi => ?_, fun k hk => ?_⟩
  · rw [hwritten i (List.mem_range.2 hi)]
    simp [hi]
  · rw [hkept k fun i hi => hk i (List.mem_range.1 hi), State.code, hvmem, State.code]

/-- The row is copied in every bank, and no other place changes. -/
theorem State.copyRow_spec (hwf : Tab.wf Slice.reset s.slices = true) (hmem : Memory.wf s.mem = true) (hbad : s.fab.staleBad = [])
    (hrow : row < 16384) (hne : old ≠ new) :
    State.Copies old new s (s.copyRow c old new row) ∧
      (∀ b i, b < 32 → i < 32 → (s.copyRow c old new row).code (keyOf new b row i) = (s.copied old b row (s.fab.isStale c b row) i).1) ∧
      ∀ k, (∀ b i, b < 32 → i < 32 → k ≠ keyOf new b row i) → (s.copyRow c old new row).code k = s.code k := by
  have hfold (l : List Nat) : ∀ s : State, Tab.wf Slice.reset s.slices = true → Memory.wf s.mem = true → s.fab.staleBad = [] →
      l.Nodup → (∀ b ∈ l, b < 32) → State.Copies old new s (s.each l fun s b => s.copyBank c old new row b) ∧
        (∀ b ∈ l, ∀ i, i < 32 → (s.each l fun s b => s.copyBank c old new row b).code (keyOf new b row i) =
          (s.copied old b row (s.fab.isStale c b row) i).1) ∧
        ∀ k, (∀ b ∈ l, ∀ i, i < 32 → k ≠ keyOf new b row i) →
          (s.each l fun s b => s.copyBank c old new row b).code k = s.code k := by
    induction l with
    | nil => exact fun s _ _ _ _ _ => ⟨.refl .., fun _ h => absurd h List.not_mem_nil, fun _ _ => rfl⟩
    | cons a l ih =>
      intro s hwf hmem hbad hnodup hlt
      obtain ⟨hnot, hnodup⟩ := List.nodup_cons.1 hnodup
      have ha : a < 32 := hlt a List.mem_cons_self
      obtain ⟨hcopies, hmem', hwritten, hkept⟩ := State.copyBank_spec (c := c) (old := old) (new := new) (b := a) hwf hmem hbad hrow
      obtain ⟨hwf', -, hera⟩ := hcopies.slices hwf
      obtain ⟨hrest, hwritten', hkept'⟩ := ih (s.copyBank c old new row a) hwf' hmem' (hcopies.stale.2.trans hbad) hnodup
        fun b hb => hlt b (List.mem_cons_of_mem _ hb)
      refine ⟨hcopies.trans hrest, fun b hb i hi => ?_, fun k hk => ?_⟩
      · rcases List.mem_cons.1 hb with rfl | hb
        · refine (hkept' _ fun b' hb' j hj h => ?_).trans (hwritten i hi)
          obtain ⟨hbank, -⟩ := keyOf_inj hrow hrow hi hj h
          exact hnot (hbank ▸ hb')
        · have hb32 : b < 32 := hlt b (List.mem_cons_of_mem _ hb)
          have hstale : (s.copyBank c old new row a).fab.isStale c b row = s.fab.isStale c b row := by
            rw [Fab.isStale, hcopies.stale.1, Fab.isStale]
          exact (hwritten' b hb i hi).trans (congrArg Prod.fst (by
            rw [hstale]
            exact State.copied_congr (hkept _ fun j hj => keyOf_ps_ne hne hb32 ha hrow hrow hi hj) hera))
      · exact (hkept' k fun b hb => hk b (List.mem_cons_of_mem _ hb)).trans (hkept k (hk a List.mem_cons_self))
  rw [State.copyRow_eq]
  obtain ⟨hcopies, hwritten, hkept⟩ := hfold (List.range 32) s hwf hmem hbad List.nodup_range fun b hb => List.mem_range.1 hb
  exact ⟨hcopies, fun b i hb hi => hwritten b (List.mem_range.2 hb) i hi,
    fun k hk => hkept k fun b hb i hi => hk b i (List.mem_range.1 hb) hi⟩

end Sys2Proof.Machine
end

section
/-! ### MIG_ROW_COPY (R191, R263, R297, R688 to R690) -/

namespace Sys2Proof.Machine

variable {s t u : State} {c : Fin 128} {m : Mig} {old new : Nat}

/-- A charge that passes now moves meters, buckets and counters. -/
theorem State.copies_spend {k svc n : Nat} (h : s.spend k svc n = some u) : State.Copies old new s u ∧ Frame [.fab, .ctl, .evt, .mbx] s u := by
  obtain ⟨x, b, slot, rfl⟩ : ∃ x b slot,
      u = (((s.settled k svc).setMeter (6 * k + svc) x).setBucket k b).statMeter (6 * k + svc) slot n := by
    unfold State.spend at h
    dsimp only at h
    split at h
    · cases h
    · cases h
    · cases h
    · exact ⟨_, _, _, (Option.some.inj h).symm⟩
  have hmoved : Frame [.fab] s (((s.settled k svc).setMeter (6 * k + svc) x).setBucket k b) :=
    (s.settled_frame k svc).trans ((State.setMeter_frame ..).trans (State.setBucket_frame ..))
  have hframe : Frame [.fab, .ctl, .evt, .mbx] s ((((s.settled k svc).setMeter (6 * k + svc) x).setBucket k b).statMeter (6 * k + svc) slot n) :=
    (hmoved.mono (by decide)).trans ((State.count_frame ..).mono (by decide))
  have hcounted : Counted s ((((s.settled k svc).setMeter (6 * k + svc) x).setBucket k b).statMeter (6 * k + svc) slot n) :=
    (Counted.of_frame hmoved (by decide) (by decide)).trans (State.count_counted ..)
  have hslices := hframe.2 .slices (by decide)
  refine ⟨⟨fun hwf => ⟨hslices ▸ hwf, fun j _ _ => State.slice_congr hslices j, by rw [State.slice_congr hslices]⟩, ?_,
    by rw [hframe.2 .sys (by decide)], hcounted.crossed, hframe.mono (by decide)⟩, hframe⟩
  rw [State.statMeter_fab]
  exact ⟨rfl, rfl⟩

/-- The reads that the copy of a row counts on its channel. -/
def State.copyCounted (s : State) (c : Nat) : State :=
  s.modFab fun f => { f with chCnt := Tab.upd 0 f.chCnt (41 * 128 + c) (· + 1024) }

theorem State.Copies.copyCounted (s : State) (c : Nat) : State.Copies old new s (s.copyCounted c) where
  slices h := ⟨h, fun _ _ _ => rfl, rfl⟩
  stale := ⟨rfl, rfl⟩
  sys := rfl
  counted := ⟨rfl, rfl⟩
  frame := (s.modFab_frame _).mono (by decide)

/-- The next row of migration `m` is on the new slice, in the remap table and for the accesses that wait. -/
def State.rowMoved (s : State) (c : Nat) (m : Mig) (e : Remap) (n : Nat) : State :=
  (((s.setRemap c { e with mptr := e.mptr + 1 }).modStk fun k =>
    { k with migs := k.migs.map fun x => if x.chan = c then { x with debt := x.debt + 1024, mark := n } else x }).detBreak 5).moveWaiting
    c m.old m.new e.mptr

theorem exec_migRowCopy (hmig : (s.stk.migs.find? fun m => m.chan == c.val && m.copying && !m.rebind) = some m)
    (hst : (s.stk.remapAt c.val).st = .migrating) (hold : s.sliceLive m.old = true) (hnew : s.sliceLive m.new = true)
    (hholdo : s.workHeld m.old = false) (hholdn : s.workHeld m.new = false)
    (hspaced : ∀ b, b < 32 → s.workSpaced m.old b (s.stk.remapAt c.val).mptr = false ∧ s.workSpaced m.new b (s.stk.remapAt c.val).mptr = false)
    (hline : ((s.slice m.old).dat.lines.find? fun l => l.row == (s.stk.remapAt c.val).mptr) = none)
    (hbusy : s.rowBusyIn m.old (s.stk.remapAt c.val).mptr = false)
    (hahead : s.rowAhead m.old (s.stk.remapAt c.val).mptr m.mark = false) (hcap : s.copyCapped m = false)
    (hspend : s.spend 41 5 131072 = some u) (hmore : (s.stk.remapAt c.val).mptr + 1 < 16384) :
    exec (.migRowCopy c) s = .next (((u.copyCounted c.val).copyRow c.val m.old m.new (s.stk.remapAt c.val).mptr).rowMoved c.val m
      (s.stk.remapAt c.val) s.fab.nextId) := by
  change execMigRowCopy c s = _
  have hany : (List.range 32).any (fun b => s.workSpaced m.old b (s.stk.remapAt c.val).mptr ||
      s.workSpaced m.new b (s.stk.remapAt c.val).mptr) = false := by
    refine List.any_eq_false.2 fun b hb => ?_
    obtain ⟨ho, hn⟩ := hspaced b (List.mem_range.1 hb)
    rw [ho, hn]
    decide
  simp only [execMigRowCopy, hmig, hst, hold, hnew, hholdo, hholdn, hany, hline, hbusy, hahead, hcap, hspend, hmore.ne, bne_self_eq_false,
    Bool.not_true, Bool.or_self, Bool.false_eq_true, if_false, State.rowMoved, State.copyCounted]

theorem setAt_getD {α : Type} (l : List α) (i : Nat) (v d : α) (h : i < l.length) : (setAt l i v).getD i d = v := by
  induction l generalizing i with
  | nil => exact absurd h (Nat.not_lt_zero i)
  | cons a l ih =>
    cases i with
    | zero => rfl
    | succ i => simpa [setAt] using ih i (Nat.lt_of_succ_lt_succ h)

theorem State.rowMoved_stk (s : State) (e : Remap) (n : Nat) : (s.rowMoved c.val m e n).stk = { s.stk with
    remap := setAt s.stk.remap c.val { e with mptr := e.mptr + 1 }
    migs := s.stk.migs.map fun x => if x.chan = c.val then { x with debt := x.debt + 1024, mark := n } else x } :=
  (State.detBreak_frame ((s.setRemap c.val { e with mptr := e.mptr + 1 }).modStk fun k =>
    { k with migs := k.migs.map fun x => if x.chan = c.val then { x with debt := x.debt + 1024, mark := n } else x }) 5).2 .stk (by decide)

theorem State.rowMoved_frame (s : State) (e : Remap) (n : Nat) :
    Frame [.stk, .det, .evt, .mbx, .fab] s (s.rowMoved c.val m e n) ∧ CountedCrossed s (s.rowMoved c.val m e n) := by
  have hremap : Frame [.stk] s ((s.setRemap c.val { e with mptr := e.mptr + 1 }).modStk fun k =>
      { k with migs := k.migs.map fun x => if x.chan = c.val then { x with debt := x.debt + 1024, mark := n } else x }) :=
    (s.modStk_frame _).trans (State.modStk_frame ..)
  unfold State.rowMoved
  generalize (s.setRemap c.val { e with mptr := e.mptr + 1 }).modStk (fun k =>
      { k with migs := k.migs.map fun x => if x.chan = c.val then { x with debt := x.debt + 1024, mark := n } else x }) = u at hremap ⊢
  have hbreak := u.detBreak_frame 5
  have hwait : Frame [.fab] (u.detBreak 5) ((u.detBreak 5).moveWaiting c.val m.old m.new e.mptr) := State.modFab_frame ..
  exact ⟨(hremap.mono (by decide)).trans ((hbreak.mono (by decide)).trans (hwait.mono (by decide))),
    ((Counted.of_frame hremap (by decide) (by decide)).trans ((u.detBreak_counted 5).trans
      (Counted.of_frame hwait (by decide) (by decide)))).crossed⟩

/-- A row of a migration is copied, and the remap table and the waiting accesses follow. -/
theorem State.migRowCopied (e : Remap) (hcanon : s.Canon) (hbad : s.fab.staleBad = []) (hne : m.old ≠ m.new) (hlen : c.val < s.stk.remap.length)
    (hspend : s.spend 41 5 131072 = some u) (hmore : e.mptr + 1 < 16384)
    (ht : t = ((u.copyCounted c.val).copyRow c.val m.old m.new e.mptr).rowMoved c.val m e s.fab.nextId) :
    t.stk.remapAt c.val = { e with mptr := e.mptr + 1 } ∧
    (∀ b i, b < 32 → i < 32 → t.code (keyOf m.new b e.mptr i) = (s.copied m.old b e.mptr (s.fab.isStale c.val b e.mptr) i).1) ∧
    (∀ k, (∀ b i, b < 32 → i < 32 → k ≠ keyOf m.new b e.mptr i) → t.code k = s.code k) ∧
    t.stk.migs = (s.stk.migs.map fun x => if x.chan = c.val then { x with debt := x.debt + 1024, mark := s.fab.nextId } else x) ∧
    t.sys = { s.sys with free := t.sys.free } ∧ (∀ j, j ≠ m.old → j ≠ m.new → t.slice j = s.slice j) ∧ CountedCrossed s t ∧
    Frame [.sys, .slices, .fab, .stk, .mem, .det, .ctl, .evt, .mbx] s t := by
  obtain ⟨hmem, -, hwf, -⟩ := hcanon
  obtain ⟨hcharge, hquiet⟩ := State.copies_spend (old := m.old) (new := m.new) hspend
  have hstart := hcharge.trans (.copyCounted u c.val)
  have humem : (u.copyCounted c.val).mem = s.mem := hquiet.2 .mem (by decide)
  generalize u.copyCounted c.val = v at hstart humem ht
  obtain ⟨hwf', -, hera⟩ := hstart.slices hwf
  obtain ⟨hcopies, hwritten, hkept⟩ := State.copyRow_spec (c := c.val) (row := e.mptr) hwf' (humem ▸ hmem) (hstart.stale.2.trans hbad)
    (by omega) hne
  have hcode (k : Key) : v.code k = s.code k := by rw [State.code, humem, State.code]
  have hall := hstart.trans hcopies
  generalize v.copyRow c.val m.old m.new e.mptr = w at hcopies hwritten hkept hall ht
  have hstk : w.stk = s.stk := hall.frame.2 .stk (by decide)
  obtain ⟨hframe, hcounted⟩ := w.rowMoved_frame (c := c) (m := m) e s.fab.nextId
  have htstk := w.rowMoved_stk (c := c) (m := m) e s.fab.nextId
  rw [← ht] at hframe hcounted htstk
  have htcode (k : Key) : t.code k = w.code k := by rw [State.code, hframe.2 .mem (by decide), State.code]
  have htslices : t.slices = w.slices := hframe.2 .slices (by decide)
  have htsys : t.sys = w.sys := hframe.2 .sys (by decide)
  refine ⟨?_, fun b i hb hi => ?_, fun k hk => ?_, ?_, ?_, fun j ho hn => ?_, hall.counted.trans hcounted,
    (hall.frame.mono (by decide)).trans (hframe.mono (by decide))⟩
  · rw [htstk, hstk]
    exact setAt_getD _ _ _ _ hlen
  · have hstale : v.fab.isStale c.val b e.mptr = s.fab.isStale c.val b e.mptr := by
      rw [Fab.isStale, hstart.stale.1, Fab.isStale]
    rw [htcode, hwritten b i hb hi, hstale, State.copied_congr (hcode _) hera]
  · rw [htcode, hkept k hk, hcode]
  · rw [htstk, hstk]
  · rw [htsys, hall.sys]
  · rw [State.slice_congr htslices, (hall.slices hwf).2.1 j ho hn]

end Sys2Proof.Machine
end

section
/-! ### REBIND_ZEROING_DONE (R347, R684, R696) -/

namespace Sys2Proof.Machine

variable {s t u : State} {c : Fin 128} {m : Mig} {p : Nat}

/-- A candidate is put on the list, and nothing else changes. -/
theorem State.addCand_stk (s : State) (c cause : Nat) :
    (s.addCand c cause).stk = { s.stk with cands := (s.addCand c cause).stk.cands } ∧ Frame [.stk] s (s.addCand c cause) := by
  unfold State.addCand
  split
  · exact ⟨rfl, s.modStk_frame _⟩
  · exact ⟨rfl, .refl ..⟩

/-- With AUTO_MIG the channel is a candidate for the cause, new or as before. -/
theorem State.mem_addCand (h : s.autoMig = true) (c cause : Nat) : ∃ x ∈ (s.addCand c cause).stk.cands, x.chan = c ∧ x.cause = cause := by
  unfold State.addCand
  rw [h, Bool.true_and]
  by_cases hany : (s.stk.cands.any fun x => x.chan == c && x.cause == cause) = true
  · rw [hany, if_neg (by decide)]
    obtain ⟨x, hx, heq⟩ := List.any_eq_true.1 hany
    simp only [Bool.and_eq_true, beq_iff_eq] at heq
    exact ⟨x, hx, heq⟩
  · rw [Bool.eq_false_iff.2 hany, Bool.not_false, if_pos rfl]
    exact ⟨⟨c, cause, 0, 0xFF⟩, List.mem_append_right _ (List.mem_singleton.2 rfl), rfl, rfl⟩

/-- The slice `new` zeroed and without scale-plane lines of channel `c`, which is bound to it. -/
def State.rebound (s : State) (c new : Nat) : State :=
  let s1 : State := { s with
    mem := Tab.drop (fun k => keyPs k == new) s.mem
    ports := Tab.mapVals Port.reset (fun _ p => { p with scale := p.scale.filter fun (kv : Key × Line) => keyPs kv.1 != c }) s.ports }
  ((s1.setRemap c ⟨new, 0, .bound, 0⟩).modStk fun k => { k with migs := k.migs.filter fun x => x.chan != c }).newScrub new

/-- A channel on a slice of half width becomes a candidate. -/
def State.candOfNarrow (s : State) (c : Nat) (narrow : Bool) : State := if narrow then s.addCand c 1 else s

theorem exec_rebindZeroingDone (hmig : (s.stk.migs.find? fun m => m.chan == c.val && m.rebind && m.copying) = some m)
    (hlive : s.sliceLive m.new = true) :
    exec (.rebindZeroingDone c) s = .next ((((s.rebound c.val m.new).candOfNarrow c.val (s.isNarrow m.new)).event .chanRebind m.new
      (repairDetail c.val 0xFF 0 0)).endPending 0x44 eOk) := by
  change execRebindZeroingDone c s = _
  simp only [execRebindZeroingDone, hmig, hlive, Bool.not_true, Bool.false_eq_true, if_false]
  rfl

theorem State.rebound_frame (s : State) (c new : Nat) : Frame [.mem, .ports, .slices, .stk] s (s.rebound c new) := by
  have hzero : Frame [.mem, .ports] s { s with
      mem := Tab.drop (fun k => keyPs k == new) s.mem
      ports := Tab.mapVals Port.reset (fun _ p => { p with scale := p.scale.filter fun (kv : Key × Line) => keyPs kv.1 != c }) s.ports } :=
    .of rfl fun p => by cases p <;> simp [Part.same]
  exact (hzero.mono (by decide)).trans (((State.modStk_frame ..).mono (by decide)).trans
    (((State.modStk_frame ..).mono (by decide)).trans ((State.modSlice_frame ..).mono (by decide))))

theorem State.rebound_island (hwf : Tab.wf Slice.reset s.slices = true) (c new : Nat) :
    ∃ x, State.Island new x s (s.rebound c new) ∧ x.scr.spos = 0 := by
  let s1 : State := { s with
    mem := Tab.drop (fun k => keyPs k == new) s.mem
    ports := Tab.mapVals Port.reset (fun _ p => { p with scale := p.scale.filter fun (kv : Key × Line) => keyPs kv.1 != c }) s.ports }
  let s2 := (s1.setRemap c ⟨new, 0, .bound, 0⟩).modStk fun k => { k with migs := k.migs.filter fun x => x.chan != c }
  have hisland : State.Island new (s.slice new) s s2 := .of_slices hwf new rfl
  exact ⟨_, hisland.modSlice fun x => { x with scr := { x.scr with
    spos := 0, sstart := s2.view new, speriod := fld s2.stk.scrub 1 8, slate := false
    spaused := if bit s2.stk.scrub 0 then none else some (s2.view new) } }, rfl⟩

theorem endPending_irq (op : Nat) (err : BitVec 8) {i : Nat} (h : s.mbx.irq.getLsbD i = true) :
    (s.endPending op err).mbx.irq.getLsbD i = true := by
  unfold State.endPending
  split
  · refine State.event_irq _ _ _ _ i ?_
    rw [BitVec.getLsbD_or]
    exact (Bool.or_eq_true ..).mpr (.inl h)
  · exact h

theorem State.rebound_port (hwf : Tab.wf Port.reset s.ports = true) (c new k : Nat) :
    (s.rebound c new).port k = { s.port k with scale := (s.port k).scale.filter fun (kv : Key × Line) => keyPs kv.1 != c } :=
  Tab.get_mapVals hwf rfl

theorem State.rebound_code (s : State) (c new : Nat) (k : Key) :
    (s.rebound c new).code k = if keyPs k = new then 0 else s.code k := by
  have hdrop : (s.rebound c new).code k = _ := Tab.get_drop (d := (0 : Code)) (t := s.mem) (p := fun k => keyPs k == new) (k := k)
  rw [hdrop]
  simp only [beq_iff_eq]
  rfl

/-- Settles O44: a row is copied cell by cell in all banks, and a REBIND ends with its zeroed slice bound. -/
theorem migrationRowCopied : Obligations.MigrationRowCopied := by
  unfold Obligations.MigrationRowCopied
  refine ⟨fun c s m hcanon hmig => ?_, fun c s m ⟨_, hports, hwf, _⟩ hmig hlive hlen => ?_⟩
  · dsimp only
    intro hst hold hnew hholdo hholdn hspaced hbad hline hbusy hahead hcap hspend hne hmore hlen
    obtain ⟨u, hu⟩ := Option.isSome_iff_exists.1 hspend
    have hexec := exec_migRowCopy hmig hst hold hnew hholdo hholdn hspaced hline hbusy hahead hcap hu hmore
    obtain ⟨hremap, hcode, hkept, hrest⟩ := State.migRowCopied (s.stk.remapAt c.val) hcanon hbad hne hlen hu hmore rfl
    refine ⟨_, hexec, hremap, fun b i hb hi => ?_, hkept, hrest⟩
    rw [hcode b i hb hi]
    exact s.code_copied ..
  · have hbound := s.rebound_frame c.val m.new
    obtain ⟨x, hisland, hspos⟩ := State.rebound_island (s := s) hwf c.val m.new
    have hstk : (s.rebound c.val m.new).stk = { s.stk with
        remap := setAt s.stk.remap c.val ⟨m.new, 0, .bound, 0⟩, migs := s.stk.migs.filter fun x => x.chan != c.val } := rfl
    have hcode := s.rebound_code c.val m.new
    have hport := State.rebound_port hports c.val m.new
    have hauto : (s.rebound c.val m.new).autoMig = s.autoMig := rfl
    have hexec := exec_rebindZeroingDone hmig hlive
    generalize s.rebound c.val m.new = u at hbound hisland hstk hcode hport hauto hexec
    have hcand : Frame [.stk] u (u.candOfNarrow c.val (s.isNarrow m.new)) ∧ (u.candOfNarrow c.val (s.isNarrow m.new)).stk =
        { u.stk with cands := (u.candOfNarrow c.val (s.isNarrow m.new)).stk.cands } := by
      unfold State.candOfNarrow
      split
      · exact ⟨(u.addCand_stk c.val 1).2, (u.addCand_stk c.val 1).1⟩
      · exact ⟨.refl .., rfl⟩
    have hnarrow : s.isNarrow m.new = true → s.autoMig = true →
        ∃ x ∈ (u.candOfNarrow c.val (s.isNarrow m.new)).stk.cands, x.chan = c.val ∧ x.cause = 1 := fun hn ha => by
      rw [hn]
      exact State.mem_addCand (hauto.trans ha) c.val 1
    generalize u.candOfNarrow c.val (s.isNarrow m.new) = v at hcand hnarrow hexec
    obtain ⟨hcand, hvstk⟩ := hcand
    have hevent : Frame [.evt, .mbx] v (v.event .chanRebind m.new (repairDetail c.val 0xFF 0 0)) := State.event_frame ..
    have hirq : (v.event .chanRebind m.new (repairDetail c.val 0xFF 0 0)).mbx.irq.getLsbD 1 = true := State.event_irq _ _ _ _ 1 (by
      rw [BitVec.getLsbD_or]
      exact (Bool.or_eq_true ..).mpr (.inr (by decide)))
    have hend := endPending_frame (v.event .chanRebind m.new (repairDetail c.val 0xFF 0 0)) 0x44 eOk
    have hirq' := endPending_irq 0x44 eOk hirq
    have hlast := hevent.trans hend
    generalize (v.event .chanRebind m.new (repairDetail c.val 0xFF 0 0)).endPending 0x44 eOk = t at hexec hlast hirq'
    have htcode (k : Key) : t.code k = u.code k := by
      rw [State.code, hlast.2 .mem (by decide), hcand.2 .mem (by decide), State.code]
    have htstk : t.stk = v.stk := hlast.2 .stk (by decide)
    have hall := (hisland.framed hcand).framed hlast
    refine ⟨t, hexec, fun k hk => ?_, fun k hk => ?_, ?_, ?_, ?_, fun hn ha => ?_, hall.there, hirq', fun k => ?_,
      (hbound.mono (by decide)).trans ((hcand.mono (by decide)).trans (hlast.mono (by decide)))⟩
    · rw [htcode, hcode, if_pos hk]
    · rw [htcode, hcode, if_neg hk]
    · rw [htstk, hvstk, hstk]
      exact setAt_getD _ _ _ _ hlen
    · rw [htstk, hvstk, hstk]
    · rw [hall.here, hspos]
    · rw [htstk]
      exact hnarrow hn ha
    · rw [State.port_congr ((hlast.2 .ports (by decide)).trans (hcand.2 .ports (by decide))) k, hport]

end Sys2Proof.Machine
end

section
/-! ### Words made of bytes and of bits (R5) -/

namespace Sys2Proof.Machine

/-- Byte `i` of the number whose bytes are listed. -/
theorem ofBytes_byte (l : List Nat) (i : Nat) : (ofBytes l >>> (8 * i)) % 2 ^ 8 = l.getD i 0 % 2 ^ 8 := by
  induction l generalizing i with
  | nil => simp [ofBytes]
  | cons b l ih =>
    cases i with
    | zero =>
      simp only [ofBytes, List.getD_cons_zero, Nat.mul_zero, Nat.shiftRight_zero]
      omega
    | succ i =>
      have hdrop : ofBytes (b :: l) >>> (8 * (i + 1)) = ofBytes l >>> (8 * i) := by
        rw [show 8 * (i + 1) = 8 + 8 * i by ring, Nat.shiftRight_add, ofBytes, Nat.shiftRight_eq_div_pow _ 8]
        congr 1
        omega
      rw [hdrop, ih, List.getD_cons_succ]

/-- A byte of a word lies below its width. -/
theorem fld_ofNat_byte {i : Nat} (hi : i < 4) (n : Nat) : fld (BitVec.ofNat 32 n) (8 * i) 8 = (n >>> (8 * i)) % 2 ^ 8 := by
  unfold fld
  rw [BitVec.toNat_ofNat]
  refine Nat.eq_of_testBit_eq fun j => ?_
  simp only [Nat.testBit_mod_two_pow, Nat.testBit_shiftRight]
  by_cases hj : j < 8
  · have : 8 * i + j < 32 := by omega
    simp [hj, this]
  · simp [hj]

/-- The number whose bit `l` is `f l`, for the bits below `n`. -/
theorem testBit_sum_bits (f : Nat → Bool) (n l : Nat) :
    ((List.range n).map fun l => b2n (f l) * 2 ^ l).sum < 2 ^ n ∧
      (l < n → (((List.range n).map fun l => b2n (f l) * 2 ^ l).sum).testBit l = f l) := by
  induction n with
  | zero => exact ⟨by simp, fun h => absurd h (Nat.not_lt_zero l)⟩
  | succ n ih =>
    obtain ⟨hlt, hbit⟩ := ih
    rw [List.range_succ, List.map_append, List.sum_append, List.map_singleton, List.sum_singleton]
    generalize ((List.range n).map fun l => b2n (f l) * 2 ^ l).sum = m at hlt hbit
    have hsum : m + b2n (f n) * 2 ^ n = 2 ^ n * b2n (f n) + m := by ring
    have htop : b2n (f n) ≤ 1 := by
      cases f n <;> decide
    rw [hsum]
    refine ⟨?_, fun hl => ?_⟩
    · have := Nat.mul_le_mul_left (2 ^ n) htop
      rw [Nat.pow_succ]
      omega
    · rw [Nat.testBit_two_pow_mul_add _ hlt]
      by_cases hln : l < n
      · rw [if_pos hln, hbit hln]
      · obtain rfl : l = n := by omega
        rw [if_neg hln, Nat.sub_self]
        cases f l <;> rfl

end Sys2Proof.Machine
end

section
/-! ### The commands that wait for a device (R818, R836) -/

namespace Sys2Proof.Machine

variable {s : State} {x : RunCmd}

theorem running_of_run (hrun : s.mbx.run = some x) {op : Nat} (hop : x.op = BitVec.ofNat 8 op) : s.running op = some x := by
  rw [State.running, hrun]
  exact if_pos hop

theorem running_of_idle (hrun : s.mbx.run = none) (op : Nat) : s.running op = none := by
  rw [State.running, hrun]

theorem exec_cfgStore (hr : s.Rings 0x11 false) (ha : s.takeDoorbell.argsBad [1] = false) : exec .cfgStore s =
    match checkImage s.ctl.staging false none s.stk with
    | .inl e => .next { s with mbx := s.answer e [] }
    | .inr _ => .next { s with
        mbx := s.busyWith (some ⟨0x11, s.takeDoorbell.argf 0 0 1, 0, [], (imageWords s.ctl.staging).map (·.toNat)⟩) } := by
  rw [exec_of_rings hr rfl, State.cmdCfgStore, checked_of_pass ha fun _ h => absurd h List.not_mem_nil, takeDoorbell_ctl, takeDoorbell_stk]
  cases checkImage s.ctl.staging false none s.stk with
  | inl e => exact congrArg _ (finish_takeDoorbell ..)
  | inr c => rfl

/-- The end of the boot store's work, good or not (R818). -/
theorem exec_cfgStoreDone (hrun : s.mbx.run = some x) (hop : x.op = 0x11) (good : Bool) : exec (.cfgStoreDone good) s =
    .next { s with
      ctl := { s.ctl with
        bootA := if x.a = 0 then some (tabWith 0 (x.vals.map (BitVec.ofNat 32))) else s.ctl.bootA
        bootB := if x.a = 0 then s.ctl.bootB else some (tabWith 0 (x.vals.map (BitVec.ofNat 32)))
        bootBad := if good then s.ctl.bootBad.filter (fun i => i != x.a) else insertNat x.a s.ctl.bootBad }
      mbx := s.ended (if good then eOk else eCheck) [] } := by
  change execCfgStoreDone good s = _
  rw [execCfgStoreDone, running_of_run hrun hop]
  rfl

theorem exec_cfgStoreTimeout (hrun : s.mbx.run = some x) (hop : x.op = 0x11) : exec .cfgStoreTimeout s =
    if s.sys.ltc < s.mbx.since + 200000000 then .next s
    else .next { s with ctl := { s.ctl with bootBad := insertNat x.a s.ctl.bootBad }, mbx := s.ended eTimeout [] } := by
  change execCfgStoreTimeout s = _
  rw [execCfgStoreTimeout, running_of_run hrun hop]
  exact apply_ite _ _ _ _

section
variable (hr : s.Rings 0x45 false) (ha : s.takeDoorbell.argsBad [0xFF] = false)
include hr ha

theorem exec_firnRead_range (hp : 144 ≤ s.takeDoorbell.argf 0 0 8) : exec .firnRead s = .next { s with mbx := s.answer eRange [] } := by
  rw [exec_of_rings hr rfl, State.cmdFirnRead]
  exact congrArg _ (takeDoorbell_checked_fail ha (decide_eq_true hp))

theorem exec_firnRead_state (hp : s.takeDoorbell.argf 0 0 8 < 144)
    (hfenced : (s.stk.layer (layerOf (s.takeDoorbell.argf 0 0 8))).fenced = true) :
    exec .firnRead s = .next { s with mbx := s.answer eState [] } := by
  rw [exec_of_rings hr rfl, State.cmdFirnRead, checked_pass _ _ _ _ _ (decide_eq_false (Nat.not_le.mpr hp))]
  exact congrArg _ (takeDoorbell_checked_fail ha hfenced)

theorem exec_firnRead (hp : s.takeDoorbell.argf 0 0 8 < 144)
    (hlayer : (s.stk.layer (layerOf (s.takeDoorbell.argf 0 0 8))).fenced = false) :
    exec .firnRead s = .next { s with mbx := s.busyWith (some ⟨0x45, s.takeDoorbell.argf 0 0 8, 0, [], []⟩) } := by
  rw [exec_of_rings hr rfl, State.cmdFirnRead, checked_of_pass ha (by simp [hp, hlayer])]
  rfl

end

/-- The spare rows of four banks, each up to 255, in the bytes of a word (R836). -/
def rowWord (rows : List (BitVec 16)) (w : Nat) : Word :=
  BitVec.ofNat 32 (ofBytes ((List.range 4).map fun b => min 255 (rows.getD (4 * w + b) 0).toNat))

theorem fld_rowWord (rows : List (BitVec 16)) (w : Nat) {i : Nat} (hi : i < 4) :
    fld (rowWord rows w) (8 * i) 8 = min 255 (rows.getD (4 * w + i) 0).toNat := by
  rw [rowWord, fld_ofNat_byte hi, ofBytes_byte]
  have hget : ((List.range 4).map fun b => min 255 (rows.getD (4 * w + b) 0).toNat).getD i 0 = min 255 (rows.getD (4 * w + i) 0).toNat := by
    simp [hi]
  rw [hget]
  omega

/-- The words of a FIRN_READ answer (R836). -/
def State.firnWords (s : State) (units : BitVec 16) (rows : List (BitVec 16)) : List Word :=
  [BitVec.ofNat 32 units.toNat] ++ (List.range 8).map (rowWord rows) ++
    [BitVec.ofNat 32 ((List.range 16).map fun l => b2n (s.freeSpare (9 * l + 8)) * 2 ^ l).sum, s.stsFirn]

theorem exec_firnReadAnswer (hrun : s.mbx.run = some x) (hop : x.op = 0x45) (units : BitVec 16) (rows : List (BitVec 16)) :
    exec (.firnReadAnswer units rows) s = .next { s with mbx := s.ended eOk (s.firnWords units rows) } := by
  change execFirnReadAnswer units rows s = _
  rw [execFirnReadAnswer, running_of_run hrun hop]
  rfl

theorem exec_firnReadTimeout (hrun : s.mbx.run = some x) (hop : x.op = 0x45) : exec .firnReadTimeout s =
    if s.sys.ltc < s.mbx.since + 400000 then .next s else .next { s with mbx := s.ended eTimeout [] } := by
  change execFirnReadTimeout s = _
  rw [execFirnReadTimeout, running_of_run hrun hop]
  exact apply_ite _ _ _ _

theorem State.getD_firnWords (s : State) (units : BitVec 16) (rows : List (BitVec 16)) {w : Nat} (hw : w < 8) :
    (s.firnWords units rows).getD (1 + w) 0 = rowWord rows w := by
  unfold State.firnWords
  rw [List.append_assoc, List.getD_append_right _ _ _ _ (by simp), List.length_singleton, Nat.add_sub_cancel_left,
    List.getD_append _ _ _ _ (by simpa using hw)]
  simp [hw]

/-- Settles O48: each command waits for its device and ends with its answer, or when its time is over. -/
theorem deviceCommands : Obligations.DeviceCommands := by
  unfold Obligations.DeviceCommands
  intro s
  refine ⟨fun hr ha => ⟨fun e he => ?_, fun c hc => ?_⟩, fun x hrun hop => ⟨exec_cfgStoreDone hrun hop true,
    ⟨_, exec_cfgStoreDone hrun hop false, mem_insertNat_self .., rfl, ?_⟩, fun hearly => ?_, fun hlate => ⟨{ s with
      ctl := { s.ctl with bootBad := insertNat x.a s.ctl.bootBad }, mbx := s.ended eTimeout [] }, ?_, mem_insertNat_self .., rfl, ?_⟩⟩,
    fun hr ha => ⟨exec_firnRead_range hr ha, exec_firnRead_state hr ha, exec_firnRead hr ha⟩,
    fun x hrun hop => ⟨fun units rows => ⟨_, exec_firnReadAnswer hrun hop units rows, by simp [State.firnWords], ?_, fun b hb => ?_, fun l hl => ?_, rfl⟩,
      fun hearly => ?_, fun hlate => ?_⟩, fun hrun => ⟨?_, ?_, ?_⟩⟩
  · rw [exec_cfgStore hr ha, he]
  · rw [exec_cfgStore hr ha, hc]
  · exact .of rfl fun p => by cases p <;> simp [Part.same]
  · rw [exec_cfgStoreTimeout hrun hop, if_pos hearly]
  · rw [exec_cfgStoreTimeout hrun hop, if_neg (Nat.not_lt.mpr hlate)]
  · exact .of rfl fun p => by cases p <;> simp [Part.same]
  · exact Nat.mod_eq_of_lt (Nat.lt_trans units.isLt (by decide))
  · rw [State.getD_firnWords _ _ _ (by omega), fld_rowWord _ _ (Nat.mod_lt _ (by decide)), Nat.div_add_mod]
  · obtain ⟨hlt, hbit⟩ := testBit_sum_bits (fun l => s.freeSpare (9 * l + 8)) 16 l
    have hword : (s.firnWords units rows).getD 9 0 =
        BitVec.ofNat 32 ((List.range 16).map fun l => b2n (s.freeSpare (9 * l + 8)) * 2 ^ l).sum := rfl
    rw [hword, bit, BitVec.toNat_ofNat, Nat.mod_eq_of_lt (Nat.lt_trans hlt (by decide)), hbit hl]
  · rw [exec_firnReadTimeout hrun hop, if_pos hearly]
  · rw [exec_firnReadTimeout hrun hop, if_neg (Nat.not_lt.mpr hlate)]
  · change execCfgStoreDone true s = _
    rw [execCfgStoreDone, running_of_idle hrun]
  · change execCfgStoreTimeout s = _
    rw [execCfgStoreTimeout, running_of_idle hrun]
  · change execFirnReadTimeout s = _
    rw [execFirnReadTimeout, running_of_idle hrun]

end Sys2Proof.Machine
end

section
/-! ### Lines written back (R199, R400, R935) -/

namespace Sys2Proof.Machine

section
variable {α : Type} {p q : α → Bool} {g : α → α} {l : List α} {x : α}

theorem mem_updFirst (h : x ∈ updFirst p g l) : x ∈ l ∨ ∃ a ∈ l, p a = true ∧ x = g a := by
  induction l with
  | nil => exact .inl h
  | cons a l ih =>
    unfold updFirst at h
    split at h
    · next hp =>
      rcases List.mem_cons.1 h with rfl | h
      · exact .inr ⟨a, List.mem_cons_self, hp, rfl⟩
      · exact .inl (List.mem_cons_of_mem _ h)
    · rcases List.mem_cons.1 h with rfl | h
      · exact .inl List.mem_cons_self
      · rcases ih h with h | ⟨b, hb, hrest⟩
        · exact .inl (List.mem_cons_of_mem _ h)
        · exact .inr ⟨b, List.mem_cons_of_mem _ hb, hrest⟩

theorem mem_updFirst_of_not (h : x ∈ l) (hx : p x = false) : x ∈ updFirst p g l := by
  induction l with
  | nil => exact h
  | cons a l ih =>
    unfold updFirst
    split
    · next hp =>
      rcases List.mem_cons.1 h with rfl | h
      · exact absurd (hp.symm.trans hx) (by decide)
      · exact List.mem_cons_of_mem _ h
    · rcases List.mem_cons.1 h with rfl | h
      · exact List.mem_cons_self
      · exact List.mem_cons_of_mem _ (ih h)

theorem exists_mem_updFirst (h : x ∈ l) (hx : p x = true) : ∃ a ∈ l, p a = true ∧ g a ∈ updFirst p g l := by
  induction l with
  | nil => exact absurd h List.not_mem_nil
  | cons a l ih =>
    unfold updFirst
    split
    · next hp => exact ⟨a, List.mem_cons_self, hp, List.mem_cons_self⟩
    · next hp =>
      rcases List.mem_cons.1 h with rfl | h
      · exact absurd hx hp
      · obtain ⟨b, hb, hpb, hmem⟩ := ih h
        exact ⟨b, List.mem_cons_of_mem _ hb, hpb, List.mem_cons_of_mem _ hmem⟩

theorem filter_updFirst (h : ∀ a, p a = true → q a = false ∧ q (g a) = false) : (updFirst p g l).filter q = l.filter q := by
  induction l with
  | nil => rfl
  | cons a l ih =>
    unfold updFirst
    split
    · next hp => rw [List.filter_cons_of_neg (by simp [h a hp]), List.filter_cons_of_neg (by simp [h a hp])]
    · rw [List.filter_cons, List.filter_cons, ih]

end

variable {s t : State} {p : Nat} {x y l : AccLine} {ls ms : List AccLine}

/-- Two lines lie at the same place. -/
def AccLine.Same (x y : AccLine) : Prop := x.bank = y.bank ∧ x.row = y.row ∧ x.col = y.col

theorem AccLine.isAt_iff : x.isAt l.bank l.row l.col = true ↔ x.Same l := by
  simp only [AccLine.isAt, Bool.and_eq_true, beq_iff_eq, AccLine.Same, and_assoc]

theorem AccLine.isAt_false (h : ¬ x.Same l) : x.isAt l.bank l.row l.col = false :=
  Bool.eq_false_iff.2 fun hat => h (AccLine.isAt_iff.1 hat)

/-- The line as it waits for room in the write buffer. -/
def AccLine.waits (c : Nat) (x : AccLine) : AccLine := { x with out := some c, stay := false }

/-- Line `l` has left the cache, or the first line at its place waits to be written back. -/
def WritesLine (l : AccLine) (ls ms : List AccLine) : Prop :=
  ms = ls.filter (fun x => !x.isAt l.bank l.row l.col) ∨ ∃ c, ms = updFirst (fun x => x.isAt l.bank l.row l.col) (AccLine.waits c) ls

/-- A cache in which every line that `pick` names leaves, or the first one at its place waits. -/
structure WritesBack (pick : AccLine → Bool) (ls ms : List AccLine) : Prop where
  kept : ms.filter (fun x => !pick x) = ls.filter fun x => !pick x
  waits : ∀ x ∈ ms, pick x = true → ∃ y ∈ ms, y.Same x ∧ y.out.isSome = true

section
variable {pick : AccLine → Bool} (hpick : ∀ x y : AccLine, x.Same y → pick x = pick y)
include hpick

theorem WritesLine.kept (h : WritesLine l ls ms) (hl : pick l = true) : ms.filter (fun x => !pick x) = ls.filter fun x => !pick x := by
  rcases h with rfl | ⟨c, rfl⟩
  · rw [List.filter_filter]
    refine List.filter_congr fun x _ => ?_
    by_cases hx : x.Same l
    · simp [hpick x l hx, hl]
    · simp [AccLine.isAt_false hx]
  · refine filter_updFirst fun a ha => ?_
    have hsame := AccLine.isAt_iff.1 ha
    have hwaits : pick (a.waits c) = pick a := hpick _ _ ⟨rfl, rfl, rfl⟩
    simp [hwaits, hpick a l hsame, hl]

omit hpick in
/-- What is left to write back after one line has been written back. -/
theorem WritesLine.waits (h : WritesLine l ls ms) {todo : List AccLine}
    (hls : ∀ x ∈ ls, pick x = true → (∃ z ∈ l :: todo, z.Same x) ∨ ∃ y ∈ ls, y.Same x ∧ y.out.isSome = true) :
    ∀ x ∈ ms, pick x = true → (∃ z ∈ todo, z.Same x) ∨ ∃ y ∈ ms, y.Same x ∧ y.out.isSome = true := by
  have hrest (x : AccLine) (hx : x ∈ ls) (hp : pick x = true) (hne : ¬ x.Same l) :
      (∃ z ∈ todo, z.Same x) ∨ ∃ y ∈ ls, y.Same x ∧ y.out.isSome = true := by
    rcases hls x hx hp with ⟨z, hz, hsame⟩ | hout
    · rcases List.mem_cons.1 hz with rfl | hz
      · obtain ⟨hb, hr, hc⟩ := hsame
        exact absurd ⟨hb.symm, hr.symm, hc.symm⟩ hne
      · exact .inl ⟨z, hz, hsame⟩
    · exact .inr hout
  have hother {x y : AccLine} (hy : y.Same x) (hne : ¬ x.Same l) : ¬ y.Same l := fun hyl =>
    hne ⟨hy.1.symm.trans hyl.1, hy.2.1.symm.trans hyl.2.1, hy.2.2.symm.trans hyl.2.2⟩
  intro x hx hp
  rcases h with rfl | ⟨c, rfl⟩
  · obtain ⟨hx, hnot⟩ := List.mem_filter.1 hx
    have hne : ¬ x.Same l := fun hsame => by
      rw [AccLine.isAt_iff.2 hsame] at hnot
      exact absurd hnot (by decide)
    rcases hrest x hx hp hne with htodo | ⟨y, hy, hsame, hout⟩
    · exact .inl htodo
    · exact .inr ⟨y, List.mem_filter.2 ⟨hy, by rw [AccLine.isAt_false (hother hsame hne)]; rfl⟩, hsame, hout⟩
  · by_cases hsame : x.Same l
    · obtain ⟨a, ha, hat⟩ : ∃ a ∈ ls, AccLine.isAt a l.bank l.row l.col = true := by
        rcases mem_updFirst hx with hx | ⟨a, ha, hat, -⟩
        · exact ⟨x, hx, AccLine.isAt_iff.2 hsame⟩
        · exact ⟨a, ha, hat⟩
      obtain ⟨b, -, hbat, hmem⟩ := exists_mem_updFirst (p := fun x => x.isAt l.bank l.row l.col) (g := AccLine.waits c) ha hat
      obtain ⟨hb, hr, hc⟩ := AccLine.isAt_iff.1 hbat
      exact .inr ⟨_, hmem, ⟨hb.trans hsame.1.symm, hr.trans hsame.2.1.symm, hc.trans hsame.2.2.symm⟩, rfl⟩
    · have hmem : x ∈ ls := by
        rcases mem_updFirst hx with hx | ⟨a, -, hat, rfl⟩
        · exact hx
        · exact absurd (AccLine.isAt_iff.1 hat) hsame
      rcases hrest x hmem hp hsame with htodo | ⟨y, hy, hyx, hout⟩
      · exact .inl htodo
      · exact .inr ⟨y, mem_updFirst_of_not hy (AccLine.isAt_false (hother hyx hsame)), hyx, hout⟩

end

theorem ChData.wbAdd_lines (d : ChData) (w : WBuf) : (d.wbAdd w).lines = d.lines := by
  unfold ChData.wbAdd
  dsimp only
  split
  · rfl
  · split <;> rfl

/-- The write-back of a line that is to leave the cache, on its own island. -/
theorem State.writeLine_writes (hwf : Tab.wf Slice.reset s.slices = true) (p : Nat) (l : AccLine) (c : Nat) :
    ∃ z, State.Island p z s (s.writeLine p l c false) ∧ WritesLine l (s.slice p).dat.lines z.dat.lines := by
  have hstart := State.Island.refl hwf p
  unfold State.writeLine
  dsimp only
  by_cases hdirty : l.dirty = true
  · rw [hdirty, Bool.not_true, if_neg (by decide)]
    by_cases hroom : ((s.slice p).dat.fow.isEmpty && (s.slice p).dat.wbRoom l.bank l.row l.col) = true
    · rw [if_pos hroom]
      have hdrop := (hstart.modDat fun d => if false = true then d.modLine l AccLine.clean else d.dropLine l.bank l.row l.col).modDat fun d =>
        d.wbAdd ⟨l.bank, l.row, l.col, rsEncode l.data, false, l.sub, c⟩
      exact ⟨_, hdrop.framed (State.count_frame ..), .inl (ChData.wbAdd_lines ..)⟩
    · rw [if_neg hroom]
      exact ⟨_, hstart.modDat fun d => d.modLine l fun x => { x with out := some c, stay := false }, .inr ⟨c, rfl⟩⟩
  · rw [Bool.eq_false_iff.2 hdirty, Bool.not_false, if_pos rfl, if_neg (by decide)]
    exact ⟨_, hstart.modDat fun d => d.dropLine l.bank l.row l.col, .inl rfl⟩

/-- All lines of an island that `pick` names are written back. -/
theorem State.writeBack_writes {pick : AccLine → Bool} (hpick : ∀ x y : AccLine, x.Same y → pick x = pick y)
    (hwf : Tab.wf Slice.reset s.slices = true) (p : Nat) :
    ∃ z, State.Island p z s (s.writeBack p pick false) ∧ WritesBack pick (s.slice p).dat.lines z.dat.lines := by
  have hfold (todo : List AccLine) : ∀ (t : State) (x : Slice), State.Island p x s t → (∀ l ∈ todo, pick l = true) →
      x.dat.lines.filter (fun x => !pick x) = (s.slice p).dat.lines.filter (fun x => !pick x) →
      (∀ y ∈ x.dat.lines, pick y = true → (∃ z ∈ todo, z.Same y) ∨ ∃ z ∈ x.dat.lines, z.Same y ∧ z.out.isSome = true) →
      ∃ z, State.Island p z s (t.each todo fun s l => s.writeLine p l s.fab.nextId false) ∧
        WritesBack pick (s.slice p).dat.lines z.dat.lines := by
    induction todo with
    | nil =>
      refine fun t x hx _ hkept hwaits => ⟨x, hx, hkept, fun y hy hp => ?_⟩
      rcases hwaits y hy hp with ⟨z, hz, -⟩ | hout
      · exact absurd hz List.not_mem_nil
      · exact hout
    | cons l todo ih =>
      intro t x hx hpicked hkept hwaits
      obtain ⟨z, hz, hwrites⟩ := State.writeLine_writes hx.wf p l t.fab.nextId
      rw [hx.here] at hwrites
      exact ih _ z (hx.trans hz) (fun m hm => hpicked m (List.mem_cons_of_mem _ hm))
        ((hwrites.kept hpick (hpicked l List.mem_cons_self)).trans hkept) (hwrites.waits hwaits)
  exact hfold _ s _ (.refl hwf p) (fun l hl => (List.mem_filter.1 hl).2) rfl
    fun y hy hp => .inl ⟨y, List.mem_filter.2 ⟨hy, hp⟩, rfl, rfl, rfl⟩

/-- Work on one island after the other, in states of one kind: each has what its own turn did. -/
theorem State.slice_each {f : State → Nat → State} {P : State → Prop} {Q : Nat → Slice → Slice → Prop}
    (hf : ∀ (t : State) p, P t → Tab.wf Slice.reset t.slices = true → P (f t p) ∧ ∃ z, State.Island p z t (f t p) ∧ Q p (t.slice p) z)
    {ps : List Nat} (hps : ps.Nodup) (hP : P s) (hwf : Tab.wf Slice.reset s.slices = true) :
    Tab.wf Slice.reset (s.each ps f).slices = true ∧ (∀ p ∈ ps, Q p (s.slice p) ((s.each ps f).slice p)) ∧
      ∀ p, p ∉ ps → (s.each ps f).slice p = s.slice p := by
  induction ps generalizing s with
  | nil => exact ⟨hwf, fun _ h => absurd h List.not_mem_nil, fun _ _ => rfl⟩
  | cons a ps ih =>
    obtain ⟨hnot, hnodup⟩ := List.nodup_cons.1 hps
    obtain ⟨hP', z, hz, hq⟩ := hf s a hP hwf
    obtain ⟨hwf', hdone, hkept⟩ := ih hnodup hP' hz.wf
    refine ⟨hwf', fun p hp => ?_, fun p hp => ?_⟩
    · rcases List.mem_cons.1 hp with rfl | hp
      · rw [State.each_cons, hkept _ hnot, hz.here]
        exact hq
      · have hne : p ≠ a := fun h => hnot (h ▸ hp)
        have := hdone p hp
        rw [hz.there p hne] at this
        exact this
    · obtain ⟨hne, hp⟩ := not_or.1 fun h => hp (List.mem_cons.2 h)
      exact (hkept p hp).trans (hz.there p hne)

/-- Lines are written back in every island. -/
theorem State.writeBackAll_writes {pick : Nat → AccLine → Bool} (hpick : ∀ p, ∀ x y : AccLine, x.Same y → pick p x = pick p y)
    (hwf : Tab.wf Slice.reset s.slices = true) :
    ∀ p, p < 144 → WritesBack (pick p) (s.slice p).dat.lines ((s.writeBackAll pick false).slice p).dat.lines := by
  have hstep (t : State) (p : Nat) (_ : True) (hwf : Tab.wf Slice.reset t.slices = true) :
      True ∧ ∃ z, State.Island p z t (if (t.slice p).dat.lines.isEmpty then t else t.writeBack p (pick p) false) ∧
        WritesBack (pick p) (t.slice p).dat.lines z.dat.lines := by
    refine ⟨trivial, ?_⟩
    split
    · next h =>
      refine ⟨_, .refl hwf p, rfl, fun x hx => ?_⟩
      rw [List.isEmpty_iff.1 h] at hx
      exact absurd hx List.not_mem_nil
    · exact State.writeBack_writes (hpick p) hwf p
  intro p hp
  obtain ⟨-, hdone, -⟩ := State.slice_each (P := fun _ => True) (Q := fun p x y => WritesBack (pick p) x.dat.lines y.dat.lines)
    (f := fun t p => if (t.slice p).dat.lines.isEmpty then t else t.writeBack p (pick p) false) (ps := List.range 144)
    hstep List.nodup_range trivial hwf
  unfold State.writeBackAll
  exact hdone p (List.mem_range.2 hp)

end Sys2Proof.Machine
end

section
/-! ### The units prepare a change (R199, R644, R805) -/

namespace Sys2Proof.Machine

variable {s t u : State} {m : ModeChg}

/-- The units have prepared a change, and of the control port crossing queues and counters alone have changed. -/
structure State.Readies (s t : State) : Prop where
  prepares : Prepares s t
  ctl : t.ctl = { s.ctl with tlm := t.ctl.tlm, icqs := t.ctl.icqs }

namespace State.Readies

theorem refl (s : State) : Readies s s := ⟨.refl s, rfl⟩

theorem trans (h1 : Readies s t) (h2 : Readies t u) : Readies s u := ⟨h1.prepares.trans h2.prepares, by rw [h2.ctl, h1.ctl]⟩

theorem ite {c : Prop} [Decidable c] (h1 : Readies s t) (h2 : Readies s u) : Readies s (if c then t else u) := by
  split
  · exact h1
  · exact h2

theorem each {α : Type} {f : State → α → State} (h : ∀ s a, Readies s (f s a)) (l : List α) (s : State) : Readies s (s.each l f) :=
  State.each_induct (P := Readies s) (fun t a ht => ht.trans (h t a)) l (refl s)

theorem modSlice (s : State) (p : Nat) (f : Slice → Slice) : Readies s (s.modSlice p f) := ⟨.modSlice .., rfl⟩

theorem stat (s : State) (page slot n : Nat) : Readies s (s.stat page slot n) := ⟨.stat .., by rw [State.stat, State.count_ctl]⟩

theorem icqPass (s : State) (q i : Nat) : Readies s (s.icqPass q i) := ⟨.icqPass .., rfl⟩

theorem writeLine (s : State) (p : Nat) (l : AccLine) (cause : Nat) (stay : Bool) : Readies s (s.writeLine p l cause stay) :=
  ite (ite (refl s) (modSlice ..)) (ite (((modSlice ..).trans (modSlice ..)).trans (stat ..)) (modSlice ..))

theorem writeBackAll (s : State) (pick : Nat → AccLine → Bool) (keep : Bool) : Readies s (s.writeBackAll pick keep) :=
  each (fun s p => ite (refl s) (each (fun s l => writeLine s p l _ keep) _ s)) _ s

theorem changeBack (s : State) (m : ModeChg) : Readies s (s.changeBack m) := by
  unfold State.changeBack
  split
  · exact writeBackAll ..
  · exact writeBackAll ..
  · exact refl s
  · exact refl s

theorem calYield (s : State) (p : Nat) : Readies s (s.calYield p) := ite ((modSlice ..).trans (stat ..)) (refl s)

theorem shadowRate (s : State) (rate : Nat) : Readies s (s.shadowRate rate) := each (fun s p => modSlice s p _) _ s

theorem prepareWords (s : State) : Readies s s.prepareWords :=
  ((icqPass ..).trans (icqPass ..)).trans (each (fun _ _ => (icqPass ..).trans (icqPass ..)) _ _)

end State.Readies

theorem State.prepareWords_frame (s : State) : Frame [.ctl] s s.prepareWords :=
  ((s.icqPass_frame 7 0).trans (State.icqPass_frame _ 7 1)).trans
    (State.each_frame _ fun t p => (t.icqPass_frame 3 p).trans (State.icqPass_frame _ 4 p))

/-- Change `m` as it stands when its prepare has begun in state `s`, and may have ended in `t`. -/
def State.preparing (s t : State) (m : ModeChg) : ModeChg :=
  { m with start := s.sys.ltc, acked := s.sys.ltc, ackd := t.backDone m && decide (s.crossTime 3 + s.crossTime 4 = 0) }

/-- The state with a change in progress, or with none. -/
def State.withMc (s : State) (c : Option ModeChg) : State := { s with mc := c }

@[simp] theorem State.withMc_mc (s : State) (c : Option ModeChg) : (s.withMc c).mc = c := rfl

@[simp] theorem State.withMc_ctl (s : State) (c : Option ModeChg) : (s.withMc c).ctl = s.ctl := rfl

/-- PREPARE has been sent, and the change stands as not acknowledged. -/
def State.prepareSent (s : State) (m : ModeChg) : State :=
  s.prepareWords.withMc (some { m with start := s.sys.ltc, acked := s.sys.ltc, ackd := false })

theorem State.prepareSent_frame (s : State) (m : ModeChg) : Frame [.mc, .ctl] s (s.prepareSent m) :=
  (s.prepareWords_frame.mono (by decide)).trans
    ((State.setMc_frame s.prepareWords (some { m with start := s.sys.ltc, acked := s.sys.ltc, ackd := false })).mono (by decide))

theorem State.prepareSent_mc (s : State) (m : ModeChg) :
    (s.prepareSent m).mc = some { m with start := s.sys.ltc, acked := s.sys.ltc, ackd := false } := by
  rw [State.prepareSent, State.withMc_mc]

theorem State.prepareSent_ctl (s : State) (m : ModeChg) :
    (s.prepareSent m).ctl = { s.ctl with tlm := (s.prepareSent m).ctl.tlm, icqs := (s.prepareSent m).ctl.icqs } := by
  rw [State.prepareSent, State.withMc_ctl]
  exact (Readies.prepareWords s).ctl

theorem State.crossTime_congr (h : t.det = s.det) (q : Nat) : t.crossTime q = s.crossTime q := by
  simp only [State.crossTime, h]

/-- The last unit acknowledges in the same tick where nothing is left to write back and nothing is longer on its way. -/
theorem State.ackTime_prepared (hmc : u.mc = some { m with start := s.sys.ltc, acked := s.sys.ltc, ackd := false })
    (hltc : u.sys.ltc = s.sys.ltc) (hdet : u.det = s.det) (hcommit : m.committed = false) :
    u.ackTime = { u with mc := some (s.preparing u m) } := by
  have hu : u = { u with mc := some { m with start := s.sys.ltc, acked := s.sys.ltc, ackd := false } } := by rw [← hmc]
  have hback : u.backDone { m with start := s.sys.ltc, acked := s.sys.ltc, ackd := false } = u.backDone m := rfl
  unfold State.ackTime State.preparing
  rw [hmc, hltc, State.crossTime_congr hdet, State.crossTime_congr hdet]
  dsimp only
  rw [hback, hcommit]
  by_cases hnow : (!u.backDone m) = true ∨ ¬ s.crossTime 3 + s.crossTime 4 = 0
  · have hwait : (false || false || !u.backDone m || decide (s.sys.ltc < s.sys.ltc + s.crossTime 3 + s.crossTime 4)) = true := by
      simp only [Bool.false_or, Bool.or_eq_true, decide_eq_true_eq]
      exact hnow.imp id fun h => by omega
    have hack : (u.backDone m && decide (s.crossTime 3 + s.crossTime 4 = 0)) = false := by
      rcases hnow with h | h
      · rw [Bool.not_eq_true'] at h
        rw [h, Bool.false_and]
      · rw [decide_eq_false h, Bool.and_false]
    rw [if_pos hwait, hack]
    rw [hcommit] at hu
    exact hu
  · obtain ⟨hdone, hzero⟩ := not_or.1 hnow
    have hdone' : u.backDone m = true := by simpa using hdone
    have hgo : ¬ (false || false || !u.backDone m || decide (s.sys.ltc < s.sys.ltc + s.crossTime 3 + s.crossTime 4)) = true := by
      simp only [hdone', Bool.not_true, Bool.or_self, Bool.false_or, decide_eq_true_eq]
      omega
    rw [if_neg hgo, hdone', decide_eq_true (not_not.1 hzero)]
    rfl

/-- A prepare whose units have got ready has begun. -/
theorem State.ackTime_readied (h : Readies (s.prepareSent m) u) (hcommit : m.committed = false) :
    u.ackTime = { u with mc := some (s.preparing u m) } ∧ Frame [.mc, .ctl, .evt, .mbx, .slices] s u.ackTime ∧
      u.ackTime.mbx = { s.mbx with irq := u.ackTime.mbx.irq } ∧
      u.ackTime.ctl = { s.ctl with tlm := u.ackTime.ctl.tlm, icqs := u.ackTime.ctl.icqs } := by
  have hsent := s.prepareSent_frame m
  have hctl := s.prepareSent_ctl m
  have hmc := s.prepareSent_mc m
  generalize s.prepareSent m = v at h hsent hctl hmc
  have hall : Frame [.mc, .ctl, .evt, .mbx, .slices] s u := (hsent.mono (by decide)).trans (h.prepares.frame.mono (by decide))
  have hack := State.ackTime_prepared (s := s) (m := m) ((h.prepares.frame.2 .mc (by decide)).trans hmc) (by rw [hall.2 .sys (by decide)])
    (hall.2 .det (by decide)) hcommit
  rw [hack]
  refine ⟨rfl, hall.trans ((State.setMc_frame ..).mono (by decide)), ?_, ?_⟩
  · exact h.prepares.mbx.trans (congrArg (fun x : Mbx => { x with irq := u.mbx.irq }) (hsent.2 .mbx (by decide)))
  · exact h.ctl.trans (congrArg (fun x : Ctl => { x with tlm := u.ctl.tlm, icqs := u.ctl.icqs }) hctl)

/-! #### A configuration change (R199, R805) -/

theorem State.reshapes_congr (hcfg : t.cfg = s.cfg) (hstk : t.stk = s.stk) (rs : List (BitVec 256)) : t.reshapes rs = s.reshapes rs := by
  funext p l
  simp only [State.reshapes, State.lineIn, hcfg, hstk]

theorem State.reshapes_same (s : State) (rs : List (BitVec 256)) (p : Nat) (x y : AccLine) (h : x.Same y) :
    s.reshapes rs p x = s.reshapes rs p y := by
  simp only [State.reshapes, State.lineIn, h.2.1]

theorem State.startChange_cfg (hwhat : m.what = .cfg) : s.startChange m =
    ((s.prepareSent m).writeBackAll ((s.prepareSent m).reshapes m.cfg.regions) false).ackTime := by
  unfold State.startChange State.prepareSent State.withMc
  generalize s.prepareWords = w
  rw [hwhat]
  dsimp only
  rw [State.changeBack, hwhat]

/-- Once the units have acknowledged no line of a region that the change reshapes is left, and no other line has gone. -/
theorem State.startChange_cfg_lines (hwhat : m.what = .cfg) (hcommit : m.committed = false)
    (hwf : Tab.wf Slice.reset s.slices = true) {t : State} (ht : s.startChange m = t) :
    t.mc = some (s.preparing t m) ∧
      (t.unitsAcked = true → ∀ p l, p < 144 → l ∈ (t.slice p).dat.lines → s.reshapes m.cfg.regions p l = false) ∧
      (∀ p, p < 144 → (t.slice p).dat.lines.filter (fun l => !s.reshapes m.cfg.regions p l) =
        (s.slice p).dat.lines.filter (fun l => !s.reshapes m.cfg.regions p l)) ∧
      t.mbx = { s.mbx with irq := t.mbx.irq } ∧ t.ctl = { s.ctl with tlm := t.ctl.tlm, icqs := t.ctl.icqs } ∧
      Frame [.mc, .ctl, .evt, .mbx, .slices] s t := by
  subst ht
  rw [State.startChange_cfg hwhat]
  have hsent := s.prepareSent_frame m
  have hcfg : (s.prepareSent m).cfg = s.cfg := hsent.2 .cfg (by decide)
  have hstk : (s.prepareSent m).stk = s.stk := hsent.2 .stk (by decide)
  have hslices : (s.prepareSent m).slices = s.slices := hsent.2 .slices (by decide)
  rw [State.reshapes_congr hcfg hstk]
  have hready := Readies.writeBackAll (s.prepareSent m) (s.reshapes m.cfg.regions) false
  have hwf' : Tab.wf Slice.reset (s.prepareSent m).slices = true := by
    rw [hslices]
    exact hwf
  have hlines := State.writeBackAll_writes (s.reshapes_same m.cfg.regions) hwf'
  have hcfg' := hready.prepares.frame.2 .cfg (by decide)
  have hstk' := hready.prepares.frame.2 .stk (by decide)
  generalize (s.prepareSent m).writeBackAll (s.reshapes m.cfg.regions) false = u at hready hlines hcfg' hstk'
  obtain ⟨hack, hframe, hmbx, hctl⟩ := State.ackTime_readied hready hcommit
  have hmc : u.ackTime.mc = some (s.preparing u.ackTime m) := by rw [hack]; rfl
  have hsame : u.ackTime.slices = u.slices := by rw [hack]
  have hcfgu : u.reshapes m.cfg.regions = s.reshapes m.cfg.regions := State.reshapes_congr (hcfg'.trans hcfg) (hstk'.trans hstk) _
  refine ⟨hmc, fun hacked p l hp hl => ?_, fun p hp => ?_, hmbx, hctl, hframe⟩
  · rw [State.slice_congr hsame] at hl
    by_contra hreshapes
    have htrue : s.reshapes m.cfg.regions p l = true := by simpa using hreshapes
    obtain ⟨y, hy, hyl, hout⟩ := (hlines p hp).waits l hl htrue
    have hdone : u.backDone m = true := by
      rw [State.unitsAcked, hack] at hacked
      exact ((Bool.and_eq_true ..).mp hacked).1
    rw [State.backDone, hwhat, hcfgu] at hdone
    have hall := List.all_eq_true.1 (List.all_eq_true.1 hdone p (List.mem_range.2 hp)) y hy
    rw [s.reshapes_same m.cfg.regions p y l hyl, htrue] at hall
    rw [Option.isSome_iff_ne_none] at hout
    simp [hout] at hall
  · rw [State.slice_congr hsame, (hlines p hp).kept, State.slice_congr hslices]

end Sys2Proof.Machine
end

section
/-! ### Rate and mode changes begin (R252, R253, R644, R805, R820, R823) -/

namespace Sys2Proof.Machine

variable {s t u : State} {m : ModeChg} {p : Nat}

/-- A slice whose calibration has yielded to a change to rate point `rate` of its layer, with the shadow timing written. -/
def Slice.shadowed (x : Slice) (tims : List Nat) (rate : Nat) : Slice :=
  { x with bt := { x.bt with tim2 := timingSet tims rate }, link := { x.link with calAct := false } }

/-- Calibration has yielded in every slice. -/
def State.calYields (s : State) : State := s.each (List.range 144) State.calYield

theorem State.Readies.calYields (s : State) : Readies s s.calYields := .each (fun t p => Readies.calYield t p) _ s

theorem State.slice_calYields (hwf : Tab.wf Slice.reset s.slices = true) :
    Tab.wf Slice.reset s.calYields.slices = true ∧ ∀ p, p < 144 →
      s.calYields.slice p = { s.slice p with link := { (s.slice p).link with calAct := false } } := by
  obtain ⟨hwf', hdone, -⟩ := State.slice_each (P := fun _ => True) (f := State.calYield)
    (Q := fun _ x y => y = { x with link := { x.link with calAct := false } }) (ps := List.range 144)
    (fun t p _ hwf => ⟨trivial, _, (State.Island.refl hwf p).calYield, rfl⟩) List.nodup_range trivial hwf
  exact ⟨hwf', fun p hp => hdone p (List.mem_range.2 hp)⟩

theorem State.slice_shadowRate (hwf : Tab.wf Slice.reset s.slices = true) (rate : Nat) (hp : p < 144) :
    (s.shadowRate rate).slice p =
      { s.slice p with bt := { (s.slice p).bt with tim2 := timingSet (s.stk.layer (layerOf p)).tims rate } } := by
  obtain ⟨-, hdone, -⟩ := State.slice_each (P := fun t => t.stk = s.stk)
    (f := fun t p => t.modBt p fun b => { b with tim2 := timingSet (t.stk.layer (layerOf p)).tims rate })
    (Q := fun p x y => y = { x with bt := { x.bt with tim2 := timingSet (s.stk.layer (layerOf p)).tims rate } }) (ps := List.range 144)
    (fun t p ht hwf => ⟨ht, _, (State.Island.refl hwf p).modSlice fun x =>
      { x with bt := { x.bt with tim2 := timingSet (t.stk.layer (layerOf p)).tims rate } }, by rw [ht]⟩) List.nodup_range rfl hwf
  unfold State.shadowRate
  exact hdone p (List.mem_range.2 hp)

theorem State.backDone_congr (hslices : t.slices = s.slices) (hcfg : t.cfg = s.cfg) (hstk : t.stk = s.stk) (m : ModeChg) :
    t.backDone m = s.backDone m := by
  simp only [State.backDone, State.slice_congr hslices, State.reshapes_congr hcfg hstk]

/-- What the change records of its prepare is as the units stand with it. -/
theorem State.ackTime_mc (hack : u.ackTime = { u with mc := some (s.preparing u m) }) : u.ackTime.mc = some (s.preparing u.ackTime m) := by
  have hback : u.ackTime.backDone m = u.backDone m := State.backDone_congr (by rw [hack]) (by rw [hack]) (by rw [hack]) m
  rw [State.preparing, hback, hack, State.preparing]

theorem State.startChange_rate (hwhat : m.what = .rate) (hrate : m.rate ≠ s.sys.rate) : s.startChange m =
    ((s.prepareSent m).calYields.shadowRate m.rate).ackTime := by
  unfold State.startChange State.prepareSent State.withMc State.calYields
  generalize s.prepareWords = w
  generalize List.range 144 = l
  rw [hwhat]
  dsimp only
  rw [if_neg hrate]

/-- Calibration yields to a rate change everywhere, and the shadow timing is written. -/
theorem State.startChange_rate_slices (hwhat : m.what = .rate) (hcommit : m.committed = false) (hrate : m.rate ≠ s.sys.rate)
    (hwf : Tab.wf Slice.reset s.slices = true) {t : State} (ht : s.startChange m = t) :
    t.mc = some (s.preparing t m) ∧
      (∀ p, p < 144 → t.slice p = (s.slice p).shadowed (s.stk.layer (layerOf p)).tims m.rate) ∧
      t.mbx = { s.mbx with irq := t.mbx.irq } ∧ t.ctl = { s.ctl with tlm := t.ctl.tlm, icqs := t.ctl.icqs } ∧
      Frame [.mc, .ctl, .evt, .mbx, .slices] s t := by
  subst ht
  rw [State.startChange_rate hwhat hrate]
  have hsent := s.prepareSent_frame m
  have hstk : (s.prepareSent m).stk = s.stk := hsent.2 .stk (by decide)
  have hslices : (s.prepareSent m).slices = s.slices := hsent.2 .slices (by decide)
  have hwf' : Tab.wf Slice.reset (s.prepareSent m).slices = true := by
    rw [hslices]
    exact hwf
  obtain ⟨hwfy, hyield⟩ := State.slice_calYields hwf'
  have hyields := Readies.calYields (s.prepareSent m)
  have hstk' : (s.prepareSent m).calYields.stk = (s.prepareSent m).stk := hyields.prepares.frame.2 .stk (by decide)
  have hready := hyields.trans (Readies.shadowRate _ m.rate)
  have hshadow (p : Nat) (hp : p < 144) := State.slice_shadowRate hwfy m.rate hp
  generalize (s.prepareSent m).calYields = v at hyield hstk' hready hshadow
  generalize v.shadowRate m.rate = u at hready hshadow
  obtain ⟨hack, hframe, hmbx, hctl⟩ := State.ackTime_readied hready hcommit
  have hsame : u.ackTime.slices = u.slices := by rw [hack]
  refine ⟨State.ackTime_mc hack, fun p hp => ?_, hmbx, hctl, hframe⟩
  rw [State.slice_congr hsame, hshadow p hp, hyield p hp, State.slice_congr hslices, hstk', hstk]
  rfl

/-- PREPARE changes crossing queues alone, whatever the mailbox holds. -/
theorem State.prepareWords_mbx (s : State) (x : Mbx) :
    ({ s with mbx := x } : State).prepareWords = { s with ctl := s.prepareWords.ctl, mbx := x } := by
  have hfold (l : List Nat) : ∀ t : State, t.mbx = s.mbx → t = { s with ctl := t.ctl } →
      ({ t with mbx := x } : State).each l (fun s p => (s.icqPass 3 p).icqPass 4 p) =
        { s with ctl := (t.each l fun s p => (s.icqPass 3 p).icqPass 4 p).ctl, mbx := x } := by
    induction l with
    | nil => exact fun t _ ht => congrArg (fun t : State => { t with mbx := x }) ht
    | cons p l ih =>
      exact fun t hmbx ht => ih ((t.icqPass 3 p).icqPass 4 p) hmbx
        (congrArg (fun u : State => { u with ctl := ((t.icqPass 3 p).icqPass 4 p).ctl }) ht)
  exact hfold (List.range 144) ((s.icqPass 7 0).icqPass 7 1) rfl rfl

theorem State.startChange_det (hwhat : m.what = .det) (s : State) : s.startChange m = (s.prepareSent m).ackTime := by
  unfold State.startChange State.prepareSent State.withMc
  generalize s.prepareWords = w
  rw [hwhat]

end Sys2Proof.Machine
end

section
/-! ### CFG_COMMIT, RATE_SET and DET_SET (R816, R820, R822) -/

namespace Sys2Proof.Machine

variable {s t : State} {m : ModeChg}

/-- The second check of a command that fails ends it with its code. -/
theorem checked_fail_second {masks : List Nat} {e e' : BitVec 8} {a b : Bool} {cs : List (Bool × BitVec 8)} {go : State → State}
    (hargs : s.takeDoorbell.argsBad masks = false) (ha : a = false) (hb : b = true) :
    s.takeDoorbell.checked masks ((a, e) :: (b, e') :: cs) go = { s with mbx := s.answer e' [] } := by
  rw [checked_pass _ _ _ _ _ ha, takeDoorbell_checked_fail hargs hb]

/-- The third one. -/
theorem checked_fail_third {masks : List Nat} {e e' e'' : BitVec 8} {a b c : Bool} {cs : List (Bool × BitVec 8)} {go : State → State}
    (hargs : s.takeDoorbell.argsBad masks = false) (ha : a = false) (hb : b = false) (hc : c = true) :
    s.takeDoorbell.checked masks ((a, e) :: (b, e') :: (c, e'') :: cs) go = { s with mbx := s.answer e'' [] } := by
  rw [checked_pass _ _ _ _ _ ha, checked_fail_second hargs hb hc]

/-- Outside a gang, or not as its master, a change begins here alone. -/
theorem State.beginChange_alone (h : (s.isMaster && s.gangOn) = false) (op : BitVec 8) (arg crc : Word) (img : List Word) :
    s.beginChange m op arg crc img = s.startChange m := by
  unfold State.beginChange
  rw [h]
  rfl

theorem takeDoorbell_alone (h : (s.isMaster && s.gangOn) = false) : (s.takeDoorbell.isMaster && s.takeDoorbell.gangOn) = false := h

/-! #### CFG_COMMIT -/

section
variable (hr : s.Rings 0x10 false) (ha : s.takeDoorbell.argsBad [] = false)
include hr ha

theorem exec_cfgCommit_state (hn : s.noChannels = true) : exec .cfgCommit s = .next { s with mbx := s.answer eState [] } := by
  rw [exec_of_rings hr rfl, State.cmdCfgCommit]
  exact congrArg _ (takeDoorbell_checked_fail ha hn)

theorem exec_cfgCommit_busy (hn : s.noChannels = false) (hm : s.modechg = true) :
    exec .cfgCommit s = .next { s with mbx := s.answer eBusy [] } := by
  rw [exec_of_rings hr rfl, State.cmdCfgCommit]
  exact congrArg _ (checked_fail_second ha hn hm)

theorem exec_cfgCommit_fails {e : BitVec 8} (hn : s.noChannels = false) (hm : s.modechg = false)
    (hc : s.commitCheck s.ctl.staging = .inl e) : exec .cfgCommit s = .next { s with mbx := s.answer e [] } := by
  rw [exec_of_rings hr rfl, State.cmdCfgCommit, checked_of_pass ha (by simp [hn, hm]), takeDoorbell_commitCheck, takeDoorbell_ctl, hc]
  exact congrArg _ (finish_takeDoorbell ..)

end

/-! #### RATE_SET -/

/-- No other change keeps the command from its own. -/
theorem rateSet_free (hp : s.isPending 0x20 = false)
    (hfree : (s.takeDoorbell.argf 0 0 2 = s.sys.rate ∧ s.carries = false) ∨ s.rateWaits = true ∨ s.modechg = false) :
    (s.takeDoorbell.isPending 0x20 || (!(s.takeDoorbell.argf 0 0 2 == s.takeDoorbell.sys.rate && !s.takeDoorbell.carries) &&
    !s.takeDoorbell.rateWaits && s.takeDoorbell.modechg)) = false := by
  rw [takeDoorbell_isPending, takeDoorbell_sys, takeDoorbell_carries, takeDoorbell_rateWaits, takeDoorbell_modechg, hp]
  rcases hfree with ⟨hrate, hc⟩ | hw | hm
  · simp [hrate, hc]
  · simp [hw]
  · simp [hm]

section
variable (hr : s.Rings 0x20 false) (ha : s.takeDoorbell.argsBad [3] = false)
include hr ha

theorem exec_rateSet_state (hb : s.rateBad = true) : exec .rateSet s = .next { s with mbx := s.answer eState [] } := by
  rw [exec_of_rings hr rfl, State.cmdRateSet]
  exact congrArg _ (takeDoorbell_checked_fail ha hb)

theorem exec_rateSet_busy (hb : s.rateBad = false)
    (hbusy : s.isPending 0x20 = true ∨ ((s.takeDoorbell.argf 0 0 2 ≠ s.sys.rate ∨ s.carries = true) ∧ s.rateWaits = false ∧ s.modechg = true)) :
    exec .rateSet s = .next { s with mbx := s.answer eBusy [] } := by
  rw [exec_of_rings hr rfl, State.cmdRateSet]
  refine congrArg _ (checked_fail_second ha hb ?_)
  rw [takeDoorbell_isPending, takeDoorbell_sys, takeDoorbell_carries, takeDoorbell_rateWaits, takeDoorbell_modechg]
  rcases hbusy with hp | ⟨hrate, hw, hm⟩
  · rw [hp, Bool.true_or]
  · have hother : (s.takeDoorbell.argf 0 0 2 == s.sys.rate && !s.carries) = false := by
      rcases hrate with hrate | hc
      · rw [beq_eq_false_iff_ne.2 hrate, Bool.false_and]
      · rw [hc, Bool.not_true, Bool.and_false]
    rw [hother, hw, hm]
    exact Bool.or_true _

section
variable (hb : s.rateBad = false) (hp : s.isPending 0x20 = false)
  (hfree : (s.takeDoorbell.argf 0 0 2 = s.sys.rate ∧ s.carries = false) ∨ s.rateWaits = true ∨ s.modechg = false)
include hb hp hfree

theorem exec_rateSet_notsup (hsup : s.stk.rates.testBit (s.takeDoorbell.argf 0 0 2) = false) :
    exec .rateSet s = .next { s with mbx := s.answer eNotsup [] } := by
  rw [exec_of_rings hr rfl, State.cmdRateSet]
  exact congrArg _ (checked_fail_third ha hb (rateSet_free hp hfree) (by simp [hsup]))

theorem exec_rateSet_pending (hsup : s.stk.rates.testBit (s.takeDoorbell.argf 0 0 2) = true)
    (hrate : s.takeDoorbell.argf 0 0 2 ≠ s.sys.rate ∨ s.carries = true) (hw : s.rateWaits = true) :
    exec .rateSet s = .next (s.takeDoorbell.finishPending []) := by
  have hsame : ¬ (s.takeDoorbell.argf 0 0 2 == s.takeDoorbell.sys.rate && !s.takeDoorbell.carries) = true := by
    simpa [imp_iff_not_or] using hrate
  have hfree := rateSet_free hp hfree
  rw [exec_of_rings hr rfl, State.cmdRateSet]
  rw [checked_of_pass ha (by
    intro c hc
    simp only [List.mem_cons, List.not_mem_nil, or_false] at hc
    rcases hc with rfl | rfl | rfl
    · exact hb
    · exact hfree
    · simp [hsup]), if_neg hsame, takeDoorbell_rateWaits, if_pos hw]

end

end

/-- The copy of a command is that command. -/
theorem copyCmd_of_rings {op : Nat} {quant : Bool} (hr : s.Rings op quant) : s.mbx.cmd.setWidth 8 = BitVec.ofNat 8 op := by
  obtain ⟨-, hop, -⟩ := hr
  refine BitVec.eq_of_toNat_eq ?_
  have hcmd : s.mbx.cmd.toNat % 2 ^ 8 = op := hop
  rw [BitVec.toNat_setWidth, BitVec.toNat_ofNat, hcmd, ← hcmd, Nat.mod_mod]

/-- Acceptance with PENDING, for a command that has rung. -/
theorem finishPending_takeDoorbell {op : Nat} {quant : Bool} (hr : s.Rings op quant) (todo : List Nat) :
    s.takeDoorbell.finishPending todo = { s with mbx := { s.answer eOk [] with
      pend := true, pending := s.mbx.pending ++ [⟨BitVec.ofNat 8 op, (List.range 16).map s.takeDoorbell.arg, todo⟩] } } := by
  rw [← copyCmd_of_rings hr]
  rfl

/-! #### DET_SET -/

/-- The first two checks pass. -/
theorem detSet_allowed (hn : s.takeDoorbell.argf 0 0 2 < 3) (hch : s.noChannels = false)
    (ht : s.takeDoorbell.argf 0 0 2 = 2 → s.timingBad = false) :
    (s.takeDoorbell.argf 0 0 2 == 3) = false ∧
    (s.takeDoorbell.noChannels || (s.takeDoorbell.argf 0 0 2 == 2 && s.takeDoorbell.timingBad)) = false := by
  refine ⟨beq_eq_false_iff_ne.2 (by omega), ?_⟩
  rw [takeDoorbell_noChannels, takeDoorbell_timingBad, hch]
  by_cases h2 : s.takeDoorbell.argf 0 0 2 = 2
  · simp [h2, ht h2]
  · simp [h2]

section
variable (hr : s.Rings 0x21 false) (ha : s.takeDoorbell.argsBad [3] = false)
include hr ha

theorem exec_detSet_range (hn : s.takeDoorbell.argf 0 0 2 = 3) : exec .detSet s = .next { s with mbx := s.answer eRange [] } := by
  rw [exec_of_rings hr rfl, State.cmdDetSet]
  exact congrArg _ (takeDoorbell_checked_fail ha (beq_iff_eq.2 hn))

theorem exec_detSet_state (hn : s.takeDoorbell.argf 0 0 2 < 3)
    (hbad : s.noChannels = true ∨ (s.takeDoorbell.argf 0 0 2 = 2 ∧ s.timingBad = true)) :
    exec .detSet s = .next { s with mbx := s.answer eState [] } := by
  have h3 : (s.takeDoorbell.argf 0 0 2 == 3) = false := beq_eq_false_iff_ne.2 (by omega)
  rw [exec_of_rings hr rfl, State.cmdDetSet]
  refine congrArg _ (checked_fail_second ha h3 ?_)
  rw [takeDoorbell_noChannels, takeDoorbell_timingBad]
  simpa using hbad

section
variable (hn : s.takeDoorbell.argf 0 0 2 < 3) (hch : s.noChannels = false) (ht : s.takeDoorbell.argf 0 0 2 = 2 → s.timingBad = false)
include hn hch ht

theorem exec_detSet_busy (hm : s.modechg = true)
    (hother : s.takeDoorbell.argf 0 0 2 = 2 ∨ modeOf (s.takeDoorbell.argf 0 0 2) ≠ s.det.mode ∨ s.carries = true) :
    exec .detSet s = .next { s with mbx := s.answer eBusy [] } := by
  obtain ⟨h3, hstate⟩ := detSet_allowed hn hch ht
  rw [exec_of_rings hr rfl, State.cmdDetSet]
  refine congrArg _ (checked_fail_third ha h3 hstate ?_)
  rw [takeDoorbell_det, takeDoorbell_carries, takeDoorbell_modechg, hm]
  rcases hother with h2 | hmode | hc
  · simp [h2]
  · simp [hmode]
  · simp [hc]

theorem exec_detSet_badarg (hm : s.modechg = false) (hsat : s.cfg.satEqual = false)
    (hother : s.takeDoorbell.argf 0 0 2 = 2 ∨ (s.takeDoorbell.argf 0 0 2 = 1 ∧ (modeOf (s.takeDoorbell.argf 0 0 2) ≠ s.det.mode ∨ s.carries = true))) :
    exec .detSet s = .next { s with mbx := s.answer eBadarg [] } := by
  obtain ⟨h3, hstate⟩ := detSet_allowed hn hch ht
  rw [exec_of_rings hr rfl, State.cmdDetSet]
  dsimp only
  rw [checked_of_pass ha (by
    intro c hc
    simp only [List.mem_cons, List.not_mem_nil, or_false] at hc
    rcases hc with rfl | rfl | rfl
    · exact h3
    · exact hstate
    · simp [hm])]
  refine congrArg _ ?_
  rcases hother with h2 | ⟨h1, hother⟩
  · rw [if_pos h2, if_pos (by simp [hsat]), finish_takeDoorbell]
  · have hsame : ¬ (s.takeDoorbell.argf 0 0 2 != 2 && modeOf (s.takeDoorbell.argf 0 0 2) == s.takeDoorbell.det.mode &&
        !s.takeDoorbell.carries) = true := by
      simpa [h1, imp_iff_not_or] using h1 ▸ hother
    rw [if_neg (by omega), if_neg hsame, if_pos (by simp [h1, hsat]), finish_takeDoorbell]

end

end

/-- A change of mode alone begins with the words of its prepare. -/
theorem startChange_det_takeDoorbell (hwhat : m.what = .det) (hcommit : m.committed = false) : s.takeDoorbell.startChange m = { s with
    mc := some (s.preparing s m), ctl := s.prepareWords.ctl, mbx := s.busyWith none } := by
  have hsent : s.takeDoorbell.prepareWords = { s with ctl := s.prepareWords.ctl, mbx := s.busyWith none } := s.prepareWords_mbx (s.busyWith none)
  rw [State.startChange_det hwhat, State.ackTime_prepared (s := s.takeDoorbell) (m := m) (State.prepareSent_mc ..)
    (congrArg Sys.ltc ((State.prepareSent_frame ..).2 .sys (by decide))) ((State.prepareSent_frame ..).2 .det (by decide)) hcommit,
    State.prepareSent, hsent]
  have hback (u : State) : u.backDone m = true := by
    unfold State.backDone
    rw [hwhat]
  simp only [State.preparing, hback, State.withMc]
  rfl

/-- Settles O49: the first check that fails answers, and a command that passes them begins its change. -/
theorem changesStarted : Obligations.ChangesStarted := by
  unfold Obligations.ChangesStarted
  intro s ⟨_, _, hwf, _⟩ r n alone mc
  have hlow3 (h : n < 2) : s.takeDoorbell.argf 0 0 2 < 3 := Nat.lt_succ_of_lt h
  have htwo3 (h : n = 2) : s.takeDoorbell.argf 0 0 2 < 3 := Nat.lt_of_le_of_lt (Nat.le_of_eq h) (by decide)
  have hlow2 (h : n < 2) : s.takeDoorbell.argf 0 0 2 = 2 → s.timingBad = false := fun h2 => absurd h2 (Nat.ne_of_lt h)
  refine ⟨fun hr ha => ⟨exec_cfgCommit_state hr ha, exec_cfgCommit_busy hr ha, fun e hn hm hc => exec_cfgCommit_fails hr ha hn hm hc,
      fun c hn hc hm halone => ?_⟩,
    fun hr ha => ⟨exec_rateSet_state hr ha, exec_rateSet_busy hr ha, fun hb hp hfree => ⟨exec_rateSet_notsup hr ha hb hp hfree,
      fun hsup => ⟨exec_rateSet_same hr ha hb hp hsup, fun hrate hw => ?_, fun hrate hw hm halone => ?_⟩⟩⟩,
    fun hr ha => ⟨exec_detSet_range hr ha, exec_detSet_state hr ha, fun h2 hch ht =>
        ⟨fun hm => exec_detSet_busy hr ha (htwo3 h2) hch (fun _ => ht) hm (.inl h2),
          fun hm hsat => exec_detSet_badarg hr ha (htwo3 h2) hch (fun _ => ht) hm hsat (.inl h2), fun hm hsat => ?_⟩,
      fun hlow hch => ⟨exec_detSet_same hr ha hch hlow, fun hother hm => exec_detSet_busy hr ha (hlow3 hlow) hch (hlow2 hlow) hm (.inr hother),
        fun hother hm h1 hsat => exec_detSet_badarg hr ha (hlow3 hlow) hch (hlow2 hlow) hm hsat (.inr ⟨h1, hother⟩), fun hother hsat hm halone => ?_⟩⟩⟩
  · have hexec := exec_cfgCommit hr ha hn hm hc
    rw [State.beginChange_alone (takeDoorbell_alone halone)] at hexec
    generalize ht : s.takeDoorbell.startChange _ = t at hexec
    obtain ⟨hmc, hacked, hkept, hmbx, hctl, hframe⟩ := State.startChange_cfg_lines (s := s.takeDoorbell)
      (m := { ModeChg.reset with what := .cfg, cfg := c, opc := 0x10 }) rfl rfl hwf ht
    exact ⟨_, hexec, hmc, hacked, hkept, hmbx, hctl, ((takeDoorbell_frame s).mono (by decide)).trans (hframe.mono (by decide))⟩
  · rw [exec_rateSet_pending hr ha hb hp hfree hsup hrate hw, finishPending_takeDoorbell hr]
    rfl
  · have hexec := exec_rateSet_begins hr ha hb hp hsup (.inl hrate) hw hm
    rw [State.startRate, State.beginChange_alone (takeDoorbell_alone halone)] at hexec
    generalize ht : s.takeDoorbell.startChange _ = t at hexec
    obtain ⟨hmc, hslices, hmbx, hctl, hframe⟩ := State.startChange_rate_slices (s := s.takeDoorbell)
      (m := { ModeChg.reset with what := .rate, rate := n, opc := 0x20, pend := false }) rfl rfl hrate hwf ht
    exact ⟨_, hexec, hmc, hmbx, hctl, hslices, ((takeDoorbell_frame s).mono (by decide)).trans (hframe.mono (by decide))⟩
  · have htells : s.Tells s.beginAlign 7 0 (.admHold 3) (s.beginAlign.fab = { s.fab with hold := insertNat 3 s.fab.hold })
        (s.beginAlign.fab = s.fab) ∧ s.beginAlign.ctl = { (s.icqPass 7 0).ctl with words := s.beginAlign.ctl.words } := by
      unfold State.Tells State.beginAlign
      have hseen : s.aligning.icqSeen 7 0 = s.icqSeen 7 0 := State.icqSeen_of_mode rfl rfl rfl
      by_cases h : s.icqSeen 7 0 ≤ s.sys.ltc
      · rw [if_pos h, State.holdAdm_of_seen (s := s.aligning) (by rw [hseen]; exact h)]
        exact ⟨⟨rfl, rfl⟩, rfl⟩
      · rw [if_neg h, State.holdAdm_of_unseen (s := s.aligning) (by rw [hseen]; exact h), hseen]
        exact ⟨⟨rfl, rfl⟩, rfl⟩
    have hmbx : s.beginAlign.mbx = s.busyWith (some ⟨0x21, 2, 0, [], []⟩) :=
      congrArg (fun x : Mbx => { x with run := some ⟨0x21, 2, 0, [], []⟩ }) ((s.aligning.holdAdm_frame 3).2 .mbx (by decide))
    exact ⟨_, exec_detSet_timing hr ha hch h2 ht hsat hm, s.beginAlign_det, htells.1, htells.2, hmbx, s.beginAlign_frame⟩
  · rw [exec_detSet_begins hr ha hch hlow hother hsat hm, State.beginChange_alone (takeDoorbell_alone halone),
      startChange_det_takeDoorbell rfl rfl]
    rfl

end Sys2Proof.Machine
end

section
/-! ### Holds and timing sets of the islands (R244, R248, R253) -/

namespace Sys2Proof.Machine

variable {s t u : State} {ps : List Nat}

/-- Between `s` and `t` every slice has kept its timing set, and every slice but those of `ps` its holds. -/
structure State.SameTiming (ps : List Nat) (s t : State) : Prop where
  slices : Tab.wf Slice.reset s.slices = true → Tab.wf Slice.reset t.slices = true ∧ ∀ p,
    (t.slice p).bt.tim = (s.slice p).bt.tim ∧ (p ∉ ps → (t.slice p).sch.held = (s.slice p).sch.held)

namespace State.SameTiming

theorem refl (s : State) : SameTiming ps s s := ⟨fun h => ⟨h, fun _ => ⟨rfl, fun _ => rfl⟩⟩⟩

theorem trans (h1 : SameTiming ps s t) (h2 : SameTiming ps t u) : SameTiming ps s u := by
  refine ⟨fun h => ?_⟩
  obtain ⟨ht, hst⟩ := h1.slices h
  obtain ⟨hu, htu⟩ := h2.slices ht
  exact ⟨hu, fun p => ⟨(htu p).1.trans (hst p).1, fun hp => ((htu p).2 hp).trans ((hst p).2 hp)⟩⟩

theorem of_slices (h : t.slices = s.slices) : SameTiming ps s t :=
  ⟨fun hwf => ⟨by rw [h]; exact hwf, fun p => by rw [State.slice_congr h]; exact ⟨rfl, fun _ => rfl⟩⟩⟩

theorem of_frame {qs : List Part} (h : Frame qs s t) (hqs : Part.slices ∉ qs := by decide) : SameTiming ps s t := of_slices (h.2 _ hqs)

theorem ite {c : Prop} [Decidable c] (h1 : SameTiming ps s t) (h2 : SameTiming ps s u) : SameTiming ps s (if c then t else u) := by
  split
  · exact h1
  · exact h2

theorem each {α : Type} {f : State → α → State} {l : List α} (h : ∀ s, ∀ a ∈ l, SameTiming ps s (f s a)) (s : State) :
    SameTiming ps s (s.each l f) := by
  induction l generalizing s with
  | nil => exact refl s
  | cons a l ih => exact (h s a List.mem_cons_self).trans (ih (fun t b hb => h t b (List.mem_cons_of_mem _ hb)) _)

theorem modSlice (s : State) (p : Nat) {f : Slice → Slice}
    (hf : ∀ x, (f x).bt.tim = x.bt.tim ∧ (p ∉ ps → (f x).sch.held = x.sch.held)) : SameTiming ps s (s.modSlice p f) := by
  refine ⟨fun h => ⟨State.modSlice_wf h f, fun j => ?_⟩⟩
  by_cases hj : j = p
  · rw [hj, State.slice_modSlice h]
    exact hf _
  · rw [State.slice_modSlice_ne _ _ hj]
    exact ⟨rfl, fun _ => rfl⟩

theorem modRf (s : State) (p : Nat) (f : Refr → Refr) : SameTiming ps s (s.modRf p f) := modSlice s p fun _ => ⟨rfl, fun _ => rfl⟩

theorem modDat (s : State) (p : Nat) (f : ChData → ChData) : SameTiming ps s (s.modDat p f) := modSlice s p fun _ => ⟨rfl, fun _ => rfl⟩

theorem modLink (s : State) (p : Nat) (f : Link → Link) : SameTiming ps s (s.modLink p f) := modSlice s p fun _ => ⟨rfl, fun _ => rfl⟩

theorem stat (s : State) (page slot n : Nat) : SameTiming ps s (s.stat page slot n) := of_frame (State.count_frame ..)

theorem settleRefresh (s : State) (p : Nat) : SameTiming ps s (s.settleRefresh p) := each (fun _ _ _ => modRf ..) s

theorem settleBands (s : State) : SameTiming ps s s.settleBands := each (fun _ _ _ => settleRefresh ..) s

theorem reband (s : State) (p : Nat) (reading : BitVec 16) (subst : Bool) : SameTiming ps s (s.reband p reading subst) := by
  have hset : SameTiming ps s ((s.settleRefresh p).modRf p fun r =>
      { r with band := nextBand reading (s.slice p).rf.band s.minMult, subst := subst, read := reading }) :=
    (settleRefresh ..).trans (modRf ..)
  exact ite (modRf ..) (ite hset (hset.trans ((modRf ..).trans (stat ..))))

theorem writeLine (s : State) (p : Nat) (l : AccLine) (cause : Nat) (stay : Bool) : SameTiming ps s (s.writeLine p l cause stay) :=
  ite (ite (refl s) (modDat ..)) (ite (((modDat ..).trans (modDat ..)).trans (stat ..)) (modDat ..))

theorem writeBackAll (s : State) (pick : Nat → AccLine → Bool) (keep : Bool) : SameTiming ps s (s.writeBackAll pick keep) :=
  each (fun s p _ => ite (refl s) (each (fun s l _ => writeLine s p l _ keep) _)) s

theorem changeBack (s : State) (m : ModeChg) : SameTiming ps s (s.changeBack m) := by
  unfold State.changeBack
  split
  · exact writeBackAll ..
  · exact writeBackAll ..
  · exact refl s
  · exact refl s

theorem rateGo (s : State) (p : Nat) : SameTiming ps s (s.rateGo p) := by
  have hbank (t : State) (f : BankSet → BankSet) (hf : ∀ b, (f b).tim = b.tim) : SameTiming ps t (t.modBt p f) :=
    modSlice t p fun x => ⟨hf x.bt, fun _ => rfl⟩
  have hrefr (t : State) : SameTiming ps t (t.srxRefresh p) := by
    unfold State.srxRefresh State.srx
    exact (each (fun u i _ => modRf u p _) t).trans (hbank _ _ fun b => rfl)
  unfold State.rateGo State.sendRow
  exact ((modLink ..).trans (hrefr _)).trans (hbank _ _ fun b => rfl)

theorem rateTrims (s : State) : SameTiming ps s s.rateTrims := each (f := fun s p => (s.takeTrims p).dueIfDerived p) (fun s p _ => (modLink s p fun _ => _).trans (modLink (s.takeTrims p) p fun _ => _)) s

theorem unholdChan (s : State) {p : Nat} (hp : p ∈ ps) : SameTiming ps s (s.unholdChan p) := by
  have hpass : SameTiming ps s (s.icqPass 3 p) := of_frame (s.icqPass_frame 3 p)
  unfold State.unholdChan
  by_cases h : s.icqSeen 3 p ≤ s.sys.ltc
  · rw [State.tell_of_seen h]
    exact hpass.trans (modSlice _ p (f := fun x => { x with sch := { x.sch with held := x.sch.held - 1 } }) fun x => ⟨rfl, fun hn => absurd hp hn⟩)
  · rw [State.tell_of_unseen h]
    exact hpass.trans (of_frame (State.modCtl_frame ..))

end State.SameTiming

/-- Each hold of a list of channels counts in its channel, and nothing else has changed. -/
theorem State.slice_each_hold (hwf : Tab.wf Slice.reset s.slices = true) (ps : List Nat) {t : State}
    (ht : s.each ps (fun s p => s.noteWord (.hold p)) = t) :
    (∀ p ∈ ps, (s.slice p).sch.held < (t.slice p).sch.held) ∧ (∀ p, p ∉ ps → t.slice p = s.slice p) ∧ Frame [.slices] s t := by
  have hframe : Frame [.slices] s (s.each ps fun s p => s.noteWord (.hold p)) := State.each_frame _ fun t p => t.modSlice_frame ..
  subst ht
  refine ⟨?_, ?_, hframe⟩
  · suffices h : ∀ p, (s.slice p).sch.held + ps.count p = ((s.each ps fun s p => s.noteWord (.hold p)).slice p).sch.held by
      intro p hp
      have := List.count_pos_iff.2 hp
      have := h p
      omega
    intro p
    clear hframe
    induction ps generalizing s with
    | nil => rfl
    | cons a ps ih =>
      rw [State.each_cons, ← ih (s := s.noteWord (.hold a)) (State.modSlice_wf hwf _), List.count_cons]
      by_cases hp : p = a
      · rw [hp, State.noteWord, State.modSch, State.slice_modSlice hwf]
        simp only [beq_self_eq_true, if_true]
        omega
      · rw [State.noteWord, State.modSch, State.slice_modSlice_ne _ _ hp, if_neg (by simpa using fun h => hp h.symm)]
        omega
  · intro p hp
    clear hframe
    induction ps generalizing s with
    | nil => rfl
    | cons a ps ih =>
      obtain ⟨hpa, hps⟩ := List.ne_and_not_mem_of_not_mem_cons hp
      rw [State.each_cons, ih (s := s.noteWord (.hold a)) (State.modSlice_wf hwf _) hps]
      exact State.slice_modSlice_ne _ _ hpa

end Sys2Proof.Machine
end

section
/-! ### The commit boundary (R293, R312, R808) -/

namespace Sys2Proof.Machine

variable {s t u : State} {m : ModeChg}

/-- Between `s` and `t` times of periods, counts and what copies have read ahead have moved, and of the crossing queues their
places; nothing that a change puts back has. -/
structure State.Meets (s t : State) : Prop where
  meters : t.fab.meters = s.fab.meters
  buckets : t.fab.buckets = s.fab.buckets
  progs : t.fab.progs = s.fab.progs
  stk : t.stk = { s.stk with migs := t.stk.migs }
  counted : Counted s t
  frame : Frame [.fab, .stk, .ctl, .evt, .mbx] s t

namespace State.Meets

theorem refl (s : State) : Meets s s := ⟨rfl, rfl, rfl, rfl, .refl s, .refl ..⟩

theorem trans (h1 : Meets s t) (h2 : Meets t u) : Meets s u :=
  ⟨h2.meters.trans h1.meters, h2.buckets.trans h1.buckets, h2.progs.trans h1.progs, by rw [h2.stk, h1.stk], h1.counted.trans h2.counted,
    h1.frame.trans h2.frame⟩

theorem ite {c : Prop} [Decidable c] (h1 : Meets s t) (h2 : Meets s u) : Meets s (if c then t else u) := by
  split
  · exact h1
  · exact h2

theorem of_countsOnly (h : CountsOnly s t) : Meets s t := by
  have hfab : t.fab = s.fab := h.frame.2 .fab (by decide)
  have hstk : t.stk = s.stk := h.frame.2 .stk (by decide)
  exact ⟨by rw [hfab], by rw [hfab], by rw [hfab], by rw [hstk], h.counted, h.frame.mono (by decide)⟩

theorem modFab (s : State) {f : Fab → Fab} (hf : (f s.fab).meters = s.fab.meters ∧ (f s.fab).buckets = s.fab.buckets ∧
    (f s.fab).progs = s.fab.progs) : Meets s (s.modFab f) :=
  ⟨hf.1, hf.2.1, hf.2.2, rfl, .of_frame (s.modFab_frame f) (by decide) (by decide), (s.modFab_frame f).mono (by decide)⟩

theorem modMigs (s : State) (f : List Mig → List Mig) : Meets s (s.modStk fun k => { k with migs := f k.migs }) :=
  ⟨rfl, rfl, rfl, rfl, .of_frame (s.modStk_frame _) (by decide) (by decide), (s.modStk_frame _).mono (by decide)⟩

theorem periodStart (s : State) : Meets s s.periodStart :=
  ite (refl s) ((modFab s ⟨rfl, rfl, rfl⟩).trans (modMigs ..))

theorem queueSample (s : State) : Meets s s.queueSample := by
  by_cases h : s.refillNow / 400 * 400 = s.fab.sampled
  · unfold State.queueSample
    dsimp only
    rw [if_pos h]
    exact refl s
  · exact (modFab s ⟨rfl, rfl, rfl⟩).trans (of_countsOnly (State.queueSample_counts h))

theorem meetPeriods (s : State) : Meets s s.meetPeriods := ite ((periodStart s).trans (queueSample _)) (refl s)

end State.Meets

end Sys2Proof.Machine
end

section
/-! ### What the units take at the commit boundary (R199, R707, R732, R808) -/

namespace Sys2Proof.Machine

variable {s t u : State} {m : ModeChg}

theorem exec_modechgCommit (hmc : s.mc = some m) : exec .modechgCommit s = .next (
    if s.changeDue m then if (s.changeBack m).backDone m then (s.changeBack m).commitChange m else s.changeBack m else s) := by
  change execModechgCommit s = _
  simp only [execModechgCommit, hmc]

/-! #### The grid of refills and periods -/

theorem State.rebase_frame (s : State) : Frame [.fab] s s.rebase := by
  unfold State.rebase
  extract_lets t s1 s2 p now next
  have h1 : Frame [.fab] s s1 := State.each_frame _ fun u m => .ite (.refl ..) (u.setMeter_frame ..)
  have h2 : Frame [.fab] s1 s2 := State.each_frame _ fun u k => .ite (.refl ..) (u.setBucket_frame ..)
  exact h1.trans (h2.trans (s2.modFab_frame _))

/-- The program store is as before. -/
structure State.SameProgs (s t : State) : Prop where
  progs : t.fab.progs = s.fab.progs

theorem State.SameProgs.each {α : Type} {f : State → α → State} (hf : ∀ t a, SameProgs t (f t a)) (l : List α) (s : State) :
    SameProgs s (s.each l f) :=
  State.each_induct (P := SameProgs s) (fun t a ht => ⟨(hf t a).progs.trans ht.progs⟩) l ⟨rfl⟩

theorem State.rebase_progs (s : State) : s.rebase.fab.progs = s.fab.progs := by
  unfold State.rebase
  extract_lets t s1 s2 p now next
  have h1 : SameProgs s s1 := .each (fun u m => by dsimp only; split <;> exact ⟨rfl⟩) ..
  have h2 : SameProgs s1 s2 := .each (fun u k => by dsimp only; split <;> exact ⟨rfl⟩) ..
  clear_value s2
  exact h2.progs.trans h1.progs

/-- The program digest is of the configuration's checksum and the programs. -/
theorem State.programDigest_congr (hcfg : t.cfg = s.cfg) (hprogs : t.fab.progs = s.fab.progs) : t.programDigest = s.programDigest := by
  simp only [State.programDigest, Fab.prog, hcfg, hprogs]

/-! #### A configuration -/

theorem State.modStream_frame (s : State) (i : Nat) (f : Stream → Stream) : Frame [.det] s (s.modStream i f) := s.modDet_frame _

theorem State.newKeys_frame (s : State) (c : Cfg) : Frame [.det] s (s.newKeys c) :=
  State.each_frame _ fun t _ => .ite (.refl ..) (t.modStream_frame ..)

theorem State.newKeys_mode (s : State) (c : Cfg) : (s.newKeys c).det.mode = s.det.mode := by
  unfold State.newKeys
  refine State.each_induct (P := fun t => t.det.mode = s.det.mode) (fun t i ht => ?_) _ rfl
  split <;> exact ht

theorem State.dropScales_frame (s : State) : Frame [.ports, .fab] s s.dropScales := by
  have hports : Frame [.ports] s { s with ports := Tab.mapVals Port.reset (fun _ p => { p with scale := [] }) s.ports } :=
    .of rfl fun p => by cases p <;> simp [Part.same]
  exact (hports.mono (by decide)).trans ((State.modFab_frame ..).mono (by decide))

theorem State.settleRefresh_frame (s : State) (p : Nat) : Frame [.slices] s (s.settleRefresh p) :=
  State.each_frame _ fun t _ => t.modSlice_frame ..

theorem State.settleBands_frame (s : State) : Frame [.slices] s s.settleBands := State.each_frame _ fun t p => t.settleRefresh_frame p

theorem State.reband_frame (s : State) (p : Nat) (reading : BitVec 16) (subst : Bool) :
    Frame [.slices, .ctl, .evt, .mbx] s (s.reband p reading subst) := by
  have hset : Frame [.slices, .ctl, .evt, .mbx] s ((s.settleRefresh p).modRf p fun r =>
      { r with band := nextBand reading (s.slice p).rf.band s.minMult, subst := subst, read := reading }) :=
    ((s.settleRefresh_frame p).trans (State.modSlice_frame ..)).mono (by decide)
  exact .ite ((s.modSlice_frame ..).mono (by decide))
    (.ite hset (hset.trans (((State.modSlice_frame ..).mono (by decide)).trans ((State.count_frame ..).mono (by decide)))))

/-- The bands of every slice start from a new lowest one. -/
def State.rebanded (s : State) : State := s.each (List.range 144) fun t p => t.reband p (t.slice p).rf.read (t.slice p).rf.subst

theorem State.rebanded_frame (s : State) : Frame [.slices, .ctl, .evt, .mbx] s s.rebanded :=
  State.each_frame _ fun t _ => t.reband_frame ..

theorem State.SameTiming.rebanded (s : State) : SameTiming [] s s.rebanded := each (fun t p _ => SameTiming.reband t p _ _) s

/-- Every unit but the refresh bands has taken configuration `c`. -/
def State.cfgSet (s : State) (c : Cfg) : State :=
  let s1 := s.newKeys c
  let s2 := if s.cfg.regions = c.regions then s1 else s1.dropScales
  let late := match s.therm.graceStart with
    | some g => s.therm.graceLate || (s.cfg.graceTicks != c.graceTicks && decide (g + c.graceTicks < s.sys.ltc))
    | none => false
  let on := bit c.ls 0 && !bit s.cfg.ls 0
  let mode := match s.det.mode with | .timing => DetMode.timing | .off | .bits => c.detMode
  let s3 : State := { s2 with cfg := c }
  (s3.modTherm fun t => { t with graceLate := late }).modDet fun d =>
    { d with mode := mode, lastTx := if on then s.sys.ltc else d.lastTx, lastRx := if on then s.sys.ltc else d.lastRx }

theorem State.applyCfg_eq (s : State) (c : Cfg) :
    s.applyCfg c = if fld s.cfg.refCtl 0 2 = fld c.refCtl 0 2 then s.cfgSet c else (s.cfgSet c).rebanded := rfl

theorem State.cfgSet_frame (s : State) (c : Cfg) : Frame [.cfg, .det, .ports, .fab, .therm] s (s.cfgSet c) := by
  have hscales : Frame [.cfg, .det, .ports, .fab, .therm] s (if s.cfg.regions = c.regions then s.newKeys c else (s.newKeys c).dropScales) :=
    .ite ((s.newKeys_frame c).mono (by decide))
      (((s.newKeys_frame c).mono (by decide)).trans ((State.dropScales_frame _).mono (by decide)))
  have hcfg (u : State) : Frame [.cfg] u { u with cfg := c } := .of rfl fun p => by cases p <;> simp [Part.same]
  exact hscales.trans (((hcfg _).mono (by decide)).trans (((State.modTherm_frame ..).mono (by decide)).trans
    ((State.modDet_frame ..).mono (by decide))))

theorem State.cfgSet_mode (s : State) (c : Cfg) : (s.cfgSet c).det.mode = if s.det.mode = .timing then .timing else c.detMode := by
  change (match s.det.mode with | .timing => DetMode.timing | .off | .bits => c.detMode) = _
  cases s.det.mode <;> rfl

theorem State.applyCfg_frame (s : State) (c : Cfg) :
    Frame [.cfg, .det, .ports, .fab, .therm, .slices, .ctl, .evt, .mbx] s (s.applyCfg c) := by
  rw [State.applyCfg_eq]
  exact .ite ((s.cfgSet_frame c).mono (by decide))
    (((s.cfgSet_frame c).mono (by decide)).trans ((State.rebanded_frame _).mono (by decide)))

theorem State.SameTiming.applyCfg (s : State) (c : Cfg) : SameTiming [] s (s.applyCfg c) := by
  rw [State.applyCfg_eq]
  exact .ite (of_frame (s.cfgSet_frame c)) ((of_frame (s.cfgSet_frame c)).trans (rebanded _))

theorem State.applyCfg_cfg (s : State) (c : Cfg) : (s.applyCfg c).cfg = c := by
  rw [State.applyCfg_eq]
  split
  · rfl
  · exact (State.rebanded_frame _).2 .cfg (by decide)

theorem State.applyCfg_mode (s : State) (c : Cfg) : (s.applyCfg c).det.mode = if s.det.mode = .timing then .timing else c.detMode := by
  rw [State.applyCfg_eq]
  split
  · exact s.cfgSet_mode c
  · rw [(State.rebanded_frame _).2 .det (by decide)]
    exact s.cfgSet_mode c

/-- Every unit has taken the configuration of change `m` and its programs. -/
def State.cfgTaken (s : State) (m : ModeChg) : State :=
  let t := (s.settleAll.applyCfg m.cfg).modFab fun f => { f with progs := m.cfg.progs }
  (t.modCtl fun c => { c with srcImg := 3, cause := 0, defaulted := false }).newPd.rebase

theorem State.cfgTaken_frame (s : State) (m : ModeChg) :
    Frame [.cfg, .det, .ports, .fab, .therm, .slices, .ctl, .evt, .mbx] s (s.cfgTaken m) := by
  unfold State.cfgTaken
  exact (s.settleAll_frame.mono (by decide)).trans ((State.applyCfg_frame ..).trans (((State.modFab_frame ..).mono (by decide)).trans
    (((State.modCtl_frame ..).mono (by decide)).trans (((State.modDet_frame ..).mono (by decide)).trans
      ((State.rebase_frame _).mono (by decide))))))

theorem State.SameTiming.cfgTaken (s : State) (m : ModeChg) : SameTiming [] s (s.cfgTaken m) := by
  have hset : SameTiming [] s (s.settleAll.applyCfg m.cfg) := (of_frame s.settleAll_frame).trans (applyCfg ..)
  have hprogs := State.modFab_frame (s.settleAll.applyCfg m.cfg) fun f => { f with progs := m.cfg.progs }
  have hctl := State.modCtl_frame ((s.settleAll.applyCfg m.cfg).modFab fun f => { f with progs := m.cfg.progs }) fun c =>
    { c with srcImg := 3, cause := 0, defaulted := false }
  unfold State.cfgTaken
  exact hset.trans ((of_frame hprogs).trans ((of_frame hctl).trans ((of_frame (State.modDet_frame ..)).trans (of_frame (State.rebase_frame _)))))

theorem State.cfgTaken_spec (s : State) (m : ModeChg) {t : State} (ht : s.cfgTaken m = t) :
    t.cfg = m.cfg ∧ t.fab.progs = m.cfg.progs ∧ t.ctl.srcImg = 3 ∧ t.ctl.cause = 0 ∧ t.ctl.defaulted = false ∧
      t.det.mode = (if s.det.mode = .timing then .timing else m.cfg.detMode) ∧ t.det.pd = t.programDigest := by
  unfold State.cfgTaken at ht
  dsimp only at ht
  have hcfg := s.settleAll.applyCfg_cfg m.cfg
  have hmode := s.settleAll.applyCfg_mode m.cfg
  rw [s.settleAll_frame.2 .det (by decide)] at hmode
  generalize s.settleAll.applyCfg m.cfg = a at *
  subst ht
  have hframe := State.rebase_frame (((a.modFab fun f => { f with progs := m.cfg.progs }).modCtl fun c =>
    { c with srcImg := 3, cause := 0, defaulted := false }).newPd)
  have hprogs := State.rebase_progs (((a.modFab fun f => { f with progs := m.cfg.progs }).modCtl fun c =>
    { c with srcImg := 3, cause := 0, defaulted := false }).newPd)
  have hcfg' := (hframe.2 .cfg (by decide)).trans hcfg
  have hctl : _ = _ := hframe.2 .ctl (by decide)
  have hdet : _ = _ := hframe.2 .det (by decide)
  refine ⟨hcfg', hprogs, by rw [hctl]; rfl, by rw [hctl]; rfl, by rw [hctl]; rfl, by rw [hdet]; exact hmode, ?_⟩
  rw [hdet, State.programDigest_congr (hframe.2 .cfg (by decide)) hprogs]
  rfl

end Sys2Proof.Machine
end

section
/-! ### The commit boundary, change by change (R253, R707, R808, R809) -/

namespace Sys2Proof.Machine

variable {s t u : State} {m : ModeChg}

/-- The holds of a commit window. -/
def State.holdAll (s : State) (ps : List Nat) : State := s.each ps fun s p => s.noteWord (.hold p)

/-- What a change records of its commit in state `u`, with the channels that it holds. -/
def ModeChg.atCommit (m : ModeChg) (u : State) (ps : List Nat) : ModeChg :=
  { m with committed := true, commitAt := u.sys.ltc, undo := some u.undoOf, held := ps }

/-- A determinism mode is in force. -/
def State.modeTaken (s : State) (m : ModeChg) : State :=
  let t := s.settleAll.settleBands
  let n := match m.det with | .off => 0 | .bits => 1 | .timing => 2
  let t1 : State := { t with cfg := { t.cfg with det := BitVec.ofNat 32 (fld t.cfg.det 2 30 * 4 + n) } }
  (t1.modDet fun d => { d with mode := m.det, aligned := false }).rebase

theorem State.commitChange_cfg (hwhat : m.what = .cfg) {ps : List Nat}
    (hps : s.meetPeriods.slicesChanged s.meetPeriods.cfg.regions m.cfg.regions = ps) :
    s.commitChange m = ((s.meetPeriods.cfgTaken m).holdAll ps).withMc (some (m.atCommit s.meetPeriods ps)) := by
  subst hps
  unfold State.commitChange State.cfgTaken State.holdAll State.withMc ModeChg.atCommit
  generalize s.meetPeriods = u
  rw [hwhat]

theorem State.commitChange_rate (hwhat : m.what = .rate) (hrate : m.rate ≠ s.meetPeriods.sys.rate) :
    s.commitChange m = (s.meetPeriods.settleAll.holdAll s.meetPeriods.boundSlices).withMc
      (some (m.atCommit s.meetPeriods s.meetPeriods.boundSlices)) := by
  unfold State.commitChange State.holdAll State.withMc ModeChg.atCommit
  generalize s.meetPeriods = u at *
  rw [hwhat]
  dsimp only
  rw [if_neg hrate]

theorem State.commitChange_det (hwhat : m.what = .det) :
    s.commitChange m = ((s.meetPeriods.modeTaken m).holdAll []).withMc (some (m.atCommit s.meetPeriods [])) := by
  unfold State.commitChange State.modeTaken State.holdAll State.withMc ModeChg.atCommit
  generalize s.meetPeriods = u
  rw [hwhat] <;> rfl

/-! #### What goes back if the change is undone -/

theorem State.undoOf_congr (hcfg : t.cfg = s.cfg) (hdet : t.det = s.det)
    (hctl : t.ctl = { s.ctl with tlm := t.ctl.tlm, icqs := t.ctl.icqs }) (hprogs : t.fab.progs = s.fab.progs)
    (hmeters : t.fab.meters = s.fab.meters) (hbuckets : t.fab.buckets = s.fab.buckets) : t.undoOf = s.undoOf := by
  rw [State.undoOf, State.undoOf, hcfg, hdet, hprogs, hmeters, hbuckets, hctl]

/-- The periods met after the lines of reshaped regions have been written back. -/
def State.atBoundary (s : State) (m : ModeChg) : State := (s.changeBack m).meetPeriods

theorem State.atBoundary_frame (s : State) (m : ModeChg) : Frame [.fab, .stk, .slices, .ctl, .evt, .mbx] s (s.atBoundary m) :=
  ((Readies.changeBack s m).prepares.frame.mono (by decide)).trans ((Meets.meetPeriods _).frame.mono (by decide))

theorem State.atBoundary_stk (s : State) (m : ModeChg) : (s.atBoundary m).stk = { s.stk with migs := (s.atBoundary m).stk.migs } := by
  have hstk : (s.changeBack m).stk = s.stk := (Readies.changeBack s m).prepares.frame.2 .stk (by decide)
  rw [State.atBoundary, (Meets.meetPeriods (s.changeBack m)).stk, hstk]

theorem State.atBoundary_undo (s : State) (m : ModeChg) : (s.atBoundary m).undoOf = s.undoOf := by
  have hback := Readies.changeBack s m
  have hmeet := Meets.meetPeriods (s.changeBack m)
  have hfab : (s.changeBack m).fab = s.fab := hback.prepares.frame.2 .fab (by decide)
  have hcfg : (s.atBoundary m).cfg = s.cfg := (s.atBoundary_frame m).2 .cfg (by decide)
  have hdet : (s.atBoundary m).det = s.det := (s.atBoundary_frame m).2 .det (by decide)
  refine State.undoOf_congr hcfg hdet ?_ (hmeet.progs.trans (by rw [hfab])) (hmeet.meters.trans (by rw [hfab]))
    (hmeet.buckets.trans (by rw [hfab]))
  rw [State.atBoundary, hmeet.counted.1, hback.ctl]

/-- The slices of a channel go by the binding table alone. -/
theorem State.slicesOf_atBoundary (s : State) (m : ModeChg) : (s.atBoundary m).stk.slicesOf = s.stk.slicesOf := by
  rw [s.atBoundary_stk m]
  rfl

theorem State.slicesChanged_atBoundary (s : State) (m : ModeChg) (old new : List (BitVec 256)) :
    (s.atBoundary m).slicesChanged old new = s.slicesChanged old new := by
  rw [State.slicesChanged, State.slicesOf_atBoundary, State.slicesChanged]

theorem State.boundSlices_atBoundary (s : State) (m : ModeChg) : (s.atBoundary m).boundSlices = s.boundSlices := by
  rw [State.boundSlices, State.slicesOf_atBoundary, State.boundSlices]

/-! #### The three changes -/

theorem State.holdAll_spec (hwf : Tab.wf Slice.reset s.slices = true) (ps : List Nat) :
    (∀ p ∈ ps, (s.slice p).sch.held < ((s.holdAll ps).slice p).sch.held) ∧ (∀ p, p ∉ ps → (s.holdAll ps).slice p = s.slice p) ∧
      Frame [.slices] s (s.holdAll ps) := State.slice_each_hold hwf ps rfl

theorem State.withMc_frame (s : State) (c : Option ModeChg) : Frame [.mc] s (s.withMc c) := s.setMc_frame c

/-- A new configuration at its boundary. -/
theorem State.commitChange_cfg_spec (hwf : Tab.wf Slice.reset s.slices = true) (hwhat : m.what = .cfg) {t : State}
    (ht : (s.changeBack m).commitChange m = t) :
    t.cfg = m.cfg ∧ t.fab.progs = m.cfg.progs ∧ t.ctl.srcImg = 3 ∧
        t.ctl.cause = 0 ∧ t.ctl.defaulted = false ∧
        t.det.mode = (if s.det.mode = .timing then .timing else m.cfg.detMode) ∧ t.det.pd = t.programDigest ∧
        (∀ p ∈ s.slicesChanged s.cfg.regions m.cfg.regions, (s.slice p).sch.held < (t.slice p).sch.held) ∧
        t.mc = some { m with
          committed := true
          commitAt := s.sys.ltc
          undo := some s.undoOf
          held := s.slicesChanged s.cfg.regions m.cfg.regions } ∧
        t.mem = s.mem ∧ t.stk = { s.stk with migs := t.stk.migs } ∧ t.ring = s.ring ∧ t.sys = s.sys := by
  have hedge := s.atBoundary_frame m
  have hundo := s.atBoundary_undo m
  have hstk := s.atBoundary_stk m
  have hps := s.slicesChanged_atBoundary m (s.atBoundary m).cfg.regions m.cfg.regions
  have hsame : SameTiming [] s (s.atBoundary m) :=
    (SameTiming.changeBack s m).trans (.of_frame (Meets.meetPeriods _).frame)
  rw [State.commitChange_cfg hwhat hps] at ht
  change (((s.atBoundary m).cfgTaken m).holdAll _).withMc (some (m.atCommit (s.atBoundary m) _)) = t at ht
  generalize s.atBoundary m = u at *
  have hucfg : u.cfg = s.cfg := hedge.2 .cfg (by decide)
  have husys : u.sys = s.sys := hedge.2 .sys (by decide)
  have hudet : u.det = s.det := hedge.2 .det (by decide)
  have htaken := u.cfgTaken_frame m
  have hspec := u.cfgTaken_spec m rfl
  obtain ⟨hvwf, hv⟩ := (hsame.trans (.cfgTaken u m)).slices hwf
  rw [hucfg] at ht
  generalize u.cfgTaken m = v at *
  obtain ⟨hheld, -, hhold⟩ := State.holdAll_spec hvwf (s.slicesChanged s.cfg.regions m.cfg.regions)
  generalize v.holdAll (s.slicesChanged s.cfg.regions m.cfg.regions) = w at *
  have hall : Frame [.cfg, .det, .ports, .fab, .therm, .slices, .ctl, .evt, .mbx] u w := htaken.trans (hhold.mono (by decide))
  have hcfg : w.cfg = v.cfg := hhold.2 .cfg (by decide)
  have hfab : w.fab = v.fab := hhold.2 .fab (by decide)
  have hctl : w.ctl = v.ctl := hhold.2 .ctl (by decide)
  have hdet : w.det = v.det := hhold.2 .det (by decide)
  have hwstk : w.stk = u.stk := hall.2 .stk (by decide)
  obtain ⟨h1, h2, h3, h4, h5, h6, h7⟩ := hspec
  subst ht
  refine ⟨hcfg.trans h1, ?_, ?_, ?_, ?_, ?_, ?_, fun p hp => ?_, ?_, ?_, ?_, ?_, ?_⟩
  · rw [State.withMc, hfab]
    exact h2
  · rw [State.withMc, hctl]
    exact h3
  · rw [State.withMc, hctl]
    exact h4
  · rw [State.withMc, hctl]
    exact h5
  · rw [State.withMc, hdet, ← hudet]
    exact h6
  · exact (congrArg Det.pd hdet).trans (h7.trans (State.programDigest_congr hcfg (congrArg Fab.progs hfab)).symm)
  · rw [← (hv p).2 List.not_mem_nil]
    exact hheld p hp
  · rw [State.withMc, ModeChg.atCommit, hundo, husys]
  · exact (hall.2 .mem (by decide)).trans (hedge.2 .mem (by decide))
  · rw [State.withMc, hwstk]
    exact hstk
  · exact (hall.2 .ring (by decide)).trans (hedge.2 .ring (by decide))
  · exact (hall.2 .sys (by decide)).trans husys

/-- A rate change at its boundary. -/
theorem State.commitChange_rate_spec (hwf : Tab.wf Slice.reset s.slices = true) (hwhat : m.what = .rate) (hrate : m.rate ≠ s.sys.rate)
    {t : State} (ht : (s.changeBack m).commitChange m = t) :
    (∀ p ∈ s.boundSlices, (s.slice p).sch.held < (t.slice p).sch.held) ∧ (∀ p, p ∉ s.boundSlices → t.slice p = s.slice p) ∧
      (∃ u, t.mc = some u ∧ u.committed = true ∧ u.held = s.boundSlices) ∧ Counted s t ∧
      Frame [.mc, .slices, .fab, .stk, .ctl, .evt, .mbx] s t := by
  have hback : s.changeBack m = s := by simp only [State.changeBack, hwhat]
  have hedge : State.Meets s (s.atBoundary m) := by
    unfold State.atBoundary
    rw [hback]
    exact .meetPeriods s
  have hps := s.boundSlices_atBoundary m
  rw [State.commitChange_rate hwhat (by rw [(Meets.meetPeriods (s.changeBack m)).frame.2 .sys (by decide), hback]; exact hrate)] at ht
  change ((s.atBoundary m).settleAll.holdAll (s.atBoundary m).boundSlices).withMc
    (some (m.atCommit (s.atBoundary m) (s.atBoundary m).boundSlices)) = t at ht
  rw [hps] at ht
  generalize s.atBoundary m = u at *
  have hset := u.settleAll_frame
  generalize u.settleAll = v at *
  have hslices : v.slices = s.slices := (hset.2 .slices (by decide)).trans (hedge.frame.2 .slices (by decide))
  obtain ⟨hheld, hrest, hhold⟩ := State.holdAll_spec (s := v) (by rw [hslices]; exact hwf) s.boundSlices
  generalize v.holdAll s.boundSlices = w at *
  have hframe : Frame [.slices, .fab, .stk, .ctl, .evt, .mbx] s w :=
    (hedge.frame.mono (by decide)).trans ((hset.mono (by decide)).trans (hhold.mono (by decide)))
  have hcounted : Counted s w := hedge.counted.trans
    ((Counted.of_frame hset (by decide) (by decide)).trans (.of_frame hhold (by decide) (by decide)))
  subst ht
  refine ⟨fun p hp => ?_, fun p hp => ?_, ⟨_, rfl, rfl, rfl⟩, hcounted, (hframe.mono (by decide)).trans ((w.withMc_frame _).mono (by decide))⟩
  · rw [← State.slice_congr hslices]
    exact hheld p hp
  · rw [← State.slice_congr hslices]
    exact hrest p hp

theorem State.modeTaken_frame (s : State) (m : ModeChg) : Frame [.cfg, .det, .slices, .fab] s (s.modeTaken m) := by
  have hcfg (t : State) (c : Cfg) : Frame [.cfg] t { t with cfg := c } := .of rfl fun p => by cases p <;> simp [Part.same]
  unfold State.modeTaken
  exact (s.settleAll_frame.mono (by decide)).trans (((State.settleBands_frame _).mono (by decide)).trans
    (((hcfg ..).mono (by decide)).trans (((State.modDet_frame ..).mono (by decide)).trans ((State.rebase_frame _).mono (by decide)))))

/-- CFG_DET with another mode in its low bits keeps what stands above them. -/
theorem fld_withMode (w : Word) {n : Nat} (hn : n < 4) :
    fld (BitVec.ofNat 32 (fld w 2 30 * 4 + n)) 0 2 = n ∧ fld (BitVec.ofNat 32 (fld w 2 30 * 4 + n)) 2 30 = fld w 2 30 := by
  simp only [fld, BitVec.toNat_ofNat, Nat.shiftRight_eq_div_pow]
  omega

theorem State.modeTaken_spec (s : State) (m : ModeChg) {t : State} (ht : s.modeTaken m = t) :
    t.det = { s.det with mode := m.det, aligned := false } ∧
      fld t.cfg.det 0 2 = (match m.det with | .off => 0 | .bits => 1 | .timing => 2) ∧
      fld t.cfg.det 2 30 = fld s.cfg.det 2 30 ∧ t.cfg = { s.cfg with det := t.cfg.det } := by
  have hset : Frame [.slices, .fab] s s.settleAll.settleBands :=
    (s.settleAll_frame.mono (by decide)).trans ((State.settleBands_frame _).mono (by decide))
  unfold State.modeTaken at ht
  generalize s.settleAll.settleBands = u at *
  have hdet : u.det = s.det := hset.2 .det (by decide)
  have hcfg : u.cfg = s.cfg := hset.2 .cfg (by decide)
  extract_lets t0 n c1 u1 at ht
  have hn : n < 4 := by
    unfold n
    split <;> omega
  have hfields := fld_withMode s.cfg.det hn
  have hframe := State.rebase_frame (u1.modDet fun d => { d with mode := m.det, aligned := false })
  have hcfg' : t.cfg = { s.cfg with det := BitVec.ofNat 32 (fld s.cfg.det 2 30 * 4 + n) } := by
    rw [← ht, hframe.2 .cfg (by decide)]
    simp only [State.modDet, u1, c1, t0, hcfg]
  have hdet' : t.det = { s.det with mode := m.det, aligned := false } := by
    rw [← ht, hframe.2 .det (by decide)]
    simp only [State.modDet, u1, t0, hdet]
  rw [hcfg']
  exact ⟨hdet', hfields.1, hfields.2, rfl⟩

/-- A change of the determinism mode at its boundary. -/
theorem State.commitChange_det_spec (hwhat : m.what = .det) {t : State} (ht : (s.changeBack m).commitChange m = t) :
    t.det = { s.det with mode := m.det, aligned := false } ∧
        fld t.cfg.det 0 2 = (match m.det with | .off => 0 | .bits => 1 | .timing => 2) ∧
        fld t.cfg.det 2 30 = fld s.cfg.det 2 30 ∧ t.cfg = { s.cfg with det := t.cfg.det } ∧ Counted s t ∧
        Frame [.mc, .cfg, .det, .slices, .fab, .stk, .ctl, .evt, .mbx] s t := by
  have hback : s.changeBack m = s := by simp only [State.changeBack, hwhat]
  rw [hback, State.commitChange_det hwhat] at ht
  have hedge := State.Meets.meetPeriods s
  generalize s.meetPeriods = u at *
  have htaken := u.modeTaken_frame m
  obtain ⟨hdet, hmode, hrest, hcfg⟩ := u.modeTaken_spec m rfl
  rw [hedge.frame.2 .det (by decide)] at hdet
  rw [hedge.frame.2 .cfg (by decide)] at hrest hcfg
  generalize u.modeTaken m = v at *
  subst ht
  refine ⟨hdet, hmode, hrest, hcfg, ?_, ?_⟩
  · exact hedge.counted.trans ((Counted.of_frame htaken (by decide) (by decide)).trans
      (.of_frame (State.withMc_frame ..) (by decide) (by decide)))
  · exact (hedge.frame.mono (by decide)).trans ((htaken.mono (by decide)).trans ((State.withMc_frame ..).mono (by decide)))

end Sys2Proof.Machine
end

section
/-! ### The end of a commit window, and an aborted change (R806, R810) -/

namespace Sys2Proof.Machine

variable {s t u : State} {m : ModeChg}

/-- A rate point is in force with its shadow timing. -/
def State.shadowsTaken (s : State) (rate : Nat) : State :=
  (s.modSys fun y => { y with rate := rate }).each (List.range 144) fun s p => s.modBt p fun b => { b with tim := b.tim2 }

/-- A rate change has its rate in force and its channels going on; another change takes nothing at the end of its window. -/
def State.windowTaken (s : State) (m : ModeChg) : State :=
  match m.what with
  | .rate => if m.rate = s.sys.rate then s.shadowsTaken m.rate else (s.shadowsTaken m.rate).rateTrims.each m.held State.rateGo
  | .cfg | .restore | .det => s

/-- The channels that the window held go on, and the change is over but for its answer. -/
def State.windowEnded (s : State) (m : ModeChg) : State := ((s.windowTaken m).each m.held State.unholdChan).withMc none

theorem exec_commitWindowEnd (hmc : s.mc = some m) : exec .commitWindowEnd s = .next (
    if !m.committed || !s.quiet m then s
    else if s.sys.rstDue then (s.windowEnded m).rstAfter else (s.windowEnded m).changeAnswer m eOk) := by
  change execCommitWindowEnd s = _
  simp only [execCommitWindowEnd, hmc]
  rfl

/-! #### What is taken -/

theorem State.shadowsTaken_frame (s : State) (rate : Nat) : Frame [.sys, .slices] s (s.shadowsTaken rate) :=
  ((s.modSys_frame _).mono (by decide)).trans (State.each_frame _ fun t p => (t.modSlice_frame ..).mono (by decide))

theorem State.shadowsTaken_sys (s : State) (rate : Nat) : (s.shadowsTaken rate).sys = { s.sys with rate := rate } := by
  have hframe : Frame [.slices] (s.modSys fun y => { y with rate := rate }) (s.shadowsTaken rate) :=
    State.each_frame _ fun t p => t.modSlice_frame ..
  exact hframe.2 .sys (by decide)

theorem State.shadowsTaken_slices (hwf : Tab.wf Slice.reset s.slices = true) (rate : Nat) :
    Tab.wf Slice.reset (s.shadowsTaken rate).slices = true ∧
      (∀ p, p < 144 → ((s.shadowsTaken rate).slice p).bt.tim = (s.slice p).bt.tim2) ∧
      ∀ p, ((s.shadowsTaken rate).slice p).sch.held = (s.slice p).sch.held := by
  obtain ⟨hwf', hdone, hrest⟩ := State.slice_each (s := s.modSys fun y => { y with rate := rate }) (P := fun _ => True)
    (f := fun t p => t.modBt p fun b => { b with tim := b.tim2 })
    (Q := fun _ x y => y = { x with bt := { x.bt with tim := x.bt.tim2 } }) (ps := List.range 144)
    (fun t p _ hwf => ⟨trivial, _, (State.Island.refl hwf p).modSlice fun x =>
      { x with bt := { x.bt with tim := x.bt.tim2 } }, rfl⟩) List.nodup_range trivial hwf
  change Tab.wf Slice.reset (s.shadowsTaken rate).slices = true at hwf'
  change ∀ p ∈ List.range 144, (s.shadowsTaken rate).slice p = { s.slice p with bt := { (s.slice p).bt with tim := (s.slice p).bt.tim2 } } at hdone
  change ∀ p, p ∉ List.range 144 → (s.shadowsTaken rate).slice p = s.slice p at hrest
  refine ⟨hwf', fun p hp => ?_, fun p => ?_⟩
  · rw [hdone p (List.mem_range.2 hp)]
  · by_cases hp : p ∈ List.range 144
    · rw [hdone p hp]
    · rw [hrest p hp]

theorem State.rateGo_frame (s : State) (p : Nat) : Frame [.slices] s (s.rateGo p) := by
  have hbank (t : State) (f : BankSet → BankSet) : Frame [.slices] t (t.modBt p f) := t.modSlice_frame ..
  have hrefr (t : State) : Frame [.slices] t (t.srxRefresh p) := by
    unfold State.srxRefresh State.srx
    exact (State.each_frame t fun u _ => u.modSlice_frame p _).trans (hbank ..)
  unfold State.rateGo
  exact ((s.sendRow_frame ..).trans (hrefr _)).trans (hbank ..)

theorem State.rateTrims_frame (s : State) : Frame [.slices] s s.rateTrims :=
  State.each_frame (f := fun s p => (s.takeTrims p).dueIfDerived p) _ fun t _ => (t.modSlice_frame ..).trans (State.modSlice_frame ..)

theorem State.unholdChan_frame (s : State) (p : Nat) : Frame [.slices, .ctl] s (s.unholdChan p) := by
  have hpass : Frame [.slices, .ctl] s (s.icqPass 3 p) := (s.icqPass_frame 3 p).mono (by decide)
  unfold State.unholdChan
  by_cases h : s.icqSeen 3 p ≤ s.sys.ltc
  · rw [State.tell_of_seen h]
    exact hpass.trans ((State.modSlice_frame ..).mono (by decide))
  · rw [State.tell_of_unseen h]
    exact hpass.trans ((State.modCtl_frame ..).mono (by decide))

/-- The work of a rate change after its rate is in force. -/
theorem State.windowTaken_rate (hwhat : m.what = .rate) : ∃ t, s.windowTaken m = t ∧
    SameTiming m.held (s.shadowsTaken m.rate) t ∧ Frame [.slices] (s.shadowsTaken m.rate) t := by
  simp only [State.windowTaken, hwhat]
  refine ⟨_, rfl, ?_⟩
  split
  · exact ⟨.refl _, .refl ..⟩
  · exact ⟨(SameTiming.rateTrims _).trans (.each (fun t p _ => SameTiming.rateGo t p) _),
      (State.rateTrims_frame _).trans (State.each_frame _ State.rateGo_frame)⟩

theorem State.windowTaken_of_not_rate (hwhat : m.what ≠ .rate) : s.windowTaken m = s := by
  unfold State.windowTaken
  split
  · next h => exact absurd h hwhat
  all_goals rfl

theorem State.windowEnded_spec (hwf : Tab.wf Slice.reset s.slices = true) {t : State} (ht : s.windowEnded m = t) :
    t.mc = none ∧ t.sys = { s.sys with rate := if m.what = .rate then m.rate else s.sys.rate } ∧
      (m.what = .rate → ∀ p, p < 144 → (t.slice p).bt.tim = (s.slice p).bt.tim2) ∧
      (∀ p, p ∉ m.held → (t.slice p).sch.held = (s.slice p).sch.held) ∧ Frame [.mc, .sys, .slices, .ctl] s t := by
  have hfree (u : State) : SameTiming m.held u (u.each m.held State.unholdChan) := .each (fun v p hp => .unholdChan v hp) u
  have hfreed (u : State) : Frame [.slices, .ctl] u (u.each m.held State.unholdChan) := State.each_frame _ State.unholdChan_frame
  unfold State.windowEnded at ht
  by_cases hwhat : m.what = .rate
  · obtain ⟨u, hu, hsame, hframe⟩ := State.windowTaken_rate (s := s) hwhat
    obtain ⟨hwf', htim, hheld⟩ := State.shadowsTaken_slices hwf m.rate
    have hsys := s.shadowsTaken_sys m.rate
    have htaken := s.shadowsTaken_frame m.rate
    rw [hu] at ht
    generalize s.shadowsTaken m.rate = v at *
    have hfree' := (hsame.trans (hfree u)).slices hwf'
    have hfreed' := hfreed u
    generalize u.each m.held State.unholdChan = w at *
    subst ht
    refine ⟨rfl, ?_, fun _ p hp => ((hfree'.2 p).1).trans (htim p hp), fun p hp => ((hfree'.2 p).2 hp).trans (hheld p), ?_⟩
    · rw [if_pos hwhat, ← hsys]
      exact (hfreed'.2 .sys (by decide)).trans (hframe.2 .sys (by decide))
    · exact (htaken.mono (by decide)).trans ((hframe.mono (by decide)).trans ((hfreed'.mono (by decide)).trans
        ((w.withMc_frame none).mono (by decide))))
  · rw [State.windowTaken_of_not_rate hwhat] at ht
    have hfree' := (hfree s).slices hwf
    have hfreed' := hfreed s
    generalize s.each m.held State.unholdChan = w at *
    subst ht
    refine ⟨rfl, ?_, fun h => absurd h hwhat, fun p hp => (hfree'.2 p).2 hp, ?_⟩
    · rw [if_neg hwhat]
      exact hfreed'.2 .sys (by decide)
    · exact (hfreed'.mono (by decide)).trans ((w.withMc_frame none).mono (by decide))

/-! #### The answer -/

theorem State.changeAnswer_frame (s : State) (m : ModeChg) (err : BitVec 8) : Frame [.evt, .mbx] s (s.changeAnswer m err) :=
  .ite (endPending_frame ..) (.ite (.refl ..) ((finish_frame ..).mono (by decide)))

theorem State.changeAnswer_command (hpend : m.pend = false) (hopc : m.opc ≠ 0) (err : BitVec 8) :
    s.changeAnswer m err = s.finish err (s.changeWords m.opc) := by
  rw [State.changeAnswer, hpend, if_neg Bool.false_ne_true, if_neg hopc]

/-- A command that ends badly answers no words. -/
theorem finish_fails {err : BitVec 8} (h : err ≠ eOk) (l : List Word) : s.finish err l = { s with mbx := s.ended err [] } := by
  simp only [State.finish, State.modMbx, State.ended, if_neg h]

theorem exec_modechgPrepareTimeout (hmc : s.mc = some m) : exec .modechgPrepareTimeout s = .next (
    if m.committed || m.ackd || s.sys.ltc < m.start + 400000 then s else s.abortChange eAborted) := by
  change execModechgPrepareTimeout s = _
  simp only [execModechgPrepareTimeout, hmc]

theorem State.abortChange_alone (hmc : s.mc = some m) (hgang : m.gang = none) (hpend : m.pend = false) (hopc : m.opc ≠ 0)
    {err : BitVec 8} (herr : err ≠ eOk) :
    s.abortChange err = { (if m.what = .rate then s.dropShadows else s) with mc := none, mbx := s.ended err [] } := by
  have hmbx : s.dropShadows.mbx = s.mbx :=
    (State.each_frame _ fun t p => t.modSlice_frame p _ : Frame [.slices] s s.dropShadows).2 .mbx (by decide)
  have hended (u : State) (hu : u.mbx = s.mbx) : (u.withMc none).finish err ((u.withMc none).changeWords m.opc) =
      { u with mc := none, mbx := s.ended err [] } := by
    rw [finish_fails herr]
    simp only [State.ended, State.withMc, hu]
  unfold State.abortChange
  rw [hmc]
  dsimp only
  rw [hgang]
  dsimp only
  rw [State.changeAnswer_command hpend hopc]
  cases hwhat : m.what with
  | rate =>
    rw [if_pos rfl]
    exact hended _ hmbx
  | cfg =>
    rw [if_neg (by decide)]
    exact hended s rfl
  | restore =>
    rw [if_neg (by decide)]
    exact hended s rfl
  | det =>
    rw [if_neg (by decide)]
    exact hended s rfl

/-- Settles O50: the boundary of each change, the end of its window, and the time-out of its prepare phase. -/
theorem changesCommitted : Obligations.ChangesCommitted := by
  unfold Obligations.ChangesCommitted
  intro s m ⟨_, _, hwf, _⟩ hmc
  have hcommit := exec_modechgCommit hmc
  have hend := exec_commitWindowEnd hmc
  have htimeout := exec_modechgPrepareTimeout hmc
  refine ⟨fun hdue => ?_, fun hidle => ?_, fun hdue hback => ?_, fun hdue hback => ⟨fun hwhat => ?_, fun hwhat hrate => ?_, fun hwhat => ?_⟩,
    fun hcommitted hquiet hrst => ?_, fun hearly => ?_, fun hcommitted hackd hlate hgang hpend hopc => ?_⟩
  · rw [hcommit, hdue]
    rfl
  · rw [hend, if_pos (by rcases hidle with h | h <;> simp [h])]
  · rw [hcommit, hdue, hback]
    rfl
  · rw [hdue, hback, if_pos rfl, if_pos rfl] at hcommit
    exact ⟨_, hcommit, State.commitChange_cfg_spec hwf hwhat rfl⟩
  · rw [hdue, hback, if_pos rfl, if_pos rfl] at hcommit
    exact ⟨_, hcommit, State.commitChange_rate_spec hwf hwhat hrate rfl⟩
  · rw [hdue, hback, if_pos rfl, if_pos rfl] at hcommit
    exact ⟨_, hcommit, State.commitChange_det_spec hwhat rfl⟩
  · rw [hcommitted, hquiet, hrst, if_neg (by decide), if_neg (by decide)] at hend
    obtain ⟨hmc', hsys, htim, hheld, hframe⟩ := State.windowEnded_spec (m := m) hwf rfl
    generalize s.windowEnded m = u at *
    have hanswer := u.changeAnswer_frame m eOk
    have hslices : (u.changeAnswer m eOk).slices = u.slices := hanswer.2 .slices (by decide)
    have hsys' : (u.changeAnswer m eOk).sys = _ := (hanswer.2 .sys (by decide)).trans hsys
    refine ⟨_, hend, (hanswer.2 .mc (by decide)).trans hmc', ?_, ?_, fun h p hp => ?_, fun p hp => ?_, fun hpend hopc => ?_,
      fun hpend hopc hwhat => ?_, (hframe.mono (by decide)).trans (hanswer.mono (by decide))⟩
    · rw [hsys']
    · rw [hsys']
    · rw [State.slice_congr hslices]
      exact htim h p hp
    · rw [State.slice_congr hslices]
      exact hheld p hp
    · rw [State.changeAnswer_command hpend hopc]
      exact ⟨rfl, rfl, rfl⟩
    · rw [State.changeAnswer_command hpend (by rw [hopc]; decide), hopc]
      rw [if_pos hwhat] at hsys
      have hwords : u.changeWords 0x20 = [BitVec.ofNat 32 m.rate] := by rw [State.changeWords, hsys]; rfl
      rw [hwords]
      exact ⟨rfl, get_tabOf ..⟩
  · rw [htimeout, if_pos (by simpa [or_assoc] using hearly)]
  · rw [htimeout, if_neg (by simp [hcommitted, hackd]; omega), State.abortChange_alone hmc hgang hpend hopc (by decide)]

end Sys2Proof.Machine
end

section
/-! ### Lines are written back and stay (R400, R825, R935) -/

namespace Sys2Proof.Machine

variable {s t u : State} {ls ms : List AccLine} {pick : AccLine → Bool}

/-- The line is clean, or waits for a write-buffer entry. -/
def AccLine.Settled (x : AccLine) : Prop := x.dirty = false ∨ x.out.isSome = true

/-- The first line of a place. -/
def lineOf (ls : List AccLine) (b w c : Nat) : Option AccLine := ls.find? fun x => x.isAt b w c

theorem ChData.lineAt_eq (d : ChData) (b w c : Nat) : d.lineAt b w c = lineOf d.lines b w c := rfl

/-- Writing back what `pick` names has made cache `ms` of cache `ls`: at every place the same data, and what is named is clean or
waits. -/
def Cleans (pick : AccLine → Bool) (ls ms : List AccLine) : Prop := ∀ b w c,
  (lineOf ms b w c).map (·.data) = (lineOf ls b w c).map (·.data) ∧ ∀ y, lineOf ms b w c = some y → pick y = true → y.Settled

/-- Changing the first line of a place, without moving it, changes what is found there and nowhere else. -/
theorem lineOf_updFirst {f : AccLine → AccLine} (hf : ∀ x, (f x).Same x) (l : AccLine) (b w c : Nat) :
    lineOf (updFirst (fun x : AccLine => x.isAt l.bank l.row l.col) f ls) b w c =
      if l.isAt b w c then (lineOf ls b w c).map f else lineOf ls b w c := by
  have hplace (x : AccLine) : (f x).isAt b w c = x.isAt b w c := by
    obtain ⟨hb, hr, hc⟩ := hf x
    simp only [AccLine.isAt, hb, hr, hc]
  have hat (x : AccLine) (hx : x.isAt l.bank l.row l.col = true) : x.isAt b w c = l.isAt b w c := by
    obtain ⟨hb, hr, hc⟩ := AccLine.isAt_iff.1 hx
    simp only [AccLine.isAt, hb, hr, hc]
  induction ls with
  | nil => split <;> rfl
  | cons x ls ih =>
    unfold updFirst
    unfold lineOf at *
    by_cases hx : x.isAt l.bank l.row l.col = true
    · rw [if_pos hx, List.find?_cons, List.find?_cons, hplace, hat x hx]
      cases l.isAt b w c <;> rfl
    · rw [if_neg hx, List.find?_cons, List.find?_cons, ih]
      by_cases hxp : x.isAt b w c = true
      · have hl : ¬ l.isAt b w c = true := by
          intro hl
          simp only [AccLine.isAt, Bool.and_eq_true, beq_iff_eq] at hx hxp hl
          exact hx ⟨⟨hxp.1.1.trans hl.1.1.symm, hxp.1.2.trans hl.1.2.symm⟩, hxp.2.trans hl.2.symm⟩
        rw [hxp, if_neg hl, if_neg hl]
      · rw [Bool.eq_false_iff.2 hxp]

/-- The line as it waits for a write-buffer entry, to stay once it has one (R400, R935). -/
def AccLine.keptWaiting (c : Nat) (x : AccLine) : AccLine := { x with out := some c, stay := true }

/-- A line that stays has been written back in `ls`, which made it `ms`. -/
def StaysWritten (l : AccLine) (ls ms : List AccLine) : Prop :=
  (l.dirty = false ∧ ms = ls) ∨ ∃ f : AccLine → AccLine, l.dirty = true ∧ (f = AccLine.clean ∨ ∃ c, f = AccLine.keptWaiting c) ∧
    ms = updFirst (fun x : AccLine => x.isAt l.bank l.row l.col) f ls

/-- Either way the line keeps its place and its data, and it is clean or waits. -/
theorem AccLine.settled_of {f : AccLine → AccLine} (hf : f = AccLine.clean ∨ ∃ c, f = AccLine.keptWaiting c) (x : AccLine) :
    (f x).Same x ∧ (f x).data = x.data ∧ (f x).Settled := by
  rcases hf with rfl | ⟨c, rfl⟩
  · exact ⟨⟨rfl, rfl, rfl⟩, rfl, .inl (bne_self_eq_false _)⟩
  · exact ⟨⟨rfl, rfl, rfl⟩, rfl, .inr rfl⟩

theorem State.writeLine_stays (hwf : Tab.wf Slice.reset s.slices = true) (p : Nat) (l : AccLine) (c : Nat) :
    ∃ z, State.Island p z s (s.writeLine p l c true) ∧ StaysWritten l (s.slice p).dat.lines z.dat.lines := by
  have hstart := State.Island.refl hwf p
  unfold State.writeLine
  dsimp only
  by_cases hdirty : l.dirty = true
  · rw [hdirty, Bool.not_true, if_neg (by decide)]
    by_cases hroom : ((s.slice p).dat.fow.isEmpty && (s.slice p).dat.wbRoom l.bank l.row l.col) = true
    · rw [if_pos hroom]
      have hclean := (hstart.modDat fun d => if true = true then d.modLine l AccLine.clean else d.dropLine l.bank l.row l.col).modDat fun d =>
        d.wbAdd ⟨l.bank, l.row, l.col, rsEncode l.data, false, l.sub, c⟩
      exact ⟨_, hclean.framed (State.count_frame ..), .inr ⟨AccLine.clean, hdirty, .inl rfl, ChData.wbAdd_lines ..⟩⟩
    · rw [if_neg hroom]
      exact ⟨_, hstart.modDat fun d => d.modLine l (AccLine.keptWaiting c), .inr ⟨AccLine.keptWaiting c, hdirty, .inr ⟨c, rfl⟩, rfl⟩⟩
  · rw [Bool.eq_false_iff.2 hdirty, Bool.not_false, if_pos rfl, if_pos rfl]
    exact ⟨_, hstart, .inl ⟨Bool.eq_false_iff.2 hdirty, rfl⟩⟩

/-- While the lines of `todo` are still to be written back: at every place the data of `ls`, and a line that `pick` names is settled,
or a dirty one of its place is still to come. -/
def CleansBut (pick : AccLine → Bool) (todo ls ms : List AccLine) : Prop := ∀ b w c,
  (lineOf ms b w c).map (·.data) = (lineOf ls b w c).map (·.data) ∧ ∀ y, lineOf ms b w c = some y → pick y = true →
    y.Settled ∨ ∃ l ∈ todo, l.isAt b w c = true ∧ l.dirty = true

theorem cleansBut_start (pick : AccLine → Bool) (ls : List AccLine) : CleansBut pick (ls.filter pick) ls ls := by
  refine fun b w c => ⟨rfl, fun y hy hp => ?_⟩
  by_cases hdirty : y.dirty = true
  · have hat : y.isAt b w c = true := List.find?_some (p := fun x : AccLine => x.isAt b w c) hy
    exact .inr ⟨y, List.mem_filter.2 ⟨List.mem_of_find?_eq_some hy, hp⟩, hat, hdirty⟩
  · exact .inl (.inl (Bool.eq_false_iff.2 hdirty))

theorem CleansBut.step {ns todo : List AccLine} {l : AccLine} (h : CleansBut pick (l :: todo) ls ms) (hl : StaysWritten l ms ns) :
    CleansBut pick todo ls ns := by
  intro b w c
  obtain ⟨hdata, hwait⟩ := h b w c
  rcases hl with ⟨hclean, rfl⟩ | ⟨f, -, hf, rfl⟩
  · refine ⟨hdata, fun y hy hp => ?_⟩
    rcases hwait y hy hp with hs | ⟨m, hm, hat, hdirty⟩
    · exact .inl hs
    · rcases List.mem_cons.1 hm with rfl | hm
      · rw [hclean] at hdirty
        exact absurd hdirty (by decide)
      · exact .inr ⟨m, hm, hat, hdirty⟩
  · have hf := AccLine.settled_of hf
    rw [lineOf_updFirst fun x => (hf x).1]
    split
    · refine ⟨?_, fun y hy _ => ?_⟩
      · rw [← hdata]
        cases lineOf ms b w c with
        | none => rfl
        | some x => exact congrArg some (hf x).2.1
      · obtain ⟨x, -, rfl⟩ := Option.map_eq_some_iff.1 hy
        exact .inl (hf x).2.2
    · next hat =>
      refine ⟨hdata, fun y hy hp => ?_⟩
      rcases hwait y hy hp with hs | ⟨m, hm, hmat, hdirty⟩
      · exact .inl hs
      · rcases List.mem_cons.1 hm with rfl | hm
        · exact absurd hmat hat
        · exact .inr ⟨m, hm, hmat, hdirty⟩

theorem CleansBut.done (h : CleansBut pick [] ls ms) : Cleans pick ls ms := fun b w c =>
  ⟨(h b w c).1, fun y hy hp => ((h b w c).2 y hy hp).elim id fun ⟨_, hl, _⟩ => absurd hl List.not_mem_nil⟩

/-- All lines of an island that `pick` names are written back and stay. -/
theorem State.writeBack_cleans (pick : AccLine → Bool) (hwf : Tab.wf Slice.reset s.slices = true) (p : Nat) :
    ∃ z, State.Island p z s (s.writeBack p pick true) ∧ Cleans pick (s.slice p).dat.lines z.dat.lines := by
  have hfold (todo : List AccLine) : ∀ (t : State) (x : Slice), State.Island p x s t →
      CleansBut pick todo (s.slice p).dat.lines x.dat.lines →
      ∃ z, State.Island p z s (t.each todo fun s l => s.writeLine p l s.fab.nextId true) ∧
        Cleans pick (s.slice p).dat.lines z.dat.lines := by
    induction todo with
    | nil => exact fun t x hx hwait => ⟨x, hx, hwait.done⟩
    | cons l todo ih =>
      intro t x hx hwait
      obtain ⟨z, hz, hwritten⟩ := State.writeLine_stays hx.wf p l t.fab.nextId
      rw [hx.here] at hwritten
      exact ih _ z (hx.trans hz) (hwait.step hwritten)
  exact hfold _ s _ (.refl hwf p) (cleansBut_start _ _)

/-- The same in every island. -/
theorem State.writeBackAll_cleans (pick : Nat → AccLine → Bool) (hwf : Tab.wf Slice.reset s.slices = true) {p : Nat} (hp : p < 144) :
    Cleans (pick p) (s.slice p).dat.lines ((s.writeBackAll pick true).slice p).dat.lines := by
  have hstep (t : State) (p : Nat) (_ : True) (hwf : Tab.wf Slice.reset t.slices = true) :
      True ∧ ∃ z, State.Island p z t (if (t.slice p).dat.lines.isEmpty then t else t.writeBack p (pick p) true) ∧
        Cleans (pick p) (t.slice p).dat.lines z.dat.lines := by
    refine ⟨trivial, ?_⟩
    split
    · next h =>
      refine ⟨_, .refl hwf p, ?_⟩
      rw [List.isEmpty_iff.1 h]
      exact fun b w c => ⟨rfl, fun y hy => nomatch hy⟩
    · exact State.writeBack_cleans (pick p) hwf p
  obtain ⟨-, hdone, -⟩ := State.slice_each (P := fun _ => True) (Q := fun p x y => Cleans (pick p) x.dat.lines y.dat.lines)
    (f := fun t p => if (t.slice p).dat.lines.isEmpty then t else t.writeBack p (pick p) true) (ps := List.range 144)
    hstep List.nodup_range trivial hwf
  unfold State.writeBackAll
  exact hdone p (List.mem_range.2 hp)

/-- Writing back counts, and touches the islands. -/
theorem State.writeBackAll_counted (s : State) (pick : Nat → AccLine → Bool) (keep : Bool) :
    Counted s (s.writeBackAll pick keep) ∧ Frame [.slices, .ctl, .evt, .mbx] s (s.writeBackAll pick keep) := by
  have hline (t : State) (p : Nat) (l : AccLine) (c : Nat) :
      Counted t (t.writeLine p l c keep) ∧ Frame [.slices, .ctl, .evt, .mbx] t (t.writeLine p l c keep) := by
    have hdat (t : State) (f : ChData → ChData) : Counted t (t.modDat p f) ∧ Frame [.slices, .ctl, .evt, .mbx] t (t.modDat p f) :=
      ⟨.of_frame (t.modSlice_frame ..) (by decide) (by decide), (t.modSlice_frame ..).mono (by decide)⟩
    unfold State.writeLine State.enterLine
    dsimp only
    split
    · split
      · exact ⟨.refl t, .refl ..⟩
      · exact hdat ..
    · split
      · have h1 := hdat t fun d => if keep = true then d.modLine l AccLine.clean else d.dropLine l.bank l.row l.col
        have h2 := hdat (t.modDat p fun d => if keep = true then d.modLine l AccLine.clean else d.dropLine l.bank l.row l.col) fun d =>
          d.wbAdd ⟨l.bank, l.row, l.col, rsEncode l.data, false, l.sub, c⟩
        exact ⟨h1.1.trans (h2.1.trans (State.count_counted ..)), h1.2.trans (h2.2.trans ((State.count_frame ..).mono (by decide)))⟩
      · exact hdat ..
  have hstep (t : State) (h : Counted s t ∧ Frame [.slices, .ctl, .evt, .mbx] s t) (p : Nat) (l : AccLine) (c : Nat) :
      Counted s (t.writeLine p l c keep) ∧ Frame [.slices, .ctl, .evt, .mbx] s (t.writeLine p l c keep) :=
    ⟨h.1.trans (hline t p l c).1, h.2.trans (hline t p l c).2⟩
  unfold State.writeBackAll
  refine State.each_induct (P := fun t => Counted s t ∧ Frame [.slices, .ctl, .evt, .mbx] s t) (fun t p ht => ?_) (List.range 144)
    ⟨.refl s, .refl ..⟩
  split
  · exact ht
  · exact State.each_induct (P := fun t => Counted s t ∧ Frame [.slices, .ctl, .evt, .mbx] s t) (fun u l hu => hstep u hu p l _) _ ht

end Sys2Proof.Machine
end

section
/-! ### ACC_FLUSH and RESEAL (R825, R828, R935) -/

namespace Sys2Proof.Machine

variable {s t u : State}

/-- The fourth check of a command that fails ends it with its code. -/
theorem checked_fail_fourth {masks : List Nat} {e e' e'' e''' : BitVec 8} {a b c d : Bool} {cs : List (Bool × BitVec 8)} {go : State → State}
    (hargs : s.takeDoorbell.argsBad masks = false) (ha : a = false) (hb : b = false) (hc : c = false) (hd : d = true) :
    s.takeDoorbell.checked masks ((a, e) :: (b, e') :: (c, e'') :: (d, e''') :: cs) go = { s with mbx := s.answer e''' [] } := by
  rw [checked_pass _ _ _ _ _ ha, checked_fail_third hargs hb hc hd]

/-- The fifth one. -/
theorem checked_fail_fifth {masks : List Nat} {e e' e'' e''' f : BitVec 8} {a b c d g : Bool} {cs : List (Bool × BitVec 8)}
    {go : State → State} (hargs : s.takeDoorbell.argsBad masks = false) (ha : a = false) (hb : b = false) (hc : c = false)
    (hd : d = false) (hg : g = true) :
    s.takeDoorbell.checked masks ((a, e) :: (b, e') :: (c, e'') :: (d, e''') :: (g, f) :: cs) go = { s with mbx := s.answer f [] } := by
  rw [checked_pass _ _ _ _ _ ha, checked_fail_fourth hargs hb hc hd hg]

/-- What a command that is BUSY leaves of its doorbell, once it ends in the same tick. -/
theorem finish_setRun_takeDoorbell (s : State) (x : RunCmd) (err : BitVec 8) (l : List Word) :
    (s.takeDoorbell.setRun x).finish err l = { s with mbx := s.answer err l } := rfl

/-! #### ACC_FLUSH -/

/-- Places of the dirty lines that a flush names. -/
def State.flushed (s : State) (pick : Nat → AccLine → Bool) : List Key := (List.range 144).flatMap fun p =>
  ((s.slice p).dat.lines.filter fun l => pick p l && l.dirty).map fun l => keyOf p l.bank l.row l.col

/-- A flush of `n` lines, of which those of `todo` wait. -/
def State.flushRun (s : State) (n : Nat) (todo : List Key) : State := s.setRun ⟨0x30, n, 0, todo, []⟩

theorem State.flushCheck_flushRun (s : State) (n : Nat) (todo : List Key) : (s.flushRun n todo).flushCheck =
    if s.linesOut.all (fun k => !todo.contains k) then (s.flushRun n todo).finish eOk [BitVec.ofNat 32 n] else s.flushRun n todo := by
  rw [State.flushCheck, running_of_run (s := s.flushRun n todo) (op := 0x30) rfl rfl]
  rfl

/-- A flush: what it names is written back and stays, and it ends once none of its dirty lines waits. -/
def State.flushes (s : State) (pick : Nat → AccLine → Bool) (n : Nat) : State :=
  let s1 := s.writeBackAll pick true
  (s1.flushRun n (s1.linesOut.filter (s.flushed pick).contains)).flushCheck

theorem mem_flushed {pick : Nat → AccLine → Bool} {k : Key} : k ∈ s.flushed pick ↔
    ∃ p l, p < 144 ∧ l ∈ (s.slice p).dat.lines ∧ pick p l = true ∧ l.dirty = true ∧ keyOf p l.bank l.row l.col = k := by
  simp only [State.flushed, List.mem_flatMap, List.mem_range, List.mem_map, List.mem_filter, Bool.and_eq_true]
  constructor
  · rintro ⟨p, hp, l, ⟨hl, hpick, hdirty⟩, hk⟩
    exact ⟨p, l, hp, hl, hpick, hdirty, hk⟩
  · rintro ⟨p, l, hp, hl, hpick, hdirty, hk⟩
    exact ⟨p, hp, l, ⟨hl, hpick, hdirty⟩, hk⟩

theorem linesOut_all_iff (pick : Nat → AccLine → Bool) (ks : List Key) :
    (ks.all fun k => !(ks.filter (s.flushed pick).contains).contains k) = true ↔ ∀ p l, p < 144 → l ∈ (s.slice p).dat.lines →
      pick p l = true → l.dirty = true → keyOf p l.bank l.row l.col ∉ ks := by
  simp only [List.all_eq_true, Bool.not_eq_true', List.contains_eq_mem, List.mem_filter, decide_eq_false_iff_not, decide_eq_true_eq, not_and]
  constructor
  · exact fun h p l hp hl hpick hdirty hk => h _ hk hk (mem_flushed.2 ⟨p, l, hp, hl, hpick, hdirty, rfl⟩)
  · intro h k hk _ hmine
    obtain ⟨p, l, hp, hl, hpick, hdirty, rfl⟩ := mem_flushed.1 hmine
    exact h p l hp hl hpick hdirty hk

theorem State.flushes_spec (hwf : Tab.wf Slice.reset s.slices = true) (pick : Nat → AccLine → Bool) (n : Nat) {t : State}
    (ht : s.flushes pick n = t) :
    (∀ p, p < 144 → Cleans (pick p) (s.slice p).dat.lines (t.slice p).dat.lines) ∧
      ((∀ p l, p < 144 → l ∈ (s.slice p).dat.lines → pick p l = true → l.dirty = true → keyOf p l.bank l.row l.col ∉ t.linesOut) →
        t.mbx.st = .done ∧ t.mbx.err = eOk ∧ t.mbx.resp = tabOf [BitVec.ofNat 32 n]) ∧
      ((¬ ∀ p l, p < 144 → l ∈ (s.slice p).dat.lines → pick p l = true → l.dirty = true → keyOf p l.bank l.row l.col ∉ t.linesOut) →
        t.mbx.st = s.mbx.st) ∧ Frame [.slices, .ctl, .evt, .mbx] s t := by
  have hclean := fun p => State.writeBackAll_cleans pick hwf (p := p)
  obtain ⟨hcounted, hframe⟩ := s.writeBackAll_counted pick true
  unfold State.flushes at ht
  generalize s.writeBackAll pick true = u at *
  have hst : u.mbx.st = s.mbx.st := by rw [hcounted.2]
  dsimp only at ht
  rw [State.flushCheck_flushRun] at ht
  have hrun : Frame [.slices, .ctl, .evt, .mbx] s (u.flushRun n (u.linesOut.filter (s.flushed pick).contains)) :=
    hframe.trans ((setRun_frame ..).mono (by decide))
  have hall := linesOut_all_iff (s := s) pick u.linesOut
  split at ht
  · next hdone =>
    subst ht
    exact ⟨fun p => hclean p, fun _ => ⟨rfl, rfl, rfl⟩, fun h => absurd (hall.1 hdone) h, hrun.trans ((finish_frame ..).mono (by decide))⟩
  · next hwait =>
    subst ht
    exact ⟨fun p => hclean p, fun h => absurd (hall.2 h) hwait, fun _ => hst, hrun⟩

/-- The lines that ACC_FLUSH names. -/
def State.flushPick (s : State) (p : Nat) (l : AccLine) : Bool :=
  s.argf 0 8 1 == 1 || ((s.namedRegions isAccum).map (regionAt s.cfg.regions)).any (s.lineIn p l)

section
variable (hr : s.Rings 0x30 true) (ha : s.takeDoorbell.argsBad [0x13F] = false)
include hr ha

theorem exec_accFlush_fails {e : BitVec 8} (h : (s.takeDoorbell.allBad = true ∧ e = eBadarg) ∨
    (s.takeDoorbell.allBad = false ∧ s.noChannels = true ∧ e = eState) ∨
    (s.takeDoorbell.allBad = false ∧ s.noChannels = false ∧ s.takeDoorbell.namedBad isAccum = true ∧ e = eBadarg)) :
    exec .accFlush s = .next { s with mbx := s.answer e [] } := by
  rw [exec_of_rings hr rfl, State.cmdAccFlush]
  rcases h with ⟨hall, rfl⟩ | ⟨hall, hch, rfl⟩ | ⟨hall, hch, hnamed, rfl⟩
  · exact congrArg _ (takeDoorbell_checked_fail ha hall)
  · exact congrArg _ (checked_fail_second ha hall hch)
  · exact congrArg _ (checked_fail_third ha hall hch hnamed)

theorem exec_accFlush (hall : s.takeDoorbell.allBad = false) (hch : s.noChannels = false)
    (hnamed : s.takeDoorbell.namedBad isAccum = false) : exec .accFlush s = .next (s.takeDoorbell.flushes s.takeDoorbell.flushPick
      ((List.range 144).map fun p => ((s.slice p).dat.lines.filter fun l => s.takeDoorbell.flushPick p l && l.dirty).length).sum) := by
  rw [exec_of_rings hr rfl, State.cmdAccFlush, checked_of_pass ha (by simp [hall, hch, hnamed])]
  rfl

end

/-! #### RESEAL -/

/-- There is something to reseal in the named regions, or a reseal's write waits. -/
def State.Unsealed (s : State) : Prop :=
  (∃ k ∈ s.fab.stale, (s.stk.sliceOf (k / (32 * 16384)) (k % 16384)).isSome = true ∧
    ∃ j ∈ s.takeDoorbell.namedRegions isPinned, pinnedHolds (regionAt s.cfg.regions j) (k / (32 * 16384)) (k % 16384) = true) ∨
  ∃ p w, p < 144 ∧ w ∈ (s.slice p).dat.fow ∧ w.sub = 43 ∧ w.raw = false

/-- The RESEAL command as it begins. -/
def State.resealing (s : State) : State := s.takeDoorbell.setRun ⟨0x32, 0, 0, s.takeDoorbell.namedRegions isPinned, [0]⟩

theorem State.resealNext_resealing (s : State) : s.resealing.resealNext = none ↔
    ¬ ∃ k ∈ s.fab.stale, (s.stk.sliceOf (k / (32 * 16384)) (k % 16384)).isSome = true ∧
      ∃ j ∈ s.takeDoorbell.namedRegions isPinned, pinnedHolds (regionAt s.cfg.regions j) (k / (32 * 16384)) (k % 16384) = true := by
  change s.fab.stale.find? (fun k => decide (0 ≤ k) && (s.stk.sliceOf (k / (32 * 16384)) (k % 16384)).isSome &&
    (s.takeDoorbell.namedRegions isPinned).any fun i => pinnedHolds (regionAt s.cfg.regions i) (k / (32 * 16384)) (k % 16384)) = none ↔ _
  rw [List.find?_eq_none]
  simp only [Nat.zero_le, decide_true, Bool.true_and, Bool.and_eq_true, List.any_eq_true, not_exists, not_and]

theorem State.fow_resealing (s : State) :
    ((List.range 144).any fun p => (s.resealing.slice p).dat.fow.any fun w => w.sub == 43 && !w.raw) = true ↔
      ∃ p w, p < 144 ∧ w ∈ (s.slice p).dat.fow ∧ w.sub = 43 ∧ w.raw = false := by
  change ((List.range 144).any fun p => (s.slice p).dat.fow.any fun w => w.sub == 43 && !w.raw) = true ↔ _
  simp only [List.any_eq_true, List.mem_range, Bool.and_eq_true, beq_iff_eq, Bool.not_eq_true']
  constructor
  · rintro ⟨p, hp, w, hw, hsub, hraw⟩
    exact ⟨p, w, hp, hw, hsub, hraw⟩
  · rintro ⟨p, w, hp, hw, hsub, hraw⟩
    exact ⟨p, hp, w, hw, hsub, hraw⟩

theorem State.resealCheck_resealing (s : State) : (¬ s.Unsealed → s.resealing.resealCheck = { s with mbx := s.answer eOk [0, 0] }) ∧
    (s.Unsealed → s.resealing.resealCheck = s.resealing) := by
  have hnext := s.resealNext_resealing
  have hfow := s.fow_resealing
  have hcheck : s.resealing.resealCheck = if (s.resealing.resealNext.isNone &&
      !(List.range 144).any fun p => (s.resealing.slice p).dat.fow.any fun w => w.sub == 43 && !w.raw) = true then
        s.resealing.finish eOk [0, 0] else s.resealing := rfl
  generalize ((List.range 144).any fun p => (s.resealing.slice p).dat.fow.any fun w => w.sub == 43 && !w.raw) = waits at *
  refine ⟨fun h => ?_, fun h => ?_⟩
  · obtain ⟨hrow, hwrite⟩ := not_or.1 h
    rw [hcheck, hnext.2 hrow, Bool.eq_false_iff.2 (mt hfow.1 hwrite), if_pos (by decide)]
    rfl
  · rw [hcheck, if_neg]
    rcases h with hrow | hwrite
    · have hsome := mt hnext.1 (not_not.2 hrow)
      simp [Option.isNone_iff_eq_none, hsome]
    · rw [hfow.2 hwrite]
      simp

section
variable (hr : s.Rings 0x32 true) (ha : s.takeDoorbell.argsBad [0x13F] = false)
include hr ha

theorem exec_reseal_fails {e : BitVec 8} (h : (s.takeDoorbell.allBad = true ∧ e = eBadarg) ∨
    (s.takeDoorbell.allBad = false ∧ s.noChannels = true ∧ e = eState) ∨
    (s.takeDoorbell.allBad = false ∧ s.noChannels = false ∧ s.takeDoorbell.namedBad isPinned = true ∧ e = eBadarg)) :
    exec .reseal s = .next { s with mbx := s.answer e [] } := by
  rw [exec_of_rings hr rfl, State.cmdReseal]
  rcases h with ⟨hall, rfl⟩ | ⟨hall, hch, rfl⟩ | ⟨hall, hch, hnamed, rfl⟩
  · exact congrArg _ (takeDoorbell_checked_fail ha hall)
  · exact congrArg _ (checked_fail_second ha hall hch)
  · exact congrArg _ (checked_fail_third ha hall hch hnamed)

theorem exec_reseal (hall : s.takeDoorbell.allBad = false) (hch : s.noChannels = false)
    (hnamed : s.takeDoorbell.namedBad isPinned = false) : exec .reseal s = .next s.resealing.resealCheck := by
  rw [exec_of_rings hr rfl, State.cmdReseal, checked_of_pass ha (by simp [hall, hch, hnamed])]
  rfl

end

end Sys2Proof.Machine
end

section
/-! ### BREW_LOAD, RESTORE_CONTEXT, DIGEST_REGION and SAVE_CONTEXT (R742, R827, R838, R840, R841) -/

namespace Sys2Proof.Machine

variable {s t u : State}

/-- Of the control port a word that is sent changes its crossing queue and the words on their way. -/
theorem State.tell_ctl (s : State) (q i : Nat) (w : CtlWord) :
    (s.tell q i w).ctl = { (s.icqPass q i).ctl with words := (s.tell q i w).ctl.words } := by
  by_cases h : s.icqSeen q i ≤ s.sys.ltc
  · rw [State.tell_of_seen h, (State.noteWord_frame ..).2 .ctl (by decide)]
  · rw [State.tell_of_unseen h]
    rfl

/-! #### BREW_LOAD -/

/-- The program that a load names lies in one PLAIN region. -/
def State.loadPlain (s : State) : Bool :=
  match findRegion s.cfg.regions s.loadAddr with
  | some x =>
    let r := regionAt s.cfg.regions x
    rType r == 0 && decide (s.loadAddr + 8 * s.argf 0 16 9 ≤ rLo r + rS r)
  | none => false

theorem State.loadPlain_none (h : findRegion s.cfg.regions s.loadAddr = none) : s.loadPlain = false := by
  rw [State.loadPlain, h]

theorem State.loadPlain_some {x : Nat} (h : findRegion s.cfg.regions s.loadAddr = some x) : s.loadPlain = true ↔
    rType (regionAt s.cfg.regions x) = 0 ∧
      s.loadAddr + 8 * s.argf 0 16 9 ≤ rLo (regionAt s.cfg.regions x) + rS (regionAt s.cfg.regions x) := by
  rw [State.loadPlain, h]
  simp

/-- The state with slot `i` of the program store empty, and its program digest. -/
def State.emptied (s : State) (i : Nat) : State := (s.modFab fun f => { f with progs := Tab.set [] f.progs i [] }).newPd

theorem State.emptied_frame (s : State) (i : Nat) : Frame [.fab, .det] s (s.emptied i) :=
  ((s.modFab_frame _).mono (by decide)).trans ((State.modDet_frame ..).mono (by decide))

/-- The checks of BREW_LOAD in their order, and what it begins (R827). -/
theorem exec_brewLoad (hr : s.Rings 0x31 true) : exec .brewLoad s = .next (
    s.takeDoorbell.checked [0x1FF003F, 0xFFFFFFFF, 0x1F, 0xFFFFFFFF]
      [(s.takeDoorbell.argf 0 16 9 == 0 && (s.takeDoorbell.arg 1 != 0 || s.takeDoorbell.arg 2 != 0 || s.takeDoorbell.arg 3 != 0), eBadarg),
        (decide (256 < s.takeDoorbell.argf 0 16 9) || s.takeDoorbell.loadAddr % 8 != 0, eRange), (s.noChannels, eState),
        (!(s.takeDoorbell.argf 0 16 9 == 0) && !s.takeDoorbell.loadPlain, eBadarg), (s.fab.slotInUse (s.takeDoorbell.argf 0 0 6), eBusy)]
      fun u => if s.takeDoorbell.argf 0 16 9 == 0 then (u.emptied (s.takeDoorbell.argf 0 0 6)).finish eOk []
        else u.setRun ⟨0x31, s.takeDoorbell.argf 0 0 6, s.takeDoorbell.argf 0 16 9, [], []⟩) := by
  rw [exec_of_rings hr rfl]
  rfl

/-- With no other argument the address is 0. -/
theorem loadAddr_zero (h1 : s.takeDoorbell.arg 1 = 0) (h2 : s.takeDoorbell.arg 2 = 0) : s.takeDoorbell.loadAddr = 0 := by
  rw [State.loadAddr, State.argf, h1, h2]
  rfl

section
variable (hr : s.Rings 0x31 true) (ha : s.takeDoorbell.argsBad [0x1FF003F, 0xFFFFFFFF, 0x1F, 0xFFFFFFFF] = false)
  (hn : s.takeDoorbell.argf 0 16 9 = 0)
include hr ha hn

theorem exec_brewLoad_empty_badarg (h : s.takeDoorbell.arg 1 ≠ 0 ∨ s.takeDoorbell.arg 2 ≠ 0 ∨ s.takeDoorbell.arg 3 ≠ 0) :
    exec .brewLoad s = .next { s with mbx := s.answer eBadarg [] } := by
  rw [exec_brewLoad hr]
  exact congrArg _ (takeDoorbell_checked_fail ha (by simpa [hn, or_assoc] using h))

section
variable (h1 : s.takeDoorbell.arg 1 = 0) (h2 : s.takeDoorbell.arg 2 = 0) (h3 : s.takeDoorbell.arg 3 = 0)
include h1 h2 h3

theorem exec_brewLoad_empty_state (hch : s.noChannels = true) : exec .brewLoad s = .next { s with mbx := s.answer eState [] } := by
  rw [exec_brewLoad hr]
  exact congrArg _ (checked_fail_third ha (by simp [h1, h2, h3]) (by simp [hn, loadAddr_zero h1 h2]) hch)

theorem exec_brewLoad_empty_busy (hch : s.noChannels = false) (huse : s.fab.slotInUse (s.takeDoorbell.argf 0 0 6) = true) :
    exec .brewLoad s = .next { s with mbx := s.answer eBusy [] } := by
  rw [exec_brewLoad hr]
  exact congrArg _ (checked_fail_fifth ha (by simp [h1, h2, h3]) (by simp [hn, loadAddr_zero h1 h2]) hch (by simp [hn]) huse)

theorem exec_brewLoad_empty (hch : s.noChannels = false) (huse : s.fab.slotInUse (s.takeDoorbell.argf 0 0 6) = false) :
    exec .brewLoad s = .next ((s.takeDoorbell.emptied (s.takeDoorbell.argf 0 0 6)).finish eOk []) := by
  rw [exec_brewLoad hr, checked_of_pass ha (by simp [h1, h2, h3, hn, loadAddr_zero h1 h2, hch, huse]), if_pos (by rw [hn]; rfl)]

end

end

section
variable (hr : s.Rings 0x31 true) (ha : s.takeDoorbell.argsBad [0x1FF003F, 0xFFFFFFFF, 0x1F, 0xFFFFFFFF] = false)
  (hn : s.takeDoorbell.argf 0 16 9 ≠ 0)
include hr ha hn

theorem exec_brewLoad_range (h : 256 < s.takeDoorbell.argf 0 16 9 ∨ s.takeDoorbell.loadAddr % 8 ≠ 0) :
    exec .brewLoad s = .next { s with mbx := s.answer eRange [] } := by
  rw [exec_brewLoad hr]
  exact congrArg _ (checked_fail_second ha (by simp [hn]) (by simpa using h))

section
variable (hlen : s.takeDoorbell.argf 0 16 9 ≤ 256) (halign : s.takeDoorbell.loadAddr % 8 = 0)
include hlen halign

theorem exec_brewLoad_state (hch : s.noChannels = true) : exec .brewLoad s = .next { s with mbx := s.answer eState [] } := by
  rw [exec_brewLoad hr]
  exact congrArg _ (checked_fail_third ha (by simp [hn]) (by simp [hlen, halign]) hch)

variable (hch : s.noChannels = false)
include hch

theorem exec_brewLoad_badarg (hplain : ¬ s.takeDoorbell.loadPlain = true) :
    exec .brewLoad s = .next { s with mbx := s.answer eBadarg [] } := by
  rw [exec_brewLoad hr]
  exact congrArg _ (checked_fail_fourth ha (by simp [hn]) (by simp [hlen, halign]) hch (by simp [hn, hplain]))

variable (hplain : s.takeDoorbell.loadPlain = true)
include hplain

theorem exec_brewLoad_busy (huse : s.fab.slotInUse (s.takeDoorbell.argf 0 0 6) = true) :
    exec .brewLoad s = .next { s with mbx := s.answer eBusy [] } := by
  rw [exec_brewLoad hr]
  exact congrArg _ (checked_fail_fifth ha (by simp [hn]) (by simp [hlen, halign]) hch (by simp [hplain]) huse)

theorem exec_brewLoad_run (huse : s.fab.slotInUse (s.takeDoorbell.argf 0 0 6) = false) : exec .brewLoad s = .next { s with
    mbx := s.busyWith (some ⟨0x31, s.takeDoorbell.argf 0 0 6, s.takeDoorbell.argf 0 16 9, [], []⟩) } := by
  rw [exec_brewLoad hr, checked_of_pass ha (by simp [hn, hlen, halign, hch, hplain, huse]), if_neg (by simpa using hn), setRun_takeDoorbell]

end

end

/-! #### RESTORE_CONTEXT, DIGEST_REGION, SAVE_CONTEXT -/

theorem exec_restoreContext (hr : s.Rings 0x61 true) (ha : s.takeDoorbell.argsBad [0x3F] = false) : exec .restoreContext s = .next
    { s with mbx := if s.noChannels then s.answer eState [] else s.busyWith (some ⟨0x61, s.takeDoorbell.argf 0 0 6, 0, [], []⟩) } := by
  rw [exec_of_rings hr rfl, State.cmdRestoreContext]
  by_cases hch : s.noChannels = true
  · rw [if_pos hch]
    exact congrArg _ (takeDoorbell_checked_fail ha hch)
  · rw [if_neg hch, checked_of_pass ha (by simp [hch]), setRun_takeDoorbell]

section
variable (hr : s.Rings 0x51 true) (ha : s.takeDoorbell.argsBad [0xF3F] = false)
include hr ha

theorem exec_digestRegion_fails {e : BitVec 8} (h : (s.noChannels = true ∧ e = eState) ∨
    (s.noChannels = false ∧ rEn (regionAt s.cfg.regions (s.takeDoorbell.argf 0 0 6)) = false ∧ e = eBadarg) ∨
    (s.noChannels = false ∧ rEn (regionAt s.cfg.regions (s.takeDoorbell.argf 0 0 6)) = true ∧
      rRounded (regionAt s.cfg.regions (s.takeDoorbell.argf 0 0 6)) = true ∧ e = eNotsup)) :
    exec .digestRegion s = .next { s with mbx := s.answer e [] } := by
  rw [exec_of_rings hr rfl, State.cmdDigestRegion]
  rcases h with ⟨hch, rfl⟩ | ⟨hch, hen, rfl⟩ | ⟨hch, hen, hround, rfl⟩
  · exact congrArg _ (takeDoorbell_checked_fail ha hch)
  · exact congrArg _ (checked_fail_second ha hch (by rw [takeDoorbell_cfg, hen]; rfl))
  · exact congrArg _ (checked_fail_third ha hch (by rw [takeDoorbell_cfg, hen]; rfl) hround)

theorem exec_digestRegion (hch : s.noChannels = false) (hen : rEn (regionAt s.cfg.regions (s.takeDoorbell.argf 0 0 6)) = true)
    (hround : rRounded (regionAt s.cfg.regions (s.takeDoorbell.argf 0 0 6)) = false) : exec .digestRegion s = .next
      { s with mbx := s.busyWith (some ⟨0x51, s.takeDoorbell.argf 0 8 4, 0, [], []⟩) } := by
  rw [exec_of_rings hr rfl, State.cmdDigestRegion]
  rw [checked_of_pass ha (by simp [hch, hen, hround]), setRun_takeDoorbell]

end

section
variable (hr : s.Rings 0x60 true) (ha : s.takeDoorbell.argsBad [0x3F] = false)
include hr ha

theorem exec_saveContext_state (h : s.noChannels = true ∨ s.anyStale = true) :
    exec .saveContext s = .next { s with mbx := s.answer eState [] } := by
  rw [exec_of_rings hr rfl, State.cmdSaveContext]
  refine congrArg _ (takeDoorbell_checked_fail ha ?_)
  change (s.noChannels || s.anyStale) = true
  simpa using h

section
variable (hch : s.noChannels = false) (hstale : s.anyStale = false)
include hch hstale

theorem exec_saveContext_badarg (h : ¬ (rEn (regionAt s.cfg.regions (s.takeDoorbell.argf 0 0 6)) = true ∧
    rType (regionAt s.cfg.regions (s.takeDoorbell.argf 0 0 6)) = 0 ∧ rWp (regionAt s.cfg.regions (s.takeDoorbell.argf 0 0 6)) = false ∧
      141124 ≤ rS (regionAt s.cfg.regions (s.takeDoorbell.argf 0 0 6)))) :
    exec .saveContext s = .next { s with mbx := s.answer eBadarg [] } := by
  rw [exec_of_rings hr rfl, State.cmdSaveContext]
  refine congrArg _ (checked_fail_second ha ?_ ?_)
  · change (s.noChannels || s.anyStale) = false
    rw [hch, hstale]
    rfl
  · rw [takeDoorbell_cfg]
    by_contra hok
    simp only [Bool.not_eq_true, Bool.or_eq_false_iff, Bool.not_eq_false', bne_eq_false_iff_eq, decide_eq_false_iff_not, Nat.not_lt] at hok
    obtain ⟨⟨⟨hen, htype⟩, hwp⟩, hlen⟩ := hok
    exact h ⟨hen, htype, hwp, hlen⟩

theorem exec_saveContext (hen : rEn (regionAt s.cfg.regions (s.takeDoorbell.argf 0 0 6)) = true)
    (htype : rType (regionAt s.cfg.regions (s.takeDoorbell.argf 0 0 6)) = 0)
    (hwp : rWp (regionAt s.cfg.regions (s.takeDoorbell.argf 0 0 6)) = false)
    (hlen : 141124 ≤ rS (regionAt s.cfg.regions (s.takeDoorbell.argf 0 0 6))) :
    exec .saveContext s = .next ((s.takeDoorbell.holdAdm 1).setRun ⟨0x60, 0, 0, [s.sys.ltc], []⟩) := by
  have hstate : (s.takeDoorbell.noChannels || s.takeDoorbell.anyStale) = false := by
    change (s.noChannels || s.anyStale) = false
    rw [hch, hstale]
    rfl
  rw [exec_of_rings hr rfl, State.cmdSaveContext]
  have hfits : (!rEn (regionAt s.cfg.regions (s.takeDoorbell.argf 0 0 6)) || rType (regionAt s.cfg.regions (s.takeDoorbell.argf 0 0 6)) != 0 ||
      rWp (regionAt s.cfg.regions (s.takeDoorbell.argf 0 0 6)) ||
        decide (rS (regionAt s.cfg.regions (s.takeDoorbell.argf 0 0 6)) < ctxLen)) = false := by
    rw [hen, htype, hwp, decide_eq_false (p := rS (regionAt s.cfg.regions (s.takeDoorbell.argf 0 0 6)) < ctxLen) (Nat.not_lt.2 hlen)]
    rfl
  rw [checked_of_pass ha (by
    intro c hc
    simp only [List.mem_cons, List.not_mem_nil, or_false] at hc
    rcases hc with rfl | rfl
    · exact hstate
    · exact hfits), takeDoorbell_sys]

end

end

theorem exec_saveContextDrained {x : RunCmd} (hrun : s.mbx.run = some x) (hop : x.op = 0x60) : exec .saveContextDrained s = .next (
    if x.a ≠ 0 ∨ s.portsEmpty = false ∨ s.fab.hold.contains 1 = false then s
    else (s.writeBackAll (fun _ _ => true) true).setRun { x with a := 1, vals := s.ctxImage }) := by
  change execSaveContextDrained s = _
  rw [execSaveContextDrained, running_of_run hrun hop]
  refine congrArg _ (if_congr ?_ rfl rfl)
  simp only [Bool.or_eq_true, decide_eq_true_eq, Bool.not_eq_true', or_assoc]

theorem exec_saveContextTimeout {x : RunCmd} (hrun : s.mbx.run = some x) (hop : x.op = 0x60) : exec .saveContextTimeout s = .next (
    if x.a ≠ 0 ∨ s.portsEmpty = true ∨ s.sys.ltc < x.todo.headD 0 + 4000000 then s else (s.freeAdm 1).finish eTimeout []) := by
  change execSaveContextTimeout s = _
  rw [execSaveContextTimeout, running_of_run hrun hop]
  refine congrArg _ (if_congr ?_ rfl rfl)
  simp only [Bool.or_eq_true, decide_eq_true_eq, or_assoc]
  rfl

theorem State.freeAdm_frame (s : State) (c : Nat) : Frame [.fab, .ctl] s (s.freeAdm c) := by
  have hpass : Frame [.fab, .ctl] s (s.icqPass 7 0) := (s.icqPass_frame 7 0).mono (by decide)
  unfold State.freeAdm
  by_cases h : s.icqSeen 7 0 ≤ s.sys.ltc
  · rw [State.tell_of_seen h]
    exact hpass.trans ((State.modFab_frame ..).mono (by decide))
  · rw [State.tell_of_unseen h]
    exact hpass.trans ((State.modCtl_frame ..).mono (by decide))

/-- Settles O51: each command's checks in their order, and what it begins. -/
theorem memoryCommands : Obligations.MemoryCommands := by
  unfold Obligations.MemoryCommands
  intro s ⟨_, _, hwf, _⟩ r reg i n pick clean settled
  refine ⟨fun hr ha => ⟨fun hall => exec_accFlush_fails hr ha (.inl ⟨hall, rfl⟩),
      fun hall hch => exec_accFlush_fails hr ha (.inr (.inl ⟨hall, hch, rfl⟩)),
      fun hall hch hnamed => exec_accFlush_fails hr ha (.inr (.inr ⟨hall, hch, hnamed, rfl⟩)), fun hall hch hnamed => ?_⟩,
    fun hr ha hall => exec_reseal_fails hr ha (.inl ⟨hall, rfl⟩),
    fun hr ha hall => ⟨fun hch => exec_reseal_fails hr ha (.inr (.inl ⟨hall, hch, rfl⟩)),
      fun hch hnamed => exec_reseal_fails hr ha (.inr (.inr ⟨hall, hch, hnamed, rfl⟩)), fun hch hnamed =>
        ⟨fun hsealed => ?_, fun hstale => ?_⟩⟩,
    fun hr ha => ⟨exec_brewLoad_empty_badarg hr ha, fun hn h1 h2 h3 => ⟨exec_brewLoad_empty_state hr ha hn h1 h2 h3,
        exec_brewLoad_empty_busy hr ha hn h1 h2 h3, fun hch huse => ?_⟩,
      fun hn => ⟨exec_brewLoad_range hr ha hn, exec_brewLoad_state hr ha hn, fun hlen halign hch => ⟨fun hnone => ?_, fun x hx => ?_⟩⟩⟩,
    fun hr ha => ⟨fun hch => ?_, fun hch => ?_⟩,
    fun hr ha => ⟨fun hch => exec_digestRegion_fails hr ha (.inl ⟨hch, rfl⟩),
      fun hch hen => exec_digestRegion_fails hr ha (.inr (.inl ⟨hch, hen, rfl⟩)),
      fun hch hen hround => exec_digestRegion_fails hr ha (.inr (.inr ⟨hch, hen, hround, rfl⟩)), exec_digestRegion hr ha⟩,
    fun hr ha => ⟨exec_saveContext_state hr ha, exec_saveContext_badarg hr ha, fun hch hstale ⟨hen, htype, hwp, hlen⟩ => ?_⟩,
    fun x hrun hop => ⟨fun hwait => ?_, fun hdone hports hheld => ?_, fun hwait => ?_, fun hdone hports hlate => ?_⟩⟩
  · have hexec := exec_accFlush hr ha hall hch hnamed
    generalize ht : s.takeDoorbell.flushes _ _ = t at hexec
    obtain ⟨hclean, hdone, hbusy, hframe⟩ := State.flushes_spec (s := s.takeDoorbell) hwf _ _ ht
    exact ⟨t, hexec, fun p b w c hp => hclean p hp b w c, hdone, hbusy, ((takeDoorbell_frame s).mono (by decide)).trans hframe⟩
  · rw [exec_reseal hr ha hall hch hnamed, s.resealCheck_resealing.1 hsealed]
  · rw [exec_reseal hr ha hall hch hnamed, s.resealCheck_resealing.2 hstale]
    rfl
  · refine ⟨_, exec_brewLoad_empty hr ha hn h1 h2 h3 hch huse, rfl, rfl, rfl, ?_⟩
    exact ((takeDoorbell_frame s).mono (by decide)).trans (((State.emptied_frame ..).mono (by decide)).trans
      ((finish_frame ..).mono (by decide)))
  · exact exec_brewLoad_badarg hr ha hn hlen halign hch (by rw [State.loadPlain_none hnone]; decide)
  · have hplain := State.loadPlain_some (s := s.takeDoorbell) hx
    refine ⟨fun hbad => exec_brewLoad_badarg hr ha hn hlen halign hch (mt hplain.1 fun ⟨htype, hend⟩ => ?_),
      fun htype hend => exec_brewLoad_busy hr ha hn hlen halign hch (hplain.2 ⟨htype, hend⟩),
      fun htype hend => exec_brewLoad_run hr ha hn hlen halign hch (hplain.2 ⟨htype, hend⟩)⟩
    exact hbad.elim (fun h => h htype) fun h => Nat.not_lt.2 hend h
  · rw [exec_restoreContext hr ha, if_pos hch]
  · rw [exec_restoreContext hr ha, hch]
    rfl
  · refine ⟨_, exec_saveContext hr ha hch hstale hen htype hwp hlen, s.takeDoorbell.tell_tells 7 0 (.admHold 1),
      s.takeDoorbell.tell_ctl 7 0 (.admHold 1), ?_, ?_⟩
    · exact congrArg (fun x : Mbx => { x with run := some ⟨0x60, 0, 0, [s.sys.ltc], []⟩ })
        ((s.takeDoorbell.holdAdm_frame 1).2 .mbx (by decide))
    · exact ((takeDoorbell_frame s).mono (by decide)).trans (((State.holdAdm_frame ..).mono (by decide)).trans
        ((setRun_frame ..).mono (by decide)))
  · rw [exec_saveContextDrained hrun hop, if_pos hwait]
  · have hexec := exec_saveContextDrained hrun hop
    rw [if_neg (by rw [hports, hheld]; simpa using hdone)] at hexec
    have hclean := fun p => State.writeBackAll_cleans (s := s) (fun _ _ => true) hwf (p := p)
    obtain ⟨hcounted, hframe⟩ := s.writeBackAll_counted (fun _ _ => true) true
    generalize s.writeBackAll (fun _ _ => true) true = u at *
    refine ⟨_, hexec, fun p b w c hp => hclean p hp b w c, rfl, ?_, ⟨hcounted.1, ?_⟩, hframe.trans ((setRun_frame ..).mono (by decide))⟩
    · change u.mbx.st = s.mbx.st
      rw [hcounted.2]
    · change { u.mbx with run := s.mbx.run } = { s.mbx with irq := u.mbx.irq }
      rw [hcounted.2]
  · rw [exec_saveContextTimeout hrun hop, if_pos hwait]
  · have hexec := exec_saveContextTimeout hrun hop
    rw [if_neg (by rw [hports]; simpa [hdone] using hlate)] at hexec
    have hmbx : (s.freeAdm 1).mbx = s.mbx := (s.tell_frame 7 0 (.admFree 1)).2 .mbx (by decide)
    refine ⟨_, hexec, s.tell_tells 7 0 (.admFree 1), s.tell_ctl 7 0 (.admFree 1), ?_, ((s.freeAdm_frame 1).mono (by decide)).trans ((finish_frame ..).mono (by decide))⟩
    rw [finish_fails (by decide)]
    exact congrArg (fun x : Mbx => State.ended { s with mbx := x } eTimeout []) hmbx

end Sys2Proof.Machine
end

section
/-! ### RETRAIN and CAL_RUN (R632, R829, R830) -/

namespace Sys2Proof.Machine

variable {s t u : State}

/-- The mailbox of a command that has been accepted with PENDING and works on `todo` (R759, R760). -/
def State.pendingWith (s : State) (op : BitVec 8) (todo : List Nat) : Mbx := { s.answer eOk [] with
  pend := true
  pending := s.mbx.pending ++ [⟨op, (List.range 16).map s.takeDoorbell.arg, todo⟩] }

/-! #### RETRAIN -/

section
variable (hr : s.Rings 0x40 true) (ha : s.takeDoorbell.argsBad [0xFF] = false)
include hr ha

theorem exec_retrain_range (hp : 144 ≤ s.takeDoorbell.argf 0 0 8) : exec .retrain s = .next { s with mbx := s.answer eRange [] } := by
  rw [exec_of_rings hr rfl, State.cmdRetrain]
  exact congrArg _ (takeDoorbell_checked_fail ha (decide_eq_true hp))

variable (hp : s.takeDoorbell.argf 0 0 8 < 144)
include hp

theorem exec_retrain_state (h : s.noChannels = true ∨ ((s.slice (s.takeDoorbell.argf 0 0 8)).link.up = false ∧
    (s.slice (s.takeDoorbell.argf 0 0 8)).link.state ≠ .retrain)) : exec .retrain s = .next { s with mbx := s.answer eState [] } := by
  rw [exec_of_rings hr rfl, State.cmdRetrain]
  refine congrArg _ (checked_fail_second ha (decide_eq_false (Nat.not_le.2 hp)) ?_)
  change (s.noChannels || !((s.slice (s.takeDoorbell.argf 0 0 8)).link.up || (s.slice (s.takeDoorbell.argf 0 0 8)).link.state == .retrain)) = true
  rcases h with h | ⟨hup, hstate⟩
  · rw [h, Bool.true_or]
  · rw [hup, beq_eq_false_iff_ne.2 hstate]
    exact Bool.or_true _

theorem exec_retrain (hch : s.noChannels = false) (h : (s.slice (s.takeDoorbell.argf 0 0 8)).link.up = true ∨
    (s.slice (s.takeDoorbell.argf 0 0 8)).link.state = .retrain) : exec .retrain s = .next
      ((s.takeDoorbell.startRetrain (s.takeDoorbell.argf 0 0 8) 0).setRun ⟨0x40, s.takeDoorbell.argf 0 0 8, 0, [], []⟩) := by
  rw [exec_of_rings hr rfl, State.cmdRetrain]
  refine congrArg _ (checked_of_pass ha fun c hc => ?_)
  simp only [List.mem_cons, List.not_mem_nil, or_false] at hc
  rcases hc with rfl | rfl
  · exact decide_eq_false (Nat.not_le.2 hp)
  · change (s.noChannels || !((s.slice (s.takeDoorbell.argf 0 0 8)).link.up || (s.slice (s.takeDoorbell.argf 0 0 8)).link.state == .retrain)) = false
    rcases h with h | h <;> simp [hch, h]

end

/-! #### CAL_RUN -/

/-- A calibration pass is ordered of the bundle of slice `q`. -/
def State.calOrdered (s : State) (q : Nat) : State := (s.icqPass 3 q).modLink q fun x => { x with calCmd := true }

/-- Bundles in service that CAL_RUN names. -/
def State.calNamed (s : State) (p : Nat) : List Nat := (List.range 144).filter fun q => (s.slice q).rep.inServ && (p == 0xFF || p == q)

theorem State.calOrdered_frame (s : State) (q : Nat) : Frame [.slices, .ctl] s (s.calOrdered q) :=
  ((s.icqPass_frame 3 q).mono (by decide)).trans ((State.modSlice_frame ..).mono (by decide))

theorem State.each_calOrdered (hwf : Tab.wf Slice.reset s.slices = true) {l : List Nat} (hl : l.Nodup) {t : State}
    (ht : s.each l State.calOrdered = t) :
    (∀ q, t.slice q = if q ∈ l then { s.slice q with link := { (s.slice q).link with calCmd := true } } else s.slice q) ∧
      Crossed s t ∧ Frame [.slices, .ctl] s t := by
  subst ht
  obtain ⟨-, hdone, hrest⟩ := State.slice_each (P := fun _ => True) (f := State.calOrdered)
    (Q := fun _ x y => y = { x with link := { x.link with calCmd := true } })
    (fun t q _ hwf => ⟨trivial, _, ((State.Island.refl hwf q).framed (t.icqPass_frame 3 q)).modSlice fun x =>
      { x with link := { x.link with calCmd := true } }, rfl⟩) hl trivial hwf
  refine ⟨fun q => ?_, State.each_induct (P := Crossed s) (fun t q ht => ht.trans (show Crossed t (t.calOrdered q) from rfl)) l rfl, State.each_frame _ State.calOrdered_frame⟩
  split
  · next hq => exact hdone q hq
  · next hq => exact hrest q hq

section
variable (hr : s.Rings 0x41 true) (ha : s.takeDoorbell.argsBad [0xFF] = false)
include hr ha

theorem exec_calRun_range (hp : 144 ≤ s.takeDoorbell.argf 0 0 8) (hall : s.takeDoorbell.argf 0 0 8 ≠ 0xFF) :
    exec .calRun s = .next { s with mbx := s.answer eRange [] } := by
  rw [exec_of_rings hr rfl, State.cmdCalRun]
  exact congrArg _ (takeDoorbell_checked_fail ha (by simp [hp, hall]))

variable (hp : s.takeDoorbell.argf 0 0 8 < 144 ∨ s.takeDoorbell.argf 0 0 8 = 0xFF)
include hp

theorem exec_calRun_state (h : s.noChannels = true ∨ (s.takeDoorbell.argf 0 0 8 ≠ 0xFF ∧
    (s.slice (s.takeDoorbell.argf 0 0 8)).rep.inServ = false)) : exec .calRun s = .next { s with mbx := s.answer eState [] } := by
  rw [exec_of_rings hr rfl, State.cmdCalRun]
  refine congrArg _ (checked_fail_second ha (by simpa [imp_iff_not_or] using hp) ?_)
  change (s.noChannels || (s.takeDoorbell.argf 0 0 8 != 0xFF && !(s.slice (s.takeDoorbell.argf 0 0 8)).rep.inServ)) = true
  simpa using h

variable (hch : s.noChannels = false) (hserv : s.takeDoorbell.argf 0 0 8 = 0xFF ∨ (s.slice (s.takeDoorbell.argf 0 0 8)).rep.inServ = true)
include hch hserv

theorem exec_calRun_busy (hpend : s.isPending 0x41 = true) : exec .calRun s = .next { s with mbx := s.answer eBusy [] } := by
  rw [exec_of_rings hr rfl, State.cmdCalRun]
  refine congrArg _ (checked_fail_third ha (by simpa [imp_iff_not_or] using hp) ?_ hpend)
  change (s.noChannels || (s.takeDoorbell.argf 0 0 8 != 0xFF && !(s.slice (s.takeDoorbell.argf 0 0 8)).rep.inServ)) = false
  simpa [hch, imp_iff_not_or] using hserv

theorem exec_calRun (hpend : s.isPending 0x41 = false) {l : List Nat} (hl : s.calNamed (s.takeDoorbell.argf 0 0 8) = l) :
    exec .calRun s = .next (if l.isEmpty then ((s.takeDoorbell.each l State.calOrdered).finishPending l).endPending 0x41 eOk
      else (s.takeDoorbell.each l State.calOrdered).finishPending l) := by
  subst hl
  rw [exec_of_rings hr rfl, State.cmdCalRun]
  refine congrArg _ (checked_of_pass ha fun c hc => ?_)
  simp only [List.mem_cons, List.not_mem_nil, or_false] at hc
  rcases hc with rfl | rfl | rfl
  · simpa [imp_iff_not_or] using hp
  · change (s.noChannels || (s.takeDoorbell.argf 0 0 8 != 0xFF && !(s.slice (s.takeDoorbell.argf 0 0 8)).rep.inServ)) = false
    simpa [hch, imp_iff_not_or] using hserv
  · exact hpend

end

/-- The end of a pending command at once: it leaves the list as it was. -/
theorem dropFirst_append_single {α : Type} {p : α → Bool} {l : List α} {a : α} (hl : l.any p = false) (ha : p a = true) :
    dropFirst p (l ++ [a]) = l := by
  induction l with
  | nil =>
    simp [dropFirst, ha]
  | cons b l ih =>
    rw [List.any_cons, Bool.or_eq_false_iff] at hl
    rw [List.cons_append, dropFirst, hl.1, if_neg Bool.false_ne_true, ih hl.2]

end Sys2Proof.Machine
end

section
/-! ### MIGRATE and REBIND (R833 to R835) -/

namespace Sys2Proof.Machine

variable {s t u : State} {c g : Nat}

/-- TARGET `g` names a spare for channel `c`, or one can be picked (R834, R835). -/
def State.SpareFor (s : State) (c g : Nat) : Prop :=
  if g = 0xFF then (s.pickSpare (s.stk.remapAt c).ps).isSome = true else s.freeSpare g = true

/-- The code of the check on TARGET that fails. -/
def targetCode (g : Nat) : BitVec 8 := if g = 0xFF then eNospare else eBadarg

theorem State.targetChecks_pass (h : s.SpareFor c g) : ∀ x ∈ s.targetChecks c g, x.1 = false := by
  unfold State.SpareFor at h
  unfold State.targetChecks
  intro x hx
  simp only [List.mem_cons, List.not_mem_nil, or_false] at hx
  split at h
  · next hg => rcases hx with rfl | rfl <;> simp [hg, Option.isNone_eq_false_iff, h]
  · next hg => rcases hx with rfl | rfl <;> simp [hg, h]

theorem State.targetChecks_fail (h : ¬ s.SpareFor c g) {masks : List Nat} {go : State → State}
    (hargs : s.takeDoorbell.argsBad masks = false) :
    s.takeDoorbell.checked masks (s.targetChecks c g) go = { s with mbx := s.answer (targetCode g) [] } := by
  unfold State.SpareFor at h
  unfold State.targetChecks targetCode
  split at h
  · next hg =>
    rw [if_pos hg]
    refine checked_fail_second hargs (by simp [hg]) ?_
    simp only [Bool.not_eq_true, Option.isSome_eq_false_iff] at h
    simp [hg, h]
  · next hg =>
    rw [if_neg hg]
    exact takeDoorbell_checked_fail hargs (by simpa [hg] using h)

theorem checks_pass_append {l m : List (Bool × BitVec 8)} (hl : ∀ x ∈ l, x.1 = false) (hm : ∀ x ∈ m, x.1 = false) :
    ∀ x ∈ l ++ m, x.1 = false := fun x hx => (List.mem_append.1 hx).elim (hl x) (hm x)

/-- A command whose first three checks pass comes to the others. -/
theorem checked_pass_three {masks : List Nat} {e e' e'' : BitVec 8} {a b d : Bool} {cs : List (Bool × BitVec 8)} {go : State → State}
    (ha : a = false) (hb : b = false) (hd : d = false) :
    s.checked masks ([(a, e), (b, e'), (d, e'')] ++ cs) go = s.checked masks cs go := by
  rw [List.cons_append, checked_pass _ _ _ _ _ ha, List.cons_append, checked_pass _ _ _ _ _ hb, List.cons_append, checked_pass _ _ _ _ _ hd,
    List.nil_append]

/-! #### MIGRATE -/

theorem exec_migrate (hr : s.Rings 0x43 true) : exec .migrate s = .next (s.takeDoorbell.checked [0xFFFF7F]
    ([(decide (144 ≤ s.takeDoorbell.argf 0 16 8) && s.takeDoorbell.argf 0 16 8 != 0xFF, eRange),
      (s.noChannels || (s.stk.remapAt (s.takeDoorbell.argf 0 0 7)).st != .bound, eState),
      (s.isPending 0x43 || s.migKnown (s.takeDoorbell.argf 0 0 7), eBusy)] ++
        s.targetChecks (s.takeDoorbell.argf 0 0 7) (s.takeDoorbell.argf 0 16 8)) fun u =>
    (u.modStk fun k => { k with cands := k.cands ++
      [⟨s.takeDoorbell.argf 0 0 7, 4, s.takeDoorbell.argf 0 8 8, s.takeDoorbell.argf 0 16 8⟩] }).finishPending []) := by
  rw [exec_of_rings hr rfl, State.cmdMigrate]
  rfl

section
variable (hr : s.Rings 0x43 true) (ha : s.takeDoorbell.argsBad [0xFFFF7F] = false)
include hr ha

theorem exec_migrate_range (hg : 144 ≤ s.takeDoorbell.argf 0 16 8) (hall : s.takeDoorbell.argf 0 16 8 ≠ 0xFF) :
    exec .migrate s = .next { s with mbx := s.answer eRange [] } := by
  rw [exec_migrate hr]
  exact congrArg _ (takeDoorbell_checked_fail ha (by simp [hg, hall]))

variable (hg : s.takeDoorbell.argf 0 16 8 < 144 ∨ s.takeDoorbell.argf 0 16 8 = 0xFF)
include hg

theorem exec_migrate_state (h : s.noChannels = true ∨ (s.stk.remapAt (s.takeDoorbell.argf 0 0 7)).st ≠ .bound) :
    exec .migrate s = .next { s with mbx := s.answer eState [] } := by
  rw [exec_migrate hr]
  exact congrArg _ (checked_fail_second ha (by simpa [imp_iff_not_or] using hg) (by simpa using h))

variable (hch : s.noChannels = false) (hst : (s.stk.remapAt (s.takeDoorbell.argf 0 0 7)).st = .bound)
include hch hst

theorem exec_migrate_busy (h : s.isPending 0x43 = true ∨ s.migKnown (s.takeDoorbell.argf 0 0 7) = true) :
    exec .migrate s = .next { s with mbx := s.answer eBusy [] } := by
  rw [exec_migrate hr]
  exact congrArg _ (checked_fail_third ha (by simpa [imp_iff_not_or] using hg) (by simp [hch, hst]) (by simpa using h))

variable (hpend : s.isPending 0x43 = false) (hknown : s.migKnown (s.takeDoorbell.argf 0 0 7) = false)
include hpend hknown

theorem exec_migrate_nospare (h : ¬ s.SpareFor (s.takeDoorbell.argf 0 0 7) (s.takeDoorbell.argf 0 16 8)) :
    exec .migrate s = .next { s with mbx := s.answer (targetCode (s.takeDoorbell.argf 0 16 8)) [] } := by
  rw [exec_migrate hr, checked_pass_three (by simpa [imp_iff_not_or] using hg) (by simp [hch, hst]) (by simp [hpend, hknown]),
    State.targetChecks_fail h ha]

theorem exec_migrate_starts (h : s.SpareFor (s.takeDoorbell.argf 0 0 7) (s.takeDoorbell.argf 0 16 8)) :
    exec .migrate s = .next { s with
      stk := { s.stk with cands := s.stk.cands ++ [⟨s.takeDoorbell.argf 0 0 7, 4, s.takeDoorbell.argf 0 8 8, s.takeDoorbell.argf 0 16 8⟩] }
      mbx := s.pendingWith 0x43 [] } := by
  rw [exec_migrate hr, checked_pass_three (by simpa [imp_iff_not_or] using hg) (by simp [hch, hst]) (by simp [hpend, hknown]),
    checked_of_pass ha (State.targetChecks_pass h), State.pendingWith, show (0x43 : BitVec 8) = BitVec.ofNat 8 0x43 from rfl,
    ← copyCmd_of_rings hr]
  rfl

end

/-! #### REBIND -/

/-- The slice that REBIND makes the channel's new one. -/
def State.rebindTo (s : State) (c g : Nat) : Nat := if g = 0xFF then (s.pickSpare (s.stk.remapAt c).ps).getD 0 else g

/-- The state with the binding of channel `c` to slice `n` under way. -/
def State.rebinding (s : State) (c n : Nat) : State := (s.modStk fun k =>
  { k with migs := k.migs ++ [{ Mig.reset with chan := c, old := (s.stk.remapAt c).ps, new := n, rebind := true }] }).wakeSlice n

theorem exec_rebind (hr : s.Rings 0x44 true) : exec .rebind s = .next (s.takeDoorbell.checked [0xFF7F]
    ([(decide (144 ≤ s.takeDoorbell.argf 0 8 8) && s.takeDoorbell.argf 0 8 8 != 0xFF, eRange),
      (s.noChannels || (s.stk.remapAt (s.takeDoorbell.argf 0 0 7)).st != .fenced, eState),
      (s.isPending 0x44, eBusy)] ++ s.targetChecks (s.takeDoorbell.argf 0 0 7) (s.takeDoorbell.argf 0 8 8)) fun u =>
    (u.rebinding (s.takeDoorbell.argf 0 0 7) (u.rebindTo (s.takeDoorbell.argf 0 0 7) (s.takeDoorbell.argf 0 8 8))).finishPending []) := by
  rw [exec_of_rings hr rfl, State.cmdRebind]
  rfl

section
variable (hr : s.Rings 0x44 true) (ha : s.takeDoorbell.argsBad [0xFF7F] = false)
include hr ha

theorem exec_rebind_range (hg : 144 ≤ s.takeDoorbell.argf 0 8 8) (hall : s.takeDoorbell.argf 0 8 8 ≠ 0xFF) :
    exec .rebind s = .next { s with mbx := s.answer eRange [] } := by
  rw [exec_rebind hr]
  exact congrArg _ (takeDoorbell_checked_fail ha (by simp [hg, hall]))

variable (hg : s.takeDoorbell.argf 0 8 8 < 144 ∨ s.takeDoorbell.argf 0 8 8 = 0xFF)
include hg

theorem exec_rebind_state (h : s.noChannels = true ∨ (s.stk.remapAt (s.takeDoorbell.argf 0 0 7)).st ≠ .fenced) :
    exec .rebind s = .next { s with mbx := s.answer eState [] } := by
  rw [exec_rebind hr]
  exact congrArg _ (checked_fail_second ha (by simpa [imp_iff_not_or] using hg) (by simpa using h))

variable (hch : s.noChannels = false) (hst : (s.stk.remapAt (s.takeDoorbell.argf 0 0 7)).st = .fenced)
include hch hst

theorem exec_rebind_busy (h : s.isPending 0x44 = true) : exec .rebind s = .next { s with mbx := s.answer eBusy [] } := by
  rw [exec_rebind hr]
  exact congrArg _ (checked_fail_third ha (by simpa [imp_iff_not_or] using hg) (by simp [hch, hst]) h)

variable (hpend : s.isPending 0x44 = false)
include hpend

theorem exec_rebind_nospare (h : ¬ s.SpareFor (s.takeDoorbell.argf 0 0 7) (s.takeDoorbell.argf 0 8 8)) :
    exec .rebind s = .next { s with mbx := s.answer (targetCode (s.takeDoorbell.argf 0 8 8)) [] } := by
  rw [exec_rebind hr, checked_pass_three (by simpa [imp_iff_not_or] using hg) (by simp [hch, hst]) hpend, State.targetChecks_fail h ha]

theorem exec_rebind_starts (h : s.SpareFor (s.takeDoorbell.argf 0 0 7) (s.takeDoorbell.argf 0 8 8)) : exec .rebind s = .next
    ((s.takeDoorbell.rebinding (s.takeDoorbell.argf 0 0 7) (s.rebindTo (s.takeDoorbell.argf 0 0 7) (s.takeDoorbell.argf 0 8 8))).finishPending []) := by
  rw [exec_rebind hr, checked_pass_three (by simpa [imp_iff_not_or] using hg) (by simp [hch, hst]) hpend,
    checked_of_pass ha (State.targetChecks_pass h)]
  rfl

end

/-- A binding under way has its slice awake and in its retrain. -/
theorem State.rebinding_spec (hwf : Tab.wf Slice.reset s.slices = true) {n : Nat} {t : State} (ht : s.rebinding c n = t) :
    t.stk = { s.stk with migs := s.stk.migs ++ [{ Mig.reset with chan := c, old := (s.stk.remapAt c).ps, new := n, rebind := true }] } ∧
      (t.slice n).link.state = .retrain ∧
      (t.slice n).link.cause = (if (s.slice n).link.state = .retrain then (s.slice n).link.cause else 5) ∧
      (t.slice n).rf.selfRef = false ∧ (t.slice n).rf.refOn = true ∧ (∀ j, j ≠ n → t.slice j = s.slice j) ∧
      Counted s t ∧ Frame [.stk, .slices, .det, .ctl, .evt, .mbx] s t := by
  have hmig := s.modStk_frame fun k =>
    { k with migs := k.migs ++ [{ Mig.reset with chan := c, old := (s.stk.remapAt c).ps, new := n, rebind := true }] }
  obtain ⟨y, hy, hstate, hcause, hself, hon, -⟩ := ((State.Island.refl hwf n).framed hmig).wakeSlice
  have hstk := (State.wakeSlice_frame (s.modStk fun k =>
    { k with migs := k.migs ++ [{ Mig.reset with chan := c, old := (s.stk.remapAt c).ps, new := n, rebind := true }] }) n)
  have hcounted := State.wakeSlice_counted (s.modStk fun k =>
    { k with migs := k.migs ++ [{ Mig.reset with chan := c, old := (s.stk.remapAt c).ps, new := n, rebind := true }] }) n
  unfold State.rebinding at ht
  rw [ht] at hy hstk hcounted
  refine ⟨hstk.2 .stk (by decide), ?_, ?_, ?_, ?_, hy.there, ?_, (hmig.mono (by decide)).trans (hstk.mono (by decide))⟩
  · rw [hy.here, hstate]
  · rw [hy.here, hcause]
  · rw [hy.here, hself]
  · rw [hy.here, hon]
  · exact (Counted.of_frame hmig (by decide) (by decide)).trans hcounted

/-- Acceptance with PENDING reads the mailbox alone. -/
theorem finishPending_mbx_congr (h : u.mbx = t.mbx) (todo : List Nat) : (u.finishPending todo).mbx = (t.finishPending todo).mbx := by
  have harg : u.arg = t.arg := funext fun i => by rw [State.arg, State.arg, h]
  simp only [State.finishPending, State.finish, State.modMbx, harg, h]

/-- Acceptance with PENDING once causes have been set since the doorbell. -/
theorem finishPending_mbx {op : Nat} {quant : Bool} (hr : s.Rings op quant) (h : u.mbx = { s.takeDoorbell.mbx with irq := u.mbx.irq })
    (todo : List Nat) : (u.finishPending todo).mbx =
      { s.pendingWith (BitVec.ofNat 8 op) todo with irq := (u.finishPending todo).mbx.irq } := by
  rw [finishPending_mbx_congr (t := { s.takeDoorbell with mbx := { s.takeDoorbell.mbx with irq := u.mbx.irq } }) h, State.pendingWith,
    ← copyCmd_of_rings hr]
  rfl

theorem finishPending_frame (s : State) (todo : List Nat) : Frame [.mbx] s (s.finishPending todo) :=
  (s.modMbx_frame _).trans (State.modMbx_frame ..)

/-- The end of a pending command drops its first entry, and records it. -/
theorem endPending_mbx {op : Nat} (h : s.isPending op = true) (err : BitVec 8) : (s.endPending op err).mbx = { s.mbx with
    pending := dropFirst (fun c => c.op == BitVec.ofNat 8 op) s.mbx.pending, irq := (s.endPending op err).mbx.irq } := by
  rw [State.endPending, if_pos h]
  exact State.event_mbx ..

/-- Settles O52: each command's checks in their order, and what it begins. -/
theorem spareCommands : Obligations.SpareCommands := by
  unfold Obligations.SpareCommands
  intro s ⟨_, _, hwf, _⟩ r p c l waiting
  refine ⟨fun hr ha => ⟨exec_retrain_range hr ha, exec_retrain_state hr ha, fun hp hch hstate => ?_, fun hp hch hup => ?_⟩,
    fun hr ha => ?_,
    fun hr ha => ⟨exec_migrate_range hr ha, fun hg => ⟨exec_migrate_state hr ha hg, fun hch hst => ⟨exec_migrate_busy hr ha hg hch hst,
      fun hpend hknown => ⟨exec_migrate_nospare hr ha hg hch hst hpend hknown, exec_migrate_starts hr ha hg hch hst hpend hknown⟩⟩⟩⟩,
    fun hr ha => ⟨exec_rebind_range hr ha, fun hg => ⟨exec_rebind_state hr ha hg, fun hch hst => ⟨exec_rebind_busy hr ha hg hch hst,
      exec_rebind_nospare hr ha hg hch hst, fun hpend hspare => ?_⟩⟩⟩⟩
  · rw [exec_retrain hr ha hp hch (.inr hstate), State.startRetrain_of_retrain (s := s.takeDoorbell) hstate, setRun_takeDoorbell]
  · have hexec := exec_retrain hr ha hp hch (.inl hup)
    obtain ⟨⟨hstate, hcause, hact, htold, htells, -, hrest, hframe⟩, -⟩ := State.startRetrain_started (s := s.takeDoorbell) (cause := 0)
      (State.Island.refl (s := s.takeDoorbell) hwf p) (.refl _) (.refl ..) hup (by decide)
    generalize s.takeDoorbell.startRetrain p 0 = u at *
    refine ⟨_, hexec, hstate, hcause, hact, htells, hrest, ?_, ((takeDoorbell_frame s).mono (by decide)).trans
      (hframe.trans ((setRun_frame ..).mono (by decide)))⟩
    change { u.mbx with run := some ⟨0x40, p, 0, [], []⟩ } = { s.busyWith (some ⟨0x40, p, 0, [], []⟩) with irq := u.mbx.irq }
    rw [htold.2]
    rfl
  · intro named
    refine ⟨exec_calRun_range hr ha, fun hp => ⟨exec_calRun_state hr ha hp, exec_calRun_busy hr ha hp, fun hch hserv hpend => ?_⟩⟩
    have hnamed : s.calNamed p = named := List.filter_congr fun q _ => rfl
    have hexec := exec_calRun hr ha hp hch hserv hpend hnamed
    have hframe : Frame [.slices, .ctl] s.takeDoorbell (s.takeDoorbell.each named State.calOrdered) :=
      State.each_frame _ State.calOrdered_frame
    have hmbx : ((s.takeDoorbell.each named State.calOrdered).finishPending named).mbx = s.pendingWith 0x41 named := by
      rw [finishPending_mbx_congr (hframe.2 .mbx (by decide)), finishPending_takeDoorbell hr]
      rfl
    obtain ⟨hslices, hcrossed, hparts⟩ := State.each_calOrdered (s := s.takeDoorbell) hwf (l := named) (List.nodup_range.filter _) rfl
    have hpart := finishPending_frame (s.takeDoorbell.each named State.calOrdered) named
    refine ⟨fun hsome => ?_, fun hnone => ?_⟩
    · rw [if_neg (by simpa using hsome)] at hexec
      generalize s.takeDoorbell.each named State.calOrdered = u at *
      exact ⟨_, hexec, hmbx, hslices, hcrossed, ((takeDoorbell_frame s).mono (by decide)).trans
        ((hparts.mono (by decide)).trans (hpart.mono (by decide)))⟩
    · rw [hnone] at hexec hmbx
      rw [if_pos (by rfl)] at hexec
      change exec .calRun s = .next ((s.takeDoorbell.finishPending []).endPending 0x41 eOk) at hexec
      change (s.takeDoorbell.finishPending []).mbx = s.pendingWith 0x41 [] at hmbx
      have hpart' := finishPending_frame s.takeDoorbell []
      generalize s.takeDoorbell.finishPending [] = u at *
      have hdrop := dropFirst_append_single (p := fun x : PendCmd => x.op == BitVec.ofNat 8 0x41) (l := s.mbx.pending)
        (a := ⟨0x41, (List.range 16).map s.takeDoorbell.arg, []⟩) hpend rfl
      refine ⟨_, hexec, ?_, ((takeDoorbell_frame s).mono (by decide)).trans ((hpart'.mono (by decide)).trans (endPending_frame ..))⟩
      rw [endPending_mbx (by rw [State.isPending, hmbx]; simp [State.pendingWith]), hmbx]
      exact congrArg (fun l : List PendCmd => { s.pendingWith 0x41 [] with pending := l, irq := (u.endPending 0x41 eOk).mbx.irq }) hdrop
  · have hexec := exec_rebind_starts hr ha hg hch hst hpend hspare
    obtain ⟨hstk, hstate, hcause, hself, hon, hrest, hcounted, hframe⟩ := State.rebinding_spec (s := s.takeDoorbell) (c := c) hwf
      (n := s.rebindTo c (r.argf 0 8 8)) rfl
    generalize s.takeDoorbell.rebinding c (s.rebindTo c (r.argf 0 8 8)) = u at *
    exact ⟨_, hexec, hstk, hstate, hcause, hself, hon, hrest, finishPending_mbx hr hcounted.2 [],
      ((takeDoorbell_frame s).mono (by decide)).trans (hframe.trans ((finishPending_frame ..).mono (by decide)))⟩

end Sys2Proof.Machine
end

section
/-! ### What a requester-down line leaves alone (R143, R160, R161) -/

namespace Sys2Proof.Machine

variable {s t u : State} {k : Nat}

/-- Between `s` and `t` work of subscriber `k` that lacks data has been dropped: lines, masks, meters and buckets are as before, of
the ports `k` alone has changed and only in the beats that are owed, and digest streams have taken what had come. -/
structure State.Unfed (k : Nat) (s t : State) : Prop where
  lines : t.fab.lines = s.fab.lines
  down : t.fab.down = s.fab.down
  masked : t.fab.masked = s.fab.masked
  drained : t.fab.drained = s.fab.drained
  meters : t.fab.meters = s.fab.meters
  buckets : t.fab.buckets = s.fab.buckets
  port : Tab.wf Port.reset s.ports = true → Tab.wf Port.reset t.ports = true ∧ t.port k = { s.port k with owed := (t.port k).owed } ∧
    ((s.port k).owed = [] → (t.port k).owed = [])
  others : ∀ j, j ≠ k → t.port j = s.port j
  blp : t.blp = { s.blp with owed := t.blp.owed } ∧ (s.blp.owed = [] → t.blp.owed = [])
  det : t.det = { s.det with streams := t.det.streams }
  lag : Tab.wf Slice.reset s.slices = true → Tab.wf Slice.reset t.slices = true ∧ ∀ p, (t.slice p).lag = (s.slice p).lag
  frame : Frame [.fab, .ports, .blp, .slices, .det, .ctl, .evt, .mbx] s t

namespace State.Unfed

theorem refl (s : State) : Unfed k s s :=
  ⟨rfl, rfl, rfl, rfl, rfl, rfl, fun h => ⟨h, rfl, id⟩, fun _ _ => rfl, ⟨rfl, id⟩, rfl, fun h => ⟨h, fun _ => rfl⟩, .refl ..⟩

theorem trans (h1 : Unfed k s t) (h2 : Unfed k t u) : Unfed k s u where
  lines := h2.lines.trans h1.lines
  down := h2.down.trans h1.down
  masked := h2.masked.trans h1.masked
  drained := h2.drained.trans h1.drained
  meters := h2.meters.trans h1.meters
  buckets := h2.buckets.trans h1.buckets
  port h := by
    obtain ⟨hwf, hp, howed⟩ := h1.port h
    obtain ⟨hwf', hp', howed'⟩ := h2.port hwf
    exact ⟨hwf', by rw [hp', hp], fun h => howed' (howed h)⟩
  others j hj := (h2.others j hj).trans (h1.others j hj)
  blp := ⟨by rw [h2.blp.1, h1.blp.1], fun h => h2.blp.2 (h1.blp.2 h)⟩
  det := by rw [h2.det, h1.det]
  lag h := ⟨(h2.lag (h1.lag h).1).1, fun p => ((h2.lag (h1.lag h).1).2 p).trans ((h1.lag h).2 p)⟩
  frame := h1.frame.trans h2.frame

theorem ite {c : Prop} [Decidable c] (h1 : Unfed k s t) (h2 : Unfed k s u) : Unfed k s (if c then t else u) := by
  split
  · exact h1
  · exact h2

theorem each {α : Type} {f : State → α → State} {l : List α} (h : ∀ s, ∀ a ∈ l, Unfed k s (f s a)) (s : State) :
    Unfed k s (s.each l f) := by
  induction l generalizing s with
  | nil => exact refl s
  | cons a l ih => exact (h s a List.mem_cons_self).trans (ih (fun t b hb => h t b (List.mem_cons_of_mem _ hb)) _)

/-- Queues and entries of the fabric alone have changed. -/
theorem fab (s : State) {f : Fab → Fab} (hf : (f s.fab).lines = s.fab.lines ∧ (f s.fab).down = s.fab.down ∧
    (f s.fab).masked = s.fab.masked ∧ (f s.fab).drained = s.fab.drained ∧ (f s.fab).meters = s.fab.meters ∧
    (f s.fab).buckets = s.fab.buckets) : Unfed k s (s.modFab f) := by
  obtain ⟨h1, h2, h3, h4, h5, h6⟩ := hf
  exact ⟨h1, h2, h3, h4, h5, h6, fun h => ⟨h, rfl, id⟩, fun _ _ => rfl, ⟨rfl, id⟩, rfl, fun h => ⟨h, fun _ => rfl⟩,
    (s.modFab_frame f).mono (by decide)⟩

theorem modEntry (s : State) (id : Nat) (g : Entry → Entry) : Unfed k s (s.modEntry id g) := fab s ⟨rfl, rfl, rfl, rfl, rfl, rfl⟩

theorem freeEntry (s : State) (id : Nat) : Unfed k s (s.freeEntry id) := fab s ⟨rfl, rfl, rfl, rfl, rfl, rfl⟩

/-- Counters alone have moved, with the streams of digests. -/
theorem of_frame (h : Frame [.det, .ctl, .evt, .mbx] s t) (hdet : t.det = { s.det with streams := t.det.streams }) : Unfed k s t := by
  have hfab : t.fab = s.fab := h.2 .fab (by decide)
  have hports : t.ports = s.ports := h.2 .ports (by decide)
  have hblp : t.blp = s.blp := h.2 .blp (by decide)
  have hslices : t.slices = s.slices := h.2 .slices (by decide)
  have hport := State.port_congr hports
  refine ⟨by rw [hfab], by rw [hfab], by rw [hfab], by rw [hfab], by rw [hfab], by rw [hfab], fun hwf => ⟨by rw [hports]; exact hwf, by rw [hport], by rw [hport]; exact id⟩,
    fun j _ => hport j, ⟨by rw [hblp], by rw [hblp]; exact id⟩, hdet, fun hwf => ⟨by rw [hslices]; exact hwf, fun p => by rw [State.slice_congr hslices]⟩,
    h.mono (by decide)⟩

theorem contribute (s : State) (i d : Nat) (x : Nat × BitVec 64 × Nat) : Unfed k s (s.contribute i d x) := by
  refine of_frame (s.digested_contribute i d x).frame ?_
  unfold State.contribute
  dsimp only
  rw [State.stat, State.count_det]
  rfl

theorem feed (s : State) (j : Nat) (dig : Bool) (d : Nat) (a : DgAcc) (addr v n : Nat) : Unfed k s (s.feed j dig d a addr v n).1 := by
  unfold State.feed
  split
  · exact refl s
  · dsimp only
    split
    · exact refl s
    · exact contribute ..

theorem feedEnd (s : State) (j : Nat) (dig : Bool) (d : Nat) (a : DgAcc) : Unfed k s (s.feedEnd j dig d a) := by
  unfold State.feedEnd
  split
  · exact contribute ..
  · exact refl s

theorem hashTaken (s : State) (e : Entry) (d n : Nat) : Unfed k s (s.hashTaken e d n) := by
  have hunits (l : List Nat) : ∀ x : State × DgAcc, Unfed k s x.1 → Unfed k s (l.foldl (fun (x : State × DgAcc) u =>
      x.1.feed e.sub true d x.2 (e.req.addr.toNat + 64 * u) (e.taken u) (if 32 ≤ e.sub && e.sub ≤ 35 then 32 else 64)) x).1 := by
    induction l with
    | nil => exact fun x hx => hx
    | cons a l ih => exact fun x hx => ih _ (hx.trans (feed ..))
  exact (hunits (List.range n) (s, DgAcc.zero) (refl s)).trans (feedEnd ..)

theorem hashGhost (s : State) (e : Entry) : Unfed k s (s.hashGhost e) := by
  unfold State.hashGhost
  split
  · exact ite (refl s) (hashTaken ..)
  · exact refl s

theorem hashCut (s : State) (e : Entry) : Unfed k s (s.hashCut e) := by
  unfold State.hashCut
  dsimp only
  split
  · exact ite (refl s) ((hashTaken ..).trans (modEntry ..))
  · exact refl s

theorem dropWork (s : State) (id : Nat) : Unfed k s (s.dropWork id) := by
  refine ⟨rfl, rfl, rfl, rfl, rfl, rfl, fun h => ⟨h, rfl, fun h => h⟩, fun _ _ => rfl, ⟨rfl, fun h => h⟩, rfl, fun h => ⟨Tab.mapVals_wf h, fun p => ?_⟩,
    (EndsWork.dropWork id s).frame.mono (by decide)⟩
  have hp : (s.dropWork id).slice p = _ := Tab.get_mapVals h rfl
  rw [hp]
  rfl

/-- The beats that port `k` owes of an entry are dropped. -/
theorem modOwed (s : State) {g : List Owed → List Owed} (hg : g [] = []) (k : Nat) :
    Unfed k s (s.modPort k fun p => { p with owed := g p.owed }) where
  lines := rfl
  down := rfl
  masked := rfl
  drained := rfl
  meters := rfl
  buckets := rfl
  port h := by
    refine ⟨State.modPort_wf h _ _, ?_⟩
    rw [State.port_modPort h]
    exact ⟨rfl, fun howed => by rw [howed, hg]⟩
  others j hj := State.port_modPort_ne _ _ hj
  blp := ⟨rfl, id⟩
  det := rfl
  lag h := ⟨h, fun _ => rfl⟩
  frame := (s.modPort_frame k _).mono (by decide)

theorem modBlpOwed (s : State) {g : List Owed → List Owed} (hg : g [] = []) : Unfed k s (s.modBlp fun b => { b with owed := g b.owed }) :=
  ⟨rfl, rfl, rfl, rfl, rfl, rfl, fun h => ⟨h, rfl, id⟩, fun _ _ => rfl, ⟨rfl, fun h => by rw [State.modBlp, h, hg]⟩, rfl, fun h => ⟨h, fun _ => rfl⟩,
    (s.modBlp_frame _).mono (by decide)⟩

theorem retire (s : State) (e : Entry) : Unfed e.sub s (s.retire e) := by
  unfold State.retire
  dsimp only
  split
  · exact freeEntry ..
  · refine ite (freeEntry ..) (ite ((freeEntry ..).trans (hashGhost ..)) (ite ((freeEntry ..).trans (fab _ ⟨rfl, rfl, rfl, rfl, rfl, rfl⟩))
      (ite ((freeEntry ..).trans (modBlpOwed _ rfl)) ((freeEntry ..).trans (modOwed _ rfl _)))))

theorem dropUnfed (s : State) (e : Entry) : Unfed e.sub s (s.dropUnfed e) := by
  unfold State.dropUnfed
  split
  iterate 3 exact ite (refl s) ((dropWork ..).trans (retire ..))
  iterate 2 exact ((fab s ⟨rfl, rfl, rfl, rfl, rfl, rfl⟩).trans (hashCut ..)).trans (modEntry ..)
  all_goals exact refl s

theorem closeGhosts (s : State) (j : Nat) : Unfed k s (s.closeGhosts j) := by
  have hhash : Unfed k s (s.each (s.fab.ghost.filter fun e => e.sub == j) State.hashGhost) := each (fun t e _ => hashGhost t e) s
  unfold State.closeGhosts
  exact hhash.trans (fab _ ⟨rfl, rfl, rfl, rfl, rfl, rfl⟩)

end State.Unfed

end Sys2Proof.Machine
end

section
/-! ### Requester-down lines take effect (R159 to R164, R282, R901) -/

namespace Sys2Proof.Machine

variable {s t u : State} {k : Nat}

theorem mem_insertNat {a k : Nat} {l : List Nat} : a ∈ insertNat k l ↔ a = k ∨ a ∈ l := by
  induction l with
  | nil => simp [insertNat]
  | cons b l ih =>
    unfold insertNat
    split
    · simp
    · split
      · next h => simp [h]
      · rw [List.mem_cons, ih, List.mem_cons]
        exact or_left_comm

/-! #### Meters and buckets freeze (R282) -/

/-- Frozen, off the wheel. -/
def Meter.frozenOff (x : Meter) : Prop := x.frozen = true ∧ x.slot = none

theorem Fab.meter_setMeter_frozen (s : State) (m : Nat) (x : Meter) (j : Nat) (h : j = m ∨ (s.fab.meter j).frozenOff) :
    ((s.setMeter m { x with frozen := true, slot := none }).fab.meter j).frozenOff := by
  by_cases hj : j = m
  · have hset : (s.setMeter m { x with frozen := true, slot := none }).fab.meter m = _ :=
      Tab.get_set_of_ne_default (d := Meter.reset) (v := { x with frozen := true, slot := none })
        (fun h => absurd (congrArg Meter.frozen h) nofun) s.fab.meters m
    rw [hj, hset]
    exact ⟨rfl, rfl⟩
  · have hset : (s.setMeter m { x with frozen := true, slot := none }).fab.meter j = s.fab.meter j := Tab.get_set_ne _ hj
    rw [hset]
    exact h.resolve_left hj

/-- The meters of subscriber `k` are frozen. -/
def State.metersFrozen (s : State) (k : Nat) : State :=
  s.each (List.range 6) fun s i => s.setMeter (6 * k + i) { s.fab.meter (6 * k + i) with frozen := true, slot := none }

theorem State.meter_metersFrozen (s : State) (k : Nat) {i : Nat} (hi : i < 6) : ((s.metersFrozen k).fab.meter (6 * k + i)).frozenOff :=
  State.each_reaches (P := fun _ => True) (Q := fun t => (t.fab.meter (6 * k + i)).frozenOff) (a := i) (fun _ _ _ => trivial)
    (fun t _ ht => Fab.meter_setMeter_frozen t _ _ _ (.inr ht)) (fun t _ => Fab.meter_setMeter_frozen t _ _ _ (.inl rfl))
    (List.mem_range.2 hi) trivial

/-- What a change of meters and buckets leaves alone. -/
structure State.Meters (s t : State) : Prop where
  fab : t.fab = { s.fab with meters := t.fab.meters, buckets := t.fab.buckets }
  frame : Frame [.fab] s t

namespace State.Meters

theorem refl (s : State) : Meters s s := ⟨rfl, .refl ..⟩

theorem trans (h1 : Meters s t) (h2 : Meters t u) : Meters s u := ⟨by rw [h2.fab, h1.fab], h1.frame.trans h2.frame⟩

theorem setMeter (s : State) (m : Nat) (x : Meter) : Meters s (s.setMeter m x) := ⟨rfl, s.setMeter_frame m x⟩

theorem setBucket (s : State) (j : Nat) (x : Bucket) : Meters s (s.setBucket j x) := ⟨rfl, s.setBucket_frame j x⟩

theorem each {α : Type} {f : State → α → State} (h : ∀ s a, Meters s (f s a)) (l : List α) (s : State) : Meters s (s.each l f) :=
  State.each_induct (P := Meters s) (fun t a ht => ht.trans (h t a)) l (refl s)

theorem metersFrozen (s : State) (k : Nat) : Meters s (s.metersFrozen k) := each (fun t _ => setMeter t _ _) _ s

theorem freezeSub (s : State) (k : Nat) : Meters s (s.freezeSub k) := (metersFrozen s k).trans (setBucket ..)

theorem initMeters (s : State) (ks : List Nat) : Meters s (s.initMeters ks) := by
  refine each (fun t j => ?_) ks s
  exact (each (fun u i => setMeter u _ _) (List.range 6) t).trans (setBucket ..)

end State.Meters

theorem State.bucket_freezeSub (s : State) (k : Nat) : ((s.freezeSub k).fab.bucket k).frozen = true ∧
    ((s.freezeSub k).fab.bucket k).slot = none := by
  have hset : (s.freezeSub k).fab.bucket k = _ := Tab.get_set_of_ne_default (d := Bucket.reset)
    (v := { s.fab.bucket k with frozen := true, slot := none })
    (fun h => absurd (congrArg Bucket.frozen h) nofun) (s.metersFrozen k).fab.buckets k
  rw [hset]
  exact ⟨rfl, rfl⟩

theorem State.meter_freezeSub (s : State) (k : Nat) {i : Nat} (hi : i < 6) : ((s.freezeSub k).fab.meter (6 * k + i)).frozenOff :=
  s.meter_metersFrozen k hi

/-! #### A subscriber goes down -/

/-- The subscriber is masked and frozen, and its inputs are empty; what it has in the tracker is as before. -/
def State.masks (s : State) (k : Nat) : State :=
  ((s.modFab fun f => { f with down := insertNat k f.down, masked := insertNat k f.masked }).freezeSub k).clearInputs k

/-- What the tracker lacks data for has gone. -/
def State.unfeeds (s : State) (k : Nat) : State := (s.closeGhosts k).each (s.fab.trk.filter fun e => e.sub == k) State.dropUnfed

theorem State.subDown_eq (s : State) (k : Nat) : s.subDown k = if ((s.masks k).unfeeds k).subEmpty k then
    ((s.masks k).unfeeds k).modFab fun f => { f with drained := insertNat k f.drained } else (s.masks k).unfeeds k := rfl

theorem State.unfed_unfeeds (s : State) (k : Nat) : Unfed k s (s.unfeeds k) :=
  (Unfed.closeGhosts s k).trans (.each (fun t e he => by
    have hsub : e.sub = k := by simpa using (List.mem_filter.1 he).2
    exact hsub ▸ Unfed.dropUnfed t e) _)

theorem State.clearInputs_frame (s : State) (k : Nat) : Frame [.ports, .blp] s (s.clearInputs k) :=
  .ite ((s.modBlp_frame _).mono (by decide)) ((s.modPort_frame ..).mono (by decide))

theorem State.masks_frame (s : State) (k : Nat) : Frame [.fab, .ports, .blp] s (s.masks k) :=
  ((s.modFab_frame _).mono (by decide)).trans (((Meters.freezeSub _ k).frame.mono (by decide)).trans ((State.clearInputs_frame ..).mono (by decide)))

theorem State.masks_fab (s : State) (k : Nat) : (s.masks k).fab = { s.fab with
    down := insertNat k s.fab.down, masked := insertNat k s.fab.masked, meters := (s.masks k).fab.meters, buckets := (s.masks k).fab.buckets } := by
  have hclear : (s.masks k).fab = ((s.modFab fun f => { f with down := insertNat k f.down, masked := insertNat k f.masked }).freezeSub k).fab :=
    (State.clearInputs_frame _ k).2 .fab (by decide)
  rw [hclear, (Meters.freezeSub _ k).fab]
  rfl

theorem State.masks_meter (s : State) (k : Nat) {i : Nat} (hi : i < 6) : ((s.masks k).fab.meter (6 * k + i)).frozenOff := by
  rw [State.masks, (State.clearInputs_frame _ k).2 .fab (by decide)]
  exact State.meter_freezeSub _ k hi

theorem State.masks_bucket (s : State) (k : Nat) : ((s.masks k).fab.bucket k).frozen = true ∧ ((s.masks k).fab.bucket k).slot = none := by
  rw [State.masks, (State.clearInputs_frame _ k).2 .fab (by decide)]
  exact State.bucket_freezeSub _ k

/-- The ports with the inputs of subscriber `k` empty. -/
theorem State.masks_ports (hwf : Tab.wf Port.reset s.ports = true) (k : Nat) :
    Tab.wf Port.reset (s.masks k).ports = true ∧ (k ≠ 36 → ((s.masks k).port k).inq = [] ∧ ((s.masks k).port k).owed = [] ∧
      ((s.masks k).port k).early = [] ∧ ((s.masks k).port k).wdat = []) ∧
      (k = 36 → (s.masks k).blp.dq = [] ∧ (s.masks k).blp.owed = [] ∧ (s.masks k).blp.idat = [] ∧ (s.masks k).blp.late = []) ∧
      ∀ j, j ≠ k → (s.masks k).port j = s.port j := by
  have hports : ((s.modFab fun f => { f with down := insertNat k f.down, masked := insertNat k f.masked }).freezeSub k).ports = s.ports :=
    (Meters.freezeSub _ k).frame.2 .ports (by decide)
  have hport := State.port_congr hports
  unfold State.masks State.clearInputs
  generalize (s.modFab fun f => { f with down := insertNat k f.down, masked := insertNat k f.masked }).freezeSub k = u at *
  rw [← hports] at hwf
  split
  · next hk => exact ⟨hwf, fun h => absurd hk h, fun _ => ⟨rfl, rfl, rfl, rfl⟩, fun j _ => hport j⟩
  · next hk =>
    refine ⟨State.modPort_wf hwf _ _, fun _ => ?_, fun h => absurd h hk, fun j hj => (State.port_modPort_ne _ _ hj).trans (hport j)⟩
    rw [State.port_modPort hwf]
    exact ⟨rfl, rfl, rfl, rfl⟩

/-! #### It resumes (R163, R283) -/

/-- Subscriber `k` has resumed: no mask, meters from the start, and its credits once the device is ready. -/
theorem State.resumeSub_spec (hwf : Tab.wf Port.reset s.ports = true) (k : Nat) {t : State} (ht : s.resumeSub k = t) :
    t.fab = { s.fab with
      masked := s.fab.masked.filter (fun x => x != k), drained := s.fab.drained.filter (fun x => x != k), meters := t.fab.meters, buckets := t.fab.buckets } ∧
      (s.sys.ready = true → k < 36 → (t.port k).reqCrd = (if k < 32 then 32 else 16) ∧
        (t.port k).wdCrd = (if k < 32 then 64 else 16) ∧ (t.port k).rspCrd = 0) ∧
      (s.sys.ready = true → k = 36 → t.blp.descCrd = 8 ∧ t.blp.idataCrd = 256 ∧ t.blp.odataCrd = 0 ∧ t.blp.cplCrd = 0) ∧
      (∀ j, j ≠ k → t.port j = s.port j) ∧ Frame [.fab, .ports, .blp] s t := by
  have hstart := State.Meters.initMeters (s.modFab fun f =>
    { f with masked := f.masked.filter fun x => x != k, drained := f.drained.filter fun x => x != k }) [k]
  unfold State.resumeSub at ht
  dsimp only at ht
  generalize (s.modFab fun f => { f with masked := f.masked.filter fun x => x != k, drained := f.drained.filter fun x => x != k }).initMeters [k] = u at *
  have hframe : Frame [.fab, .ports, .blp] s u := ((s.modFab_frame _).mono (by decide)).trans (hstart.frame.mono (by decide))
  have hports : u.ports = s.ports := hstart.frame.2 .ports (by decide)
  have hport := State.port_congr hports
  have hsys : u.sys = s.sys := hstart.frame.2 .sys (by decide)
  have hfab := hstart.fab
  rw [← hports] at hwf
  rw [hsys] at ht
  subst ht
  split
  · next hr =>
    have hnot : s.sys.ready = false := by simpa using hr
    exact ⟨hfab, fun h => absurd (hnot.symm.trans h) (by decide), fun h => absurd (hnot.symm.trans h) (by decide), fun j _ => hport j, hframe⟩
  · split
    · next hk => exact ⟨hfab, fun _ h => absurd hk (Nat.ne_of_lt h), fun _ _ => ⟨rfl, rfl, rfl, rfl⟩, fun j _ => hport j,
        hframe.trans ((State.modBlp_frame ..).mono (by decide))⟩
    · next hk =>
      refine ⟨hfab, fun _ _ => ?_, fun _ h => absurd h hk, fun j hj => (State.port_modPort_ne _ _ hj).trans (hport j),
        hframe.trans ((State.modPort_frame ..).mono (by decide))⟩
      rw [State.grantPort, State.port_modPort hwf]
      simp only [isTile, decide_eq_true_eq, and_self]

end Sys2Proof.Machine
end

section
/-! ### KX_SUB_DOWN_SET, KX_SUB_DOWN_CLEAR, SUB_DRAINED (R159 to R164) -/

namespace Sys2Proof.Machine

variable {s t u : State} {k : Fin 37}

/-- The line of subscriber `k` driven. -/
def State.driven (s : State) (k : Nat) (set : Bool) : State :=
  s.modFab fun f => { f with lines := if set then insertNat k f.lines else f.lines.filter fun x => x != k }

theorem contains_insertNat (k : Nat) (l : List Nat) : (insertNat k l).contains k = true :=
  List.contains_iff_mem.2 (mem_insertNat.2 (.inl rfl))

theorem contains_filter_ne (k : Nat) (l : List Nat) : (l.filter fun x => x != k).contains k = false := by
  rw [Bool.eq_false_iff, Ne, List.contains_iff_mem, List.mem_filter]
  simp

theorem State.driven_contains (s : State) (k : Nat) (set : Bool) : (s.driven k set).fab.lines.contains k = set := by
  cases set
  · exact contains_filter_ne k s.fab.lines
  · exact contains_insertNat k s.fab.lines

theorem exec_kxSubDown (hheld : s.linesHeld = false) (set : Bool) : exec (if set then .kxSubDownSet k else .kxSubDownClear k) s =
    .next (if s.portsLive then (s.driven k.val set).takeLine k.val else s.driven k.val set) := by
  have hdrive : exec (if set then .kxSubDownSet k else .kxSubDownClear k) s = .next (s.driveLine k.val set) := by cases set <;> rfl
  rw [hdrive, State.driveLine, hheld]
  rfl

/-- A line that the fabric has found at this level changes nothing else, and none does while FCLK stands. -/
theorem State.driven_found {set : Bool} (h : s.portsLive = false ∨ s.fab.down.contains k.val = set) :
    (if s.portsLive then (s.driven k.val set).takeLine k.val else s.driven k.val set) = s.driven k.val set := by
  rcases h with h | h
  · rw [h]
    rfl
  · have hsame : (s.driven k.val set).fab.lines.contains k.val == (s.driven k.val set).fab.down.contains k.val := by
      rw [State.driven_contains, ← h]
      exact beq_self_eq_true _
    rw [State.takeLine, if_pos hsame, ite_self]

/-- A line that differs from what the fabric has found takes effect. -/
theorem State.takeLine_driven {set : Bool} (h : s.fab.down.contains k.val = !set) :
    (s.driven k.val set).takeLine k.val = if set then (s.driven k.val set).subDown k.val else (s.driven k.val set).subUp k.val := by
  have hnot : ¬ ((s.driven k.val set).fab.lines.contains k.val == (s.driven k.val set).fab.down.contains k.val) = true := by
    have hdown : (s.driven k.val set).fab.down.contains k.val = !set := h
    rw [State.driven_contains, hdown]
    cases set <;> decide
  rw [State.takeLine, if_neg hnot, State.driven_contains]

theorem State.hashGhost_frame (s : State) (e : Entry) : Frame [.det, .ctl, .evt, .mbx] s (s.hashGhost e) := by
  have hfeed (u : State) (j : Nat) (dig : Bool) (d : Nat) (a : DgAcc) (addr v n : Nat) :
      Frame [.det, .ctl, .evt, .mbx] u (u.feed j dig d a addr v n).1 := by
    unfold State.feed
    split
    · exact .refl ..
    · dsimp only
      split
      · exact .refl ..
      · exact (u.digested_contribute ..).frame
  have hunits (l : List Nat) : ∀ x : State × DgAcc, Frame [.det, .ctl, .evt, .mbx] s x.1 →
      Frame [.det, .ctl, .evt, .mbx] s (l.foldl (fun (x : State × DgAcc) u =>
        x.1.feed e.sub true ((e.takes e.beats).getD (0, 0)).1 x.2 (e.req.addr.toNat + 64 * u) (e.taken u)
          (if 32 ≤ e.sub && e.sub ≤ 35 then 32 else 64)) x).1 := by
    induction l with
    | nil => exact fun x hx => hx
    | cons a l ih => exact fun x hx => ih _ (hx.trans (hfeed ..))
  unfold State.hashGhost
  split
  · next d beats htakes =>
    rw [htakes] at hunits
    exact .ite (.refl ..) ((hunits (List.range _) (s, DgAcc.zero) (.refl ..)).trans (State.digested_feedEnd ..).frame)
  · exact .refl ..

/-- Closing what ghosts have taken touches the tracker's ghosts alone in the fabric. -/
theorem State.closeGhosts_spec (s : State) (k : Nat) :
    (s.closeGhosts k).fab = { s.fab with ghost := s.fab.ghost.filter fun e => e.sub != k } ∧
      ((∀ e ∈ s.fab.ghost, e.sub ≠ k) → Frame [.fab] s (s.closeGhosts k)) := by
  have hhash : Frame [.det, .ctl, .evt, .mbx] s (s.each (s.fab.ghost.filter fun e => e.sub == k) State.hashGhost) :=
    State.each_frame _ State.hashGhost_frame
  have hfab : (s.each (s.fab.ghost.filter fun e => e.sub == k) State.hashGhost).fab = s.fab := hhash.2 .fab (by decide)
  refine ⟨?_, fun hnone => ?_⟩
  · unfold State.closeGhosts
    generalize s.each (s.fab.ghost.filter fun e => e.sub == k) State.hashGhost = u at *
    rw [State.modFab, hfab]
  · have hfilter : (s.fab.ghost.filter fun e => e.sub == k) = [] := List.filter_eq_nil_iff.2 fun e he => by simpa using hnone e he
    unfold State.closeGhosts
    rw [hfilter]
    exact s.modFab_frame _

/-- With nothing of it in the tracker the subscriber drops nothing. -/
theorem State.unfeeds_of_empty (h : s.subEmpty k.val = true) : s.unfeeds k.val = s.closeGhosts k.val := by
  have hfilter : (s.fab.trk.filter fun e => e.sub == k.val) = [] := by
    refine List.filter_eq_nil_iff.2 fun e he => ?_
    have hall : ∀ e ∈ s.fab.trk, ¬ e.sub = k.val := by simpa [State.subEmpty] using h
    simpa using hall e he
  rw [State.unfeeds, hfilter]
  rfl

/-- What a subscriber that has gone down leaves. -/
theorem State.subDown_spec (hwf : Tab.wf Port.reset s.ports = true) {t : State} (ht : s.subDown k.val = t) :
    t.fab.lines = s.fab.lines ∧ k.val ∈ t.fab.down ∧ t.isMasked k.val = true ∧ (t.fab.bucket k.val).frozen = true ∧ (t.fab.bucket k.val).slot = none ∧
      (∀ i, i < 6 → (t.fab.meter (6 * k.val + i)).frozen = true ∧ (t.fab.meter (6 * k.val + i)).slot = none) ∧
      (k.val < 36 → (t.port k.val).inq = [] ∧ (t.port k.val).owed = [] ∧ (t.port k.val).early = [] ∧ (t.port k.val).wdat = []) ∧
      (k.val = 36 → t.blp.dq = [] ∧ t.blp.owed = [] ∧ t.blp.idat = [] ∧ t.blp.late = []) ∧ (∀ j, j ≠ k.val → t.port j = s.port j) ∧
      (s.subEmpty k.val = true → k.val ∈ t.fab.drained ∧ t.fab.trk = s.fab.trk) ∧
      (s.subEmpty k.val = true → (∀ e ∈ s.fab.ghost, e.sub ≠ k.val) → Frame [.fab, .ports, .blp] s t) ∧
      Frame [.fab, .ports, .blp, .slices, .det, .ctl, .evt, .mbx] s t := by
  obtain ⟨hportwf, hinputs, hblp, hothers⟩ := State.masks_ports hwf k.val
  have hmasks := s.masks_fab k.val
  have hmeter := fun i => s.masks_meter k.val (i := i)
  have hbucket := s.masks_bucket k.val
  have hframe := s.masks_frame k.val
  rw [State.subDown_eq] at ht
  generalize s.masks k.val = u at *
  have hunfed := u.unfed_unfeeds k.val
  have hghosts := u.closeGhosts_spec k.val
  have hempty := State.unfeeds_of_empty (s := u) (k := k)
  have htrk : u.fab.trk = s.fab.trk := by rw [hmasks]
  have hempty' : u.subEmpty k.val = s.subEmpty k.val := by rw [State.subEmpty, htrk, State.subEmpty]
  generalize hv : u.unfeeds k.val = v at *
  obtain ⟨-, hport, howed⟩ := hunfed.port hportwf
  have hblp' := hunfed.blp
  -- what holds whether or not the drain is over at once
  have hall (w : State) (hw : ∃ d, w = v.modFab fun f => { f with drained := d }) :
      w.fab.lines = s.fab.lines ∧ k.val ∈ w.fab.down ∧ w.isMasked k.val = true ∧ (w.fab.bucket k.val).frozen = true ∧
      (w.fab.bucket k.val).slot = none ∧
      (∀ i, i < 6 → (w.fab.meter (6 * k.val + i)).frozen = true ∧ (w.fab.meter (6 * k.val + i)).slot = none) ∧
      (k.val < 36 → (w.port k.val).inq = [] ∧ (w.port k.val).owed = [] ∧ (w.port k.val).early = [] ∧ (w.port k.val).wdat = []) ∧
      (k.val = 36 → w.blp.dq = [] ∧ w.blp.owed = [] ∧ w.blp.idat = [] ∧ w.blp.late = []) ∧ (∀ j, j ≠ k.val → w.port j = s.port j) ∧
      Frame [.fab, .ports, .blp, .slices, .det, .ctl, .evt, .mbx] s w := by
    obtain ⟨d, rfl⟩ := hw
    have hbuckets : (v.modFab fun f => { f with drained := d }).fab.buckets = u.fab.buckets := hunfed.buckets
    have hmeters : (v.modFab fun f => { f with drained := d }).fab.meters = u.fab.meters := hunfed.meters
    refine ⟨hunfed.lines.trans (by rw [hmasks]), ?_, ?_, ?_, ?_, fun i hi => ?_, fun hk => ?_, fun hk => ?_,
      fun j hj => (hunfed.others j hj).trans (hothers j hj), ?_⟩
    · change k.val ∈ v.fab.down
      rw [hunfed.down, hmasks]
      exact mem_insertNat.2 (.inl rfl)
    · change v.fab.masked.contains k.val = true
      rw [hunfed.masked, hmasks]
      exact contains_insertNat ..
    · rw [Fab.bucket, hbuckets]
      exact hbucket.1
    · rw [Fab.bucket, hbuckets]
      exact hbucket.2
    · rw [Fab.meter, hmeters]
      exact hmeter i hi
    · obtain ⟨hinq, howe, hearly, hwdat⟩ := hinputs (Nat.ne_of_lt hk)
      change (v.port k.val).inq = [] ∧ (v.port k.val).owed = [] ∧ (v.port k.val).early = [] ∧ (v.port k.val).wdat = []
      refine ⟨?_, howed howe, ?_, ?_⟩
      · rw [hport, hinq]
      · rw [hport, hearly]
      · rw [hport, hwdat]
    · obtain ⟨hdq, howe, hidat, hlate⟩ := hblp hk
      change v.blp.dq = [] ∧ v.blp.owed = [] ∧ v.blp.idat = [] ∧ v.blp.late = []
      refine ⟨?_, hblp'.2 howe, ?_, ?_⟩
      · rw [hblp'.1, hdq]
      · rw [hblp'.1, hidat]
      · rw [hblp'.1, hlate]
    · exact (hframe.mono (by decide)).trans (hunfed.frame.trans ((v.modFab_frame _).mono (by decide)))
  have hdone : s.subEmpty k.val = true → v.subEmpty k.val = true ∧ v.fab.trk = s.fab.trk ∧
      ((∀ e ∈ s.fab.ghost, e.sub ≠ k.val) → Frame [.fab] u v) := by
    intro h
    have hv' := hempty (hempty'.trans h)
    rw [hv'] at *
    have hvtrk : (u.closeGhosts k.val).fab.trk = s.fab.trk := by rw [hghosts.1, htrk]
    refine ⟨by rw [State.subEmpty, hvtrk]; exact h, hvtrk, fun hnone => hghosts.2 ?_⟩
    rw [hmasks]
    exact hnone
  subst ht
  split
  · obtain ⟨h1, h2, h3, h4, h5, h6, h7, h8, h9, h10⟩ := hall _ ⟨_, rfl⟩
    refine ⟨h1, h2, h3, h4, h5, h6, h7, h8, h9, fun h => ⟨mem_insertNat.2 (.inl rfl), (hdone h).2.1⟩, fun h hnone => ?_, h10⟩
    exact hframe.trans ((((hdone h).2.2 hnone).mono (by decide)).trans ((v.modFab_frame _).mono (by decide)))
  · next hbusy =>
    obtain ⟨h1, h2, h3, h4, h5, h6, h7, h8, h9, h10⟩ := hall v ⟨v.fab.drained, rfl⟩
    exact ⟨h1, h2, h3, h4, h5, h6, h7, h8, h9, fun h => absurd (hdone h).1 hbusy, fun h => absurd (hdone h).1 hbusy, h10⟩

/-- Settles O55: a driven line in each state of the fabric, and the end of a drain. -/
theorem requesterDown : Obligations.RequesterDown := by
  unfold Obligations.RequesterDown
  intro k s ⟨_, hwf, _, _⟩ out set clear resumed
  have hset (h : s.linesHeld = false) : exec (.kxSubDownSet k) s = _ := exec_kxSubDown (k := k) h true
  have hclear (h : s.linesHeld = false) : exec (.kxSubDownClear k) s = _ := exec_kxSubDown (k := k) h false
  refine ⟨fun hheld => ⟨?_, ?_⟩, fun hheld => ⟨fun hfound => ?_, fun hlive hdown => ?_, fun hfound => ?_, fun hlive hdown =>
    ⟨fun hempty => ?_, fun hempty => ?_⟩⟩, fun hwait => ?_, fun hlive hmask hempty => ⟨fun hdown => ?_, fun hdown => ?_⟩⟩
  · change (.next (s.driveLine k.val true) : Res) = _
    rw [State.driveLine, hheld]
    rfl
  · change (.next (s.driveLine k.val false) : Res) = _
    rw [State.driveLine, hheld]
    rfl
  · rw [hset hheld, State.driven_found (hfound.imp id fun h => List.contains_iff_mem.2 h)]
    rfl
  · have hexec := hset hheld
    rw [if_pos hlive, State.takeLine_driven (by simpa using hdown), if_pos rfl] at hexec
    obtain ⟨hlines, hin, hmask, hfrozen, hslot, hmeters, hport, hblp, hothers, hempty, hquiet, hframe⟩ :=
      State.subDown_spec (s := s.driven k.val true) (k := k) hwf rfl
    have hdriven : Frame [.fab] s (s.driven k.val true) := s.modFab_frame _
    exact ⟨_, hexec, hlines, hin, hmask, hfrozen, hslot, hmeters, hport, hblp, hothers, hempty,
      fun h hnone => (hdriven.mono (by decide)).trans (hquiet h hnone), (hdriven.mono (by decide)).trans hframe⟩
  · rw [hclear hheld, State.driven_found (hfound.imp id fun h => by simpa using h)]
    rfl
  · have hexec := hclear hheld
    rw [if_pos hlive, State.takeLine_driven (by simpa using hdown), if_neg Bool.false_ne_true, State.subUp] at hexec
    rw [if_pos (by exact hempty)] at hexec
    obtain ⟨hfab, hport, hblp, hothers, hframe⟩ := State.resumeSub_spec (s := (s.driven k.val false).modFab fun f =>
      { f with down := f.down.filter fun x => x != k.val, drained := f.drained.filter fun x => x != k.val }) hwf k.val rfl
    generalize State.resumeSub _ k.val = t at *
    have hresumed : resumed t := by
      refine ⟨?_, ?_, hport, hblp, hothers, ?_, (((s.modFab_frame _).trans (State.modFab_frame ..)).mono (by decide)).trans hframe⟩
      · rw [State.isMasked, hfab]
        exact contains_filter_ne ..
      · rw [hfab]
        simp
      · rw [hfab]
        rfl
    refine ⟨t, hexec, hresumed, ?_, ?_⟩
    · rw [hfab]
      simp [State.driven]
    · rw [hfab]
      rfl
  · have hexec := hclear hheld
    rw [if_pos hlive, State.takeLine_driven (by simpa using hdown), if_neg Bool.false_ne_true, State.subUp] at hexec
    rw [if_neg (by exact Bool.eq_false_iff.1 hempty)] at hexec
    exact hexec
  · change (.next (if (!s.portsLive || !s.isMasked k.val || !s.subEmpty k.val) = true then s else _) : Res) = _
    rw [if_pos (by simpa [or_assoc] using hwait)]
  · change (.next (if (!s.portsLive || !s.isMasked k.val || !s.subEmpty k.val) = true then s else if s.fab.down.contains k.val = true then
      s.modFab fun f => { f with drained := insertNat k.val f.drained } else s.resumeSub k.val) : Res) = _
    rw [if_neg (by simp [hlive, hmask, hempty]), if_pos (List.contains_iff_mem.2 hdown)]
    rfl
  · have hexec : exec (.subDrained k) s = .next (if (!s.portsLive || !s.isMasked k.val || !s.subEmpty k.val) = true then s
      else if s.fab.down.contains k.val = true then s.modFab fun f => { f with drained := insertNat k.val f.drained } else s.resumeSub k.val) := rfl
    rw [if_neg (by simp [hlive, hmask, hempty]), if_neg (by simpa using hdown)] at hexec
    obtain ⟨hfab, hport, hblp, hothers, hframe⟩ := State.resumeSub_spec (s := s) hwf k.val rfl
    generalize s.resumeSub k.val = t at *
    refine ⟨t, hexec, ?_, ?_, hport, hblp, hothers, ?_, hframe⟩
    · rw [State.isMasked, hfab]
      exact contains_filter_ne ..
    · rw [hfab]
      simp
    · rw [hfab]

end Sys2Proof.Machine
end

section
/-! ### The lines are sampled when FCLK runs again (R159, R901) -/

namespace Sys2Proof.Machine

variable {s t u : State}

/-- Between `s` and `t` the lines of subscribers `ks` have taken effect: each is found as driven, and the others as before. -/
structure State.LinesTaken (ks : List Nat) (s t : State) : Prop where
  lines : t.fab.lines = s.fab.lines
  found : ∀ k ∈ ks, t.fab.down.contains k = s.fab.lines.contains k
  others : ∀ k, k ∉ ks → t.fab.down.contains k = s.fab.down.contains k
  det : t.det = { s.det with streams := t.det.streams }
  lag : Tab.wf Slice.reset s.slices = true → Tab.wf Slice.reset t.slices = true ∧ ∀ p, (t.slice p).lag = (s.slice p).lag
  frame : Frame [.fab, .ports, .blp, .slices, .det, .ctl, .evt, .mbx] s t

theorem contains_insertNat_ne {j k : Nat} (h : j ≠ k) (l : List Nat) : (insertNat k l).contains j = l.contains j := by
  rw [Bool.eq_iff_iff, List.contains_iff_mem, List.contains_iff_mem, mem_insertNat]
  simp [h]

theorem contains_filter_of_ne {j k : Nat} (h : j ≠ k) (l : List Nat) : (l.filter fun x => x != k).contains j = l.contains j := by
  rw [Bool.eq_iff_iff, List.contains_iff_mem, List.contains_iff_mem, List.mem_filter]
  simp [h]

/-- A subscriber whose line is set goes down. -/
theorem State.linesTaken_subDown {k : Nat} (hline : s.fab.lines.contains k = true) : LinesTaken [k] s (s.subDown k) := by
  have hmasks := s.masks_fab k
  have hframe := s.masks_frame k
  have hdet : (s.masks k).det = s.det := hframe.2 .det (by decide)
  have hslices : (s.masks k).slices = s.slices := hframe.2 .slices (by decide)
  rw [State.subDown_eq]
  generalize s.masks k = u at *
  have hunfed := u.unfed_unfeeds k
  generalize u.unfeeds k = v at *
  have hlines : v.fab.lines = s.fab.lines := hunfed.lines.trans (by rw [hmasks])
  have hdown : v.fab.down = insertNat k s.fab.down := hunfed.down.trans (by rw [hmasks])
  have hall : LinesTaken [k] s v := by
    refine ⟨hlines, fun j hj => ?_, fun j hj => ?_, by rw [hunfed.det, hdet], fun hwf => ?_, (hframe.mono (by decide)).trans hunfed.frame⟩
    · rw [List.mem_singleton.1 hj, hdown, hline]
      exact contains_insertNat ..
    · rw [hdown]
      exact contains_insertNat_ne (by simpa using hj) _
    · rw [← hslices] at hwf
      obtain ⟨hwf', hlag⟩ := hunfed.lag hwf
      exact ⟨hwf', fun p => (hlag p).trans (by rw [State.slice_congr hslices])⟩
  split
  · exact ⟨hall.lines, hall.found, hall.others, hall.det, hall.lag, hall.frame.trans ((v.modFab_frame _).mono (by decide))⟩
  · exact hall

theorem State.resumeSub_lines (s : State) (k : Nat) : (s.resumeSub k).fab.lines = s.fab.lines ∧ (s.resumeSub k).fab.down = s.fab.down ∧
    Frame [.fab, .ports, .blp] s (s.resumeSub k) := by
  have hstart := State.Meters.initMeters (s.modFab fun f =>
    { f with masked := f.masked.filter fun x => x != k, drained := f.drained.filter fun x => x != k }) [k]
  unfold State.resumeSub
  dsimp only
  generalize (s.modFab fun f => { f with masked := f.masked.filter fun x => x != k, drained := f.drained.filter fun x => x != k }).initMeters [k] = u at *
  have hframe : Frame [.fab, .ports, .blp] s u := ((s.modFab_frame _).mono (by decide)).trans (hstart.frame.mono (by decide))
  have hfab : u.fab.lines = s.fab.lines ∧ u.fab.down = s.fab.down := by
    rw [hstart.fab]
    exact ⟨rfl, rfl⟩
  split
  · exact ⟨hfab.1, hfab.2, hframe⟩
  · split
    · exact ⟨hfab.1, hfab.2, hframe.trans ((u.modBlp_frame _).mono (by decide))⟩
    · exact ⟨hfab.1, hfab.2, hframe.trans ((u.modPort_frame ..).mono (by decide))⟩

/-- One whose line is clear comes up. -/
theorem State.linesTaken_subUp {k : Nat} (hline : s.fab.lines.contains k = false) : LinesTaken [k] s (s.subUp k) := by
  have hup (t : State) (hlines : t.fab.lines = s.fab.lines) (hdown : t.fab.down = s.fab.down.filter fun x => x != k)
      (hframe : Frame [.fab, .ports, .blp] s t) : LinesTaken [k] s t := by
    have hdet : t.det = s.det := hframe.2 .det (by decide)
    have hslices : t.slices = s.slices := hframe.2 .slices (by decide)
    refine ⟨hlines, fun j hj => ?_, fun j hj => ?_, by rw [hdet], fun hwf => ⟨by rw [hslices]; exact hwf, fun p => ?_⟩, hframe.mono (by decide)⟩
    · rw [List.mem_singleton.1 hj, hdown, hline]
      exact contains_filter_ne ..
    · rw [hdown]
      exact contains_filter_of_ne (by simpa using hj) _
    · rw [State.slice_congr hslices]
  have hfirst := (s.modFab_frame fun f => { f with down := f.down.filter fun x => x != k, drained := f.drained.filter fun x => x != k })
  unfold State.subUp
  dsimp only
  split
  · obtain ⟨hlines, hdown, hframe⟩ := State.resumeSub_lines (s.modFab fun f =>
      { f with down := f.down.filter fun x => x != k, drained := f.drained.filter fun x => x != k }) k
    exact hup _ hlines hdown ((hfirst.mono (by decide)).trans hframe)
  · exact hup _ rfl rfl (hfirst.mono (by decide))

theorem State.linesTaken_takeLine (s : State) (k : Nat) : LinesTaken [k] s (s.takeLine k) := by
  unfold State.takeLine
  split
  · next h => exact ⟨rfl, fun j hj => by rw [List.mem_singleton.1 hj]; exact (beq_iff_eq.1 h).symm, fun _ _ => rfl, rfl, fun h => ⟨h, fun _ => rfl⟩, .refl ..⟩
  · split
    · next h => exact State.linesTaken_subDown h
    · next h => exact State.linesTaken_subUp (Bool.eq_false_iff.2 h)

theorem State.linesTaken_each (ks : List Nat) (s : State) : LinesTaken ks s (s.each ks State.takeLine) := by
  induction ks generalizing s with
  | nil => exact ⟨rfl, fun k hk => absurd hk List.not_mem_nil, fun _ _ => rfl, rfl, fun h => ⟨h, fun _ => rfl⟩, .refl ..⟩
  | cons a ks ih =>
    rw [State.each_cons]
    have h1 := s.linesTaken_takeLine a
    have h2 := ih (s.takeLine a)
    generalize s.takeLine a = u at *
    refine ⟨h2.lines.trans h1.lines, fun k hk => ?_, fun k hk => ?_, by rw [h2.det, h1.det], fun hwf => ?_, h1.frame.trans h2.frame⟩
    · by_cases hks : k ∈ ks
      · rw [h2.found k hks, h1.lines]
      · rw [h2.others k hks]
        exact h1.found k (by simpa [hks] using hk)
    · obtain ⟨hka, hks⟩ := List.ne_and_not_mem_of_not_mem_cons hk
      rw [h2.others k hks]
      exact h1.others k (by simpa using hka)
    · obtain ⟨hwf', hlag⟩ := h1.lag hwf
      exact ⟨(h2.lag hwf').1, fun p => ((h2.lag hwf').2 p).trans (hlag p)⟩

/-- Every subscriber is found as its line is driven. -/
def State.Sampled (s : State) : Prop := ∀ k, k < 37 → s.fab.lines.contains k = s.fab.down.contains k

theorem State.linesTaken_takeLines (s : State) : LinesTaken (List.range 37) s s.takeLines := State.linesTaken_each _ s

theorem State.sampled_takeLines (s : State) : s.takeLines.Sampled := fun k hk => by
  have h := s.linesTaken_takeLines
  rw [h.lines, h.found k (List.mem_range.2 hk)]

/-- Where every line is found as it is driven, sampling changes nothing. -/
theorem State.takeLines_of_sampled (h : s.Sampled) : s.takeLines = s := by
  have hone (ks : List Nat) (hks : ∀ k ∈ ks, k < 37) : s.each ks State.takeLine = s := by
    induction ks with
    | nil => rfl
    | cons a ks ih =>
      have ha : s.takeLine a = s := if_pos (beq_iff_eq.2 (h a (hks a List.mem_cons_self)))
      rw [State.each_cons, ha, ih fun k hk => hks k (List.mem_cons_of_mem _ hk)]
  exact hone (List.range 37) fun k hk => List.mem_range.1 hk

end Sys2Proof.Machine
end

section
/-! ### The alignment's edges and time-outs that change no island (R714, R823), and KX_WAKE (R903) -/

namespace Sys2Proof.Machine

variable {s t u : State}

theorem exec_detSetDrainTimeout : exec .detSetDrainTimeout s = .next (
    if s.det.align ≠ 1 ∨ s.det.alignBoot = true ∨ (s.trackerEmpty = true ∧ s.fab.hold.contains 3 = true) ∨
      s.sys.ltc < s.det.alignAt + 4000000 then s
    else { s with
      fab := { s.fab with hold := s.fab.hold.filter fun c => c != 3 }
      det := { s.det with align := 0, armed := false, lows := 0 }
      mbx := s.ended eTimeout [] }) := by
  change execDetSetDrainTimeout s = _
  refine congrArg _ (if_congr ?_ rfl rfl)
  simp only [Bool.or_eq_true, decide_eq_true_eq, Bool.and_eq_true, or_assoc]
  rfl

theorem exec_alignA0 : exec .alignA0 s = .next (if s.det.align ≠ 2 ∨ s.det.lows < 2 then s
    else { s with det := { s.det with align := 3, armed := false, alignAt := (s.sys.ltc + 3) / 4 * 4 } }) := by
  change execAlignA0 s = _
  refine congrArg _ (if_congr ?_ rfl rfl)
  simp only [Bool.or_eq_true, decide_eq_true_eq]

/-- Thaw from tick `w` on (R903). -/
def State.thawFrom (s : State) (w : Nat) : State := State.takeLines { s with sys := { s.sys with phase := .thaw, wakeLtc := w } }

theorem exec_kxWake (level : Bool) : exec (.kxWake level) s = .next (
    if (!(level && !s.sys.wake) || s.therm.latch) = true then { s with sys := { s.sys with wake := level } }
    else if (s.sys.phase == .frost) = true then State.thawFrom { s with sys := { s.sys with wake := level } } s.sys.ltc
    else if s.sys.entering = true then { s with sys := { s.sys with wake := level, wakeSeen := true } }
    else { s with sys := { s.sys with wake := level } }) := rfl

end Sys2Proof.Machine
end

section
/-! ### Steps that leave every island's lag (R37), and admission opening (R896) -/

namespace Sys2Proof.Machine

variable {s t u : State}

/-- Between `s` and `t` no island has changed in what `g` reads of it. -/
structure State.SliceKeeps {β : Type} (g : Slice → β) (s t : State) : Prop where
  slices : Tab.wf Slice.reset s.slices = true → Tab.wf Slice.reset t.slices = true ∧ ∀ p, g (t.slice p) = g (s.slice p)

namespace State.SliceKeeps

variable {β : Type} {g : Slice → β}

theorem refl (s : State) : SliceKeeps g s s := ⟨fun h => ⟨h, fun _ => rfl⟩⟩

theorem trans (h1 : SliceKeeps g s t) (h2 : SliceKeeps g t u) : SliceKeeps g s u := by
  refine ⟨fun h => ?_⟩
  obtain ⟨ht, hst⟩ := h1.slices h
  obtain ⟨hu, htu⟩ := h2.slices ht
  exact ⟨hu, fun p => (htu p).trans (hst p)⟩

theorem of_frame {ps : List Part} (h : Frame ps s t) (hps : Part.slices ∉ ps := by decide) : SliceKeeps g s t := by
  have hs : t.slices = s.slices := h.2 .slices hps
  exact ⟨fun hwf => ⟨by rw [hs]; exact hwf, fun p => by rw [State.slice_congr hs]⟩⟩

theorem ite {c : Prop} [Decidable c] (h1 : SliceKeeps g s t) (h2 : SliceKeeps g s u) : SliceKeeps g s (if c then t else u) := by
  split
  · exact h1
  · exact h2

theorem each {α : Type} {f : State → α → State} (hf : ∀ t a, SliceKeeps g t (f t a)) (l : List α) (s : State) : SliceKeeps g s (s.each l f) := by
  induction l generalizing s with
  | nil => exact refl s
  | cons a l ih => exact (hf s a).trans (ih _)

theorem modSlice (s : State) (p : Nat) {f : Slice → Slice} (hf : ∀ x, g (f x) = g x) : SliceKeeps g s (s.modSlice p f) := by
  refine ⟨fun h => ⟨State.modSlice_wf h f, fun j => ?_⟩⟩
  by_cases hj : j = p
  · rw [hj, State.slice_modSlice h]
    exact hf _
  · rw [State.slice_modSlice_ne _ _ hj]

end State.SliceKeeps

/-- Between `s` and `t` no view's lag has changed. -/
abbrev State.SameLag (s t : State) : Prop := State.SliceKeeps Slice.lag s t

namespace State.SameLag

theorem modLink (s : State) (p : Nat) (f : Link → Link) : SameLag s (s.modLink p f) := SliceKeeps.modSlice s p fun _ => rfl

theorem modRf (s : State) (p : Nat) (f : Refr → Refr) : SameLag s (s.modRf p f) := SliceKeeps.modSlice s p fun _ => rfl

theorem modScr (s : State) (p : Nat) (f : Scrub → Scrub) : SameLag s (s.modScr p f) := SliceKeeps.modSlice s p fun _ => rfl

theorem newScrub (s : State) (p : Nat) : SameLag s (s.newScrub p) := modScr ..

theorem sendRow (s : State) (p op fields : Nat) : SameLag s (s.sendRow p op fields) := by
  unfold State.sendRow
  exact modLink ..

theorem startAccs (s : State) (p : Nat) (fresh : Bool) : SameLag s (s.startAccs p fresh) := by
  unfold State.startAccs
  exact modRf ..

theorem alignSlice (s : State) (p : Nat) : SameLag s (s.alignSlice p) := by
  have hgo (t : State) : SameLag t (t.modSlice p fun x =>
      { x with bt := { x.bt with okAny := x.sch.cclk }, rf := { x.rf with selfRef := false }, link := { x.link with cke := true } }) :=
    SliceKeeps.modSlice t p fun _ => rfl
  unfold State.alignSlice
  extract_lets s1
  exact SliceKeeps.ite (SliceKeeps.refl s) (.trans (.trans (.trans (sendRow s p 5 0) (hgo _)) (startAccs _ p false)) (newScrub _ p))

end State.SameLag

theorem State.newScrub_frame (s : State) (p : Nat) : Frame [.slices] s (s.newScrub p) := State.modSlice_frame ..

/-- Between `s` and `t` the ring stop has acted: a ring's frames and tables, budgets, and the free values drawn for them. -/
structure State.RingActs (s t : State) : Prop where
  sys : t.sys = { s.sys with free := t.sys.free }
  frame : Frame [.sys, .stk, .ring] s t

namespace State.RingActs

theorem refl (s : State) : RingActs s s := ⟨rfl, .refl ..⟩

theorem trans (h1 : RingActs s t) (h2 : RingActs t u) : RingActs s u := ⟨by rw [h2.sys, h1.sys], h1.frame.trans h2.frame⟩

theorem ite {c : Prop} [Decidable c] (h1 : RingActs s t) (h2 : RingActs s u) : RingActs s (if c then t else u) := by
  split
  · exact h1
  · exact h2

theorem of_frame (h : Frame [.stk, .ring] s t) : RingActs s t := ⟨by rw [h.2 .sys (by decide)], h.mono (by decide)⟩

theorem modRing (s : State) (f : Ring → Ring) : RingActs s (s.modRing f) := of_frame ((s.modRing_frame f).mono (by decide))

theorem modStk (s : State) (f : Stack → Stack) : RingActs s (s.modStk f) := of_frame ((s.modStk_frame f).mono (by decide))

theorem nextFree (s : State) : RingActs s s.nextFree :=
  ⟨rfl, (State.modSys_frame s fun y => { y with free := y.free + 1 }).mono (by decide)⟩

theorem ringSend (s : State) (fs : List (List (BitVec 16))) : RingActs s (s.ringSend fs) :=
  of_frame ((s.ringSend_frame fs).mono (by decide))

theorem sendBudgets (s : State) : RingActs s s.sendBudgets := by
  unfold State.sendBudgets
  extract_lets die ms sum share s1 s2
  exact ite ((((nextFree s).trans (modStk ..)).trans (modRing ..)).trans (ringSend ..)) (refl s)

theorem renewBudgets (s : State) : RingActs s s.renewBudgets := ite (refl s) (sendBudgets s)

theorem setMember (s : State) (i : Nat) (m : Option Member) : RingActs s (s.setMember i m) := by
  unfold State.setMember
  extract_lets old s1 s2
  have h2 : RingActs s s2 := ite (modRing ..) ((modRing ..).trans (modRing ..))
  exact ite h2 (h2.trans (renewBudgets _))

theorem sendAnnounce (s : State) : RingActs s s.sendAnnounce := by
  unfold State.sendAnnounce
  extract_lets s1
  exact ite (refl s) ((((modRing ..).trans (modRing ..)).trans (setMember ..)).trans (modRing ..))

theorem sendLayerBudgets (s : State) : RingActs s s.sendLayerBudgets := (modStk ..).trans (nextFree _)

end State.RingActs

/-- Between `s` and `t` admission has opened: the device runs and is ready, every port that no mask keeps holds its credits, and
no configuration, fabric or memory has changed. -/
structure State.Opened (s t : State) : Prop where
  sys : t.sys = { s.sys with
    phase := .running, ready := true, everReady := true, frost := false, readyLtc := t.sys.readyLtc, free := t.sys.free }
  ports : ∀ k, k < 36 → s.isMasked k = false →
    (t.port k).reqCrd = (if isTile k then 32 else 16) ∧ (t.port k).wdCrd = if isTile k then 64 else 16
  lag : SameLag s t
  frame : Frame [.sys, .ports, .blp, .slices, .stk, .ring] s t

/-- The credits of every port granted. -/
theorem State.port_each_grantPort (hwf : Tab.wf Port.reset s.ports = true) {ks : List Nat} {k : Nat} (hk : k ∈ ks) :
    ((s.each ks State.grantPort).port k).reqCrd = (if isTile k then 32 else 16) ∧
      ((s.each ks State.grantPort).port k).wdCrd = if isTile k then 64 else 16 := by
  have hgrant (t : State) (j : Nat) (h : Tab.wf Port.reset t.ports = true) : Tab.wf Port.reset (t.grantPort j).ports = true :=
    State.modPort_wf h ..
  refine (State.each_reaches (P := fun t => Tab.wf Port.reset t.ports = true) (Q := fun t => Tab.wf Port.reset t.ports = true ∧
    (t.port k).reqCrd = (if isTile k then 32 else 16) ∧ (t.port k).wdCrd = if isTile k then 64 else 16) hgrant ?_ ?_ hk hwf).2
  · intro t j ⟨h, hreq, hwd⟩
    refine ⟨hgrant t j h, ?_⟩
    by_cases hj : k = j
    · rw [hj, State.grantPort, State.port_modPort h]
      exact ⟨rfl, rfl⟩
    · rw [State.grantPort, State.port_modPort_ne _ _ hj]
      exact ⟨hreq, hwd⟩
  · intro t h
    refine ⟨hgrant t k h, ?_⟩
    rw [State.grantPort, State.port_modPort h]
    exact ⟨rfl, rfl⟩

theorem State.openUp_opened (hwf : Tab.wf Port.reset s.ports = true) : Opened s s.openUp := by
  have hstep (t : State) (k : Nat) : Frame [.ports] t (t.grantPort k) := State.modPort_frame ..
  unfold State.openUp
  extract_lets first s1 s2 s3 s4 s5
  have hmasked (k : Nat) : s1.isMasked k = s.isMasked k := rfl
  have hports {k : Nat} := State.port_each_grantPort (s := s1) hwf (ks := (List.range 36).filter fun k => !s1.isMasked k) (k := k)
  have h2 : Frame [.ports] s1 s2 := State.each_frame _ hstep
  have h3 : Frame [.blp] s2 s3 := .ite (.refl ..) (State.modBlp_frame ..)
  have hscrub : Frame [.slices] s3 (s3.each s3.boundSlices State.newScrub) := State.each_frame _ State.newScrub_frame
  have h4 : Frame [.slices, .stk] s3 s4 := .ite ((hscrub.mono (by decide)).trans ((State.modStk_frame ..).mono (by decide))) (.refl ..)
  have h5 : RingActs s4 s5 := .sendAnnounce s4
  have hend : RingActs s5 (if (first && s5.federated && !s5.therm.latch) = true then s5.sendLayerBudgets else s5) :=
    .ite (.sendLayerBudgets s5) (.refl s5)
  generalize (if (first && s5.federated && !s5.therm.latch) = true then s5.sendLayerBudgets else s5) = t at *
  have h4t := h5.trans hend
  have hs1 : Frame [.sys] s s1 := State.modSys_frame ..
  have hsys4 : s4.sys = s1.sys := (h4.2 .sys (by decide)).trans ((h3.2 .sys (by decide)).trans (h2.2 .sys (by decide)))
  have hports4 : t.ports = s2.ports := (h4t.frame.2 .ports (by decide)).trans ((h4.2 .ports (by decide)).trans (h3.2 .ports (by decide)))
  have hlag4 : SameLag s3 s4 := .ite (.trans (.each SameLag.newScrub _ _) (.of_frame (State.modStk_frame ..) (by decide))) (.refl s3)
  refine ⟨?_, fun k hk hm => ?_, ?_, ?_⟩
  · rw [h4t.sys, hsys4]
    rfl
  · rw [State.port_congr hports4]
    exact hports (List.mem_filter.2 ⟨List.mem_range.2 hk, by rw [hmasked, hm]; rfl⟩)
  · exact (((SliceKeeps.of_frame hs1 (by decide)).trans (.of_frame h2 (by decide))).trans (.of_frame h3 (by decide))).trans
      (hlag4.trans (.of_frame h4t.frame (by decide)))
  · exact (hs1.mono (by decide)).trans ((h2.mono (by decide)).trans ((h3.mono (by decide)).trans ((h4.mono (by decide)).trans (h4t.frame.mono (by decide)))))

end Sys2Proof.Machine
end

section
/-! ### The alignment's runs: AR and the time-out (R715, R716) -/

namespace Sys2Proof.Machine

variable {s t u : State}

theorem State.alignSlice_frame (s : State) (p : Nat) : Frame [.slices] s (s.alignSlice p) := by
  unfold State.alignSlice
  extract_lets s1
  exact .ite (.refl ..) ((((State.sendRow_frame ..).trans (State.modSlice_frame ..)).trans (State.startAccs_frame ..)).trans (State.newScrub_frame ..))

/-- Between `s` and `t` the islands run again, and every requester-down line is found as it is driven. -/
structure State.Runs (s t : State) : Prop where
  sampled : t.Sampled
  lines : t.fab.lines = s.fab.lines
  det : t.det = { s.det with streams := t.det.streams }
  still : s.Sampled → t.det = s.det
  lag : SameLag s t
  frame : Frame [.fab, .ports, .blp, .slices, .det, .ctl, .evt, .mbx] s t

theorem State.alignRun_runs (s : State) : Runs s s.alignRun := by
  have hslices : Frame [.slices] s (s.each (s.boundSlices ++ s.stk.migs.map (·.new)) State.alignSlice) := State.each_frame _ State.alignSlice_frame
  have hlag : SameLag s (s.each (s.boundSlices ++ s.stk.migs.map (·.new)) State.alignSlice) := .each SameLag.alignSlice _ s
  unfold State.alignRun
  generalize s.each (s.boundSlices ++ s.stk.migs.map (·.new)) State.alignSlice = u at *
  have hmeters := State.Meters.initMeters u (List.range 48)
  generalize u.initMeters (List.range 48) = v at *
  have hfab : u.fab = s.fab := hslices.2 .fab (by decide)
  have hdet : v.det = s.det := (hmeters.frame.2 .det (by decide)).trans (hslices.2 .det (by decide))
  have hlines : v.fab.lines = s.fab.lines := by rw [hmeters.fab, hfab]
  have hdown : v.fab.down = s.fab.down := by rw [hmeters.fab, hfab]
  have htaken := v.linesTaken_takeLines
  refine ⟨v.sampled_takeLines, htaken.lines.trans hlines, by rw [htaken.det, hdet], fun h => ?_,
    hlag.trans (.trans (.of_frame hmeters.frame (by decide)) ⟨htaken.lag⟩), ?_⟩
  · rw [State.takeLines_of_sampled fun k hk => by rw [hlines, hdown]; exact h k hk, hdet]
  · exact (hslices.mono (by decide)).trans ((hmeters.frame.mono (by decide)).trans htaken.frame)

/-- Every view is loaded with the counter less 3 (R37). -/
def State.viewsLoaded (s : State) : State :=
  { s with slices := (List.range 144).foldl (fun t p => Tab.upd Slice.reset t p fun x => { x with lag := 3 }) s.slices }

/-- A change of several islands, one after the other. -/
theorem State.each_modSlice (f : Slice → Slice) (ps : List Nat) (s : State) :
    s.each ps (fun t p => t.modSlice p f) = { s with slices := ps.foldl (fun t p => Tab.upd Slice.reset t p f) s.slices } := by
  induction ps generalizing s with
  | nil => rfl
  | cons p ps ih =>
    rw [State.each_cons, ih]
    rfl

theorem State.lag_viewsLoaded (hwf : Tab.wf Slice.reset s.slices = true) :
    Tab.wf Slice.reset s.viewsLoaded.slices = true ∧ ∀ p, p < 144 → (s.viewsLoaded.slice p).lag = 3 := by
  rw [State.viewsLoaded, ← State.each_modSlice]
  refine ⟨State.each_induct (P := fun t => Tab.wf Slice.reset t.slices = true) (fun t p h => State.modSlice_wf h _) _ hwf, fun p hp => ?_⟩
  refine (State.each_reaches (P := fun t => Tab.wf Slice.reset t.slices = true) (Q := fun t => Tab.wf Slice.reset t.slices = true ∧
    (t.slice p).lag = 3) (fun t j h => State.modSlice_wf h _) ?_ ?_ (List.mem_range.2 hp) hwf).2
  · intro t j ⟨h, hlag⟩
    refine ⟨State.modSlice_wf h _, ?_⟩
    by_cases hj : p = j
    · rw [hj, State.slice_modSlice h]
    · rw [State.slice_modSlice_ne _ _ hj]
      exact hlag
  · intro t h
    exact ⟨State.modSlice_wf h _, by rw [State.slice_modSlice h]⟩

/-- The mode in the configuration and in force, before the rises to band 3 are counted. -/
def State.modeHeld (s : State) (n : Nat) (m : DetMode) : State :=
  { s.settleBands with
    cfg := { s.cfg with det := BitVec.ofNat 32 (fld s.cfg.det 2 30 * 4 + n) }
    det := { s.det with mode := m } }

theorem State.modeHeld_frame (s : State) (n : Nat) (m : DetMode) : Frame [.slices, .cfg, .det] s (s.modeHeld n m) := by
  have hbands := s.settleBands_frame
  unfold State.modeHeld
  generalize s.settleBands = u at *
  exact (hbands.mono (by decide)).trans (.of rfl fun q => by cases q <;> first | exact .inl (by decide) | exact .inr rfl)

theorem State.unitMode_counts (s : State) (n : Nat) (m : DetMode) : Frame [.ctl, .evt, .mbx] (s.modeHeld n m) (s.unitMode n m) := by
  unfold State.unitMode
  exact State.each_frame _ fun t p => State.count_frame ..

/-- The units hold a mode. -/
theorem State.unitMode_spec (s : State) {n : Nat} (hn : n < 4) (m : DetMode) :
    (s.unitMode n m).det = { s.det with mode := m } ∧ fld (s.unitMode n m).cfg.det 0 2 = n ∧
      Frame [.slices, .cfg, .det, .ctl, .evt, .mbx] s (s.unitMode n m) := by
  have hcounts := s.unitMode_counts n m
  have hcfg : (s.unitMode n m).cfg = (s.modeHeld n m).cfg := hcounts.2 .cfg (by decide)
  have hdet : (s.unitMode n m).det = (s.modeHeld n m).det := hcounts.2 .det (by decide)
  refine ⟨hdet.trans rfl, ?_, ((s.modeHeld_frame n m).mono (by decide)).trans (hcounts.mono (by decide))⟩
  rw [hcfg]
  exact (fld_withMode s.cfg.det hn).1

/-- The alignment over, in start-up: admission opens. -/
theorem State.alignEnd_boot (err : BitVec 8) (l : List Word) (hboot : s.det.alignBoot = true) (hwf : Tab.wf Port.reset s.ports = true) :
    Opened { s with
      fab := { s.fab with hold := s.fab.hold.filter fun c => c != 3 }
      det := { s.det with align := 0, armed := false, lows := 0 } } (s.alignEnd err l) := by
  unfold State.alignEnd
  rw [if_pos hboot]
  exact State.openUp_opened (s := { s with
      fab := { s.fab with hold := s.fab.hold.filter fun c => c != 3 }
      det := { s.det with align := 0, armed := false, lows := 0 } }) hwf

/-- The alignment over, for a DET_SET: its command is answered. -/
theorem State.alignEnd_det (err : BitVec 8) (l : List Word) (hboot : s.det.alignBoot = false) :
    s.alignEnd err l = { s with
      fab := { s.fab with hold := s.fab.hold.filter fun c => c != 3 }
      det := { s.det with align := 0, armed := false, lows := 0 }
      mbx := s.ended err l } := by
  unfold State.alignEnd
  rw [if_neg (by simp [hboot])]
  rfl

/-- The state in which AR has loaded the views, before the islands run. -/
def State.alignLoaded (s : State) : State :=
  ((s.unitMode 2 .timing).viewsLoaded.modSys fun y => { y with fabLag := 3 }).modDet fun d =>
    { d with alignLtc := s.sys.ltc, aligned := true, broken := 0 }

theorem exec_alignAr : exec .alignAr s = .next (
    if s.det.align ≠ 3 ∨ s.sys.ltc < s.det.alignAt + 4 * fld s.cfg.det 2 16 then s
    else ((s.alignLoaded.alignRun).event .alignDone 0 0).alignEnd eOk [2]) := by
  change execAlignAr s = _
  refine congrArg _ (if_congr ?_ rfl rfl)
  simp only [Bool.or_eq_true, decide_eq_true_eq]
  rfl

/-- The state in which the time-out has set the mode, before the islands run. -/
def State.alignLost (s : State) : State := if s.det.alignBoot then s.unitMode 1 .bits else s

theorem exec_alignTimeout : exec .alignTimeout s = .next (
    if s.det.align ≠ 2 ∨ s.sys.ltc < s.det.alignAt + 400000000 then s
    else ((s.alignLost.alignRun).event .alignFail 0 0).alignEnd eTimeout []) := by
  change execAlignTimeout s = _
  refine congrArg _ (if_congr ?_ rfl rfl)
  simp only [Bool.or_eq_true, decide_eq_true_eq]
  rfl

end Sys2Proof.Machine
end

section
/-! ### ALIGN_AR and ALIGN_TIMEOUT as stated -/

namespace Sys2Proof.Machine

variable {s t u : State}

/-- The islands run, the event is recorded, and the hold of admission has not ended yet. -/
theorem State.alignRun_event (s : State) (e : Ev) : Runs s (s.alignRun.event e 0 0) := by
  have h := s.alignRun_runs
  have he : Frame [.evt, .mbx] s.alignRun (s.alignRun.event e 0 0) := State.event_frame ..
  generalize s.alignRun.event e 0 0 = t at *
  generalize s.alignRun = u at *
  have hfab : t.fab = u.fab := he.2 .fab (by decide)
  have hdet : t.det = u.det := he.2 .det (by decide)
  refine ⟨fun k hk => ?_, by rw [hfab, h.lines], by rw [hdet, h.det], fun hs => by rw [hdet, h.still hs],
    h.lag.trans (.of_frame he (by decide)), h.frame.trans (he.mono (by decide))⟩
  rw [hfab]
  exact h.sampled k hk

/-- The alignment's end: in what it leaves and what it answers. -/
structure State.AlignEnds (s t : State) (err : BitVec 8) (l : List Word) : Prop where
  fab : t.fab = { s.fab with hold := s.fab.hold.filter fun c => c != 3 }
  det : t.det = { s.det with align := 0, armed := false, lows := 0 }
  lag : SameLag s t
  answers : s.det.alignBoot = false → t.mbx = s.ended err l ∧ t.sys = s.sys
  opens : s.det.alignBoot = true → t.sys.phase = .running ∧ t.sys.ready = true ∧ t.sys.fabLag = s.sys.fabLag
  frame : Frame [.fab, .det, .mbx, .sys, .ports, .blp, .slices, .stk, .ring] s t

theorem State.alignEnd_ends (err : BitVec 8) (l : List Word) (hwf : Tab.wf Port.reset s.ports = true) : AlignEnds s (s.alignEnd err l) err l := by
  cases hboot : s.det.alignBoot with
  | true =>
    have h := State.alignEnd_boot err l hboot hwf
    have hfirst : Frame [.fab, .det] s { s with
        fab := { s.fab with hold := s.fab.hold.filter fun c => c != 3 }
        det := { s.det with align := 0, armed := false, lows := 0 } } :=
      .of rfl fun q => by cases q <;> first | exact .inl (by decide) | exact .inr rfl
    refine ⟨h.frame.2 .fab (by decide), h.frame.2 .det (by decide), ⟨h.lag.slices⟩, fun hn => ?_, fun _ => ?_,
      (hfirst.mono (by decide)).trans (h.frame.mono (by decide))⟩
    · rw [hboot] at hn
      cases hn
    · rw [h.sys]
      exact ⟨rfl, rfl, rfl⟩
  | false =>
    rw [State.alignEnd_det err l hboot]
    refine ⟨rfl, rfl, ⟨fun h => ⟨h, fun _ => rfl⟩⟩, fun _ => ⟨rfl, rfl⟩, fun hn => ?_,
      .of rfl fun q => by cases q <;> first | exact .inl (by decide) | exact .inr rfl⟩
    rw [hboot] at hn
    cases hn

theorem State.AlignEnds.hold {err : BitVec 8} {l : List Word} (h : AlignEnds s t err l) : 3 ∉ t.fab.hold := by
  rw [h.fab]
  simp

theorem State.viewsLoaded_frame (s : State) : Frame [.slices] s s.viewsLoaded := by
  rw [State.viewsLoaded, ← State.each_modSlice]
  exact State.each_frame _ fun t p => t.modSlice_frame ..

theorem State.alignLoaded_frame (s : State) : Frame [.slices, .sys, .det] (s.unitMode 2 .timing) s.alignLoaded := by
  unfold State.alignLoaded
  exact ((State.viewsLoaded_frame _).mono (by decide)).trans (((State.modSys_frame ..).mono (by decide)).trans ((State.modDet_frame ..).mono (by decide)))

theorem State.alignLoaded_spec (hcanon : s.Canon) :
    s.alignLoaded.det = { s.det with mode := .timing, alignLtc := s.sys.ltc, aligned := true, broken := 0 } ∧
    s.alignLoaded.sys = { s.sys with fabLag := 3 } ∧ fld s.alignLoaded.cfg.det 0 2 = 2 ∧
    (Tab.wf Slice.reset s.alignLoaded.slices = true ∧ ∀ p, p < 144 → (s.alignLoaded.slice p).lag = 3) ∧
    Frame [.slices, .cfg, .det, .ctl, .evt, .mbx, .sys] s s.alignLoaded := by
  obtain ⟨hdet, hmode, hframe⟩ := s.unitMode_spec (n := 2) (by decide) .timing
  have hkept := State.unitMode_kept (cmds := s.pending) ⟨hcanon, rfl⟩ 2 .timing
  have hload := s.alignLoaded_frame
  have hcfg : s.alignLoaded.cfg = (s.unitMode 2 .timing).cfg := hload.2 .cfg (by decide)
  rw [← hcfg] at hmode
  have hall : Frame [.slices, .cfg, .det, .ctl, .evt, .mbx, .sys] s s.alignLoaded := (hframe.mono (by decide)).trans (hload.mono (by decide))
  unfold State.alignLoaded at *
  generalize s.unitMode 2 .timing = u at *
  have hsys : u.sys = s.sys := hframe.2 .sys (by decide)
  obtain ⟨⟨-, -, hslices, -⟩, -⟩ := hkept
  have hviews := u.viewsLoaded_frame
  have hlag := State.lag_viewsLoaded hslices
  generalize u.viewsLoaded = v at *
  have hvdet : v.det = u.det := hviews.2 .det (by decide)
  have hvsys : v.sys = u.sys := hviews.2 .sys (by decide)
  refine ⟨?_, ?_, hmode, hlag, hall⟩
  · change { v.det with alignLtc := s.sys.ltc, aligned := true, broken := 0 } = _
    rw [hvdet, hdet]
  · change { v.sys with fabLag := 3 } = _
    rw [hvsys, hsys]

/-- The ports' table stays in form where the islands run again. -/
theorem State.alignRun_ports (h : s.Kept cmds) (e : Ev) : Tab.wf Port.reset (s.alignRun.event e 0 0).ports = true := by
  rw [State.event_ports]
  obtain ⟨⟨_, hports, _⟩, _⟩ := State.alignRun_kept h
  exact hports

theorem State.alignLoaded_kept (h : s.Canon) : s.alignLoaded.Kept s.pending := by
  obtain ⟨-, -, -, ⟨hwf, -⟩, -⟩ := State.alignLoaded_spec h
  obtain ⟨⟨hmem, hports, _, htlm, hevt⟩, hpending⟩ := State.unitMode_kept (cmds := s.pending) ⟨h, rfl⟩ 2 .timing
  have hload := s.alignLoaded_frame
  generalize s.alignLoaded = t at *
  generalize s.unitMode 2 .timing = u at *
  refine ⟨⟨?_, ?_, hwf, ?_, ?_⟩, hload.1.trans hpending⟩
  · rw [hload.2 .mem (by decide)]
    exact hmem
  · rw [hload.2 .ports (by decide)]
    exact hports
  · rw [hload.2 .ctl (by decide)]
    exact htlm
  · rw [hload.2 .evt (by decide)]
    exact hevt

theorem State.alignLost_kept (h : s.Canon) : s.alignLost.Kept s.pending := by
  unfold State.alignLost
  split
  · exact State.unitMode_kept ⟨h, rfl⟩ 1 .bits
  · exact ⟨h, rfl⟩

theorem exec_alignAr_runs (hcanon : s.Canon) (halign : s.det.align = 3) (hdue : s.det.alignAt + 4 * fld s.cfg.det 2 16 ≤ s.sys.ltc) :
    ∃ t, exec .alignAr s = .next t ∧ t.Sampled ∧
      t.fab.lines = s.fab.lines ∧ t.det.mode = .timing ∧ t.det.aligned = true ∧
      (s.Sampled → t.det = { s.det with
        mode := .timing, align := 0, armed := false, lows := 0, alignLtc := s.sys.ltc, aligned := true, broken := 0 }) ∧
      (∀ p, p < 144 → (t.slice p).lag = 3) ∧ t.sys.fabLag = 3 ∧ fld t.cfg.det 0 2 = 2 ∧ 3 ∉ t.fab.hold ∧ t.mem = s.mem ∧
      (s.det.alignBoot = false → (t.mbx.st = .done ∧ t.mbx.err = eOk ∧ t.mbx.run = none) ∧ t.mbx.resp = tabOf [2] ∧
        t.sys = { s.sys with fabLag := 3 }) ∧
      (s.det.alignBoot = true → t.sys.phase = .running ∧ t.sys.ready = true) := by
  have hkept := State.alignLoaded_kept hcanon
  obtain ⟨hdet, hsys, hmode, ⟨hwf, hlag⟩, hframe⟩ := State.alignLoaded_spec hcanon
  have hports := State.alignRun_ports hkept .alignDone
  have hruns := s.alignLoaded.alignRun_event .alignDone
  refine ⟨_, exec_alignAr.trans (congrArg _ (if_neg (by omega))), ?_⟩
  clear hkept
  generalize s.alignLoaded.alignRun.event .alignDone 0 0 = v at *
  generalize s.alignLoaded = u at *
  have hends := v.alignEnd_ends eOk [2] hports
  generalize v.alignEnd eOk [2] = t at *
  have hufab : u.fab = s.fab := hframe.2 .fab (by decide)
  have hvsys : v.sys = u.sys := hruns.frame.2 .sys (by decide)
  have hvcfg : v.cfg = u.cfg := hruns.frame.2 .cfg (by decide)
  have htcfg : t.cfg = v.cfg := hends.frame.2 .cfg (by decide)
  have hboot : v.det.alignBoot = s.det.alignBoot := by rw [hruns.det, hdet]
  have hlags := hruns.lag.trans hends.lag
  refine ⟨fun k hk => ?_, ?_, ?_, ?_, fun hs => ?_, fun p hp => ((hlags.slices hwf).2 p).trans (hlag p hp), ?_, ?_, hends.hold, ?_,
    fun hb => ?_, fun hb => ?_⟩
  · rw [hends.fab]
    exact hruns.sampled k hk
  · rw [hends.fab, ← hufab]
    exact hruns.lines
  · rw [hends.det, hruns.det, hdet]
  · rw [hends.det, hruns.det, hdet]
  · rw [hends.det, hruns.still fun k hk => by rw [hufab]; exact hs k hk, hdet]
  · cases hb : s.det.alignBoot with
    | true => rw [(hends.opens (hboot.trans hb)).2.2, hvsys, hsys]
    | false => rw [(hends.answers (hboot.trans hb)).2, hvsys, hsys]
  · rw [htcfg, hvcfg]
    exact hmode
  · exact (hends.frame.2 .mem (by decide)).trans ((hruns.frame.2 .mem (by decide)).trans (hframe.2 .mem (by decide)))
  · obtain ⟨hmbx, htsys⟩ := hends.answers (hboot.trans hb)
    rw [hmbx, htsys, hvsys, hsys]
    exact ⟨⟨rfl, rfl, rfl⟩, rfl, rfl⟩
  · obtain ⟨hphase, hready, -⟩ := hends.opens (hboot.trans hb)
    exact ⟨hphase, hready⟩

theorem exec_alignTimeout_ends (hcanon : s.Canon) (halign : s.det.align = 2) (hdue : s.det.alignAt + 400000000 ≤ s.sys.ltc) :
    ∃ t, exec .alignTimeout s = .next t ∧ 3 ∉ t.fab.hold ∧
      (s.Sampled → t.det = { s.det with
        align := 0, armed := false, lows := 0, mode := if s.det.alignBoot = true then .bits else s.det.mode }) ∧
      (s.det.alignBoot = false → (t.mbx.st = .done ∧ t.mbx.err = eTimeout ∧ t.mbx.run = none) ∧ t.sys = s.sys) ∧
      (s.det.alignBoot = true → t.sys.phase = .running ∧ t.sys.ready = true ∧ fld t.cfg.det 0 2 = 1) := by
  have hkept := State.alignLost_kept hcanon
  have hlost : s.alignLost.det = { s.det with mode := if s.det.alignBoot = true then .bits else s.det.mode } ∧
      (s.det.alignBoot = true → fld s.alignLost.cfg.det 0 2 = 1) ∧ Frame [.slices, .cfg, .det, .ctl, .evt, .mbx] s s.alignLost := by
    obtain ⟨hdet, hmode, hframe⟩ := s.unitMode_spec (n := 1) (by decide) .bits
    unfold State.alignLost
    cases hb : s.det.alignBoot with
    | true => exact ⟨by rw [if_pos rfl, hdet]; rfl, fun _ => hmode, hframe⟩
    | false => exact ⟨by rw [if_neg (by decide)]; rfl, fun h => absurd h (by decide), .refl ..⟩
  obtain ⟨hdet, hmode, hframe⟩ := hlost
  have hports := State.alignRun_ports hkept .alignFail
  have hruns := s.alignLost.alignRun_event .alignFail
  refine ⟨_, exec_alignTimeout.trans (congrArg _ (if_neg (by omega))), ?_⟩
  clear hkept
  generalize s.alignLost.alignRun.event .alignFail 0 0 = v at *
  generalize s.alignLost = u at *
  have hends := v.alignEnd_ends eTimeout [] hports
  generalize v.alignEnd eTimeout [] = t at *
  have hufab : u.fab = s.fab := hframe.2 .fab (by decide)
  have hvsys : v.sys = s.sys := (hruns.frame.2 .sys (by decide)).trans (hframe.2 .sys (by decide))
  have htcfg : t.cfg = u.cfg := (hends.frame.2 .cfg (by decide)).trans (hruns.frame.2 .cfg (by decide))
  have hboot : v.det.alignBoot = s.det.alignBoot := by rw [hruns.det, hdet]
  refine ⟨hends.hold, fun hs => ?_, fun hb => ?_, fun hb => ?_⟩
  · rw [hends.det, hruns.still fun k hk => by rw [hufab]; exact hs k hk, hdet]
  · obtain ⟨hmbx, htsys⟩ := hends.answers (hboot.trans hb)
    rw [hmbx, htsys, hvsys]
    exact ⟨⟨rfl, rfl, rfl⟩, rfl⟩
  · obtain ⟨hphase, hready, -⟩ := hends.opens (hboot.trans hb)
    exact ⟨hphase, hready, by rw [htcfg]; exact hmode hb⟩

end Sys2Proof.Machine
end

section
/-! ### Lines rewritten one by one, where no two lie at the same place (R399, R400) -/

namespace Sys2Proof.Machine

variable {ls ms ns todo : List AccLine} {l : AccLine} {Q : AccLine → AccLine → Prop}

/-- The place of a line. -/
def AccLine.place (l : AccLine) : Nat × Nat × Nat := (l.bank, l.row, l.col)

theorem AccLine.isAt_place {x l : AccLine} : x.isAt l.bank l.row l.col = true ↔ x.place = l.place := by
  simp only [AccLine.isAt, Bool.and_eq_true, beq_iff_eq, AccLine.place, Prod.mk.injEq, and_assoc]

/-- No two lines lie at the same place. -/
abbrev Apart (ls : List AccLine) : Prop := ls.Pairwise fun x y => x.place ≠ y.place

theorem Apart.eq_of_place (h : Apart ls) {x y : AccLine} (hx : x ∈ ls) (hy : y ∈ ls) (hxy : x.place = y.place) : x = y := by
  induction ls with
  | nil => cases hx
  | cons a ls ih =>
    obtain ⟨ha, hls⟩ := List.pairwise_cons.1 h
    rcases List.mem_cons.1 hx with hxa | hx
    · rcases List.mem_cons.1 hy with hya | hy
      · rw [hxa, hya]
      · exact absurd hxy (hxa ▸ ha y hy)
    · rcases List.mem_cons.1 hy with hya | hy
      · exact absurd hxy.symm (hya ▸ ha x hx)
      · exact ih hls hx hy

/-- The change of the one line at a place. -/
def changeAt (l : AccLine) (f : AccLine → AccLine) (x : AccLine) : AccLine := if x.isAt l.bank l.row l.col then f x else x

theorem updFirst_of_apart (h : Apart ls) (f : AccLine → AccLine) :
    updFirst (fun x : AccLine => x.isAt l.bank l.row l.col) f ls = ls.map (changeAt l f) := by
  induction ls with
  | nil => rfl
  | cons a ls ih =>
    obtain ⟨ha, hls⟩ := List.pairwise_cons.1 h
    unfold updFirst
    by_cases hat : a.isAt l.bank l.row l.col = true
    · have hsame : ls.map (changeAt l f) = ls.map id := List.map_congr_left fun x hx =>
        if_neg fun hxat => ha x hx ((AccLine.isAt_place.1 hat).trans (AccLine.isAt_place.1 hxat).symm)
      rw [if_pos hat, List.map_cons, hsame, List.map_id, changeAt, if_pos hat]
    · rw [if_neg hat, List.map_cons, ih hls, changeAt, if_neg hat]

/-- `l` has been rewritten in `ls`, to what `Q` says of it; the other lines stay. -/
def Rewritten (Q : AccLine → AccLine → Prop) (l : AccLine) (ls ms : List AccLine) : Prop :=
  (Q l l ∧ ms = ls) ∨ ∃ f : AccLine → AccLine, (∀ x, (f x).place = x.place) ∧ Q l (f l) ∧
    ms = updFirst (fun x : AccLine => x.isAt l.bank l.row l.col) f ls

/-- The lines of a list have been rewritten one after the other. -/
inductive Rewrites (Q : AccLine → AccLine → Prop) : List AccLine → List AccLine → List AccLine → Prop where
  | none (ls : List AccLine) : Rewrites Q [] ls ls
  | next {l : AccLine} {todo ls ms ns : List AccLine} (h : Rewritten Q l ls ms) (hs : Rewrites Q todo ms ns) : Rewrites Q (l :: todo) ls ns

/-- Where no two lines share a place, rewriting `l` changes `l` alone. -/
theorem Rewritten.map (h : Rewritten Q l ls ms) (hap : Apart ls) (hl : l ∈ ls) :
    ∃ g : AccLine → AccLine, (∀ x, (g x).place = x.place) ∧ ms = ls.map g ∧ Q l (g l) ∧ ∀ x ∈ ls, x ≠ l → g x = x := by
  rcases h with ⟨hq, rfl⟩ | ⟨f, hf, hq, rfl⟩
  · exact ⟨id, fun _ => rfl, (List.map_id _).symm, hq, fun _ _ _ => rfl⟩
  · refine ⟨changeAt l f, fun x => ?_, updFirst_of_apart hap f, ?_, fun x hx hne => if_neg fun hat => hne (hap.eq_of_place hx hl (AccLine.isAt_place.1 hat))⟩
    · unfold changeAt
      split
      · exact hf x
      · rfl
    · rw [changeAt, if_pos (AccLine.isAt_place.2 rfl)]
      exact hq

/-- Where no two lines share a place, each line of the list is rewritten once, and the others stay. -/
theorem Rewrites.map (h : Rewrites Q todo ls ns) (hap : Apart ls) (hnodup : todo.Nodup) (hsub : ∀ l ∈ todo, l ∈ ls) :
    ∃ g : AccLine → AccLine, ns = ls.map g ∧ ∀ x ∈ ls, (x ∈ todo → Q x (g x)) ∧ (x ∉ todo → g x = x) := by
  induction h with
  | none ls => exact ⟨id, (List.map_id _).symm, fun x _ => ⟨fun hx => absurd hx List.not_mem_nil, fun _ => rfl⟩⟩
  | @next l todo ls ms ns h hs ih =>
    obtain ⟨hnot, htodo⟩ := List.nodup_cons.1 hnodup
    have hl := hsub l List.mem_cons_self
    obtain ⟨g, hplace, rfl, hq, hothers⟩ := h.map hap hl
    have hsub' (x : AccLine) (hx : x ∈ todo) : x ∈ ls ∧ x ≠ l :=
      ⟨hsub x (List.mem_cons_of_mem _ hx), fun he => hnot (he ▸ hx)⟩
    have hap' : Apart (ls.map g) := List.pairwise_map.2 (hap.imp fun hne => by rwa [hplace, hplace])
    obtain ⟨g', hns, hg'⟩ := ih hap' htodo fun x hx =>
      List.mem_map.2 ⟨x, (hsub' x hx).1, hothers x (hsub' x hx).1 (hsub' x hx).2⟩
    have hgl : g l ∉ todo := fun hgl => (hsub' _ hgl).2 (hap.eq_of_place (hsub' _ hgl).1 hl (hplace l))
    refine ⟨fun x => g' (g x), by rw [hns, List.map_map]; rfl, fun x hx => ?_⟩
    have hgx := hg' (g x) (List.mem_map_of_mem hx)
    by_cases hxl : x = l
    · rw [hxl] at hgx ⊢
      refine ⟨fun _ => ?_, fun hnl => absurd List.mem_cons_self hnl⟩
      change Q l (g' (g l))
      rw [hgx.2 hgl]
      exact hq
    · rw [hothers x hx hxl] at hgx
      change (x ∈ l :: todo → Q x (g' (g x))) ∧ (x ∉ l :: todo → g' (g x) = x)
      rw [hothers x hx hxl]
      exact ⟨fun hmem => hgx.1 ((List.mem_cons.1 hmem).resolve_left hxl), fun hmem => hgx.2 fun hm => hmem (List.mem_cons_of_mem _ hm)⟩

/-- What the drain makes of a line that was written back to stay. -/
def AccLine.CleanOrWaits (x y : AccLine) : Prop := (x.dirty = false ∧ y = x) ∨ y = x.clean ∨ ∃ c, x.dirty = true ∧ y = x.keptWaiting c

/-- Where no line waited before, those that wait now are to stay. -/
theorem staying_of_rewrites {ls ms : List AccLine} (hap : Apart ls) (hfree : ∀ l ∈ ls, l.out = none)
    (hback : Rewrites AccLine.CleanOrWaits ls ls ms) : ∀ y ∈ ms, y.out.isSome = true → y.stay = true := by
  have hnodup : ls.Nodup := hap.imp fun hne he => hne (congrArg _ he)
  obtain ⟨g, rfl, hg⟩ := hback.map hap hnodup fun _ h => h
  intro y hy hout
  obtain ⟨x, hx, rfl⟩ := List.mem_map.1 hy
  rcases (hg x hx).1 hx with ⟨-, h⟩ | h | ⟨c, -, h⟩
  · rw [h, hfree x hx] at hout
    cases hout
  · rw [h] at hout
    cases hout
  · rw [h]
    rfl

/-- Written back to stay and then drained, a line that did not wait before differs from memory no more, and nothing else of it has
changed. -/
theorem map_drained {ls ms ns : List AccLine} (hap : Apart ls) (hfree : ∀ l ∈ ls, l.out = none ∧ l.stay = false)
    (hback : Rewrites AccLine.CleanOrWaits ls ls ms)
    (hdrain : (∀ y ∈ ms, y.out.isSome = true → y.stay = true) →
      Rewrites (fun x y => y = x.clean) (ms.filter fun x => x.out.isSome && x.dirty) ms ns) :
    ns = ls.map fun l => { l with base := l.data } := by
  have hnodup {ks : List AccLine} (h : Apart ks) : ks.Nodup := h.imp fun hne he => hne (congrArg _ he)
  have hdrain := hdrain (staying_of_rewrites hap (fun l hl => (hfree l hl).1) hback)
  obtain ⟨g, rfl, hg⟩ := hback.map hap (hnodup hap) fun _ h => h
  have hplace (x : AccLine) (hx : x ∈ ls) : (g x).place = x.place := by
    rcases (hg x hx).1 hx with ⟨-, h⟩ | h | ⟨c, -, h⟩ <;> rw [h] <;> rfl
  have hap' : Apart (ls.map g) := List.pairwise_map.2 (hap.imp_of_mem fun hx hy hne => by rwa [hplace _ hx, hplace _ hy])
  obtain ⟨g', rfl, hg'⟩ := hdrain.map hap' ((hnodup hap').filter _) fun x hx => (List.mem_filter.1 hx).1
  rw [List.map_map]
  refine List.map_congr_left fun x hx => ?_
  obtain ⟨hout, hstay⟩ := hfree x hx
  obtain ⟨hin, hnot⟩ := hg' (g x) (List.mem_map_of_mem hx)
  have hcleaned : x.clean = { x with base := x.data } := by rw [AccLine.clean, ← hout, ← hstay]
  rw [Function.comp_apply]
  rcases (hg x hx).1 hx with ⟨hdirty, h⟩ | h | ⟨c, hdirty, h⟩
  · have hbase : x.base = x.data := by
      have hne : (x.data != x.base) = false := hdirty
      exact (bne_eq_false_iff_eq.1 hne).symm
    rw [hnot fun hm => by simp [h, hdirty] at hm, h]
    exact congrArg (fun w => { x with base := w }) hbase
  · rw [hnot fun hm => by simp [h, AccLine.clean] at hm, h, hcleaned]
  · have hwaits : g x ∈ (ls.map g).filter fun x => x.out.isSome && x.dirty := by
      refine List.mem_filter.2 ⟨List.mem_map_of_mem hx, ?_⟩
      rw [h]
      exact hdirty
    rw [hin hwaits, h, ← hcleaned]
    rfl

end Sys2Proof.Machine
end

section
/-! ### Caches and buffers drained (R399, R667, R899, R935) -/

namespace Sys2Proof.Machine

variable {s t u : State} {p : Nat} {x : Slice}

/-- A loop whose steps touch one island, and what every step keeps of it. -/
theorem State.Island.each {α : Type} {f : State → α → State} {P : Slice → Prop}
    (hf : ∀ t x a, Island p x s t → P x → ∃ z, Island p z s (f t a) ∧ P z) (l : List α) (hx : Island p x s t) (hP : P x) :
    ∃ z, Island p z s (t.each l f) ∧ P z := by
  induction l generalizing t x with
  | nil => exact ⟨x, hx, hP⟩
  | cons a l ih =>
    obtain ⟨z, hz, hPz⟩ := hf t x a hx hP
    exact ih hz hPz

/-- The lines that `writeBack` goes through are rewritten one by one. -/
theorem State.writeBack_rewrites (pick : AccLine → Bool) (hwf : Tab.wf Slice.reset s.slices = true) (p : Nat) :
    ∃ z, Island p z s (s.writeBack p pick true) ∧
      Rewrites AccLine.CleanOrWaits ((s.slice p).dat.lines.filter pick) (s.slice p).dat.lines z.dat.lines := by
  have hfold (todo : List AccLine) : ∀ (t : State) (x : Slice), Island p x s t →
      ∃ z, Island p z s (t.each todo fun s l => s.writeLine p l s.fab.nextId true) ∧
        Rewrites AccLine.CleanOrWaits todo x.dat.lines z.dat.lines := by
    induction todo with
    | nil => exact fun t x hx => ⟨x, hx, .none _⟩
    | cons l todo ih =>
      intro t x hx
      obtain ⟨y, hy, hwritten⟩ := State.writeLine_stays hx.wf p l t.fab.nextId
      obtain ⟨z, hz, hrest⟩ := ih _ y (hx.trans hy)
      rw [hx.here] at hwritten
      refine ⟨z, hz, .next ?_ hrest⟩
      rcases hwritten with ⟨hclean, heq⟩ | ⟨f, hdirty, hf | ⟨c, hf⟩, heq⟩
      · exact .inl ⟨.inl ⟨hclean, rfl⟩, heq⟩
      · exact .inr ⟨f, fun w => by rw [hf]; rfl, .inr (.inl (by rw [hf])), heq⟩
      · exact .inr ⟨f, fun w => by rw [hf]; rfl, .inr (.inr ⟨c, hdirty, by rw [hf]⟩), heq⟩
  exact hfold _ s _ (.refl hwf p)

end Sys2Proof.Machine
end

section
/-! ### Caches and buffers drained to the arrays (R667, R899, R935) -/

namespace Sys2Proof.Machine

variable {s t u : State} {p : Nat} {x : Slice}

/-- Between `s` and `t` islands have drained: the fabric has charged for it, and nothing else of it has moved. -/
structure State.DrainActs (s t : State) : Prop where
  fab : t.fab = { s.fab with meters := t.fab.meters, buckets := t.fab.buckets }
  frame : Frame [.slices, .mem, .fab, .ctl, .evt, .mbx] s t

namespace State.DrainActs

theorem refl (s : State) : DrainActs s s := ⟨rfl, .refl ..⟩

theorem trans (h1 : DrainActs s t) (h2 : DrainActs t u) : DrainActs s u := ⟨by rw [h2.fab, h1.fab], h1.frame.trans h2.frame⟩

theorem of_frame {ps : List Part} (h : Frame ps s t) (hps : ∀ q ∈ ps, q ∈ [Part.slices, .mem, .ctl, .evt, .mbx] := by decide) : DrainActs s t := by
  have hfab : t.fab = s.fab := h.2 .fab fun hq => absurd (hps _ hq) (by decide)
  refine ⟨by rw [hfab], h.mono fun q hq => ?_⟩
  exact (by decide : ∀ q ∈ [Part.slices, .mem, .ctl, .evt, .mbx], q ∈ [Part.slices, .mem, .fab, .ctl, .evt, .mbx]) q (hps q hq)

theorem each {α : Type} {f : State → α → State} (h : ∀ s a, DrainActs s (f s a)) (l : List α) (s : State) : DrainActs s (s.each l f) :=
  State.each_induct (P := DrainActs s) (fun t a ht => ht.trans (h t a)) l (refl s)

theorem setCode (s : State) (k : Nat) (c : Code) : DrainActs s (s.setCode k c) :=
  of_frame (ps := [.mem]) (.of rfl fun q => by cases q <;> first | exact .inl (by decide) | exact .inr rfl)

theorem stat (s : State) (page slot n : Nat) : DrainActs s (s.stat page slot n) := of_frame (State.count_frame ..)

theorem modDat (s : State) (p : Nat) (f : ChData → ChData) : DrainActs s (s.modDat p f) := of_frame (State.modSlice_frame ..)

theorem lateCharge (s : State) (k svc n : Nat) : DrainActs s (s.lateCharge k svc n) := by
  refine ⟨?_, (s.lateCharge_frame k svc n).mono (by decide)⟩
  unfold State.lateCharge
  dsimp only
  rw [State.statMeter_fab]
  rfl

theorem corrEnter (s : State) (p : Nat) (w : WBuf) : DrainActs s (s.corrEnter p w) :=
  ((modDat ..).trans (stat ..)).trans (lateCharge ..)

theorem drainWrites (s : State) (p : Nat) : DrainActs s (s.drainWrites p) := by
  unfold State.drainWrites
  extract_lets d s0
  have h0 : DrainActs s s0 := each (fun t _ => (stat t p 26 1).trans (lateCharge ..)) _ s
  exact (h0.trans (each (fun t (w : WBuf) => setCode t (keyOf p w.bank w.row w.col) w.code) (d.corr ++ d.wb ++ d.fow) s0)).trans (modDat ..)

theorem drainLines (s : State) (p : Nat) : DrainActs s (s.drainLines p) :=
  each (fun t (l : AccLine) => ((setCode t (keyOf p l.bank l.row l.col) (rsEncode l.data)).trans (stat ..)).trans (modDat ..)) _ s

theorem drainAll (s : State) (p : Nat) : DrainActs s (s.drainAll p) := by
  unfold State.drainAll
  extract_lets l
  exact (((modDat ..).trans (each (fun t w => corrEnter t p w) l _)).trans (drainWrites ..)).trans (drainLines ..)

end State.DrainActs

theorem ChData.foldl_dropNarrow_lines (l : List WBuf) (d : ChData) :
    (l.foldl (fun d w => d.dropNarrow w.bank w.row w.col) d).lines = d.lines := by
  induction l generalizing d with
  | nil => rfl
  | cons w l ih => exact ih _

/-- Nothing waits in the island for the arrays but lines of its cache. -/
structure ChData.Emptied (d : ChData) : Prop where
  wb : d.wb = []
  fow : d.fow = []
  corr : d.corr = []

theorem State.drainWrites_island (hx : Island p x s t) :
    ∃ z, Island p z s (t.drainWrites p) ∧ z.dat.Emptied ∧ z.dat.lines = x.dat.lines := by
  unfold State.drainWrites
  extract_lets d s0
  have h0 : s0.slices = t.slices :=
    (State.each_frame (ps := [.fab, .ctl, .evt, .mbx]) (l := d.corr) (f := fun s _ => (s.stat p 26 1).lateCharge 40 5 64) t fun u _ =>
      ((State.count_frame ..).mono (by decide)).trans (State.lateCharge_frame ..)).2 .slices (by decide)
  have hcode (u : State) (l : List WBuf) : (u.each l fun s w => s.setCode (keyOf p w.bank w.row w.col) w.code).slices = u.slices :=
    State.each_induct (P := fun v => v.slices = u.slices) (f := fun s (w : WBuf) => s.setCode (keyOf p w.bank w.row w.col) w.code)
      (fun v w hv => hv) l rfl
  have hz := (hx.congr ((hcode s0 (d.corr ++ d.wb ++ d.fow)).trans h0)).modDat fun d' =>
    { (d'.fow.foldl (fun d w => d.dropNarrow w.bank w.row w.col) d') with corr := [], wb := [], fow := [] }
  refine ⟨_, hz, ⟨rfl, rfl, rfl⟩, ?_⟩
  exact ChData.foldl_dropNarrow_lines ..

/-- The lines that wait to stay are written, and no buffer fills. -/
theorem State.drainLines_island (hx : Island p x s t) (hempty : x.dat.Emptied) :
    ∃ z, Island p z s (t.drainLines p) ∧ z.dat.Emptied ∧
      ((∀ l ∈ x.dat.lines, l.out.isSome = true → l.stay = true) →
        Rewrites (fun x y => y = x.clean) (x.dat.lines.filter fun l => l.out.isSome && l.dirty) x.dat.lines z.dat.lines) := by
  have hfold (todo : List AccLine) : ∀ (t : State) (x : Slice), Island p x s t → x.dat.Emptied →
      ∃ z, Island p z s (t.each todo fun s l => ((s.setCode (keyOf p l.bank l.row l.col) (rsEncode l.data)).stat p 12 1).modDat p fun d =>
          (if l.stay then d.modLine l AccLine.clean else d.dropLine l.bank l.row l.col).dropNarrow l.bank l.row l.col) ∧ z.dat.Emptied ∧
        ((∀ l ∈ todo, l.stay = true) → Rewrites (fun x y => y = x.clean) todo x.dat.lines z.dat.lines) := by
    induction todo with
    | nil => exact fun t x hx he => ⟨x, hx, he, fun _ => .none _⟩
    | cons l todo ih =>
      intro t x hx he
      have hcount : ((t.setCode (keyOf p l.bank l.row l.col) (rsEncode l.data)).stat p 12 1).slices = t.slices := State.stat_slices ..
      have hy := (hx.congr hcount).modDat fun d =>
        (if l.stay then d.modLine l AccLine.clean else d.dropLine l.bank l.row l.col).dropNarrow l.bank l.row l.col
      obtain ⟨z, hz, hez, hrest⟩ := ih _ _ hy ⟨by split <;> exact he.wb, by split <;> exact he.fow, by split <;> exact he.corr⟩
      refine ⟨z, hz, hez, fun hstay => .next (.inr ⟨AccLine.clean, fun _ => rfl, rfl, ?_⟩) (hrest fun m hm => hstay m (List.mem_cons_of_mem _ hm))⟩
      simp only [hstay l List.mem_cons_self, if_true]
      rfl
  obtain ⟨z, hz, hez, hrest⟩ := hfold (x.dat.lines.filter fun l => l.out.isSome && l.dirty) t x hx hempty
  unfold State.drainLines
  rw [hx.here]
  refine ⟨z, hz, hez, fun hstay => hrest fun l hl => ?_⟩
  obtain ⟨hmem, hout⟩ := List.mem_filter.1 hl
  exact hstay l hmem (Bool.and_eq_true_iff.1 hout).1

theorem State.drainAll_island (hwf : Tab.wf Slice.reset s.slices = true) (p : Nat) :
    ∃ z, Island p z s (s.drainAll p) ∧ z.dat.Emptied ∧
      ((∀ l ∈ (s.slice p).dat.lines, l.out.isSome = true → l.stay = true) →
        Rewrites (fun x y => y = x.clean) ((s.slice p).dat.lines.filter fun l => l.out.isSome && l.dirty) (s.slice p).dat.lines z.dat.lines) := by
  have hcorr (t : State) (x : Slice) (w : WBuf) (hx : Island p x s t) (hlines : x.dat.lines = (s.slice p).dat.lines) :
      ∃ z, Island p z s (t.corrEnter p w) ∧ z.dat.lines = (s.slice p).dat.lines :=
    ⟨_, ((hx.modDat fun d => d.wbAdd w).framed (State.count_frame ..)).framed (State.lateCharge_frame ..),
      (ChData.wbAdd_lines ..).trans hlines⟩
  unfold State.drainAll
  extract_lets l
  obtain ⟨x, hx, hlines⟩ := State.Island.each hcorr l ((State.Island.refl hwf p).modDat fun d => { d with corr := [] }) rfl
  obtain ⟨y, hy, hempty, hsame⟩ := State.drainWrites_island hx
  obtain ⟨z, hz, hez, hrest⟩ := State.drainLines_island hy hempty
  rw [hsame, hlines] at hrest
  exact ⟨z, hz, hez, hrest⟩

end Sys2Proof.Machine
end

section
/-! ### Slices go to self-refresh (R511, R713, R899) -/

namespace Sys2Proof.Machine

variable {s t u : State} {p : Nat}

theorem State.sleepSlice_frame (s : State) (p : Nat) : Frame [.slices] s (s.sleepSlice p) := by
  have hclose (t : State) (i n : Nat) : Frame [.slices] t (t.close p i n) := (State.modSlice_frame ..).trans (State.sendRow_frame ..)
  have hall : Frame [.slices] s (s.closeAll p) := State.each_frame _ fun t i => .ite (hclose ..) (.refl ..)
  unfold State.sleepSlice State.sre
  exact (hall.trans (State.modSlice_frame ..)).trans ((State.modSlice_frame ..).trans (State.modSlice_frame ..))

/-- SRE leaves what `g` reads, which no ring command and no precharge changes. -/
theorem State.SliceKeeps.sre {β : Type} {g : Slice → β} (hbt : ∀ x b, g { x with bt := b } = g x)
    (hsend : ∀ (x : Slice) (n : Nat) (w : Bool) (h : BitVec 50), g { x with link := x.link.send n w h } = g x) (s : State) (p : Nat) : SliceKeeps g s (s.sre p) := by
  have hbank (t : State) (f : BankSet → BankSet) : SliceKeeps g t (t.modBt p f) := modSlice t p fun x => hbt x (f x.bt)
  have hrow (t : State) (op fields : Nat) : SliceKeeps g t (t.sendRow p op fields) := modSlice t p fun x => hsend x ..
  have hclose (t : State) (i n : Nat) : SliceKeeps g t (t.close p i n) := (hbank t _).trans (hrow _ 2 _)
  have hall : SliceKeeps g s (s.closeAll p) := each (fun t i => ite (hclose ..) (refl t)) _ s
  unfold State.sre
  exact hall.trans (modSlice _ p fun x => hsend x ..)

/-- Island `p` is in self-refresh with SB_CKE low, or out of it with SB_CKE high. -/
structure State.Rests (asleep : Bool) (p : Nat) (s : State) : Prop where
  wf : Tab.wf Slice.reset s.slices = true
  selfRef : (s.slice p).rf.selfRef = asleep
  cke : (s.slice p).link.cke = !asleep

variable {b : Bool}

theorem State.Rests.of_keeps (h : Rests b p s) (hk : SliceKeeps (fun x => (x.rf.selfRef, x.link.cke)) s t) : Rests b p t := by
  obtain ⟨hwf, hall⟩ := hk.slices h.wf
  obtain ⟨hself, hcke⟩ := Prod.mk.inj (hall p)
  exact ⟨hwf, hself.trans h.selfRef, hcke.trans h.cke⟩

theorem State.Rests.modSlice (h : Rests b p s) (q : Nat) {f : Slice → Slice}
    (hf : ∀ x, x.rf.selfRef = b → x.link.cke = !b → (f x).rf.selfRef = b ∧ (f x).link.cke = !b) : Rests b p (s.modSlice q f) := by
  by_cases hq : p = q
  · rw [← hq]
    obtain ⟨h1, h2⟩ := hf (s.slice p) h.selfRef h.cke
    exact ⟨State.modSlice_wf h.wf f, by rw [State.slice_modSlice h.wf]; exact h1, by rw [State.slice_modSlice h.wf]; exact h2⟩
  · exact ⟨State.modSlice_wf h.wf f, by rw [State.slice_modSlice_ne _ _ hq]; exact h.selfRef, by rw [State.slice_modSlice_ne _ _ hq]; exact h.cke⟩

/-- A slice that goes to self-refresh is in it, and one that is stays. -/
theorem State.sleepSlice_asleep (hwf : Tab.wf Slice.reset s.slices = true) (p : Nat) : Rests true p (s.sleepSlice p) := by
  have hsre : SliceKeeps (fun _ => ()) s (s.sre p) := .sre (fun _ _ => rfl) (fun _ _ _ _ => rfl) s p
  unfold State.sleepSlice
  obtain ⟨hwf1, -⟩ := hsre.slices hwf
  generalize s.sre p = u at *
  have hwf2 := State.modSlice_wf (p := p) hwf1 fun x => { x with rf := { x.rf with selfRef := true } }
  have hread := State.slice_modSlice hwf2 p fun x => { x with link := { x.link with cke := false } }
  refine ⟨State.modSlice_wf hwf2 _, ?_, ?_⟩
  · change (((u.modSlice p _).modSlice p _).slice p).rf.selfRef = true
    rw [hread, State.slice_modSlice hwf1]
  · change (((u.modSlice p _).modSlice p _).slice p).link.cke = false
    rw [hread]

theorem State.Rests.sleepSlice (h : Rests true p s) (q : Nat) : Rests true p (s.sleepSlice q) := by
  have hsre : Rests true p (s.sre q) := h.of_keeps (.sre (fun _ _ => rfl) (fun _ _ _ _ => rfl) s q)
  unfold State.sleepSlice
  exact (hsre.modSlice q (f := fun x => { x with rf := { x.rf with selfRef := true } }) fun x _ hc => ⟨rfl, hc⟩).modSlice q
    (f := fun x => { x with link := { x.link with cke := false } }) fun x hs _ => ⟨hs, rfl⟩

/-- All of a list of slices go to self-refresh. -/
theorem State.each_sleepSlice (hwf : Tab.wf Slice.reset s.slices = true) {ps : List Nat} (hp : p ∈ ps) :
    Rests true p (s.each ps State.sleepSlice) := by
  refine State.each_reaches (P := fun t => Tab.wf Slice.reset t.slices = true) (Q := Rests true p) (fun t q h => ?_) (fun t q h => h.sleepSlice q)
    (fun t h => State.sleepSlice_asleep h p) hp hwf
  exact (State.sleepSlice_asleep h q).wf

end Sys2Proof.Machine
end

section
/-! ### ALIGN_ARMED (R713) -/

namespace Sys2Proof.Machine

variable {s t u : State} {p : Nat}

/-- The state in which caches are written back, buffers drained and the bound slices in self-refresh, before the islands' reset. -/
def State.armDrained (s : State) : State :=
  ((s.writeBackAll (fun _ _ => true) false).dropScales.each (List.range 144) State.drainAll).each s.boundSlices State.sleepSlice

/-- The islands in reset. -/
def State.armReset (s : State) : State :=
  State.emptyIcqs { s with slices := Tab.mapVals Slice.reset (fun _ x => x.aligned) s.slices, fab := s.fab.aligned }

theorem exec_alignArmed : exec .alignArmed s = .next (
    if s.det.align ≠ 1 ∨ s.fab.hold.contains 3 = false ∨ s.trackerEmpty = false ∨ s.repairRuns = true ∨ s.anyHeld = true then s
    else s.armDrained.armReset.modDet fun d => { d with align := 2, armed := true, alignAt := s.sys.ltc, lows := 0 }) := by
  change execAlignArmed s = _
  refine congrArg _ (if_congr ?_ rfl rfl)
  simp only [Bool.or_eq_true, decide_eq_true_eq, Bool.not_eq_true', or_assoc]

theorem State.dropScales_fab (s : State) : s.dropScales.fab = { s.fab with trk := s.dropScales.fab.trk } := rfl

theorem State.drainIslands_acts (s : State) (ps : List Nat) : State.DrainActs s (s.each ps State.drainAll) := .each .drainAll ps s

theorem State.drainIslands_kept (h : s.Kept cmds) (ps : List Nat) : (s.each ps State.drainAll).Kept cmds :=
  State.each_kept h fun q => State.Keeps.mk fun _ ht => State.drainAll_kept ht q

theorem State.sleepSlices (hwf : Tab.wf Slice.reset s.slices = true) (ps : List Nat) :
    (∀ p ∈ ps, Rests true p (s.each ps State.sleepSlice)) ∧ Tab.wf Slice.reset (s.each ps State.sleepSlice).slices = true ∧
      Frame [.slices] s (s.each ps State.sleepSlice) :=
  ⟨fun _ hp => State.each_sleepSlice hwf hp,
    State.each_induct (P := fun t => Tab.wf Slice.reset t.slices = true) (fun _ q h => (State.sleepSlice_asleep h q).wf) _ hwf,
    State.each_frame _ State.sleepSlice_frame⟩

/-- The scale lines dropped and the drain charged, the fabric differs in its tracker, its meters and its buckets. -/
theorem Fab.dropped_charged {f g h : Fab} {l : List Entry} (hg : g = { f with trk := l }) (hh : h = { g with meters := h.meters, buckets := h.buckets }) :
    h = { f with trk := h.trk, meters := h.meters, buckets := h.buckets } := by
  cases hg
  cases h
  cases hh
  rfl

theorem State.armDrained_spec (hcanon : s.Canon) :
    (∀ p ∈ s.boundSlices, Rests true p s.armDrained) ∧ Tab.wf Slice.reset s.armDrained.slices = true ∧
    s.armDrained.fab = { s.fab with
      trk := s.armDrained.fab.trk, meters := s.armDrained.fab.meters, buckets := s.armDrained.fab.buckets } ∧
    Frame [.slices, .ports, .fab, .mem, .ctl, .evt, .mbx] s s.armDrained := by
  have hback := (s.writeBackAll_counted (fun _ _ => true) false).2
  have hkept := State.writeBackAll_kept (cmds := s.pending) ⟨hcanon, rfl⟩ (fun _ _ => true) false
  unfold State.armDrained
  generalize s.writeBackAll (fun _ _ => true) false = a at *
  have hscales := a.dropScales_frame
  have hsfab := a.dropScales_fab
  have hkept := State.dropScales_kept hkept
  generalize a.dropScales = b at *
  have hdrain := b.drainIslands_acts (List.range 144)
  have hkept := State.drainIslands_kept hkept (List.range 144)
  generalize b.each (List.range 144) State.drainAll = c at *
  obtain ⟨⟨-, -, hwf, -⟩, -⟩ := hkept
  obtain ⟨hasleep, hwf', hsleep⟩ := State.sleepSlices hwf s.boundSlices
  generalize c.each s.boundSlices State.sleepSlice = d at *
  have hdfab : d.fab = c.fab := hsleep.2 .fab (by decide)
  have hafab : a.fab = s.fab := hback.2 .fab (by decide)
  refine ⟨hasleep, hwf', Fab.dropped_charged (hsfab.trans (by rw [hafab])) (hdfab ▸ hdrain.fab), (hback.mono (by decide)).trans ((hscales.mono (by decide)).trans ((hdrain.frame.mono (by decide)).trans (hsleep.mono (by decide))))⟩

theorem State.armReset_spec (hwf : Tab.wf Slice.reset s.slices = true) :
    (∀ p, s.armReset.slice p = (s.slice p).aligned) ∧ s.armReset.fab = s.fab.aligned ∧ Frame [.slices, .fab, .ctl] s s.armReset := by
  refine ⟨fun p => Tab.get_mapVals hwf rfl, rfl, .of rfl fun q => ?_⟩
  cases q <;> first | exact .inl (by decide) | exact .inr rfl

/-- An island in the alignment's reset: empty, in self-refresh where it was. -/
theorem Slice.aligned_spec (x : Slice) : x.aligned.dat.wb = [] ∧ x.aligned.dat.fow = [] ∧ x.aligned.dat.corr = [] ∧ x.aligned.dat.lines = [] ∧
    x.aligned.link.cke = false ∧ (x.rf.selfRef = true → x.aligned.rf.selfRef = true) := by
  refine ⟨rfl, rfl, rfl, rfl, ?_, fun h => ?_⟩
  · change (x.link.warm _ _).cke = false
    unfold Link.warm
    dsimp only
    split <;> rfl
  · change (x.rf.selfRef || x.rep.inServ) = true
    rw [h, Bool.true_or]

theorem exec_alignArmed_arms (hcanon : s.Canon) (halign : s.det.align = 1) (hhold : s.fab.hold.contains 3 = true)
    (hempty : s.trackerEmpty = true) (hrep : s.repairRuns = false) (hheld : s.anyHeld = false) : ∃ t, exec .alignArmed s = .next t ∧
      t.det = { s.det with align := 2, armed := true, alignAt := s.sys.ltc, lows := 0 } ∧
      (∀ p ∈ s.boundSlices, (t.slice p).rf.selfRef = true ∧ (t.slice p).link.cke = false) ∧
      (∀ p, p < 144 → (t.slice p).dat.wb = [] ∧ (t.slice p).dat.fow = [] ∧ (t.slice p).dat.corr = []) ∧
      (∀ p, p < 144 → (t.slice p).dat.lines = []) ∧ t.fab.hold = s.fab.hold ∧ t.fab.masked = s.fab.masked ∧
      t.fab.down = s.fab.down ∧ t.fab.lines = s.fab.lines ∧ t.fab.ghost = s.fab.ghost ∧ Frame [.det, .slices, .fab, .ports, .mem, .ctl, .evt, .mbx] s t := by
  obtain ⟨hasleep, hwf, hfab, hframe⟩ := State.armDrained_spec hcanon
  refine ⟨_, exec_alignArmed.trans (congrArg _ (if_neg (by simp only [halign, hhold, hempty, hrep, hheld]; decide))), ?_⟩
  generalize s.armDrained = u at *
  obtain ⟨hslice, hvfab, hvframe⟩ := State.armReset_spec hwf
  generalize u.armReset = v at *
  have hdet : v.det = s.det := (hvframe.2 .det (by decide)).trans (hframe.2 .det (by decide))
  have hlast := v.modDet_frame fun d => { d with align := 2, armed := true, alignAt := s.sys.ltc, lows := 0 }
  have hread (p : Nat) : (v.modDet fun d => { d with align := 2, armed := true, alignAt := s.sys.ltc, lows := 0 }).slice p =
      (u.slice p).aligned := hslice p
  refine ⟨?_, fun p hp => ?_, fun p _ => ?_, fun p _ => ?_, ?_, ?_, ?_, ?_, ?_,
    (hframe.mono (by decide)).trans ((hvframe.mono (by decide)).trans (hlast.mono (by decide)))⟩
  · change { v.det with align := 2, armed := true, alignAt := s.sys.ltc, lows := 0 } = _
    rw [hdet]
  · rw [hread]
    obtain ⟨-, -, -, -, hcke, hself⟩ := (u.slice p).aligned_spec
    exact ⟨hself (hasleep p hp).selfRef, hcke⟩
  · rw [hread]
    obtain ⟨hwb, hfow, hcorr, -⟩ := (u.slice p).aligned_spec
    exact ⟨hwb, hfow, hcorr⟩
  · rw [hread]
    obtain ⟨-, -, -, hlines, -⟩ := (u.slice p).aligned_spec
    exact hlines
  all_goals
    refine (congrArg _ (hvfab.trans (congrArg Fab.aligned hfab))).trans rfl

end Sys2Proof.Machine
end

section
/-! ### FROST_ENTER and its time-out (R842, R843, R899) -/

namespace Sys2Proof.Machine

variable {s t u : State}

/-- A word that holds admission, by the state it leads to: read at once, or on its way. -/
theorem State.Tells.holdAdm (s : State) (c : Nat) : s.Tells (s.holdAdm c) 7 0 (.admHold c)
    ((s.holdAdm c).fab = { s.fab with hold := insertNat c s.fab.hold }) ((s.holdAdm c).fab = s.fab) := by
  unfold State.Tells
  split
  · next h =>
    rw [State.holdAdm_of_seen h]
    exact ⟨rfl, rfl⟩
  · next h =>
    rw [State.holdAdm_of_unseen h]
    exact ⟨rfl, rfl⟩

/-- One that ends the hold. -/
theorem State.Tells.freeAdm (s : State) (c : Nat) : s.Tells (s.freeAdm c) 7 0 (.admFree c)
    ((s.freeAdm c).fab = { s.fab with hold := s.fab.hold.filter fun x => x != c }) ((s.freeAdm c).fab = s.fab) := by
  unfold State.Tells State.freeAdm
  split
  · next h =>
    rw [State.tell_of_seen h]
    exact ⟨rfl, rfl⟩
  · next h =>
    rw [State.tell_of_unseen h]
    exact ⟨rfl, rfl⟩

/-- What is told stays told where neither the words nor the fabric change. -/
theorem State.Tells.of_same {q i : Nat} {w : CtlWord} {a b a' b' : Prop} (h : s.Tells t q i w a b) (hw : u.ctl.words = t.ctl.words)
    (ha : a → a') (hb : b → b') : s.Tells u q i w a' b' := by
  unfold State.Tells at *
  rw [hw]
  split
  · next hs =>
    rw [if_pos hs] at h
    exact ⟨h.1, ha h.2⟩
  · next hs =>
    rw [if_neg hs] at h
    exact ⟨h.1, hb h.2⟩

/-- FROST_ENTER, with admission held and calibration at rest. -/
def State.frostEntered (s : State) : State :=
  ((s.takeDoorbell.holdAdm 2).calYields.modSys fun y => { y with frost := true, entering := true, frostAt := s.sys.ltc, wakeSeen := false }).setRun
    ⟨0x70, 0, 0, [], []⟩

theorem exec_frostEnter (hr : s.Rings 0x70 false) : exec .frostEnter s = .next (
    s.takeDoorbell.checked [] [(s.frostBad, eState), (s.modechg, eBusy)] fun u =>
      ((u.holdAdm 2).calYields.modSys fun y => { y with frost := true, entering := true, frostAt := u.sys.ltc, wakeSeen := false }).setRun
        ⟨0x70, 0, 0, [], []⟩) := by
  rw [exec_of_rings hr rfl]
  rfl

theorem exec_frostEnter_enters (hcanon : s.Canon) (hr : s.Rings 0x70 false) (ha : s.takeDoorbell.argsBad [] = false)
    (hbad : s.frostBad = false) (hchg : s.modechg = false) : ∃ t, exec .frostEnter s = .next t ∧
      t.sys = { s.sys with frost := true, entering := true, frostAt := s.sys.ltc, wakeSeen := false } ∧
      s.Tells t 7 0 (.admHold 2) (t.fab = { s.fab with hold := insertNat 2 s.fab.hold }) (t.fab = s.fab) ∧
      (∀ p, p < 144 → (t.slice p).link.calAct = false) ∧
      t.mbx = { s.busyWith (some ⟨0x70, 0, 0, [], []⟩) with irq := t.mbx.irq } ∧
      Frame [.sys, .fab, .slices, .ctl, .evt, .mbx] s t := by
  obtain ⟨-, -, hwf, -⟩ := hcanon
  have hhold : Frame [.fab, .ctl, .mbx] s (s.takeDoorbell.holdAdm 2) :=
    ((takeDoorbell_frame s).mono (by decide)).trans ((State.holdAdm_frame ..).mono (by decide))
  have hmbx : (s.takeDoorbell.holdAdm 2).mbx = s.takeDoorbell.mbx := (s.takeDoorbell.holdAdm_frame 2).2 .mbx (by decide)
  have htells := State.Tells.holdAdm s.takeDoorbell 2
  refine ⟨s.frostEntered, (exec_frostEnter hr).trans (congrArg _ ?_), ?_⟩
  · rw [checked_of_pass ha (by simp [hbad, hchg])]
    rfl
  unfold State.frostEntered
  generalize s.takeDoorbell.holdAdm 2 = u at *
  have hslices : u.slices = s.slices := hhold.2 .slices (by decide)
  obtain ⟨-, hyield⟩ := State.slice_calYields (s := u) (by rw [hslices]; exact hwf)
  have hready := State.Readies.calYields u
  generalize u.calYields = v at *
  have hsys : v.sys = s.sys := (hready.prepares.frame.2 .sys (by decide)).trans (hhold.2 .sys (by decide))
  have hfab : v.fab = u.fab := hready.prepares.frame.2 .fab (by decide)
  refine ⟨?_, htells.of_same ?_ (hfab.trans ·) (hfab.trans ·), fun p hp => ?_, ?_, ?_⟩
  · change { v.sys with frost := true, entering := true, frostAt := s.sys.ltc, wakeSeen := false } = _
    rw [hsys]
  · change v.ctl.words = u.ctl.words
    rw [hready.ctl]
  · change (v.slice p).link.calAct = false
    rw [hyield p hp]
  · change { v.mbx with run := some ⟨0x70, 0, 0, [], []⟩ } = { s.busyWith (some ⟨0x70, 0, 0, [], []⟩) with irq := v.mbx.irq }
    rw [hready.prepares.mbx, hmbx]
    rfl
  · exact (hhold.mono (by decide)).trans ((hready.prepares.frame.mono (by decide)).trans
      (((State.modSys_frame ..).mono (by decide)).trans ((setRun_frame ..).mono (by decide))))

theorem exec_frostEnterTimeout : exec .frostEnterTimeout s = .next (
    if s.sys.entering = false ∨ (s.trackerEmpty = true ∧ s.fab.hold.contains 2 = true) ∨ s.sys.ltc < s.sys.frostAt + 4000000 then s
    else ((s.freeAdm 2).modSys fun y => { y with entering := false, frost := false, wakeSeen := false }).finish eTimeout []) := by
  change execFrostEnterTimeout s = _
  refine congrArg _ (if_congr ?_ rfl rfl)
  simp only [Bool.or_eq_true, Bool.not_eq_true', decide_eq_true_eq, Bool.and_eq_true, or_assoc]
  rfl

theorem exec_frostEnterTimeout_ends (hin : s.sys.entering = true) (hwait : s.trackerEmpty = false ∨ s.fab.hold.contains 2 = false)
    (hdue : s.sys.frostAt + 4000000 ≤ s.sys.ltc) : ∃ t, exec .frostEnterTimeout s = .next t ∧
      s.Tells t 7 0 (.admFree 2) (t.fab = { s.fab with hold := s.fab.hold.filter fun c => c != 2 }) (t.fab = s.fab) ∧
      t.ctl = { (s.icqPass 7 0).ctl with words := t.ctl.words } ∧
      t.sys = { s.sys with entering := false, frost := false, wakeSeen := false } ∧ t.mbx = s.ended eTimeout [] ∧
      Frame [.fab, .ctl, .sys, .mbx] s t := by
  have htells := State.Tells.freeAdm s 2
  have hctl := s.tell_ctl 7 0 (.admFree 2)
  have hframe := s.freeAdm_frame 2
  have hnot : ¬ (s.sys.entering = false ∨ (s.trackerEmpty = true ∧ s.fab.hold.contains 2 = true) ∨ s.sys.ltc < s.sys.frostAt + 4000000) := by
    rintro (h | ⟨h1, h2⟩ | h)
    · rw [hin] at h
      cases h
    · rcases hwait with h | h
      · rw [h1] at h
        cases h
      · rw [h2] at h
        cases h
    · omega
  refine ⟨_, exec_frostEnterTimeout.trans (congrArg _ (if_neg hnot)), ?_⟩
  have hsys : (s.freeAdm 2).sys = s.sys := hframe.2 .sys (by decide)
  have hmbx : (s.freeAdm 2).mbx = s.mbx := hframe.2 .mbx (by decide)
  refine ⟨htells.of_same rfl id id, hctl, ?_, ?_, (hframe.mono (by decide)).trans (((State.modSys_frame ..).mono (by decide)).trans
    ((finish_frame ..).mono (by decide)))⟩
  · change { (s.freeAdm 2).sys with entering := false, frost := false, wakeSeen := false } = _
    rw [hsys]
  · rw [finish_fails (by decide)]
    exact congrArg (fun x : Mbx => State.ended { s with mbx := x } eTimeout []) hmbx

end Sys2Proof.Machine
end

section
/-! ### FROST_DRAINED (R844, R899) -/

namespace Sys2Proof.Machine

variable {s t u : State} {p : Nat}

/-- The lines of every island that `pick` names are rewritten one by one. -/
theorem State.writeBackAll_rewrites (pick : Nat → AccLine → Bool) (hwf : Tab.wf Slice.reset s.slices = true) :
    Tab.wf Slice.reset (s.writeBackAll pick true).slices = true ∧ ∀ p, p < 144 →
      Rewrites AccLine.CleanOrWaits ((s.slice p).dat.lines.filter (pick p)) (s.slice p).dat.lines ((s.writeBackAll pick true).slice p).dat.lines := by
  have hstep (t : State) (p : Nat) (_ : True) (hwf : Tab.wf Slice.reset t.slices = true) :
      True ∧ ∃ z, State.Island p z t (if (t.slice p).dat.lines.isEmpty then t else t.writeBack p (pick p) true) ∧
        Rewrites AccLine.CleanOrWaits ((t.slice p).dat.lines.filter (pick p)) (t.slice p).dat.lines z.dat.lines := by
    refine ⟨trivial, ?_⟩
    split
    · next h =>
      refine ⟨_, .refl hwf p, ?_⟩
      rw [List.isEmpty_iff.1 h]
      exact .none _
    · exact State.writeBack_rewrites (pick p) hwf p
  obtain ⟨hwf', hdone, -⟩ := State.slice_each (P := fun _ => True)
    (Q := fun p x y => Rewrites AccLine.CleanOrWaits (x.dat.lines.filter (pick p)) x.dat.lines y.dat.lines)
    (f := fun t p => if (t.slice p).dat.lines.isEmpty then t else t.writeBack p (pick p) true) (ps := List.range 144)
    hstep List.nodup_range trivial hwf
  unfold State.writeBackAll
  exact ⟨hwf', fun p hp => hdone p (List.mem_range.2 hp)⟩

/-- Every island is drained. -/
theorem State.slice_drainIslands (hwf : Tab.wf Slice.reset s.slices = true) :
    Tab.wf Slice.reset (s.each (List.range 144) State.drainAll).slices = true ∧ ∀ p, p < 144 →
      ((s.each (List.range 144) State.drainAll).slice p).dat.Emptied ∧
      ((∀ l ∈ (s.slice p).dat.lines, l.out.isSome = true → l.stay = true) →
        Rewrites (fun x y => y = x.clean) ((s.slice p).dat.lines.filter fun l => l.out.isSome && l.dirty) (s.slice p).dat.lines
          ((s.each (List.range 144) State.drainAll).slice p).dat.lines) := by
  obtain ⟨hwf', hdone, -⟩ := State.slice_each (P := fun _ => True) (f := State.drainAll) (ps := List.range 144)
    (Q := fun p x y => y.dat.Emptied ∧ ((∀ l ∈ x.dat.lines, l.out.isSome = true → l.stay = true) →
      Rewrites (fun x y => y = x.clean) (x.dat.lines.filter fun l => l.out.isSome && l.dirty) x.dat.lines y.dat.lines))
    (fun t p _ hwf => ⟨trivial, State.drainAll_island hwf p⟩) List.nodup_range trivial hwf
  exact ⟨hwf', fun p hp => hdone p (List.mem_range.2 hp)⟩

/-- Slices go to self-refresh, marches are abandoned and the PHYs go off: no cache and no buffer changes. -/
def State.frostSleeps (s : State) (ps : List Nat) : State :=
  ((s.each ps State.sleepSlice).each (List.range 144) State.marchDrop).powerPhys false

theorem State.frostSleeps_dat (s : State) (ps : List Nat) : SliceKeeps Slice.dat s (s.frostSleeps ps) := by
  have hsleep : SliceKeeps Slice.dat s (s.each ps State.sleepSlice) := .each (fun t p => by
    have hsre : SliceKeeps Slice.dat t (t.sre p) := .sre (fun _ _ => rfl) (fun _ _ _ _ => rfl) t p
    have hself (u : State) : SliceKeeps Slice.dat u (u.modRf p fun r => { r with selfRef := true }) := .modSlice u p fun _ => rfl
    have hcke (u : State) : SliceKeeps Slice.dat u (u.modLink p fun l => { l with cke := false }) := .modSlice u p fun _ => rfl
    exact (hsre.trans (hself _)).trans (hcke _)) ps s
  have hmarch (t : State) (p : Nat) : SliceKeeps Slice.dat t (t.marchDrop p) := .ite (.modSlice t p fun _ => rfl) (.refl t)
  have hphy (t : State) (p : Nat) : SliceKeeps Slice.dat t (t.modLink p fun l => { l with phy := false }) := .modSlice t p fun _ => rfl
  unfold State.frostSleeps State.powerPhys
  exact (hsleep.trans (.each hmarch _ _)).trans (.each hphy _ _)

theorem State.frostSleeps_asleep (hwf : Tab.wf Slice.reset s.slices = true) {ps : List Nat} (hp : p ∈ ps) : Rests true p (s.frostSleeps ps) := by
  have hmarch (t : State) (q : Nat) (h : Rests true p t) : Rests true p (t.marchDrop q) := by
    unfold State.marchDrop
    split
    · exact h.modSlice q fun x _ _ => ⟨rfl, rfl⟩
    · exact h
  have hphy (t : State) (q : Nat) (h : Rests true p t) : Rests true p (t.modLink q fun l => { l with phy := false }) :=
    h.modSlice q fun x hs hc => ⟨hs, hc⟩
  unfold State.frostSleeps State.powerPhys
  exact State.each_induct hphy _ (State.each_induct hmarch _ (State.each_sleepSlice hwf hp))

theorem State.frostSleeps_frame (s : State) (ps : List Nat) : Frame [.slices] s (s.frostSleeps ps) := by
  unfold State.frostSleeps State.powerPhys
  exact ((State.each_frame _ State.sleepSlice_frame).trans (State.each_frame _ fun t q => .ite (State.modSlice_frame ..) (.refl ..))).trans
    (State.each_frame _ fun t q => State.modSlice_frame ..)

/-- Caches clean and buffers drained. -/
def State.frostDrains (s : State) : State := ((s.detBreak 7).writeBackAll (fun _ _ => true) true).each (List.range 144) State.drainAll

theorem State.frostDrains_frame (s : State) : Frame [.slices, .fab, .mem, .det, .ctl, .evt, .mbx] s s.frostDrains := by
  have hbreak := s.detBreak_frame 7
  unfold State.frostDrains
  generalize s.detBreak 7 = a at *
  have hback := (a.writeBackAll_counted (fun _ _ => true) true).2
  generalize a.writeBackAll (fun _ _ => true) true = b at *
  have hdrain := b.drainIslands_acts (List.range 144)
  exact (hbreak.mono (by decide)).trans ((hback.mono (by decide)).trans (hdrain.frame.mono (by decide)))

theorem State.slice_frostDrains (hwf : Tab.wf Slice.reset s.slices = true) : Tab.wf Slice.reset s.frostDrains.slices = true ∧ ∀ p, p < 144 →
    (s.frostDrains.slice p).dat.Emptied ∧ (Apart (s.slice p).dat.lines → (∀ l ∈ (s.slice p).dat.lines, l.out = none ∧ l.stay = false) →
      (s.frostDrains.slice p).dat.lines = (s.slice p).dat.lines.map fun l => { l with base := l.data }) := by
  have hbreak : (s.detBreak 7).slices = s.slices := (s.detBreak_frame 7).2 .slices (by decide)
  unfold State.frostDrains
  generalize s.detBreak 7 = a at *
  rw [← hbreak] at hwf
  obtain ⟨hbwf, hback⟩ := State.writeBackAll_rewrites (fun _ _ => true) hwf
  generalize a.writeBackAll (fun _ _ => true) true = b at *
  obtain ⟨hcwf, hdrain⟩ := State.slice_drainIslands hbwf
  generalize b.each (List.range 144) State.drainAll = c at *
  refine ⟨hcwf, fun p hp => ⟨(hdrain p hp).1, fun hap hfree => ?_⟩⟩
  have hback := hback p hp
  rw [List.filter_true] at hback
  rw [← State.slice_congr hbreak] at hap hfree ⊢
  exact map_drained hap hfree hback (hdrain p hp).2

/-- The state that FROST_DRAINED leaves in PHASE 5. -/
def State.frosted (s : State) : State :=
  ((s.frostDrains.frostSleeps s.boundSlices).modSys fun y => { y with entering := false, phase := .frost, wakeSeen := false }).finish eOk []

theorem exec_frostDrained : exec .frostDrained s = .next (
    if s.sys.entering = false ∨ s.fab.hold.contains 2 = false ∨ s.trackerEmpty = false ∨ s.repairRuns = true ∨ s.anyHeld = true then s
    else if s.sys.wakeSeen = true then s.frosted.startThaw else s.frosted) := by
  change execFrostDrained s = _
  refine congrArg _ (if_congr ?_ rfl rfl)
  simp only [Bool.or_eq_true, Bool.not_eq_true', or_assoc]

theorem State.frosted_spec (hcanon : s.Canon) :
    s.frosted.sys = { s.sys with entering := false, wakeSeen := false, phase := .frost } ∧
    (∀ p ∈ s.boundSlices, (s.frosted.slice p).rf.selfRef = true ∧ (s.frosted.slice p).link.cke = false) ∧
    (∀ p, p < 144 → (s.frosted.slice p).dat.wb = [] ∧ (s.frosted.slice p).dat.fow = [] ∧ (s.frosted.slice p).dat.corr = []) ∧
    (∀ p, p < 144 → Apart (s.slice p).dat.lines → (∀ l ∈ (s.slice p).dat.lines, l.out = none ∧ l.stay = false) →
      (s.frosted.slice p).dat.lines = (s.slice p).dat.lines.map fun l => { l with base := l.data }) ∧
    (s.frosted.mbx.st = .done ∧ s.frosted.mbx.err = eOk ∧ s.frosted.mbx.run = none) ∧
    Frame [.sys, .slices, .fab, .mem, .det, .ctl, .evt, .mbx] s s.frosted := by
  obtain ⟨-, -, hwf, -⟩ := hcanon
  have hdrains := s.frostDrains_frame
  obtain ⟨hdwf, hdrained⟩ := State.slice_frostDrains hwf
  unfold State.frosted
  generalize s.frostDrains = a at *
  have hasleep (p : Nat) (hp : p ∈ s.boundSlices) := State.frostSleeps_asleep hdwf hp
  obtain ⟨hbwf, hdat⟩ := (a.frostSleeps_dat s.boundSlices).slices hdwf
  have hsleeps := a.frostSleeps_frame s.boundSlices
  generalize a.frostSleeps s.boundSlices = b at *
  have hsys : b.sys = s.sys := (hsleeps.2 .sys (by decide)).trans (hdrains.2 .sys (by decide))
  have hread (p : Nat) : ((b.modSys fun y => { y with entering := false, phase := .frost, wakeSeen := false }).finish eOk []).slice p = b.slice p := rfl
  refine ⟨?_, fun p hp => ?_, fun p hp => ?_, fun p hp hap hfree => ?_, ⟨rfl, rfl, rfl⟩, ?_⟩
  · change { b.sys with entering := false, phase := .frost, wakeSeen := false } = _
    rw [hsys]
  · rw [hread]
    exact ⟨(hasleep p hp).selfRef, (hasleep p hp).cke⟩
  · obtain ⟨hempty, -⟩ := hdrained p hp
    rw [hread, hdat p]
    exact ⟨hempty.wb, hempty.fow, hempty.corr⟩
  · rw [hread, hdat p]
    exact (hdrained p hp).2 hap hfree
  · exact (hdrains.mono (by decide)).trans ((hsleeps.mono (by decide)).trans
      (((State.modSys_frame ..).mono (by decide)).trans ((finish_frame ..).mono (by decide))))

end Sys2Proof.Machine
end

section
/-! ### THAW_RELEASE (R904) -/

namespace Sys2Proof.Machine

variable {s t u : State} {p : Nat}

/-- The trims in use of a bundle at rate `r` and temperature `tc`. -/
def Link.trimsAt (l : Link) (r : Nat) (tc : Int) : Tab (BitVec 32) :=
  (List.range 91).foldl (fun u b => Tab.set 0 u b (l.interp b r tc)) l.inuse

/-- The bundles in service. -/
def State.inServs (s : State) : List Nat := (List.range 144).filter fun p => (s.slice p).rep.inServ

/-- The PHYs powered, and the trims of every bundle in service taken. -/
def State.thawTrimmed (s : State) : State := (s.powerPhys true).each s.inServs State.thawTrims

theorem State.powerPhys_on (hwf : Tab.wf Slice.reset s.slices = true) : Tab.wf Slice.reset (s.powerPhys true).slices = true ∧
    (∀ p ∈ s.inServs, (s.powerPhys true).slice p = { s.slice p with link := { (s.slice p).link with phy := true } }) ∧
    Frame [.slices] s (s.powerPhys true) := by
  obtain ⟨hwf', hdone, -⟩ := State.slice_each (P := fun _ => True) (f := fun t p => t.modLink p fun l => { l with phy := true })
    (ps := s.inServs) (Q := fun _ x y => y = { x with link := { x.link with phy := true } })
    (fun t p _ hwf => ⟨trivial, _, (State.Island.refl hwf p).modSlice fun x => { x with link := { x.link with phy := true } }, rfl⟩)
    (List.nodup_range.filter _) trivial hwf
  unfold State.powerPhys
  exact ⟨hwf', hdone, State.each_frame _ fun t q => State.modSlice_frame ..⟩

theorem State.thawTrims_eq (s : State) (p : Nat) : s.thawTrims p =
    (s.modLink p fun l => { l with inuse := l.trimsAt s.sys.rate (s.tcOf p).toInt, derived := l.isDerived s.sys.rate }).modLink p fun l =>
      { l with calDue := l.calDue || decide (((s.tcOf p).toInt - (s.slice p).link.tlast.toInt).natAbs > 16 * s.deltaT) } := rfl

theorem State.thawTrims_island (hwf : Tab.wf Slice.reset s.slices = true) (p : Nat) :
    ∃ z, State.Island p z s (s.thawTrims p) ∧ z.link.phy = (s.slice p).link.phy ∧
      z.link.inuse = (s.slice p).link.trimsAt s.sys.rate (s.tcOf p).toInt := by
  rw [State.thawTrims_eq]
  generalize (s.tcOf p).toInt = tc
  have h := ((State.Island.refl hwf p).modSlice fun x => { x with link := { x.link with
    inuse := x.link.trimsAt s.sys.rate tc, derived := x.link.isDerived s.sys.rate } }).modSlice fun x => { x with link := { x.link with
      calDue := x.link.calDue || decide ((tc - (s.slice p).link.tlast.toInt).natAbs > 16 * s.deltaT) } }
  refine ⟨_, h, ?_, ?_⟩
  · dsimp only
  · dsimp only

theorem State.thawTrims_frame (s : State) (p : Nat) : Frame [.slices] s (s.thawTrims p) :=
  (State.modSlice_frame ..).trans (State.modSlice_frame ..)

theorem State.slice_thawTrimmed (hwf : Tab.wf Slice.reset s.slices = true) : Tab.wf Slice.reset s.thawTrimmed.slices = true ∧
    (∀ p ∈ s.inServs, (s.thawTrimmed.slice p).link.phy = true ∧
      (s.thawTrimmed.slice p).link.inuse = (s.slice p).link.trimsAt s.sys.rate (s.tcOf p).toInt) ∧ Frame [.slices] s s.thawTrimmed := by
  obtain ⟨hwfu, hphy, hframe⟩ := State.powerPhys_on hwf
  unfold State.thawTrimmed
  generalize s.powerPhys true = u at *
  have hsys : u.sys = s.sys := hframe.2 .sys (by decide)
  have htherm : u.therm = s.therm := hframe.2 .therm (by decide)
  obtain ⟨hwf', hdone, -⟩ := State.slice_each (P := fun t => t.sys = s.sys ∧ t.therm = s.therm) (f := State.thawTrims) (ps := s.inServs)
    (Q := fun p x z => z.link.phy = x.link.phy ∧ z.link.inuse = x.link.trimsAt s.sys.rate (s.tcOf p).toInt)
    (fun t p ⟨ht, hth⟩ hwf => by
      have hone := t.thawTrims_frame p
      obtain ⟨z, hz, h1, h2⟩ := State.thawTrims_island hwf p
      rw [State.tcOf_congr hth, ht] at h2
      exact ⟨⟨(hone.2 .sys (by decide)).trans ht, (hone.2 .therm (by decide)).trans hth⟩, z, hz, h1, h2⟩)
    (List.nodup_range.filter _) ⟨hsys, htherm⟩ hwfu
  refine ⟨hwf', fun p hp => ?_, hframe.trans (State.each_frame _ State.thawTrims_frame)⟩
  obtain ⟨h1, h2⟩ := hdone p hp
  rw [hphy p hp] at h1 h2
  exact ⟨h1, h2⟩

theorem State.thawSlice_frame (s : State) (p : Nat) : Frame [.slices] s (s.thawSlice p) := by
  have hrefr (t : State) : Frame [.slices] t (t.srxRefresh p) := by
    unfold State.srxRefresh State.srx
    exact (State.each_frame _ fun u i => u.modSlice_frame ..).trans (State.modSlice_frame ..)
  unfold State.thawSlice
  exact ((State.modSlice_frame ..).trans (State.sendRow_frame ..)).trans ((hrefr _).trans (State.modSlice_frame ..))

/-- The steps of a slice's thaw: what each of them keeps, the thaw keeps. -/
theorem State.SliceKeeps.thawSlice {β : Type} {g : Slice → β} (hbt : ∀ x b, g { x with bt := b } = g x) (hrf : ∀ x r, g { x with rf := r } = g x)
    (hcke : ∀ x : Slice, g { x with link := { x.link with cke := true } } = g x)
    (hsend : ∀ (x : Slice) (n : Nat) (w : Bool) (h : BitVec 50), g { x with link := x.link.send n w h } = g x) (s : State) (p : Nat) :
    SliceKeeps g s (s.thawSlice p) := by
  have hbank (t : State) (f : BankSet → BankSet) : SliceKeeps g t (t.modBt p f) := modSlice t p fun x => hbt x (f x.bt)
  have hrefr (t : State) : SliceKeeps g t (t.srxRefresh p) := by
    unfold State.srxRefresh State.srx
    exact (each (fun u i => modSlice u p fun x => hrf x _) _ t).trans (hbank ..)
  have hrow (t : State) : SliceKeeps g t (t.sendRow p 5 0) := modSlice t p fun x => hsend x ..
  have hhigh : SliceKeeps g s (s.modLink p fun l => { l with cke := true }) := modSlice s p fun x => hcke x
  unfold State.thawSlice
  exact ((hhigh.trans (hrow _)).trans (hrefr _)).trans (hbank ..)

theorem State.Rests.modBt {b : Bool} (h : Rests b p s) (q : Nat) (f : BankSet → BankSet) : Rests b p (s.modBt q f) :=
  h.modSlice q fun _ hs hc => ⟨hs, hc⟩

/-- SB_CKE is high in island `p`. -/
structure State.CkeHigh (p : Nat) (s : State) : Prop where
  wf : Tab.wf Slice.reset s.slices = true
  cke : (s.slice p).link.cke = true

theorem State.CkeHigh.of_keeps (h : CkeHigh p s) (hk : SliceKeeps (·.link.cke) s t) : CkeHigh p t :=
  ⟨(hk.slices h.wf).1, ((hk.slices h.wf).2 p).trans h.cke⟩

/-- The accumulator of one bank at SRX (R495, R511). -/
def State.srxAcc (p : Nat) (s : State) (i : Nat) : State :=
  let a := s.dueAcc p i
  let v := s.view p
  s.modRf p fun r => { r.modRb i (fun b => { b with acc := a % 25000, t0 := v, owed := 0, pulled := 0 }) with selfRef := false }

theorem State.srxRefresh_eq (s : State) (p : Nat) : s.srxRefresh p = (s.each (List.range 32) (State.srxAcc p)).srx p := rfl

/-- A slice whose SB_CKE is high leaves self-refresh. -/
theorem State.CkeHigh.srxRefresh (h : CkeHigh p s) : Rests false p (s.srxRefresh p) := by
  have hstep (t : State) (i : Nat) (ht : CkeHigh p t) : Rests false p (State.srxAcc p t i) := by
    unfold State.srxAcc State.modRf
    refine ⟨State.modSlice_wf ht.wf _, ?_, ?_⟩
    · rw [State.slice_modSlice ht.wf]
    · rw [State.slice_modSlice ht.wf]
      exact ht.cke
  have hrests (t : State) (ht : Rests false p t) : CkeHigh p t := ⟨ht.wf, ht.cke⟩
  rw [State.srxRefresh_eq]
  exact (State.each_reaches (P := CkeHigh p) (Q := Rests false p) (l := List.range 32) (a := 0) (f := State.srxAcc p)
    (fun t i ht => hrests _ (hstep t i ht)) (fun t i ht => hstep t i (hrests t ht)) (fun t ht => hstep t 0 ht) (by decide) h).modBt p _

/-- A slice that thaws is out of self-refresh. -/
theorem State.thawSlice_awake (hwf : Tab.wf Slice.reset s.slices = true) (p : Nat) : Rests false p (s.thawSlice p) := by
  have hhigh : CkeHigh p (s.modLink p fun l => { l with cke := true }) :=
    ⟨State.modSlice_wf hwf _, by rw [State.modLink, State.slice_modSlice hwf]⟩
  have hrow (t : State) : SliceKeeps (·.link.cke) t (t.sendRow p 5 0) := by
    unfold State.sendRow
    exact .modSlice t p fun _ => rfl
  unfold State.thawSlice
  generalize (s.modLink p fun l => { l with cke := true }) = u at *
  have hsent := hhigh.of_keeps (hrow u)
  generalize u.sendRow p 5 0 = v at *
  have hrests := hsent.srxRefresh
  generalize v.srxRefresh p = w at *
  exact hrests.modBt p _

theorem State.Rests.thawSlice (h : Rests false p s) (q : Nat) : Rests false p (s.thawSlice q) := by
  have hrefr (t : State) (ht : Rests false p t) : Rests false p (t.srxRefresh q) := by
    have hacc (u : State) (i : Nat) (hu : Rests false p u) : Rests false p (State.srxAcc q u i) := by
      unfold State.srxAcc State.modRf
      exact hu.modSlice q fun x _ hc => ⟨rfl, hc⟩
    rw [State.srxRefresh_eq]
    exact (State.each_induct (P := Rests false p) (f := State.srxAcc q) hacc (List.range 32) ht).modBt q _
  have hrow (t : State) (ht : Rests false p t) : Rests false p (t.sendRow q 5 0) := by
    unfold State.sendRow
    exact ht.modSlice q fun x hs hc => ⟨hs, hc⟩
  unfold State.thawSlice
  have hhigh : Rests false p (s.modLink q fun l => { l with cke := true }) := h.modSlice q fun x hs _ => ⟨hs, rfl⟩
  generalize (s.modLink q fun l => { l with cke := true }) = u at *
  have hsent := hrow u hhigh
  generalize u.sendRow q 5 0 = v at *
  have hrests := hrefr v hsent
  generalize v.srxRefresh q = w at *
  exact hrests.modBt q _

/-- The bound slices work again. -/
theorem State.thawSlices (hwf : Tab.wf Slice.reset s.slices = true) (ps : List Nat) :
    (∀ p ∈ ps, Rests false p (s.each ps State.thawSlice)) ∧ SliceKeeps (fun x => (x.link.phy, x.link.inuse)) s (s.each ps State.thawSlice) ∧
      Frame [.slices] s (s.each ps State.thawSlice) := by
  refine ⟨fun p hp => ?_, .each (.thawSlice (fun _ _ => rfl) (fun _ _ => rfl) (fun _ => rfl) fun _ _ _ _ => rfl) ps s,
    State.each_frame _ State.thawSlice_frame⟩
  exact State.each_reaches (P := fun t => Tab.wf Slice.reset t.slices = true) (Q := Rests false p)
    (fun t q h => (State.thawSlice_awake h q).wf) (fun t q h => h.thawSlice q) (fun t h => State.thawSlice_awake h p) hp hwf

/-- Admission opens, KX_FROST falls and PHASE is 4. -/
def State.thawOpens (s : State) : State := (s.noteWord (.admFree 2)).modSys fun y => { y with frost := false, phase := .running }

theorem exec_thawRelease : exec .thawRelease s = .next (
    if s.sys.phase ≠ .thaw ∨ s.sys.ltc < s.thawAt then s
    else if (s.thawTrimmed.each s.boundSlices State.thawSlice).mbx.st = .busy then
      (s.thawTrimmed.each s.boundSlices State.thawSlice).thawOpens.modMbx fun m => { m with starts := some s.heldStart }
    else (s.thawTrimmed.each s.boundSlices State.thawSlice).thawOpens) := by
  change execThawRelease s = _
  refine congrArg _ (if_congr ?_ rfl (if_congr ?_ rfl rfl))
  · simp only [Bool.or_eq_true, bne_iff_ne, decide_eq_true_eq]
  · exact beq_iff_eq

theorem exec_thawRelease_opens (hcanon : s.Canon) (hphase : s.sys.phase = .thaw) (hdue : s.thawAt ≤ s.sys.ltc) :
    ∃ t, exec .thawRelease s = .next t ∧
      t.sys = { s.sys with frost := false, phase := .running } ∧
      (∀ p ∈ s.boundSlices, (t.slice p).rf.selfRef = false ∧ (t.slice p).link.cke = true) ∧
      t.fab = { s.fab with hold := s.fab.hold.filter fun c => c != 2 } ∧
      (∀ p, p < 144 → (s.slice p).rep.inServ = true → (t.slice p).link.phy = true ∧
        (t.slice p).link.inuse = (s.slice p).link.trimsAt s.sys.rate (s.tcOf p).toInt) ∧
      t.mbx = (if s.mbx.st = .busy then { s.mbx with starts := some s.heldStart } else s.mbx) ∧
      Frame [.sys, .slices, .fab, .mbx] s t := by
  obtain ⟨-, -, hwf, -⟩ := hcanon
  obtain ⟨hwfu, htrims, hframe⟩ := State.slice_thawTrimmed hwf
  have hexec := (exec_thawRelease (s := s)).trans (congrArg _ (if_neg (by rintro (h | h) <;> [exact h hphase; omega])))
  generalize s.thawTrimmed = u at *
  obtain ⟨hawake, hkeeps, hthaw⟩ := State.thawSlices hwfu s.boundSlices
  generalize u.each s.boundSlices State.thawSlice = v at *
  have hsys : v.sys = s.sys := (hthaw.2 .sys (by decide)).trans (hframe.2 .sys (by decide))
  have hfab : v.fab = s.fab := (hthaw.2 .fab (by decide)).trans (hframe.2 .fab (by decide))
  have hmbx : v.mbx = s.mbx := (hthaw.2 .mbx (by decide)).trans (hframe.2 .mbx (by decide))
  have hv : Frame [.sys, .slices, .fab, .mbx] s v := (hframe.mono (by decide)).trans (hthaw.mono (by decide))
  have hopens : Frame [.sys, .slices, .fab, .mbx] v v.thawOpens :=
    ((State.noteWord_frame ..).mono (by decide)).trans ((State.modSys_frame ..).mono (by decide))
  have hall (t : State) (hts : t.sys = v.thawOpens.sys) (htf : t.fab = v.thawOpens.fab) (htl : t.slices = v.slices) :
      t.sys = { s.sys with frost := false, phase := .running } ∧
      (∀ p ∈ s.boundSlices, (t.slice p).rf.selfRef = false ∧ (t.slice p).link.cke = true) ∧
      t.fab = { s.fab with hold := s.fab.hold.filter fun c => c != 2 } ∧
      (∀ p, p < 144 → (s.slice p).rep.inServ = true → (t.slice p).link.phy = true ∧
        (t.slice p).link.inuse = (s.slice p).link.trimsAt s.sys.rate (s.tcOf p).toInt) := by
    refine ⟨?_, fun p hp => ?_, ?_, fun p hp hin => ?_⟩
    · rw [hts, ← hsys]
      rfl
    · rw [State.slice_congr htl]
      exact ⟨(hawake p hp).selfRef, (hawake p hp).cke⟩
    · rw [htf, ← hfab]
      rfl
    · obtain ⟨hphy, hinuse⟩ := htrims p (List.mem_filter.2 ⟨List.mem_range.2 hp, hin⟩)
      obtain ⟨hkphy, hkinuse⟩ := Prod.mk.inj ((hkeeps.slices hwfu).2 p)
      rw [State.slice_congr htl]
      exact ⟨hkphy.trans hphy, hkinuse.trans hinuse⟩
  rw [hmbx] at hexec
  by_cases hbusy : s.mbx.st = .busy
  · rw [if_pos hbusy] at hexec
    obtain ⟨h1, h2, h3, h4⟩ := hall (v.thawOpens.modMbx fun m => { m with starts := some s.heldStart }) rfl rfl rfl
    refine ⟨_, hexec, h1, h2, h3, h4, ?_, hv.trans (hopens.trans ((State.modMbx_frame ..).mono (by decide)))⟩
    rw [if_pos hbusy, ← hmbx]
    rfl
  · rw [if_neg hbusy] at hexec
    obtain ⟨h1, h2, h3, h4⟩ := hall v.thawOpens rfl rfl rfl
    refine ⟨_, hexec, h1, h2, h3, h4, ?_, hv.trans hopens⟩
    rw [if_neg hbusy, ← hmbx]
    rfl

end Sys2Proof.Machine
end

section
/-! ### The alignment, Frost and Thaw as stated -/

namespace Sys2Proof.Machine

variable {s t u : State}

/-- Thaw samples every line; none of them has moved. -/
theorem State.thawing_spec (t : State) (y : Sys) : (State.takeLines { t with sys := y }).Sampled ∧
    (State.takeLines { t with sys := y }).fab.lines = t.fab.lines ∧ (t.Sampled → (State.takeLines { t with sys := y }).fab = t.fab) := by
  refine ⟨State.sampled_takeLines _, (State.linesTaken_takeLines _).lines, fun h => ?_⟩
  rw [State.takeLines_of_sampled (s := { t with sys := y }) h]

/-- Settles O53: the alignment, Frost and Thaw, each by the equation of its row. -/
theorem alignmentAndFrost : Obligations.AlignmentAndFrost := by
  intro s hcanon
  refine ⟨fun t => ?_, fun h => ?_, fun h1 h2 h3 h4 h5 => exec_alignArmed_arms hcanon h1 h2 h3 h4 h5, fun h => ?_,
    fun h1 h2 h3 h4 => ?_, fun h => ?_, fun h1 h2 => ?_, fun h => ?_, fun h1 h2 => exec_alignAr_runs hcanon h1 h2, fun h => ?_,
    fun h1 h2 => exec_alignTimeout_ends hcanon h1 h2, fun hr ha => ⟨fun hb => ?_, fun hb hc => ?_, fun hb hc =>
      exec_frostEnter_enters hcanon hr ha hb hc⟩, fun h => ?_, fun h1 h2 h3 h4 h5 => ?_, fun h => ?_,
    fun h1 h2 h3 => exec_frostEnterTimeout_ends h1 h2 h3, fun level => ⟨fun h => ?_, fun h1 h2 h3 => ⟨fun h4 => ?_, fun h4 h5 => ?_⟩⟩,
    fun h => ?_, fun h1 h2 => exec_thawRelease_opens hcanon h1 h2⟩
  · have h := State.thawing_spec t { t.sys with phase := .thaw, wakeLtc := s.sys.ltc }
    dsimp only at h ⊢
    exact h
  · rw [exec_alignArmed, if_pos h]
  · rw [exec_detSetDrainTimeout, if_pos h]
  · rw [exec_detSetDrainTimeout, if_neg]
    rintro (h | h | ⟨h, h'⟩ | h)
    · exact h h1
    · rw [h2] at h
      cases h
    · rcases h3 with h3 | h3
      · rw [h3] at h
        cases h
      · rw [h3] at h'
        cases h'
    · omega
  · rw [exec_alignA0, if_pos h]
  · rw [exec_alignA0, if_neg (by omega)]
  · rw [exec_alignAr, if_pos h]
  · rw [exec_alignTimeout, if_pos h]
  · rw [exec_frostEnter hr, takeDoorbell_checked_fail ha hb]
  · rw [exec_frostEnter hr, checked_fail_second ha hb hc]
  · rw [exec_frostDrained, if_pos h]
  · obtain ⟨hsys, hbound, hempty, hlines, hanswer, hframe⟩ := State.frosted_spec hcanon
    refine ⟨s.frosted, ?_, hsys, hbound, hempty, hlines, hanswer, hframe⟩
    rw [exec_frostDrained, if_neg (by simp only [h1, h2, h3, h4, h5]; decide)]
    have hltc : s.frosted.sys.ltc = s.sys.ltc := by rw [hsys]
    rw [State.startThaw, hltc]
    rfl
  · rw [exec_frostEnterTimeout, if_pos h]
  · rw [exec_kxWake]
    by_cases hrise : (!(level && !s.sys.wake) || s.therm.latch) = true
    · rw [if_pos hrise]
    · rw [if_neg hrise]
      rcases h with h | h | h | ⟨h4, h5⟩
      · exact absurd (by rw [h]; rfl) hrise
      · exact absurd (by rw [h]; simp) hrise
      · exact absurd (by rw [h]; simp) hrise
      · rw [if_neg (by simpa using h4), if_neg (by rw [h5]; decide)]
  · rw [exec_kxWake, if_neg (by simp [h1, h2, h3]), if_pos (by rw [h4]; rfl), h1]
    rfl
  · rw [exec_kxWake, if_neg (by simp [h1, h2, h3]), if_neg (by simpa using h4), if_pos h5, h1]
  · rw [exec_thawRelease, if_pos h]

end Sys2Proof.Machine
end

section
/-! ### Power-on reset, and the end of zeroing (R32, R883, R896) -/

namespace Sys2Proof.Machine

variable {s t u : State}

theorem exec_kxPorNAssert_clears : ∃ t, exec .kxPorNAssert s = .next t ∧ t.sys.porN = false ∧ t.sys.phase = .romBoot ∧ t.sys.ready = false ∧
      t.sys.ltc = 0 ∧ t.sys.rails = 0 ∧ t.sys.rstN = s.sys.rstN ∧ t.sys.wake = s.sys.wake ∧ t.ports = [] ∧ t.slices = [] ∧ t.blp = Blp.reset ∧
      t.mc = none ∧ t.evt = Evt.reset ∧ t.mbx = Mbx.reset ∧ t.therm = Therm.reset ∧ t.det = Det.reset ∧
      t.fab = { Fab.reset with lines := s.fab.lines, down := s.fab.lines, masked := s.fab.lines, drained := s.fab.lines } ∧ t.ctl = { Ctl.reset with
        bootA := s.ctl.bootA
        bootB := s.ctl.bootB
        bootBad := s.ctl.bootBad } ∧ t.mem = s.mem ∧ t.wrap = s.wrap ∧ t.pending = s.pending :=
  ⟨s.cleared, rfl, rfl, rfl, rfl, rfl, rfl, rfl, rfl, rfl, rfl, rfl, rfl, rfl, rfl, rfl, rfl, rfl, rfl, rfl, rfl, rfl⟩

/-- The alignment takes the place of the opening (R898). -/
def State.alignBegins (s : State) : State :=
  (s.modDet fun d => { d with align := 1, alignAt := s.sys.ltc, alignBoot := true }).holdAdm 3

theorem State.alignOrOpen_timing (h : s.cfg.detMode = .timing) : s.alignOrOpen = s.alignBegins := by
  rw [State.alignOrOpen, h]
  rfl

theorem State.alignOrOpen_other (h : s.cfg.detMode ≠ .timing) : s.alignOrOpen = s.openUp := by
  unfold State.alignOrOpen
  split
  · next hmode => exact absurd hmode h
  · rfl
  · rfl

/-- Bound slices at zero, and no row stale. -/
def State.zeroed (s : State) : State :=
  State.modFab (if s.therm.latch then s else { s with mem := Tab.drop (fun k => s.boundSlices.contains (keyPs k)) s.mem }) fun f =>
    { f with stale := [] }

theorem exec_zeroingDone : exec .zeroingDone s = .next (
    if s.sys.phase ≠ .zeroing ∨ s.det.align ≠ 0 ∨ s.sys.rstEnd = true then s else s.zeroed.alignOrOpen) := by
  change execZeroingDone s = _
  refine congrArg _ (if_congr ?_ rfl rfl)
  simp only [Bool.or_eq_true, bne_iff_ne, or_assoc]

theorem State.zeroed_frame (s : State) : Frame [.mem, .fab] s s.zeroed := by
  have hdrop : Frame [.mem, .fab] s (if s.therm.latch then s else { s with mem := Tab.drop (fun k => s.boundSlices.contains (keyPs k)) s.mem }) :=
    .ite (.refl ..) (.of rfl fun q => by cases q <;> first | exact .inl (by decide) | exact .inr rfl)
  unfold State.zeroed
  exact hdrop.trans ((State.modFab_frame ..).mono (by decide))

theorem State.zeroed_fab (s : State) : s.zeroed.fab = { s.fab with stale := [] } := by
  unfold State.zeroed
  split <;> rfl

theorem State.zeroed_mem (s : State) : (s.therm.latch = false → ∀ k, s.zeroed.code k = if keyPs k ∈ s.boundSlices then 0 else s.code k) ∧
    (s.therm.latch = true → s.zeroed.mem = s.mem) := by
  unfold State.zeroed
  refine ⟨fun h k => ?_, fun h => by rw [if_pos h]; rfl⟩
  rw [if_neg (by simp [h])]
  change Tab.get 0 (Tab.drop (fun k => s.boundSlices.contains (keyPs k)) s.mem) k = _
  rw [Tab.get_drop]
  exact if_congr List.contains_iff_mem rfl rfl

/-- The alignment begun: admission is held, at once or by a word on its way. -/
theorem State.alignBegins_spec (s : State) : s.alignBegins.det = { s.det with align := 1, alignAt := s.sys.ltc, alignBoot := true } ∧
    s.Tells s.alignBegins 7 0 (.admHold 3) (s.alignBegins.fab = { s.fab with hold := insertNat 3 s.fab.hold }) (s.alignBegins.fab = s.fab) ∧
    s.alignBegins.ctl = { s.ctl with icqs := s.alignBegins.ctl.icqs, words := s.alignBegins.ctl.words } ∧
    Frame [.fab, .det, .ctl] s s.alignBegins := by
  have hmod := s.modDet_frame fun d => { d with align := 1, alignAt := s.sys.ltc, alignBoot := true }
  have hseen : (s.modDet fun d => { d with align := 1, alignAt := s.sys.ltc, alignBoot := true }).icqSeen 7 0 = s.icqSeen 7 0 :=
    State.icqSeen_of_mode rfl rfl rfl
  have hdet : (s.modDet fun d => { d with align := 1, alignAt := s.sys.ltc, alignBoot := true }).det =
    { s.det with align := 1, alignAt := s.sys.ltc, alignBoot := true } := rfl
  have hfab : (s.modDet fun d => { d with align := 1, alignAt := s.sys.ltc, alignBoot := true }).fab = s.fab := rfl
  have hctl : (s.modDet fun d => { d with align := 1, alignAt := s.sys.ltc, alignBoot := true }).ctl = s.ctl := rfl
  have hsys : (s.modDet fun d => { d with align := 1, alignAt := s.sys.ltc, alignBoot := true }).sys = s.sys := rfl
  unfold State.alignBegins
  generalize (s.modDet fun d => { d with align := 1, alignAt := s.sys.ltc, alignBoot := true }) = u at *
  have hhold := u.holdAdm_frame 3
  have htells := State.Tells.holdAdm u 3
  have htell := u.tell_ctl 7 0 (.admHold 3)
  refine ⟨(hhold.2 .det (by decide)).trans hdet, ?_, ?_, (hmod.mono (by decide)).trans (hhold.mono (by decide))⟩
  · unfold State.Tells at *
    rw [hseen, hsys, hctl, hfab] at htells
    exact htells
  · change (u.holdAdm 3).ctl = _ at htell
    rw [htell, ← hctl]
    rfl

end Sys2Proof.Machine
end

section
/-! ### Boot training and the remap table (R626, R891): what they leave -/

namespace Sys2Proof.Machine

variable {s t u : State}

/-- What the training of a bundle touches. -/
abbrev trainParts : List Part := [.slices, .ctl, .evt, .mbx]

theorem State.modLink_frame (s : State) (p : Nat) (f : Link → Link) : Frame trainParts s (s.modLink p f) := (s.modSlice_frame ..).mono (by decide)

theorem State.modRf_frame (s : State) (p : Nat) (f : Refr → Refr) : Frame trainParts s (s.modRf p f) := (s.modSlice_frame ..).mono (by decide)

theorem State.linkEvent_frame (s : State) (e : Ev) (p b c : Nat) : Frame trainParts s (s.linkEvent e p b c) :=
  (s.reportBy_frame ..).mono (by decide)

theorem State.sre_frame (s : State) (p : Nat) : Frame [.slices] s (s.sre p) := by
  have hclose (t : State) (i n : Nat) : Frame [.slices] t (t.close p i n) := (State.modSlice_frame ..).trans (State.sendRow_frame ..)
  have hall : Frame [.slices] s (s.closeAll p) := State.each_frame _ fun t i => .ite (hclose ..) (.refl ..)
  unfold State.sre
  exact hall.trans (State.modSlice_frame ..)

theorem State.outOfService_frame (s : State) (p : Nat) : Frame [.slices] s (s.outOfService p) := by
  have hsre : Frame [.slices] s (if (s.slice p).rf.selfRef then s else s.sre p) := .ite (.refl ..) (s.sre_frame p)
  unfold State.outOfService
  exact (hsre.trans (State.modSlice_frame ..)).trans (State.modSlice_frame ..)

theorem State.replaceLane_frame (s : State) (p k : Nat) : Frame trainParts s (s.replaceLane p k) := by
  unfold State.replaceLane
  dsimp only
  split
  · exact (State.modLink_frame ..).trans (State.linkEvent_frame ..)
  · exact .refl ..

theorem State.enterNarrow_frame (s : State) (p : Nat) : Frame trainParts s (s.enterNarrow p) := by
  unfold State.enterNarrow
  exact (State.modLink_frame ..).trans (State.linkEvent_frame ..)

theorem State.replaceBonds_frame (s : State) (p : Nat) : Frame trainParts s (s.replaceBonds p).1 := by
  have hlanes (t : State) (ks : List Nat) : Frame trainParts t (t.each ks fun s k => s.replaceLane p k) :=
    State.each_frame _ fun u k => u.replaceLane_frame p k
  unfold State.replaceBonds
  extract_lets s0 l s1 s2 s3
  have h0 : Frame trainParts s s0 := (State.modLink_frame ..).trans ((State.modSlice_frame ..).mono (by decide))
  have h1 : Frame trainParts s0 s1 := .ite (.ite (s0.enterNarrow_frame p) (.refl ..)) (hlanes ..)
  exact (h0.trans h1).trans ((hlanes ..).trans (State.modLink_frame ..))

theorem State.measureAll_frame (s : State) (p : Nat) (o : TrainOutcome) : Frame trainParts s (s.measureAll p o) :=
  State.each_frame _ fun t _ => t.modLink_frame p _

theorem State.startRefresh_frame (s : State) (p : Nat) : Frame trainParts s (s.startRefresh p) := by
  have hfloor : Frame trainParts s (s.floorBand p) := .ite ((State.modRf_frame ..).trans ((State.count_frame ..).mono (by decide))) (.refl ..)
  unfold State.startRefresh
  exact (hfloor.trans (State.modRf_frame ..)).trans ((State.startAccs_frame ..).mono (by decide))

/-- The bundle of slice `p` as its training finds it. -/
def State.trainBegun (s : State) (p : Nat) (o : TrainOutcome) : State :=
  (s.modLink p fun l =>
    { l with rstN := true, cke := true, phy := true, state := .training,
             failed := (o.badBonds.filter fun b => b < 87).foldl (fun f b => insertNat b f) l.failed }).modBt p fun b =>
      let t := timingSet (s.stk.layer (layerOf p)).tims s.sys.rate
      { b with tim := t, tim2 := t }

/-- Its bonds replaced, measured and calibrated. -/
def State.trained (s : State) (p : Nat) (o : TrainOutcome) : State :=
  let z := s.therm.zqCode
  ((((s.trainBegun p o).replaceBonds p).1.measureAll p o).modLink p fun l => { l with finger := z })

/-- A trained bundle in service, or out of it. -/
def State.trainEnds (s : State) (p : Nat) (fence out latch : Bool) : State :=
  let s2 := (s.takeTrims p).calDone p 0
  if fence then (s2.linkEvent .linkFence p 0x7F 0).outOfService p
  else if out then s2.outOfService p
  else
    let s3 := s2.modLink p fun l => { l with state := if l.narrow then .narrow else .active }
    if latch then s3.modLink p fun l => { l with cke := false } else (s3.sendRow p 5 0).startRefresh p

theorem State.trainSlice_eq (s : State) (p : Nat) (o : TrainOutcome) : s.trainSlice p o =
    (s.trained p o).trainEnds p (((s.trainBegun p o).replaceBonds p).2 || o.strobeBad) (!(s.slice p).rep.inServ) s.therm.latch := rfl

theorem State.trained_frame (s : State) (p : Nat) (o : TrainOutcome) : Frame trainParts s (s.trained p o) := by
  have h0 : Frame trainParts s (s.trainBegun p o) := by
    unfold State.trainBegun
    exact (State.modLink_frame ..).trans ((State.modSlice_frame ..).mono (by decide))
  unfold State.trained
  exact (h0.trans (State.replaceBonds_frame ..)).trans ((State.measureAll_frame ..).trans (State.modLink_frame ..))

theorem State.trainEnds_frame (s : State) (p : Nat) (fence out latch : Bool) : Frame trainParts s (s.trainEnds p fence out latch) := by
  have h2 : Frame trainParts s ((s.takeTrims p).calDone p 0) := (State.modLink_frame s p _).trans (State.modLink_frame (s.takeTrims p) p _)
  have hout (t : State) : Frame trainParts t (t.outOfService p) := (State.outOfService_frame ..).mono (by decide)
  unfold State.trainEnds
  dsimp only
  generalize (s.takeTrims p).calDone p 0 = u at *
  refine h2.trans (.ite ((State.linkEvent_frame ..).trans (hout _)) (.ite (hout _) (.trans (State.modLink_frame ..) (.ite (State.modLink_frame ..) ?_))))
  exact ((State.sendRow_frame ..).mono (by decide)).trans (State.startRefresh_frame ..)

theorem State.trainSlice_frame (s : State) (p : Nat) (o : TrainOutcome) : Frame trainParts s (s.trainSlice p o) := by
  rw [State.trainSlice_eq]
  exact (State.trained_frame ..).trans (State.trainEnds_frame ..)

/-- Between `s` and `t` start-up has gone on, past the negotiation: the common rate points stay. -/
structure State.Boots (s t : State) : Prop where
  rates : t.stk.rates = s.stk.rates
  sys : t.sys = { s.sys with free := t.sys.free }
  frame : Frame [.sys, .cfg, .stk, .slices, .fab, .det, .therm, .ctl, .evt, .mbx] s t

namespace State.Boots

theorem refl (s : State) : Boots s s := ⟨rfl, rfl, .refl ..⟩

theorem trans (h1 : Boots s t) (h2 : Boots t u) : Boots s u := ⟨h2.rates.trans h1.rates, by rw [h2.sys, h1.sys], h1.frame.trans h2.frame⟩

theorem ite {c : Prop} [Decidable c] (h1 : Boots s t) (h2 : Boots s u) : Boots s (if c then t else u) := by
  split
  · exact h1
  · exact h2

theorem each {α : Type} {f : State → α → State} (h : ∀ s a, Boots s (f s a)) (l : List α) (s : State) : Boots s (s.each l f) :=
  State.each_induct (P := Boots s) (fun t a ht => ht.trans (h t a)) l (refl s)

theorem of_frame {ps : List Part} (h : Frame ps s t)
    (hps : ∀ q ∈ ps, q ∈ [Part.cfg, .slices, .fab, .det, .therm, .ctl, .evt, .mbx] := by decide) : Boots s t := by
  have hstk : t.stk = s.stk := h.2 .stk fun hq => absurd (hps _ hq) (by decide)
  have hsys : t.sys = s.sys := h.2 .sys fun hq => absurd (hps _ hq) (by decide)
  refine ⟨by rw [hstk], by rw [hsys], h.mono fun q hq => ?_⟩
  exact (by decide : ∀ q ∈ [Part.cfg, .slices, .fab, .det, .therm, .ctl, .evt, .mbx],
    q ∈ [Part.sys, .cfg, .stk, .slices, .fab, .det, .therm, .ctl, .evt, .mbx]) q (hps q hq)

theorem modStk (s : State) {f : Stack → Stack} (hf : ∀ k, (f k).rates = k.rates) : Boots s (s.modStk f) :=
  ⟨hf _, rfl, (s.modStk_frame f).mono (by decide)⟩

theorem nextFree (s : State) : Boots s s.nextFree :=
  ⟨rfl, rfl, (State.modSys_frame s fun y => { y with free := y.free + 1 }).mono (by decide)⟩

theorem addCand (s : State) (c cause : Nat) : Boots s (s.addCand c cause) := ite (modStk s fun _ => rfl) (refl s)

theorem setRemap (s : State) (c : Nat) (e : Remap) : Boots s (s.setRemap c e) := modStk s fun _ => rfl

theorem buildRemap (s : State) : Boots s s.buildRemap := by
  unfold State.buildRemap
  extract_lets s1 out s2 s3
  have h1 : Boots s s1 := modStk s fun _ => rfl
  have h2 : Boots s1 s2 := each (fun t c => by
    dsimp only
    split
    · exact setRemap ..
    · exact (setRemap ..).trans (of_frame (State.event_frame ..))) out s1
  have h3 : Boots s2 s3 := each (fun t p => by
    have hsre : Frame trainParts t (if (t.slice p).rf.selfRef then t else t.sre p) := .ite (.refl ..) ((t.sre_frame p).mono (by decide))
    exact of_frame ((hsre.trans (State.modRf_frame ..)).trans (State.modLink_frame ..))) _ s2
  exact ((h1.trans h2).trans h3).trans (each (fun t c => addCand t c 1) _ s3)

end State.Boots

end Sys2Proof.Machine
end

section
/-! ### Negotiation and start-up (R614 to R620, R891 to R893) -/

namespace Sys2Proof.Machine

variable {s t u : State}

/-- What the negotiation touches. -/
abbrev negParts : List Part := [.stk, .slices, .therm, .ctl, .evt, .mbx]

theorem State.negFence_frame (s : State) (l cause : Nat) : Frame negParts s (s.negFence l cause) :=
  ((s.modStk_frame _).mono (by decide)).trans ((State.event_frame ..).mono (by decide))

theorem State.negRates_frame (n : Nat) (s : State) : Frame negParts s (State.negRates n s) := by
  induction n generalizing s with
  | zero => exact .refl ..
  | succ n ih =>
    unfold State.negRates
    split
    · exact .refl ..
    · dsimp only
      split
      · exact (State.negFence_frame ..).trans (ih _)
      · exact .refl ..

theorem State.outOfServices_frame (s : State) (ps : List Nat) : Frame [.slices] s (s.each ps State.outOfService) :=
  State.each_frame _ State.outOfService_frame

theorem State.fuseMap_frame (s : State) (p : Nat) (ws : List (BitVec 32 × BitVec 32 × BitVec 32)) : Frame negParts s (s.fuseMap p ws) := by
  unfold State.fuseMap
  extract_lets c split odd s1
  have h1 : Frame negParts s s1 := State.each_frame _ fun t _ => (State.event_frame ..).mono (by decide)
  exact .ite (h1.trans (((State.outOfService_frame ..).mono (by decide)).trans ((State.event_frame ..).mono (by decide)))) h1

theorem State.centralCheck_frame (s : State) : Frame negParts s s.centralCheck := by
  unfold State.centralCheck
  extract_lets hs lacks s1
  have h1 : Frame negParts s s1 := (s.modStk_frame _).mono (by decide)
  exact .ite (h1.trans ((State.event_frame ..).mono (by decide))) h1

theorem State.centralCheck_rates (s : State) : s.centralCheck.stk.rates = s.stk.rates := by
  unfold State.centralCheck
  extract_lets hs lacks s1
  split
  · rw [State.event_stk]
    rfl
  · rfl

/-- Layers negotiated and fuse maps resolved. -/
def State.layersMet (s : State) (e : StartEnv) : State :=
  let env (l : Nat) : LayerEnv := e.layers.getD l ⟨false, 0, []⟩
  let s1 := s.each (List.range 16) fun s l =>
    let x := negLayer (env l)
    let s' := s.modStk fun k => { k with layers := Tab.set Layer.reset k.layers l x }
    if x.fenced then s'.negFence l x.fcause else s'
  let s2 := State.negRates 16 s1
  s2.each s2.stk.openLayers fun s l => s.each (env l).fuses fun s pw =>
    if pw.1 < 9 then s.fuseMap (9 * l + pw.1) pw.2 else s

/-- The stack-wide features and limits. -/
def State.limitsSet (s : State) : State :=
  let ls := s.stk.openLayers
  let hs := ls.filter s.layerHolds
  s.modStk fun k =>
    { k with rates := if ls.isEmpty then 0 else k.commonRates
             feats := if hs.isEmpty then 0 else hs.foldl (fun a l => a &&& (k.layer l).feat) 15
             tdMin := ((hs.map fun l => (k.layer l).td).min?).getD 0
             fMax := ((hs.map fun l => (k.layer l).fmax).max?).getD 0
             psum := (ls.map fun l => (k.layer l).pmax).sum }

/-- The repair resources of the layers `ls`, and the slices of fenced layers out of service. -/
def State.sparesSet (s : State) (e : StartEnv) (ls : List Nat) : State :=
  let s5 := s.each ls fun s l =>
    let d := (e.layers.getD l ⟨false, 0, []⟩).raw
    s.each (List.range 9) fun s x => s.modRep (9 * l + x) fun r =>
      { r with unitsLeft := fld d (8 * 0x3C) 16, rowsInit := fld d (8 * 0x3E) 16 }
  (s5.each ((List.range 144).filter fun p => (s5.stk.layer (layerOf p)).fenced) State.outOfService).modTherm fun t =>
    { t with zqCode := e.zq.toNat }

theorem State.negotiate_eq (s : State) (e : StartEnv) :
    s.negotiate e = ((s.layersMet e).limitsSet.sparesSet e (s.layersMet e).stk.openLayers).centralCheck := rfl

theorem State.layersMet_frame (s : State) (e : StartEnv) : Frame negParts s (s.layersMet e) := by
  unfold State.layersMet
  extract_lets env s1 s2
  have h1 : Frame negParts s s1 := State.each_frame _ fun t l => by
    have hset : Frame negParts t (t.modStk fun k => { k with layers := Tab.set Layer.reset k.layers l (negLayer (env l)) }) :=
      (State.modStk_frame ..).mono (by decide)
    exact .ite (hset.trans (State.negFence_frame ..)) hset
  have h2 : Frame negParts s1 s2 := State.negRates_frame ..
  exact (h1.trans h2).trans (State.each_frame _ fun t l => State.each_frame _ fun u pw => .ite (State.fuseMap_frame ..) (.refl ..))

theorem State.sparesSet_frame (s : State) (e : StartEnv) (ls : List Nat) : Frame [.slices, .therm] s (s.sparesSet e ls) := by
  unfold State.sparesSet
  extract_lets s5
  have h5 : Frame [.slices, .therm] s s5 := State.each_frame _ fun t l => State.each_frame _ fun u x => (State.modSlice_frame ..).mono (by decide)
  exact (h5.trans ((State.outOfServices_frame ..).mono (by decide))).trans ((State.modTherm_frame ..).mono (by decide))

/-- The rate points that layers have in common are among four. -/
theorem Stack.commonRates_lt (k : Stack) : k.commonRates < 16 := by
  have hfold (l : List Nat) : ∀ a, a ≤ 15 → l.foldl (fun a l => a &&& (k.layer l).rates) a ≤ 15 := by
    induction l with
    | nil => exact fun a h => h
    | cons x l ih => exact fun a h => ih _ (Nat.and_le_left.trans h)
  exact Nat.lt_succ_of_le (hfold k.openLayers 15 (Nat.le_refl _))

theorem State.negotiate_spec (s : State) (e : StartEnv) : (s.negotiate e).stk.rates < 16 ∧ Frame negParts s (s.negotiate e) := by
  rw [State.negotiate_eq]
  have hmet := s.layersMet_frame e
  generalize s.layersMet e = a at *
  have hset : Frame negParts a a.limitsSet := (State.modStk_frame ..).mono (by decide)
  have hrates : a.limitsSet.stk.rates < 16 := by
    change (if a.stk.openLayers.isEmpty then 0 else a.stk.commonRates) < 16
    split
    · decide
    · exact a.stk.commonRates_lt
  generalize a.limitsSet = b at *
  have hspares := b.sparesSet_frame e a.stk.openLayers
  have hstk : (b.sparesSet e a.stk.openLayers).stk = b.stk := hspares.2 .stk (by decide)
  generalize b.sparesSet e a.stk.openLayers = c at *
  rw [State.centralCheck_rates, hstk]
  exact ⟨hrates, hmet.trans (hset.trans ((hspares.mono (by decide)).trans c.centralCheck_frame))⟩

/-- Of four rate points one stands first, where there is one. -/
theorem firstRate_of_ne_zero {r : Nat} (h : r ≠ 0) (hlt : r < 16) :
    (List.range 4).find? (fun i => r.testBit i) = some (((List.range 4).find? fun i => r.testBit i).getD 0) := by
  have hall : ∀ r < 16, r ≠ 0 → (List.range 4).find? (fun i => r.testBit i) = some (((List.range 4).find? fun i => r.testBit i).getD 0) := by decide
  exact hall r hlt h

end Sys2Proof.Machine
end

section
/-! ### Start-up, steps 1 to 7 (R891) -/

namespace Sys2Proof.Machine

variable {s t u : State}

/-- What start-up may touch. -/
abbrev startParts : List Part := [.sys, .cfg, .stk, .slices, .fab, .det, .ring, .therm, .ctl, .evt, .mbx]

/-- Between `s` and `t` start-up has gone on: the counter, the resets and the ring stop's own settings stay. -/
structure State.Starts (s t : State) : Prop where
  sys : t.sys = { s.sys with
    rails := t.sys.rails, phase := t.sys.phase, env := t.sys.env, rate := t.sys.rate, free := t.sys.free }
  ring : t.ring.id = s.ring.id ∧ t.ring.en = s.ring.en
  frame : Frame startParts s t

namespace State.Starts

theorem trans (h1 : Starts s t) (h2 : Starts t u) : Starts s u :=
  ⟨by rw [h2.sys, h1.sys], ⟨h2.ring.1.trans h1.ring.1, h2.ring.2.trans h1.ring.2⟩, h1.frame.trans h2.frame⟩

theorem of_frame {ps : List Part} (h : Frame ps s t)
    (hps : ∀ q ∈ ps, q ∈ [Part.cfg, .stk, .slices, .fab, .det, .therm, .ctl, .evt, .mbx] := by decide) : Starts s t := by
  have hring : t.ring = s.ring := h.2 .ring fun hq => absurd (hps _ hq) (by decide)
  have hsys : t.sys = s.sys := h.2 .sys fun hq => absurd (hps _ hq) (by decide)
  refine ⟨by rw [hsys], by rw [hring]; exact ⟨rfl, rfl⟩, h.mono fun q hq => ?_⟩
  exact (by decide : ∀ q ∈ [Part.cfg, .stk, .slices, .fab, .det, .therm, .ctl, .evt, .mbx], q ∈ startParts) q (hps q hq)

theorem of_boots (h : Boots s t) : Starts s t := by
  have hring : t.ring = s.ring := h.frame.2 .ring (by decide)
  exact ⟨by rw [h.sys], by rw [hring]; exact ⟨rfl, rfl⟩, h.frame.mono (by decide)⟩

end State.Starts

/-- Cfg written in every unit. -/
theorem State.writeCfg_starts (s : State) (c : Cfg) : State.Starts s (s.writeCfg c) := by
  refine ⟨rfl, ⟨rfl, rfl⟩, .of rfl fun q => ?_⟩
  cases q <;> first | exact .inl (by decide) | exact .inr rfl

theorem State.selectBoot_starts (s : State) (answers : Bool) : State.Starts s (s.selectBoot answers) := by
  have hreject (t : State) (i : Nat) (r : BitVec 8 ⊕ Cfg) : Frame [.evt, .mbx] t (t.rejectCopy i r) := by
    unfold State.rejectCopy
    split
    · exact .ite (.refl ..) (State.event_frame ..)
    · exact .refl ..
  unfold State.selectBoot
  extract_lets a b r s1 s2 s3
  have h1 : Frame [.evt, .mbx] s s1 := (hreject ..).trans (hreject ..)
  have h2 : Frame [.evt, .mbx] s1 s2 := .ite (State.event_frame ..) (.refl ..)
  have h3 : Frame [.ctl] s2 s3 := State.modCtl_frame ..
  have hprog : Starts (s3.writeCfg r.1) ((s3.writeCfg r.1).modFab fun f => { f with progs := r.1.progs }) := .of_frame (State.modFab_frame ..)
  exact (((Starts.of_frame h1).trans (.of_frame h2)).trans (.of_frame h3)).trans ((s3.writeCfg_starts r.1).trans hprog)

theorem State.clampStart_boots (s : State) : State.Boots s s.clampStart := by
  unfold State.clampStart
  extract_lets r s1 bad
  have hcfg : Boots s { s with cfg := r.1 } := .of_frame (ps := [.cfg]) (.of rfl fun q => by cases q <;> first | exact .inl (by decide) | exact .inr rfl)
  have h1 : Boots { s with cfg := r.1 } s1 := .each (fun t e => .of_frame (State.event_frame ..)) _ _
  have h2 : Boots s1 (s1.each bad fun s ip => s.event .cfgClamped 0 (2 + ip.1 * 2 ^ 8)) := .each (fun t e => .of_frame (State.event_frame ..)) _ _
  exact (hcfg.trans h1).trans (h2.trans (.of_frame (State.modFab_frame ..)))

/-- The bundles trained, and the remap table built. -/
theorem State.bootTrains_boots (s : State) (ps : List Nat) (o : Nat → TrainOutcome) :
    Boots s (s.each ps fun s p => s.trainSlice p (o p)).nextFree.buildRemap := by
  have h5 : Boots s (s.each ps fun s p => s.trainSlice p (o p)) := .each (fun t p => .of_frame (State.trainSlice_frame ..)) _ s
  exact h5.trans ((State.Boots.nextFree _).trans (.buildRemap _))

/-- Start-up, whole. -/
theorem State.startUp_spec (s : State) (e : StartEnv) : Starts s (s.startUp e) ∧ (s.startUp e).sys.rails = 7 ∧
    ((s.startUp e).stk.rates = 0 → (s.startUp e).sys.phase = .negotiation ∧ ∀ x ∈ (s.startUp e).stk.remap, x.st = .fenced) ∧
    ((s.startUp e).stk.rates ≠ 0 → (s.startUp e).sys.phase = .zeroing ∧
      (List.range 4).find? (fun r => (s.startUp e).stk.rates.testBit r) = some (s.startUp e).sys.rate) := by
  unfold State.startUp
  extract_lets put bad s1 s2 s3 rate s4 ps s5
  have hs1 : Starts s s1 := .of_frame (State.modCtl_frame ..)
  have hs2 : Starts s1 s2 := by
    have hboot := s1.selectBoot_starts e.bootAnswers
    unfold s2
    generalize s1.selectBoot e.bootAnswers = a at *
    have hfree := State.Boots.nextFree a
    generalize a.nextFree = b at *
    have hmeters := (State.Meters.initMeters b (List.range 48)).frame
    generalize b.initMeters (List.range 48) = c at *
    exact (hboot.trans (.of_boots hfree)).trans ((State.Starts.of_frame hmeters).trans ⟨rfl, ⟨rfl, rfl⟩, (State.modSys_frame ..).mono (by decide)⟩)
  have hrails : s2.sys.rails = 7 ∧ s2.sys.phase = .negotiation := ⟨rfl, rfl⟩
  clear_value s2 s1
  have hneg (a : State) (ha : s2.negotiate e = a) : a.stk.rates < 16 ∧ Frame negParts s2 a := by
    rw [← ha]
    exact s2.negotiate_spec e
  obtain ⟨hlt, hneg⟩ := hneg s3 rfl
  have hs3 := (hs1.trans hs2).trans (.of_frame hneg)
  have hs3sys : s3.sys = s2.sys := hneg.2 .sys (by decide)
  have hrate : rate = ((List.range 4).find? fun r => s3.stk.rates.testBit r).getD 0 := rfl
  have htrain := s4.bootTrains_boots ps fun p => ((e.train.find? fun x => x.1 == p).map (·.2)).getD ⟨[], false, []⟩
  change Boots s4 s5.nextFree.buildRemap at htrain
  have hs4 : Starts s3 s4 ∧ s4.sys.rate = rate ∧ s4.sys.rails = s3.sys.rails ∧ s4.stk.rates = s3.stk.rates := by
    have hclamp : Boots s3 s3.clampStart.newPd := s3.clampStart_boots.trans (.of_frame (State.modDet_frame ..))
    unfold s4
    generalize s3.clampStart.newPd = c at *
    refine ⟨(State.Starts.of_boots hclamp).trans ⟨rfl, ⟨rfl, rfl⟩, ?_⟩, rfl, ?_, hclamp.rates⟩
    · exact ((State.modSys_frame ..).mono (by decide)).trans ((State.modTherm_frame ..).mono (by decide))
    · change c.sys.rails = _
      rw [hclamp.sys]
  obtain ⟨hs4, hs4rate, hs4rails, hs4rates⟩ := hs4
  generalize s5.nextFree.buildRemap = f at *
  clear_value s4 rate s3
  split
  · next h0 =>
    have hend : Frame [.det, .stk] s3 s3.newPd.fenceAll := ((State.modDet_frame ..).mono (by decide)).trans ((State.modStk_frame ..).mono (by decide))
    have hsys : s3.newPd.fenceAll.sys = s2.sys := (hend.2 .sys (by decide)).trans hs3sys
    refine ⟨hs3.trans (.of_frame hend), by rw [hsys]; exact hrails.1, fun _ => ⟨by rw [hsys]; exact hrails.2, fun x hx => ?_⟩, fun hne => absurd h0 hne⟩
    obtain ⟨y, -, rfl⟩ := List.mem_map.1 hx
    rfl
  · next hne =>
    have hlast : Starts f (f.modSys fun y => { y with phase := .zeroing }) := ⟨rfl, ⟨rfl, rfl⟩, (State.modSys_frame ..).mono (by decide)⟩
    have hfsys : (f.modSys fun y => { y with phase := .zeroing }).sys = { f.sys with phase := .zeroing } := rfl
    have hfstk : (f.modSys fun y => { y with phase := .zeroing }).stk = f.stk := rfl
    generalize (f.modSys fun y => { y with phase := .zeroing }) = g at *
    have hrates : g.stk.rates = s3.stk.rates := by rw [hfstk, htrain.rates, hs4rates]
    refine ⟨hs3.trans (hs4.trans ((State.Starts.of_boots htrain).trans hlast)), ?_, fun h => ?_, fun _ => ?_⟩
    · rw [hfsys, htrain.sys]
      exact hs4rails.trans ((congrArg Sys.rails hs3sys).trans hrails.1)
    · rw [hrates] at h
      exact absurd h hne
    · rw [hrates, hfsys, htrain.sys]
      change .zeroing = Phase.zeroing ∧ _ = some s4.sys.rate
      rw [hs4rate, hrate]
      exact ⟨rfl, firstRate_of_ne_zero hne hlt⟩

/-- The counter runs, the ring stop has its identity, and BIST and scan have ended (R33, R926). -/
def State.porReleased (s : State) (e : StartEnv) : State :=
  let s1 := (s.modSys fun y => { y with porN := true }).modRing fun r => { r with id := e.ringId.toNat, en := e.instEn }
  { s1 with wrap := { s1.wrap with bistRun := false, undef := false } }

theorem exec_kxPorNRelease (e : StartEnv) : exec (.kxPorNRelease e) s = .next (if s.sys.porN = true then s else (s.porReleased e).startUp e) := rfl

theorem exec_kxPorNRelease_starts (e : StartEnv) (hpor : s.sys.porN = false) : ∃ t, exec (.kxPorNRelease e) s = .next t ∧
    t.sys.porN = true ∧ t.sys.rails = 7 ∧
    t.sys.ltc = s.sys.ltc ∧ t.ring.id = e.ringId.toNat ∧ t.ring.en = e.instEn ∧ t.wrap.bistRun = false ∧
    t.wrap.undef = false ∧ t.mem = s.mem ∧ t.sys.ready = s.sys.ready ∧
    (t.stk.rates = 0 → t.sys.phase = .negotiation ∧ ∀ x ∈ t.stk.remap, x.st = .fenced) ∧
    (t.stk.rates ≠ 0 → t.sys.phase = .zeroing ∧ (List.range 4).find? (fun r => t.stk.rates.testBit r) = some t.sys.rate) := by
  obtain ⟨hstarts, hrails, hnone, hsome⟩ := (s.porReleased e).startUp_spec e
  refine ⟨_, (exec_kxPorNRelease e).trans (congrArg _ (if_neg (by simp [hpor]))), ?_⟩
  generalize (s.porReleased e).startUp e = t at *
  have hwrap : t.wrap = (s.porReleased e).wrap := hstarts.frame.2 .wrap (by decide)
  refine ⟨?_, hrails, ?_, hstarts.ring.1, hstarts.ring.2, ?_, ?_, hstarts.frame.2 .mem (by decide), ?_, hnone, hsome⟩
  · rw [hstarts.sys]
    rfl
  · rw [hstarts.sys]
    rfl
  · rw [hwrap]
    rfl
  · rw [hwrap]
    rfl
  · rw [hstarts.sys]
    rfl

end Sys2Proof.Machine
end

section
/-! ### A warm reset (R883, R885) -/

namespace Sys2Proof.Machine

variable {s t u : State}

/-- Between `s` and `t` a warm reset has gone on: operations have ended and buffers have drained, and the settings stay. -/
structure State.Warms (s t : State) : Prop where
  sys : t.sys = { s.sys with free := t.sys.free }
  lines : t.fab.lines = s.fab.lines
  frame : Frame [.sys, .slices, .fab, .mem, .ctl, .evt, .mbx] s t

namespace State.Warms

theorem refl (s : State) : Warms s s := ⟨rfl, rfl, .refl ..⟩

theorem trans (h1 : Warms s t) (h2 : Warms t u) : Warms s u := ⟨by rw [h2.sys, h1.sys], h2.lines.trans h1.lines, h1.frame.trans h2.frame⟩

theorem ite {c : Prop} [Decidable c] (h1 : Warms s t) (h2 : Warms s u) : Warms s (if c then t else u) := by
  split
  · exact h1
  · exact h2

theorem each {α : Type} {f : State → α → State} (h : ∀ s a, Warms s (f s a)) (l : List α) (s : State) : Warms s (s.each l f) :=
  State.each_induct (P := Warms s) (fun t a ht => ht.trans (h t a)) l (refl s)

theorem of_drains (h : DrainActs s t) : Warms s t :=
  ⟨by rw [h.frame.2 .sys (by decide)], by rw [h.fab], h.frame.mono (by decide)⟩

theorem of_frame {ps : List Part} (h : Frame ps s t) (hps : ∀ q ∈ ps, q ∈ [Part.slices, .mem, .ctl, .evt, .mbx] := by decide) : Warms s t :=
  of_drains (.of_frame h hps)

theorem opEffect (s : State) (p : Nat) (o : OpWord) : Warms s (s.opEffect p o) := by
  have hrow : Warms s (s.each (s.slice p).brew.banks fun s b => s.rowOp p b o) := by
    rw [State.each_rowOp]
    exact each (fun t x => of_frame (t.rowStep_frame p o x)) _ s
  unfold State.opEffect
  dsimp only
  exact ite hrow (ite (of_frame (State.modSlice_frame ..)) (refl s))

theorem endRowOp (s : State) (p : Nat) : Warms s (s.endRowOp p) := by
  unfold State.endRowOp
  dsimp only
  split
  · exact ite (opEffect ..) (refl s)
  · exact refl s

theorem calYield (s : State) (p : Nat) : Warms s (s.calYield p) := of_frame (s.calYield_frame p)

theorem islandEnds (s : State) (p : Nat) : Warms s (((s.endRowOp p).drainWrites p).calYield p) :=
  ((endRowOp s p).trans (of_drains (.drainWrites _ p))).trans (calYield _ p)

theorem writeNow (s : State) (e : Entry) (a : Acc) : Warms s (s.writeNow e a) := by
  unfold State.writeNow
  exact ite (refl s) (of_drains (.setCode ..))

theorem maybeWrites (s : State) : Warms s s.maybeWrites := by
  unfold State.maybeWrites
  extract_lets l
  have hfree : Warms s { s with sys := { s.sys with free := s.sys.free + l.length } } :=
    ⟨rfl, rfl, (State.modSys_frame s fun y => { y with free := y.free + l.length }).mono (by decide)⟩
  refine ite (refl s) (hfree.trans ?_)
  exact each (fun t i => by
    split
    · exact ite (refl t) (writeNow ..)
    · exact refl t) (List.range l.length) _

theorem settleBands (s : State) : Warms s s.settleBands := of_frame s.settleBands_frame

end State.Warms

/-- What has drained of a warm reset, before its registers are cleared. -/
def State.warmDrained (s : State) : State :=
  (s.each (List.range 144) fun s p => ((s.endRowOp p).drainWrites p).calYield p).maybeWrites.settleBands

theorem State.warmReset_eq (s : State) : s.warmReset = s.warmDrained.warmTherm.warmDet.warmStack.warmCleared := rfl

theorem State.warmDrained_warms (s : State) : Warms s s.warmDrained := by
  have h1 : Warms s (s.each (List.range 144) fun s p => ((s.endRowOp p).drainWrites p).calYield p) := .each State.Warms.islandEnds _ s
  unfold State.warmDrained
  exact (h1.trans (.maybeWrites _)).trans (.settleBands _)

theorem State.warmDrained_kept (h : s.Kept cmds) : s.warmDrained.Kept cmds := by
  have h1 : (s.each (List.range 144) fun s p => ((s.endRowOp p).drainWrites p).calYield p).Kept cmds :=
    State.each_kept h fun p => State.Keeps.mk fun _ ht => State.calYield_kept (State.drainWrites_kept (State.endRowOp_kept ht p) p) p
  exact State.settleBands_kept (State.maybeWrites_kept h1)

/-- Every value of a table with each value changed is one that the change made, or the default. -/
theorem Tab.get_mapVals_of {α : Type} [DecidableEq α] {d : α} {P : α → Prop} {f : Nat → α → α} (hd : P d) (hf : ∀ k x, P (f k x)) (t : Tab α) (k : Nat) :
    P (Tab.get d (Tab.mapVals d f t) k) := by
  induction t with
  | nil => exact hd
  | cons a t ih =>
    unfold Tab.mapVals
    split
    · exact ih
    · unfold Tab.get
      split
      · exact hf ..
      · exact ih

/-- A table written number by number. -/
theorem Tab.get_foldl_set {α : Type} [DecidableEq α] {d : α} {f : Nat → α} {ks : List Nat} {t : Tab α} (h : Tab.wf d t = true) (hks : ks.Nodup) (k : Nat) :
    Tab.get d (ks.foldl (fun t i => Tab.set d t i (f i)) t) k = if k ∈ ks then f k else Tab.get d t k := by
  induction ks generalizing t with
  | nil => simp
  | cons a ks ih =>
    obtain ⟨hnot, hnodup⟩ := List.nodup_cons.1 hks
    rw [List.foldl_cons, ih (Tab.set_wf h) hnodup]
    by_cases hk : k ∈ ks
    · rw [if_pos hk, if_pos (List.mem_cons_of_mem _ hk)]
    · rw [if_neg hk]
      by_cases hka : k = a
      · rw [hka, Tab.get_set_self _ h, if_pos List.mem_cons_self]
      · rw [Tab.get_set_ne _ hka, if_neg (by simp [hk, hka])]

end Sys2Proof.Machine
end

section
/-! ### What a warm reset clears (R575, R883 to R888), and KX_RST_N_ASSERT -/

namespace Sys2Proof.Machine

variable {s t u : State}

theorem State.warmTherm_spec (s : State) : s.warmTherm.therm.hotSlice = 0 ∧
    (∀ i, (Tab.get Sensor.reset s.warmTherm.therm.sens i).value = 0x8000 ∧ (Tab.get Sensor.reset s.warmTherm.therm.sens i).dev = false) ∧
    Frame [.therm, .evt, .mbx] s s.warmTherm := by
  have hevent : Frame [.therm, .evt, .mbx] s (if s.therm.enforce then s.event .thermEnforce 0 0 else s) :=
    .ite ((State.event_frame ..).mono (by decide)) (.refl ..)
  unfold State.warmTherm
  extract_lets s1
  change Frame [.therm, .evt, .mbx] s s1 at hevent
  clear_value s1
  refine ⟨rfl, fun i => ?_, hevent.trans ((State.modTherm_frame ..).mono (by decide))⟩
  exact Tab.get_mapVals_of (P := fun x : Sensor => x.value = 0x8000 ∧ x.dev = false) ⟨rfl, rfl⟩ (fun _ _ => ⟨rfl, rfl⟩) s1.therm.sens i

/-- Every stream as its key restarts it. -/
def Cfg.restarted (c : Cfg) : Tab Stream := (List.range 16).foldl (fun t i => Tab.set Stream.reset t i (Stream.restart (c.digKeyAt i))) []

theorem Cfg.get_restarted (c : Cfg) {i : Nat} (hi : i < 16) : Tab.get Stream.reset c.restarted i = Stream.restart (c.digKeyAt i) := by
  unfold Cfg.restarted
  rw [Tab.get_foldl_set (f := fun i => Stream.restart (c.digKeyAt i)) rfl List.nodup_range]
  exact if_pos (List.mem_range.2 hi)

theorem State.warmDet_eq (s : State) : s.warmDet = s.modDet fun d => { Det.reset with mode := d.mode, pd := d.pd, streams := s.cfg.restarted } := rfl

theorem State.warmDet_spec (s : State) : s.warmDet.det.mode = s.det.mode ∧
    (∀ i, i < 16 → s.warmDet.stream i = Stream.restart (s.cfg.digKeyAt i)) ∧ Frame [.det] s s.warmDet := by
  rw [State.warmDet_eq]
  refine ⟨rfl, fun i hi => ?_, State.modDet_frame ..⟩
  rw [State.stream]
  dsimp only [State.modDet]
  exact s.cfg.get_restarted hi

theorem State.warmStack_frame (s : State) : Frame [.slices, .stk] s s.warmStack := by
  unfold State.warmStack
  extract_lets rb s1
  have h1 : Frame [.slices] s s1 := State.each_frame _ fun t m => State.modSlice_frame ..
  exact (h1.mono (by decide)).trans ((State.modStk_frame ..).mono (by decide))

/-- The registers cleared. -/
structure State.WarmClears (s t : State) : Prop where
  sys : t.sys = { s.sys with rstEnd := true, rstDue := false, phase := .romBoot, ready := false, entering := false, wakeSeen := false }
  ports : t.ports = []
  blp : t.blp = Blp.reset
  mc : t.mc = none
  mbx : t.mbx = Mbx.reset
  fab : t.fab = s.fab.warm
  slices : t.slices = Tab.mapVals Slice.reset (fun _ x => x.warm) s.slices
  ring : t.ring.present = false
  frame : Frame [.sys, .ports, .blp, .mc, .mbx, .fab, .slices, .ctl, .ring] s t

theorem State.warmCleared_clears (s : State) : WarmClears s s.warmCleared := by
  refine ⟨rfl, rfl, rfl, rfl, rfl, rfl, rfl, rfl, .of rfl fun q => ?_⟩
  cases q <;> first | exact .inl (by decide) | exact .inr rfl

/-- An island after a warm reset. -/
theorem Slice.warm_spec (x : Slice) : x.warm.dat.wb = [] ∧ x.warm.dat.fow = [] ∧ x.warm.dat.lines = [] ∧ x.warm.temp = 0x8000 ∧
    x.warm.rf.band = 0 ∧ x.warm.rf.subst = false ∧ x.warm.scr = Scrub.reset := ⟨rfl, rfl, rfl, rfl, rfl, rfl, rfl⟩

theorem Fab.warm_spec (f : Fab) : f.warm.trk = [] ∧ f.warm.mq = [] ∧ f.warm.masked = f.lines ∧ f.warm.lines = f.lines := ⟨rfl, rfl, rfl, rfl⟩

/-- The system registers of a warm reset, from those that the drain has left. -/
theorem Sys.warmed {x y z : Sys} {n : Nat} (hy : y = { x with free := n })
    (hz : z = { y with rstEnd := true, rstDue := false, phase := .romBoot, ready := false, entering := false, wakeSeen := false }) :
    z = { x with
      free := z.free, rstEnd := true, rstDue := false, phase := .romBoot, ready := false, entering := false, wakeSeen := false } := by
  rw [hz, hy]

/-- What KX_RST_N_ASSERT leaves of a state. -/
structure State.WarmResets (s t : State) : Prop where
  sys : t.sys = { s.sys with
    free := t.sys.free, rstEnd := true, rstDue := false, phase := .romBoot, ready := false, entering := false, wakeSeen := false }
  cleared : t.ports = [] ∧ t.blp = Blp.reset ∧ t.mc = none ∧ t.mbx = Mbx.reset
  fab : t.fab.trk = [] ∧ t.fab.mq = [] ∧ t.fab.masked = s.fab.lines ∧ t.fab.lines = s.fab.lines
  cfg : t.cfg = s.cfg
  therm : t.therm.hotSlice = 0 ∧ ∀ i, (Tab.get Sensor.reset t.therm.sens i).value = 0x8000 ∧ (Tab.get Sensor.reset t.therm.sens i).dev = false
  det : t.det.mode = s.det.mode ∧ ∀ i, i < 16 → t.stream i = Stream.restart (s.cfg.digKeyAt i)
  slices : ∀ p, ∃ x : Slice, t.slice p = x.warm
  ring : t.ring.present = false

theorem State.warmReset_resets (hcanon : s.Canon) : WarmResets s s.warmReset := by
  have hwarms := s.warmDrained_warms
  have hkept := State.warmDrained_kept (cmds := s.pending) ⟨hcanon, rfl⟩
  rw [State.warmReset_eq]
  generalize s.warmDrained = a at *
  obtain ⟨hhot, hsens, hbframe⟩ := a.warmTherm_spec
  have hkept := State.warmTherm_kept hkept
  generalize a.warmTherm = b at *
  obtain ⟨hmode, hstreams, hcframe⟩ := b.warmDet_spec
  have hkept := State.warmDet_kept hkept
  generalize b.warmDet = c at *
  have hdframe := c.warmStack_frame
  have hkept := State.warmStack_kept hkept
  generalize c.warmStack = d at *
  have hclears := d.warmCleared_clears
  generalize d.warmCleared = t at *
  obtain ⟨⟨-, -, hwf, -⟩, -⟩ := hkept
  have hdsys : d.sys = a.sys := (hdframe.2 .sys (by decide)).trans ((hcframe.2 .sys (by decide)).trans (hbframe.2 .sys (by decide)))
  have hdfab : d.fab = a.fab := (hdframe.2 .fab (by decide)).trans ((hcframe.2 .fab (by decide)).trans (hbframe.2 .fab (by decide)))
  have hbcfg : b.cfg = s.cfg := (hbframe.2 .cfg (by decide)).trans (hwarms.frame.2 .cfg (by decide))
  have htherm : t.therm = b.therm := (hclears.frame.2 .therm (by decide)).trans ((hdframe.2 .therm (by decide)).trans (hcframe.2 .therm (by decide)))
  have htdet : t.det = c.det := (hclears.frame.2 .det (by decide)).trans (hdframe.2 .det (by decide))
  have hbdet : b.det = s.det := (hbframe.2 .det (by decide)).trans (hwarms.frame.2 .det (by decide))
  refine ⟨Sys.warmed (hdsys.trans hwarms.sys) hclears.sys, ⟨hclears.ports, hclears.blp, hclears.mc, hclears.mbx⟩, ?_, ?_, ?_, ?_, fun p => ?_, hclears.ring⟩
  · obtain ⟨htrk, hmq, hmasked, hlines⟩ := a.fab.warm_spec
    rw [hclears.fab, hdfab]
    exact ⟨htrk, hmq, hmasked.trans hwarms.lines, hlines.trans hwarms.lines⟩
  · exact (hclears.frame.2 .cfg (by decide)).trans ((hdframe.2 .cfg (by decide)).trans ((hcframe.2 .cfg (by decide)).trans hbcfg))
  · rw [htherm]
    exact ⟨hhot, hsens⟩
  · refine ⟨by rw [htdet, hmode, hbdet], fun i hi => ?_⟩
    rw [← hbcfg, ← hstreams i hi, State.stream, htdet, State.stream]
  · refine ⟨d.slice p, ?_⟩
    rw [State.slice, hclears.slices]
    exact Tab.get_mapVals hwf rfl

/-- The commit window of a change is open. -/
def State.inWindow (s : State) : Bool :=
  match s.mc with
  | some m => m.committed
  | none => false

theorem exec_kxRstNAssert : exec .kxRstNAssert s = .next (
    if s.sys.porN = false ∨ s.sys.rstN = false then { s with sys := { s.sys with rstN := false } }
    else if s.inWindow = true then { s with sys := { s.sys with rstN := false, rstDue := true } }
    else State.warmReset { s with sys := { s.sys with rstN := false } }) := by
  change execKxRstNAssert s = _
  refine congrArg _ (if_congr ?_ rfl rfl)
  simp only [Bool.or_eq_true, Bool.not_eq_true']

theorem exec_kxRstNAssert_resets (hcanon : s.Canon) (hpor : s.sys.porN = true) (hrst : s.sys.rstN = true) (hmc : ∀ m, s.mc = some m → m.committed = false) :
    ∃ t, exec .kxRstNAssert s = .next t ∧ t.sys.rstN = false ∧ t.sys.rstEnd = true ∧ t.sys.rstDue = false ∧
      t.sys.phase = .romBoot ∧ t.sys.ready = false ∧ t.sys.ltc = s.sys.ltc ∧ t.ports = [] ∧ t.blp = Blp.reset ∧ t.mc = none ∧
      t.mbx = Mbx.reset ∧ t.fab.trk = [] ∧ t.fab.mq = [] ∧ t.fab.masked = s.fab.lines ∧ t.fab.lines = s.fab.lines ∧ t.cfg = s.cfg ∧
      t.therm.hotSlice = 0 ∧ (∀ i, (Tab.get Sensor.reset t.therm.sens i).value = 0x8000 ∧
        (Tab.get Sensor.reset t.therm.sens i).dev = false) ∧
      t.det.mode = s.det.mode ∧ (∀ i, i < 16 → t.stream i = Stream.restart (s.cfg.digKeyAt i)) ∧
      (∀ p, p < 144 → (t.slice p).dat.wb = [] ∧ (t.slice p).dat.fow = [] ∧ (t.slice p).dat.lines = [] ∧
        (t.slice p).temp = 0x8000 ∧ (t.slice p).rf.band = 0 ∧ (t.slice p).rf.subst = false ∧ (t.slice p).scr = Scrub.reset) ∧
      t.ring.present = false := by
  have hwindow : s.inWindow = false := by
    unfold State.inWindow
    split
    · next m hm => exact hmc m hm
    · rfl
  have h := State.warmReset_resets (s := { s with sys := { s.sys with rstN := false } }) hcanon
  refine ⟨_, exec_kxRstNAssert.trans (congrArg _ ((if_neg (by simp [hpor, hrst])).trans (if_neg (by simp [hwindow])))), ?_⟩
  generalize State.warmReset { s with sys := { s.sys with rstN := false } } = t at *
  obtain ⟨hports, hblp, htmc, hmbx⟩ := h.cleared
  obtain ⟨htrk, hmq, hmasked, hlines⟩ := h.fab
  refine ⟨by rw [h.sys], by rw [h.sys], by rw [h.sys], by rw [h.sys], by rw [h.sys], by rw [h.sys], hports, hblp, htmc, hmbx, htrk, hmq, hmasked,
    hlines, h.cfg, h.therm.1, h.therm.2, h.det.1, h.det.2, fun p _ => ?_, h.ring⟩
  obtain ⟨x, hx⟩ := h.slices p
  rw [hx]
  exact x.warm_spec

end Sys2Proof.Machine
end

section
/-! ### KX_RST_N_RELEASE (R886, R887) -/

namespace Sys2Proof.Machine

variable {s t u : State}

/-- Between `s` and `t` full retrains have started: an alignment goes on, and no word on its way is lost. -/
structure State.Retrains (s t : State) : Prop where
  align : t.det.align = s.det.align ∧ t.det.alignBoot = s.det.alignBoot
  words : ∀ x ∈ s.ctl.words, x ∈ t.ctl.words
  frame : Frame [.slices, .det, .ctl, .evt, .mbx] s t

namespace State.Retrains

theorem refl (s : State) : Retrains s s := ⟨⟨rfl, rfl⟩, fun _ h => h, .refl ..⟩

theorem trans (h1 : Retrains s t) (h2 : Retrains t u) : Retrains s u :=
  ⟨⟨h2.align.1.trans h1.align.1, h2.align.2.trans h1.align.2⟩, fun x hx => h2.words x (h1.words x hx), h1.frame.trans h2.frame⟩

theorem ite {c : Prop} [Decidable c] (h1 : Retrains s t) (h2 : Retrains s u) : Retrains s (if c then t else u) := by
  split
  · exact h1
  · exact h2

theorem modSlice (s : State) (p : Nat) (f : Slice → Slice) : Retrains s (s.modSlice p f) := ⟨⟨rfl, rfl⟩, fun _ h => h, (s.modSlice_frame ..).mono (by decide)⟩

theorem stat (s : State) (page slot n : Nat) : Retrains s (s.stat page slot n) := by
  refine ⟨by rw [State.stat, State.count_det]; exact ⟨rfl, rfl⟩, fun x hx => ?_, (State.count_frame ..).mono (by decide)⟩
  rw [State.stat, State.count_ctl]
  exact hx

theorem detBreak (s : State) (cause : Nat) : Retrains s (s.detBreak cause) := by
  have hframe := s.detBreak_frame cause
  refine ⟨?_, fun x hx => ?_, hframe.mono (by decide)⟩
  · unfold State.detBreak
    split
    · split
      · exact ⟨rfl, rfl⟩
      · rw [State.event_det]
        exact ⟨rfl, rfl⟩
    · exact ⟨rfl, rfl⟩
  · rw [hframe.2 .ctl (by decide)]
    exact hx

theorem calYield (s : State) (p : Nat) : Retrains s (s.calYield p) := ite ((modSlice ..).trans (stat ..)) (refl s)

theorem holdChan (s : State) (p : Nat) : Retrains s (s.holdChan p) := by
  have hpass : Retrains s (s.icqPass 3 p) := ⟨⟨rfl, rfl⟩, fun _ h => h, (s.icqPass_frame 3 p).mono (by decide)⟩
  unfold State.holdChan
  by_cases h : s.icqSeen 3 p ≤ s.sys.ltc
  · rw [State.tell_of_seen h]
    exact hpass.trans (modSlice (s.icqPass 3 p) p fun x => { x with sch := { x.sch with held := x.sch.held + 1 } })
  · rw [State.tell_of_unseen h]
    exact hpass.trans ⟨⟨rfl, rfl⟩, fun x hx => List.mem_append_left _ hx, (State.modCtl_frame ..).mono (by decide)⟩

theorem startRetrain (s : State) (p cause : Nat) : Retrains s (s.startRetrain p cause) := by
  unfold State.startRetrain
  extract_lets l s1 s2
  have h1 : Retrains s s1 := ((detBreak ..).trans (calYield ..)).trans (stat ..)
  have h2 : Retrains s s2 := h1.trans (modSlice ..)
  exact ite (refl s) (ite h2 (h2.trans (holdChan ..)))

theorem againRetrain (s : State) (p : Nat) : Retrains s (s.againRetrain p) := by
  unfold State.againRetrain
  extract_lets l s1
  exact ite (refl s) ((modSlice ..).trans (startRetrain ..))

theorem each {α : Type} {f : State → α → State} (h : ∀ s a, Retrains s (f s a)) (l : List α) (s : State) : Retrains s (s.each l f) :=
  State.each_induct (P := Retrains s) (fun t a ht => ht.trans (h t a)) l (refl s)

end State.Retrains

/-- Start-up from a state `s`, where the environment of the first one is known. -/
def State.startAgain (s : State) : Option StartEnv → State
  | some e => s.startUp e
  | none => s

theorem State.startAgain_spec (s : State) (e : Option StartEnv) : (s.startAgain e).sys.rstN = s.sys.rstN ∧
    (s.startAgain e).sys.rstEnd = s.sys.rstEnd ∧ (s.startAgain e).sys.ltc = s.sys.ltc ∧ (s.startAgain e).mem = s.mem := by
  cases e with
  | none => exact ⟨rfl, rfl, rfl, rfl⟩
  | some e =>
    obtain ⟨hstarts, -⟩ := s.startUp_spec e
    rw [State.startAgain]
    generalize s.startUp e = t at *
    rw [hstarts.sys]
    exact ⟨rfl, rfl, rfl, hstarts.frame.2 .mem (by decide)⟩

/-- The state from which a warm reset before READY starts up again (R887). -/
def State.restarted (s : State) : State :=
  let f := s.cleared
  { f with
    sys := { f.sys with ltc := s.sys.ltc, fabLag := s.sys.fabLag, fabHeld := s.sys.fabHeld, porN := true, free := s.sys.free }
    evt := s.evt, therm := s.therm
    ctl := { f.ctl with tlm := s.ctl.tlm, icqs := s.ctl.icqs, staging := s.ctl.staging, win := s.ctl.win }
    slices := Tab.mapVals Slice.reset (fun _ x =>
      { Slice.reset with
        lag := x.lag, lagHeld := x.lagHeld, level := x.level, temp := x.temp,
        sch := { Sched.reset with cclk := x.sch.cclk, stop := s.therm.latch }
        link := { Link.reset with failed := x.link.failed, calLtc := x.link.calLtc, calTemp := x.link.calTemp, calCnt := x.link.calCnt, trained := x.link.trained } }) s.slices }

theorem State.restart_eq (s : State) : s.restart = s.restarted.startAgain s.sys.env := by
  unfold State.restart State.startAgain
  cases s.sys.env <;> rfl

/-- What KX_RST_N_RELEASE keeps where start-up runs again. -/
theorem State.restart_spec (s : State) : s.restart.sys.rstN = s.sys.rstN ∧ s.restart.sys.rstEnd = false ∧ s.restart.sys.ltc = s.sys.ltc ∧
    s.restart.mem = s.mem := by
  obtain ⟨h1, h2, h3, h4⟩ := s.restarted.startAgain_spec s.sys.env
  rw [State.restart_eq]
  exact ⟨h1, h2, h3, h4⟩

/-- Slices awake, with the image in force written and the meters started. -/
def State.warmAwake (s : State) : State :=
  let s1 := (s.writeCfg (s.stk.clampCfg (cfgOfImage s.cfg.image)).1).initMeters (List.range 48)
  let live := s1.boundSlices ++ (s1.stk.migs.map (·.new))
  let phys := s1.each ((List.range 144).filter fun p => (s1.slice p).rep.inServ) fun s p => s.modLink p fun l => { l with phy := true }
  if s1.therm.latch then s1 else phys.each live State.wakeWarm

/-- The retrains that a warm reset has broken off start again. -/
def State.retrainsAgain (s : State) : State :=
  let s4 := s.modSys fun y => { y with frost := false }
  if s4.therm.latch then s4 else s4.each (List.range 144) State.againRetrain

theorem State.warmRelease_eq (s : State) : s.warmRelease = if !s.sys.everReady then (s.modSys fun y => { y with rstEnd := false }).restart
    else (s.modSys fun y => { y with rstEnd := false }).warmAwake.alignOrOpen.retrainsAgain := rfl

theorem State.srxRefresh_frame (s : State) (p : Nat) : Frame [.slices] s (s.srxRefresh p) := by
  have hacc (t : State) (i : Nat) : Frame [.slices] t (State.srxAcc p t i) := by
    unfold State.srxAcc
    exact State.modSlice_frame ..
  have hsrx (t : State) : Frame [.slices] t (t.srx p) := by
    unfold State.srx
    exact State.modSlice_frame ..
  rw [State.srxRefresh_eq]
  exact (State.each_frame _ hacc).trans (hsrx _)

theorem State.floorBand_frame (s : State) (p : Nat) : Frame trainParts s (s.floorBand p) :=
  .ite ((State.modRf_frame ..).trans ((State.count_frame ..).mono (by decide))) (.refl ..)

theorem State.wakeWarm_frame (s : State) (p : Nat) : Frame trainParts s (s.wakeWarm p) := by
  have hcke : Frame trainParts s (s.modLink p fun l => { l with cke := true }) := State.modLink_frame ..
  unfold State.wakeWarm
  exact ((hcke.trans ((State.sendRow_frame ..).mono (by decide))).trans (((State.srxRefresh_frame ..).mono (by decide)).trans
    (State.floorBand_frame ..))).trans ((State.newScrub_frame ..).mono (by decide))

theorem State.warmAwake_spec (s : State) : s.warmAwake.cfg = (s.stk.clampCfg (cfgOfImage s.cfg.image)).1 ∧
    Frame [.cfg, .stk, .ring, .det, .fab, .slices, .ctl, .evt, .mbx] s s.warmAwake := by
  unfold State.warmAwake
  extract_lets s1 live phys
  have hwrite : Frame [.cfg, .stk, .ring, .det] s (s.writeCfg (s.stk.clampCfg (cfgOfImage s.cfg.image)).1) :=
    .of rfl fun q => by cases q <;> first | exact .inl (by decide) | exact .inr rfl
  have hmeters := (State.Meters.initMeters (s.writeCfg (s.stk.clampCfg (cfgOfImage s.cfg.image)).1) (List.range 48)).frame
  have hcfg : s1.cfg = (s.stk.clampCfg (cfgOfImage s.cfg.image)).1 := hmeters.2 .cfg (by decide)
  have h1 : Frame [.cfg, .stk, .ring, .det, .fab, .slices, .ctl, .evt, .mbx] s s1 := (hwrite.mono (by decide)).trans (hmeters.mono (by decide))
  have hphys : Frame trainParts s1 phys := State.each_frame _ fun t p => t.modLink_frame p _
  have hwake : Frame trainParts s1 (phys.each live State.wakeWarm) := hphys.trans (State.each_frame _ State.wakeWarm_frame)
  have hlast : Frame trainParts s1 (if s1.therm.latch then s1 else phys.each live State.wakeWarm) := .ite (.refl ..) hwake
  exact ⟨(hlast.2 .cfg (by decide)).trans hcfg, h1.trans (hlast.mono (by decide))⟩

theorem State.retrainsAgain_spec (s : State) : s.retrainsAgain.sys = { s.sys with frost := false } ∧
    (s.retrainsAgain.det.align = s.det.align ∧ s.retrainsAgain.det.alignBoot = s.det.alignBoot) ∧
    (∀ x ∈ s.ctl.words, x ∈ s.retrainsAgain.ctl.words) ∧ Frame [.sys, .slices, .det, .ctl, .evt, .mbx] s s.retrainsAgain := by
  unfold State.retrainsAgain
  extract_lets s4
  have h4 : Frame [.sys] s s4 := State.modSys_frame ..
  have hagain : Retrains s4 (if s4.therm.latch then s4 else s4.each (List.range 144) State.againRetrain) :=
    .ite (.refl s4) (.each .againRetrain _ s4)
  generalize (if s4.therm.latch then s4 else s4.each (List.range 144) State.againRetrain) = t at *
  exact ⟨hagain.frame.2 .sys (by decide), hagain.align, hagain.words, (h4.mono (by decide)).trans (hagain.frame.mono (by decide))⟩

end Sys2Proof.Machine
end

section
/-! ### The reset lines as stated -/

namespace Sys2Proof.Machine

variable {s t u : State}

/-- A port that takes words has the credits of its kind (R86). -/
def State.Granted (t : State) : Prop := t.sys.phase = .running ∧ t.sys.ready = true ∧ ∀ k, k < 36 → t.isMasked k = false →
  (t.port k).reqCrd = (if k < 32 then 32 else 16) ∧ (t.port k).wdCrd = if k < 32 then 64 else 16

theorem State.Opened.granted (h : Opened s t) : State.Granted t := by
  have hfab : t.fab = s.fab := h.frame.2 .fab (by decide)
  refine ⟨by rw [h.sys], by rw [h.sys], fun k hk hm => ?_⟩
  rw [State.isMasked, hfab] at hm
  obtain ⟨hreq, hwd⟩ := h.ports k hk hm
  simp only [isTile, decide_eq_true_eq] at hreq hwd
  exact ⟨hreq, hwd⟩

theorem exec_zeroingDone_ends (hcanon : s.Canon) (hphase : s.sys.phase = .zeroing) (halign : s.det.align = 0) (hend : s.sys.rstEnd = false) :
    ∃ t, exec .zeroingDone s = .next t ∧
      (s.therm.latch = false → ∀ k, t.code k = if keyPs k ∈ s.boundSlices then 0 else s.code k) ∧
      (s.therm.latch = true → t.mem = s.mem) ∧ t.fab.stale = [] ∧ t.fab.masked = s.fab.masked ∧
      (s.cfg.detMode = .timing → t.det = { s.det with align := 1, alignAt := s.sys.ltc, alignBoot := true } ∧
        s.Tells t 7 0 (.admHold 3) (3 ∈ t.fab.hold) (t.fab.hold = s.fab.hold) ∧
        t.ctl = { s.ctl with icqs := t.ctl.icqs, words := t.ctl.words } ∧ Frame [.mem, .fab, .det, .ctl] s t) ∧
      (s.cfg.detMode ≠ .timing → State.Granted t ∧ t.sys.everReady = true) := by
  obtain ⟨hcode, hlatched⟩ := s.zeroed_mem
  have hframe := s.zeroed_frame
  have hfab := s.zeroed_fab
  have hexec := (exec_zeroingDone (s := s)).trans (congrArg _ (if_neg (by simp [hphase, halign, hend])))
  generalize s.zeroed = u at *
  have hcfg : u.cfg = s.cfg := hframe.2 .cfg (by decide)
  have hsys : u.sys = s.sys := hframe.2 .sys (by decide)
  have hdet : u.det = s.det := hframe.2 .det (by decide)
  have hctl : u.ctl = s.ctl := hframe.2 .ctl (by decide)
  have hmem (t : State) (h : t.mem = u.mem) : (s.therm.latch = false → ∀ k, t.code k = if keyPs k ∈ s.boundSlices then 0 else s.code k) ∧
      (s.therm.latch = true → t.mem = s.mem) := by
    refine ⟨fun hl k => ?_, fun hl => h.trans (hlatched hl)⟩
    rw [← hcode hl k, State.code, h, State.code]
  by_cases hmode : s.cfg.detMode = .timing
  · rw [State.alignOrOpen_timing (by rw [hcfg]; exact hmode)] at hexec
    obtain ⟨htdet, htells, htctl, htframe⟩ := u.alignBegins_spec
    refine ⟨_, hexec, (hmem _ (htframe.2 .mem (by decide))).1, (hmem _ (htframe.2 .mem (by decide))).2, ?_⟩
    generalize u.alignBegins = t at *
    have hholds : t.fab.stale = [] ∧ t.fab.masked = s.fab.masked := by
      unfold State.Tells at htells
      split at htells
      · rw [htells.2, hfab]
        exact ⟨rfl, rfl⟩
      · rw [htells.2, hfab]
        exact ⟨rfl, rfl⟩
    have hseen : u.icqSeen 7 0 = s.icqSeen 7 0 := State.icqSeen_of_mode (by rw [State.icq, hctl, State.icq]) (by rw [hsys]) (by rw [hdet])
    refine ⟨hholds.1, hholds.2, fun _ => ⟨by rw [htdet, hdet, hsys], ?_, by rw [htctl, hctl], (hframe.mono (by decide)).trans (htframe.mono (by decide))⟩,
      fun h => absurd hmode h⟩
    unfold State.Tells at htells ⊢
    rw [hseen, hsys, hctl, hfab] at htells
    split at htells
    · next h =>
      rw [if_pos h]
      refine ⟨htells.1, ?_⟩
      rw [htells.2]
      exact mem_insertNat_self ..
    · next h =>
      rw [if_neg h]
      refine ⟨htells.1, ?_⟩
      rw [htells.2]
  · rw [State.alignOrOpen_other (by rw [hcfg]; exact hmode)] at hexec
    have hports : u.ports = s.ports := hframe.2 .ports (by decide)
    have hopen := State.openUp_opened (s := u) (by rw [hports]; exact hcanon.2.1)
    refine ⟨_, hexec, (hmem _ (hopen.frame.2 .mem (by decide))).1, (hmem _ (hopen.frame.2 .mem (by decide))).2, ?_, ?_,
      fun h => absurd h hmode, fun _ => ⟨hopen.granted, by rw [hopen.sys]⟩⟩
    · rw [hopen.frame.2 .fab (by decide), hfab]
    · rw [hopen.frame.2 .fab (by decide), hfab]

theorem exec_kxRstNRelease : exec .kxRstNRelease s = .next (
    if s.sys.porN = false ∨ s.sys.rstEnd = false then { s with sys := { s.sys with rstN := true } }
    else State.warmRelease { s with sys := { s.sys with rstN := true } }) := by
  change execKxRstNRelease s = _
  have hflip {α : Type} (a b : Bool) (x y : α) : (if (a && b) = true then x else y) = if a = false ∨ b = false then y else x := by
    cases a <;> cases b <;> rfl
  exact congrArg _ (hflip s.sys.porN s.sys.rstEnd _ _)

/-- The release where the device has been ready: admission opens, or the alignment begins. -/
theorem State.warmRelease_opens (hports : Tab.wf Port.reset s.ports = true) (hready : s.sys.everReady = true) :
    s.warmRelease.sys.rstN = s.sys.rstN ∧ s.warmRelease.sys.rstEnd = false ∧ s.warmRelease.sys.ltc = s.sys.ltc ∧ s.warmRelease.mem = s.mem ∧
    s.warmRelease.cfg = (s.stk.clampCfg (cfgOfImage s.cfg.image)).1 ∧
    (s.warmRelease.cfg.detMode = .timing → s.warmRelease.det.align = 1 ∧ s.warmRelease.det.alignBoot = true ∧
      (3 ∈ s.warmRelease.fab.hold ∨ ∃ x ∈ s.warmRelease.ctl.words, x.q = 7 ∧ x.i = 0 ∧ x.what = .admHold 3)) ∧
    (s.warmRelease.cfg.detMode ≠ .timing → State.Granted s.warmRelease) := by
  rw [State.warmRelease_eq, if_neg (by simp [hready])]
  obtain ⟨hcfg, hframe⟩ := (s.modSys fun y => { y with rstEnd := false }).warmAwake_spec
  change _ = (s.stk.clampCfg (cfgOfImage s.cfg.image)).1 at hcfg
  generalize (s.modSys fun y => { y with rstEnd := false }).warmAwake = a at *
  have hasys : a.sys = { s.sys with rstEnd := false } := hframe.2 .sys (by decide)
  have hamem : a.mem = s.mem := hframe.2 .mem (by decide)
  have haports : a.ports = s.ports := hframe.2 .ports (by decide)
  obtain ⟨bsys, balign, bwords, bframe⟩ := a.alignOrOpen.retrainsAgain_spec
  generalize a.alignOrOpen.retrainsAgain = t at *
  have htcfg : t.cfg = a.alignOrOpen.cfg := bframe.2 .cfg (by decide)
  have htmem : t.mem = a.alignOrOpen.mem := bframe.2 .mem (by decide)
  have htfab : t.fab = a.alignOrOpen.fab := bframe.2 .fab (by decide)
  have htports : t.ports = a.alignOrOpen.ports := bframe.2 .ports (by decide)
  by_cases hmode : a.cfg.detMode = .timing
  · obtain ⟨cdet, ctells, -, cframe⟩ := a.alignBegins_spec
    rw [State.alignOrOpen_timing hmode] at *
    generalize a.alignBegins = b at *
    have hbsys : b.sys = a.sys := cframe.2 .sys (by decide)
    have hbcfg : b.cfg = a.cfg := cframe.2 .cfg (by decide)
    refine ⟨by rw [bsys, hbsys, hasys], by rw [bsys, hbsys, hasys], by rw [bsys, hbsys, hasys], htmem.trans ((cframe.2 .mem (by decide)).trans hamem),
      htcfg.trans (hbcfg.trans hcfg), fun _ => ⟨by rw [balign.1, cdet], by rw [balign.2, cdet], ?_⟩, fun h => absurd (by rw [htcfg, hbcfg]; exact hmode) h⟩
    unfold State.Tells at ctells
    split at ctells
    · refine .inl ?_
      rw [htfab, ctells.2]
      exact mem_insertNat_self ..
    · refine .inr ⟨⟨7, 0, a.icqSeen 7 0, .admHold 3⟩, bwords _ ?_, rfl, rfl, rfl⟩
      rw [ctells.1]
      exact List.mem_append_right _ (List.mem_singleton_self _)
  · have hopen := State.openUp_opened (s := a) (by rw [haports]; exact hports)
    rw [State.alignOrOpen_other hmode] at *
    generalize a.openUp = b at *
    have hbcfg : b.cfg = a.cfg := hopen.frame.2 .cfg (by decide)
    refine ⟨by rw [bsys, hopen.sys, hasys], by rw [bsys, hopen.sys, hasys], by rw [bsys, hopen.sys, hasys],
      htmem.trans ((hopen.frame.2 .mem (by decide)).trans hamem), htcfg.trans (hbcfg.trans hcfg),
      fun h => absurd (by rw [← hbcfg, ← htcfg]; exact h) hmode, fun _ => ?_⟩
    obtain ⟨hphase, hrdy, hcredits⟩ := hopen.granted
    refine ⟨by rw [bsys]; exact hphase, by rw [bsys]; exact hrdy, fun k hk hm => ?_⟩
    rw [State.isMasked, htfab] at hm
    rw [State.port_congr htports]
    exact hcredits k hk hm

theorem exec_kxRstNRelease_releases (hcanon : s.Canon) (hpor : s.sys.porN = true) (hend : s.sys.rstEnd = true) :
    ∃ t, exec .kxRstNRelease s = .next t ∧ t.sys.rstN = true ∧
      t.sys.rstEnd = false ∧ t.sys.ltc = s.sys.ltc ∧ t.mem = s.mem ∧
      (s.sys.everReady = true → t.cfg = (s.stk.clampCfg (cfgOfImage s.cfg.image)).1 ∧
        (t.cfg.detMode = .timing → t.det.align = 1 ∧ t.det.alignBoot = true ∧
          (3 ∈ t.fab.hold ∨ ∃ x ∈ t.ctl.words, x.q = 7 ∧ x.i = 0 ∧ x.what = .admHold 3)) ∧
        (t.cfg.detMode ≠ .timing → State.Granted t)) := by
  refine ⟨_, exec_kxRstNRelease.trans (congrArg _ (if_neg (by simp [hpor, hend]))), ?_⟩
  by_cases hready : s.sys.everReady = true
  · obtain ⟨h1, h2, h3, h4, h5, h6, h7⟩ := State.warmRelease_opens (s := { s with sys := { s.sys with rstN := true } }) hcanon.2.1 hready
    exact ⟨h1, h2, h3, h4, fun _ => ⟨h5, h6, h7⟩⟩
  · have hnot : (!({ s with sys := { s.sys with rstN := true } } : State).sys.everReady) = true := by simpa using hready
    obtain ⟨h1, h2, h3, h4⟩ := (({ s with sys := { s.sys with rstN := true } } : State).modSys fun y => { y with rstEnd := false }).restart_spec
    rw [State.warmRelease_eq, if_pos hnot]
    exact ⟨h1, h2, h3, h4, fun h => absurd h hready⟩

/-- Settles O54: the reset lines and the end of zeroing, each by the lemma of its row. -/
theorem resetLines : Obligations.ResetLines := by
  intro s hcanon
  refine ⟨exec_kxPorNAssert_clears, fun e => ⟨fun h => ?_, fun h => exec_kxPorNRelease_starts e h⟩, fun h => ?_,
    fun h1 h2 h3 => exec_zeroingDone_ends hcanon h1 h2 h3, fun h => ?_, fun m h1 h2 hm hc => ?_,
    fun h1 h2 h3 => exec_kxRstNAssert_resets hcanon h1 h2 h3, fun h => ?_, fun h1 h2 => exec_kxRstNRelease_releases hcanon h1 h2⟩
  · rw [exec_kxPorNRelease, if_pos h]
  · rw [exec_zeroingDone, if_pos h]
  · rw [exec_kxRstNAssert, if_pos h]
  · have hwindow : s.inWindow = true := by rw [State.inWindow, hm]; exact hc
    rw [exec_kxRstNAssert, if_neg (by simp [h1, h2]), if_pos hwindow]
  · rw [exec_kxRstNRelease, if_pos h]

end Sys2Proof.Machine
end

/-! ## Byte strings and the frame of the lock-step link (R5, R736) -/
section
namespace Sys2Proof.Machine

theorem ofBytes_append (l m : List Nat) : ofBytes (l ++ m) = ofBytes l + 2 ^ (8 * l.length) * ofBytes m := by
  induction l with
  | nil => simp [ofBytes]
  | cons b t ih =>
    rw [List.cons_append, ofBytes, ih, ofBytes, List.length_cons, Nat.mul_succ, Nat.pow_add]
    ring

theorem ofBytes_lt (l : List Nat) : ofBytes l < 2 ^ (8 * l.length) := by
  induction l with
  | nil => simp [ofBytes]
  | cons b t ih =>
    rw [ofBytes, List.length_cons, Nat.mul_succ, Nat.pow_add]
    have := Nat.mod_lt b (show 0 < 256 by decide)
    omega

@[simp] theorem length_toBytes (n v : Nat) : (toBytes n v).length = n := by
  induction n generalizing v with
  | zero => rfl
  | succ n ih => rw [toBytes, List.length_cons, ih]

theorem toBytes_lt {n v b : Nat} (hb : b ∈ toBytes n v) : b < 256 := by
  induction n generalizing v with
  | zero => cases hb
  | succ n ih =>
    rcases List.mem_cons.1 hb with rfl | hb
    · exact Nat.mod_lt _ (by decide)
    · exact ih hb

theorem ofBytes_toBytes (n v : Nat) : ofBytes (toBytes n v) = v % 2 ^ (8 * n) := by
  induction n generalizing v with
  | zero => rw [toBytes, ofBytes, Nat.mul_zero, Nat.pow_zero, Nat.mod_one]
  | succ n ih => rw [toBytes, ofBytes, ih, Nat.mod_mod, Nat.mul_succ, Nat.add_comm (8 * n), Nat.pow_add, Nat.mod_mul]

/-- The bytes of a string come back out of the number that it and what follows it stand for. -/
theorem toBytes_ofBytes_append (l m : List Nat) (hl : ∀ b ∈ l, b < 256) : toBytes l.length (ofBytes (l ++ m)) = l := by
  induction l with
  | nil => rfl
  | cons b t ih =>
    have hb : b < 256 := hl b (List.mem_cons_self ..)
    rw [List.cons_append, List.length_cons, ofBytes, toBytes,
      show (b % 256 + 256 * ofBytes (t ++ m)) % 256 = b by omega,
      show (b % 256 + 256 * ofBytes (t ++ m)) / 256 = ofBytes (t ++ m) by omega,
      ih fun x hx => hl x (List.mem_cons_of_mem _ hx)]

/-- A field of a byte string is the bytes that stand at its place. -/
theorem ofBytes_field (before field after : List Nat) :
    (ofBytes (before ++ (field ++ after)) >>> (8 * before.length)) % 2 ^ (8 * field.length) = ofBytes field := by
  rw [ofBytes_append, ofBytes_append, Nat.shiftRight_eq_div_pow, Nat.add_mul_div_left _ _ (Nat.two_pow_pos _),
    Nat.div_eq_of_lt (ofBytes_lt before), Nat.zero_add, Nat.add_mul_mod_self_left, Nat.mod_eq_of_lt (ofBytes_lt field)]

theorem crcBits_lt {p : Nat} (hp : p < 2 ^ 32) (n : Nat) {c : Nat} (hc : c < 2 ^ 32) : crcBits p n c < 2 ^ 32 := by
  induction n generalizing c with
  | zero => exact hc
  | succ n ih =>
    rw [crcBits]
    have hhalf : c / 2 < 2 ^ 32 := by omega
    split
    · exact ih (Nat.xor_lt_two_pow hhalf hp)
    · exact ih hhalf

theorem crc32cReg_lt (l : List Nat) (hl : ∀ b ∈ l, b < 256) {c : Nat} (hc : c < 2 ^ 32) : crc32cReg c l < 2 ^ 32 := by
  induction l generalizing c with
  | nil => exact hc
  | cons b t ih =>
    have hb : b < 2 ^ 32 := lt_trans (hl b (List.mem_cons_self ..)) (by decide)
    exact ih (fun x hx => hl x (List.mem_cons_of_mem _ hx)) (crcBits_lt (by decide) 8 (Nat.xor_lt_two_pow hc hb))

theorem crc32c_lt (l : List Nat) (hl : ∀ b ∈ l, b < 256) : crc32c l < 2 ^ 32 :=
  Nat.xor_lt_two_pow (crc32cReg_lt l hl (by decide)) (by decide)

/-- The bytes at offsets 0x01 to 0x2B of the frame for `x`, over which its CRC is made (R736). -/
def dxpBody (srcId : Nat) (x : LsFrame) : List Nat :=
  toBytes 1 x.typ ++ toBytes 2 srcId ++ toBytes 2 x.seq.toNat ++ toBytes 1 x.stream ++ [0] ++ toBytes 4 x.n.toNat ++
    toBytes 32 x.d.toNat

theorem dxpBody_lt (srcId : Nat) (x : LsFrame) : ∀ b ∈ dxpBody srcId x, b < 256 := by
  intro b hb
  simp only [dxpBody, List.mem_append, List.mem_singleton] at hb
  rcases hb with (((((h | h) | h) | h) | rfl) | h) | h
  case inl.inl.inr => decide
  all_goals exact toBytes_lt h

@[simp] theorem length_dxpBody (srcId : Nat) (x : LsFrame) : (dxpBody srcId x).length = 43 := by
  simp [dxpBody]

/-- The frame is its 48 bytes, the CRC last. -/
theorem dxpFrame_toNat (srcId : Nat) (x : LsFrame) :
    (dxpFrame srcId x).toNat = ofBytes ((0xBC :: dxpBody srcId x) ++ toBytes 4 (crc32c (dxpBody srcId x))) := by
  have hcrc := crc32c_lt _ (dxpBody_lt srcId x)
  have hbody := ofBytes_lt (0xBC :: dxpBody srcId x)
  have hlen : (0xBC :: dxpBody srcId x).length = 44 := by rw [List.length_cons, length_dxpBody]
  rw [ofBytes_append, ofBytes_toBytes, hlen, Nat.mod_eq_of_lt hcrc]
  rw [hlen] at hbody
  have hmod : (dxpFrame srcId x).toNat =
      (ofBytes (0xBC :: dxpBody srcId x) + crc32c (dxpBody srcId x) * 2 ^ (8 * 0x2C)) % 2 ^ 384 := BitVec.toNat_ofNat _ _
  rw [hmod, Nat.mul_comm (crc32c _), Nat.mod_eq_of_lt]
  generalize ofBytes (0xBC :: dxpBody srcId x) = a at hbody
  generalize crc32c (dxpBody srcId x) = c at hcrc
  norm_num at hbody hcrc ⊢
  omega

/-- A field of the frame, given what stands before and after it. -/
theorem fld_dxpFrame (srcId : Nat) (x : LsFrame) {before field after : List Nat}
    (h : (0xBC :: dxpBody srcId x) ++ toBytes 4 (crc32c (dxpBody srcId x)) = before ++ (field ++ after)) :
    fld (dxpFrame srcId x) (8 * before.length) (8 * field.length) = ofBytes field := by
  rw [fld, dxpFrame_toNat, h, ofBytes_field]

theorem dxpCrcOk_dxpFrame (srcId : Nat) (x : LsFrame) : dxpCrcOk (dxpFrame srcId x) = true := by
  have hcrc := fld_dxpFrame srcId x (before := 0xBC :: dxpBody srcId x) (after := []) (by rw [List.append_nil])
  rw [length_toBytes, List.length_cons, length_dxpBody, ofBytes_toBytes,
    Nat.mod_eq_of_lt (crc32c_lt _ (dxpBody_lt srcId x))] at hcrc
  have hbytes : toBytes 44 (dxpFrame srcId x).toNat = 0xBC :: dxpBody srcId x := by
    have hback := toBytes_ofBytes_append (0xBC :: dxpBody srcId x) (toBytes 4 (crc32c (dxpBody srcId x))) fun b hb => by
      rcases List.mem_cons.1 hb with rfl | hb
      · decide
      · exact dxpBody_lt srcId x b hb
    rwa [← dxpFrame_toNat, List.length_cons, length_dxpBody] at hback
  rw [dxpCrcOk, hbytes]
  exact beq_iff_eq.2 hcrc

/-- The fields of the frame at their offsets (R736). -/
theorem dxpFrame_fields (srcId : Nat) (hsrc : srcId < 2 ^ 16) (x : LsFrame) (htyp : x.typ < 256) (hstream : x.stream < 256) :
    fld (dxpFrame srcId x) 8 8 = x.typ ∧ fld (dxpFrame srcId x) 16 16 = srcId ∧
      fld (dxpFrame srcId x) 32 16 = x.seq.toNat ∧ fld (dxpFrame srcId x) 48 8 = x.stream ∧
      fld (dxpFrame srcId x) 56 8 = 0 ∧ fld (dxpFrame srcId x) 64 32 = x.n.toNat ∧
      fld (dxpFrame srcId x) 96 256 = x.d.toNat := by
  have key : ∀ {off len n v : Nat} (before after : List Nat), 8 * before.length = off → 8 * n = len → v < 2 ^ (8 * n) →
      (0xBC :: dxpBody srcId x) ++ toBytes 4 (crc32c (dxpBody srcId x)) = before ++ (toBytes n v ++ after) →
      fld (dxpFrame srcId x) off len = v := by
    intro off len n v before after hoff hlen hv h
    have hf := fld_dxpFrame srcId x h
    rwa [length_toBytes, ofBytes_toBytes, Nat.mod_eq_of_lt hv, hoff, hlen] at hf
  set crc := toBytes 4 (crc32c (dxpBody srcId x)) with hc
  let d := toBytes 32 x.d.toNat ++ crc
  let n := toBytes 4 x.n.toNat ++ d
  let st := toBytes 1 x.stream ++ ([0] ++ n)
  let sq := toBytes 2 x.seq.toNat ++ st
  let sr := toBytes 2 srcId ++ sq
  let b1 := 0xBC :: toBytes 1 x.typ
  let b2 := b1 ++ toBytes 2 srcId
  let b3 := b2 ++ toBytes 2 x.seq.toNat
  let b4 := b3 ++ toBytes 1 x.stream
  refine ⟨key (n := 1) [0xBC] sr rfl rfl htyp ?_, key (n := 2) b1 sq ?_ rfl hsrc ?_, key (n := 2) b2 st ?_ rfl x.seq.isLt ?_,
    key (n := 1) b3 ([0] ++ n) ?_ rfl hstream ?_, key (n := 1) b4 n ?_ rfl (by decide) ?_,
    key (n := 4) (b4 ++ [0]) d ?_ rfl x.n.isLt ?_, key (n := 32) (b4 ++ [0] ++ toBytes 4 x.n.toNat) crc ?_ rfl x.d.isLt ?_⟩
  all_goals simp [b1, b2, b3, b4, d, n, st, sq, sr, dxpBody, toBytes]

end Sys2Proof.Machine
end

section
/-! ### The lock-step link (R736 to R741) -/

namespace Sys2Proof.Machine

variable {s : State}

/-! #### The comparison of two records (R739 to R741) -/

theorem State.detBreak_det (s : State) (cause : Nat) :
    (s.detBreak cause).det = { s.det with broken := (s.detBreak cause).det.broken } := by
  unfold State.detBreak
  split
  · split
    · rfl
    · rw [State.event_det]
      rfl
  · rfl

/-- Two unequal records set the hold where it is enabled. -/
def State.lsUnequal (s : State) : State :=
  (s.stat 0x320 7 1).modDet fun d => { d with lsHeld := d.lsHeld || (bit s.cfg.ls 1 && !s.det.lsHeld) }

/-- The first unequal records set the latch with stream and fence. -/
def State.lsLatched (s : State) (stream : Nat) (n : BitVec 32) : State :=
  if s.det.mismatch then s
  else (s.modDet fun d => { d with mismatch := true, mStream := stream, mFence := n }).event .lsMismatch 0
    (stream + n.toNat % 2 ^ 24 * 256)

theorem State.lsUnequal_det (s : State) :
    s.lsUnequal.det = { s.det with lsHeld := s.det.lsHeld || bit s.cfg.ls 1 } := by
  change { (s.stat 0x320 7 1).det with lsHeld := (s.stat 0x320 7 1).det.lsHeld || (bit s.cfg.ls 1 && !s.det.lsHeld) } = _
  rw [show (s.stat 0x320 7 1).det = s.det from State.count_det ..]
  cases s.det.lsHeld <;> simp

theorem State.lsLatched_det (s : State) (stream : Nat) (n : BitVec 32) :
    (s.lsLatched stream n).det = { s.det with
      mismatch := true
      mStream := if s.det.mismatch = true then s.det.mStream else stream
      mFence := if s.det.mismatch = true then s.det.mFence else n } := by
  unfold State.lsLatched
  split
  next h => rw [← h]
  next => rw [State.event_det]; rfl

theorem State.lsUnequal_acts (s : State) : Counted s s.lsUnequal ∧ Frame [.det, .ctl, .evt, .mbx] s s.lsUnequal :=
  ⟨(s.count_counted ..).trans (Counted.of_frame (State.modDet_frame ..) (by decide) (by decide)),
    ((s.count_frame ..).mono (by decide)).trans ((State.modDet_frame ..).mono (by decide))⟩

theorem State.lsLatched_acts (s : State) (stream : Nat) (n : BitVec 32) :
    Counted s (s.lsLatched stream n) ∧ Frame [.det, .ctl, .evt, .mbx] s (s.lsLatched stream n) := by
  unfold State.lsLatched
  split
  · exact ⟨.refl s, .refl ..⟩
  · exact ⟨(Counted.of_frame (State.modDet_frame ..) (by decide) (by decide)).trans (State.event_counted ..),
      ((s.modDet_frame _).mono (by decide)).trans ((State.event_frame ..).mono (by decide))⟩

theorem State.lsCompare_same (s : State) (stream : Nat) (n : BitVec 32) {a b : BitVec 256} (h : a = b) :
    s.lsCompare stream n a b = s.stat 0x320 6 1 := if_pos h

theorem State.lsCompare_unequal (s : State) (stream : Nat) (n : BitVec 32) {a b : BitVec 256} (h : a ≠ b) :
    s.lsCompare stream n a b = if bit s.cfg.ls 1 && !s.det.lsHeld then (s.lsUnequal.lsLatched stream n).detBreak 6
      else s.lsUnequal.lsLatched stream n := if_neg h

theorem State.lsCompare_acts (s : State) (stream : Nat) (n : BitVec 32) (a b : BitVec 256) :
    Counted s (s.lsCompare stream n a b) ∧ Frame [.det, .ctl, .evt, .mbx] s (s.lsCompare stream n a b) := by
  by_cases h : a = b
  · rw [s.lsCompare_same stream n h]
    exact ⟨s.count_counted .., (s.count_frame ..).mono (by decide)⟩
  · obtain ⟨hcount, hframe⟩ := s.lsUnequal_acts
    obtain ⟨hcount', hframe'⟩ := s.lsUnequal.lsLatched_acts stream n
    rw [s.lsCompare_unequal stream n h]
    split
    · exact ⟨(hcount.trans hcount').trans (State.detBreak_counted ..),
        (hframe.trans hframe').trans ((State.detBreak_frame ..).mono (by decide))⟩
    · exact ⟨hcount.trans hcount', hframe.trans hframe'⟩

/-- What unequal records leave: the latch of the first, the hold, and the mark of a broken run. -/
theorem State.lsCompare_det_of_ne (s : State) (stream : Nat) (n : BitVec 32) {a b : BitVec 256} (h : a ≠ b) :
    (s.lsCompare stream n a b).det = { s.det with
      mismatch := true
      mStream := if s.det.mismatch = true then s.det.mStream else stream
      mFence := if s.det.mismatch = true then s.det.mFence else n
      lsHeld := s.det.lsHeld || bit s.cfg.ls 1
      broken := (s.lsCompare stream n a b).det.broken } := by
  have hlatch := s.lsUnequal.lsLatched_det stream n
  rw [s.lsUnequal_det] at hlatch
  rw [s.lsCompare_unequal stream n h]
  split
  · rw [State.detBreak_det, hlatch]
  · rw [hlatch]

/-- Only a hold that begins here ends repeatability. -/
theorem State.lsCompare_broken (s : State) (stream : Nat) (n : BitVec 32) (a b : BitVec 256)
    (h : s.det.lsHeld = true ∨ bit s.cfg.ls 1 = false) : (s.lsCompare stream n a b).det.broken = s.det.broken := by
  by_cases hab : a = b
  · rw [s.lsCompare_same stream n hab, show (s.stat 0x320 6 1).det = s.det from State.count_det ..]
  · have hnot : ¬ (bit s.cfg.ls 1 && !s.det.lsHeld) = true := by rcases h with h | h <;> simp [h]
    rw [s.lsCompare_unequal stream n hab, if_neg hnot, State.lsLatched_det, State.lsUnequal_det]

/-! #### What every received frame goes through (R738) -/

/-- The link after a good frame. -/
def State.lsUp (s : State) (q : BitVec 16) : Det := { s.det with rxSeq := some q, lastRx := s.sys.ltc, linkUp := true }

theorem State.dxpTake_bad {f : BitVec 384} (h : dxpCrcOk f = false) : s.dxpTake f = (s.errCount 0x320 9 1, false) := by
  rw [State.dxpTake, h]; rfl

theorem State.dxpTake_stranger {f : BitVec 384} (h : dxpCrcOk f = true) (hpeer : fld f 16 16 ≠ s.cfg.peerId) :
    s.dxpTake f = (s.event .lsPeer 0 0, false) := by
  rw [State.dxpTake, h, if_pos hpeer]; rfl

/-- A sequence number is next to the last one received, or the first (R738). -/
theorem lsGap_iff (last : Option (BitVec 16)) (q : BitVec 16) :
    (match last with
      | some x => q != x + 1
      | none => false) = true ↔ ¬ (last = none ∨ last = some (q - 1)) := by
  cases last with
  | none => simp
  | some x =>
    have hnext : q = x + 1 ↔ x = q - 1 := ⟨by rintro rfl; exact (BitVec.add_sub_cancel ..).symm,
      by rintro rfl; exact (BitVec.sub_add_cancel ..).symm⟩
    change (q != x + 1) = true ↔ _
    rw [bne_iff_ne, ne_eq, hnext, Option.some_inj]
    simp

theorem State.dxpTake_inOrder {f : BitVec 384} {q : BitVec 16} (h : dxpCrcOk f = true) (hpeer : fld f 16 16 = s.cfg.peerId)
    (hq : BitVec.ofNat 16 (fld f 32 16) = q) (hseq : s.det.rxSeq = none ∨ s.det.rxSeq = some (q - 1)) :
    s.dxpTake f = ({ s with det := s.lsUp q }, true) := by
  have hgap := mt (lsGap_iff s.det.rxSeq q).1 (not_not_intro hseq)
  rw [State.dxpTake, h, if_neg (not_not_intro hpeer), hq]
  exact congrArg (fun u : State => (u.modDet fun d => { d with rxSeq := some q, lastRx := s.sys.ltc, linkUp := true }, true))
    (if_neg hgap)

theorem State.dxpTake_gap {f : BitVec 384} {q : BitVec 16} (h : dxpCrcOk f = true) (hpeer : fld f 16 16 = s.cfg.peerId)
    (hq : BitVec.ofNat 16 (fld f 32 16) = q) (hseq : ¬ (s.det.rxSeq = none ∨ s.det.rxSeq = some (q - 1))) :
    s.dxpTake f = ({ s.event .lsGap 0 0 with det := s.lsUp q }, true) := by
  have hgap := (lsGap_iff s.det.rxSeq q).2 hseq
  have hdet : { (s.event .lsGap 0 0).det with rxSeq := some q, lastRx := s.sys.ltc, linkUp := true } = s.lsUp q := by
    rw [State.event_det]; rfl
  rw [State.dxpTake, h, if_neg (not_not_intro hpeer), hq, ← hdet]
  exact congrArg (fun u : State => (u.modDet fun d => { d with rxSeq := some q, lastRx := s.sys.ltc, linkUp := true }, true))
    (if_pos hgap)

end Sys2Proof.Machine
end

section
/-! ### The events of the lock-step link (R736 to R741) -/

namespace Sys2Proof.Machine

variable {s : State}

theorem exec_lsHeartbeatFrame {f : BitVec 384} (hlive : s.lsLive = true) (h : dxpCrcOk f = true → dxpType f = 1) :
    exec (.lsHeartbeatFrame f) s = .next (s.dxpTake f).1 := by
  change execLsHeartbeatFrame f s = _
  rw [execLsHeartbeatFrame, if_neg]
  simpa [hlive] using h

theorem exec_lsHeartbeatFrame_ignored {f : BitVec 384} (h : s.lsLive = false ∨ (dxpCrcOk f = true ∧ dxpType f ≠ 1)) :
    exec (.lsHeartbeatFrame f) s = .next s := by
  change execLsHeartbeatFrame f s = _
  rw [execLsHeartbeatFrame, if_pos]
  simpa using h

theorem exec_lsRecordFrame_ignored {f : BitVec 384} (h : s.lsLive = false ∨ (dxpCrcOk f = true ∧ dxpType f ≠ 0)) :
    exec (.lsRecordFrame f) s = .next s := by
  change execLsRecordFrame f s = _
  rw [execLsRecordFrame, if_pos]
  simpa using h

/-- The record that a frame carries (R736). -/
def dxpRecord (f : BitVec 384) : LsRec := ⟨fld f 48 8, BitVec.ofNat 32 (fld f 64 32), BitVec.ofNat 256 (fld f 96 256)⟩

theorem exec_lsRecordFrame {f : BitVec 384} (hlive : s.lsLive = true) (h : dxpCrcOk f = true → dxpType f = 0) :
    exec (.lsRecordFrame f) s =
      .next (if (s.dxpTake f).2 then (s.dxpTake f).1.lsMatch false (dxpRecord f) else (s.dxpTake f).1) := by
  change execLsRecordFrame f s = _
  rw [execLsRecordFrame, if_neg]
  · rfl
  · simpa [hlive] using h

/-- A partner record without a partner waits (R739). -/
theorem State.lsMatch_waits {r : LsRec} (hmate : takeFirst (fun x : LsRec => x.stream == r.stream && x.n == r.n) s.det.own = none)
    (hlen : s.det.peer.length < 64) : s.lsMatch false r = s.modDet fun d => { d with peer := s.det.peer ++ [r] } := by
  have hkeep : lsKeep s.det.peer r = (s.det.peer ++ [r], false) := if_neg (by omega)
  simp only [State.lsMatch, Bool.false_eq_true, if_false, hmate, hkeep]

/-- A partner record meets the own record of its fence (R739). -/
theorem State.lsMatch_meets {r x : LsRec} {rest : List LsRec}
    (hmate : takeFirst (fun x : LsRec => x.stream == r.stream && x.n == r.n) s.det.own = some (x, rest)) :
    s.lsMatch false r = (s.modDet fun d => { d with own := rest }).lsCompare r.stream r.n r.d x.d := by
  simp only [State.lsMatch, Bool.false_eq_true, if_false, hmate]

theorem State.setDet_frame (s : State) (d : Det) : Frame [.det] s { s with det := d } := s.modDet_frame fun _ => d

/-- A good record frame for which an own record waits: compared, it leaves what the comparison leaves. -/
theorem lsRecordFrame_compared {f : BitVec 384} (hlive : s.lsLive = true) (htype : fld f 8 8 = 0) (hcrc : dxpCrcOk f = true)
    (hpeer : fld f 16 16 = s.cfg.peerId) {q : BitVec 16} (hq : BitVec.ofNat 16 (fld f 32 16) = q)
    (hseq : s.det.rxSeq = none ∨ s.det.rxSeq = some (q - 1)) {r x : LsRec} {rest : List LsRec} (hr : dxpRecord f = r)
    (hmate : takeFirst (fun x : LsRec => x.stream == r.stream && x.n == r.n) s.det.own = some (x, rest)) :
    ∃ t, exec (.lsRecordFrame f) s = .next t ∧
      (x.d = r.d → t.det = { s.lsUp q with own := rest }) ∧
      (x.d ≠ r.d → t.det = { s.lsUp q with
        own := rest
        mismatch := true
        mStream := if s.det.mismatch = true then s.det.mStream else r.stream
        mFence := if s.det.mismatch = true then s.det.mFence else r.n
        lsHeld := s.det.lsHeld || bit s.cfg.ls 1
        broken := t.det.broken }) ∧
      (s.det.lsHeld = true ∨ bit s.cfg.ls 1 = false → t.det.broken = s.det.broken) ∧
      Counted s t ∧ Frame [.det, .ctl, .evt, .mbx] s t := by
  obtain ⟨u, hu⟩ : ∃ u : State, u = { s with det := { s.lsUp q with own := rest } } := ⟨_, rfl⟩
  have hexec : exec (.lsRecordFrame f) s = .next (u.lsCompare r.stream r.n r.d x.d) := by
    have hmeets := State.lsMatch_meets (s := { s with det := s.lsUp q }) hmate
    rw [exec_lsRecordFrame hlive fun _ => htype, State.dxpTake_inOrder hcrc hpeer hq hseq, if_pos rfl, hr, hmeets, hu]
    rfl
  have hframe : Frame [.det] s u := by rw [hu]; exact s.setDet_frame _
  have hacts := u.lsCompare_acts r.stream r.n r.d x.d
  have hdet : u.det = { s.lsUp q with own := rest } := by rw [hu]
  have hcfg : u.cfg = s.cfg := by rw [hu]
  refine ⟨_, hexec, fun hsame => ?_, fun hdiff => ?_, fun hno => ?_,
    (Counted.of_frame hframe (by decide) (by decide)).trans hacts.1, (hframe.mono (by decide)).trans hacts.2⟩
  · rw [State.lsCompare_same _ _ _ hsame.symm, ← hdet]
    exact State.count_det ..
  · have hleft := u.lsCompare_det_of_ne r.stream r.n (Ne.symm hdiff)
    rw [hdet, hcfg] at hleft
    exact hleft
  · have hkept := u.lsCompare_broken r.stream r.n r.d x.d (by rw [hdet, hcfg]; exact hno)
    rw [hdet] at hkept
    exact hkept

theorem Cfg.localId_lt (c : Cfg) : c.localId < 2 ^ 16 := Nat.mod_lt _ (by decide)

/-- Settles O59: a received frame goes through its CRC, its sender and its sequence number before it is used, and the records
of one fence are compared; a sent frame is its fields as byte strings with the CRC over them. -/
theorem lockStepLink : Obligations.LockStepLink := by
  intro s
  refine ⟨fun f => ?_, fun h => ?_, fun hlive hq (ht : _ + us 10 ≤ _) => ?_, fun h => ?_, fun h1 h2 h3 (h4 : _ + us 100 ≤ _) => ?_, fun h => ?_,
    fun x rest h1 h2 h3 h4 => ?_, fun x ht hs => ?_⟩
  · intro q inOrder good up
    refine ⟨exec_lsHeartbeatFrame_ignored, exec_lsRecordFrame_ignored, fun hlive hbad => ?_, fun hlive htype => ?_,
      fun hlive htype => ?_⟩
    · have htake := State.dxpTake_bad (s := s) hbad
      refine ⟨?_, ?_⟩
      · rw [exec_lsHeartbeatFrame hlive fun h => absurd (h.symm.trans hbad) (by decide), htake]
      · rw [exec_lsRecordFrame hlive fun h => absurd (h.symm.trans hbad) (by decide), htake]
        rfl
    · rw [exec_lsHeartbeatFrame hlive fun _ => htype]
      refine ⟨fun hcrc hpeer => ?_, fun hgood hseq => ?_, fun hgood hseq => ?_⟩
      · rw [State.dxpTake_stranger hcrc hpeer]
      · rw [State.dxpTake_inOrder hgood.1 hgood.2 rfl hseq]; rfl
      · rw [State.dxpTake_gap hgood.1 hgood.2 rfl hseq]; rfl
    · intro r mate
      refine ⟨fun hcrc hpeer => ?_, fun hgood hseq => ⟨fun hmate hlen => ?_, fun x rest hmate => ?_⟩⟩
      · rw [exec_lsRecordFrame hlive fun _ => htype, State.dxpTake_stranger hcrc hpeer]
        rfl
      · have hwaits := State.lsMatch_waits (s := { s with det := up }) hmate hlen
        rw [exec_lsRecordFrame hlive fun _ => htype, State.dxpTake_inOrder hgood.1 hgood.2 rfl hseq, if_pos rfl]
        exact congrArg Host.Outcome.next hwaits
      · exact lsRecordFrame_compared hlive htype hgood.1 hgood.2 rfl hseq rfl hmate
  · change s.lsLive = false ∨ s.det.txq ≠ [] ∨ s.sys.ltc < s.det.lastTx + us 10 at h
    change execLsHeartbeatTimer s = _
    rw [execLsHeartbeatTimer, if_pos]
    simpa [or_assoc] using h
  · have hqueue : s.lsQueue 1 0 0 0 =
        s.modDet fun x => { x with txq := x.txq ++ [⟨1, x.txSeq, 0, 0, 0⟩], txSeq := x.txSeq + 1 } :=
      if_neg (by simp [hq])
    change execLsHeartbeatTimer s = _
    rw [execLsHeartbeatTimer, if_neg, hqueue]
    · simp only [State.modDet, hq, List.nil_append]
    · simpa [hlive, hq] using ht
  · change s.sys.porN = false ∨ s.sys.rstEnd = true ∨ s.det.linkUp = false ∨ s.sys.ltc < s.det.lastRx + us 100 at h
    change execLsLinkTimeout s = _
    rw [execLsLinkTimeout, if_pos]
    simpa [or_assoc] using h
  · change execLsLinkTimeout s = _
    rw [execLsLinkTimeout, if_neg]
    · rfl
    · simpa [h1, h2, h3] using h4
  · change execLsFrameSent s = _
    rw [execLsFrameSent]
    split
    · rfl
    next hlate =>
      have hempty : s.det.txq = [] := by
        simp only [Bool.or_eq_true, Bool.not_eq_true', decide_eq_true_eq, not_or] at hlate
        rcases h with h | h | h | h
        · exact absurd h hlate.1.1
        · exact absurd h hlate.1.2
        · exact absurd h hlate.2
        · exact h
      rw [hempty]
  · change execLsFrameSent s = _
    rw [execLsFrameSent, if_neg, h4]
    · rfl
    · simpa [h1, h2] using h3
  · obtain ⟨f1, f2, f3, f4, f5, f6, f7⟩ := dxpFrame_fields s.cfg.localId s.cfg.localId_lt x ht hs
    exact ⟨f1, f2, f3, f4, f5, f6, f7, dxpCrcOk_dxpFrame ..⟩

end Sys2Proof.Machine
end

section
/-! ### The ring stop (R845 to R857, R868 to R875) -/

namespace Sys2Proof.Machine

variable {s t : State}

/-! #### What the stop's own actions leave -/

theorem State.ringSend_ring (s : State) (fs : List (List (BitVec 16))) :
    (s.ringSend fs).ring = { s.ring with out := (s.ringSend fs).ring.out } := by
  unfold State.ringSend
  split <;> rfl

theorem State.ringSend_stk (s : State) (fs : List (List (BitVec 16))) : (s.ringSend fs).stk = s.stk :=
  (s.ringSend_frame fs).2 .stk (by decide)

/-- BUDGET frames change what the stop drives and when it last sent them. -/
theorem State.sendBudgets_ring (s : State) :
    s.sendBudgets.ring = { s.ring with out := s.sendBudgets.ring.out, lastBud := s.sendBudgets.ring.lastBud } := by
  unfold State.sendBudgets
  extract_lets die ms sum share s1 s2
  split
  · rw [State.ringSend_ring]
    rfl
  · rfl

theorem State.sendBudgets_psum (s : State) : s.sendBudgets.stk.psum = s.stk.psum := by
  unfold State.sendBudgets
  extract_lets die ms sum share s1 s2
  split
  · rw [State.ringSend_stk]
    rfl
  · rfl

theorem State.sendBudgets_lastBud (s : State) (h : s.isMaster = true) : s.sendBudgets.ring.lastBud = s.sys.ltc := by
  unfold State.sendBudgets
  extract_lets die ms sum share s1 s2
  rw [if_pos h, State.ringSend_ring]
  rfl

theorem State.renewBudgets_ring (s : State) :
    s.renewBudgets.ring = { s.ring with out := s.renewBudgets.ring.out, lastBud := s.renewBudgets.ring.lastBud } := by
  unfold State.renewBudgets
  split
  · rfl
  · exact s.sendBudgets_ring

theorem State.renewBudgets_psum (s : State) : s.renewBudgets.stk.psum = s.stk.psum := by
  unfold State.renewBudgets
  split
  · rfl
  · exact s.sendBudgets_psum

/-- Between `s` and `t` the stop's identity, its settings and PSUM stay, and its member table is the one given. -/
structure State.Tabled (s t : State) (members : Tab (Option Member)) : Prop where
  members : t.ring.members = members
  id : t.ring.id = s.ring.id
  present : t.ring.present = s.ring.present
  lastAnn : t.ring.lastAnn = s.ring.lastAnn
  pwr0 : t.ring.pwr0 = s.ring.pwr0
  pwr3 : t.ring.pwr3 = s.ring.pwr3
  psum : t.stk.psum = s.stk.psum

theorem State.setMember_tabled (s : State) (i : Nat) (m : Option Member) :
    s.Tabled (s.setMember i m) (Tab.set none s.ring.members i m) := by
  have hrestart (t : State) (h : s.Tabled t (Tab.set none s.ring.members i m)) :
      s.Tabled (t.modRing fun r => { r with aggs := [], gdone := [], gprev := [] }) (Tab.set none s.ring.members i m) :=
    ⟨h.1, h.2, h.3, h.4, h.5, h.6, h.7⟩
  have hrenew (t : State) (h : s.Tabled t (Tab.set none s.ring.members i m)) :
      s.Tabled t.renewBudgets (Tab.set none s.ring.members i m) := by
    obtain ⟨h1, h2, h3, h4, h5, h6, h7⟩ := h
    refine ⟨?_, ?_, ?_, ?_, ?_, ?_, t.renewBudgets_psum.trans h7⟩ <;> rw [t.renewBudgets_ring] <;> assumption
  unfold State.setMember
  extract_lets old s1 s2
  have h1 : s.Tabled s1 (Tab.set none s.ring.members i m) := ⟨rfl, rfl, rfl, rfl, rfl, rfl, rfl⟩
  have h2 : s.Tabled s2 (Tab.set none s.ring.members i m) := by
    change s.Tabled (if _ then _ else _) _
    split
    · exact h1
    · exact hrestart s1 h1
  split
  · exact h2
  · exact hrenew s2 h2

/-! #### ANNOUNCE frames (R849, R855) -/

/-- Between `s` and `t` the stop has announced itself: the frame drives, and its own entry of the member table is as it says. -/
structure State.Announces (s t : State) : Prop where
  lastAnn : t.ring.lastAnn = s.sys.ltc
  out : t.ring.out.head? = some s.announceFrame
  present : t.ring.present = true
  own : Tab.get none t.ring.members s.ring.id = some s.ownMember
  acts : State.RingActs s t

theorem State.sendAnnounce_announces (hpresent : s.ring.present = true) (hready : s.sys.ready = true) :
    s.Announces s.sendAnnounce := by
  have hacts := State.RingActs.sendAnnounce s
  obtain ⟨u, hu⟩ : ∃ u : State, u = (s.ringDrive []).modRing fun r => { r with lastAnn := s.sys.ltc } := ⟨_, rfl⟩
  have htab := u.setMember_tabled s.ring.id (some s.ownMember)
  have hsend : s.sendAnnounce = (u.setMember s.ring.id (some s.ownMember)).ringDrive
      ((u.setMember s.ring.id (some s.ownMember)).announceFrame :: (u.setMember s.ring.id (some s.ownMember)).ring.out) := by
    rw [hu]
    exact if_neg (by simp [hpresent, hready])
  rw [hsend] at hacts ⊢
  generalize u.setMember s.ring.id (some s.ownMember) = v at htab hacts
  have hframe : v.announceFrame = s.announceFrame := by
    rw [State.announceFrame, State.aggMask, htab.id, htab.pwr0, htab.pwr3, htab.psum, hu]
    rfl
  exact ⟨htab.lastAnn.trans (by rw [hu]; rfl), congrArg some hframe, htab.present.trans (by rw [hu]; exact hpresent),
    (congrArg (Tab.get none · s.ring.id) htab.members).trans (Tab.get_set_of_ne_default (Option.some_ne_none _) _ _), hacts⟩

theorem State.sendAnnounce_not_ready (hready : s.sys.ready = false) : s.sendAnnounce = s :=
  if_pos (by simp [hready])

/-- A stop whose bypass opens is present first, and announces itself then. -/
theorem State.Announces.open (h : State.Announces (s.modRing fun r => { r with present := true }) t) : s.Announces t :=
  ⟨h.lastAnn, h.out, h.present, h.own, (State.RingActs.modRing ..).trans h.acts⟩

theorem State.Announces.stated (h : s.Announces t) :
    t.ring.lastAnn = s.sys.ltc ∧ t.ring.out.head? = some s.announceFrame ∧ t.ring.present = true ∧
      Tab.get none t.ring.members s.ring.id = some s.ownMember ∧ Frame [.ring, .stk, .sys] s t :=
  ⟨h.lastAnn, h.out, h.present, h.own, h.acts.frame.mono (by decide)⟩

/-! #### The bypass (R846 to R849) -/

theorem State.bypassClose_eq (s : State) {closed : Bool} (h : s.bypassed = closed) :
    s.bypassClose = { s with ring := { s.ring with
      present := s.ring.present && !closed
      out := if s.ring.present && closed then [] else s.ring.out } } := by
  subst h
  unfold State.bypassClose
  cases s.bypassed with
  | false =>
    rw [Bool.not_false, Bool.and_true, Bool.and_false]
    rfl
  | true =>
    rw [Bool.not_true, Bool.and_false, Bool.and_true]
    rfl

theorem exec_kxAonRstN_low : exec (.kxAonRstN false) s =
    .next { s with ring := { s.ring with aonRst := true, present := false, out := [] } } := by
  have hclosed : (s.modRing fun r => { r with aonRst := true }).bypassed = true := Bool.or_true _
  change Host.Outcome.next ((s.modRing fun r => { r with aonRst := true }).bypassClose.ringDrive []) = _
  rw [State.bypassClose_eq _ hclosed, Bool.not_true, Bool.and_false]
  rfl

theorem ringBypassOpen_cases : (s.bypassed = true ∨ s.ring.present = true → exec .ringBypassOpen s = .next s) ∧
    (s.bypassed = false → s.ring.present = false →
      (s.sys.ready = false → exec .ringBypassOpen s = .next { s with ring := { s.ring with present := true } }) ∧
      (s.sys.ready = true → ∃ t, exec .ringBypassOpen s = .next t ∧ s.Announces t)) := by
  refine ⟨fun h => ?_, fun hb hp => ?_⟩
  · change execRingBypassOpen s = _
    rw [execRingBypassOpen, if_pos (by simpa using h)]
  · have hexec : exec .ringBypassOpen s = .next (s.modRing fun r => { r with present := true }).sendAnnounce := by
      change execRingBypassOpen s = _
      rw [execRingBypassOpen, if_neg (by simp [hb, hp])]
    refine ⟨fun hready => ?_, fun hready => ⟨_, hexec, .open (State.sendAnnounce_announces rfl hready)⟩⟩
    rw [hexec, State.sendAnnounce_not_ready (s := s.modRing _) hready]
    rfl

theorem announceTimer_cases :
    (s.ringLive = false ∨ s.sys.ltc < s.ring.lastAnn + 40000 ∨ s.sys.ready = false → exec .announceTimer s = .next s) ∧
    (s.ringLive = true → s.ring.lastAnn + 40000 ≤ s.sys.ltc → s.sys.ready = true →
      ∃ t, exec .announceTimer s = .next t ∧ s.Announces t) := by
  refine ⟨fun h => ?_, fun hlive hdue hready => ?_⟩
  · change execAnnounceTimer s = _
    rw [execAnnounceTimer]
    split
    · rfl
    next hnot =>
      rw [State.sendAnnounce_not_ready]
      simp only [Bool.or_eq_true, Bool.not_eq_true', decide_eq_true_eq, not_or] at hnot
      rcases h with h | h | h
      · exact absurd h hnot.1
      · exact absurd h hnot.2
      · exact h
  · have hpresent : s.ring.present = true := ((Bool.and_eq_true ..).mp hlive).1
    refine ⟨s.sendAnnounce, ?_, State.sendAnnounce_announces hpresent hready⟩
    change execAnnounceTimer s = _
    rw [execAnnounceTimer, if_neg (by simpa [hlive] using hdue)]

end Sys2Proof.Machine
end

section
/-! ### Member tables, budgets and frames that pass (R852 to R857, R873 to R875) -/

namespace Sys2Proof.Machine

variable {s t : State}

theorem ringLive_of_aonRst (h : s.ringLive = true) : s.ring.aonRst = false := by
  have hopen := ((Bool.and_eq_true ..).mp h).2
  simp only [State.bypassed, Bool.not_eq_true', Bool.or_eq_false_iff] at hopen
  exact hopen.2

/-! #### A frame that arrives -/

theorem State.onBroadcast_reset {src : Nat} {f : List (BitVec 16)} {go : State → State} (h : s.ring.aonRst = true) :
    s.onBroadcast src f go = s := if_pos h

theorem State.onBroadcast_bypassed {src : Nat} {f : List (BitVec 16)} {go : State → State} (h : s.ring.aonRst = false)
    (hdown : s.ringLive = false) : s.onBroadcast src f go = s.ringDrive [f] := by
  rw [State.onBroadcast, if_neg (by simp [h]), if_pos (by simp [hdown])]

theorem State.onBroadcast_own {src : Nat} {f : List (BitVec 16)} {go : State → State} (hlive : s.ringLive = true)
    (h : src = s.ring.id) : s.onBroadcast src f go = s := by
  rw [State.onBroadcast, if_neg (by simp [ringLive_of_aonRst hlive]), if_neg (by simp [hlive]), if_pos h]

theorem State.onBroadcast_taken {src : Nat} {f : List (BitVec 16)} {go : State → State} (hlive : s.ringLive = true)
    (h : src ≠ s.ring.id) :
    s.onBroadcast src f go = (go (s.ringDrive [])).ringDrive (f :: (go (s.ringDrive [])).ring.out) := by
  rw [State.onBroadcast, if_neg (by simp [ringLive_of_aonRst hlive]), if_neg (by simp [hlive]), if_neg h]

theorem State.onUnicast_reset {f : List (BitVec 16)} {go : State → State} (h : s.ring.aonRst = true) :
    s.onUnicast f go = s := if_pos h

theorem State.onUnicast_bypassed {f : List (BitVec 16)} {go : State → State} (h : s.ring.aonRst = false)
    (hdown : s.ringLive = false) : s.onUnicast f go = s.ringDrive [f] := by
  rw [State.onUnicast, if_neg (by simp [h]), if_pos (by simp [hdown])]

theorem State.onUnicast_taken {f : List (BitVec 16)} {go : State → State} (hlive : s.ringLive = true) :
    s.onUnicast f go = go s := by
  rw [State.onUnicast, if_neg (by simp [ringLive_of_aonRst hlive]), if_neg (by simp [hlive])]

/-! #### The member table (R856) -/

/-- An ANNOUNCE of another stop writes its entry and passes on, ahead of what the stop sends itself. -/
theorem announce_taken {src : Fin 8} {cfg agg psum : BitVec 16} (hlive : s.ringLive = true) (hsrc : src.val ≠ s.ring.id) :
    ∃ t, exec (.announce src cfg agg psum) s = .next t ∧
      t.ring.out.head? = some (ringFrame 1 src.val src.val [cfg, agg, psum, 0]) ∧
      Tab.get none t.ring.members src.val = some ⟨fld cfg 0 6, agg.toNat, psum.toNat, s.sys.ltc⟩ ∧
      (∀ j, j ≠ src.val → Tab.get none t.ring.members j = Tab.get none s.ring.members j) ∧
      Frame [.ring, .stk, .sys] s t := by
  let entry : Member := ⟨fld cfg 0 6, agg.toNat, psum.toNat, s.sys.ltc⟩
  have htab := (s.ringDrive []).setMember_tabled src.val (some entry)
  have hacts := (State.RingActs.modRing s fun r => { r with out := [] }).trans (.setMember (s.ringDrive []) src.val (some entry))
  refine ⟨_, congrArg Host.Outcome.next (State.onBroadcast_taken hlive hsrc), rfl, ?_, fun j hj => ?_,
    (hacts.trans (.modRing ..)).frame.mono (by decide)⟩
  · exact (congrArg (Tab.get none · src.val) htab.members).trans (Tab.get_set_of_ne_default (Option.some_ne_none _) _ _)
  · exact (congrArg (Tab.get none · j) htab.members).trans (Tab.get_set_ne _ hj)

theorem memberExpiry_none {m : Fin 8} (h : Tab.get none s.ring.members m.val = none) : exec (.memberExpiry m) s = .next s := by
  change execMemberExpiry m s = _
  rw [execMemberExpiry, h]

theorem memberExpiry_early {m : Fin 8} {x : Member} (hx : Tab.get none s.ring.members m.val = some x)
    (h : s.sys.porN = false ∨ s.sys.rstEnd = true ∨ s.sys.ltc < x.seen + 140000) : exec (.memberExpiry m) s = .next s := by
  change execMemberExpiry m s = _
  rw [execMemberExpiry, hx]
  exact congrArg Host.Outcome.next (if_pos (by simpa [or_assoc] using h))

theorem memberExpiry_due {m : Fin 8} {x : Member} (hx : Tab.get none s.ring.members m.val = some x)
    (hpor : s.sys.porN = true) (hrst : s.sys.rstEnd = false) (hdue : x.seen + 140000 ≤ s.sys.ltc) :
    ∃ t, exec (.memberExpiry m) s = .next t ∧ t.ring.members = Tab.set none s.ring.members m.val none ∧
      Frame [.ring, .stk, .sys] s t := by
  refine ⟨s.setMember m.val none, ?_, (s.setMember_tabled m.val none).members,
    (State.RingActs.setMember s m.val none).frame.mono (by decide)⟩
  change execMemberExpiry m s = _
  rw [execMemberExpiry, hx]
  exact congrArg Host.Outcome.next (if_neg (by simpa [hpor, hrst] using hdue))

/-! #### Budgets (R868, R870, R873 to R875) -/

theorem Stack.modLayer_share (k : Stack) (l : Nat) (f : Layer → Layer) : (k.modLayer l f).share = k.share := rfl

theorem Stack.foldl_modLayer_share (f : Nat → Layer → Layer) (ls : List Nat) (k : Stack) :
    (ls.foldl (fun k l => k.modLayer l (f l)) k).share = k.share := by
  induction ls generalizing k with
  | nil => rfl
  | cons l ls ih => rw [List.foldl_cons, ih, Stack.modLayer_share]

theorem State.sendLayerBudgets_share (s : State) : s.sendLayerBudgets.stk.share = s.stk.share :=
  Stack.foldl_modLayer_share (fun l x => { x with budget := s.budgetMsg l }) _ _

/-- The share that a BUDGET frame sets. -/
def State.shareSet (s : State) (w : BitVec 16) : State := s.modStk fun k => { k with share := budgetOf w.toNat }

theorem State.nextFree_frame (s : State) : Frame [.sys] s s.nextFree := s.modSys_frame fun y => { y with free := y.free + 1 }

theorem exec_budget {src : Fin 8} {w : BitVec 16} (hlive : s.ringLive = true) : exec (.budget src w) s = .next
    (if (s.shareSet w).stackBudget != s.stackBudget && s.federated && s.powerOn && !s.therm.latch then
      (s.shareSet w).sendLayerBudgets.modStk fun k => { k with fedCnt := s.stk.fedCnt }
    else s.shareSet w) := congrArg Host.Outcome.next (State.onUnicast_taken hlive)

theorem budgetOf_toNat (w : BitVec 16) : budgetOf w.toNat = if w = 0xFFFF then none else some w.toNat := by
  have h : w.toNat = 0xFFFF ↔ w = 0xFFFF := ⟨fun h => BitVec.eq_of_toNat_eq h, fun h => by rw [h]; rfl⟩
  rw [budgetOf]
  exact if_congr h rfl rfl

theorem budget_taken {src : Fin 8} {w : BitVec 16} (hlive : s.ringLive = true) :
    (s.federated = false ∨ s.powerOn = false ∨ s.therm.latch = true → exec (.budget src w) s =
      .next { s with stk := { s.stk with share := if w = 0xFFFF then none else some w.toNat } }) ∧
    (∃ t, exec (.budget src w) s = .next t ∧ t.stk.share = (if w = 0xFFFF then none else some w.toNat) ∧
      Frame [.stk, .sys] s t) := by
  have hset : s.shareSet w = { s with stk := { s.stk with share := if w = 0xFFFF then none else some w.toNat } } := by
    rw [State.shareSet, budgetOf_toNat]
    rfl
  have hframe : Frame [.stk, .sys] s (s.shareSet w) := (s.modStk_frame _).mono (by decide)
  refine ⟨fun h => ?_, _, exec_budget hlive, ?_, ?_⟩
  · rw [exec_budget hlive, if_neg (by rcases h with h | h | h <;> simp [h]), hset]
  · rw [← budgetOf_toNat]
    split
    · exact (s.shareSet w).sendLayerBudgets_share
    · rfl
  · have hlayers : Frame [.stk, .sys] (s.shareSet w) (s.shareSet w).sendLayerBudgets :=
      .trans (Frame.mono (State.modStk_frame ..) (by decide)) (Frame.mono (ps := [.sys]) (State.nextFree_frame _) (by decide))
    exact hframe.trans (.ite (hlayers.trans ((State.modStk_frame ..).mono (by decide))) (.refl ..))

theorem budgetTimer_early (h : s.sys.ready = false ∨ s.isMaster = false ∨ s.sys.ltc < s.ring.lastBud + 40000000 ∨
    fld s.ring.pwr2 0 16 = 0) : exec .budgetTimer s = .next s := by
  change s.sys.ready = false ∨ s.isMaster = false ∨ s.sys.ltc < s.ring.lastBud + ms 100 ∨ _ at h
  change execBudgetTimer s = _
  rw [execBudgetTimer]
  split
  · rfl
  next hnot =>
    have hnone : fld s.ring.pwr2 0 16 = 0 := by
      simp only [Bool.or_eq_true, Bool.not_eq_true', decide_eq_true_eq, not_or] at hnot
      rcases h with h | h | h | h
      · exact absurd h hnot.1.1
      · exact absurd h hnot.1.2
      · exact absurd h hnot.2
      · exact h
    rw [State.renewBudgets, if_pos hnone]

theorem budgetTimer_due (hready : s.sys.ready = true) (hmaster : s.isMaster = true)
    (hdue : s.ring.lastBud + ms 100 ≤ s.sys.ltc) (hdie : fld s.ring.pwr2 0 16 ≠ 0) :
    ∃ t, exec .budgetTimer s = .next t ∧ t.ring.lastBud = s.sys.ltc ∧ t.ring.members = s.ring.members ∧
      Frame [.ring, .stk, .sys] s t := by
  refine ⟨s.sendBudgets, ?_, s.sendBudgets_lastBud hmaster, ?_, (State.RingActs.sendBudgets s).frame.mono (by decide)⟩
  · change execBudgetTimer s = _
    rw [execBudgetTimer, if_neg, State.renewBudgets, if_neg hdie]
    simpa [hready, hmaster] using hdue
  · rw [s.sendBudgets_ring]

/-! #### Frames that pass (R848, R854, R855) -/

theorem ringFramePass_cases (f : List (BitVec 16)) :
    let h := f.headD 0
    let single := fld h 12 4 ∈ [4, 7, 8]
    let other := fld h 12 4 = 0 ∨ 8 < fld h 12 4 ∨ (fld h 6 3 ≠ s.ring.id ∧ fld h 6 3 ≠ fld h 9 3) ∨
      (fld h 6 3 = fld h 9 3 ∧ single)
    (s.ring.aonRst = true → exec (.ringFramePass f) s = .next s) ∧
    (s.ring.aonRst = false → s.ringLive = false → exec (.ringFramePass f) s = .next (s.ringDrive [f])) ∧
    (s.ringLive = true →
      (frameGood f = false ∨ fld h 9 3 = s.ring.id → exec (.ringFramePass f) s = .next (s.ringDrive [])) ∧
      (frameGood f = true → fld h 9 3 ≠ s.ring.id → other → exec (.ringFramePass f) s = .next (s.ringDrive [f])) ∧
      (frameGood f = true → fld h 9 3 ≠ s.ring.id → ¬ other → fld h 6 3 = s.ring.id → ¬ single →
        exec (.ringFramePass f) s = .next (s.ringDrive [])) ∧
      (frameGood f = true → fld h 9 3 ≠ s.ring.id → ¬ other → fld h 6 3 ≠ s.ring.id ∨ single →
        exec (.ringFramePass f) s = .next s)) := by
  intro h single other
  have hsingle : (fld h 12 4 == 4 || fld h 12 4 == 7 || fld h 12 4 == 8) = true ↔ single := by simp [single, or_assoc]
  have hother : (fld h 12 4 == 0 || decide (8 < fld h 12 4) || (fld h 6 3 != s.ring.id && fld h 6 3 != fld h 9 3) ||
      (fld h 6 3 == fld h 9 3 && (fld h 12 4 == 4 || fld h 12 4 == 7 || fld h 12 4 == 8))) = true ↔ other := by
    rw [Bool.or_eq_true, Bool.and_eq_true, hsingle]
    simp [other, or_assoc]
  have hrun : exec (.ringFramePass f) s = .next
      (if s.ring.aonRst then s else if !s.ringLive then s.ringDrive [f]
      else if !frameGood f || fld h 9 3 = s.ring.id then s.ringDrive []
      else if fld h 12 4 == 0 || decide (8 < fld h 12 4) || (fld h 6 3 != s.ring.id && fld h 6 3 != fld h 9 3) ||
        (fld h 6 3 == fld h 9 3 && (fld h 12 4 == 4 || fld h 12 4 == 7 || fld h 12 4 == 8)) then s.ringDrive [f]
      else if fld h 6 3 == s.ring.id && !(fld h 12 4 == 4 || fld h 12 4 == 7 || fld h 12 4 == 8) then s.ringDrive []
      else s) := rfl
  rw [hrun]
  refine ⟨fun hrst => by rw [if_pos hrst], fun hrst hdown => by rw [if_neg (by simp [hrst]), if_pos (by simp [hdown])],
    fun hlive => ?_⟩
  rw [if_neg (by simp [ringLive_of_aonRst hlive]), if_neg (by simp [hlive])]
  refine ⟨fun hbad => by rw [if_pos (by simpa using hbad)], fun hgood hsrc ho => ?_, fun hgood hsrc ho hdst hone => ?_,
    fun hgood hsrc ho hdst => ?_⟩
  all_goals rw [if_neg (by simp [hgood, hsrc])]
  · rw [if_pos (hother.2 ho)]
  · rw [if_neg (mt hother.1 ho), if_pos]
    rw [Bool.and_eq_true, beq_iff_eq, Bool.not_eq_true', ← Bool.not_eq_true, hsingle]
    exact ⟨hdst, hone⟩
  · rw [if_neg (mt hother.1 ho), if_neg]
    rw [Bool.and_eq_true, beq_iff_eq, Bool.not_eq_true', ← Bool.not_eq_true, hsingle]
    rintro ⟨hmine, hone⟩
    exact hdst.elim (fun hd => hd hmine) hone

/-- Settles O57: each event of the ring stop by what the stop's reset, its bypass and the sender make of it. -/
theorem ringStop : Obligations.RingStop := by
  intro s closed announced driven
  obtain ⟨hopen, hopens⟩ := ringBypassOpen_cases (s := s)
  obtain ⟨htimer, htimes⟩ := announceTimer_cases (s := s)
  refine ⟨fun ok => congrArg Host.Outcome.next (State.bypassClose_eq _ rfl), exec_kxAonRstN_low,
    congrArg Host.Outcome.next (State.bypassClose_eq _ rfl), hopen, fun hb hp => ⟨(hopens hb hp).1, fun hready => ?_⟩,
    htimer, fun h1 h2 h3 => ?_, fun src cfg agg psum => ?_, fun m => ⟨memberExpiry_none, fun x hx => ⟨memberExpiry_early hx,
      memberExpiry_due hx⟩⟩, fun src w => ?_, budgetTimer_early, fun h1 h2 h3 h4 => budgetTimer_due h1 h2 h3 h4,
    fun f => ringFramePass_cases f⟩
  · obtain ⟨t, hexec, ht⟩ := (hopens hb hp).2 hready
    exact ⟨t, hexec, ht.stated⟩
  · obtain ⟨t, hexec, ht⟩ := htimes h1 h2 h3
    exact ⟨t, hexec, ht.stated⟩
  · exact ⟨fun h => congrArg Host.Outcome.next (State.onBroadcast_reset h),
      fun h hdown => congrArg Host.Outcome.next (State.onBroadcast_bypassed h hdown),
      fun hlive h => congrArg Host.Outcome.next (State.onBroadcast_own hlive h), announce_taken⟩
  · exact ⟨fun h => congrArg Host.Outcome.next (State.onUnicast_reset h),
      fun h hdown => congrArg Host.Outcome.next (State.onUnicast_bypassed h hdown), budget_taken⟩

end Sys2Proof.Machine
end

section
/-! ### What does not look at the ring stop: the requester-down lines and the shadow timing sets -/

namespace Sys2Proof.Machine

/-- The state with another ring stop. -/
def State.setRing (s : State) (r : Ring) : State := { s with ring := r }

/-- A change of the state that neither looks at the ring stop nor touches it. -/
def RingFree (f : State → State) : Prop := ∀ s r, f (s.setRing r) = (f s).setRing r

/-- Meter `i` of subscriber `k` starts anew (R283). -/
def State.meterStarted (s : State) (k i : Nat) : State :=
  let m := 6 * k + i
  let x := { s.applyMeter m Meter.reset with frozen := s.isMasked k }
  s.setMeter m (if x.pir = unlimited then { x with vt := s.vtNow m }
    else { x with tc := (x.cbs * 64 : Nat), tp := (x.pbs * 64 : Nat), vt := s.vtNow m })

/-- The bucket of subscriber `k` as it starts anew (R283). -/
def State.bucketStarted (s : State) (k : Nat) : Bucket :=
  let r := fld (s.cfg.subRateAt k) 0 20
  let b := fld (s.cfg.subBurstAt k) 0 16
  ⟨if r = unlimited then 0 else (b * 64 : Nat), s.vtNow k, r, b, s.isMasked k, none⟩

namespace RingFree

variable {f g : State → State}

theorem ite {c : State → Prop} [DecidablePred c] (hc : ∀ s r, c (s.setRing r) ↔ c s) (hf : RingFree f) (hg : RingFree g) :
    RingFree fun s => if c s then f s else g s := fun s r => by
  dsimp only
  by_cases h : c s
  · rw [if_pos h, if_pos ((hc s r).2 h), hf]
  · rw [if_neg h, if_neg (mt (hc s r).1 h), hg]

theorem each {α : Type} {h : State → α → State} (hh : ∀ a, RingFree (h · a)) (l : List α) :
    RingFree (State.each · l h) := fun s r => by
  dsimp only
  induction l generalizing s with
  | nil => rfl
  | cons a l ih =>
    have ha : h (s.setRing r) a = (h s a).setRing r := hh a s r
    rw [State.each_cons, State.each_cons, ha, ih]

theorem modSlice (p : Nat) (f : Slice → Slice) : RingFree (State.modSlice · p f) := fun _ _ => rfl

theorem event (e : Ev) (u d : Nat) : RingFree (State.event · e u d) := by
  unfold State.event
  dsimp only
  exact ite (fun _ _ => .rfl) (fun _ _ => rfl) fun _ _ => rfl

theorem count (top : Nat) (e : Ev) (page slot n : Nat) : RingFree (State.count · top e page slot n) := by
  unfold State.count
  dsimp only
  exact ite (fun _ _ => .rfl) (fun s r => event e 0 _ { s with ctl := _ } r) fun _ _ => rfl

theorem contribute (i d : Nat) (p : Nat × BitVec 64 × Nat) : RingFree (State.contribute · i d p) := fun s r =>
  count (2 ^ 48 - 1) .counterSat (0x310 + i) 0 p.2.2 (s.modStream i fun x => { x with
    s := x.s + (p.2.1 ^^^ BitVec.ofNat 64 (gf64Mul (p.1 * 4 + d) (s.stream i).key.toNat))
    bytes := x.bytes + BitVec.ofNat 64 p.2.2
    pieces := x.pieces + 1 }) r

theorem clearInputs (k : Nat) : RingFree (State.clearInputs · k) := by
  unfold State.clearInputs
  exact ite (fun _ _ => .rfl) (fun _ _ => rfl) fun _ _ => rfl

theorem freezeSub (k : Nat) : RingFree (State.freezeSub · k) := fun s r => by
  have hmeters := each (h := fun (s : State) i => s.setMeter (6 * k + i) { s.fab.meter (6 * k + i) with frozen := true, slot := none })
    (fun _ _ _ => rfl) (List.range 6) s r
  exact congrArg (State.setBucket · k { s.fab.bucket k with frozen := true, slot := none }) hmeters

theorem feed (k : Nat) (digest : Bool) (d : Nat) (a : DgAcc) (addr v n : Nat) (s : State) (r : Ring) :
    (s.setRing r).feed k digest d a addr v n = ((s.feed k digest d a addr v n).1.setRing r, (s.feed k digest d a addr v n).2) := by
  unfold State.feed
  change (match (if digest then s.streamOf k else none) with | none => _ | some i => _) = _
  cases (if digest then s.streamOf k else none) with
  | none => rfl
  | some i =>
    dsimp only
    change ((match (a.feed (s.stream i).key.toNat addr (words64 (n / 8) v) n).2 with | none => _ | some p => _), _) = _
    cases (a.feed (s.stream i).key.toNat addr (words64 (n / 8) v) n).2 with
    | none => rfl
    | some p => exact congrArg (·, _) (contribute i d p s r)

theorem feedEnd (k : Nat) (digest : Bool) (d : Nat) (a : DgAcc) : RingFree (State.feedEnd · k digest d a) := fun s r => by
  have hstream : (s.setRing r).streamOf k = s.streamOf k := rfl
  change State.feedEnd (s.setRing r) k digest d a = (State.feedEnd s k digest d a).setRing r
  rw [State.feedEnd, State.feedEnd, hstream]
  cases (if digest then s.streamOf k else none) with
  | none => rfl
  | some i =>
    cases a.block with
    | none => rfl
    | some b => exact contribute i d (b, a.leaf, a.bytes) s r

theorem feedAll (k d : Nat) (addr v : Nat → Nat) (w : Nat) (l : List Nat) (s : State) (a : DgAcc) (r : Ring) :
    l.foldl (fun (x : State × DgAcc) u => x.1.feed k true d x.2 (addr u) (v u) w) (s.setRing r, a) =
      ((l.foldl (fun (x : State × DgAcc) u => x.1.feed k true d x.2 (addr u) (v u) w) (s, a)).1.setRing r,
        (l.foldl (fun (x : State × DgAcc) u => x.1.feed k true d x.2 (addr u) (v u) w) (s, a)).2) := by
  induction l generalizing s a with
  | nil => rfl
  | cons u l ih =>
    rw [List.foldl_cons, List.foldl_cons]
    dsimp only
    rw [feed, ih]

theorem hashTaken (e : Entry) (d n : Nat) : RingFree (State.hashTaken · e d n) := fun s r => by
  change State.hashTaken (s.setRing r) e d n = (State.hashTaken s e d n).setRing r
  unfold State.hashTaken
  dsimp only
  rw [feedAll]
  exact feedEnd ..

theorem hashGhost (e : Entry) : RingFree (State.hashGhost · e) := by
  unfold State.hashGhost
  cases e.takes e.beats with
  | none => exact fun _ _ => rfl
  | some x => exact ite (fun _ _ => .rfl) (fun _ _ => rfl) (hashTaken e x.1 _)

theorem closeGhosts (k : Nat) : RingFree (State.closeGhosts · k) := fun s r =>
  congrArg (State.modFab · fun f => { f with ghost := f.ghost.filter fun e => e.sub != k })
    (each (h := State.hashGhost) hashGhost (s.fab.ghost.filter fun e => e.sub == k) s r)

theorem dropWork (id : Nat) : RingFree (State.dropWork · id) := fun _ _ => rfl

theorem dropOwed (e : Entry) (drop : List Owed → List Owed) : RingFree fun s =>
    if e.sub = 36 then s.modBlp fun b => { b with owed := drop b.owed }
    else s.modPort e.sub fun p => { p with owed := drop p.owed } :=
  ite (fun _ _ => .rfl) (fun _ _ => rfl) fun _ _ => rfl

theorem retire (e : Entry) : RingFree (State.retire · e) := fun s r => by
  change State.retire (s.setRing r) e = (State.retire s e).setRing r
  have hunits : (s.setRing r).unitsOf e = s.unitsOf e := rfl
  have hmasked : (s.setRing r).isMasked e.sub = s.isMasked e.sub := rfl
  unfold State.retire
  dsimp only
  rw [hunits, hmasked]
  generalize s.unitsOf e = n
  cases e.takes n with
  | none => rfl
  | some x =>
    dsimp only
    split
    · rfl
    · split
      · exact hashGhost { e with beats := n } (s.freeEntry e.id) r
      · split
        · rfl
        · exact dropOwed e (fun l => l.map fun o => if o.ord = e.ord then { o with drop := true } else o) (s.freeEntry e.id) r

theorem hashCut (e : Entry) : RingFree (State.hashCut · e) := fun s r => by
  change State.hashCut (s.setRing r) e = (State.hashCut s e).setRing r
  have hunits : (s.setRing r).unitsOf e = s.unitsOf e := rfl
  unfold State.hashCut
  dsimp only
  rw [hunits]
  generalize s.unitsOf e = n
  cases e.takes n with
  | none => rfl
  | some x =>
    dsimp only
    split
    · rfl
    · exact congrArg (State.modEntry · e.id fun x => { x with dg := ⟨some 0, 0, 0⟩ }) (hashTaken e x.1 (e.unitsHere n) s r)

theorem dropUnfed (e : Entry) : RingFree (State.dropUnfed · e) := by
  have hport : RingFree fun s =>
      if e.fin.isSome || decide (writeBeats 1 e.req.len.toNat ≤ e.wdat.length) then s else (s.dropWork e.id).retire e :=
    ite (fun _ _ => .rfl) (fun _ _ => rfl) fun s r => retire e (s.dropWork e.id) r
  have hbulk (g : Fab → Fab) (h : Entry → Entry) : RingFree fun s => ((s.modFab g).hashCut e).modEntry e.id h := fun s r =>
    congrArg (State.modEntry · e.id h) (hashCut e (s.modFab g) r)
  unfold State.dropUnfed
  cases e.kind
  case wr | wrPartial | acc => exact hport
  case writeBulk | accBulk => exact hbulk _ _
  all_goals exact fun _ _ => rfl

theorem subDown (k : Nat) : RingFree (State.subDown · k) := fun s r => by
  obtain ⟨u, hu⟩ : ∃ u : State, u = s.modFab fun f => { f with down := insertNat k f.down, masked := insertNat k f.masked } :=
    ⟨_, rfl⟩
  have hcleared : ((u.setRing r).freezeSub k).clearInputs k = ((u.freezeSub k).clearInputs k).setRing r := by
    have hfrozen := freezeSub k u r
    have hclear := clearInputs k (u.freezeSub k) r
    dsimp only at hfrozen hclear
    rw [hfrozen, hclear]
  obtain ⟨v, hv⟩ : ∃ v : State, v = (u.freezeSub k).clearInputs k := ⟨_, rfl⟩
  have hdropped : ((v.setRing r).closeGhosts k).each (v.fab.trk.filter fun e => e.sub == k) State.dropUnfed =
      ((v.closeGhosts k).each (v.fab.trk.filter fun e => e.sub == k) State.dropUnfed).setRing r := by
    have hghosts := closeGhosts k v r
    have heach := each (h := State.dropUnfed) dropUnfed (v.fab.trk.filter fun e => e.sub == k) (v.closeGhosts k) r
    dsimp only at hghosts heach
    rw [hghosts, heach]
  have hdrained : RingFree fun s =>
      if s.subEmpty k then s.modFab fun f => { f with drained := insertNat k f.drained } else s :=
    ite (fun _ _ => .rfl) (fun _ _ => rfl) fun _ _ => rfl
  have hstart : (s.setRing r).modFab (fun f => { f with down := insertNat k f.down, masked := insertNat k f.masked }) =
      u.setRing r := by rw [hu]; rfl
  change State.subDown (s.setRing r) k = (State.subDown s k).setRing r
  unfold State.subDown
  dsimp only
  rw [hstart, hcleared, ← hu, ← hv]
  have hfab : (v.setRing r).fab = v.fab := rfl
  rw [hfab, hdropped]
  exact hdrained _ r

theorem startMeter (k i : Nat) : RingFree (State.meterStarted · k i) := fun _ _ => rfl

theorem initMeters (ks : List Nat) : RingFree (State.initMeters · ks) :=
  each (fun k s r => congrArg (State.setBucket · k (s.bucketStarted k))
    (each (h := (State.meterStarted · k ·)) (startMeter k) (List.range 6) s r)) ks

theorem resumeSub (k : Nat) : RingFree (State.resumeSub · k) := by
  have hgrant : RingFree fun s => if !s.sys.ready then s else if k = 36 then s.grantBlp else s.grantPort k :=
    ite (fun _ _ => .rfl) (fun _ _ => rfl) (ite (fun _ _ => .rfl) (fun _ _ => rfl) fun _ _ => rfl)
  intro s r
  obtain ⟨u, hu⟩ : ∃ u : State, u = s.modFab fun f =>
    { f with masked := f.masked.filter fun x => x != k, drained := f.drained.filter fun x => x != k } := ⟨_, rfl⟩
  have hmeters : (u.setRing r).initMeters [k] = (u.initMeters [k]).setRing r := initMeters [k] u r
  have hstart : (s.setRing r).modFab (fun f =>
      { f with masked := f.masked.filter fun x => x != k, drained := f.drained.filter fun x => x != k }) = u.setRing r := by
    rw [hu]; rfl
  change State.resumeSub (s.setRing r) k = (State.resumeSub s k).setRing r
  unfold State.resumeSub
  dsimp only
  rw [hstart, hmeters, ← hu]
  exact hgrant _ r

theorem subUp (k : Nat) : RingFree (State.subUp · k) := fun s r =>
  ite (c := fun u : State => u.subEmpty k = true) (g := fun u => u) (fun _ _ => .rfl) (resumeSub k) (fun _ _ => rfl)
    (s.modFab fun f => { f with down := f.down.filter fun x => x != k, drained := f.drained.filter fun x => x != k }) r

theorem takeLine (k : Nat) : RingFree (State.takeLine · k) :=
  ite (fun _ _ => .rfl) (fun _ _ => rfl) (ite (fun _ _ => .rfl) (subDown k) (subUp k))

theorem takeLines : RingFree State.takeLines := each takeLine (List.range 37)

theorem dropShadows : RingFree State.dropShadows := each (fun _ _ _ => rfl) (List.range 144)

end RingFree

end Sys2Proof.Machine
end

section
/-! ### Gang changes on a member (R859 to R861) -/

namespace Sys2Proof.Machine

variable {s t : State} {src : Fin 8}

/-- A frame of another stop passes on, behind it what the stop sends. -/
theorem exec_broadcast {f : List (BitVec 16)} {go : State → State} (hlive : s.ringLive = true) (hsrc : src.val ≠ s.ring.id)
    {u : State} (hu : go (s.ringDrive []) = u) :
    Host.Outcome.next (s.onBroadcast src.val f go) = (.next (u.ringDrive (f :: u.ring.out)) : Res) := by
  rw [State.onBroadcast_taken hlive hsrc, hu]

theorem present_of_ringLive (h : s.ringLive = true) : s.ring.present = true := ((Bool.and_eq_true ..).mp h).1

theorem State.ringSend_present (h : s.ring.present = true) (f : List (BitVec 16)) :
    s.ringSend [f] = s.modRing fun r => { r with out := [f] } := by
  rw [State.ringSend, h]
  rfl

/-! #### IMAGE (R859) -/

theorem image_cases (hlive : s.ringLive = true) (hsrc : src.val ≠ s.ring.id) (chunk : BitVec 16) (data : BitVec 512) :
    let f := ringFrame 2 src.val src.val (chunk :: words16 32 data.toNat)
    (s.gangOn = false ∨ src.val ≠ s.ring.master →
      exec (.image src chunk data) s = .next { s with ring := { s.ring with out := [f] } }) ∧
    (s.gangOn = true → src.val = s.ring.master → exec (.image src chunk data) s = .next { s with ring := { s.ring with
      out := [f], chunks := Tab.set none s.ring.chunks chunk.toNat (some data) } }) := by
  refine ⟨fun h => ?_, fun hon hm => ?_⟩
  · have hnot : (!s.gangOn || decide (src.val ≠ s.ring.master)) = true := by simpa using h
    exact exec_broadcast (u := s.ringDrive []) hlive hsrc (if_pos hnot)
  · have hyes : ¬ (!s.gangOn || decide (src.val ≠ s.ring.master)) = true := by simp [hon, hm]
    exact exec_broadcast (u := (s.ringDrive []).modRing fun r => { r with chunks := Tab.set none r.chunks chunk.toNat (some data) })
      hlive hsrc (if_neg hyes)

/-! #### The prepare of a member (R802, R859, R860) -/

/-- What a member can prepare is not past its boundary. -/
theorem State.gangCheck_committed {g : Gang} {busy : Bool} {m : ModeChg} (h : s.gangCheck g busy = .inr m) :
    m.committed = false := by
  have himage {len : Nat} {crc : Word} (h : s.gangImage len crc = .inr m) : m.committed = false := by
    unfold State.gangImage at h
    split at h
    · cases h
    · split at h
      · cases h
      · split at h
        · cases h
        · split at h
          · cases h
          · injection h with h
            rw [← h]
            rfl
  have hrate {arg : Word} (h : s.gangRate arg = .inr m) : m.committed = false := by
    unfold State.gangRate at h
    dsimp only at h
    repeat' split at h
    all_goals cases h
    rfl
  have hdet {arg : Word} (h : s.gangDet arg = .inr m) : m.committed = false := by
    unfold State.gangDet at h
    dsimp only at h
    repeat' split at h
    all_goals cases h
    rfl
  unfold State.gangCheck at h
  split at h
  · cases h
  · split at h
    · cases h
    · split at h
      · exact himage h
      · split at h
        · exact hrate h
        · exact hdet h

/-- The units prepare a change, which counts from this tick; the ring stop, the configuration and the arrays stay (R805). -/
theorem State.startChange_starts (s : State) (m : ModeChg) : ∃ acked ackd,
    (s.startChange m).mc = some { m with start := s.sys.ltc, acked := acked, ackd := ackd } ∧
      Frame [.mc, .ctl, .evt, .mbx, .slices] s (s.startChange m) := by
  obtain ⟨u, hu⟩ : ∃ u : State, u =
    { s.prepareWords with mc := some { m with start := s.sys.ltc, acked := s.sys.ltc, ackd := false } } := ⟨_, rfl⟩
  have hstart : Frame [.mc, .ctl, .evt, .mbx, .slices] s u := by
    rw [hu]
    exact ((State.Prepares.prepareWords s).frame.mono (by decide)).trans ((State.setMc_frame ..).mono (by decide))
  have hready (t : State) (h : State.Prepares u t) : ∃ acked ackd,
      t.ackTime.mc = some { m with start := s.sys.ltc, acked := acked, ackd := ackd } ∧
        Frame [.mc, .ctl, .evt, .mbx, .slices] s t.ackTime := by
    obtain ⟨acked, ackd, hack⟩ := State.ackTime_of_mc ((h.frame.2 .mc (by decide)).trans (by rw [hu]))
    rw [hack]
    exact ⟨acked, ackd, rfl, hstart.trans ((h.frame.mono (by decide)).trans ((State.setMc_frame ..).mono (by decide)))⟩
  unfold State.startChange
  dsimp only
  rw [← hu]
  refine hready _ ?_
  split
  · exact .changeBack ..
  · exact .changeBack ..
  · exact (State.Prepares.ite (.refl _) (.each (fun _ _ => .calYield ..) ..)).trans (.shadowRate ..)
  · exact .refl _

/-- A member whose units have acknowledged accepts, and one whose units have not waits (R859). -/
theorem State.gangAck_cases {m : ModeChg} {g : Gang} (hmc : s.mc = some m) (hg : m.gang = some g) (hother : g.master ≠ s.ring.id)
    (hawait : g.awaiting = []) (hsent : g.sent = false) (hcommit : m.committed = false) : s.gangAck =
      if m.ackd then
        ({ s with mc := some { m with gang := some { g with awaiting := [g.master] } } }).sendAck g eOk
      else s := by
  have hunits : s.unitsAcked = m.ackd := by rw [State.unitsAcked, hmc]
  unfold State.gangAck
  rw [hmc]
  dsimp only
  rw [hg]
  dsimp only
  rw [hunits]
  exact if_congr (by simp [hother, hawait, hsent, hcommit]) rfl rfl

/-- The PREPARE that a member holds from the master (R859). -/
def heldGang (src : Fin 8) (xid : BitVec 16) (op : BitVec 8) (arg crc : BitVec 32) (now : Nat) : Gang :=
  ⟨xid, src.val, op, arg, crc, [], 0, 8, false, now⟩

/-- A member that holds the master's PREPARE. -/
def State.holdsPrepare (s : State) (g : Gang) : State := (s.ringDrive []).modRing fun r => { r with gang := some g }

/-- What a member makes of the master's PREPARE. -/
def State.prepared (s : State) (g : Gang) : State :=
  if s.sys.phase == .frost && !s.therm.latch then (s.holdsPrepare g).startThaw
  else if s.sys.phase == .thaw && !s.therm.latch then s.holdsPrepare g
  else (s.holdsPrepare g).takePrepare g s.modechg

section
variable {xid : BitVec 16} {op : BitVec 8} {arg crc : BitVec 32} (hlive : s.ringLive = true) (hsrc : src.val ≠ s.ring.id)
include hlive hsrc

theorem exec_prepare_ignored (h : s.gangOn = false ∨ src.val ≠ s.ring.master) : exec (.prepare src xid op arg crc) s =
    .next { s with ring := { s.ring with out := [ringFrame 3 src.val src.val
      ([xid, op.setWidth 16] ++ words16 2 arg.toNat ++ words16 2 crc.toNat)] } } := by
  have hnot : (!s.gangOn || decide (src.val ≠ s.ring.master)) = true := by simpa using h
  exact exec_broadcast (u := s.ringDrive []) hlive hsrc (if_pos hnot)

theorem exec_prepare {u : State} (hon : s.gangOn = true) (hm : src.val = s.ring.master)
    (hu : s.prepared (heldGang src xid op arg crc s.sys.ltc) = u) : exec (.prepare src xid op arg crc) s = .next (u.ringDrive
      (ringFrame 3 src.val src.val ([xid, op.setWidth 16] ++ words16 2 arg.toNat ++ words16 2 crc.toNat) :: u.ring.out)) := by
  have hyes : ¬ (!s.gangOn || decide (src.val ≠ s.ring.master)) = true := by simp [hon, hm]
  exact exec_broadcast hlive hsrc ((if_neg hyes).trans hu)

end

theorem State.takeLines_ring (s : State) : s.takeLines.ring = s.ring := s.linesTaken_takeLines.frame.2 .ring (by decide)

theorem State.prepared_frost (g : Gang) (hphase : s.sys.phase = .frost) (hlatch : s.therm.latch = false) :
    s.prepared g = (s.holdsPrepare g).startThaw := if_pos (by simp [hphase, hlatch])

theorem State.prepared_thaw (g : Gang) (hphase : s.sys.phase = .thaw) (hlatch : s.therm.latch = false) :
    s.prepared g = s.holdsPrepare g := by
  rw [State.prepared, if_neg (by simp [hphase]), if_pos (by simp [hphase, hlatch])]

theorem State.prepared_running (g : Gang) (h : (s.sys.phase ≠ .frost ∧ s.sys.phase ≠ .thaw) ∨ s.therm.latch = true) :
    s.prepared g = (s.holdsPrepare g).takePrepare g s.modechg := by
  rw [State.prepared, if_neg, if_neg]
  · rcases h with ⟨-, h⟩ | h <;> simp [h]
  · rcases h with ⟨h, -⟩ | h <;> simp [h]

/-- The checks of R860 look at nothing that taking the PREPARE has touched. -/
theorem State.gangCheck_holdsPrepare (s : State) (g : Gang) (busy : Bool) :
    (s.holdsPrepare g).gangCheck g busy = s.gangCheck g busy := by
  have hreceived : (s.holdsPrepare g).ring.received = s.ring.received := rfl
  have hcommit : (s.holdsPrepare g).commitCheck = s.commitCheck := rfl
  have hchannels : (s.holdsPrepare g).noChannels = s.noChannels := rfl
  have himage : (s.holdsPrepare g).gangImage g.arg.toNat g.crc = s.gangImage g.arg.toNat g.crc := by
    rw [State.gangImage, State.gangImage, hreceived, hcommit, hchannels]
  have hrate : (s.holdsPrepare g).gangRate g.arg = s.gangRate g.arg := rfl
  have hdet : (s.holdsPrepare g).gangDet g.arg = s.gangDet g.arg := rfl
  have hlatch : (s.holdsPrepare g).therm = s.therm := rfl
  have hmc : (s.holdsPrepare g).mc = s.mc := rfl
  rw [State.gangCheck, State.gangCheck, himage, hrate, hdet, hlatch, hmc]

/-- The chunks are used up with the PREPARE that names them (R859). -/
def State.chunksUsed (s : State) : State := s.modRing fun r => { r with chunks := [], gang := none }

/-- A member that refuses answers with the code of its first failing check, and holds the PREPARE until the ABORT (R860). -/
theorem State.takePrepare_refuses {g : Gang} {busy : Bool} {e : BitVec 8} (hpresent : s.ring.present = true)
    (h : s.gangCheck g busy = .inl e) : s.takePrepare g busy = { s with ring := { s.ring with
      out := [ringFrame 4 s.ring.id g.master [g.xid, e.setWidth 16]], chunks := [], gang := some { g with sent := true } } } := by
  unfold State.takePrepare
  rw [h]
  exact State.ringSend_present (s := s.chunksUsed.modRing fun r => { r with gang := some { g with sent := true } }) hpresent _

/-- A member that accepts prepares its units, and answers once they have acknowledged (R859, R860). -/
theorem State.takePrepare_accepts {g : Gang} {busy : Bool} {m : ModeChg} (hpresent : s.ring.present = true)
    (hout : s.ring.out = []) (hother : g.master ≠ s.ring.id) (hawait : g.awaiting = []) (hsent : g.sent = false)
    (h : s.gangCheck g busy = .inr m) : ∃ u, (s.takePrepare g busy).mc = some u ∧
      u.what = m.what ∧ u.cfg = m.cfg ∧ u.rate = m.rate ∧ u.det = m.det ∧ u.committed = false ∧ u.start = s.sys.ltc ∧
      (s.takePrepare g busy).ring = { s.ring with
        chunks := []
        gang := none
        out := if (s.takePrepare g busy).unitsAcked then [ringFrame 4 s.ring.id g.master [g.xid, eOk.setWidth 16]] else [] } ∧
      Frame [.mc, .ring, .ctl, .evt, .mbx, .slices] s (s.takePrepare g busy) := by
  let g' : Gang := { g with start := s.sys.ltc }
  obtain ⟨acked, ackd, hmc, hframe⟩ := s.chunksUsed.startChange_starts { m with gang := some g' }
  have htake : s.takePrepare g busy = (s.chunksUsed.startChange { m with gang := some g' }).gangAck := by
    unfold State.takePrepare
    rw [h]
    rfl
  rw [htake]
  generalize s.chunksUsed.startChange { m with gang := some g' } = v at hmc hframe
  have hring : v.ring = s.chunksUsed.ring := hframe.2 .ring (by decide)
  have hcommit := State.gangCheck_committed h
  have hchunks : Frame [.mc, .ring, .ctl, .evt, .mbx, .slices] s s.chunksUsed := (s.modRing_frame _).mono (by decide)
  have hcases := State.gangAck_cases hmc rfl (by rw [hring]; exact hother) hawait hsent hcommit
  cases ackd with
  | false =>
    have hunits : v.unitsAcked = false := by rw [State.unitsAcked, hmc]
    rw [hcases.trans (if_neg Bool.false_ne_true), hunits, if_neg Bool.false_ne_true, hring]
    exact ⟨_, hmc, rfl, rfl, rfl, rfl, hcommit, rfl, by rw [← hout]; rfl, hchunks.trans (hframe.mono (by decide))⟩
  | true =>
    let u : ModeChg := { m with
      start := s.sys.ltc, acked := acked, ackd := true, gang := some { g' with awaiting := [g.master] } }
    have hsend : ({ v with mc := some u }).sendAck g' eOk = ({ v with mc := some u }).modRing fun r =>
        { r with out := [ringFrame 4 s.ring.id g.master [g.xid, eOk.setWidth 16]] } := by
      rw [State.sendAck, State.ringSend_present (by rw [hring]; exact hpresent), hring]
      rfl
    have hsent : Frame [.mc, .ring, .ctl, .evt, .mbx, .slices] v (({ v with mc := some u }).sendAck g' eOk) := by
      rw [hsend]
      exact ((State.setMc_frame ..).mono (by decide)).trans ((State.modRing_frame ..).mono (by decide))
    have hack : v.gangAck = ({ v with mc := some u }).sendAck g' eOk := hcases.trans (if_pos rfl)
    rw [hack, hsend]
    rw [hsend] at hsent
    refine ⟨u, rfl, rfl, rfl, rfl, rfl, hcommit, rfl, ?_, hchunks.trans ((hframe.mono (by decide)).trans hsent)⟩
    exact congrArg (fun r : Ring => { r with out := [ringFrame 4 s.ring.id g.master [g.xid, eOk.setWidth 16]] }) hring

end Sys2Proof.Machine
end

section
/-! ### COMMIT and ABORT (R859, R861) -/

namespace Sys2Proof.Machine

variable {s t : State} {src : Fin 8}

/-- A change that ends without its commit discards the shadow timing sets of a rate change (R806, R861). -/
def State.shadowsDropped (s : State) (m : ModeChg) : State := if m.what = .rate then s.dropShadows else s

theorem State.shadowsDropped_frame (s : State) (m : ModeChg) : Frame [.slices] s (s.shadowsDropped m) :=
  .ite (State.each_frame _ fun t p => t.modSlice_frame p _) (.refl ..)

theorem State.shadowsDropped_setRing (s : State) (m : ModeChg) (r : Ring) :
    (s.setRing r).shadowsDropped m = (s.shadowsDropped m).setRing r := by
  unfold State.shadowsDropped
  split
  · exact RingFree.dropShadows s r
  · rfl

/-- What of the ABORT of a gang's master drives its frame. -/
def State.abortSent (s : State) (g : Gang) : State :=
  if g.master = s.ring.id then s.ringSend [ringFrame 6 s.ring.id s.ring.id [g.xid]] else s

theorem State.abortChange_eq {m : ModeChg} {g : Gang} (hmc : s.mc = some m) (hg : m.gang = some g) (err : BitVec 8) :
    s.abortChange err = (State.abortSent { s.shadowsDropped m with mc := none } g).changeAnswer m err := by
  have hring : (s.shadowsDropped m).ring = s.ring := (s.shadowsDropped_frame m).2 .ring (by decide)
  unfold State.abortChange
  split
  next h => rw [h] at hmc; cases hmc
  next n h =>
    obtain rfl : n = m := by rw [hmc] at h; exact (Option.some.inj h).symm
    extract_lets s0 s1 s2
    have hs0 : s0 = s.shadowsDropped n := by
      unfold State.shadowsDropped
      cases hwhat : n.what <;> simp only [s0, hwhat] <;> rfl
    have hs1 : s1 = { s.shadowsDropped n with mc := none } := by rw [← hs0]
    have hs2 : s2 = State.abortSent s1 g := by
      simp only [s2, hg, State.abortSent]
      rw [hs1, hring]
    rw [hs2, hs1]

section
variable {xid : BitVec 16} {m : ModeChg} {g : Gang} (hlive : s.ringLive = true) (hsrc : src.val ≠ s.ring.id)
include hlive hsrc

/-- COMMIT of the accepted transaction: the change waits for its boundary. -/
theorem exec_commit_accepted (hmc : s.mc = some m) (hg : m.gang = some g) (hmaster : g.master = src.val) (hxid : g.xid = xid)
    (hawait : g.awaiting ≠ []) (hsent : g.sent = false) : exec (.commit src xid) s = .next { s with
      mc := some { m with acked := s.sys.ltc, gang := some { g with sent := true } }
      ring := { s.ring with out := [ringFrame 5 src.val src.val [xid]] } } := by
  refine exec_broadcast (u := { s.ringDrive [] with mc := some { m with acked := s.sys.ltc, gang := some { g with sent := true } } })
    hlive hsrc ?_
  change (match s.mc with | some m => _ | none => _) = _
  rw [hmc]
  change (match m.gang with | some g => _ | none => _) = _
  rw [hg]
  have hsrc' : src.val ≠ (s.ringDrive []).ring.id := hsrc
  exact if_pos (by simp [hmaster, hsrc', hxid, hawait, hsent])

theorem exec_commit_ignored (hmc : s.mc = some m) (hg : m.gang = some g)
    (h : g.xid ≠ xid ∨ g.awaiting = [] ∨ g.sent = true) : exec (.commit src xid) s =
      .next { s with ring := { s.ring with out := [ringFrame 5 src.val src.val [xid]] } } := by
  refine exec_broadcast (u := s.ringDrive []) hlive hsrc ?_
  change (match s.mc with | some m => _ | none => _) = _
  rw [hmc]
  change (match m.gang with | some g => _ | none => _) = _
  rw [hg]
  exact if_neg (by rcases h with h | h | h <;> simp [h])

/-- ABORT of another transaction, or past the boundary. -/
theorem exec_abort_ignored (hmc : s.mc = some m) (hg : m.gang = some g) (hheld : s.ring.gang = none)
    (h : g.xid ≠ xid ∨ m.committed = true) : exec (.abort src xid) s =
      .next { s with ring := { s.ring with out := [ringFrame 6 src.val src.val [xid]] } } := by
  refine exec_broadcast (u := s.ringDrive []) hlive hsrc ?_
  have hring : (s.ringDrive []).ring.gang = none := hheld
  have hmc' : (s.ringDrive []).mc = some m := hmc
  dsimp only
  rw [hring]
  dsimp only
  rw [if_neg Bool.false_ne_true, hmc']
  dsimp only
  rw [hg]
  exact if_neg (by rcases h with h | h <;> simp [h])

/-- ABORT of the transaction: the change is gone. -/
theorem exec_abort_change (hmc : s.mc = some m) (hg : m.gang = some g) (hmaster : g.master = src.val)
    (hheld : s.ring.gang = none) (hxid : g.xid = xid) (hcommit : m.committed = false) (hpend : m.pend = false) (hopc : m.opc = 0) :
    exec (.abort src xid) s = .next { s.shadowsDropped m with
      mc := none
      ring := { s.ring with out := [ringFrame 6 src.val src.val [xid]] } } := by
  refine exec_broadcast (u := { (s.shadowsDropped m).setRing { s.ring with out := [] } with mc := none }) hlive hsrc ?_
  have hring : (s.ringDrive []).ring.gang = none := hheld
  have hmc' : (s.ringDrive []).mc = some m := hmc
  have hdrop : (s.ringDrive []).shadowsDropped m = (s.shadowsDropped m).setRing { s.ring with out := [] } :=
    s.shadowsDropped_setRing m { s.ring with out := [] }
  have hgo : (decide (g.master = src.val) && decide (g.master ≠ s.ring.id) && decide (g.xid = xid) && !m.committed) = true := by
    simp [hmaster, hsrc, hxid, hcommit]
  dsimp only
  rw [hring]
  dsimp only
  rw [if_neg Bool.false_ne_true, hmc']
  dsimp only
  rw [hg]
  refine (if_pos hgo).trans ?_
  rw [State.abortChange_eq hmc' hg, hdrop, State.abortSent, if_neg (by rw [hmaster]; exact hsrc), State.changeAnswer,
    hpend, if_neg Bool.false_ne_true, if_pos hopc]

/-- ABORT of a PREPARE that the member holds or has refused. -/
theorem exec_abort_held (hmc : s.mc = none) (hheld : s.ring.gang = some g) (hmaster : g.master = src.val) (hxid : g.xid = xid) :
    exec (.abort src xid) s = .next { s with ring := { s.ring with
      out := [ringFrame 6 src.val src.val [xid]], gang := none, chunks := [] } } := by
  refine exec_broadcast (u := (s.ringDrive []).modRing fun r => { r with gang := none, chunks := [] }) hlive hsrc ?_
  have hring : (s.ringDrive []).ring.gang = some g := hheld
  have hmc' : ((s.ringDrive []).modRing fun r => { r with gang := none, chunks := [] }).mc = none := hmc
  dsimp only
  rw [hring]
  dsimp only
  rw [if_pos (by simp [hmaster, hxid]), hmc']

end

/-! #### PREPARE, case by case (R802, R859, R860) -/

section
variable {xid : BitVec 16} {op : BitVec 8} {arg crc : BitVec 32} (hlive : s.ringLive = true) (hsrc : src.val ≠ s.ring.id)
  (hon : s.gangOn = true) (hm : src.val = s.ring.master)
include hlive hsrc hon hm

/-- A member in Frost passes through Thaw first. -/
theorem exec_prepare_frost (hphase : s.sys.phase = .frost) (hlatch : s.therm.latch = false) :
    exec (.prepare src xid op arg crc) s = .next (State.takeLines { s with
      sys := { s.sys with phase := .thaw, wakeLtc := s.sys.ltc }
      ring := { s.ring with
        out := [ringFrame 3 src.val src.val ([xid, op.setWidth 16] ++ words16 2 arg.toNat ++ words16 2 crc.toNat)]
        gang := some (heldGang src xid op arg crc s.sys.ltc) } }) := by
  let g := heldGang src xid op arg crc s.sys.ltc
  let f := ringFrame 3 src.val src.val ([xid, op.setWidth 16] ++ words16 2 arg.toNat ++ words16 2 crc.toNat)
  let x : State := (s.holdsPrepare g).modSys fun y => { y with phase := .thaw, wakeLtc := s.sys.ltc }
  have hout : x.takeLines.ring.out = [] := congrArg Ring.out x.takeLines_ring
  have hdrive : x.takeLines.ringDrive (f :: x.takeLines.ring.out) = x.takeLines.setRing { x.ring with out := [f] } := by
    rw [hout, State.ringDrive, State.modRing, x.takeLines_ring]
    rfl
  refine (exec_prepare hlive hsrc hon hm (u := x.takeLines) (State.prepared_frost g hphase hlatch)).trans
    (congrArg Host.Outcome.next (hdrive.trans ?_))
  exact (RingFree.takeLines x { x.ring with out := [f] }).symm

/-- A member in Thaw holds the PREPARE until it runs. -/
theorem exec_prepare_thaw (hphase : s.sys.phase = .thaw) (hlatch : s.therm.latch = false) :
    exec (.prepare src xid op arg crc) s = .next { s with ring := { s.ring with
      out := [ringFrame 3 src.val src.val ([xid, op.setWidth 16] ++ words16 2 arg.toNat ++ words16 2 crc.toNat)]
      gang := some (heldGang src xid op arg crc s.sys.ltc) } } :=
  exec_prepare hlive hsrc hon hm (State.prepared_thaw _ hphase hlatch)

variable (hrun : (s.sys.phase ≠ .frost ∧ s.sys.phase ≠ .thaw) ∨ s.therm.latch = true)
include hrun

theorem exec_prepare_refused {e : BitVec 8}
    (h : s.gangCheck (heldGang src xid op arg crc s.sys.ltc) s.modechg = .inl e) :
    exec (.prepare src xid op arg crc) s = .next { s with ring := { s.ring with
      out := [ringFrame 3 src.val src.val ([xid, op.setWidth 16] ++ words16 2 arg.toNat ++ words16 2 crc.toNat),
        ringFrame 4 s.ring.id src.val [xid, e.setWidth 16]]
      chunks := []
      gang := some { heldGang src xid op arg crc s.sys.ltc with sent := true } } } := by
  have hcheck := (s.gangCheck_holdsPrepare (heldGang src xid op arg crc s.sys.ltc) s.modechg).trans h
  exact exec_prepare hlive hsrc hon hm ((State.prepared_running _ hrun).trans
    (State.takePrepare_refuses (s := s.holdsPrepare _) (present_of_ringLive hlive) hcheck))

theorem exec_prepare_accepted {m : ModeChg}
    (h : s.gangCheck (heldGang src xid op arg crc s.sys.ltc) s.modechg = .inr m) :
    ∃ t u, exec (.prepare src xid op arg crc) s = .next t ∧ t.mc = some u ∧
      u.what = m.what ∧ u.cfg = m.cfg ∧ u.rate = m.rate ∧ u.det = m.det ∧ u.committed = false ∧ u.start = s.sys.ltc ∧
      t.ring.chunks = [] ∧ t.ring.gang = none ∧
      t.ring.out = (if t.unitsAcked = true then
        [ringFrame 3 src.val src.val ([xid, op.setWidth 16] ++ words16 2 arg.toNat ++ words16 2 crc.toNat),
          ringFrame 4 s.ring.id src.val [xid, eOk.setWidth 16]]
        else [ringFrame 3 src.val src.val ([xid, op.setWidth 16] ++ words16 2 arg.toNat ++ words16 2 crc.toNat)]) ∧
      t.cfg = s.cfg ∧ t.det = s.det ∧ t.mem = s.mem := by
  have hcheck := (s.gangCheck_holdsPrepare (heldGang src xid op arg crc s.sys.ltc) s.modechg).trans h
  obtain ⟨u, hmc, hwhat, hcfg, hrate, hdet, hcommit, hstart, hring, hframe⟩ :=
    State.takePrepare_accepts (s := s.holdsPrepare (heldGang src xid op arg crc s.sys.ltc)) (present_of_ringLive hlive) rfl hsrc
      rfl rfl hcheck
  have hexec := exec_prepare hlive hsrc hon hm (State.prepared_running (heldGang src xid op arg crc s.sys.ltc) hrun)
  generalize (s.holdsPrepare (heldGang src xid op arg crc s.sys.ltc)).takePrepare _ s.modechg = v at *
  have hheld : Frame [.mc, .ring, .ctl, .evt, .mbx, .slices] s (s.holdsPrepare (heldGang src xid op arg crc s.sys.ltc)) :=
    ((s.modRing_frame _).trans (State.modRing_frame ..)).mono (by decide)
  have hall := hheld.trans hframe
  refine ⟨_, u, hexec, hmc, hwhat, hcfg, hrate, hdet, hcommit, hstart, congrArg Ring.chunks hring, congrArg Ring.gang hring, ?_,
    hall.2 .cfg (by decide), hall.2 .det (by decide), hall.2 .mem (by decide)⟩
  have hout := congrArg Ring.out hring
  have hunits : (v.ringDrive (ringFrame 3 src.val src.val
      ([xid, op.setWidth 16] ++ words16 2 arg.toNat ++ words16 2 crc.toNat) :: v.ring.out)).unitsAcked = v.unitsAcked := rfl
  rw [hunits]
  change _ :: v.ring.out = _
  rw [hout]
  cases v.unitsAcked <;> rfl

end

end Sys2Proof.Machine
end

section
/-! ### The master of a gang (R859, R861) and aggregation (R876 to R880) -/

namespace Sys2Proof.Machine

variable {s t : State} {src : Fin 8}

theorem State.ended_of_ne {err : BitVec 8} (h : err ≠ eOk) (l : List Word) : s.ended err l = s.ended err [] := by
  simp only [State.ended, if_neg h]

theorem State.changeWords_of {u : State} (hcfg : u.cfg = s.cfg) (hsys : u.sys = s.sys) (hdet : u.det = s.det) (op : BitVec 8) :
    u.changeWords op = s.changeWords op := by
  rw [State.changeWords, State.changeWords, hcfg, hsys, hdet]

theorem State.ended_of_mbx {u : State} (h : u.mbx = s.mbx) (err : BitVec 8) (l : List Word) : u.ended err l = s.ended err l := by
  rw [State.ended, State.ended, h]

theorem State.finish_eq (s : State) (err : BitVec 8) (l : List Word) : s.finish err l = { s with mbx := s.ended err l } := rfl

/-- A master that gives up broadcasts ABORT, discards the change and ends its command. -/
theorem State.abortChange_master {m : ModeChg} {g : Gang} (hpresent : s.ring.present = true) (hmc : s.mc = some m)
    (hg : m.gang = some g) (hmaster : g.master = s.ring.id) (hpend : m.pend = false) (hopc : m.opc ≠ 0) (err : BitVec 8) :
    s.abortChange err = { s.shadowsDropped m with
      mc := none
      ring := { s.ring with out := [ringFrame 6 s.ring.id s.ring.id [g.xid]] }
      mbx := s.ended err (s.changeWords m.opc) } := by
  have hframe := s.shadowsDropped_frame m
  rw [State.abortChange_eq hmc hg]
  generalize s.shadowsDropped m = u at hframe
  have hring : u.ring = s.ring := hframe.2 .ring (by decide)
  obtain ⟨w, hw⟩ : ∃ w : State, w = { u with
      mc := none, ring := { s.ring with out := [ringFrame 6 s.ring.id s.ring.id [g.xid]] } } := ⟨_, rfl⟩
  have hsent : State.abortSent { u with mc := none } g = w := by
    rw [State.abortSent, if_pos (by rw [hring]; exact hmaster), State.ringSend_present (by rw [hring]; exact hpresent),
      State.modRing, hring, hw]
  have hwords : w.changeWords m.opc = s.changeWords m.opc := State.changeWords_of (by rw [hw]; exact hframe.2 .cfg (by decide))
    (by rw [hw]; exact hframe.2 .sys (by decide)) (by rw [hw]; exact hframe.2 .det (by decide)) _
  have hended := State.ended_of_mbx (u := w) (s := s) (by rw [hw]; exact hframe.2 .mbx (by decide)) err (s.changeWords m.opc)
  rw [hsent, State.changeAnswer, hpend, if_neg Bool.false_ne_true, if_neg hopc, State.finish_eq, hwords, hended, hw]

theorem State.shadowsDropped_of_what {m n : ModeChg} (h : n.what = m.what) : s.shadowsDropped n = s.shadowsDropped m := by
  rw [State.shadowsDropped, State.shadowsDropped, h]

/-- The shadow timing sets are discarded whatever change is in force. -/
theorem State.shadowsDropped_withMc (s : State) (c : Option ModeChg) (m : ModeChg) :
    (s.withMc c).shadowsDropped m = (s.shadowsDropped m).withMc c := by
  have heach (l : List Nat) (s : State) : (s.withMc c).each l (fun s p => s.modBt p fun b => { b with tim2 := b.tim }) =
      (s.each l fun s p => s.modBt p fun b => { b with tim2 := b.tim }).withMc c := by
    induction l generalizing s with
    | nil => rfl
    | cons p l ih => exact ih (s.modBt p fun b => { b with tim2 := b.tim })
  unfold State.shadowsDropped
  split
  · exact heach (List.range 144) s
  · rfl

/-- The gang transaction once `src` has answered with `err`, when none has refused before (R861). -/
def Gang.answered (g : Gang) (src : Fin 8) (err : BitVec 8) : Gang :=
  { g with
    awaiting := g.awaiting.filter fun i => i != src.val
    err := if err = eOk then g.err else err
    errId := if err = eOk then 8 else src.val }

/-- The gang transaction once `src` has answered with `err`: of the members that refuse, the one with the lowest ring ID gives
its code (R861). -/
def Gang.answeredBy (g : Gang) (src : Fin 8) (err : BitVec 8) : Gang :=
  let worse := err ≠ eOk && decide (src.val < g.errId)
  { g with awaiting := g.awaiting.filter (fun i => i != src.val),
           err := if worse then err else g.err, errId := if worse then src.val else g.errId }

theorem Gang.answeredBy_eq (g : Gang) (src : Fin 8) (err : BitVec 8) (hnone : g.errId = 8) :
    g.answeredBy src err = g.answered src err := by
  have hsrc := src.isLt
  by_cases herr : err = eOk <;> simp [Gang.answeredBy, Gang.answered, herr, hnone, hsrc]

section
variable {xid : BitVec 16} {err : BitVec 8} {m : ModeChg} {g : Gang} (hlive : s.ringLive = true) (hmc : s.mc = some m)
  (hg : m.gang = some g)
include hlive hmc hg

theorem exec_ack_ignored (h : g.master ≠ s.ring.id ∨ g.xid ≠ xid ∨ src.val ∉ g.awaiting) :
    exec (.ack src xid err) s = .next s := by
  refine congrArg Host.Outcome.next ((State.onUnicast_taken hlive).trans ?_)
  dsimp only
  rw [hmc]
  dsimp only
  rw [hg]
  exact if_pos (by simpa [or_assoc] using h)

/-- An answer that the master awaits, with none that has refused before. -/
theorem exec_ack (hmaster : g.master = s.ring.id) (hxid : g.xid = xid) (hawait : src.val ∈ g.awaiting) (hnone : g.errId = 8) :
    exec (.ack src xid err) s = .next (
      if (g.answered src err).awaiting ≠ [] then { s with mc := some { m with gang := some (g.answered src err) } }
      else if err ≠ eOk then
        State.abortChange { s with mc := some { m with gang := some (g.answered src err) } } (g.answered src err).err
      else State.gangGo { s with mc := some { m with gang := some (g.answered src err) } }) := by
  have hrefused : (g.answered src err).errId < 8 ↔ err ≠ eOk := by
    by_cases herr : err = eOk <;> simp [Gang.answered, herr]
  refine congrArg Host.Outcome.next ((State.onUnicast_taken hlive).trans ?_)
  dsimp only
  rw [hmc]
  dsimp only
  rw [hg]
  refine (if_neg (by simp [hmaster, hxid, hawait])).trans ?_
  change (if !(g.answeredBy src err).awaiting.isEmpty then { s with mc := some { m with gang := some (g.answeredBy src err) } }
    else if (g.answeredBy src err).errId < 8 then
      State.abortChange { s with mc := some { m with gang := some (g.answeredBy src err) } } (g.answeredBy src err).err
    else State.gangGo { s with mc := some { m with gang := some (g.answeredBy src err) } }) = _
  rw [g.answeredBy_eq src err hnone]
  exact if_congr (by simp) rfl (if_congr hrefused rfl rfl)

omit hlive in
theorem exec_gangPrepareTimeout_early (h : g.master ≠ s.ring.id ∨ g.awaiting = [] ∨ s.sys.ltc < g.start + 400000) :
    exec .gangPrepareTimeout s = .next s := by
  change execGangPrepareTimeout s = _
  unfold execGangPrepareTimeout
  rw [hmc]
  dsimp only
  rw [hg]
  exact congrArg Host.Outcome.next (if_pos (by simpa [or_assoc] using h))

theorem exec_gangPrepareTimeout_due (hmaster : g.master = s.ring.id) (hawait : g.awaiting ≠ [])
    (hdue : g.start + 400000 ≤ s.sys.ltc) (hpend : m.pend = false) (hopc : m.opc ≠ 0) :
    exec .gangPrepareTimeout s = .next { s.shadowsDropped m with
      mc := none
      ring := { s.ring with out := [ringFrame 6 s.ring.id s.ring.id [g.xid]] }
      mbx := s.ended (if g.errId < 8 then g.err else eAborted) (s.changeWords m.opc) } := by
  rw [← State.abortChange_master (present_of_ringLive hlive) hmc hg hmaster hpend hopc]
  change execGangPrepareTimeout s = _
  unfold execGangPrepareTimeout
  rw [hmc]
  dsimp only
  rw [hg]
  exact congrArg Host.Outcome.next (if_neg (by simpa [hmaster, hawait] using hdue))

variable (hmaster : g.master = s.ring.id) (hxid : g.xid = xid) (hawait : src.val ∈ g.awaiting) (hnone : g.errId = 8)
include hmaster hxid hawait hnone

/-- With the last acceptance COMMIT goes out once the own units have acknowledged. -/
theorem exec_ack_commits (hsent : g.sent = false) (hlast : (g.awaiting.filter fun i => i != src.val) = [])
    (hunits : s.unitsAcked = true) : exec (.ack src xid eOk) s = .next { s with
      mc := some { m with acked := s.sys.ltc, gang := some { g with awaiting := [], sent := true } }
      ring := { s.ring with out := [ringFrame 5 s.ring.id s.ring.id [xid]] } } := by
  have hackd : m.ackd = true := by rwa [State.unitsAcked, hmc] at hunits
  have hanswered : g.answered src eOk = { g with awaiting := [] } := by
    simp only [Gang.answered, hlast, if_true, ← hnone]
  rw [exec_ack hlive hmc hg hmaster hxid hawait hnone, hanswered, if_neg (not_not_intro rfl), if_neg (not_not_intro rfl)]
  refine congrArg Host.Outcome.next ((if_pos ?_).trans ((State.ringSend_present ?_ _).trans ?_))
  · simp [hmaster, hsent, hnone, hackd]
  · exact present_of_ringLive hlive
  · rw [← hxid]
    rfl

/-- After a refusal ABORT goes out with the refusing member's code. -/
theorem exec_ack_aborts (hpend : m.pend = false) (hopc : m.opc ≠ 0) (hlast : (g.awaiting.filter fun i => i != src.val) = [])
    (herr : err ≠ eOk) : exec (.ack src xid err) s = .next { s.shadowsDropped m with
      mc := none
      ring := { s.ring with out := [ringFrame 6 s.ring.id s.ring.id [xid]] }
      mbx := s.ended err [] } := by
  have hcode : (g.answered src err).err = err := if_neg herr
  have hlast' : (g.answered src err).awaiting = [] := hlast
  have habort := State.abortChange_master (s := s.withMc (some { m with gang := some (g.answered src err) }))
    (present_of_ringLive hlive) rfl rfl hmaster hpend hopc err
  have hanswer : exec (.ack src xid err) s =
      .next ((s.withMc (some { m with gang := some (g.answered src err) })).abortChange err) := by
    rw [exec_ack hlive hmc hg hmaster hxid hawait hnone, if_neg (not_not_intro hlast'), if_pos herr, hcode]
    rfl
  rw [hanswer, habort, State.ended_of_ne herr, State.shadowsDropped_withMc, s.shadowsDropped_of_what rfl, ← hxid]
  rfl

end

/-! #### Aggregation (R876 to R879) -/

theorem insertPart_self (id : Nat) (d : BitVec 256) (l : List (Nat × BitVec 256)) : (id, d) ∈ insertPart id d l := by
  induction l with
  | nil => exact List.mem_singleton.2 rfl
  | cons x l ih =>
    unfold insertPart
    split
    · exact List.mem_cons_self ..
    · split
      next h => rw [h]; exact List.mem_cons_self ..
      · exact List.mem_cons_of_mem _ ih

theorem insertPart_of_mem {id : Nat} {d : BitVec 256} {l : List (Nat × BitVec 256)} {y : Nat × BitVec 256}
    (h : y ∈ insertPart id d l) : y.1 = id ∨ y ∈ l := by
  induction l with
  | nil => exact .inl (by rw [List.mem_singleton.1 h])
  | cons x l ih =>
    unfold insertPart at h
    split at h
    · exact (List.mem_cons.1 h).imp (fun h => by rw [h]) fun h => h
    · split at h
      next hx =>
        rcases List.mem_cons.1 h with h | h
        · exact .inl (by rw [h, hx])
        · exact .inr (List.mem_cons_of_mem _ h)
      · rcases List.mem_cons.1 h with h | h
        · exact .inr (by rw [h]; exact List.mem_cons_self ..)
        · exact (ih h).imp_right (List.mem_cons_of_mem _)

/-- The aggregate of stream `i` and fence `n` so far, or an empty one that begins now. -/
def State.aggSoFar (s : State) (i : Nat) (n : BitVec 32) : Aggr :=
  (s.ring.aggs.find? fun a => a.stream == i && a.n == n).getD
    ⟨i, n, s.sys.ltc, [], BitVec.ofNat 64 (Config.freeWord s.sys.free 0).toNat, BitVec.ofNat 64 (Config.freeWord s.sys.free 1).toNat⟩

theorem State.aggSoFar_key (s : State) (i : Nat) (n : BitVec 32) : (s.aggSoFar i n).stream = i ∧ (s.aggSoFar i n).n = n := by
  unfold State.aggSoFar
  cases h : s.ring.aggs.find? fun a => a.stream == i && a.n == n with
  | none => exact ⟨rfl, rfl⟩
  | some a => simpa using List.find?_some h

theorem State.aggSoFar_parts {i j : Nat} {n : BitVec 32}
    (h : ∀ a ∈ s.ring.aggs, a.stream = i → a.n = n → ∀ x ∈ a.parts, x.1 ≠ j) : ∀ x ∈ (s.aggSoFar i n).parts, x.1 ≠ j := by
  have hkey := s.aggSoFar_key i n
  unfold State.aggSoFar at hkey ⊢
  cases hfind : s.ring.aggs.find? fun a => a.stream == i && a.n == n with
  | none => exact fun x hx => absurd hx List.not_mem_nil
  | some a =>
    rw [hfind] at hkey
    exact h a (List.mem_of_find?_eq_some hfind) hkey.1 hkey.2

/-- A contribution to an aggregate that still waits for a member. -/
theorem State.aggAdd_waits {i id j : Nat} {n : BitVec 32} {d : BitVec 256} (hdone : Tab.get none s.ring.gdone i = none)
    (hj : j ∈ s.aggGroup i) (hid : j ≠ id)
    (hopen : ∀ a ∈ s.ring.aggs, a.stream = i → a.n = n → ∀ x ∈ a.parts, x.1 ≠ j) :
    s.aggAdd i n id d none = (s.modRing fun r => { r with aggs :=
      (r.aggs.filter fun x => !(x.stream == i && x.n == n)) ++
        [{ s.aggSoFar i n with parts := insertPart id d (s.aggSoFar i n).parts }] }).nextFree := by
  have hmissing : ¬ ((s.aggGroup i).all fun k => (insertPart id d (s.aggSoFar i n).parts).any fun p => p.1 == k) = true := by
    intro hall
    obtain ⟨x, hx, hxj⟩ := List.any_eq_true.1 (List.all_eq_true.1 hall j hj)
    rcases insertPart_of_mem hx with h | h
    · exact hid ((beq_iff_eq.1 hxj).symm.trans h)
    · exact State.aggSoFar_parts hopen x h (beq_iff_eq.1 hxj)
  unfold State.aggAdd
  rw [hdone]
  exact (if_neg Bool.false_ne_true).trans (if_neg hmissing)

section
variable {i : Fin 16} {n : BitVec 32} {d : BitVec 256} (hlive : s.ringLive = true)
include hlive

theorem exec_digest : exec (.digest src i n d) s = .next
    (if s.isMaster && s.masterAgg.testBit i.val && (s.aggGroup i.val).contains src.val then s.aggAdd i.val n src.val d none
      else s) := congrArg Host.Outcome.next (State.onUnicast_taken hlive)

theorem exec_digest_ignored (h : s.isMaster = false ∨ s.masterAgg.testBit i.val = false ∨ src.val ∉ s.aggGroup i.val) :
    exec (.digest src i n d) s = .next s := by
  rw [exec_digest hlive, if_neg]
  rcases h with h | h | h <;> simp [h]

theorem exec_digest_joins {j : Nat} (hmaster : s.isMaster = true) (hagg : s.masterAgg.testBit i.val = true)
    (hsrc : src.val ∈ s.aggGroup i.val) (hdone : Tab.get none s.ring.gdone i.val = none) (hj : j ∈ s.aggGroup i.val)
    (hid : j ≠ src.val) (hopen : ∀ a ∈ s.ring.aggs, a.stream = i.val → a.n = n → ∀ x ∈ a.parts, x.1 ≠ j) :
    ∃ t a, exec (.digest src i n d) s = .next t ∧ a ∈ t.ring.aggs ∧ a.stream = i.val ∧ a.n = n ∧ (src.val, d) ∈ a.parts ∧
      t.ring = { s.ring with aggs := t.ring.aggs } ∧ Frame [.ring, .sys] s t := by
  have hexec := exec_digest (src := src) (i := i) (n := n) (d := d) hlive
  rw [if_pos (by simp [hmaster, hagg, hsrc]), State.aggAdd_waits hdone hj hid hopen] at hexec
  obtain ⟨hstream, hn⟩ := s.aggSoFar_key i.val n
  exact ⟨_, { s.aggSoFar i.val n with parts := insertPart src.val d (s.aggSoFar i.val n).parts }, hexec,
    List.mem_append_right _ (List.mem_singleton.2 rfl), hstream, hn, insertPart_self .., rfl,
    ((s.modRing_frame _).mono (by decide)).trans ((State.nextFree_frame _).mono (by decide))⟩

end

theorem State.aggClose_eq (s : State) (a : Aggr) : s.aggClose a = { s with
    ring := { s.ring with
      aggs := s.ring.aggs.filter fun x => !(x.stream == a.stream && x.n == a.n)
      gdone := Tab.set none s.ring.gdone a.stream (some a.n)
      gprev := Tab.set 0 s.ring.gprev a.stream (aggDigest (Tab.get 0 s.ring.gprev a.stream) a.stream a.n a.parts) }
    det := { s.det with recs := s.det.recs ++ if s.recEn = true then
      [⟨16 + a.stream, a.n, s.sys.ltc, a.bytes, a.pieces, aggDigest (Tab.get 0 s.ring.gprev a.stream) a.stream a.n a.parts, none,
        false, none⟩] else [] } } := by
  unfold State.aggClose
  dsimp only
  split
  · rfl
  · rw [List.append_nil]
    rfl

end Sys2Proof.Machine
end

section
/-! ### Gang frames and aggregates (R859 to R861, R876 to R879) -/

namespace Sys2Proof.Machine

variable {s : State}

/-- The oldest aggregate of a stream that is due closes with what it holds (R879). -/
theorem exec_aggTimeout (i : Fin 16) :
    let due := s.ring.aggs.find? fun a => a.stream == i.val && decide (a.first + 4000000 ≤ s.sys.ltc)
    (due = none → exec (.aggTimeout i) s = .next s) ∧
    (∀ a, due = some a →
      let d := aggDigest (Tab.get 0 s.ring.gprev i.val) i.val a.n a.parts
      exec (.aggTimeout i) s = .next { s with
        ring := { s.ring with
          aggs := s.ring.aggs.filter fun x => !(x.stream == i.val && x.n == a.n)
          gdone := Tab.set none s.ring.gdone i.val (some a.n)
          gprev := Tab.set 0 s.ring.gprev i.val d }
        det := { s.det with recs := s.det.recs ++
          if s.recEn = true then [⟨16 + i.val, a.n, s.sys.ltc, a.bytes, a.pieces, d, none, false, none⟩] else [] } }) := by
  have hexec : exec (.aggTimeout i) s = .next
      (match s.ring.aggs.find? fun a => a.stream == i.val && decide (a.first + 4000000 ≤ s.sys.ltc) with
        | some a => s.aggClose a
        | none => s) := rfl
  refine ⟨fun h => ?_, fun a h => ?_⟩
  · rw [hexec, h]
  · have hstream : a.stream = i.val := by
      have hfound := List.find?_some h
      exact beq_iff_eq.1 ((Bool.and_eq_true ..).mp hfound).1
    rw [hexec, h]
    dsimp only
    rw [State.aggClose_eq, hstream]

/-- Settles O58: a frame of the gang's master passes on, with what the member answers behind it; the answers at the master
and its time-out decide between COMMIT and ABORT; a part joins its aggregate. -/
theorem gangFrames : Obligations.GangFrames := by
  intro s hlive out id dropped
  refine ⟨fun src hsrc => ⟨image_cases hlive hsrc, fun xid op arg crc => ?_, fun xid m g hmc hg hmaster => ?_,
    fun xid g hmc hheld hmaster hxid => exec_abort_held hlive hsrc hmc hheld hmaster hxid⟩,
    fun src xid err m g hmc hg => ?_, fun m g hmc hg => ?_, fun src i n d => ?_, exec_aggTimeout⟩
  · refine ⟨exec_prepare_ignored hlive hsrc, fun hon hm => ⟨exec_prepare_frost hlive hsrc hon hm,
      exec_prepare_thaw hlive hsrc hon hm, fun hrun => ⟨fun e he => exec_prepare_refused hlive hsrc hon hm hrun he,
        fun m he => exec_prepare_accepted hlive hsrc hon hm hrun he⟩⟩⟩
  · exact ⟨exec_commit_ignored hlive hsrc hmc hg, exec_commit_accepted hlive hsrc hmc hg hmaster,
      exec_abort_ignored hlive hsrc hmc hg, fun hheld hxid hcommit hpend hopc =>
        exec_abort_change hlive hsrc hmc hg hmaster hheld hxid hcommit hpend hopc⟩
  · refine ⟨exec_ack_ignored hlive hmc hg, fun hmaster hxid hawait hsent hnone hpend hopc => ⟨fun hrest => ?_,
      fun hrest herr hunits => ?_, fun hrest herr =>
        exec_ack_aborts hlive hmc hg hmaster hxid hawait hnone hpend hopc hrest herr⟩⟩
    · have hrest' : (g.answered src err).awaiting ≠ [] := hrest
      rw [exec_ack hlive hmc hg hmaster hxid hawait hnone, if_pos hrest']
      rfl
    · subst herr
      exact exec_ack_commits hlive hmc hg hmaster hxid hawait hnone hsent hrest hunits
  · exact ⟨exec_gangPrepareTimeout_early hmc hg, exec_gangPrepareTimeout_due hlive hmc hg⟩
  · exact ⟨exec_digest_ignored hlive, fun j => exec_digest_joins hlive⟩

end Sys2Proof.Machine
end

section
/-! ### One CCLK of a channel: its start and its end (R211, R239, R594) -/

namespace Sys2Proof.Machine

variable {s t u : State} {p : Nat} {x : Slice}

/-- A new frame of the bundle, which keeps the row half that another row has taken the slot with (R594). -/
def Slice.newFrame (x : Slice) : Slice :=
  { x with link := { x.link with frame := if x.sch.rowTaken then (x.link.frame.setWidth 50).setWidth 80 else 0 } }

/-- The CCLK begins with a new frame. -/
def State.cclkBegun (s : State) (p : Nat) : State := s.modSlice p fun x =>
  { x with link := { x.link with frame := if (s.slice p).sch.rowTaken then (x.link.frame.setWidth 50).setWidth 80 else 0 } }

/-- The CCLK is over (R239). -/
def State.cclkOver (s : State) (p n : Nat) : State :=
  (s.readQueue p).modSch p fun x => { x with cclk := n + 1, rowTaken := false, cls := s.wantsClass p }

/-- What waited for its charge is tried again, and what held data can answer is answered (R207, R208, R263). -/
def State.cclkServed (s : State) (p : Nat) : State :=
  ((((((s.retryRepairs p).retryCompares p).skipStale p).serveHeld p).grantCheck p).waitTick p).countOpHeld p

/-- The two slots of the CCLK (R211). -/
def State.cclkSlots (s : State) (p n : Nat) (cls : Bool) : State :=
  ((((s.phase p n cls (s.members p)).countHeldActs p (s.members p)).rowSlot p n cls (s.members p)).colSlot p n cls (s.members p))

theorem State.cclkBegun_alone (hwf : Tab.wf Slice.reset s.slices = true) (p : Nat) :
    State.Alone p (s.slice p).newFrame s (s.cclkBegun p) := (State.Alone.refl hwf p).modSlice _

theorem State.Alone.fab (h : State.Alone p x s t) : t.fab = s.fab := h.frame.2 .fab (by decide)
theorem State.Alone.sys (h : State.Alone p x s t) : t.sys = s.sys := h.frame.2 .sys (by decide)
theorem State.Alone.stk (h : State.Alone p x s t) : t.stk = s.stk := h.frame.2 .stk (by decide)
theorem State.Alone.det (h : State.Alone p x s t) : t.det = s.det := h.frame.2 .det (by decide)
theorem State.Alone.cfg (h : State.Alone p x s t) : t.cfg = s.cfg := h.frame.2 .cfg (by decide)
theorem State.Alone.wrap (h : State.Alone p x s t) : t.wrap = s.wrap := h.frame.2 .wrap (by decide)

/-- What an island's bundle carries does not decide whether the island serves accesses. -/
theorem State.sliceLive_newFrame (s : State) (hwf : Tab.wf Slice.reset s.slices = true) (p : Nat) :
    (s.cclkBegun p).sliceLive p = s.sliceLive p := by
  have h := s.cclkBegun_alone hwf p
  simp only [State.sliceLive, State.islandRuns, State.islandUsed, h.here, h.sys, h.stk, h.det, h.wrap]
  rfl

/-- The refreshes that are urgent are those that the refresh state and the mode say. -/
theorem State.refUrgent_congr (hrf : (t.slice p).rf = (s.slice p).rf) (hdet : t.det = s.det) (i : Nat) :
    t.refUrgent p i = s.refUrgent p i := by
  have hband : t.bandOf p = s.bandOf p := by rw [State.bandOf, State.bandOf, hrf, hdet]
  have hlimit : t.refLimit p = s.refLimit p := by rw [State.refLimit, State.bandK, hband]; rfl
  rw [State.refUrgent, State.refUrgent, hrf, hdet, hlimit]

theorem exec_channelSchedule {p : Fin 144} (hruns : s.islandRuns p.val = true) (hdue : s.returnDue p.val = false) :
    exec (.channelSchedule p) s = .next (State.cclkOver
      (if !(s.cclkBegun p.val).sliceLive p.val then s.cclkBegun p.val
      else if ((s.cclkBegun p.val).slice p.val).sch.held ≠ 0 then
        ((s.cclkBegun p.val).alertCheck p.val).refreshSlot p.val (s.slice p.val).sch.cclk
      else ((s.cclkBegun p.val).cclkServed p.val).cclkSlots p.val (s.slice p.val).sch.cclk (s.slice p.val).sch.cls)
      p.val (s.slice p.val).sch.cclk) := by
  change execChannelSchedule p s = _
  unfold execChannelSchedule
  dsimp only
  rw [if_neg (by simp [hruns, hdue])]
  rfl

end Sys2Proof.Machine
end

section
/-! ### An urgent refresh of a held channel (R244, R496, R499, R519) -/

namespace Sys2Proof.Machine

variable {s t u : State} {p i n : Nat} {x : Slice}

theorem least_mem {α : Type} {lt : α → α → Bool} {l : List α} {a : α} (h : least lt l = some a) : a ∈ l := by
  induction l generalizing a with
  | nil => cases h
  | cons b l ih =>
    unfold least at h
    split at h
    · rw [← Option.some.inj h]
      exact List.mem_cons_self ..
    next c hc =>
      split at h
      · rw [← Option.some.inj h]
        exact List.mem_cons_of_mem _ (ih hc)
      · rw [← Option.some.inj h]
        exact List.mem_cons_self ..

/-- A bank whose refresh is urgent owes one. -/
theorem State.owed_of_refUrgent (h : s.refUrgent p i = true) : ((s.slice p).rf.rb i).owed ≠ 0 := by
  unfold State.refUrgent at h
  dsimp only at h
  split at h
  · exact Nat.pos_iff_ne_zero.1 (of_decide_eq_true h)
  · exact Nat.ne_of_gt (Nat.lt_of_le_of_lt (Nat.zero_le _) (of_decide_eq_true h))

/-- A refresh of a bank that owes one: the pointer advances, one less is owed, and at the wrap of the pointer the tracker's
window starts anew (R496, R499, R519). -/
def RefBank.refreshed (b : RefBank) (thr : Nat) : RefBank :=
  if b.ptr = 8191 then { b with ptr := (b.ptr + 1) % 8192, owed := b.owed - 1, n := 0, fdec := 0, rows := [], thr := thr }
  else { b with ptr := (b.ptr + 1) % 8192, owed := b.owed - 1 }

/-- Between `s` and `t` island `p` has come to hold the refresh state `r`, with its arbitration and its queues untouched; no other
island has changed, and counters have moved. -/
structure State.Refreshed (p : Nat) (r : Refr) (s t : State) : Prop where
  wf : Tab.wf Slice.reset t.slices = true
  rf : (t.slice p).rf = r
  sch : (t.slice p).sch = (s.slice p).sch
  dat : (t.slice p).dat = (s.slice p).dat
  there : ∀ j, j ≠ p → t.slice j = s.slice j
  counted : Counted s t
  frame : Frame [.slices, .ctl, .evt, .mbx] s t

namespace State.Refreshed

variable {r : Refr}

theorem modSlice (h : Refreshed p r s t) (f : Slice → Slice) (hrf : ∀ x, (f x).rf = x.rf) (hsch : ∀ x, (f x).sch = x.sch)
    (hdat : ∀ x, (f x).dat = x.dat) : Refreshed p r s (t.modSlice p f) := by
  have hhere := State.slice_modSlice h.wf p f
  refine ⟨modSlice_wf h.wf _, ?_, ?_, ?_, fun j hj => (State.slice_modSlice_ne _ _ hj).trans (h.there j hj),
    h.counted.trans (Counted.of_frame (State.modSlice_frame ..) (by decide) (by decide)),
    h.frame.trans ((State.modSlice_frame ..).mono (by decide))⟩
  · rw [hhere, hrf, h.rf]
  · rw [hhere, hsch, h.sch]
  · rw [hhere, hdat, h.dat]

theorem sendRow (h : Refreshed p r s t) (op fields : Nat) : Refreshed p r s (t.sendRow p op fields) :=
  h.modSlice (fun x => { x with link := x.link.send (t.slice p).sch.cclk false (rowHalf op fields) }) (fun _ => rfl) (fun _ => rfl)
    fun _ => rfl

theorem stat (h : Refreshed p r s t) (slot k : Nat) : Refreshed p r s (t.statSlice p slot k) := by
  have hframe : Frame [.ctl, .evt, .mbx] t (t.statSlice p slot k) := State.count_frame ..
  have hslices : (t.statSlice p slot k).slices = t.slices := hframe.2 .slices (by decide)
  have hslice (j : Nat) := State.slice_congr hslices j
  exact ⟨by rw [hslices]; exact h.wf, by rw [hslice, h.rf], by rw [hslice, h.sch], by rw [hslice, h.dat],
    fun j hj => (hslice j).trans (h.there j hj), h.counted.trans (State.count_counted ..), h.frame.trans (hframe.mono (by decide))⟩

end State.Refreshed

theorem Refr.modRb_congr {r : Refr} {f g : RefBank → RefBank} (h : f (r.rb i) = g (r.rb i)) : r.modRb i f = r.modRb i g := by
  unfold Refr.modRb Tab.upd
  exact congrArg (fun b => { r with rbanks := Tab.set RefBank.reset r.rbanks i b }) h

theorem State.Refreshed.modRf (hwf : Tab.wf Slice.reset s.slices = true) (f : Refr → Refr) :
    State.Refreshed p (f (s.slice p).rf) s (s.modRf p f) := by
  have hframe := s.modSlice_frame p fun x => { x with rf := f x.rf }
  have hhere := State.slice_modSlice hwf p fun x => { x with rf := f x.rf }
  exact ⟨modSlice_wf hwf _, by rw [State.modRf, hhere], by rw [State.modRf, hhere], by rw [State.modRf, hhere],
    fun j hj => State.slice_modSlice_ne _ _ hj, Counted.of_frame hframe (by decide) (by decide), hframe.mono (by decide)⟩

/-- A refresh of a bank that owes one is the bank's refresh, with the timing of the command and its counts. -/
theorem State.refpb_refreshed (hwf : Tab.wf Slice.reset s.slices = true) (howed : ((s.slice p).rf.rb i).owed ≠ 0) (n : Nat) :
    State.Refreshed p ((s.slice p).rf.modRb i fun b => b.refreshed (fld s.cfg.rdtCtl 0 16)) s (s.refpb p i n) := by
  unfold State.refpb
  extract_lets r urgent pull wrap thr s1 s2 s3
  have hbank : (s.slice p).rf.modRb i (fun b =>
      let b1 := { b with ptr := (b.ptr + 1) % 8192, owed := b.owed - 1, pulled := if pull then b.pulled + 1 else b.pulled }
      if wrap then { b1 with n := 0, fdec := 0, rows := [], thr := thr } else b1) =
      (s.slice p).rf.modRb i fun b => b.refreshed (fld s.cfg.rdtCtl 0 16) :=
    Refr.modRb_congr (by
      have hpull : ¬ pull := howed
      simp only [if_neg hpull]
      exact if_congr Iff.rfl rfl rfl)
  have h1 := State.Refreshed.modRf (p := p) hwf fun x => x.modRb i fun b =>
    let b1 := { b with ptr := (b.ptr + 1) % 8192, owed := b.owed - 1, pulled := if pull then b.pulled + 1 else b.pulled }
    if wrap then { b1 with n := 0, fdec := 0, rows := [], thr := thr } else b1
  rw [hbank] at h1
  have h2 : State.Refreshed p _ s s2 := h1.modSlice _ (fun _ => rfl) (fun _ => rfl) fun _ => rfl
  have h3 : State.Refreshed p _ s s3 := (h2.sendRow 3 _).stat 17 1
  split
  · exact h3.stat 19 1
  · split
    · exact h3.stat 18 1
    · exact h3

end Sys2Proof.Machine
end

section
/-! ### The row slot of a held channel (R202, R211, R244) -/

namespace Sys2Proof.Machine

variable {s t u : State} {p i n : Nat} {x : Slice} {l : Link}

/-- What a retrain has to send again is dropped with its alert, and nothing but the bundle changes (R600). -/
theorem State.Alone.alertCheck (h : State.Alone p x s t) : ∃ l, State.Alone p { x with link := l } s (t.alertCheck p) := by
  unfold State.alertCheck
  split
  · exact ⟨_, h.modLink Link.clearAlert⟩
  · exact ⟨x.link, h⟩

/-- The urgent bank is the one that the refresh state, the loans and the mode say. -/
theorem State.urgentBank_of_alone (h : State.Alone p { s.slice p with link := l } s t) : t.urgentBank p = s.urgentBank p := by
  have hurgent (j : Nat) : t.refUrgent p j = s.refUrgent p j := State.refUrgent_congr (by rw [h.here]) h.det j
  unfold State.urgentBank
  simp only [hurgent, h.here]

/-- An urgent refresh takes the row slot of a held channel. -/
theorem State.refreshSlot_urgent (htaken : (s.slice p).sch.rowTaken = false) (hbank : s.urgentBank p = some i)
    (hclosed : ((s.slice p).bt.bank i).openRow = none) (hok : (s.slice p).bt.actOk i n = true) :
    s.refreshSlot p n = s.refpb p i n := by
  rw [State.refreshSlot, if_neg (by rw [htaken]; exact Bool.false_ne_true), hbank]
  change s.urgentRefresh p n i = _
  unfold State.urgentRefresh
  dsimp only
  rw [hclosed]
  exact if_pos hok

theorem State.refUrgent_of_urgentBank (h : s.urgentBank p = some i) : s.refUrgent p i = true := by
  have hmem := (List.mem_filter.1 (least_mem h)).2
  exact ((Bool.and_eq_true ..).mp hmem).1

/-- The end of a CCLK in which no word waits in the island's queue. -/
theorem State.cclkOver_of_none (hfcq : (t.slice p).dat.fcq = [])
    (hread : ∀ w ∈ (t.slice p).sch.window ++ (t.slice p).sch.narrowSlot, w.word = false) (n : Nat) :
    t.cclkOver p n = t.modSch p fun x => { x with cclk := n + 1, rowTaken := false, cls := t.wantsClass p } := by
  rw [State.cclkOver, State.readQueue_of_none hfcq fun w hw => WinEnt.due_of_read (hread w hw) _]

/-- On a held channel an urgent refresh of a closed bank that timing allows takes the row slot (R244, R496, R499, R519). -/
theorem channelSchedule_held {p : Fin 144} (hwf : Tab.wf Slice.reset s.slices = true) (hruns : s.islandRuns p.val = true)
    (hlive : s.sliceLive p.val = true) (hdue : s.returnDue p.val = false) (hheld : (s.slice p.val).sch.held ≠ 0)
    (htaken : (s.slice p.val).sch.rowTaken = false) (hfcq : (s.slice p.val).dat.fcq = [])
    (hread : ∀ w ∈ (s.slice p.val).sch.window ++ (s.slice p.val).sch.narrowSlot, w.word = false)
    (hbank : s.urgentBank p.val = some i) (hclosed : ((s.slice p.val).bt.bank i).openRow = none)
    (hok : (s.slice p.val).bt.actOk i (s.slice p.val).sch.cclk = true) :
    ∃ u, exec (.channelSchedule p) s = .next u ∧ (u.slice p.val).sch.cclk = (s.slice p.val).sch.cclk + 1 ∧
      (u.slice p.val).rf = (s.slice p.val).rf.modRb i (fun b => b.refreshed (fld s.cfg.rdtCtl 0 16)) ∧
      (∀ j, j ≠ p.val → u.slice j = s.slice j) ∧ Counted s u ∧ Frame [.slices, .ctl, .evt, .mbx] s u := by
  have hbegun := s.cclkBegun_alone hwf p.val
  obtain ⟨l, hv⟩ := hbegun.alertCheck
  have hexec := exec_channelSchedule hruns hdue
  rw [State.sliceLive_newFrame s hwf, hlive, if_neg (by decide), if_pos (by rw [hbegun.here]; exact hheld)] at hexec
  generalize (s.cclkBegun p.val).alertCheck p.val = v at hv hexec
  have hslot : v.refreshSlot p.val (s.slice p.val).sch.cclk = v.refpb p.val i (s.slice p.val).sch.cclk :=
    State.refreshSlot_urgent (by rw [hv.here]; exact htaken) ((State.urgentBank_of_alone hv).trans hbank)
      (by rw [hv.here]; exact hclosed) (by rw [hv.here]; exact hok)
  have howed := State.owed_of_refUrgent (State.refUrgent_of_urgentBank hbank)
  have href := State.refpb_refreshed (s := v) hv.island.wf (i := i) (by rw [hv.here]; exact howed) (s.slice p.val).sch.cclk
  rw [hslot] at hexec
  generalize v.refpb p.val i (s.slice p.val).sch.cclk = w at href hexec
  have hsch : (w.slice p.val).sch = (s.slice p.val).sch := by rw [href.sch, hv.here]; rfl
  have hdat : (w.slice p.val).dat = (s.slice p.val).dat := by rw [href.dat, hv.here]; rfl
  rw [State.cclkOver_of_none (by rw [hdat]; exact hfcq) (by rw [hsch]; exact hread)] at hexec
  have hhere := State.slice_modSlice href.wf p.val fun x => { x with sch := { x.sch with
    cclk := (s.slice p.val).sch.cclk + 1, rowTaken := false, cls := w.wantsClass p.val } }
  have hend := w.modSlice_frame p.val fun x => { x with sch := { x.sch with
    cclk := (s.slice p.val).sch.cclk + 1, rowTaken := false, cls := w.wantsClass p.val } }
  refine ⟨_, hexec, by rw [State.modSch, hhere], ?_, fun j hj => ?_, ?_, ?_⟩
  · have hrf : (v.slice p.val).rf = (s.slice p.val).rf := by rw [hv.here]; rfl
    have hcfg : v.cfg = s.cfg := hv.cfg
    rw [State.modSch, hhere, ← hrf, ← hcfg]
    exact href.rf
  · exact (State.slice_modSlice_ne _ _ hj).trans ((href.there j hj).trans (hv.island.there j hj))
  · exact (Counted.of_frame hv.frame (by decide) (by decide)).trans (href.counted.trans
      (Counted.of_frame hend (by decide) (by decide)))
  · exact (hv.frame.mono (by decide)).trans (href.frame.trans (hend.mono (by decide)))

end Sys2Proof.Machine
end

section
/-! ### The column slot of a channel with one read whose row is open (R204, R210, R211) -/

namespace Sys2Proof.Machine

variable {s t u : State} {p n : Nat} {w : WinEnt} {k : Key} {rest : List Key}

/-! #### What is served before the slots -/

theorem State.skipStale_of_port (hwin : (s.slice p).sch.window = [w]) (huse : w.use = .port) : s.skipStale p = s := by
  unfold State.skipStale
  split
  · rfl
  next c _ =>
    extract_lets bad ids
    have hids : ids = [] := by
      simp only [ids, hwin]
      simp [bad, huse]
    exact if_pos (by rw [hids]; rfl)

theorem ChData.heldAt_empty {d : ChData} (hlines : d.lines = []) (hfow : d.fow = []) (hwb : d.wb = []) (bank row col : Nat) :
    d.heldAt bank row col = none := by
  rw [ChData.heldAt, ChData.lineAt, hlines, List.find?_nil]
  dsimp only
  rw [ChData.bufferedAt, hfow, hwb]
  rfl

theorem State.serveOne_of_empty (huse : w.use = .port) (hlines : (s.slice p).dat.lines = []) (hfow : (s.slice p).dat.fow = [])
    (hwb : (s.slice p).dat.wb = []) (k : Key) : s.serveOne p w false k = s := by
  have hheld := ChData.heldAt_empty hlines hfow hwb (keyBank k) (keyRow k) (keyCol k)
  unfold State.serveOne
  dsimp only
  rw [huse]
  dsimp only
  rw [if_neg Bool.false_ne_true, hheld]
  exact if_pos (by simp)

theorem State.serveHeld_of_empty (hwin : (s.slice p).sch.window = [w]) (hnarrow : (s.slice p).sch.narrowSlot = [])
    (huse : w.use = .port) (hlines : (s.slice p).dat.lines = []) (hfow : (s.slice p).dat.fow = [])
    (hwb : (s.slice p).dat.wb = []) : s.serveHeld p = s := by
  unfold State.serveHeld
  dsimp only
  rw [hwin, hnarrow]
  rw [List.filter_nil, State.each_nil]
  refine State.each_stays fun v hv => State.each_stays fun k _ => ?_
  obtain rfl : v = w := List.mem_singleton.1 (List.mem_filter.1 hv).1
  exact State.serveOne_of_empty huse hlines hfow hwb k

/-- With nothing held, no repair, no compare, no launch and no grant nothing is served before the slots. -/
theorem State.cclkServed_of_empty (hrep : (s.slice p).rep.repWait = []) (hcmps : (s.slice p).scr.cmps = [])
    (hwin : (s.slice p).sch.window = [w]) (hnarrow : (s.slice p).sch.narrowSlot = []) (huse : w.use = .port)
    (hlines : (s.slice p).dat.lines = []) (hfow : (s.slice p).dat.fow = []) (hwb : (s.slice p).dat.wb = [])
    (hgrant : (s.slice p).sch.grant = none) (hop : (s.slice p).brew.op = none) (hcur : (s.slice p).brew.cur = none) :
    s.cclkServed p = s := by
  have hrepair : s.retryRepairs p = s := by rw [State.retryRepairs, hrep]
  have hcompare : s.retryCompares p = s := by rw [State.retryCompares, hcmps, State.each_nil]
  have hcheck : s.grantCheck p = s := by rw [State.grantCheck, hgrant]
  have hwait : s.waitTick p = s := by rw [State.waitTick, hop]
  have hcount : s.countOpHeld p = s := by
    unfold State.countOpHeld
    dsimp only
    split
    · exact if_neg (by rw [hcur]; simp)
    · rfl
  rw [State.cclkServed, hrepair, hcompare, State.skipStale_of_port hwin huse,
    State.serveHeld_of_empty hwin hnarrow huse hlines hfow hwb, hcheck, hwait, hcount]

/-! #### The one member of E -/

/-- A read as a member of E: its next access, and its effective deadline (R210, R211). -/
def State.readCont (s : State) (w : WinEnt) (k : Key) : Cont :=
  ⟨w, false, false, keyBank k, keyRow k, s.effDl w.real w.dl w.arrival⟩

@[simp] theorem State.readCont_w (s : State) (w : WinEnt) (k : Key) : (s.readCont w k).w = w := rfl
@[simp] theorem State.readCont_brew (s : State) (w : WinEnt) (k : Key) : (s.readCont w k).brew = false := rfl
@[simp] theorem State.readCont_narrow (s : State) (w : WinEnt) (k : Key) : (s.readCont w k).narrow = false := rfl
@[simp] theorem State.readCont_bank (s : State) (w : WinEnt) (k : Key) : (s.readCont w k).bank = keyBank k := rfl
@[simp] theorem State.readCont_row (s : State) (w : WinEnt) (k : Key) : (s.readCont w k).row = keyRow k := rfl

theorem State.inIsland_of_read (hfcq : (s.slice p).dat.fcq = []) (hvis : w.vis ≤ s.sys.ltc) (hword : w.word = false) :
    s.inIsland p w = true := by
  simp [State.inIsland, hfcq, hvis, hword]

theorem State.members_of_read (hwin : (s.slice p).sch.window = [w]) (hnarrow : (s.slice p).sch.narrowSlot = [])
    (hfcq : (s.slice p).dat.fcq = []) (hcur : (s.slice p).brew.cur = none) (hkeys : w.keys = k :: rest) (hvis : w.vis ≤ s.sys.ltc)
    (hword : w.word = false) (hgreen : w.colour = .green) (hready : s.accReady p w k = true)
    (hloan : ((s.slice p).bt.bank (keyBank k)).loan = false) : s.members p = [s.readCont w k] := by
  have hbrew : s.brewCont p = none := by
    have hlaunch : s.launchOn p = none := by rw [State.launchOn, hcur]
    rw [State.brewCont, hlaunch]
  have helig : s.eligible p = [s.readCont w k] := by
    unfold State.eligible
    dsimp only
    rw [hwin, hnarrow]
    simp [hkeys, hgreen, State.inIsland_of_read hfcq hvis hword, hloan, hready, State.readCont]
  rw [State.members, helig, hbrew, sortConts]
  exact List.mergeSort_singleton _

section
variable (hrow : ((s.slice p).bt.bank (keyBank k)).openRow = some (keyRow k))
include hrow

/-- A read whose row is open needs no row command. -/
theorem State.rowNeed_of_open : s.rowNeed p (s.readCont w k) = none := by
  rw [State.rowNeed, State.readCont_brew, if_neg Bool.false_ne_true, State.readCont_bank, hrow]
  exact if_pos rfl

theorem State.rowWant_of_open : s.rowWant p (s.readCont w k) = none := by
  rw [State.rowWant, State.rowNeed_of_open hrow, ite_self]

theorem State.colReady_of_open (hcol : (s.slice p).bt.colOk (keyBank k) n = true) (hrd : (s.slice p).bt.okRd ≤ n)
    (href : s.refUrgent p (keyBank k) = false) : s.colReady p n false [s.readCont w k] (s.readCont w k) = true := by
  have hready0 : s.colReady0 p n (s.readCont w k) = true := by
    unfold State.colReady0
    dsimp only
    rw [State.readCont_brew, if_neg Bool.false_ne_true]
    simp [hrow, hcol, hrd, href]
  have hblocked : s.hitBlocked p [s.readCont w k] (s.readCont w k) = false := by
    simp [State.hitBlocked, State.rowWant_of_open hrow]
  rw [State.colReady, hready0, hblocked]
  simp

theorem State.countHeldActs_of_open (hphase : (s.slice p).sch.wrPhase = false) (hrep : (s.slice p).rep.repWait = []) :
    s.countHeldActs p [s.readCont w k] = s := by
  have hacts : ([s.readCont w k].filter fun c => (s.rowNeed p c).isSome || (c.brew && (s.slice p).brew.op.isNone)) = [] := by
    simp [State.rowNeed_of_open hrow]
  have hwr : s.wrAct p = none := by
    rw [State.wrAct, hphase]
    rfl
  unfold State.countHeldActs
  dsimp only
  rw [hacts, hwr, hrep]
  rfl

end

/-- Nothing begins a WRITE phase while no write waits (R231). -/
theorem State.phase_of_empty (hphase : (s.slice p).sch.wrPhase = false) (hwb : (s.slice p).dat.wb = []) (hhi : 0 < s.wrHi)
    (cls : Bool) (e : List Cont) : s.phase p n cls e = s := by
  unfold State.phase
  dsimp only
  rw [hphase, hwb, if_pos (show (!false) = true from rfl)]
  exact if_neg (by simp [Nat.pos_iff_ne_zero.1 hhi])

theorem State.rowSlot_of_taken (htaken : (s.slice p).sch.rowTaken = true) (cls : Bool) (e : List Cont) :
    s.rowSlot p n cls e = s := if_pos htaken

end Sys2Proof.Machine
end

section
/-! ### A read takes the column slot (R204, R210, R211, R225) -/

namespace Sys2Proof.Machine

variable {s t u : State} {p n : Nat} {w : WinEnt} {k : Key} {rest : List Key}

/-- The column slot goes to the one read of E when nothing stops it. -/
theorem State.colSlot_read (hphase : (s.slice p).sch.wrPhase = false) (hgrant : (s.slice p).sch.grant = none)
    (hrow : ((s.slice p).bt.bank (keyBank k)).openRow = some (keyRow k)) (hyields : yields w.sub = false)
    (hready : s.colReady p n false [s.readCont w k] (s.readCont w k) = true) :
    s.colSlot p n false [s.readCont w k] = (s.issueRd p n (s.readCont w k)).afterGrant p (s.readCont w k)
      (s.grantNo (s.readCont w k)) (s.isStream p (s.readCont w k)) := by
  unfold State.colSlot
  extract_lets x ready holder winReady narrow capOk capped s0 narrowPick urgents contender order hitCount take
  have h1 : ready = [s.readCont w k] := by simp only [ready, List.filter_cons, hready, if_true, List.filter_nil]
  have h2 : holder = none := by
    simp only [holder, h1, x, hgrant]
    rfl
  have h3 : narrow = [] := by simp [narrow, h1]
  have h4 : s0 = s := by
    have hcap : capped = false := by simp [capped, h3]
    simp [s0, hcap]
  have h5 : narrowPick = none := by
    simp only [narrowPick, h3, Bool.false_eq_true, if_false]
    exact ite_self _
  have h6 : order = [s.readCont w k] := by
    simp only [order, h1, Bool.false_eq_true, if_false]
    exact List.mergeSort_singleton _
  have h7 : hitCount s (s.readCont w k) = s := by simp [hitCount, State.rowNeed_of_open hrow]
  have h8 : take s (s.readCont w k) = (s.issueRd p n (s.readCont w k)).afterGrant p (s.readCont w k)
      (s.grantNo (s.readCont w k)) (s.isStream p (s.readCont w k)) := by
    simp only [take, h7]
    rfl
  clear_value take order narrowPick s0 holder
  rw [if_neg (by simp only [x, hphase]; exact Bool.false_ne_true), h2, h5, h6]
  dsimp only
  rw [List.find?_cons_of_pos (by simpa using hyields), h4]
  exact h8

theorem State.isStream_read (hblp : w.sub ≠ 36) (hgather : w.sub ≠ 42) : s.isStream p (s.readCont w k) = false := by
  simp [State.isStream, hblp, hgather]

/-- A read that is no stream leaves the grant as it is. -/
theorem State.afterGrant_not_stream (c : Cont) (no : Nat) : s.afterGrant p c no false = s.modSch p fun x => x := by
  unfold State.afterGrant
  simp

/-- The window once the read's next access has left it (R204). -/
def Sched.readIssued (x : Sched) (f : Flight) (seq : Nat) (rest : List Key) : Sched :=
  let upd (l : List WinEnt) : List WinEnt :=
    (updFirst (fun x : WinEnt => x.seq == seq) (fun x => { x with keys := rest, taken := x.taken + 1 }) l).filter
      fun x => !x.keys.isEmpty
  { x with window := upd x.window, narrowSlot := upd x.narrowSlot, flight := x.flight ++ [f] }

/-- The read in flight with the symbols its access holds and the steering then in force (R604). -/
def State.readFlight (s : State) (p n : Nat) (w : WinEnt) (k : Key) : Flight :=
  ⟨w.eid, w.sub, .port, keyBank k, keyRow k, keyCol k, s.code k, s.metStale w k, n, false, (s.slice p).link.steer,
    (s.slice p).link.narrow, w.colour⟩

/-- Between `s` and `t` island `p` has come to hold `x` but for its bundle and its bank timing, no other island has changed, and
neither have the arrays and the ports. -/
structure State.Issued (p : Nat) (sch : Sched) (s t : State) : Prop where
  wf : Tab.wf Slice.reset t.slices = true
  sch : (t.slice p).sch = sch
  dat : (t.slice p).dat = (s.slice p).dat
  link : (t.slice p).link.steer = (s.slice p).link.steer ∧ (t.slice p).link.narrow = (s.slice p).link.narrow
  there : ∀ j, j ≠ p → t.slice j = s.slice j
  frame : Frame [.slices, .fab, .ctl, .evt, .mbx] s t

namespace State.Issued

variable {x : Sched}

theorem refl (hwf : Tab.wf Slice.reset s.slices = true) (p : Nat) : Issued p (s.slice p).sch s s :=
  ⟨hwf, rfl, rfl, ⟨rfl, rfl⟩, fun _ _ => rfl, .refl ..⟩

theorem of_frame {ps : List Part} (h : Issued p x s t) (hf : Frame ps t u) (hs : Part.slices ∉ ps := by decide)
    (hps : ∀ q ∈ ps, q ∈ [Part.slices, .fab, .ctl, .evt, .mbx] := by decide) : Issued p x s u := by
  have hslices : u.slices = t.slices := hf.2 .slices hs
  have hslice (j : Nat) := State.slice_congr hslices j
  exact ⟨by rw [hslices]; exact h.wf, by rw [hslice, h.sch], by rw [hslice, h.dat], by rw [hslice]; exact h.link,
    fun j hj => (hslice j).trans (h.there j hj), h.frame.trans (hf.mono hps)⟩

theorem modSlice (h : Issued p x s t) (f : Slice → Slice) (g : Sched → Sched) (hsch : ∀ x, (f x).sch = g x.sch)
    (hdat : ∀ x, (f x).dat = x.dat) (hsteer : ∀ x, (f x).link.steer = x.link.steer)
    (hnarrow : ∀ x, (f x).link.narrow = x.link.narrow) : Issued p (g x) s (t.modSlice p f) := by
  have hhere := State.slice_modSlice h.wf p f
  refine ⟨modSlice_wf h.wf _, ?_, ?_, ⟨?_, ?_⟩, fun j hj => (State.slice_modSlice_ne _ _ hj).trans (h.there j hj),
    h.frame.trans ((State.modSlice_frame ..).mono (by decide))⟩
  · rw [hhere, hsch, h.sch]
  · rw [hhere, hdat, h.dat]
  · rw [hhere, hsteer, h.link.1]
  · rw [hhere, hnarrow, h.link.2]

theorem modSch (h : Issued p x s t) (g : Sched → Sched) : Issued p (g x) s (t.modSch p g) :=
  h.modSlice (fun x => { x with sch := g x.sch }) g (fun _ => rfl) (fun _ => rfl) (fun _ => rfl) fun _ => rfl

theorem modBt (h : Issued p x s t) (f : BankSet → BankSet) : Issued p x s (t.modBt p f) :=
  h.modSlice (fun x => { x with bt := f x.bt }) (fun x => x) (fun _ => rfl) (fun _ => rfl) (fun _ => rfl) fun _ => rfl

theorem sendCol (h : Issued p x s t) (op fields : Nat) : Issued p x s (t.sendCol p op fields) :=
  h.modSlice (fun x => { x with link := x.link.send (t.slice p).sch.cclk true (colHalf op fields) }) (fun x => x)
    (fun _ => rfl) (fun _ => rfl) (fun _ => rfl) fun _ => rfl

theorem countHit (h : Issued p x s t) (i : Nat) : Issued p x s (t.countHit p i) := by
  have hbt := h.modBt fun b => b.modBank i fun x => { x with fresh := false }
  unfold State.countHit
  dsimp only
  split
  · exact hbt.of_frame (State.count_frame (s := t.modBt p _) ..)
  · exact hbt

end State.Issued

/-- RD of the read's next access: it is in flight, and leaves the window after its last access (R204, R210, R247). -/
theorem State.issueRd_issued (hwf : Tab.wf Slice.reset s.slices = true) (huse : w.use = .port) (hkeys : w.keys = k :: rest) :
    State.Issued p ((s.slice p).sch.readIssued (s.readFlight p n w k) w.seq rest) s (s.issueRd p n (s.readCont w k)) := by
  have hcharge := (State.Issued.refl hwf p).of_frame (s.charged_chargeScale w.eid k).frame
  unfold State.issueRd
  rw [State.readCont_w, hkeys]
  dsimp only
  rw [huse]
  dsimp only
  have hhit := hcharge.countHit (keyBank k)
  have hsch := hhit.modSch fun x => x.readIssued (s.readFlight p n w k) w.seq rest
  exact (hsch.sendCol 1 (keyBank k * 2 ^ 3 + keyCol k * 2 ^ 8)).modBt _

end Sys2Proof.Machine
end

section
/-! ### One CCLK of a channel (R202 to R247, R604) -/

namespace Sys2Proof.Machine

variable {s t u : State} {p n : Nat} {w : WinEnt} {k : Key} {rest : List Key}

theorem Sched.readIssued_window {x : Sched} (hwin : x.window = [w]) (f : Flight) (rest : List Key) :
    (x.readIssued f w.seq rest).window = if rest = [] then [] else [{ w with keys := rest, taken := w.taken + 1 }] := by
  have hupd : updFirst (fun y : WinEnt => y.seq == w.seq) (fun y => { y with keys := rest, taken := y.taken + 1 }) [w] =
      [{ w with keys := rest, taken := w.taken + 1 }] := if_pos (beq_self_eq_true _)
  change ((updFirst _ _ x.window).filter _) = _
  rw [hwin, hupd]
  cases rest with
  | nil => rfl
  | cons k rest => rfl

theorem Sched.readIssued_narrowSlot {x : Sched} (hnarrow : x.narrowSlot = []) (f : Flight) (seq : Nat) (rest : List Key) :
    (x.readIssued f seq rest).narrowSlot = [] := by
  change ((updFirst _ _ x.narrowSlot).filter _) = _
  rw [hnarrow]
  rfl

/-- What a read may need besides its timing depends on the tracker and the stale bits (R126, R470). -/
theorem State.accReady_congr (hfab : t.fab = s.fab) (huse : w.use = .port) : t.accReady p w k = s.accReady p w k := by
  have hahead : t.ownWriteAhead w.eid k = s.ownWriteAhead w.eid k := by rw [State.ownWriteAhead, State.ownWriteAhead, hfab]
  have hacc : t.accStale w.eid k = s.accStale w.eid k := by rw [State.accStale, State.accStale, hfab]
  have hraw : t.staleRaw w.eid = s.staleRaw w.eid := by rw [State.staleRaw, State.staleRaw, hfab]
  have hstale : t.metStale w k = s.metStale w k := by rw [State.metStale, State.metStale, hacc]
  unfold State.accReady
  rw [huse]
  dsimp only
  rw [hahead, hstale, hraw]

/-- What the read brings with it is what the arrays and the bundle hold as the CCLK begins (R604). -/
theorem State.readFlight_begun (hwf : Tab.wf Slice.reset s.slices = true) (p n : Nat) (w : WinEnt) (k : Key) :
    (s.cclkBegun p).readFlight p n w k = s.readFlight p n w k := by
  have h := s.cclkBegun_alone hwf p
  have hlink : ((s.cclkBegun p).slice p).link.steer = (s.slice p).link.steer ∧
      ((s.cclkBegun p).slice p).link.narrow = (s.slice p).link.narrow := by
    rw [h.here]
    exact ⟨rfl, rfl⟩
  have hcode : (s.cclkBegun p).code k = s.code k := rfl
  have hstale : (s.cclkBegun p).metStale w k = s.metStale w k := rfl
  rw [State.readFlight, State.readFlight, hlink.1, hlink.2, hcode, hstale]

/-- The slots of a CCLK in which one read, whose row is open, is all there is to do. -/
theorem State.cclkSlots_read (hwf : Tab.wf Slice.reset s.slices = true) (htaken : (s.slice p).sch.rowTaken = true)
    (hwin : (s.slice p).sch.window = [w]) (hnarrow : (s.slice p).sch.narrowSlot = [])
    (hphase : (s.slice p).sch.wrPhase = false) (hgrant : (s.slice p).sch.grant = none) (hwb : (s.slice p).dat.wb = [])
    (hcur : (s.slice p).brew.cur = none) (hrep : (s.slice p).rep.repWait = []) (hfcq : (s.slice p).dat.fcq = [])
    (hhi : 0 < s.wrHi) (hkeys : w.keys = k :: rest) (hvis : w.vis ≤ s.sys.ltc) (hword : w.word = false) (huse : w.use = .port)
    (hgreen : w.colour = .green) (hyields : yields w.sub = false) (hblp : w.sub ≠ 36) (hgather : w.sub ≠ 42)
    (hready : s.accReady p w k = true) (hloan : ((s.slice p).bt.bank (keyBank k)).loan = false)
    (hrow : ((s.slice p).bt.bank (keyBank k)).openRow = some (keyRow k)) (hcol : (s.slice p).bt.colOk (keyBank k) n = true)
    (hrd : (s.slice p).bt.okRd ≤ n) (href : s.refUrgent p (keyBank k) = false) :
    State.Issued p ((s.slice p).sch.readIssued (s.readFlight p n w k) w.seq rest) s (s.cclkSlots p n false) := by
  have hmembers := State.members_of_read hwin hnarrow hfcq hcur hkeys hvis hword hgreen hready hloan
  rw [State.cclkSlots, hmembers, State.phase_of_empty hphase hwb hhi, State.countHeldActs_of_open hrow hphase hrep,
    State.rowSlot_of_taken htaken, State.colSlot_read hphase hgrant hrow hyields (State.colReady_of_open hrow hcol hrd href),
    State.isStream_read hblp hgather, State.afterGrant_not_stream]
  exact (State.issueRd_issued hwf huse hkeys).modSch fun x => x

/-- A read whose row is open and that nothing stops takes the column slot (R204, R210, R211, R604). -/
theorem channelSchedule_read {p : Fin 144} (hwf : Tab.wf Slice.reset s.slices = true) (hruns : s.islandRuns p.val = true)
    (hlive : s.sliceLive p.val = true) (hdue : s.returnDue p.val = false) (hheld : (s.slice p.val).sch.held = 0)
    (hserved : (s.cclkBegun p.val).cclkServed p.val = s.cclkBegun p.val) (hcls : (s.slice p.val).sch.cls = false)
    (hwin : (s.slice p.val).sch.window = [w]) (hnarrow : (s.slice p.val).sch.narrowSlot = [])
    (hfcq : (s.slice p.val).dat.fcq = []) (hword : w.word = false)
    (hslots : State.Issued p.val
      (((s.cclkBegun p.val).slice p.val).sch.readIssued
        ((s.cclkBegun p.val).readFlight p.val (s.slice p.val).sch.cclk w k) w.seq rest)
      (s.cclkBegun p.val) ((s.cclkBegun p.val).cclkSlots p.val (s.slice p.val).sch.cclk false)) :
    ∃ u, exec (.channelSchedule p) s = .next u ∧ (u.slice p.val).sch.cclk = (s.slice p.val).sch.cclk + 1 ∧
      (u.slice p.val).sch.flight = (s.slice p.val).sch.flight ++ [s.readFlight p.val (s.slice p.val).sch.cclk w k] ∧
      (u.slice p.val).sch.window = (if rest = [] then [] else [{ w with keys := rest, taken := w.taken + 1 }]) ∧
      (∀ j, j ≠ p.val → u.slice j = s.slice j) ∧ u.mem = s.mem ∧ u.ports = s.ports ∧ u.pending = s.pending := by
  have hbegun := s.cclkBegun_alone hwf p.val
  have hexec := exec_channelSchedule hruns hdue
  have hidle : ¬ ((s.cclkBegun p.val).slice p.val).sch.held ≠ 0 := by
    rw [hbegun.here]
    exact not_not_intro hheld
  rw [State.sliceLive_newFrame s hwf, hlive, if_neg (by decide), if_neg hidle, hserved, hcls] at hexec
  have hbsch : ((s.cclkBegun p.val).slice p.val).sch = (s.slice p.val).sch := by rw [hbegun.here]; rfl
  have hbdat : ((s.cclkBegun p.val).slice p.val).dat = (s.slice p.val).dat := by rw [hbegun.here]; rfl
  rw [State.readFlight_begun hwf, hbsch] at hslots
  generalize (s.cclkBegun p.val).cclkSlots p.val (s.slice p.val).sch.cclk false = v at hslots hexec
  have hleft := Sched.readIssued_window hwin (s.readFlight p.val (s.slice p.val).sch.cclk w k) rest
  have hread : ∀ y ∈ (v.slice p.val).sch.window ++ (v.slice p.val).sch.narrowSlot, y.word = false := by
    rw [hslots.sch, hleft, Sched.readIssued_narrowSlot hnarrow, List.append_nil]
    intro y hy
    split at hy
    · cases hy
    · rw [List.mem_singleton.1 hy]
      exact hword
  rw [State.cclkOver_of_none (by rw [hslots.dat, hbdat]; exact hfcq) hread] at hexec
  have hend := hslots.modSch fun x =>
    { x with cclk := (s.slice p.val).sch.cclk + 1, rowTaken := false, cls := v.wantsClass p.val }
  have hframe := (hbegun.frame.mono (by decide)).trans hend.frame
  exact ⟨_, hexec, by rw [hend.sch], by rw [hend.sch]; rfl, by rw [hend.sch]; exact hleft,
    fun j hj => (hend.there j hj).trans (hbegun.island.there j hj), hframe.2 .mem (by decide), hframe.2 .ports (by decide),
    hframe.1⟩

/-- Settles O17: an urgent refresh of a held channel takes the row slot; with the row slot taken, a read whose row is open is the
one member of E, and takes the column slot. -/
theorem channelScheduled : Obligations.ChannelScheduled := by
  intro p s ⟨_, _, hwf, _, _⟩ hruns hlive hdue x t
  refine ⟨fun i hheld htaken hfcq hread hbank hclosed hok => ?_, fun w k rest hheld htaken hcls hwin hnarrow hphase hgrant hwb
    hfow hlines hcur hop hrep hcmps hfcq hhi hkeys hvis hword huse hgreen hyields hblp hgather hready hloan hrow hcol hrd href => ?_⟩
  · exact channelSchedule_held hwf hruns hlive hdue hheld htaken hfcq hread hbank hclosed hok
  · have hbegun := s.cclkBegun_alone hwf p.val
    have hhere := hbegun.here
    have hserved : (s.cclkBegun p.val).cclkServed p.val = s.cclkBegun p.val :=
      State.cclkServed_of_empty (w := w) (by rw [hhere]; exact hrep) (by rw [hhere]; exact hcmps) (by rw [hhere]; exact hwin)
        (by rw [hhere]; exact hnarrow) huse (by rw [hhere]; exact hlines) (by rw [hhere]; exact hfow) (by rw [hhere]; exact hwb)
        (by rw [hhere]; exact hgrant) (by rw [hhere]; exact hop) (by rw [hhere]; exact hcur)
    have hurgent : (s.cclkBegun p.val).refUrgent p.val (keyBank k) = false :=
      (State.refUrgent_congr (by rw [hhere]; rfl) hbegun.det _).trans href
    have hslots := State.cclkSlots_read (s := s.cclkBegun p.val) (p := p.val) (n := t) (w := w) (k := k) (rest := rest)
      hbegun.island.wf (by rw [hhere]; exact htaken) (by rw [hhere]; exact hwin) (by rw [hhere]; exact hnarrow)
      (by rw [hhere]; exact hphase) (by rw [hhere]; exact hgrant) (by rw [hhere]; exact hwb) (by rw [hhere]; exact hcur)
      (by rw [hhere]; exact hrep) (by rw [hhere]; exact hfcq) hhi hkeys hvis hword huse hgreen hyields hblp hgather
      ((State.accReady_congr hbegun.fab huse).trans hready) (by rw [hhere]; exact hloan) (by rw [hhere]; exact hrow)
      (by rw [hhere]; exact hcol) (by rw [hhere]; exact hrd) hurgent
    exact channelSchedule_read hwf hruns hlive hdue hheld hserved hcls hwin hnarrow hfcq hword hslots

end Sys2Proof.Machine
end
